-- ==== Sys2Proof/Word.lean ====
section
/-! DEFINITION. The widths the manual names (00 R5: multi-byte fields are little-endian, bit 0 least significant). -/

namespace Sys2Proof

abbrev Byte := BitVec 8
abbrev Half := BitVec 16
abbrev Word := BitVec 32
abbrev Dword := BitVec 64

end Sys2Proof
end

