-- ==== Sys2Proof/Syntax.lean ====
section
/-! DEFINITION. The commands of the block: one constructor of `Instr` per row of spec/opcode_table.json, with the
operands the row's rule gives it. The table gives no bits, so a command is spelled by its row alone. -/

namespace Sys2Proof

/-- The path a packet arrives on (R45), or the armed job that holds it in its image (R343). -/
inductive Path where
  | queue (qid : Nat)
  | owner (session : Nat)
  | job (handle : Nat)
deriving DecidableEq, Repr

/-- A Silyr packet (R59) without its OPCODE, which the command's row names. `body` is every byte from offset 16
to the end of the packet, `rsv` the five reserved header bytes. -/
structure Packet where
  path  : Path
  ver   : Byte
  flags : Byte
  seq   : Word
  ctx   : Half
  len   : Byte
  rsv   : BitVec 40
  body  : List Byte
deriving DecidableEq, Repr

/-- The compute engines of a core (R121). -/
inductive Engine where
  | tensor | vector | solve
deriving DecidableEq, Repr

/-- What ECC and CRC say of the data an access met (R144, R160, R444). -/
inductive MemOutcome where
  | clean
  | corrected
  /-- A tier-2 burst came right on a retry (R160). -/
  | retried
  /-- Flits on a link inside the package came right when their sender replayed them so many times (R444). -/
  | replayed (times : Nat)
  /-- A word that the access read. -/
  | uncorrectable (address : Nat)
  /-- A write whose two retries failed (R160). -/
  | writeFailed (address : Nat)
  /-- A word of the job store that holds the packet whose operation this is (R444). -/
  | jobStore
  /-- A word of the Swage's codebook buffer (R444). -/
  | codebook
deriving DecidableEq, Repr

/-- Header and payload checks of a CSI-2 packet (R260). -/
inductive LinkCheck where
  | ok | headerCorrected | bad
deriving DecidableEq, Repr

/-- A CSI-2 short packet: the frame number it carries and what its header's check gave (R260). -/
structure FramePacket where
  number : Nat
  link : LinkCheck
  /-- The burst that carried it: D-PHY or C-PHY, and how many data lanes or trios took part (R468). -/
  dphy : Bool
  lanes : Nat
deriving DecidableEq, Repr

/-- What patrol scrub met in a maintenance slot (R170, R444). -/
inductive ScrubResult where
  | none | corrected (frame : Nat) | uncorrectable (frame : Nat)
deriving DecidableEq, Repr

/-- The firmware processors with a watchdog (R373). -/
inductive Proc where
  | sec | temper | hearth | ccc (k : Nat)
deriving DecidableEq, Repr

/-- How the work of a start-up stage ended (R376, R377). -/
inductive BootReport where
  | ok | noBank | otherBank | railFailed | stackFailed | coresLost (cores : List Nat) | ufsFailed | netFailed (ports : List Nat)
deriving DecidableEq, Repr

/-- The public instructions of the test port (R478); any other is private (R413). -/
inductive JtagInstr where
  | bypass | idcode | samplePreload | extest | clamp | highz | priv (code : Nat)
deriving DecidableEq, Repr

/-- What a TLS handshake on the management port presents (R392, R413): what the client addressed and offered, and its chain. -/
structure Handshake where
  /-- IPv6 address and TCP port that the client addressed. -/
  dest        : List Byte
  port        : Nat
  suiteOk     : Bool
  groupOk     : Bool
  sigOk       : Bool
  psk         : Bool
  resumption  : Bool
  earlyData   : Bool
  chainDigest : List Byte
  serial      : List Byte
deriving DecidableEq, Repr

/-- The door a register access comes through (R384): BAR0 of a function, or the safety port. -/
inductive Door where
  | bar0 (fn : Nat)
  | safetyPort
deriving DecidableEq, Repr

/-- Causes latched at a TRIP (R458). -/
inductive TripCause where
  | supply | thermal | internalLink | tagOrCommit
deriving DecidableEq, Repr

/-- The commands. -/
inductive Instr where
  /-- HELLO (R68). -/
  | hello (p : Packet)
  /-- HEARTBEAT (R86). -/
  | heartbeat (p : Packet)
  /-- RECLAIM (R88). -/
  | reclaim (p : Packet)
  /-- DEVICE_INFO (R72). -/
  | deviceInfo (p : Packet)
  /-- NOP (R77). -/
  | nop (p : Packet)
  /-- PARK (R76). -/
  | park (p : Packet)
  /-- UNPARK (R76). -/
  | unpark (p : Packet)
  /-- QUEUE_CREATE (R53). -/
  | queueCreate (p : Packet)
  /-- QUEUE_DESTROY (R55). -/
  | queueDestroy (p : Packet)
  /-- QUEUE_RESET (R55). -/
  | queueReset (p : Packet)
  /-- EQ_CREATE (R56). -/
  | eqCreate (p : Packet)
  /-- EQ_DESTROY (R77). -/
  | eqDestroy (p : Packet)
  /-- EVENT_SUBSCRIBE (R56). -/
  | eventSubscribe (p : Packet)
  /-- CONFIG_WRITE (R79). -/
  | configWrite (p : Packet)
  /-- CONFIG_READ (R79). -/
  | configRead (p : Packet)
  /-- CONFIG_COMMIT (R80). -/
  | configCommit (p : Packet)
  /-- TIME_READ (R44). -/
  | timeRead (p : Packet)
  /-- STATS_STREAM (R480). -/
  | statsStream (p : Packet)
  /-- MATMUL (R148). -/
  | matmul (p : Packet)
  /-- VECTOR_OP (R128). -/
  | vectorOp (p : Packet)
  /-- REDUCE (R129). -/
  | reduce (p : Packet)
  /-- MOVE (R148). -/
  | move (p : Packet)
  /-- TILE_MOVE (R172). -/
  | tileMove (p : Packet)
  /-- REGION_ALLOC (R158). -/
  | regionAlloc (p : Packet)
  /-- REGION_FREE (R264). -/
  | regionFree (p : Packet)
  /-- BELLOWS_START (R175). -/
  | bellowsStart (p : Packet)
  /-- BELLOWS_STOP (R177). -/
  | bellowsStop (p : Packet)
  /-- ATTENTION (R194). -/
  | attention (p : Packet)
  /-- ATTENTION_BACKWARD (R202). -/
  | attentionBackward (p : Packet)
  /-- PT_CREATE (R183). -/
  | ptCreate (p : Packet)
  /-- PT_DESTROY (R211). -/
  | ptDestroy (p : Packet)
  /-- KV_APPEND (R189). -/
  | kvAppend (p : Packet)
  /-- VERIFY_COMMIT (R193). -/
  | verifyCommit (p : Packet)
  /-- SEQ_PREEMPT (R207). -/
  | seqPreempt (p : Packet)
  /-- SEQ_RESUME (R208). -/
  | seqResume (p : Packet)
  /-- SWAP_POOL_REGISTER (R203). -/
  | swapPoolRegister (p : Packet)
  /-- SWAP_OUT_PAGE (R206). -/
  | swapOutPage (seq : Nat)
  /-- SWAP_IN_PAGE (R208). -/
  | swapInPage (seq : Nat)
  /-- STREAM_START (R219). -/
  | streamStart (p : Packet)
  /-- STREAM_PAUSE (R232). -/
  | streamPause (p : Packet)
  /-- STREAM_RESUME (R232). -/
  | streamResume (p : Packet)
  /-- STREAM_END (R232). -/
  | streamEnd (p : Packet)
  /-- CHUNK (R223). -/
  | chunk (p : Packet)
  /-- STATE_EXPORT (R235). -/
  | stateExport (p : Packet)
  /-- STATE_IMPORT (R236). -/
  | stateImport (p : Packet)
  /-- RE_ANCHOR (R237). -/
  | reAnchor (p : Packet)
  /-- STATE_SWAP_OUT (R227). -/
  | stateSwapOut (p : Packet)
  /-- STREAM_OP_TURN (R222). -/
  | streamOpTurn (stream : Nat)
  /-- CONV (R244). -/
  | conv (p : Packet)
  /-- POOL (R248). -/
  | pool (p : Packet)
  /-- CROP_RESIZE (R252). -/
  | cropResize (p : Packet)
  /-- SLOT_CONFIG (R263). -/
  | slotConfig (p : Packet)
  /-- CALIB_WRITE (R278). -/
  | calibWrite (p : Packet)
  /-- GRID_CREATE (R279). -/
  | gridCreate (p : Packet)
  /-- GRID_DESTROY (R287). -/
  | gridDestroy (p : Packet)
  /-- GRID_PROJECT (R282). -/
  | gridProject (p : Packet)
  /-- STREAM_HEALTH (R287). -/
  | streamHealth (p : Packet)
  /-- FACTOR (R291). -/
  | factor (p : Packet)
  /-- TRI_SOLVE (R297). -/
  | triSolve (p : Packet)
  /-- QP_SETUP (R302). -/
  | qpSetup (p : Packet)
  /-- QP_SOLVE (R305). -/
  | qpSolve (p : Packet)
  /-- LATTICE_LOAD (R316). -/
  | latticeLoad (p : Packet)
  /-- MAP_PUBLISH (R318). -/
  | mapPublish (p : Packet)
  /-- PLAN_SEARCH (R322). -/
  | planSearch (p : Packet)
  /-- PLAN_ABORT (R331). -/
  | planAbort (p : Packet)
  /-- CTX_CREATE (R334). -/
  | ctxCreate (p : Packet)
  /-- CTX_DESTROY (R335). -/
  | ctxDestroy (p : Packet)
  /-- PARTITION_CREATE (R336). -/
  | partitionCreate (p : Packet)
  /-- PARTITION_RELEASE (R340). -/
  | partitionRelease (p : Packet)
  /-- JOB_ARM (R344). -/
  | jobArm (p : Packet)
  /-- JOB_DISARM (R347). -/
  | jobDisarm (p : Packet)
  /-- MODEL_REGISTER (R355). -/
  | modelRegister (p : Packet)
  /-- MODEL_PIN (R356). -/
  | modelPin (p : Packet)
  /-- MODEL_UNPIN (R356). -/
  | modelUnpin (p : Packet)
  /-- ACCOUNT_READ (R359). -/
  | accountRead (p : Packet)
  /-- FW_STAGE (R366). -/
  | fwStage (p : Packet)
  /-- ACTIVATE_FW (R368). -/
  | activateFw (p : Packet)
  /-- FW_STATUS (R367). -/
  | fwStatus (p : Packet)
  /-- KEY_ROTATE (R400). -/
  | keyRotate (p : Packet)
  /-- RETIRE_KEY (R401). -/
  | retireKey (p : Packet)
  /-- KEY_STATUS (R402). -/
  | keyStatus (p : Packet)
  /-- POWER_READ (R440). -/
  | powerRead (p : Packet)
  /-- FAULT_LOG_EXPORT (R459). -/
  | faultLogExport (p : Packet)
  /-- ERROR_COUNTS (R457). -/
  | errorCounts (p : Packet)
  /-- SQ_TAIL (R50). -/
  | sqTail (fn q : Nat) (value : Word)
  /-- CQ_HEAD (R50). -/
  | cqHead (fn q : Nat) (value : Word)
  /-- EQ_HEAD (R67). -/
  | eqHead (fn e : Nat) (value : Word)
  /-- PACKET_FETCH (R57). -/
  | packetFetch
  /-- COMPLETION_WRITE (R58). -/
  | completionWrite
  /-- ORPHAN_ENTERED (R87). -/
  | orphanEntered (fn : Nat)
  /-- FRAME_EDGE (R35). -/
  | frameEdge
  /-- QUENCH_END (R407). -/
  | quenchEnd (part : Nat)
  /-- STATS_PUBLISH (R37). -/
  | statsPublish
  /-- STATS_PAGE_SEND (R480). -/
  | statsPageSend (session : Nat)
  /-- SNAPSHOT_PUBLISH (R381). -/
  | snapshotPublish
  /-- TRIG_LATEST_EXPIRE (R348). -/
  | trigLatestExpire (job : Nat)
  /-- FIRING_COMPLETE (R349). -/
  | firingComplete (job : Nat)
  /-- CTL_MISS (R350). -/
  | ctlMiss (job : Nat)
  /-- SYNC (R26). -/
  | sync (port : Nat) (offset : Int) (interval : Nat)
  /-- ANNOUNCE (R25). -/
  | announce (port : Nat)
  /-- PDELAY_REQ (R25). -/
  | pdelayReq (port : Nat) (reqId : Nat)
  /-- PDELAY_RESP (R25). -/
  | pdelayResp (port : Nat) (t1 t2 t3 t4 : Int)
  /-- GM_SYNC_TRANSMIT (R25). -/
  | gmSyncTransmit
  /-- TIME_HOLDOVER (R26). -/
  | timeHoldover
  /-- TIME_FREE (R26). -/
  | timeFree
  /-- CSI2_FRAME_START (R266). -/
  | csi2FrameStart (die port vc : Nat) (frame : FramePacket)
  /-- CSI2_LONG_PACKET (R260). -/
  | csi2LongPacket (die port vc dt : Nat) (link : LinkCheck) (payload : List Byte)
  /-- CSI2_FRAME_END (R260). -/
  | csi2FrameEnd (die port vc : Nat) (frame : FramePacket)
  /-- TDM_FRAME_SYNC (R469). -/
  | tdmFrameSync (die port bclks : Nat) (words : List Nat)
  /-- SPI_PERIODIC_START (R263). -/
  | spiPeriodicStart (slot : Nat)
  /-- SPI_TRANSACTION_END (R262). -/
  | spiTransactionEnd (slot : Nat) (payload : List Byte)
  /-- GPIO_EDGE (R470). -/
  | gpioEdge (die line : Nat) (rising : Bool)
  /-- ETH_FRAME (R262); `vlan` is FFFFh for an untagged frame. -/
  | ethFrame (port mac vlan : Nat) (fcsOk : Bool) (payload : List Byte)
  /-- SAMPLE_READY (R270). -/
  | sampleReady (slot : Nat)
  /-- INGRESS_T2_WRITE (R268). -/
  | ingressT2Write (slot : Nat)
  /-- MAINTENANCE_SLOT (R170). -/
  | maintenanceSlot (stack : Nat) (margin : Int) (scrub : ScrubResult)
  /-- BELLOWS_TILE_FETCH (R178). -/
  | bellowsTileFetch (stream pos : Nat) (link : MemOutcome)
  /-- OPERATION_ISSUE (R142). -/
  | operationIssue (core : Nat) (engine : Engine)
  /-- OPERATION_RETIRE (R142). -/
  | operationRetire (core : Nat) (engine : Engine) (mem : MemOutcome)
  /-- TONGS_DESCRIPTOR_START (R140). -/
  | tongsDescriptorStart (core : Nat)
  /-- TONGS_DESCRIPTOR_RETIRE (R140). -/
  | tongsDescriptorRetire (core : Nat) (mem : MemOutcome)
  /-- WATCHDOG_EXPIRE (R373). -/
  | watchdogExpire (proc : Proc)
  /-- HEARTH_RESUME (R375). -/
  | hearthResume
  /-- FW_SWITCH (R370). -/
  | fwSwitch
  /-- FW_MEASURE (R371). -/
  | fwMeasure (allMatch : Bool)
  /-- ACTIVATION_TIMEOUT (R369). -/
  | activationTimeout
  /-- PWR_GOOD_RISE (R376). -/
  | pwrGoodRise (testEn : Bool)
  /-- BOOT_STAGE_ADVANCE (R376). -/
  | bootStageAdvance (report : BootReport)
  /-- TEST_UNLOCK_SESSION (R414). -/
  | testUnlockSession (hs : Handshake)
  /-- TEST_UNLOCK_TIMEOUT (R413). -/
  | testUnlockTimeout
  /-- JTAG_INSTRUCTION (R478). -/
  | jtagInstruction (ir : JtagInstr)
  /-- MGMT_SESSION_OPEN (R392). -/
  | mgmtSessionOpen (hs : Handshake)
  /-- MGMT_SESSION_CLOSE (R72). -/
  | mgmtSessionClose (session : Nat)
  /-- MGMT_MESSAGE (R393). -/
  | mgmtMessage (session type : Nat) (bytes : List Byte)
  /-- HOST_HEARTBEAT (R86). -/
  | hostHeartbeat (fn : Nat) (value : Word)
  /-- SAFETY_HEARTBEAT (R385). -/
  | safetyHeartbeat (value : Word)
  /-- SAFETY_HEARTBEAT_LAPSE (R385). -/
  | safetyHeartbeatLapse
  /-- STOP_REQUEST (R385). -/
  | stopRequest (value : Word)
  /-- STOP_CLEAR_REQUEST (R385). -/
  | stopClearRequest (value : Word)
  /-- STOP_IN_ASSERT (R472). -/
  | stopInAssert
  /-- CTL_COMMIT (R382). -/
  | ctlCommit (door : Door) (value : Word)
  /-- ADMIN_QUEUE_ENABLE (R379). -/
  | adminQueueEnable (fn : Nat)
  /-- ADMIN_QUEUE_DISABLE (R379). -/
  | adminQueueDisable (fn : Nat)
  /-- REGISTER_WRITE (R380). -/
  | registerWrite (door : Door) (offset : Nat) (value : Word)
  /-- SAFETY_SPI_READ (R387). -/
  | safetySpiRead (wire : List Byte) (paused : Bool)
  /-- SAFETY_SPI_WRITE (R387). -/
  | safetySpiWrite (wire : List Byte) (paused : Bool)
  /-- PERST_ASSERT (R466). -/
  | perstAssert (link : Nat)
  /-- HOST_LINK_DOWN (R466). -/
  | hostLinkDown (link : Nat)
  /-- BUS_MASTER_ENABLE (R466). -/
  | busMasterEnable (fn : Nat)
  /-- MODULE_RESET (R473). -/
  | moduleReset
  /-- VIN_CAUSE_RAISE (R415). -/
  | vinCauseRaise (millivolts : Nat)
  /-- VIN_CAUSE_CLEAR (R415). -/
  | vinCauseClear (millivolts : Nat)
  /-- E3_UNDERVOLTAGE (R415). -/
  | e3Undervoltage
  /-- OVERVOLTAGE_TRIP (R415). -/
  | overvoltageTrip
  /-- UNDERVOLTAGE_LOCKOUT (R419). -/
  | undervoltageLockout
  /-- CARRIER_START (R419). -/
  | carrierStart (belowFor : Nat)
  /-- EMERGENCY_HOLD_EXPIRE (R435). -/
  | emergencyHoldExpire
  /-- TRIP (R439). -/
  | trip (cause : TripCause)
  /-- CAP_CONTROL_TICK (R425). -/
  | capControlTick (milliwatts : Nat) (rails : List Nat)
  /-- EXCURSION_END (R426). -/
  | excursionEnd
  /-- OVERPOWER_GATE (R427). -/
  | overpowerGate (milliwatts : Nat)
  /-- THERMAL_SAMPLE (R432). -/
  | thermalSample (temps : List Int)
  /-- THROTTLE_STEP (R433). -/
  | throttleStep (cluster : Nat)
  /-- POWER_STATE_CHOOSE (R429). -/
  | powerStateChoose (cluster : Nat) (tNext : Option Nat)
  /-- POWER_STATE_WAKE (R429). -/
  | powerStateWake (cluster : Nat)
  /-- STANDBY_ENTER (R431). -/
  | standbyEnter
  /-- STANDBY_WAKE (R431). -/
  | standbyWake
  /-- CORE_FENCE (R448). -/
  | coreFence (core cause : Nat)
  /-- SELF_TEST_DONE (R450). -/
  | selfTestDone (core : Nat) (pass : Bool)
  /-- SPARE_COPY_DONE (R451). -/
  | spareCopyDone (cluster : Nat) (badLines : Nat)
  /-- INTERNAL_LINK_FAIL (R445). -/
  | internalLinkFail
  /-- FAULT_LOG_WRITE (R458). -/
  | faultLogWrite
  /-- STOP_IN_DEASSERT (R385). -/
  | stopInDeassert
  /-- RESET_IN_RELEASE (R473). -/
  | resetInRelease
  /-- RAIL_OUT_OF_REGULATION (R420). -/
  | railOutOfRegulation
  /-- OVERPOWER_RELEASE (R427). -/
  | overpowerRelease (milliwatts : Nat)
  /-- PROCESSOR_RESTART_DONE (R373). -/
  | processorRestartDone (proc : Proc)
  /-- HOST_LINK_UP (R477). -/
  | hostLinkUp (link : Nat)
  /-- QUENCH_TIER2_PART_END (R408). -/
  | quenchTier2PartEnd
  /-- MODEL_LOAD_DONE (R356). -/
  | modelLoadDone (model : Nat)
deriving DecidableEq, Repr

end Sys2Proof
end

