-- ==== Sys2Proof/Decode.lean ====
section
/-! DEFINITION. Words that spell commands: spec/opcode_table.json gives no row of this block any bits. -/

namespace Sys2Proof

/-- No row has bits, so no word spells a command. -/
def decodeTableWord (_nbits _w : Nat) : Option Instr := none

end Sys2Proof
end

