-- ==== Sys2Proof/Config.lean ====
section
/-! DEFINITION. What assembly and manufacture fix, and the free values: every constant here is opaque, so no
proof can see what it is and a statement holds whatever it is (log entries 3 to 9). -/

namespace Sys2Proof

/-- The three order codes of R1. -/
inductive OrderCode where
  | a4 | a8 | d8
deriving DecidableEq, Repr, Inhabited

namespace Config

/-- The order code this part was assembled as (R1). -/
opaque assembled : OrderCode
/-- Silicon revision of IDCODE (R478). -/
opaque revision : BitVec 4
/-- Which of `n` free things the device takes, where the manual says only "any free" (log 4). -/
opaque pick : Nat → Nat
/-- A fresh byte where the manual leaves contents undefined (log 5). -/
opaque freeByte : Nat → Nat → Byte
/-- A fresh 64-bit value: session nonces (R68), random numbers of SEC. -/
opaque freeDword : Nat → Dword
/-- A fresh FP32 code where a function's result is only bounded (R108). -/
opaque freeFp32 : Nat → Word → Word
/-- Code of a CROP_RESIZE sample whose sample point is not finite (R254; log 23), from the box, the output size, the place and
the channel: the same for the same operands (R120). -/
opaque cropSample : List Nat → Word
/-- Code of RESID (0) or TAU (1) of a matrix that was not factored (R296; log 84), from the operation's fields and operands: the
same for the same operands (R120). -/
opaque unfactored : List Nat → Word
/-- Values of a planned trajectory between its ends, for which the manual gives no arithmetic (R325; log 63): from the operands
that shape it and an index, the same for the same operands (R120). -/
opaque trajectory : List Nat → Nat → Nat
/-- Whether a segment's coordinate that falls between two voxels takes the upper one (R325; log 63): ends, step, steps. -/
opaque segmentUp : Int → Int → Nat → Nat → Bool
/-- Servo law of the gPTP slave (R25): rate term in parts per 10^9 after a Sync with this offset (log 6). -/
opaque servoRate : Nat → Int → Int
/-- Whether Temper takes boost it is allowed (R13, R425). -/
opaque takeBoost : Nat → Bool
/-- How long Quench, restarts and copies are paused beyond the manual's bound: none is promised (R411). -/
opaque freeNat : Nat → Nat

/-- Bytes of a summary copy of the fault log, CRC-32 included: its layout is not given (R458; log 35). -/
opaque summaryImage : List Nat → List Byte

/-- SOURCE of a MEM_UNCORRECTABLE event for a cluster or I/O-die store: kind and unit (R65 gives no code; log 19). -/
opaque storeSource : Nat → Nat → Nat
/-- Address that the event gives for a place in a store other than a core store: kind and place (log 19). -/
opaque errorAddress : Nat → Nat → Nat

/-- Where the codebooks (kind 0), schedules (1) and compressed records (2) of a model image lie: kind and offset. The manual
does not say how a loader finds them (log 31). -/
opaque imageObjects : List Byte → List (Nat × Nat)

/-- SHA-384 (R364, R391), uninterpreted (log 8). -/
opaque sha384 : List Byte → List Byte
/-- ECDSA P-384 verification (R366, R398, R405): public key, message, signature. -/
opaque ecdsaVerify : List Byte → List Byte → List Byte → Bool
/-- ECDSA P-384 signature by the device identity key (R235, R459). -/
opaque identitySign : List Byte → List Byte
/-- AES-256 in counter mode: key stream byte `i` for a key and an IV (R399); GCM encrypts by adding it. -/
opaque keyStream : List Byte → List Byte → Nat → Byte
/-- GCM tag over ciphertext and associated data (R204, R235). -/
opaque gcmTag : List Byte → List Byte → List Byte → List Byte → List Byte
/-- HKDF-SHA384, first 32 bytes (R404): input key material, salt, info. -/
opaque hkdf : List Byte → List Byte → List Byte → List Byte
/-- AES-256 page key drawn by SEC's generator (R390) for a context, generation and draw. -/
opaque pageKey : Nat → Nat → Nat → List Byte

/-- X and Y of the identity public key (R391), 48 bytes each. -/
opaque identityX : List Byte
opaque identityY : List Byte
/-- Device root secret (R390). -/
opaque rootSecret : List Byte
/-- Owner anchors (R390): 4 digests, the unused ones zero. -/
opaque ownerAnchors : List (List Byte)
/-- Fleet transport roots (R390): 4 slots, the unused ones zero. -/
opaque fleetRoots : List (List Byte)
/-- The three firmware public keys whose digests are fused (R390). -/
opaque firmwareKeys : List (List Byte)
/-- The identity certificate but for its subject serial number (R390). -/
opaque identityCert : List Byte
/-- MAC address of the management port (R392), 6 bytes. -/
opaque managementMac : List Byte
/-- Service anchor digest (R390). -/
opaque serviceAnchor : List Byte
/-- Fused minimum security version at manufacture (R390). -/
opaque minSecVersion : Nat

end Config
end Sys2Proof
end

