-- ==== Sys2Proof/Machine/Tab.lean ====
section
/-! DEFINITION. Finite tables keyed by numbers, and byte memories over them, in one canonical form: keys strictly
rising, and for a memory no listed byte equal to what an unlisted address reads as (log 10). -/

namespace Sys2Proof.Machine

/-- A finite map from numbers, sorted by key. -/
abbrev Tab (α : Type) := List (Nat × α)

def Tab.get? {α : Type} : Tab α → Nat → Option α
  | [], _ => none
  | (k, v) :: r, i => if i = k then some v else Tab.get? r i

def Tab.set {α : Type} : Tab α → Nat → α → Tab α
  | [], i, v => [(i, v)]
  | (k, w) :: r, i, v =>
    if i < k then (i, v) :: (k, w) :: r
    else if i = k then (i, v) :: r
    else (k, w) :: Tab.set r i v

def Tab.erase {α : Type} (t : Tab α) (i : Nat) : Tab α := t.filter (fun kv => kv.1 ≠ i)

/-- Change the entry at `i`, if there is one. -/
def Tab.update {α : Type} (t : Tab α) (i : Nat) (f : α → α) : Tab α :=
  match t.get? i with
  | some v => t.set i (f v)
  | none => t

def Tab.has {α : Type} (t : Tab α) (i : Nat) : Bool := (t.get? i).isSome

def Tab.mapVals {α : Type} (t : Tab α) (f : Nat → α → α) : Tab α := t.map (fun kv => (kv.1, f kv.1 kv.2))

def Tab.keys {α : Type} (t : Tab α) : List Nat := t.map (·.1)

def Tab.vals {α : Type} (t : Tab α) : List α := t.map (·.2)

/-- The keys whose entries satisfy a test, ascending. -/
def Tab.keysWhere {α : Type} (t : Tab α) (f : Nat → α → Bool) : List Nat := (t.filter (fun kv => f kv.1 kv.2)).map (·.1)

/-- Keys strictly rising. -/
def Tab.wf {α : Type} : Tab α → Bool
  | [] => true
  | [_] => true
  | a :: b :: r => decide (a.1 < b.1) && Tab.wf (b :: r)

/-- A byte memory: what is not listed reads as zero (log 10). -/
abbrev Mem := List Host.Cell

def Mem.read (m : Mem) (a : Nat) : Byte := (Tab.get? m a).getD 0

def Mem.write (m : Mem) (a : Nat) (b : Byte) : Mem := if b = 0 then Tab.erase m a else Tab.set m a b

/-- The canonical form: addresses strictly rising, no listed zero. -/
def Mem.wf (m : Mem) : Bool := Tab.wf m && m.all (fun c => decide (c.2 ≠ 0))

def Mem.readBytes (m : Mem) (a n : Nat) : List Byte := (List.range n).map (fun i => Mem.read m (a + i))

def Mem.writeBytes (m : Mem) (a : Nat) : List Byte → Mem
  | [] => m
  | b :: bs => Mem.writeBytes (Mem.write m a b) (a + 1) bs

/-- Zero-fill of `n` bytes from `a`. -/
def Mem.zero (m : Mem) (a n : Nat) : Mem := m.filter (fun c => !(decide (a ≤ c.1) && decide (c.1 < a + n)))

end Sys2Proof.Machine
end

