-- ==== Sys2Proof/Machine/Bytes.lean ====
section
/-! DEFINITION. Little-endian fields (R5), bit ranges, packet fields by offset (R59), and the cyclic redundancy
checks of R99 and R387. -/

namespace Sys2Proof.Machine

def leNat : List Byte → Nat
  | [] => 0
  | b :: bs => b.toNat + 256 * leNat bs

def beNat (bs : List Byte) : Nat := leNat bs.reverse

def toLe : Nat → Nat → List Byte
  | 0, _ => []
  | n + 1, v => BitVec.ofNat 8 v :: toLe n (v / 256)

def zeros (n : Nat) : List Byte := List.replicate n 0

/-- Exactly `n` bytes of an uninterpreted primitive's answer. -/
def fixedLen (n : Nat) (bs : List Byte) : List Byte := (bs ++ zeros n).take n

def fieldAt (bs : List Byte) (off n : Nat) : Nat := leNat ((bs.drop off).take n)

def sliceAt (bs : List Byte) (off n : Nat) : List Byte := (bs.drop off).take n

def allZero (bs : List Byte) : Bool := bs.all (· == 0)

/-- Bits [hi:lo] of a number. -/
def bits (v hi lo : Nat) : Nat := (v / 2 ^ lo) % 2 ^ (hi - lo + 1)

def bit (v i : Nat) : Bool := decide ((v / 2 ^ i) % 2 = 1)

def b2n (b : Bool) : Nat := if b then 1 else 0

/-- A two's-complement reading of the low `w` bits. -/
def signedOf (w v : Nat) : Int := if v % 2 ^ w < 2 ^ (w - 1) then (v % 2 ^ w : Nat) else ((v % 2 ^ w : Nat) : Int) - (2 ^ w : Nat)

/-- The low `w` bits of an integer. -/
def toBits (w : Nat) (i : Int) : Nat := (i % ((2 ^ w : Nat) : Int)).toNat

def ceilDiv (a b : Nat) : Nat := (a + b - 1) / b

def roundUp (a g : Nat) : Nat := ceilDiv a g * g

/-- Saturate a signed value to `w` bits (R44, R287). -/
def satSigned (w : Nat) (i : Int) : Int := max (-(2 ^ (w - 1) : Nat) : Int) (min i ((2 ^ (w - 1) : Nat) - 1 : Int))

def satNat (w v : Nat) : Nat := min v (2 ^ w - 1)

/-- A field of a packet by its offset in the packet (bytes past the end read as zero; LEN is checked first). -/
def Packet.fld (p : Sys2Proof.Packet) (off n : Nat) : Nat := fieldAt p.body (off - 16) n

def Packet.bytes (p : Sys2Proof.Packet) (off n : Nat) : List Byte := sliceAt p.body (off - 16) n

/-- The bytes from `off` up to `stop` are reserved and zero (R6). -/
def Packet.rsvZero (p : Sys2Proof.Packet) (off stop : Nat) : Bool := allZero (Packet.bytes p off (stop - off))

def Packet.len (p : Sys2Proof.Packet) : Nat := p.len.toNat

def Packet.ctxNo (p : Sys2Proof.Packet) : Nat := p.ctx.toNat

def Packet.fence (p : Sys2Proof.Packet) : Bool := bit p.flags.toNat 0

def Packet.irq (p : Sys2Proof.Packet) : Bool := bit p.flags.toNat 1

/-- One bit of the reflected CRC-32 of IEEE 802.3 (R99). -/
def crc32Bit (c : Nat) : Nat := if c % 2 = 1 then (c / 2) ^^^ 0xEDB88320 else c / 2

def iter {α : Type} (f : α → α) : Nat → α → α
  | 0, x => x
  | n + 1, x => iter f n (f x)

def crc32 (bs : List Byte) : Nat :=
  (bs.foldl (fun c b => iter crc32Bit 8 (c ^^^ b.toNat)) 0xFFFFFFFF) ^^^ 0xFFFFFFFF

/-- CRC-16 of R387: polynomial 1021h, initial FFFFh, no reflection, no final inversion. -/
def crc16 (bs : List Byte) : Nat :=
  bs.foldl (fun c b => iter (fun x => if x ≥ 32768 then ((x * 2) % 65536) ^^^ 0x1021 else x * 2) 8
    (c ^^^ (b.toNat * 256))) 0xFFFF

/-- CRC-16 of tier-2 bursts (R159): polynomial 8BB7h. -/
def crcBurst (bs : List Byte) : Nat :=
  bs.foldl (fun c b => iter (fun x => if x ≥ 32768 then ((x * 2) % 65536) ^^^ 0x8BB7 else x * 2) 8
    (c ^^^ (b.toNat * 256))) 0

/-- The lowest of the values below `n` that satisfy `free`, listed. -/
def freeBelow (n : Nat) (free : Nat → Bool) : List Nat := (List.range n).filter free

/-! ### Identities (R391) -/

/-- SHA-384 of a key in uncompressed form, and its identity (R391). -/
def keyDigest (x y : List Byte) : List Byte := fixedLen 48 (Sys2Proof.Config.sha384 ([0x04] ++ x ++ y))
def signerId (x y : List Byte) : List Byte := (keyDigest x y).take 16

def identityKey : List Byte × List Byte := (fixedLen 48 Sys2Proof.Config.identityX, fixedLen 48 Sys2Proof.Config.identityY)
def deviceId : List Byte := signerId identityKey.1 identityKey.2

/-- ASCII digit of a hexadecimal digit. -/
def hexDigit (n : Nat) : Byte := BitVec.ofNat 8 (if n < 10 then 0x30 + n else 0x37 + n)

/-- Bytes in hexadecimal, as ASCII. -/
def hexText (bs : List Byte) : List Byte := (bs.map (fun b => [hexDigit (b.toNat / 16), hexDigit (b.toNat % 16)])).flatten

end Sys2Proof.Machine
end

