-- ==== Sys2Proof/Machine/Num.lean ====
section
/-! DEFINITION. Number formats and arithmetic (R91 to R119): exact values, encodings, rounding, overflow, MX blocks,
and the exception summary. A finite value is `m * 2^e` exactly, so every rounding happens once, where a rule says so. -/

namespace Sys2Proof.Machine

/-- A value of a floating-point operand: NaN, a signed infinity, or a sign and a magnitude `m * 2^e`. -/
inductive Fv where
  | nan
  | inf (neg : Bool)
  | fin (neg : Bool) (m : Nat) (e : Int)
deriving DecidableEq, Repr, Inhabited

/-- How a format uses its top exponent (R92, R94). -/
inductive Top where
  | ieee | e4m3 | finite
deriving DecidableEq, Repr

/-- An element format: exponent bits, mantissa bits, bias, use of the top exponent (R92, R94). -/
structure Fmt where
  eb : Nat
  mb : Nat
  bias : Int
  top : Top
deriving DecidableEq, Repr

def fp64 : Fmt := ⟨11, 52, 1023, .ieee⟩
def fp32 : Fmt := ⟨8, 23, 127, .ieee⟩
def bf16 : Fmt := ⟨8, 7, 127, .ieee⟩
def e4m3 : Fmt := ⟨4, 3, 7, .e4m3⟩
def e5m2 : Fmt := ⟨5, 2, 15, .ieee⟩
def e2m3 : Fmt := ⟨2, 3, 1, .finite⟩
def e3m2 : Fmt := ⟨3, 2, 3, .finite⟩
def e2m1 : Fmt := ⟨2, 1, 1, .finite⟩

def Fmt.width (f : Fmt) : Nat := 1 + f.eb + f.mb

/-- Code of the largest finite magnitude. -/
def Fmt.maxCode (f : Fmt) : Nat :=
  match f.top with
  | .ieee => (2 ^ f.eb - 1) * 2 ^ f.mb - 1
  | .e4m3 => 2 ^ (f.eb + f.mb) - 2
  | .finite => 2 ^ (f.eb + f.mb) - 1

/-- Exponent of one unit of the subnormal range. -/
def Fmt.qmin (f : Fmt) : Int := 1 - f.bias - f.mb

def Fmt.signBit (f : Fmt) (neg : Bool) : Nat := if neg then 2 ^ (f.eb + f.mb) else 0

/-- The canonical NaN code (R115); formats without NaN never write it. -/
def Fmt.nanCode (f : Fmt) : Nat :=
  match f.top with
  | .ieee => if f.mb = 2 then 0x7F else (2 ^ f.eb - 1) * 2 ^ f.mb + 2 ^ (f.mb - 1)
  | _ => 2 ^ (f.eb + f.mb) - 1

def Fmt.infCode (f : Fmt) : Nat := (2 ^ f.eb - 1) * 2 ^ f.mb

/-- The value an encoding stands for (R92, R94). -/
def Fmt.decode (f : Fmt) (code : Nat) : Fv :=
  let neg := decide ((code / 2 ^ (f.eb + f.mb)) % 2 = 1)
  let mag := code % 2 ^ (f.eb + f.mb)
  let ex := mag / 2 ^ f.mb
  let man := mag % 2 ^ f.mb
  if f.top = .ieee ∧ mag = f.infCode then .inf neg
  else if f.maxCode < mag then .nan
  else if ex = 0 then .fin neg man f.qmin
  else .fin neg (2 ^ f.mb + man) (f.qmin + ex - 1)

/-- Rounding modes of R111; stochastic rounding carries the 16 random bits of R113. -/
inductive RMode where
  | rne | rtz | sr (r : Nat)
deriving DecidableEq, Repr

/-- Exception summary bits (R119). -/
def fNanIn : Nat := 1
def fInfIn : Nat := 2
def fNanOut : Nat := 4
def fInfOut : Nat := 8
def fSat : Nat := 16
def fUnder : Nat := 32
def fBlockNan : Nat := 64
def fClamped : Nat := 128

/-- `m * 2^e` over the quantum `2^q`, rounded to an integer. -/
def roundMag (mode : RMode) (m : Nat) (e q : Int) : Nat :=
  if q ≤ e then m * 2 ^ (e - q).toNat
  else
    let d := (q - e).toNat
    let k := m / 2 ^ d
    let rest := m % 2 ^ d
    match mode with
    | .rtz => k
    | .rne => if 2 * rest < 2 ^ d then k else if 2 ^ d < 2 * rest then k + 1 else if k % 2 = 1 then k + 1 else k
    | .sr r => if r < rest * 2 ^ 16 / 2 ^ d then k + 1 else k

/-- Magnitude code of `m * 2^e` in `f`, rounded with an unbounded exponent range. -/
def Fmt.roundCode (f : Fmt) (mode : RMode) (m : Nat) (e : Int) : Nat :=
  if m = 0 then 0
  else
    let q := max ((m.log2 : Int) + e - f.mb) f.qmin
    (q - f.qmin).toNat * 2 ^ f.mb + roundMag mode m e q

/-- What an infinity or an overflowing value is written as (R114): code and summary bits. -/
def Fmt.overflow (f : Fmt) (sat neg : Bool) : Nat × Nat :=
  if sat then (f.signBit neg + f.maxCode, fSat)
  else match f.top with
    | .ieee => (f.signBit neg + f.infCode, fInfOut)
    | .e4m3 => (f.nanCode, fNanOut)
    | .finite => (f.signBit neg + f.maxCode, fSat)

/-- The magnitude lies beyond the largest finite one. -/
def Fmt.beyond (f : Fmt) (m : Nat) (e : Int) : Bool :=
  let c := f.roundCode .rtz m e
  let q := max ((m.log2 : Int) + e - f.mb) f.qmin
  decide (f.maxCode < c) || (decide (c = f.maxCode) && decide (e < q) && decide (m % 2 ^ (q - e).toNat ≠ 0))

/-- Conversion into an unscaled format (R112 to R117): code and summary bits. -/
def Fmt.encode (f : Fmt) (mode : RMode) (sat : Bool) (x : Fv) : Nat × Nat :=
  match x with
  | .nan => (f.nanCode, fNanOut)
  | .inf neg => f.overflow sat neg
  | .fin neg m e =>
    let c := f.roundCode mode m e
    if mode = .rtz ∧ f.beyond m e then (f.signBit neg + f.maxCode, fSat)
    else if f.maxCode < c then f.overflow sat neg
    else (f.signBit neg + c, if c = 0 ∧ m ≠ 0 then fUnder else if c = f.maxCode ∧ f.beyond m e then fSat else 0)

/-- Rounding to a format without saturation, to nearest even: the intermediate roundings of R106 to R110. -/
def Fmt.round (f : Fmt) (x : Fv) : Fv := f.decode (f.encode .rne false x).1

/-- Rounding to FP32, to nearest even. -/
def r32 (x : Fv) : Fv := fp32.round x

/-- Rounding to FP64, to nearest even (R110). -/
def r64 (x : Fv) : Fv := fp64.round x

def Fv.zero : Fv := .fin false 0 0
def Fv.one : Fv := .fin false 1 0
def Fv.ofNat (n : Nat) : Fv := .fin false n 0
def Fv.ofInt (i : Int) : Fv := .fin (decide (i < 0)) i.natAbs 0

def Fv.isNan : Fv → Bool
  | .nan => true
  | _ => false

def Fv.isInf : Fv → Bool
  | .inf _ => true
  | _ => false

def Fv.isFin : Fv → Bool
  | .fin _ _ _ => true
  | _ => false

def Fv.isZero : Fv → Bool
  | .fin _ m _ => decide (m = 0)
  | _ => false

def Fv.neg : Fv → Fv
  | .nan => .nan
  | .inf n => .inf (!n)
  | .fin n m e => .fin (!n) m e

def Fv.abs : Fv → Fv
  | .nan => .nan
  | .inf _ => .inf false
  | .fin _ m e => .fin false m e

def Fv.isNeg : Fv → Bool
  | .nan => false
  | .inf n => n
  | .fin n _ _ => n

/-- Exact product; zero times infinity is NaN. -/
def Fv.mul : Fv → Fv → Fv
  | .nan, _ => .nan
  | _, .nan => .nan
  | .inf a, .inf b => .inf (a != b)
  | .inf a, .fin b m _ => if m = 0 then .nan else .inf (a != b)
  | .fin a m _, .inf b => if m = 0 then .nan else .inf (a != b)
  | .fin a m e, .fin b n g => .fin (a != b) (m * n) (e + g)

/-- The signed integer a finite magnitude is at exponent `q ≤ e`. -/
def scaledInt (neg : Bool) (m : Nat) (e q : Int) : Int :=
  let k : Int := (m * 2 ^ (e - q).toNat : Nat)
  if neg then -k else k

/-- Exact sum; opposite infinities give NaN, and an exact zero is +0 unless both addends are -0 (R106, R116). -/
def Fv.add : Fv → Fv → Fv
  | .nan, _ => .nan
  | _, .nan => .nan
  | .inf a, .inf b => if a = b then .inf a else .nan
  | .inf a, .fin _ _ _ => .inf a
  | .fin _ _ _, .inf b => .inf b
  | .fin a m e, .fin b n g =>
    if m = 0 ∧ n = 0 then .fin (a && b) 0 0
    else
      let q := min e g
      let k := scaledInt a m e q + scaledInt b n g q
      .fin (decide (k < 0)) k.natAbs q

def Fv.sub (a b : Fv) : Fv := a.add b.neg

/-- Exact `a * b + c`. -/
def Fv.fma (a b c : Fv) : Fv := (a.mul b).add c

/-- Scale by a power of two. -/
def Fv.scale2 (x : Fv) (k : Int) : Fv :=
  match x with
  | .fin n m e => .fin n m (e + k)
  | y => y

/-- Strictly below, with -0 below +0 (R107); NaN compares false. -/
def Fv.below : Fv → Fv → Bool
  | .nan, _ => false
  | _, .nan => false
  | .inf a, .inf b => a && !b
  | .inf a, .fin _ _ _ => a
  | .fin _ _ _, .inf b => !b
  | .fin a m e, .fin b n g =>
    if m = 0 ∧ n = 0 then a && !b
    else decide (scaledInt a m e (min e g) < scaledInt b n g (min e g))

/-- Strictly below as numbers: the zeros are equal. -/
def Fv.lt (a b : Fv) : Bool := if a.isZero && b.isZero then false else a.below b

def Fv.le (a b : Fv) : Bool := !a.isNan && !b.isNan && !(b.lt a)

/-- Equal as numbers; NaN is never equal (R193). -/
def Fv.eqv (a b : Fv) : Bool := !a.isNan && !b.isNan && !(a.lt b) && !(b.lt a)

def Fv.max (a b : Fv) : Fv := if a.isNan || b.isNan then .nan else if a.below b then b else a
def Fv.min (a b : Fv) : Fv := if a.isNan || b.isNan then .nan else if b.below a then b else a

/-- Quotient with 64 extra bits and a sticky bit, exact enough for one rounding to FP32 or FP64. -/
def Fv.div : Fv → Fv → Fv
  | .nan, _ => .nan
  | _, .nan => .nan
  | .inf _, .inf _ => .nan
  | .inf a, .fin b _ _ => .inf (a != b)
  | .fin a _ _, .inf b => .fin (a != b) 0 0
  | .fin a m e, .fin b n g =>
    if n = 0 then (if m = 0 then .nan else .inf (a != b))
    else
      let s := n.log2 + 64
      let q := m * 2 ^ s / n
      let sticky := if m * 2 ^ s % n = 0 then 0 else 1
      .fin (a != b) (2 * q + sticky) (e - g - s - 1)

/-- Integer square root by bits from `2^k` down. -/
def isqrtFrom : Nat → Nat → Nat → Nat
  | 0, n, r => if (r + 1) * (r + 1) ≤ n then r + 1 else r
  | k + 1, n, r => isqrtFrom k n (if (r + 2 ^ (k + 1)) * (r + 2 ^ (k + 1)) ≤ n then r + 2 ^ (k + 1) else r)

def isqrt (n : Nat) : Nat := isqrtFrom (n.log2 / 2 + 1) n 0

/-- Square root with a sticky bit; negative nonzero arguments give NaN and -0 gives -0 (R108). -/
def Fv.sqrt : Fv → Fv
  | .nan => .nan
  | .inf n => if n then .nan else .inf false
  | .fin neg m e =>
    if m = 0 then .fin neg 0 0
    else if neg then .nan
    else
      let s : Nat := 140 + (if (e % 2 = 0) then 0 else 1)
      let k := m * 2 ^ s
      let r := isqrt k
      .fin false (2 * r + (if r * r = k then 0 else 1)) ((e - (s : Int)) / 2 - 1)

/-- Floor to an integer; NaN and infinities give zero. -/
def Fv.floor : Fv → Int
  | .fin neg m e =>
    let k : Int := if 0 ≤ e then ((m * 2 ^ e.toNat : Nat) : Int) else ((m / 2 ^ (-e).toNat : Nat) : Int)
    let exact := decide (0 ≤ e) || decide (m % 2 ^ (-e).toNat = 0)
    if neg then (if exact then -k else -k - 1) else k
  | _ => 0

/-- Nearest integer, ties to even. -/
def Fv.nearest : Fv → Int
  | .fin neg m e => let k : Int := (roundMag .rne m e 0 : Nat); if neg then -k else k
  | _ => 0

/-- An FP32 code as a value, and back to a code. -/
def f32 (w : Nat) : Fv := fp32.decode w

def code32 (x : Fv) : Nat := (fp32.encode .rne false x).1

/-- FP32 arithmetic with one rounding to nearest even (R109, R110). -/
def fadd (a b : Fv) : Fv := r32 (a.add b)
def fsub (a b : Fv) : Fv := r32 (a.sub b)
def fmul (a b : Fv) : Fv := r32 (a.mul b)
def ffma (a b c : Fv) : Fv := r32 (a.fma b c)
def fdiv (a b : Fv) : Fv := r32 (a.div b)
def fsqrt (a : Fv) : Fv := r32 a.sqrt

/-- One step of the stochastic-rounding register (R113). -/
def lfsrStep (s : Nat) : Nat := if s % 2 = 1 then (s / 2) ^^^ 0x80200003 else s / 2

/-- The 16 random bits of element `i` for a seed; a zero seed is one (R113). -/
def lfsrBits (seed i : Nat) : Nat := iter lfsrStep (i + 1) (if seed = 0 then 1 else seed) % 2 ^ 16

/-- The ARITH byte (R111): ROUND, SAT and the seed of R113. -/
structure Arith where
  round : Nat
  sat : Bool
  seed : Nat
deriving DecidableEq, Repr

def Arith.of (byte seed : Nat) : Arith := ⟨bits byte 7 6, bit byte 5, seed⟩

/-- The byte is well formed: ROUND is not 11b and the reserved bits are zero (R6, R111, R112). -/
def arithOk (byte : Nat) : Bool := decide (bits byte 7 6 ≠ 3) && decide (bits byte 4 0 = 0)

def Arith.rne : Arith := ⟨0, false, 0⟩

def Arith.mode (a : Arith) (i : Nat) : RMode :=
  if a.round = 0 then .rne else if a.round = 1 then .rtz else .sr (lfsrBits a.seed i)

/-- Rounding of a value that is taken to FP32 under ARITH before the destination's own rounding. -/
def Arith.widen (a : Arith) : RMode := if a.round = 1 then .rtz else .rne

/-- A finite value taken to FP32 on load, or between a function and a narrower destination, with the overflow and underflow
rules of R114 and R116: the value, and the summary bits it sets (R107, R112). -/
def Arith.to32 (a : Arith) (x : Fv) : Fv × Nat :=
  match x with
  | .fin _ _ _ => (fp32.decode (fp32.encode a.widen a.sat x).1, (fp32.encode a.widen a.sat x).2 &&& (fSat ||| fUnder))
  | y => (y, 0)

/-- The unscaled element format of a code (R91, R94); MXINT8 is not a floating format. -/
def elemFmt (code : Nat) : Option Fmt :=
  match code with
  | 0 => some fp32
  | 1 => some bf16
  | 2 => some e4m3
  | 3 => some e5m2
  | 4 => some e4m3
  | 5 => some e5m2
  | 6 => some e2m3
  | 7 => some e3m2
  | 8 => some e2m1
  | _ => none

def isMx (code : Nat) : Bool := decide (4 ≤ code ∧ code ≤ 9)

/-- Bits per stored element (R91). -/
def elemBits (code : Nat) : Nat :=
  match code with
  | 0 => 32
  | 1 => 16
  | 2 => 8
  | 3 => 8
  | 4 => 8
  | 5 => 8
  | 6 => 6
  | 7 => 6
  | 8 => 4
  | 9 => 8
  | 12 => 64
  | _ => 8

/-- Value of an element code without its block scale (R94, R95). -/
def elemValue (fmt code : Nat) : Fv :=
  if fmt = 9 then
    let q := signedOf 8 code
    .fin (decide (q < 0)) q.natAbs (-6)
  else match elemFmt fmt with
    | some f => f.decode code
    | none => .zero

/-- An E8M0 scale (R93). -/
def scaleValue (code : Nat) : Fv := if code = 255 then .nan else .fin false 1 ((code : Int) - 127)

/-- emax of an MX element format (R94). -/
def emaxOf (fmt : Nat) : Int :=
  match fmt with
  | 4 => 8
  | 5 => 15
  | 6 => 2
  | 7 => 4
  | 8 => 2
  | _ => 0

/-- Largest finite element code of an MX element format, unsigned part. -/
def mxMaxCode (fmt : Nat) : Nat := if fmt = 9 then 127 else match elemFmt fmt with
  | some f => f.maxCode
  | none => 0

/-- An element of an MX block with a sign; MXINT8 is two's complement (R95). -/
def mxSigned (fmt mag : Nat) (neg : Bool) : Nat :=
  if fmt = 9 then (if neg then (256 - mag) % 256 else mag) else match elemFmt fmt with
    | some f => f.signBit neg + mag
    | none => 0

/-- What an infinity becomes in an MX block that keeps it (R118). -/
def mxInf (fmt : Nat) (sat neg : Bool) : Nat × Nat :=
  if fmt = 5 && !sat then (mxSigned 5 (e5m2.infCode) neg, fInfOut) else (mxSigned fmt (mxMaxCode fmt) neg, fSat)

/-- One finite element of an MX block, already divided by the block scale (R118). -/
def mxElem (fmt : Nat) (mode : RMode) (neg : Bool) (m : Nat) (e : Int) : Nat × Nat :=
  let mag := if fmt = 9 then roundMag mode m e (-6) else match elemFmt fmt with
    | some f => f.roundCode mode m e
    | none => 0
  if mxMaxCode fmt < mag then (mxSigned fmt (mxMaxCode fmt) neg, fSat)
  else (mxSigned fmt mag neg, if mag = 0 ∧ m ≠ 0 then fUnder else 0)

def exp2Floor (x : Fv) : Option Int :=
  match x with
  | .fin _ m e => if m = 0 then none else some ((m.log2 : Int) + e)
  | _ => none

/-- floor(log2) of the largest finite magnitude of a block; none when every finite element is zero. -/
def blockTop : List Fv → Option Int
  | [] => none
  | x :: r => match exp2Floor x, blockTop r with
    | some a, some b => some (max a b)
    | some a, none => some a
    | none, o => o

/-- Form one MX block (R118). `first` is the index in the result tensor of the block's first element. Answers the scale,
the element codes and the summary bits. -/
def mxForm (fmt : Nat) (ar : Arith) (first : Nat) (xs : List Fv) : Nat × List Nat × Nat :=
  if xs.any Fv.isNan || (xs.any Fv.isInf && !ar.sat && decide (fmt ≠ 5)) then
    (255, xs.map (fun _ => 0), fBlockNan ||| fNanOut)
  else
    let top := blockTop xs
    let e : Int := match top with
      | none => 0
      | some t => max (t - emaxOf fmt) (-127)
    let clamp := match top with
      | none => 0
      | some t => if t - emaxOf fmt < -127 then fClamped else 0
    let el := (List.range xs.length).map (fun i => match xs.getD i .zero with
      | .inf neg => mxInf fmt ar.sat neg
      | .fin neg m x => mxElem fmt (ar.mode (first + i)) neg m (x - e)
      | .nan => (0, 0))
    ((e + 127).toNat, el.map (·.1), el.foldl (fun a c => a ||| c.2) clamp)

/-- Summary bits an operand value raises (R119). -/
def inFlags (x : Fv) : Nat := match x with
  | .nan => fNanIn
  | .inf _ => fInfIn
  | _ => 0

/-- The fixed tree of R152 over FP32 partials: one round of neighbours `w` apart, repeated. -/
def treeRound : List Fv → List Fv
  | a :: b :: r => fadd a b :: treeRound r
  | l => l

def treeSum (l : List Fv) : Fv := (iter treeRound (l.length.log2 + 1) l).headD .zero

/-- Lane order of R129: lane `l` takes the elements `i mod 64 = l` in ascending `i`, then the tree over 64 lanes. -/
def laneReduce (step : Fv → Fv → Fv) (start : Fv) (tree : Fv → Fv → Fv) (xs : List Fv) : Fv :=
  let lanes := (List.range 64).map (fun l =>
    ((List.range (ceilDiv (xs.length - l) 64)).map (fun k => xs.getD (64 * k + l) .zero)).foldl step start)
  let once : List Fv → List Fv := fun l =>
    (List.range (l.length / 2)).map (fun i => tree (l.getD (2 * i) .zero) (l.getD (2 * i + 1) .zero))
  (iter once 6 lanes).headD .zero

end Sys2Proof.Machine
end

