-- ==== Sys2Proof/Machine/PartProto.lean ====
section
/-! DEFINITION. State of robot time (R22 to R44), the frame statistics (R35 to R39), the commit scopes (R78 to R81),
and the Silyr protocol (R45 to R90): functions, queues, event queues, packets in flight and completions. -/

namespace Sys2Proof.Machine

/-- The robot-time counter and its discipline (R22 to R34). -/
structure Clock where
  /-- The counter runs: from its release at start-up until TRIP or PS5 (R22). -/
  running : Bool
  /-- Robot time in ns (R22). -/
  now : Nat
  /-- 32-bit fractional-nanosecond accumulator. -/
  frac : Nat
  /-- Signed rate term in parts per 10^9 (R26, R38). -/
  rate : Int
  /-- Offset still to be slewed away, in 10^-9 ns (R27). -/
  slew : Int
  /-- Whole microseconds to step forward at the next edge that allows it, in ns (R27). -/
  step : Nat
  /-- Time state code (R26). -/
  timeState : Nat
  /-- Consecutive Sync messages with |offset| below 1 us (R26). -/
  lockRun : Nat
  /-- Robot time of the last Sync accepted on the named port. -/
  lastSync : Option Nat
  /-- The grandmaster's sync interval, ns. -/
  syncInterval : Nat
  /-- Last measured offset to the grandmaster, ns (R38). -/
  offset : Int
  /-- Last measured peer delay of each port, ns (R25). -/
  peerDelay : Tab Int
  /-- Robot time at which the grandmaster sends its next Sync (R25, R30). -/
  nextSync : Nat
  /-- Number of the frame the next edge opens; the current frame is one less (R28). -/
  nextFrame : Nat
  /-- Robot time of the edge that opened the current frame. -/
  frameStart : Nat
  /-- Robot time of the next frame edge (R28, R34). -/
  nextEdge : Nat
  /-- PARKED is declared (R76). -/
  parked : Bool
deriving DecidableEq, Repr

/-- Per-frame counters of one partition (R38). -/
structure PartAcc where
  dispatched : Nat
  completed : Nat
  misses : Nat
  coreTime : Nat
  t1 : Nat
  t2rd : Nat
  t2wr : Nat
  t3 : Nat
  latMax : Nat
  slackMin : Option Int
deriving DecidableEq, Repr

def PartAcc.zero : PartAcc := ⟨0, 0, 0, 0, 0, 0, 0, 0, 0, none⟩

/-- Per-frame counters of the device (R38). -/
structure FrameAcc where
  commitsAccepted : Nat
  commitsRejected : Nat
  tagPeakShared : Nat
  tagPeakControl : Nat
  emergencyPeak : Nat
  misses : Nat
  /-- Energy at VIN, microjoules. -/
  energy : Nat
  /-- Energy of each cluster's rails, microjoules (R358). -/
  clusterEnergy : Tab Nat
  /-- Energy of the memory-stack rails, microjoules. -/
  stackEnergy : Nat
  /-- Engine time in ns of partition p in cluster k, by p * 8 + k (R358). -/
  clusterTime : Tab Nat
  /-- FRAME_FLAGS [0] and [1] of the frame, set when it opened; [2] when a step opened it. -/
  commitApplied : Bool
  cfgChanged : Bool
  stepped : Bool
  parts : Tab PartAcc
deriving DecidableEq, Repr

def FrameAcc.zero : FrameAcc := ⟨0, 0, 0, 0, 0, 0, 0, [], 0, [], false, false, false, []⟩

/-- The record of one partition in a latched entry (R38). -/
structure PartRec where
  state : Nat
  cls : Nat
  cores : Nat
  oneShort : Bool
  acc : PartAcc
  energy : Nat
deriving DecidableEq, Repr

/-- One entry of the statistics latch ring (R36, R38). -/
structure StatsEntry where
  frameNo : Nat
  start : Nat
  stop : Nat
  timeState : Nat
  late : Bool
  rate : Int
  offset : Int
  acc : FrameAcc
  parts : List PartRec
deriving DecidableEq, Repr

/-- The frame statistics (R35 to R39, R480). -/
structure Stats where
  acc : FrameAcc
  /-- Latched and not drained, oldest first; at most 128 (R36). -/
  ring : List StatsEntry
  /-- The two BAR0 buffers (R37), empty until first written. -/
  pageA : List Byte
  pageB : List Byte
  /-- Whether buffer B holds the newer FRAME_NO. -/
  newerB : Bool
deriving DecidableEq, Repr

/-- One commit scope (R78). -/
structure Scope where
  kind : Nat
  id : Nat
deriving DecidableEq, Repr

/-- An accepted commit awaiting its edge (R32, R81): the whole snapshot, as offset and word. -/
structure Commit where
  scope : Scope
  frame : Nat
  words : Tab Nat
deriving DecidableEq, Repr

/-- Shadow and active copies of every scope, keyed by `scopeKey`; an unlisted word holds its reset value (R78). -/
structure Scopes where
  shadow : Tab Nat
  active : Tab Nat
  pending : List Commit
deriving DecidableEq, Repr

/-- A session on a function (R68). -/
structure Session where
  nonce : Nat
  minor : Nat
  periodMs : Nat
  lastBeat : Nat
deriving DecidableEq, Repr

/-- A store, as the model keys its addresses (see `Stores`). -/
inductive Store where
  | core | region | tier2 | xd | host | ufs
deriving DecidableEq, Repr

/-- A write that becomes visible when its operation completes (R16, R140). -/
structure Wr where
  store : Store
  addr : Nat
  bytes : List Byte
deriving DecidableEq, Repr

/-- Outcome of an operation whose completion is not yet written (R58, R62, R84). -/
structure Finished where
  flight : Nat
  path : Sys2Proof.Path
  opcode : Nat
  seq : Nat
  ctx : Nat
  ver : Nat
  irq : Bool
  status : Nat
  info : Nat
  result : Nat
  frame : Nat
  /-- Bytes of tier-3 writes still to be sent before the completion, by host address (R58, R87). -/
  hostWrites : List (Nat × List Byte)
  /-- The other function whose host memory they go to, through a window of its (R87, R171). -/
  window : Option Nat
  /-- Messages of TYPE 04h to the owner session that follow the completion (R79, R457, R459). -/
  messages : List (List Byte)
deriving DecidableEq, Repr

/-- A PCIe function (R45, R52, R379): its admin block, its session and its orphan state. -/
structure Func where
  sqBase : Nat
  cqBase : Nat
  slots : Nat
  msix : Nat
  enable : Bool
  setupErr : Bool
  busMaster : Bool
  session : Option Session
  orphan : Bool
  orphanSkips : Nat
  reclaimStatus : Option Nat
  /-- Completions held in orphan mode, in completion order (R84, R87). -/
  held : List Finished
deriving DecidableEq, Repr

def Func.reset : Func := ⟨0, 0, 0, 0, false, false, false, none, false, 0, none, []⟩

/-- A command queue (R47 to R60). -/
structure CmdQueue where
  fn : Nat
  base : Nat
  cplBase : Nat
  slots : Nat
  msix : Nat
  bindCtx : Option Nat
  cls : Nat
  maxInflight : Nat
  /-- Consumer index of the command ring and the latest SQ_TAIL. -/
  head : Nat
  tail : Nat
  /-- Producer and consumer index of the completion ring. -/
  cplTail : Nat
  cplHead : Nat
  halted : Bool
  /-- The QUEUE_DESTROY or CTX_DESTROY waiting for in-flight packets (R55). -/
  closing : Option Nat
deriving DecidableEq, Repr

/-- An event queue (R56, R64 to R67, R394). -/
structure EventQueue where
  fn : Nat
  /-- The owner session the queue belongs to, if any (R394). -/
  owner : Option Nat
  base : Nat
  entries : Nat
  msix : Nat
  bindCtx : Option Nat
  irqSeverity : Nat
  mask : Nat
  minSeverity : Nat
  head : Nat
  tail : Nat
  eqSeq : Nat
  /-- Events dropped since the last EVENTS_LOST, counted (R67). -/
  dropped : Nat
  /-- Records of an owner's queue not sent on its session yet (R394). -/
  buffer : List (List Byte) := []
deriving DecidableEq, Repr

/-- A packet fetched and not completed (R58, R84). -/
structure Flight where
  id : Nat
  path : Sys2Proof.Path
  fn : Nat
  opcode : Nat
  pkt : Sys2Proof.Packet
  tagged : Bool
  control : Bool
  /-- Dispatched: its effect is under way, and it completes later. -/
  running : Bool
  /-- Held by Hearth with its tag after its checks: dispatched again when what it waits for comes (R321, R339). -/
  parked : Bool
  /-- While parked: it waits for tier-2 pages, and its place in the order of such requests (R205). -/
  pages : Bool
  asked : Nat
  /-- While parked: Hearth has not dispatched it, so no later packet of its queue is dispatched either (R58, R222). -/
  held : Bool
  /-- For an operation placed on cores: it ends when its slots and descriptors have retired. -/
  placed : Bool
  /-- Its outcome is formed when it ends (searches, solves and batches, whose deadline runs meanwhile). -/
  late : Bool
  /-- Robot time at which Hearth fetched it (R44, R86). -/
  fetchTime : Nat
  dispatchTime : Nat
  deadline : Option Nat
  status : Nat
  info : Nat
  result : Nat
  /-- Writes that become visible at the end (R16), and those to host memory (R58). -/
  writes : List Wr
  hostWrites : List (Nat × List Byte)
  /-- The settings active at its dispatch, of one that waits: trust entries (R396) or a channel's words (R304). -/
  words : Option (List Nat) := none
deriving DecidableEq, Repr

/-- The Silyr protocol engine of Hearth and SEC (R45 to R90). -/
structure Proto where
  funcs : Tab Func
  queues : Tab CmdQueue
  eqs : Tab EventQueue
  flights : List Flight
  nextFlight : Nat
  /-- Completions to be written, in completion order (R58). -/
  finished : List Finished
  /-- Fetch arbitration: credits of classes 1, 2 and 3 left in the 16 : 4 : 1 round, and the last queue served in each
  class and among the admin queues (R57). -/
  credits : List Nat
  lastServed : List Nat
deriving DecidableEq, Repr

/-- An event (R64, R65). -/
structure Event where
  code : Nat
  category : Nat
  severity : Nat
  ctx : Option Nat
  source : Nat
  detail : Nat
deriving DecidableEq, Repr

/-- What leaves the part other than by a host-memory write: the model's own record, newest last (log 9). -/
inductive Output where
  | msix (fn vector : Nat)
  | mgmt (session type : Nat) (bytes : List Byte)
  | tlsAlert
  /-- The certificate with which SEC authenticates itself in a handshake (R392). -/
  | tlsServer (certificate : List Byte)
  | gptp (port : Nat) (what : String)
  | spi (bytes : List Byte)
  | sensorSpi (slot : Nat) (bytes : List Byte)
  | pdelayResp (port reqId : Nat)
deriving DecidableEq, Repr

end Sys2Proof.Machine
end

