-- ==== Sys2Proof/Machine/PartSched.lean ====
section
/-! DEFINITION. State of contexts, keys, partitions, Quench, armed jobs, models and accounting (R334 to R362, R399 to
R411), and of the firmware, the start-up, the register window, the stop latch, the management sessions and the fuses
(R363 to R398, R413, R414). -/

namespace Sys2Proof.Machine

/-- A tenant page-key generation (R399): 0 FREE, 1 IN_USE, 2 RETIRED. -/
structure KeyGen where
  state : Nat
  key : List Byte
deriving DecidableEq, Repr

/-- Cumulative totals of a context (R358, R359); energy in microjoules, core time in ns. -/
structure Account where
  frameNo : Nat
  coreTime : Nat
  t1 : Nat
  t2rd : Nat
  t2wr : Nat
  t3 : Nat
  energy : Nat
  misses : Nat
deriving DecidableEq, Repr

def Account.zero : Account := ⟨0, 0, 0, 0, 0, 0, 0, 0⟩

/-- A context (R334, R399). -/
structure Context where
  fn : Nat
  gens : List KeyGen
  current : Nat
  /-- Next swap number, never reset (R399). -/
  swapNo : Nat
  acct : Account
  /-- The CTX_DESTROY under way, if any, and the step of R335 it has reached. -/
  destroy : Option (Nat × Nat)
deriving DecidableEq, Repr

/-- A partition (R336 to R340). A position without a core is vacant (R451, R455). -/
structure Partition where
  state : Nat
  ctx : Nat
  cls : Nat
  pair : Bool
  qpMask : Nat
  regionCeil : Nat
  t2CeilGib : Nat
  positions : List (Option Nat)
  /-- Frame number of the edge at which a PENDING partition becomes ACTIVE (R339). -/
  activeFrame : Nat
  misses : Nat
  oneShort : Bool
  /-- DRAINING and nothing of it left to end: QUENCHING at the next edge (R340). -/
  drained : Bool
  /-- The PARTITION_RELEASE under way. -/
  release : Option Nat
  /-- The release is part of CTX_DESTROY (R335, R406). -/
  ofDestroy : Bool
  /-- CLASS and CORES shown during Quench (R410). -/
  shownCores : Nat
  /-- Whether the tier-2 part of Quench has begun, edges still to count and the tier-2 part's end time (R407). -/
  quenchStarted : Bool
  quenchEdges : Nat
  tier2End : Option Nat
  /-- Quench was paused within the frame (R411). -/
  paused : Bool
deriving DecidableEq, Repr

/-- A packet of a job image (R342, R343). -/
structure JobPacket where
  opcode : Nat
  pkt : Sys2Proof.Packet
deriving DecidableEq, Repr

/-- A firing in progress (R348, R349). -/
structure Firing where
  frame : Nat
  trigger : Nat
  dispatch : Nat
  status : Nat
  rflags : Nat
  exc : Nat
  missKnown : Bool
  /-- Next packet of the image to start. -/
  next : Nat
  /-- A solve cut by its deadline ends no earlier than this robot time (R41). -/
  until_ : Nat
  /-- Writes that become visible when their operation has completed (R16), by its tag. -/
  writes : List (Nat × Wr)
  /-- Statuses of packets that run on cores, by tag: each counts when its operation has completed (R343). -/
  ends : List (Nat × Nat)
deriving DecidableEq, Repr

/-- The last record written, kept so that COALESCED can rewrite it (R349). -/
structure LastRecord where
  number : Nat
  bytes : List Byte
  frame : Nat
  coalesced : Bool
deriving DecidableEq, Repr

/-- A job in a frame sequencer's store (R341 to R349). -/
structure Job where
  part : Nat
  ctx : Nat
  wcet : Nat
  cycles : Nat
  t2Bytes : Nat
  coreMask : Nat
  qpUse : Nat
  imageBytes : Nat
  packets : List JobPacket
  trigger : Nat
  pair : Bool
  pred : Nat
  latestUs : Nat
  /-- Stream slots taking part, one bit each. -/
  slotBits : Nat
  recRegion : Nat
  recOff : Nat
  /-- Frame from which the job is armed; the JOB_ARM completes at that edge (R346). -/
  armFrame : Nat
  armFlight : Option Nat
  disarm : Option Nat
  /-- Frame of the edge a disarm waits for. -/
  disarmFrame : Nat
  firingNo : Nat
  /-- The frame in which the job last fired or was skipped (R348). -/
  firedFrame : Option Nat
  /-- Slots that raised input-ready in the current frame. -/
  readyBits : Nat
  firing : Option Firing
  last : Option LastRecord
  /-- An uncorrectable error lies in its part of the job store: every firing ends with MEM_UNCORRECTABLE (R444). -/
  bad : Bool
deriving DecidableEq, Repr

/-- A registered model (R355 to R357): 0 LOADING, 1 RESIDENT, 2 EVICTED. -/
structure Model where
  ctx : Nat
  state : Nat
  base : Nat
  bytes : Nat
  home : Nat
  srcKind : Nat
  window : Nat
  src : Nat
  pinned : Bool
  lastUse : Nat
  /-- The MODEL_REGISTER or MODEL_PIN waiting for RESIDENT. -/
  flight : Option Nat
  wantPin : Bool
  /-- Trust entries active at dispatch (R396): the kinds and keys of the context. -/
  signers : List (List Byte)
deriving DecidableEq, Repr

/-- Contexts, partitions, jobs and models (R334 to R362). -/
structure Sched where
  contexts : Tab Context
  partitions : Tab Partition
  jobs : Tab Job
  models : Tab Model
  /-- Uses of sequences so far: the order in which they were last used (R205). -/
  useCount : Nat
deriving DecidableEq, Repr

/-- State of a flash bank (R363): 0 EMPTY, 1 STAGED, 2 ACTIVE, 3 REJECTED. -/
structure Bank where
  state : Nat
  release : Nat
  secVersion : Nat
  /-- The signature and the digests of its bundle verify (R366). -/
  signed : Bool
  bytes : Mem
deriving DecidableEq, Repr

/-- A pending activation (R368 to R371). -/
structure Activation where
  flight : Option Nat
  release : Nat
  /-- 1 deferred, 2 waiting for its edge, 3 switching (R367). -/
  state : Nat
  /-- Robot time at which the deferral under way began, and the length of the earlier ones (R369). -/
  since : Nat
  total : Nat
  switchFrame : Nat
  /-- A measurement failed: the previous release starts at the next edge (R371). -/
  failed : Bool
deriving DecidableEq, Repr

/-- A firmware processor (R373, R374). Codes: 0 SEC, 1 Temper, 2 Hearth, 8 + k CCCk. -/
structure Processor where
  restarting : Bool
  held : Bool
  expiries : List Nat
  /-- Robot time of its last checkpoint, and what that keeps which no other field of the block holds: for Hearth the credits and
  the last queues served of its fetch order, which an expiry restores (log 107). -/
  checkpoint : Nat
  kept : List Nat
deriving DecidableEq, Repr

def Processor.reset : Processor := ⟨false, false, [], 0, []⟩

/-- Firmware, boot flash and start-up (R363 to R377). -/
structure Firmware where
  bankA : Bank
  bankB : Bank
  /-- The active-bank marker names bank B. -/
  markerB : Bool
  activeRelease : Nat
  /-- Next offset of a staging under way (R366); none when no FIRST has been taken since the bank became EMPTY. -/
  stageNext : Option Nat
  activation : Option Activation
  procs : Tab Processor
  bootStage : Nat
  bootFail : Nat
  fatal : Bool
  /-- PWR_GOOD has risen and start-up runs (R376). -/
  powered : Bool
  /-- SEC waits at stage 1 for an unlock session (R413). -/
  unlockWait : Bool
  testModes : Bool
  /-- Hearth publishes one catch-up page every 50 us (R37). -/
  lastPublish : Nat
  /-- The UFS device is absent or failed (R377). -/
  ufsFailed : Bool
  /-- Memory-training store: PHY settings of each stack in the last boot that reached host-ready (R363). -/
  training : Option (Tab Int)
deriving DecidableEq, Repr

/-- Registers of the emulated window that Hearth copies as one snapshot (R380, R381). -/
structure Snapshot where
  devState : Nat
  hostState : Nat
  coreState : Nat
  frame : Nat
  missTotal : Nat
  parts : List Nat
  active : Tab Nat
deriving DecidableEq, Repr

/-- The register window, the stop latch and the safety port (R378 to R388). -/
structure Window where
  snap : Snapshot
  commitStatus : Nat
  commitFrame : Nat
  spiErrors : Nat
  missTotal : Nat
  stopped : Bool
  clearPending : Bool
  bySafeHb : Bool
  byRequest : Bool
  stopIn : Bool
  /-- Robot time of the last SAFETY_HEARTBEAT write and of the edge at which the active SAFE_HB_MS took its value. -/
  lastSafeHb : Nat
  safeHbSince : Nat
  /-- Set from the edge after the latch is set until the edge at which it clears (R386). -/
  stopActive : Bool
deriving DecidableEq, Repr

/-- A TLS session on the management port (R392, R393, R480). -/
structure OwnerSession where
  /-- The handshake's client chain digest. -/
  anchor : List Byte
  decimate : Nat
  unsent : Option StatsEntry
  /-- PUBLISH_TIME of that entry (R37, R480). -/
  unsentAt : Nat
deriving DecidableEq, Repr

/-- Fuses and one-time-programmable contents of SEC (R390, R414). -/
structure Fuses where
  /-- Identity certificate: its subject serial number, and the rest of it, opaque (R390, R391). -/
  certSerial : List Byte
  certRest : List Byte
  /-- Digests of the firmware keys, each with its revocation fuse. -/
  firmware : List (List Byte × Bool)
  serviceAnchor : List Byte
  /-- MAC address of the management port (R392). -/
  mac : List Byte
  minSecVersion : Nat
  ownerAnchors : List (List Byte)
  fleetRoots : List (List Byte)
deriving DecidableEq, Repr

/-- Management port and fuses (R389 to R398). -/
structure Security where
  sessions : Tab OwnerSession
  fuses : Fuses
deriving DecidableEq, Repr

end Sys2Proof.Machine
end

