-- ==== Sys2Proof/Machine/PartPower.lean ====
section
/-! DEFINITION. State of the supply, the power cap, the power states and the temperatures (R415 to R443), of errors,
fences, spares and the fault log (R444 to R459), and of the pins and the test port (R461 to R479). -/

namespace Sys2Proof.Machine

/-- A cause of an emergency level (R415, R432): it stands, or it cleared at `cleared` (R435). -/
structure Cause where
  level : Nat
  stands : Bool
  cleared : Nat
deriving DecidableEq, Repr

/-- A cluster as Temper and the hardware path drive it (R425 to R438). -/
structure ClusterPower where
  /-- Clock in kHz: 250,000 to 1,250,000 (R13, R425). -/
  clock : Nat
  /-- Steps of 62.5 MHz that a throttle holds the clock down (R433), and that the cap holds it down (R425). -/
  throttleSteps : Nat
  capSteps : Nat
  /-- Its cores of classes 1 to 3 are clock-gated for this 100 us step to meet the cap (R425). -/
  capGated : Bool
  boost : Bool
  /-- Power state 0 to 3 and the robot time of its scheduled wake (R429). -/
  ps : Nat
  wakeAt : Option Nat
  /-- Robot time of the last throttle step (R433). -/
  stepAt : Nat
deriving DecidableEq, Repr

def ClusterPower.reset : ClusterPower := ⟨1000000, 0, 0, false, false, 0, none, 0⟩

/-- Power, supply and temperature (R415 to R443). -/
structure Power where
  /-- VIN at VIN_SENSE in millivolts, last comparison (R415). -/
  vin : Nat
  /-- Robot time since which every report was above 90 V (R416). -/
  overSince : Option Nat
  /-- Causes by source: 0 overvoltage E1, 1 undervoltage E1, 2 undervoltage E2, 3 undervoltage E3; 32 + 2g and 33 + 2g E2 and E3 of
  temperature group g. -/
  causes : Tab Cause
  level : Nat
  /-- The level whose responses are in force: E1 and E2 wait for Temper (R373, R436, R442). -/
  applied : Nat
  /-- Draw at VIN in mW at the last 100 us measurement (R425). -/
  draw : Nat
  lastTick : Nat
  /-- 10 ms mean of the draw: the start of the window, the sum in mW * ns and the time in ns measured in it; the last published
  value (R440). -/
  window : Nat
  windowSum : Nat
  windowTime : Nat
  mean10 : Nat
  tenantMean : Nat
  /-- Rails VCORE_K0 to K7, VMEM, VFAB, VXD0, VXD1, VAON, VIO and conversion loss: the 1 ms window, the time measured in it, sums
  in mW * ns, and the last means in mW (R422, R440). -/
  railWindow : Nat
  railTime : Nat
  railSum : List Nat
  railMean : List Nat
  /-- Excursion in progress since, and the end and length of the last one (R426). -/
  excursion : Option Nat
  lastExcursionEnd : Nat
  lastExcursionLength : Nat
  belowCapSince : Option Nat
  /-- Hardware gate above 160 W (R427). -/
  overpower : Bool
  clusters : Tab ClusterPower
  /-- Junction temperatures in 0.1 C: CD0, CD1, XD0, XD1, then the stacks, key 16 + n (R432). -/
  temps : Tab Int
  throttle : List Nat
  standby : Bool
  /-- Robot time of the last packet unfetched or doorbell written (R431). -/
  lastActivity : Nat
  /-- Rails: PWR_GOOD, the carrier's state and the TRIP latch of the always-on register (R419, R420, R439). -/
  pwrGood : Bool
  railsOn : Bool
  tripped : Bool
  tripCause : Nat
  /-- Lockout: the carrier holds the rails off until a rise above 26 V (R419). -/
  resetIn : Bool
deriving DecidableEq, Repr

/-- An entry of the fault log (R458). -/
structure LogEntry where
  seq : Nat
  boot : Nat
  time : Nat
  code : Nat
  source : Nat
  release : Nat
  detail : Nat
deriving DecidableEq, Repr

/-- A fence being replaced (R451). -/
structure Replacement where
  core : Nat
  cause : Nat
  part : Nat
  position : Nat
  spare : Nat
  /-- 0 awaiting the spare's self-test, 1 copying, 2 waiting for the takeover edge. -/
  stage : Nat
  copied : Bool
  /-- Earliest robot time of the takeover edge. -/
  dueTime : Nat
deriving DecidableEq, Repr

/-- A self-test of a pair under way after a mismatch (R450). -/
structure PairTest where
  part : Nat
  primary : Nat
  partner : Nat
  results : List (Nat × Bool)
deriving DecidableEq, Repr

/-- Saturating error counters since the last module reset (R457): corrected and uncorrectable pairs. -/
structure ErrCounts where
  coreStore : Nat × Nat
  clusterStore : Nat × Nat
  xdStore : Nat × Nat
  memStacks : Nat × Nat
  stackRetries : Nat
  linkReplays : Nat
  pcie : Nat × Nat
  pairMismatches : Nat
  fwRestarts : Nat
  selfTests : Nat
deriving DecidableEq, Repr

def ErrCounts.zero : ErrCounts := ⟨(0, 0), (0, 0), (0, 0), (0, 0), 0, 0, (0, 0), 0, 0, 0⟩

/-- A summary copy in the fault-log range of the boot flash, with the write count it carries (R458). -/
structure Summary where
  count : Nat
  fences : List Nat
  retired : Tab (List Nat)
  bootCount : Nat
  /-- TRIP cause latched at the last shutdown. -/
  tripCause : Nat
  unlocked : Bool
deriving DecidableEq, Repr

/-- Errors, fences and the fault log (R444 to R459). Cores are numbered cluster * 256 + core. -/
structure Rel where
  counts : ErrCounts
  /-- Cores fenced since start-up and those of the summary, and the fenced cores whose spare got a copied store. -/
  fenced : List Nat
  copied : List Nat
  /-- Cores in self-test, out of service meanwhile (R449). -/
  testing : List Nat
  /-- Spares used or lost, by cluster. -/
  spareGone : List Nat
  replacements : Tab Replacement
  pairTests : List PairTest
  /-- Pair mismatches followed by two passing self-tests: the two cores and robot time (R448, R450). -/
  mismatches : List (Nat × Nat × Nat)
  /-- Corrected errors per core with their robot time, for R448 and R450. -/
  coreCorrected : List (Nat × Nat)
  /-- Uncorrectable errors per core-store bank with their robot time (R448). -/
  bankErrors : List (Nat × Nat × Nat)
  /-- Lines that posted MEM_UNCORRECTABLE in the current frame (R456). -/
  postedLines : List (Nat × Nat)
  /-- What the summary of the fault log holds once SEC has written it: fence list, retired frames per stack, boot count, TRIP
  cause, unlock (R453, R458). -/
  fenceList : List Nat
  retired : Tab (List Nat)
  /-- Frames with errors still held by an owner, to be retired when freed (R447). -/
  retireOnFree : List (Nat × Nat)
  /-- Corrected errors reported by a frame: stack, frame and robot time (R447). -/
  frameCorrected : List (Nat × Nat × Nat)
  bootCount : Nat
  lastTrip : Nat
  unlocked : Bool
  /-- The two copies in the flash, written alternately; none before the first write (R458). -/
  summaryA : Option Summary
  summaryB : Option Summary
  /-- The summary changed while SEC could not write it. -/
  summaryDue : Bool
  entries : List LogEntry
  nextSeq : Nat
  /-- Entries waiting to be written by SEC, in order of request (R458). -/
  queue : List LogEntry
  /-- Last robot time an entry of a CODE and SOURCE was taken (R458). -/
  lastOf : List (Nat × Nat × Nat)
deriving DecidableEq, Repr

/-- A host link as it trained (R465, R477): lanes, and speed in 0.1 GT/s. -/
structure HostLink where
  up : Bool
  /-- PERST_n is high. -/
  perst : Bool
  width : Nat
  speed : Nat
deriving DecidableEq, Repr

/-- Pins, test port and links (R413, R465, R472 to R478). -/
structure Pins where
  testEn : Bool
  /-- The instruction loaded in the test port; none is BYPASS. -/
  jtag : Option Sys2Proof.JtagInstr
  /-- What the data register selected by the instruction captures: IDCODE or one bypass bit. -/
  jtagData : Nat
  /-- Update latch of the boundary-scan chain, a bit for each cell (R478). -/
  scan : Nat
  links : Tab HostLink
  /-- Robot-network ports whose link failed to come up (R377). -/
  netDown : List Nat
  /-- HS gear of the UFS link, 4 or 5; 0 before enumeration or without a device (R465). -/
  ufsGear : Nat
  /-- The boot flash runs 8D-8D-8D, as it does once the boot ROM has handed over (R465). -/
  flashOctal : Bool
deriving DecidableEq, Repr

end Sys2Proof.Machine
end

