-- ==== Sys2Proof/Machine/PartTier.lean ====
section
/-! DEFINITION. State of the stores, the cores and their movers (R121 to R144), tier-2 translation and regions (R154 to
R171), the Bellows and the Swage (R174 to R181), and the KV sequences and swap pools (R182 to R211). -/

namespace Sys2Proof.Machine

/-- What an operation slot or a descriptor serves. -/
inductive Owner where
  | flight (id : Nat)
  | job (handle : Nat)
  | stream (handle : Nat)
  | replacement (cluster : Nat)
deriving DecidableEq, Repr

/-- One dimension of a walk (R132): COUNT_d, YSTEP_d, XSTEP_d and STRIDE_d. -/
structure WalkDim where
  count : Nat
  ystep : Int
  xstep : Int
  stride : Int
deriving DecidableEq, Repr

/-- A walker descriptor (R132); `run` is RUN, one less than the bytes of an access, and `dims` are the dimensions 0 to 4. -/
structure Walker where
  base : Nat
  y0 : Int
  x0 : Int
  ylim : Nat
  xlim : Nat
  run : Nat
  pad : Nat
  dims : List WalkDim
deriving DecidableEq, Repr

/-- An operation in a slot of a core, or held by the CCC for one (R142, R85). -/
structure OpSlot where
  owner : Owner
  /-- Its engine; none for a MOVE that Tongs does alone (R142). -/
  engine : Option Sys2Proof.Engine
  /-- The walkers it takes when it issues (R134). -/
  walkers : List Walker
  issued : Bool
  cycles : Nat
  /-- Core-store ranges: first byte, end, and whether the operation writes it (R143). -/
  ranges : List (Nat × Nat × Bool)
  /-- The partition it runs in. -/
  part : Nat
  /-- The same for a slot and the descriptors placed with it, rising in placement order. -/
  tag : Nat
  /-- Its core-store writes, made when it retires. -/
  writes : List Wr := []
  /-- What it leaves in the two halves of the solve engine's matrix buffer (R131). -/
  halves : List (List Byte) := []
  /-- Another engine of the core that it uses as well (R300). -/
  also : List Sys2Proof.Engine := []
deriving DecidableEq, Repr

/-- A Tongs descriptor (R139). -/
structure Desc where
  owner : Owner
  /-- OP code: 0 NOP, 1 GET, 2 PUT, 3 FILL, 4 GATHER, 5 SCATTER. -/
  op : Nat
  order : Bool
  rloc : Nat
  length : Nat
  started : Bool
  /-- A read of a Bellows window: its region handle and the first and last byte read (R178). -/
  window : Option (Nat × Nat × Nat)
  /-- As for a slot. -/
  tag : Nat
  notify : Bool := false
  /-- Number of the walker of a GATHER or SCATTER, and the walk it is set to. -/
  walker : Nat := 0
  walk : Option Walker := none
  local_ : Nat := 0
  rcore : Nat := 0
  slot : Nat := 0
  remote : Nat := 0
  pattern : Nat := 0
  /-- The page frames that a read of KV pages goes through: no address of its context names them (R182, R188). -/
  frames : List Nat := []
  /-- Core-store ranges, as for a slot (R143). -/
  ranges : List (Nat × Nat × Bool) := []
  /-- The writes it makes when it retires (R140). -/
  writes : List Wr := []
deriving DecidableEq, Repr

/-- One physical core (R11, R12, R142). -/
structure Core where
  slots : List OpSlot
  held : List OpSlot
  ring : List Desc
  feed : List Desc
  /-- The four walkers: the engine and tag of the operation that holds one, and what it is set to; a GATHER or SCATTER holds
  one for its own walk (R134, R139). -/
  walkers : List (Option (Option Sys2Proof.Engine × Nat × Walker)) := [none, none, none, none]
  /-- The two halves of the solve engine's matrix buffer; bytes not listed are zero (R131). -/
  halves : List (List Byte) := [[], []]
deriving DecidableEq, Repr

def Core.idle : Core := ⟨[], [], [], [], [none, none, none, none], [[], []]⟩

/-- A 64 KiB page of a context's tier-2 space (R161). -/
structure Page where
  frame : Nat
  home : Nat
  readOnly : Bool
  /-- Ingress page of a PLACE 1 ring (R264). -/
  ingress : Bool
  /-- The allocation it belongs to: its base address. -/
  base : Nat
deriving DecidableEq, Repr

/-- A cluster region or a host window; both draw on the 4,096 handles (R158, R171). -/
structure Region where
  ctx : Nat
  window : Bool
  cluster : Nat
  size : Nat
  weight : Bool
  busAddr : Nat
  fn : Nat
  /-- The REGION_FREE waiting for operations that name it. -/
  freeing : Option Nat
deriving DecidableEq, Repr

/-- A tier-2 allocation: base page, pages and HOME; `freeing` as for a region. -/
structure Alloc where
  ctx : Nat
  base : Nat
  pages : Nat
  home : Nat
  freeing : Option Nat
deriving DecidableEq, Repr

/-- The memories. Core stores are keyed by core * 2^21 + offset, regions by handle * 2^24 + offset, tier 2 by
frame * 65,536 + offset, I/O-die stores by slot * 2^32 + ring offset, host memory by link * 2^64 + bus address. -/
structure Stores where
  core : Mem
  region : Mem
  tier2 : Mem
  xd : Mem
  host : Mem
  ufs : Mem
  /-- Poisoned 64-byte lines, by store and line address (R446). -/
  poison : List (Store × Nat)
  /-- The tier-2 lines in the order of their last writes, the last-written last (R276). -/
  recent : List Nat
deriving DecidableEq, Repr

/-- A tile placed in a Bellows window (R178): its place, reads left and schedule layer. -/
structure WinTile where
  dst : Nat
  bytes : Nat
  readsLeft : Nat
  layer : Nat
  ready : Bool
deriving DecidableEq, Repr

/-- One position of a Bellows stream (R175, R178). -/
structure BellowsPos where
  cluster : Nat
  lane : Nat
  window : Nat
  slotSize : Nat
  pass : Nat
  entry : Nat
  tiles : List WinTile
deriving DecidableEq, Repr

/-- A Bellows stream (R175 to R178). -/
structure Bellows where
  ctx : Nat
  part : Nat
  flight : Nat
  sched : Nat
  image : Nat
  k : Nat
  layers : Nat
  repeat_ : Nat
  positions : List BellowsPos
  /-- A word it read was corrected, or a burst retried (R445). -/
  ecc : Bool
deriving DecidableEq, Repr

/-- Tier 2, regions, Bellows and Swage (R154 to R181). -/
structure Tiers where
  pages : Tab (Tab Page)
  allocs : List Alloc
  regions : Tab Region
  bellows : Tab Bellows
  /-- Positions of streams that BELLOWS_STOP ended since jobs and stream operations that wait on their windows last had
  their turn (R177). -/
  stopped : List BellowsPos
  /-- Codebooks in each Swage's buffer, most recent first: physical tier-2 address and contents (R105, R180). -/
  codebooks : Tab (List (Nat × List Byte))
  /-- Margins last met by retraining, and delay taps, per stack (R170). -/
  taps : Tab Int
  /-- Frame in which each stack last took a retraining step. -/
  trained : Tab Nat
deriving DecidableEq, Repr

/-- A page descriptor of a sequence (R188): STATE 1 resident, 2 swapped, 3 in transit. -/
structure KvPage where
  state : Nat
  frame : Nat
  home : Nat
  gen : Nat
  pool : Nat
  slot : Nat
  swapNo : Nat
  /-- The pool of the swapped copy was unregistered (R209). -/
  lost : Bool
deriving DecidableEq, Repr

/-- A sequence (R182 to R190). Pages are keyed by (layer * 2 + group) * 8,192 + page number. -/
structure Seq where
  ctx : Nat
  layers : Nat
  kvHeads : Nat
  fmt : Nat
  headDim : Nat
  byHead : Bool
  prio : Nat
  maxTokens : Nat
  swappable : Bool
  state : Nat
  committed : Nat
  tail : Nat
  pages : Tab KvPage
  tailDiscarded : Bool
  /-- SEQ_PREEMPT waiting for PREEMPTED, SEQ_RESUME waiting for ACTIVE. -/
  preemptFlight : Option Nat
  resumeFlight : Option Nat
  /-- The tail was discarded and its pages freed: swap-out runs (R206). -/
  swapStarted : Bool
  lastUse : Nat
deriving DecidableEq, Repr

/-- A swap pool (R203). -/
structure Pool where
  fn : Nat
  dataBase : Nat
  recBase : Nat
  slots : Nat
  used : List Nat
deriving DecidableEq, Repr

/-- Sequences and swap (R182 to R211). -/
structure Kv where
  seqs : Tab Seq
  pools : Tab Pool
deriving DecidableEq, Repr

end Sys2Proof.Machine
end

