-- ==== Sys2Proof/Machine/PartApps.lean ====
section
/-! DEFINITION. State of the state-carrying streams (R214 to R237), sensor slots and grids (R259 to R287), QP channels
(R300 to R309), and lattices, maps, plans and search units (R313 to R331). -/

namespace Sys2Proof.Machine

/-- A numbered operation accepted into a stream's queue (R222). -/
structure StreamOp where
  owner : Owner
  opcode : Nat
  cseq : Nat
  pkt : Sys2Proof.Packet
  /-- Dispatched and running, with its state fault flag. -/
  running : Bool
  fault : Bool
  /-- ECC corrected an operand (R74). -/
  ecc : Bool
  /-- What its end makes visible, its RESULT and its exception summary. -/
  later : List Wr
  result : Nat
  exc : Nat
  /-- A level of E1 or above shed it while an earlier operation ran: it completes with SHED behind that one (R222, R437). -/
  shed : Bool := false
deriving DecidableEq, Repr

/-- A state-carrying stream (R217 to R221). Residency 0 RESIDENT, 1 MOVING, 2 SWAPPED, 3 LOST. -/
structure Stream where
  ctx : Nat
  kind : Nat
  comp : Bool
  jobFed : Bool
  sections : Nat
  nstate : Nat
  channels : Nat
  disc : Nat
  /-- 0 core store, 1 region, 2 tier 2; with the core position, the partition and the offset or address. -/
  home : Nat
  part : Nat
  position : Nat
  homeAddr : Nat
  swapAddr : Nat
  version : Nat
  step : Nat
  residency : Nat
  paused : Bool
  ending : Option Nat
  drain : Bool
  pauseFlight : Option Nat
  /-- A swap-out waiting: its flight, FORCE and TO_TIER2 (R227). -/
  swapOut : Option (Nat × Bool × Bool)
  nextCseq : Nat
  queue : List StreamOp
deriving DecidableEq, Repr

/-- A buffer of an ingress ring (R266): 0 FREE, 1 FILLING, 2 READY; holds are counted. -/
structure Buf where
  state : Nat
  order : Nat
  holds : List Owner
  sampleSeq : Nat
  capture : Nat
  endTime : Nat
deriving DecidableEq, Repr

/-- A sample being received, or waiting to become READY (R260 to R270). -/
structure Filling where
  buf : Option Nat
  pin : Nat
  seq : Nat
  lines : Nat
  /-- Data bytes arrived. -/
  size : Nat
  /-- Bytes in the landing FIFO, by buffer offset (R268). -/
  fifo : List (Nat × List Byte)
  /-- Raw source stamp, once read (R271). -/
  raw : Option Nat
  embedded : Bool
  /-- Why the sample is to be dropped (R267). -/
  bad : Option Nat
  corrected : Bool
  frameNo : Nat
  endTime : Nat
  /-- Its number among the samples received since enable (R271). -/
  count : Nat
  /-- Bytes of a TDM payload as they arrived, for a stamp in it. -/
  wire : List Byte
deriving DecidableEq, Repr

/-- Clock model of a slot (R272, R273): 0 DISABLED, 1 ACQUIRING, 2 LOCKED, 3 SLIPPED. -/
structure ClockModel where
  state : Nat
  off : Int
  rate : Int
  lat : Int
  prevPin : Int
  prevSigma : Int
  first : Bool
  count : Nat
  residual : Int
  slips : Nat
  unwrapped : Int
  rawPrev : Nat
  rawValid : Bool
  received : Nat
deriving DecidableEq, Repr

def ClockModel.reset : ClockModel := ⟨0, 0, 0, 0, 0, 0, true, 0, 0, 0, 0, 0, false, 0⟩

/-- A sensor stream slot as configured (R263). -/
structure Slot where
  iface : Nat
  port : Nat
  sub : Nat
  dt : Nat
  fmt : Nat
  srcKind : Nat
  place : Nat
  nbuf : Nat
  trig : Nat
  srcOff : Nat
  w : Nat
  h : Nat
  nomPeriod : Nat
  tickPs : Nat
  srcBytes : Nat
  spiCmdLen : Nat
  spiDiv : Nat
  readCtx : Nat
  vlan : Nat
  mac : Nat
  spiCmd : List Byte
  ringAddr : Nat
  ringCtx : Nat
  bufBytes : Nat
  granules : Nat
deriving DecidableEq, Repr

/-- A slot with its ring, model and counters (R259 to R275). -/
structure SlotState where
  cfg : Slot
  bufs : List Buf
  filling : Option Filling
  /-- Complete at the pin and not READY yet, oldest first (R270). -/
  waiting : List Filling
  model : ClockModel
  nextSeq : Nat
  lastPin : Nat
  orderCount : Nat
  /-- Drop counters NO_BUFFER, OVERSIZE, INCOMPLETE, LINK_CRC, BACKLOG; those and the slips as latched at the last edge;
  drops in the frame. -/
  drops : List Nat
  latched : List Nat
  frameDrops : Nat
  totalDrops : Nat
  /-- Stamp history: SAMPLE_SEQ, CAPTURE_TIME, STALE_CLOCK, newest first, at most 64 (R270). -/
  history : List (Nat × Nat × Bool)
  /-- TDM: frame length taken from the first two frames, last frame length and frames gathered (R469). -/
  tdmLen : Option Nat
  tdmSeen : Nat
  /-- Robot time of the next start of a periodic SPI slot (R263). -/
  nextDue : Nat
  /-- The frame numbers of the last Frame Start and Frame End packets (R260). -/
  fsNo : Nat
  feNo : Nat
deriving DecidableEq, Repr

/-- A fusion grid (R279). -/
structure Grid where
  ctx : Nat
  cfmt : Nat
  nc : Nat
  nx : Nat
  ny : Nat
  nz : Nat
  dataAddr : Nat
  poseAddr : Nat
  updates : Nat
  destroy : Option Nat
  /-- Drop totals of each slot at the previous update (R285). -/
  dropsSeen : Tab Nat
deriving DecidableEq, Repr

/-- How a CSI-2 port classified its link at the first burst: D-PHY or C-PHY, and its data lanes or trios (R468). -/
structure PortClass where
  dphy : Bool
  lanes : Nat
deriving DecidableEq, Repr

/-- Ingest and fusion (R259 to R290). -/
structure Ingest where
  slots : Tab SlotState
  grids : Tab Grid
  /-- Stamp of each GPIO line's last edge, by die * 24 + line (R470). -/
  gpioStamp : Tab Nat
  /-- Samples that unconfigured slots have dropped; a configured slot counts on from its own (R285). -/
  dropTotals : Tab Nat
  /-- Classification of each CSI-2 port, by die * 12 + port, held until every slot on it is disabled (R468). -/
  csiPorts : Tab PortClass
deriving DecidableEq, Repr

/-- A QP channel (R300 to R309). Vectors are FP32 codes. -/
structure Channel where
  part : Nat
  ready : Bool
  core : Nat
  form : Nat
  vars : Nat
  cons : Nat
  horizon : Nat
  workOff : Nat
  workBytes : Nat
  p : List Nat
  a : List Nat
  sig : List Byte
  rho : Nat
  factorOk : Bool
  factor : List Nat
  x : List Nat
  z : List Nat
  y : List Nat
  ax : List Nat
  lastSig : List Byte
deriving DecidableEq, Repr

def Channel.empty : Channel := ⟨0, false, 0, 0, 0, 0, 0, 0, 0, [], [], [], 0, false, [], [], [], [], [], []⟩

/-- A primitive of a lattice (R314). -/
structure Prim where
  cls : Nat
  cost : Nat
  delta : List Int
  vox : List (Int × Int × Int)
deriving DecidableEq, Repr

/-- A start class of a lattice (R314). -/
structure LatClass where
  first : Nat
  count : Nat
  foot : List (Int × Int × Int)
deriving DecidableEq, Repr

/-- A node: its state, g, parent and primitive. -/
structure Node where
  st : List Int
  g : Nat
  parent : Option (Nat × Nat)
  closed : Bool
deriving DecidableEq, Repr

/-- A sample of a trajectory: FP32 codes of position, rate and second rate of each axis. -/
abbrev Sample := List (Nat × Nat × Nat)

/-- A trajectory with the flags and cycles it took. -/
structure Traj where
  samples : List Sample
  dropped : Bool
  stretched : Bool
  cycles : Nat
deriving DecidableEq, Repr

/-- A search under way. -/
structure Run where
  nodes : List Node
  queue : List (Nat × Nat)
  best : Option (Nat × Nat × Nat)
  truncated : Bool
  dropped : Bool
  stretched : Bool
  rejected : Nat
  expansions : Nat
  pushes : Nat
  peak : Nat
  checks : Nat
  cycles : Nat
  smooth : Nat
  /-- The brick caches of the search cores, each with the slot and the brick of its entries, the last used first; and the bricks
  fetched on first use: core, slot and brick (R322). -/
  caches : List (List (Nat × Nat))
  got : List (Nat × Nat × Nat)
deriving DecidableEq, Repr

/-- A search in its commit: the epoch that its samples are checked against again, the goal's node, and what it found (R326). -/
structure PlanCommit where
  epoch : Nat
  node : Nat
  run : Run
  traj : Traj
deriving DecidableEq, Repr

/-- A search in flight (R322). -/
structure Search where
  flight : Nat
  epoch : Nat
  map : Nat
  deadline : Option Nat
  /-- The deadline had been reached at dispatch (R43). -/
  late : Bool
  /-- First index of the search's free values (log 3). -/
  seed : Nat
  /-- LIMITS as read at dispatch (R321). -/
  limits : List Nat
  /-- The commit's re-check, once it has begun (R326). -/
  commit : Option PlanCommit := none
deriving DecidableEq, Repr

/-- A lattice with its cores, its search and its standing plan, whose header and buffers stand in the region (R313 to R331). -/
structure Lattice where
  ctx : Nat
  part : Nat
  cluster : Nat
  firstCore : Nat
  ncores : Nat
  dims : Nat
  classDim : Nat
  outsideFree : Bool
  mins : List Int
  maxs : List Int
  wraps : List Bool
  scales : List Nat
  hScale : Nat
  classes : List LatClass
  prims : List Prim
  region : Nat
  readCtx : Nat
  maxSamples : Nat
  usable : Bool
  search : Option Search
  /-- Plan header fields (R327). -/
  pstate : Nat
  active : Option Nat
  pendingBuf : Option Nat
  pendingFrame : Nat
  prevActive : Option Nat
  curIndex : Nat
  activeFrame : Nat
  planNo : Nat
  counts : List Nat
  /-- HOLD_NOW or an unload at the next edge (R331), with the PLAN_ABORT. -/
  holdNext : Bool
  held : Bool
  unloadNext : Bool
deriving DecidableEq, Repr

/-- A resident epoch of a map (R318, R319). -/
structure Epoch where
  number : Nat
  addr : Nat
deriving DecidableEq, Repr

/-- An occupancy map (R318, R319). -/
structure VoxMap where
  ctx : Nat
  readCtx : Nat
  nbx : Nat
  nby : Nat
  nbz : Nat
  voxel : Nat
  origin : List Nat
  epochs : List Epoch
  next : Nat
deriving DecidableEq, Repr

/-- Streams, ingest, solvers and planning. -/
structure Apps where
  streams : Tab Stream
  channels : Tab Channel
  lattices : Tab Lattice
  maps : Tab VoxMap
  /-- Entries of each search queue unit, key, index and order of push (R320). -/
  units : Tab (List (Nat × Nat))
deriving DecidableEq, Repr

end Sys2Proof.Machine
end

