-- ==== Sys2Proof/Machine/State.lean ====
section
/-! DEFINITION. The state of the block as plain data, the reasons a command can stop, and the state right after reset
(R375, R376; log 1 for what the manual gives no reset value). -/

namespace Sys2Proof.Machine

/-- Why a command stops the machine. -/
inductive Fault where
  /-- The supply left the limits beyond which the manual promises no behaviour (R416). Raised by the commands that
  report VIN; safe: nothing is claimed of such a part. -/
  | beyondRatings
deriving DecidableEq, Repr

/-- Why a command has no meaning. -/
inductive Refusal where
  /-- No meaning yet; raised by Dispatch only; safe. -/
  | notModelled (mnemonic : String)
  /-- A private test instruction in an unlocked part: the manual describes no private test mode (R413). Raised by
  JTAG_INSTRUCTION; safe. -/
  | privateTestMode
deriving DecidableEq, Repr

/-- Everything the part holds. -/
structure State where
  /-- Commands waiting, first in, first out. -/
  pending : List Sys2Proof.Instr
  /-- Order code of the part (R1). -/
  order : Sys2Proof.OrderCode
  clock : Clock
  stats : Stats
  scopes : Scopes
  proto : Proto
  sched : Sched
  fw : Firmware
  win : Window
  sec : Security
  power : Power
  rel : Rel
  pins : Pins
  stores : Stores
  tiers : Tiers
  cores : Tab Core
  kv : Kv
  ingest : Ingest
  apps : Apps
  /-- What left the part, newest last: the model's own field (log 9). -/
  out : List Output
  /-- Index of the next free value: the model's own field (log 3). -/
  fresh : Nat
deriving DecidableEq, Repr

/-- Temperatures of the dies and stacks of an order code before the first sample: 25.0 C (log 1). -/
def tempsAt (o : Sys2Proof.OrderCode) : Tab Int :=
  match o with
  | .a4 => [(0, 250), (1, 250), (2, 250), (16, 250), (17, 250), (20, 250), (21, 250)]
  | .a8 => [(0, 250), (1, 250), (2, 250), (16, 250), (17, 250), (18, 250), (19, 250), (20, 250), (21, 250), (22, 250), (23, 250)]
  | .d8 => [(0, 250), (1, 250), (2, 250), (3, 250), (16, 250), (17, 250), (18, 250), (19, 250), (20, 250), (21, 250),
      (22, 250), (23, 250)]

/-- Functions of an order code, written link * 16 + f (R45). -/
def funcsAt (o : Sys2Proof.OrderCode) : Tab Func :=
  (List.range (if o = .d8 then 32 else 16)).map (fun f => (f, Func.reset))

def Clock.reset : Clock where
  running := false
  now := 0
  frac := 0
  rate := 0
  slew := 0
  step := 0
  timeState := 1
  lockRun := 0
  lastSync := none
  syncInterval := 125000000
  offset := 0
  peerDelay := []
  nextSync := 125000000
  nextFrame := 0
  frameStart := 0
  nextEdge := 1000000
  parked := true

/-- `newerB` is true, so buffer A takes the first page after start-up (R37 is silent; DESIGN CHOICE, log 1). -/
def Stats.reset : Stats := ⟨FrameAcc.zero, [], [], [], true⟩

def Proto.reset (o : Sys2Proof.OrderCode) : Proto := ⟨funcsAt o, [], [], [], 1, [], [16, 4, 1], [0, 0, 0, 0, 0]⟩

def Snapshot.reset : Snapshot := ⟨0x11, 0, 0x800, 0, 0, List.replicate 16 0, []⟩

def Window.reset : Window := ⟨Snapshot.reset, 0, 0, 0, 0, false, false, false, false, true, 0, 0, false⟩

def Firmware.reset (a b : Bank) (markerB : Bool) : Firmware :=
  ⟨a, b, markerB, 0, none, none, [], 1, 0, false, false, false, false, 0, false, none⟩

def Power.reset (o : Sys2Proof.OrderCode) : Power :=
  { vin := 48000, overSince := none, causes := [], level := 0, applied := 0, draw := 0, lastTick := 0, window := 0, windowSum := 0, windowTime := 0,
    mean10 := 0, tenantMean := 0, railWindow := 0, railTime := 0, railSum := List.replicate 15 0, railMean := List.replicate 15 0, excursion := none, lastExcursionEnd := 0, lastExcursionLength := 0, belowCapSince := some 0,
    overpower := false, clusters := (List.range 8).map (fun k => (k, ClusterPower.reset)), temps := tempsAt o,
    throttle := [], standby := false, lastActivity := 0, pwrGood := false, railsOn := true, tripped := false,
    tripCause := 0, resetIn := false }

def Rel.reset : Rel :=
  { counts := ErrCounts.zero, fenced := [], copied := [], testing := [], spareGone := [], replacements := [],
    pairTests := [], mismatches := [], coreCorrected := [], bankErrors := [], postedLines := [], fenceList := [],
    retired := [], retireOnFree := [], frameCorrected := [], bootCount := 0, lastTrip := 0, unlocked := false, summaryA := none, summaryB := none, summaryDue := false,
    entries := [], nextSeq := 0, queue := [], lastOf := [] }

def Pins.reset : Pins := ⟨false, none, 0, 0, [], [], 0, false⟩

def Stores.reset : Stores := ⟨[], [], [], [], [], [], [], []⟩

def Tiers.reset : Tiers := ⟨[], [], [], [], [], [], [], []⟩

def Apps.reset : Apps := ⟨[], [], [], [], []⟩

def Fuses.made : Fuses := 
  { certSerial := hexText deviceId, certRest := Sys2Proof.Config.identityCert,
    firmware := Sys2Proof.Config.firmwareKeys.map (fun k => (Sys2Proof.Config.sha384 k, false)),
    serviceAnchor := Sys2Proof.Config.serviceAnchor, mac := Sys2Proof.Config.managementMac,
    minSecVersion := Sys2Proof.Config.minSecVersion, ownerAnchors := Sys2Proof.Config.ownerAnchors, fleetRoots := Sys2Proof.Config.fleetRoots }

/-- The boot flash as delivered holds one active bundle in bank A, which passes its checks; its contents are not given (log 12). -/
def deliveredBank : Bank := ⟨2, Sys2Proof.Config.freeNat 0 % 2 ^ 32, Sys2Proof.Config.minSecVersion, true, []⟩

/-- The block right after reset: powered, stage 1, PWR_GOOD about to rise (log 1). -/
def State.reset : State where
  pending := []
  order := Sys2Proof.Config.assembled
  clock := Clock.reset
  stats := Stats.reset
  scopes := ⟨[], [], []⟩
  proto := Proto.reset Sys2Proof.Config.assembled
  sched := ⟨[], [], [], [], 0⟩
  fw := Firmware.reset deliveredBank ⟨0, 0, 0, false, []⟩ false
  win := Window.reset
  sec := ⟨[], Fuses.made⟩
  power := Power.reset Sys2Proof.Config.assembled
  rel := Rel.reset
  pins := Pins.reset
  stores := Stores.reset
  tiers := Tiers.reset
  cores := []
  kv := ⟨[], []⟩
  ingest := ⟨[], [], [], [], []⟩
  apps := Apps.reset
  out := []
  fresh := 1

end Sys2Proof.Machine
end

