-- ==== Sys2Proof/Machine/Status.lean ====
section
/-! DEFINITION. Status codes (R73), INFO flags (R74), the opcode table (R76), and what an order code has (R1, R10, R12). -/

namespace Sys2Proof.Machine

namespace St
def ok : Nat := 0
def badParam : Nat := 1
def badOpcode : Nat := 2
def badVersion : Nat := 3
def notPermitted : Nat := 4
def badContext : Nat := 5
def badFraming : Nat := 6
def configMismatch : Nat := 7
def notParked : Nat := 8
def noResource : Nat := 9
def aborted : Nat := 0xA
def badSession : Nat := 0xB
def busy : Nat := 0xC
def notFound : Nat := 0xD
def deadline : Nat := 0x100
def deadlineInFactor : Nat := 0x101
def noSolution : Nat := 0x102
def iterCap : Nat := 0x103
def contextFull : Nat := 0x200
def outOfTier2 : Nat := 0x201
def badChunkSeq : Nat := 0x202
def badBlob : Nat := 0x203
def noPath : Nat := 0x300
def timeUp : Nat := 0x301
def staleMap : Nat := 0x302
def mapRetired : Nat := 0x303
def keyInUse : Nat := 0x400
def keyRetired : Nat := 0x401
def keySlotsFull : Nat := 0x402
def badSignature : Nat := 0x403
def activationTimeout : Nat := 0x500
def memUncorrectable : Nat := 0x600
def coreFault : Nat := 0x601
def linkError : Nat := 0x602
def shed : Nat := 0x700
end St

/-! INFO flags (R74). -/
namespace Inf
def zeroWork : Nat := 1
def boxEmpty : Nat := 2
def warmIgnored : Nat := 4
def pivot : Nat := 8
def stateFault : Nat := 16
def tailDiscarded : Nat := 32
def eccCorrected : Nat := 64
def staleInput : Nat := 128
def held : Nat := 256
end Inf

/-- Roles (R45). -/
inductive Role where
  | owner | operator | tenant
deriving DecidableEq, Repr

/-- Who sent a packet: its role, the function it came through, and the owner session, if any. -/
structure Caller where
  role : Role
  fn : Nat
  session : Option Nat
deriving DecidableEq, Repr

def Role.mask : Role → Nat
  | .owner => 1
  | .operator => 2
  | .tenant => 4

/-- Opcode, roles (1 owner, 2 operator, 4 tenant) and the minor that introduced it (R76). -/
def opTable : List (Nat × Nat × Nat) :=
  [(0x0001, 6, 0), (0x0002, 6, 0), (0x0003, 6, 0), (0x0004, 7, 0), (0x0005, 6, 0), (0x0006, 2, 0), (0x0007, 2, 0),
   (0x0008, 6, 0), (0x0009, 6, 0), (0x000A, 6, 0), (0x000B, 7, 0), (0x000C, 7, 0), (0x000D, 7, 0), (0x0010, 7, 0),
   (0x0011, 7, 0), (0x0012, 7, 0), (0x0100, 7, 0), (0x0101, 1, 0)] ++
  [(0x0200, 6, 0), (0x0201, 6, 0), (0x0202, 6, 0), (0x0203, 6, 0), (0x0300, 6, 0), (0x0301, 6, 0), (0x0302, 6, 0),
   (0x0303, 6, 0), (0x0304, 6, 0), (0x0400, 6, 0), (0x0401, 6, 2), (0x0402, 6, 0), (0x0403, 6, 0), (0x0404, 6, 0),
   (0x0405, 6, 1), (0x0406, 2, 0), (0x0407, 2, 0), (0x0408, 2, 0)] ++
  [(0x0500, 6, 0), (0x0501, 6, 0), (0x0502, 6, 0), (0x0503, 6, 0), (0x0504, 6, 0), (0x0505, 6, 2), (0x0506, 6, 2),
   (0x0507, 6, 3), (0x0508, 6, 0), (0x0600, 6, 0), (0x0601, 6, 0), (0x0602, 6, 0), (0x0700, 2, 0), (0x0701, 2, 0),
   (0x0702, 6, 0), (0x0703, 6, 0), (0x0704, 6, 0), (0x0705, 6, 0)] ++
  [(0x0800, 6, 0), (0x0801, 6, 0), (0x0802, 6, 0), (0x0803, 6, 0), (0x0900, 6, 0), (0x0901, 6, 0), (0x0902, 6, 0),
   (0x0903, 6, 0), (0x0A00, 2, 0), (0x0A01, 2, 0), (0x0A02, 2, 0), (0x0A03, 2, 0), (0x0A04, 2, 0), (0x0A05, 2, 0),
   (0x0A06, 2, 0), (0x0A07, 2, 0), (0x0A08, 2, 0), (0x0A09, 7, 0)] ++
  [(0x0B00, 1, 0), (0x0B01, 3, 0), (0x0B02, 3, 0), (0x0C00, 6, 0), (0x0C01, 6, 0), (0x0C02, 6, 0), (0x0D00, 7, 0),
   (0x0E00, 1, 0), (0x0E01, 3, 0)]

def opRow (code : Nat) : Option (Nat × Nat) := Tab.get? opTable code

/-- Packets that complete at fetch and hold no tag (R84). -/
def tagless (code : Nat) : Bool := decide (1 ≤ code ∧ code ≤ 5)

/-- Order-code byte of DEVICE_INFO and DEV_ID (R72, R380). -/
def orderByte : Sys2Proof.OrderCode → Nat
  | .a4 => 1
  | .a8 => 2
  | .d8 => 3

def ioDies : Sys2Proof.OrderCode → Nat
  | .d8 => 2
  | _ => 1

/-- Populated stacks (R10). -/
def stacksOf : Sys2Proof.OrderCode → List Nat
  | .a4 => [0, 1, 4, 5]
  | _ => [0, 1, 2, 3, 4, 5, 6, 7]

/-- Stacks of a home set (R163). -/
def homeStacks (o : Sys2Proof.OrderCode) (home : Nat) : List Nat :=
  if home = 1 then (stacksOf o).filter (· < 4) else if home = 2 then (stacksOf o).filter (4 ≤ ·) else stacksOf o

def slotCount (o : Sys2Proof.OrderCode) : Nat := 48 * ioDies o

def funcCount (o : Sys2Proof.OrderCode) : Nat := 16 * ioDies o

/-- The first failing check decides (R61, R80 and every table of checks). -/
def firstFail : List (Bool × Nat) → Option Nat
  | [] => none
  | (c, st) :: r => if c then some st else firstFail r

end Sys2Proof.Machine
end

