-- ==== Sys2Proof/Machine/Ops.lean ====
section
/-! DEFINITION. Named operations over the state: free values, frames and edges, commit scopes, tier-2 translation and
memory, events, and the life of a packet from its checks to its completion. -/

namespace Sys2Proof.Machine

/-! ### Free values (log 3) -/

/-- Past every number a step has drawn from: a step draws at most 2^40 values, so no two draws share one. -/
def State.bump (s : State) : State := { s with fresh := s.fresh + 0x10000000000 }

/-- Walk from `x` upward, wrapping below `n`, to the first number not used. -/
def walkFree : Nat → Nat → Nat → List Nat → Nat
  | 0, x, _, _ => x
  | k + 1, x, n, used => if used.contains x then walkFree k (if x + 1 < n then x + 1 else 0) n used else x

/-- "Any free" of the numbers below `n` (log 4): which one is a free value; none when all are used. -/
def pickFree (seed n : Nat) (used : List Nat) : Option Nat :=
  if n = 0 then none
  else
    let x := walkFree (used.length + 1) (Sys2Proof.Config.pick seed % n) n used
    if used.contains x then none else some x

/-- `n` fresh bytes (log 5). -/
def freeBytes (seed n : Nat) : List Byte := (List.range n).map (Sys2Proof.Config.freeByte seed)

/-! ### Frames and time (R28, R32, R40, R41) -/

/-- Number of the current frame; 0 before the first edge. -/
def State.frameNo (s : State) : Nat := s.clock.nextFrame - 1

/-- Frame number of the first edge at least 5 us away (R32, R339, R346). -/
def State.dueFrame (s : State) : Nat :=
  if s.clock.now + 5000 ≤ s.clock.nextEdge then s.clock.nextFrame else s.clock.nextFrame + 1

/-- Robot time has reached `t` when a command that happens at `t` comes. -/
def State.reach (s : State) (t : Nat) : State := { s with clock := { s.clock with now := max s.clock.now t } }

/-- A robot time has bits [63:62] clear (R24). -/
def timeOk (t : Nat) : Bool := decide (t < 2 ^ 62)

/-! ### Commit scopes (R78 to R80) -/

def scopeKey (kind id off : Nat) : Nat := (kind * 256 + id) * 4096 + off

/-- Words of a scope's space (log 11). -/
def scopeWords (kind : Nat) : Nat :=
  match kind with
  | 0 => 0x40
  | 1 => 0x40
  | 2 => 0x140
  | 3 => 0x500
  | 4 => 6
  | _ => 6

/-- Reset value of a word (R29, R30, R168, R277, R304, R383, R423). -/
def wordReset (kind off : Nat) : Nat :=
  match kind, off with
  | 0, 0x00 => 0x3E8
  | 0, 0x01 => 0x180A0164
  | 0, 0x02 => 0x1005F
  | 0, 0x03 => 0x30
  | 0, 0x04 => 0x3E8
  | 3, 0x00 => 0x10100
  | 3, 0x03 => 0x3F800000
  | 3, 0x04 => 2
  | 5, 0x00 => 0x358637BD
  | 5, 0x01 => 0x3DCCCCCD
  | 5, 0x02 => 0x3FCCCCCD
  | 5, 0x03 => 0x3A83126F
  | 5, 0x04 => 0x3A83126F
  | 5, 0x05 => 0x105
  | _, _ => 0

/-- Bits of a word that are not reserved (R6 and the field maps). -/
def wordMask (kind off : Nat) : Nat :=
  match kind with
  | 0 => match off with
    | 0x00 => 0x1FFF1FFF
    | 0x01 => 0xF8FFFFFF
    | 0x02 => 0x000100FF
    | 0x03 => 0x000000F1
    | 0x04 => 0x0000FFFF
    | 0x10 => 0x0001FFFF
    | _ => 0
  | 1 => match off with
    | 0x10 => 0xFFFFFFFF
    | 0x11 => 0x0001FFFF
    | _ => 0
  | 2 => if off < 0x40 then 0
      else if (off - 0x40) % 32 = 0 then 0xFF else if (off - 0x40) % 32 ≤ 24 then 0xFFFFFFFF else 0
  | 3 =>
    if off = 0 then 0x000F0F00 else if off = 1 then 0xFFFFFFFF else if off = 2 then 0xFFFF
    else if off = 3 then 0xFFFFFFFF else if off = 4 then 3 else if off = 5 then 0x1FF
    else if off = 0x40 then 0xFF else if 0x41 ≤ off ∧ off ≤ 0x59 then 0xFFFFFFFF
    else if 0x100 ≤ off then
      (if off % 4 = 0 then 0x01FFFFFF else if off % 4 = 3 then 0 else 0xFFFFFFFF)
    else 0
  | 4 => 0xFFFFFFFF
  | _ => if off = 5 then 0xFFF else 0xFFFFFFFF

def State.shadowWord (s : State) (kind id off : Nat) : Nat :=
  (Tab.get? s.scopes.shadow (scopeKey kind id off)).getD (wordReset kind off)

def State.activeWord (s : State) (kind id off : Nat) : Nat :=
  (Tab.get? s.scopes.active (scopeKey kind id off)).getD (wordReset kind off)

def State.setShadow (s : State) (kind id off v : Nat) : State :=
  { s with scopes := { s.scopes with shadow := s.scopes.shadow.set (scopeKey kind id off) v } }

def State.setActive (s : State) (kind id off v : Nat) : State :=
  { s with scopes := { s.scopes with active := s.scopes.active.set (scopeKey kind id off) v } }

/-- Both copies of a scope back to their reset values (R78, R304). -/
def State.resetScope (s : State) (kind id : Nat) : State :=
  let keep : Nat × Nat → Bool := fun kv => !(decide (kv.1 / 4096 = kind * 256 + id))
  { s with scopes := { s.scopes with shadow := s.scopes.shadow.filter keep, active := s.scopes.active.filter keep,
                                     pending := s.scopes.pending.filter (fun c => c.scope ≠ ⟨kind, id⟩) } }

/-- A word of a scope as the commits already accepted will leave it (R80). -/
def State.dueWord (s : State) (kind id off : Nat) : Nat :=
  (s.scopes.pending.filter (fun c => c.scope = ⟨kind, id⟩)).foldl
    (fun w c => (Tab.get? c.words off).getD w) (s.activeWord kind id off)

/-- Frame period in ns on the active configuration (R29). -/
def State.period (s : State) : Nat := bits (s.activeWord 0 0 0) 12 0 * 1000

def State.phase (s : State) : Nat := bits (s.activeWord 0 0 0) 28 16 * 1000

/-- First point of the active grid strictly after `t` (R28). -/
def State.gridAfter (s : State) (t : Nat) : Nat :=
  let p := if s.period = 0 then 1 else s.period
  if t < s.phase then (s.phase - (s.phase - t - 1) / p * p) else s.phase + ((t - s.phase) / p + 1) * p

/-- Absolute deadline D of a DEADLINE field at dispatch (R40, R41); none for mode 00b. -/
def State.deadlineOf (s : State) (v : Nat) : Option Nat :=
  let n := bits v 61 32
  match bits v 63 62 with
  | 0 => none
  | 1 => some (bits v 61 0)
  | 3 => some (s.clock.now + bits v 61 0)
  | _ => some ((if n = 0 then s.clock.frameStart else s.clock.nextEdge + (n - 1) * s.period) + bits v 31 0)

/-- Mode 00b carries no time (R41). -/
def deadlineOk (v : Nat) : Bool := decide (bits v 63 62 ≠ 0) || decide (v = 0)

def reachedAt (d : Option Nat) (now : Nat) : Bool := match d with
  | some t => decide (t ≤ now)
  | none => false

/-- A control-class partition is active: accepted and not yet QUENCHING (R339). -/
def State.controlActive (s : State) : Bool :=
  s.sched.partitions.any (fun kv => decide (kv.2.cls = 0) && (decide (kv.2.state = 1) || decide (kv.2.state = 2) || decide (kv.2.state = 4)))

/-! ### Firmware processors (R373, R374) -/

def State.procDown (s : State) (code : Nat) : Bool :=
  match s.fw.procs.get? code with
  | some p => p.restarting || p.held
  | none => false

/-- The switch of an activation is under way (R370). -/
def State.switching (s : State) : Bool := match s.fw.activation with
  | some a => decide (a.state = 3)
  | none => false

def State.hearthDown (s : State) : Bool := s.procDown 2 || s.switching

def State.running (s : State) : Bool := s.fw.powered && s.clock.running

/-- Start-up has come to control-ready: sensor receivers and robot-network ports are in service (R376, R477). -/
def State.controlReady (s : State) : Bool := s.running && decide (5 ≤ s.fw.bootStage)

/-- A robot-network port whose link came up (R377, R477). -/
def State.portUp (s : State) (port : Nat) : Bool := s.controlReady && !s.pins.netDown.contains port

/-! ### Contexts, tier 2 and memory (R154, R161 to R163) -/

def State.ctx? (s : State) (c : Nat) : Option Context := s.sched.contexts.get? c

/-- The partition a context holds (R336). -/
def State.partOf (s : State) (c : Nat) : Option (Nat × Partition) :=
  s.sched.partitions.find? (fun kv => decide (kv.2.ctx = c) && decide (kv.2.state ≠ 0))

def State.page? (s : State) (c vpage : Nat) : Option Page :=
  match s.tiers.pages.get? c with
  | some t => t.get? vpage
  | none => none

/-- Physical key of a tier-2 address of a context. -/
def State.phys? (s : State) (c addr : Nat) : Option Nat := (s.page? c (addr / 65536)).map (fun p => p.frame * 65536 + addr % 65536)

/-- Pages that a range of a context touches. -/
def pageSpan (addr n : Nat) : List Nat :=
  if n = 0 then [] else (List.range ((addr + n - 1) / 65536 - addr / 65536 + 1)).map (fun i => addr / 65536 + i)

def State.t2Mapped (s : State) (c addr n : Nat) : Bool :=
  decide (addr + n ≤ 2 ^ 48) && (pageSpan addr n).all (fun v => (s.page? c v).isSome)

/-- The allocation that holds a page. -/
def State.allocOf (s : State) (c vpage : Nat) : Option Nat := (s.page? c vpage).map (·.base)

def State.t2Writable (s : State) (c addr n : Nat) : Bool :=
  decide (addr + n ≤ 2 ^ 48) &&
    (pageSpan addr n).all (fun v => match s.page? c v with
      | some p => !p.readOnly && !p.ingress
      | none => false)

/-- A range whose pages belong to one allocation. -/
def State.t2One (s : State) (c addr n : Nat) : Bool := (pageSpan addr n).all (fun v => decide (s.allocOf c v = s.allocOf c (addr / 65536)))

/-- A range inside one writable allocation. -/
def State.t2Within (s : State) (c addr n : Nat) : Bool := s.t2Writable c addr n && s.t2One c addr n

/-- Bytes of a context's tier 2; an unmapped page reads as zero here, and every caller checks first. -/
def State.t2Read (s : State) (c addr n : Nat) : List Byte :=
  (List.range n).map (fun i => match s.phys? c (addr + i) with
    | some k => s.stores.tier2.read k
    | none => 0)

/-- The physical pieces of a write to a context's tier 2, page by page. -/
def t2Pieces : Nat → Nat → List Byte → List (Nat × List Byte)
  | 0, _, _ => []
  | k + 1, addr, bs =>
    if bs.isEmpty then []
    else
      let room := 65536 - addr % 65536
      (addr, bs.take room) :: t2Pieces k (addr + room) (bs.drop room)

/-- A write to a context's tier 2 as physical writes. -/
def State.t2Wr (s : State) (c addr : Nat) (bs : List Byte) : List Wr :=
  (t2Pieces (bs.length / 65536 + 2) addr bs).filterMap (fun p =>
    (s.phys? c p.1).map (fun k => ⟨.tier2, k, p.2⟩))

/-- The 64-byte lines a write meets, ascending. -/
def Wr.lines (w : Wr) : List Nat :=
  if w.bytes.isEmpty then [] else List.range' (w.addr / 64) ((w.addr + w.bytes.length - 1) / 64 + 1 - w.addr / 64)

/-- Lines in the order of their last writes, after one more write. -/
def Wr.after (w : Wr) (l : List Nat) : List Nat :=
  l.filter (fun k => decide (w.bytes.isEmpty ∨ k < w.addr / 64 ∨ (w.addr + w.bytes.length - 1) / 64 < k)) ++ w.lines

def Stores.write (m : Stores) (w : Wr) : Stores :=
  match w.store with
  | .core => { m with core := m.core.writeBytes w.addr w.bytes }
  | .region => { m with region := m.region.writeBytes w.addr w.bytes }
  | .tier2 => { m with tier2 := m.tier2.writeBytes w.addr w.bytes, recent := w.after m.recent }
  | .xd => { m with xd := m.xd.writeBytes w.addr w.bytes }
  | .host => { m with host := m.host.writeBytes w.addr w.bytes }
  | .ufs => { m with ufs := m.ufs.writeBytes w.addr w.bytes }

/-- A write clears the poison of every line it covers whole (R446). -/
def Stores.heal (m : Stores) (w : Wr) : Stores :=
  { m with poison := m.poison.filter (fun p =>
      !(decide (p.1 = w.store) && decide (w.addr ≤ p.2 * 64) && decide (p.2 * 64 + 64 ≤ w.addr + w.bytes.length))) }

def State.apply (s : State) (ws : List Wr) : State :=
  { s with stores := ws.foldl (fun m w => (m.write w).heal w) s.stores }

/-- Zero-fill of `n` bytes of a store, which clears poison (R446). -/
def State.zeroFill (s : State) (st : Store) (addr n : Nat) : State :=
  let m := s.stores
  let m := match st with
    | .core => { m with core := m.core.zero addr n }
    | .region => { m with region := m.region.zero addr n }
    | .tier2 => { m with tier2 := m.tier2.zero addr n }
    | .xd => { m with xd := m.xd.zero addr n }
    | .host => { m with host := m.host.zero addr n }
    | .ufs => { m with ufs := m.ufs.zero addr n }
  { s with stores := { m with poison := m.poison.filter (fun p =>
      !(decide (p.1 = st) && decide (addr ≤ p.2 * 64) && decide (p.2 * 64 < addr + n))) } }

/-- Key of a host-memory byte: the link of the function and the bus address (log 10). -/
def hostKey (fn addr : Nat) : Nat := fn / 16 * 2 ^ 64 + addr

/-! ### Reaching host memory (R47, R87, R466) -/

def State.func? (s : State) (fn : Nat) : Option Func := s.proto.funcs.get? fn

/-- The HX9 may write host memory for the function: bus mastering is on and it is not orphaned (R87, R466). -/
def State.canWriteHost (s : State) (fn : Nat) : Bool :=
  match s.func? fn with
  | some f => f.busMaster && !f.orphan
  | none => false

/-- Command-ring fetches stay possible in orphan mode (R87). -/
def State.canReadRing (s : State) (fn : Nat) : Bool :=
  match s.func? fn with
  | some f => f.busMaster
  | none => false

def State.setFunc (s : State) (fn : Nat) (f : Func → Func) : State :=
  { s with proto := { s.proto with funcs := s.proto.funcs.update fn f } }

def State.setQueue (s : State) (q : Nat) (f : CmdQueue → CmdQueue) : State :=
  { s with proto := { s.proto with queues := s.proto.queues.update q f } }

def State.emit (s : State) (o : Output) : State := { s with out := s.out ++ [o] }

/-- Raise a vector of a function's MSI-X table; FFFFh is none (R53). -/
def State.raise (s : State) (fn vector : Nat) : State :=
  if vector = 0xFFFF then s else s.emit (.msix fn vector)

/-! ### Events (R64 to R67) -/

/-- PHASE of an index (R51). -/
def phaseBit (index entries : Nat) : Nat := if entries = 0 then 1 else 1 - (index / entries) % 2

/-- The 32 bytes of an event record (R64). -/
def eventBytes (e : Event) (phase eqSeq time : Nat) : List Byte :=
  toLe 2 e.code ++ toLe 1 (2 ^ e.category) ++ toLe 1 e.severity ++ toLe 2 (match e.ctx with
    | some c => c
    | none => 0xFFFF) ++ toLe 1 0 ++ toLe 1 phase ++ toLe 4 eqSeq ++ toLe 4 e.source ++ toLe 8 time ++ toLe 8 e.detail

/-- Write one record to a queue that has room: to its ring, or to the event buffer of an owner's session (R51, R64, R393, R394). -/
def State.writeRecord (s : State) (eq : Nat) (q : EventQueue) (e : Event) : State :=
  let seq := (q.eqSeq + 1) % 2 ^ 32
  let tenant := q.bindCtx.isSome
  let time := if tenant then s.clock.frameStart else s.clock.now
  let s := { s with proto := { s.proto with eqs := s.proto.eqs.set eq { q with eqSeq := seq, tail := (q.tail + 1) % 2 ^ 32 } } }
  match q.owner with
  | some _ => { s with proto := { s.proto with eqs := s.proto.eqs.update eq (fun x => { x with buffer := x.buffer ++ [eventBytes e 1 seq time] }) } }
  | none =>
    let s := s.apply [⟨.host, hostKey q.fn (q.base + 32 * (q.tail % q.entries)), eventBytes e (phaseBit q.tail q.entries) seq time⟩]
    if q.irqSeverity ≤ e.severity ∧ q.irqSeverity ≤ 3 then s.raise q.fn q.msix else s

def State.dropEvent (s : State) (eq : Nat) (q : EventQueue) : State :=
  { s with proto := { s.proto with eqs := s.proto.eqs.set eq { q with eqSeq := (q.eqSeq + 1) % 2 ^ 32, dropped := q.dropped + 1 } } }

/-- Records a queue still takes: places of its ring, or of the session's event buffer (R67, R394). -/
def EventQueue.room (q : EventQueue) : Nat :=
  if q.owner.isSome then q.entries - q.buffer.length else q.entries - (q.tail + 2 ^ 32 - q.head) % 2 ^ 32

/-- EVENTS_LOST (R65, R67). DESIGN CHOICE: its CTX is FFFFh on a queue bound to a context too, since its SOURCE is the event queue
(log 91). -/
def lostEvent (eq n : Nat) : Event := ⟨2, 0, 1, none, eq, n⟩

/-- Post EVENTS_LOST with the count of drops when the queue has room and can be written (R67). -/
def State.reportLost (s : State) (eq : Nat) : State :=
  match s.proto.eqs.get? eq with
  | none => s
  | some q =>
    if 0 < q.dropped ∧ 0 < q.room ∧ (q.owner.isSome ∨ s.canWriteHost q.fn) then
      s.writeRecord eq { q with dropped := 0 } (lostEvent eq q.dropped)
    else s

/-- Give one event to one queue: written, or dropped and counted (R67, R87). -/
def State.deliver (s : State) (eq : Nat) (e : Event) : State :=
  let s := s.reportLost eq
  match s.proto.eqs.get? eq with
  | none => s
  | some q =>
    if 0 < q.room ∧ q.dropped = 0 ∧ (q.owner.isSome ∨ s.canWriteHost q.fn) then s.writeRecord eq q e else s.dropEvent eq q

/-- The records waiting in the event buffers of a session's queues go out on it, and drops are reported (R67, R394; log 104). -/
def State.sendBuffer (s : State) (eq : Nat) : State :=
  match s.proto.eqs.get? eq with
  | none => s
  | some q => match q.owner with
    | none => s
    | some sess => State.reportLost (q.buffer.foldl (fun s r => s.emit (.mgmt sess 3 r))
        { s with proto := { s.proto with eqs := s.proto.eqs.set eq { q with buffer := [] } } }) eq

/-- A queue receives an event: category, severity, and the context rule of R66. -/
def EventQueue.wants (q : EventQueue) (e : Event) : Bool :=
  bit q.mask e.category && decide (q.minSeverity ≤ e.severity) &&
    (match q.bindCtx, e.ctx with
     | none, _ => true
     | some b, some c => decide (b = c)
     | some _, none => false)

/-- Post an event on every queue that receives it (R65, R66). -/
def State.post (s : State) (e : Event) : State :=
  (s.proto.eqs.filter (fun kv => kv.2.wants e)).foldl (fun s kv => s.deliver kv.1 e) s

/-! ### Counters (R38) -/

def State.acc (s : State) (g : FrameAcc → FrameAcc) : State := { s with stats := { s.stats with acc := g s.stats.acc } }

/-- Change the frame's counters of a partition (R38). -/
def State.accPart (s : State) (p : Nat) (g : PartAcc → PartAcc) : State :=
  s.acc (fun a => { a with parts := a.parts.set p (g ((a.parts.get? p).getD PartAcc.zero)) })

/-! ### Flights and completions (R58, R61 to R63, R84) -/

/-- What the body of an operation answers. -/
inductive Reply where
  /-- It completes now with status, INFO and RESULT. -/
  | done (status info result : Nat)
  /-- It completes now; VER of the completion, host writes sent before it and owner messages after it (R68, R79). -/
  | full (status info result : Nat) (ver : Option Nat) (hostWrites : List (Nat × List Byte)) (messages : List (List Byte))
  /-- Hearth does not dispatch it yet and holds it with its tag (R191, R222, R321, R339). -/
  | park
  /-- It is dispatched and waits for a core, a window or a link (R85, R178, R466). -/
  | parkWork
  /-- The same, waiting for tier-2 pages (R205). -/
  | parkPages
  /-- It runs on cores and completes when its slots and descriptors have retired. -/
  | placed (status info result : Nat) (writes : List Wr) (hostWrites : List (Nat × List Byte))
  /-- The same, and its deadline cuts it: it ends no earlier than robot time `d` (R41). -/
  | cut (d status info result : Nat) (writes : List Wr) (hostWrites : List (Nat × List Byte))
  /-- It runs on cores, and its outcome is formed at its end, with this deadline (R41) and these writes. -/
  | late (deadline : Option Nat) (writes : List Wr)
  /-- Some object holds it and completes it later. -/
  | later

/-- A body: the flight, the caller, the packet, the state. -/
abbrev Body := Nat → Caller → Sys2Proof.Packet → State → State × Reply

/-- Answer a status with nothing changed. -/
def refuse (s : State) (status : Nat) : State × Reply := (s, .done status 0 0)

def State.flight? (s : State) (id : Nat) : Option Flight := s.proto.flights.find? (fun f => decide (f.id = id))

def State.setFlight (s : State) (id : Nat) (g : Flight → Flight) : State :=
  { s with proto := { s.proto with flights := s.proto.flights.map (fun f => if f.id = id then g f else f) } }

/-- The function whose host memory a TILE_MOVE writes, through a window (R171). -/
def State.windowFn (s : State) (code : Nat) (p : Sys2Proof.Packet) : Option Nat :=
  if code = 0x300 ∧ Packet.fld p 33 1 = 4 then (s.tiers.regions.get? (bits (Packet.fld p 24 8) 63 48)).map (·.fn) else none

/-- An operation on a sequence whose tail was discarded says so when it completes, whatever its status (R206). -/
def State.tailNote (s : State) (code : Nat) (p : Sys2Proof.Packet) : Nat :=
  if decide (0x400 ≤ code ∧ code ≤ 0x407 ∧ code ≠ 0x402) then
    match s.kv.seqs.get? (Packet.fld p 16 2) with
    | some q => if q.tailDiscarded ∧ (p.ctx.toNat = q.ctx ∨ p.ctx.toNat = 0xFFFF) then Inf.tailDiscarded else 0
    | none => 0
  else 0

/-- End a flight: its outcome joins the completions to be written, in completion order (R58). -/
def State.finishFull (s : State) (id status info result : Nat) (ver : Option Nat) (hw : List (Nat × List Byte))
    (msgs : List (List Byte)) : State :=
  match s.flight? id with
  | none => s
  | some f =>
    let fin : Finished :=
      { flight := id, path := f.path, opcode := f.opcode, seq := f.pkt.seq.toNat, ctx := f.pkt.ctx.toNat,
        ver := ver.getD f.pkt.ver.toNat, irq := Packet.irq f.pkt, status := status, info := info ||| s.tailNote f.opcode f.pkt, result := result % 2 ^ 64,
        frame := s.frameNo, hostWrites := hw, window := s.windowFn f.opcode f.pkt, messages := msgs }
    let s := match (if f.placed then s.partOf f.pkt.ctx.toNat else none) with
      | some x => s.accPart x.1 (fun a => { a with completed := a.completed + 1 })
      | none => s
    { s with proto := { s.proto with flights := s.proto.flights.filter (fun g => g.id ≠ id),
                                     finished := s.proto.finished ++ [fin] } }

def State.finish (s : State) (id status info result : Nat) : State := s.finishFull id status info result none [] []

/-- Complete the flight an object holds, if it holds one. -/
def State.finishOpt (s : State) (o : Option Nat) (status info result : Nat) : State :=
  match o with
  | some id => s.finish id status info result
  | none => s

/-- Queue of a path. -/
def State.pathQueue (s : State) (p : Sys2Proof.Path) : Option (Nat × CmdQueue) :=
  match p with
  | .queue q => (s.proto.queues.get? q).map (fun c => (q, c))
  | _ => none

/-- Negotiated minor of a path: none before a session exists (R69, R70, R72). -/
def State.pathMinor (s : State) (p : Sys2Proof.Path) : Option Nat :=
  match p with
  | .owner _ => some 3
  | .job _ => some 3
  | .queue q => match s.proto.queues.get? q with
    | none => none
    | some c => match s.func? c.fn with
      | some f => f.session.map (·.minor)
      | none => none

/-- VER check (R69, R70). HELLO's own field is ignored (R68). -/
def State.versionOk (s : State) (p : Sys2Proof.Packet) (code : Nat) : Bool :=
  if code = 1 then true
  else match s.pathMinor p.path with
    | none => decide (code = 4 ∨ code = 5)
    | some m => decide (p.ver.toNat / 16 = 2) && decide (p.ver.toNat % 16 ≤ m)

/-- The minor a packet is interpreted under. -/
def State.minorOf (s : State) (p : Sys2Proof.Packet) (code : Nat) : Nat :=
  if code = 1 ∨ (s.pathMinor p.path).isNone then 0 else p.ver.toNat % 16

/-- VER of the completion (R62): what the packet was interpreted under; the session's own when it was refused for VER. -/
def State.verOf (s : State) (p : Sys2Proof.Packet) (code : Nat) : Nat :=
  if s.versionOk p code && !decide (code = 1) && (s.pathMinor p.path).isSome then p.ver.toNat
  else 0x20 + (s.pathMinor p.path).getD 0

/-- The caller of a path (R45). -/
def State.caller (s : State) (p : Sys2Proof.Path) : Option Caller :=
  match p with
  | .owner sess => if s.sec.sessions.has sess then some ⟨.owner, 0, some sess⟩ else none
  | .job _ => none
  | .queue q => (s.proto.queues.get? q).map (fun c =>
      if q < 32 then ⟨if q % 16 = 0 then .operator else .tenant, c.fn, none⟩
      else ⟨if c.bindCtx.isNone then .operator else .tenant, c.fn, none⟩)

/-- CTX allowed on the path (R45, R46). -/
def State.ctxAllowed (s : State) (p : Sys2Proof.Path) (code ctx : Nat) : Bool :=
  if ctx = 0xFFFF then
    tagless code || (match s.caller p with
      | some c => decide (c.role ≠ .tenant)
      | none => false)
  else match s.ctx? ctx with
    | none => false
    | some x => match p with
      | .owner _ => true
      | .job _ => true
      | .queue q => match s.proto.queues.get? q with
        | none => false
        | some c => match c.bindCtx with
          | some b => decide (b = ctx)
          | none => if q < 32 ∧ q % 16 ≠ 0 then decide (x.fn = c.fn) else true

/-- The header checks of R61, 1 to 5: the first that fails. -/
def State.headerStatus (s : State) (p : Sys2Proof.Packet) (code : Nat) : Option Nat :=
  match s.caller p.path, opRow code with
  | none, _ => some St.notPermitted
  | some _, none => if s.versionOk p code then some St.badOpcode else some St.badVersion
  | some c, some (roles, since) => firstFail
      [(!s.versionOk p code, St.badVersion),
       (decide (s.minorOf p code < since), St.badOpcode),
       (decide (p.rsv ≠ 0) || decide (p.flags.toNat / 4 ≠ 0), St.badParam),
       (decide (roles &&& c.role.mask = 0), St.notPermitted),
       ((decide (code = 1 ∨ code = 3)) && (match p.path with
          | .queue q => decide (32 ≤ q)
          | _ => true), St.notPermitted),
       (!s.ctxAllowed p.path code p.ctx.toNat, St.badContext)]

/-- Tags in use (R84). -/
def State.tagsUsed (s : State) (control : Bool) : Nat :=
  (s.proto.flights.filter (fun f => f.tagged && decide (f.control = control))).length +
  (s.proto.finished.filter (fun f => !tagless f.opcode && (match f.path with
    | .queue q => (match s.proto.queues.get? q with
        | some c => decide ((c.cls = 0 ∧ 32 ≤ q) ↔ control = true)
        | none => !control)
    | _ => false))).length

/-- A new flight for a packet, with its tag; the frame's tag peaks follow (R38, R84). -/
def State.newFlight (s : State) (p : Sys2Proof.Packet) (code : Nat) : State × Nat :=
  let id := s.proto.nextFlight
  let (fn, control) := match p.path with
    | .queue q => match s.proto.queues.get? q with
      | some c => (c.fn, decide (c.cls = 0 ∧ 32 ≤ q))
      | none => (0, false)
    | _ => (0, false)
  let tagged := !tagless code && (match p.path with
    | .queue _ => true
    | _ => false)
  let f : Flight :=
    { id := id, path := p.path, fn := fn, opcode := code, pkt := p, tagged := tagged, control := control, running := false,
      parked := false, pages := false, asked := 0, held := false, placed := false, late := false, fetchTime := s.clock.now, dispatchTime := 0, deadline := none, status := 0, info := 0,
      result := 0, writes := [], hostWrites := [] }
  let s := { s with proto := { s.proto with flights := s.proto.flights ++ [f], nextFlight := id + 1 } }
  let a := s.stats.acc
  let a := if control then { a with tagPeakControl := max a.tagPeakControl (s.tagsUsed true) }
           else { a with tagPeakShared := max a.tagPeakShared (s.tagsUsed false) }
  ({ s with stats := { s.stats with acc := a } }, id)

/-- The fetched flight a packet's command dispatches, if it was fetched. -/
def State.fetched (s : State) (p : Sys2Proof.Packet) (code : Nat) : Option Flight :=
  s.proto.flights.find? (fun f => !f.running && !f.parked && decide (f.opcode = code) && decide (f.pkt = p))

/-- Hearth has not dispatched the flight yet: it was only fetched, or it is held (R58, R191, R222, R321, R339). -/
def Flight.undispatched (f : Flight) : Bool := !f.running && (!f.parked || f.held)

/-- A packet waits behind the earlier ones of its path: packets are dispatched in ring order, and one with FENCE when every
earlier one has completed (R58, R222). -/
def State.fenced (s : State) (p : Sys2Proof.Packet) (id : Nat) : Bool :=
  s.proto.flights.any (fun f => decide (f.path = p.path) && decide (f.id < id) && (Packet.fence p || f.undispatched))

/-- Opcodes that SEC serves and that wait for its restart (R373). -/
def secOpcode (code : Nat) : Bool := decide (code = 0xB00 ∨ code = 0xB01 ∨ code = 0xB02 ∨ code = 0xC00 ∨ code = 0xC01 ∨ code = 0xC02)

/-- The opcode can be served now: Hearth or SEC runs, and start-up has come far enough (R373 to R377). -/
def State.serves (s : State) (p : Sys2Proof.Path) (code : Nat) : Bool :=
  match p with
  | .job _ => false
  | .owner sess => s.fw.powered && !s.power.standby && s.sec.sessions.has sess && !s.procDown 0 && !s.fw.unlockWait &&
      (!s.fw.fatal || decide (1 < s.fw.bootStage) || decide (code = 0xB00 ∨ code = 0xB02 ∨ code = 0xE00))
  | .queue q => s.running && !s.power.standby && decide (4 ≤ s.fw.bootStage) && !s.hearthDown && s.proto.queues.has q &&
      !(secOpcode code && s.procDown 0)

/-- In orphan mode an admin queue acts on RECLAIM and HELLO and skips every other packet it fetches (R87). A HELLO without
TAKEOVER completes with BAD_SESSION then too, as R69 states (log 90). -/
def State.orphanSkip (s : State) (p : Sys2Proof.Packet) (code : Nat) : Bool :=
  match p.path with
  | .queue q => decide (q < 32) && (match s.proto.queues.get? q with
      | some c => (match s.func? c.fn with
          | some f => f.orphan && !decide (code = 3) && !decide (code = 1)
          | none => false)
      | none => false)
  | _ => false

/-- The next place in the order of the requests for pages (R205). -/
def State.nextAsk (s : State) : Nat := (s.proto.flights.map (·.asked)).foldl max 0 + 1

/-- The settings a flight keeps from its dispatch: the trust entries of its context (R396), or the words of its QP channel (R304). -/
def State.settings (s : State) (f : Flight) : Option (List Nat) :=
  if f.words.isSome then f.words
  else if f.opcode = 0xA06 ∨ f.opcode = 0x506 then some ((List.range 256).map (fun i => s.activeWord 2 f.pkt.ctx.toNat (0x40 + i)))
  else if f.opcode = 0x803 then some ((List.range 6).map (s.activeWord 5 (Packet.fld f.pkt 16 1)))
  else none

/-- The deadline of a flight, as its dispatch fixes it (R41): the DEADLINE field of the batches, solves and searches. -/
def State.flightDeadline (s : State) (f : Flight) : Option Nat :=
  if f.parked && !f.held then f.deadline
  else if f.opcode = 0x800 ∨ f.opcode = 0x801 ∨ f.opcode = 0x803 then s.deadlineOf (Packet.fld f.pkt 32 8)
  else if f.opcode = 0x902 then s.deadlineOf (Packet.fld f.pkt 24 8)
  else none

/-- Absolute deadline of an operation: the one fixed at the dispatch of a flight that has waited since (R41, R42). -/
def State.dueBy (s : State) (o : Owner) (v : Nat) : Option Nat :=
  match o with
  | .flight id => match s.flight? id with
    | some f => if f.parked && !f.held then f.deadline else s.deadlineOf v
    | none => s.deadlineOf v
  | _ => s.deadlineOf v

/-- Record what a body answered for its flight. -/
def State.settleReply (s : State) (id ver : Nat) (r : Reply) : State :=
  match r with
  | .done st info res => s.finishFull id st info res (some ver) [] []
  | .full st info res v hw ms => s.finishFull id st info res (some (v.getD ver)) hw ms
  | .park => s.setFlight id (fun f => { f with parked := true, pages := false, held := true })
  | .parkWork => s.setFlight id (fun f => { f with parked := true, pages := false, held := false, words := s.settings f, deadline := s.flightDeadline f })
  | .parkPages => s.setFlight id (fun f =>
      { f with parked := true, pages := true, held := false, asked := if f.parked && f.pages then f.asked else s.nextAsk, words := s.settings f,
               deadline := s.flightDeadline f })
  | .placed st info res ws hw => s.setFlight id (fun f =>
      { f with running := true, parked := false, placed := true, status := st, info := info, result := res, writes := ws, hostWrites := hw,
               dispatchTime := s.clock.now })
  | .cut d st info res ws hw => s.setFlight id (fun f =>
      { f with running := true, parked := false, placed := true, status := st, info := info, result := res, writes := ws, hostWrites := hw,
               dispatchTime := s.clock.now, deadline := some d })
  | .late d ws => s.setFlight id (fun f =>
      { f with running := true, parked := false, placed := true, late := true, deadline := d, writes := ws, dispatchTime := s.clock.now })
  | .later => s.setFlight id (fun f => { f with running := true, parked := false })

/-- A packet of class 2 or 3 fetched and not placed while a level of E1 or above stands is shed (R437). -/
def State.sheds (s : State) (p : Sys2Proof.Packet) (code : Nat) : Bool :=
  decide (1 ≤ s.power.applied) && !tagless code && (match p.path with
    | .queue q => decide (32 ≤ q) && (match s.proto.queues.get? q with
        | some c => decide (2 ≤ c.cls)
        | none => false)
    | _ => false)

/-- The checks of a dispatch before its body: the header (R61), then shedding (R437). -/
def State.turnAway (s : State) (p : Sys2Proof.Packet) (code : Nat) : Option Nat :=
  match s.headerStatus p code with
  | some st => some st
  | none => if s.sheds p code then some St.shed else none

/-- Dispatch a flight: the checks before its body, then the body (R61). -/
def State.dispatch (s : State) (body : Body) (id code : Nat) (p : Sys2Proof.Packet) : State :=
  match s.turnAway p code, s.caller p.path with
  | some st, _ => s.finishFull id st 0 0 (some (s.verOf p code)) [] []
  | none, none => s
  | none, some c =>
    let r := body id c p s
    r.1.settleReply id (s.verOf p code) r.2

/-- A body of checks, in the order its rule gives them, and an effect. -/
def checked (checks : Caller → Sys2Proof.Packet → State → Option Nat)
    (effect : Nat → Caller → Sys2Proof.Packet → State → State × Reply) : Body := fun id c p s =>
  match checks c p s with
  | some st => refuse s st
  | none => effect id c p s

/-! ### Fetching (R50, R57, R84 to R87) -/

def State.active (s : State) : State := { s with power := { s.power with lastActivity := s.clock.now } }

/-- Slots between a queue's consumer index and its tail. -/
def CmdQueue.left (c : CmdQueue) : Nat := (c.tail + 2 ^ 32 - c.head) % 2 ^ 32

/-- In-flight packets of a queue: fetched and not completed. -/
def State.inflight (s : State) (q : Nat) : Nat :=
  (s.proto.flights.filter (fun f => f.path = .queue q)).length + (s.proto.finished.filter (fun f => f.path = .queue q)).length

/-- Completions of a queue held in orphan mode. -/
def State.heldOf (s : State) (q : Nat) (fn : Nat) : Nat :=
  match s.func? fn with
  | some f => (f.held.filter (fun h => h.path = .queue q)).length
  | none => 0

/-- No halt, bound, level or stop keeps the next packet of queue `q` unfetched (R50, R55, R85 to R87, R386, R437). -/
def State.admits (s : State) (q : Nat) (c : CmdQueue) (code : Nat) : Bool :=
  let admin := decide (q < 32)
  let control := decide (c.cls = 0) && !admin
  let orphan := match s.func? c.fn with
    | some f => f.orphan
    | none => true
  let taken := s.inflight q + s.heldOf q c.fn
  !c.halted && c.closing.isNone && s.canReadRing c.fn &&
  (!admin || (match s.func? c.fn with
    | some f => f.enable
    | none => false)) &&
  (!orphan || admin || control) && decide (taken < c.maxInflight) &&
  decide (taken + (c.cplTail + 2 ^ 32 - c.cplHead) % 2 ^ 32 < c.slots) &&
  (if control then decide (s.tagsUsed true < 512) else tagless code || decide (s.tagsUsed false < 15872)) &&
  (tagless code || admin || decide (c.cls < 2) || decide (s.power.applied = 0)) &&
  !(s.win.stopActive && !admin && !control)

/-- The packet whose slots begin at the consumer index (R59). -/
def State.ringPacket (s : State) (q : Nat) (c : CmdQueue) : Nat × Sys2Proof.Packet :=
  let at_ : Nat → Byte := fun i => s.stores.host.read (hostKey c.fn (c.base + (64 * (c.head % c.slots) + i) % (64 * c.slots)))
  let num : Nat → Nat → Nat := fun o n => leNat ((List.range n).map (fun i => at_ (o + i)))
  let len := num 10 1
  (num 0 2,
   { path := .queue q, ver := at_ 2, flags := at_ 3, seq := BitVec.ofNat 32 (num 4 4), ctx := BitVec.ofNat 16 (num 8 2), len := at_ 10,
     rsv := BitVec.ofNat 40 (num 11 5), body := (List.range (64 * len - 16)).map (fun i => at_ (16 + i)) })

/-- Queue `q` may be fetched now: nothing keeps it unfetched, and all slots of its next packet lie before the tail (R50, R57). -/
def State.fetchable (s : State) (q : Nat) (c : CmdQueue) : Bool :=
  let len := Packet.len (s.ringPacket q c).2
  decide (0 < c.left) && s.admits q c (s.ringPacket q c).1 && decide (len = 0 ∨ c.slots < len ∨ len ≤ c.left)

/-- Group of a queue in the fetch order: 0 class 0, 4 admin, 1 to 3 the other classes. -/
def fetchGroup (q : Nat) (c : CmdQueue) : Nat := if q < 32 then 4 else c.cls

/-- The next queue of a group after the last one served, round robin (R57); `given` has a packet handed over directly. -/
def State.nextWith (s : State) (given : Option Nat) (g : Nat) : Option Nat :=
  let qs := Tab.keysWhere s.proto.queues (fun q c => decide (fetchGroup q c = g) && (decide (given = some q) || s.fetchable q c))
  let last := s.proto.lastServed.getD g 0
  match qs.find? (fun q => decide (last < q)) with
  | some q => some q
  | none => qs.head?

def State.nextIn (s : State) (g : Nat) : Option Nat := s.nextWith none g

/-- The next queue to fetch from: class 0, then admin queues, then classes 1 to 3 in the proportion 16 : 4 : 1 (R57). -/
def State.chooseWith (s : State) (given : Option Nat) : Option (Nat × List Nat) :=
  match s.nextWith given 0, s.nextWith given 4 with
  | some q, _ => some (q, s.proto.credits)
  | none, some q => some (q, s.proto.credits)
  | none, none =>
    let ready := [1, 2, 3].filter (fun g => (s.nextWith given g).isSome)
    let cr := if ready.any (fun g => decide (0 < s.proto.credits.getD (g - 1) 0)) then s.proto.credits else [16, 4, 1]
    match ready.find? (fun g => decide (0 < cr.getD (g - 1) 0)) with
    | none => none
    | some g => (s.nextWith given g).map (fun q => (q, cr.set (g - 1) (cr.getD (g - 1) 0 - 1)))

def State.chooseQueue (s : State) : Option (Nat × List Nat) := s.chooseWith none

/-- Hearth turns to a queue: its class has been served (R57). -/
def State.serve (s : State) (q : Nat) (c : CmdQueue) (cr : List Nat) : State :=
  { s with proto := { s.proto with credits := cr, lastServed := s.proto.lastServed.set (fetchGroup q c) q } }

/-- Bytes 16 to 63 other than the fields a body names are zero, and LEN is 1 (R61, R77). -/
def shortOk (p : Sys2Proof.Packet) (from_ : Nat) : Bool := decide (Packet.len p = 1) && Packet.rsvZero p from_ 64

/-- Count a heartbeat of a function (R86). -/
def State.beat (s : State) (fn : Nat) : State :=
  s.setFunc fn (fun f => { f with session := f.session.map (fun x => { x with lastBeat := s.clock.now }) })

/-- A HEARTBEAT that passes its checks counts as it is fetched, in orphan mode too (R86, R87). -/
def State.beatAtFetch (s : State) (fn : Nat) (p : Sys2Proof.Packet) (code : Nat) : State :=
  if code = 2 ∧ (s.turnAway p 2).isNone ∧ shortOk p 16 then s.beat fn else s

/-- Hearth takes one packet of queue `q`: the indices have moved past it. In orphan mode an admin packet may be skipped, with
no completion, and is counted (R87); otherwise it becomes a flight. -/
def State.take (s : State) (c : CmdQueue) (code : Nat) (p : Sys2Proof.Packet) : State × Option Nat :=
  let s := s.beatAtFetch c.fn p code
  if s.orphanSkip p code then (s.setFunc c.fn (fun f => { f with orphanSkips := f.orphanSkips + 1 }), none)
  else ((s.newFlight p code).1, some (s.newFlight p code).2)

/-- A packet handed over directly (log 13): host software places it at the tail of its queue, which holds no other unfetched
packet and whose bounds let Hearth fetch it, and the fetch order has come to that queue (R57); or the owner's session delivers
it (R393). None when it stays outside. -/
def State.handed (s : State) (code : Nat) (p : Sys2Proof.Packet) : Option (State × Option Nat) :=
  match p.path with
  | .job _ => none
  | .owner _ =>
    if 64 ≤ (s.proto.flights.filter (fun f => decide (f.path = p.path))).length + (s.proto.finished.filter (fun f => decide (f.path = p.path))).length
    then none else some ((s.newFlight p code).1, some (s.newFlight p code).2)
  | .queue q => match s.proto.queues.get? q with
    | none => none
    | some c =>
      if !s.admits q c code || decide (c.left ≠ 0) || decide (Packet.len p = 0 ∨ c.slots < Packet.len p) then none
      else match s.chooseWith (some q) with
        | none => none
        | some (r, cr) => if r ≠ q then none else some (((s.serve q c cr).active.setQueue q (fun c =>
            { c with head := (c.head + Packet.len p) % 2 ^ 32, tail := (c.tail + Packet.len p) % 2 ^ 32 })).take c code p)

/-- A packet's command: nothing while it cannot be dispatched; otherwise its checks and its body. The packet is the one
PACKET_FETCH took, or one handed over directly (log 13). -/
def runPacket (code : Nat) (body : Body) (p : Sys2Proof.Packet) (s : State) : State :=
  if !s.serves p.path code then s
  else match s.fetched p code with
    | some g => if s.fenced p g.id then s else s.dispatch body g.id code p
    | none => match s.handed code p with
      | none => s
      | some (t, none) => t
      | some (t, some id) => if t.fenced p id then t else t.dispatch body id code p

/-- The 32 bytes of a completion entry (R62). -/
def completionBytes (f : Finished) (qid phase sqHead : Nat) : List Byte :=
  toLe 2 f.status ++ toLe 2 f.info ++ toLe 4 f.seq ++ toLe 2 qid ++ toLe 2 f.opcode ++ toLe 2 f.ctx ++ toLe 1 f.ver ++
  toLe 1 phase ++ toLe 4 sqHead ++ toLe 4 f.frame ++ toLe 8 f.result

/-- The host memory a completion's writes go to takes them now (R87, R466). -/
def State.windowOpen (s : State) (f : Finished) : Bool := match f.window with
  | some w => s.canWriteHost w
  | none => true

/-- Write one completion to its ring, after the operation's host writes (R58, R62, R63). -/
def State.writeCompletion (s : State) (f : Finished) : State :=
  match f.path with
  | .owner sess =>
    if s.sec.sessions.has sess then
      f.messages.foldl (fun s m => s.emit (.mgmt sess 4 m)) (s.emit (.mgmt sess 2 (completionBytes f 0xFFFF 1 0)))
    else s
  | .job _ => s
  | .queue q => match s.proto.queues.get? q with
    | none => s
    | some c =>
      let s := s.apply (f.hostWrites.map (fun w => ⟨.host, w.1, w.2⟩))
      let s := s.apply [⟨.host, hostKey c.fn (c.cplBase + 32 * (c.cplTail % c.slots)),
        completionBytes f q (phaseBit c.cplTail c.slots) c.head⟩]
      let s := s.setQueue q (fun c => { c with cplTail := (c.cplTail + 1) % 2 ^ 32 })
      if f.irq ∨ f.status ≠ 0 then s.raise c.fn c.msix else s

/-! ### Key generations (R210, R401) -/

/-- Pages counted under a generation (R210). -/
def State.genCount (s : State) (c g : Nat) : Nat :=
  ((s.kv.seqs.filter (fun kv => decide (kv.2.ctx = c))).map (fun kv =>
    (kv.2.pages.filter (fun x => decide (x.2.state ≠ 1) && !x.2.lost && decide (x.2.gen = g))).length)).foldl (· + ·) 0

/-- RETIRED generations without a page are FREE (R401). -/
def State.settleKeys (s : State) : State :=
  { s with sched := { s.sched with contexts := s.sched.contexts.mapVals (fun c x =>
      { x with gens := (List.range x.gens.length).zip x.gens |>.map (fun g => if g.2.state = 2 ∧ s.genCount c g.1 = 0 then ⟨0, []⟩ else g.2) }) } }

/-! ### Error counters and the fault log (R457, R458) -/

def sat32 (n : Nat) : Nat := min n (2 ^ 32 - 1)

def State.count (s : State) (g : ErrCounts → ErrCounts) : State := { s with rel := { s.rel with counts := g s.rel.counts } }

/-- One entry for the fault log, at most one a second for each CODE and SOURCE (R458). -/
def State.logFault (s : State) (code source detail : Nat) : State :=
  let recent := s.rel.lastOf.any (fun x => decide (x.1 = code ∧ x.2.1 = source) && decide (s.clock.now < x.2.2 + 10 ^ 9))
  if recent then s
  else
    let e : LogEntry := ⟨s.rel.nextSeq, s.rel.bootCount, s.clock.now, code, source, s.fw.activeRelease, detail⟩
    { s with rel := { s.rel with queue := s.rel.queue ++ [e], nextSeq := s.rel.nextSeq + 1,
                                 lastOf := (code, source, s.clock.now) :: s.rel.lastOf.filter (fun x => ¬(x.1 = code ∧ x.2.1 = source)) } }

end Sys2Proof.Machine
end

