-- ==== Sys2Proof/Machine/Operands.lean ====
section
/-! DEFINITION. Operand forms: locations (R154), tensor descriptors (R146), linear and tiled layouts (R135 to R138), and
reading and writing the elements of a tensor in any format (R91 to R98, R112 to R118). -/

namespace Sys2Proof.Machine

/-- A tensor descriptor (R146). -/
structure TDesc where
  addr : Nat
  fmt : Nat
  loc : Nat
  layout : Nat
  rank : Nat
  d0 : Nat
  d1 : Nat
  d2 : Nat
  d3 : Nat
  tileK : Nat
  s1 : Nat
  s2 : Nat
  s3 : Nat
  splane : Nat
deriving DecidableEq, Repr

/-- A descriptor of 48 zero bytes is unused (R128). -/
def TDesc.unused (t : TDesc) : Bool := decide (t = ⟨0, 0, 0, 0, 0, 0, 0, 0, 0, 0, 0, 0, 0, 0⟩)

def TDesc.of (bs : List Byte) : TDesc :=
  ⟨fieldAt bs 0 8, fieldAt bs 8 1, fieldAt bs 9 1, fieldAt bs 10 1, fieldAt bs 11 1, fieldAt bs 12 4, fieldAt bs 16 4,
   fieldAt bs 20 4, fieldAt bs 24 4, fieldAt bs 28 4, fieldAt bs 32 4, fieldAt bs 36 4, fieldAt bs 40 4, fieldAt bs 44 4⟩

def Packet.desc (p : Sys2Proof.Packet) (off : Nat) : TDesc := TDesc.of (Packet.bytes p off 48)

/-- Elements of a group along K (R106, R136). -/
def groupOf (fmt : Nat) : Nat := if fmt = 1 then 16 else 32

/-- Handle and offset of LOC 1 and 3 addresses (R146, R154). -/
def TDesc.handle (t : TDesc) : Nat := bits t.addr 63 48
def TDesc.off (t : TDesc) : Nat := if t.loc = 0 then bits t.addr 20 0 else if t.loc = 2 then bits t.addr 47 0 else bits t.addr 23 0

/-- Reserved address bits are zero. -/
def addrOk (loc addr : Nat) : Bool :=
  if loc = 0 then decide (addr < 2 ^ 21) else if loc = 2 then decide (addr < 2 ^ 48)
  else if loc = 4 then decide (bits addr 47 40 = 0) else decide (bits addr 47 24 = 0)

/-- Rank, dimensions, reserved fields and layout of a used descriptor (R146, R153). -/
def TDesc.wellShaped (t : TDesc) : Bool :=
  decide (1 ≤ t.rank ∧ t.rank ≤ 4) && decide (t.loc ≤ 3) && decide (t.layout ≤ 1) && addrOk t.loc t.addr &&
  (decide (2 ≤ t.rank) || decide (t.d1 = 1)) && (decide (3 ≤ t.rank) || decide (t.d2 = 1)) &&
  (decide (4 ≤ t.rank) || decide (t.d3 = 1)) &&
  (if t.layout = 0 then decide (t.tileK ≠ 0 ∧ t.tileK % groupOf t.fmt = 0) && decide (t.s1 = 0 ∧ t.s2 = 0 ∧ t.s3 = 0 ∧ t.splane = 0)
   else decide (t.tileK = 0) && (isMx t.fmt || decide (t.splane = 0)))

def TDesc.isEmpty (t : TDesc) : Bool := decide (t.d0 = 0 ∨ t.d1 = 0 ∨ t.d2 = 0 ∨ t.d3 = 0)

def TDesc.count (t : TDesc) : Nat := t.d0 * t.d1 * t.d2 * t.d3

def TDesc.sameDims (a b : TDesc) : Bool := decide (a.d0 = b.d0 ∧ a.d1 = b.d1 ∧ a.d2 = b.d2 ∧ a.d3 = b.d3)

/-- FP32, linear, with the given dimensions: the form of the solver and stream operands. -/
def TDesc.isLinear32 (t : TDesc) (d0 d1 d2 : Nat) : Bool :=
  t.wellShaped && decide (t.fmt = 0 ∧ t.layout = 1 ∧ t.d0 = d0 ∧ t.d1 = d1 ∧ t.d2 = d2 ∧ t.d3 = 1)

/-! ### Formats by engine (R102) -/

def tensorReads (f : Nat) : Bool := decide (1 ≤ f ∧ f ≤ 9)
def tensorWrites (f : Nat) : Bool := decide (f ≤ 9)
def vectorTakes (f : Nat) : Bool := decide (f ≤ 9)
def scanTakes (f : Nat) : Bool := decide (f ≤ 1)

/-! ### Layout (R135 to R138) -/

/-- Bytes of one row of a linear tensor; MX rows hold whole blocks (R97). -/
def rowBytes (fmt n : Nat) : Nat := if isMx fmt then ceilDiv n 32 * (4 * elemBits fmt) else n * elemBits fmt / 8

/-- Which kind of tile a tensor of a format is kept in when an engine writes it (R137). DESIGN CHOICE: R137 gives the kinds for
the tensor engine; every other operation that writes a tiled destination uses them too, but a MOVE that keeps format and
layout, which keeps the kind as well (log 96). -/
def tileKindOf (fmt : Nat) : Nat := if fmt = 0 then 3 else 1

/-- Rows of a panel of a tile kind; V-tiles as written here span up to 64 rows (log 96). -/
def tileRows (kind : Nat) : Nat := if kind = 2 then 32 else 64

/-- Plane sizes of a tile of `k` values along K (R136), and of `rows` rows where it is a V-tile: bytes of elements and bytes of
scales. -/
def planeBytes (kind fmt k rows : Nat) : Nat × Nat :=
  if kind = 3 then (rows * roundUp (rowBytes fmt k) 256, if isMx fmt then rows * roundUp (ceilDiv k 32) 64 else 0)
  else
    let g := ceilDiv k (groupOf fmt)
    (g * (tileRows kind * groupOf fmt * elemBits fmt / 8), if isMx fmt then g * tileRows kind else 0)

/-- SIZE_4K of a tile with its planes at the first offsets allowed. -/
def tileUnits (kind fmt k rows : Nat) : Nat :=
  let (e, sc) := planeBytes kind fmt k rows
  ceilDiv (roundUp (64 + e) 64 + sc) 4096

/-- Where the planes of a tile lie: pitch, element plane, scale plane, row pitch of a V-tile. -/
structure TileGeo where
  kind : Nat
  units : Nat
  eplane : Nat
  splane : Nat
  rowPitch : Nat
deriving DecidableEq, Repr

def tileGeo (kind fmt k rows : Nat) : TileGeo :=
  let (e, _) := planeBytes kind fmt k rows
  ⟨kind, tileUnits kind fmt k rows, 64, if isMx fmt then roundUp (64 + e) 64 else 0, if kind = 3 then roundUp (rowBytes fmt k) 256 else 0⟩

/-- Extents of a tensor in tiles of a kind: along K, across it, and batches (R138, R148). -/
def TDesc.spans (t : TDesc) (kind : Nat) : Nat × Nat × Nat := if kind = 2 then (t.d1, t.d0, t.d2 * t.d3) else (t.d0, t.d1, t.d2 * t.d3)

/-- The tiles of a kind that a tensor of this shape is written in: each spans TILE_K values of K, or what there is of it (R138). -/
def TDesc.geo (t : TDesc) (kind : Nat) : TileGeo := tileGeo kind t.fmt (min t.tileK (t.spans kind).1) (min 64 (t.spans kind).2.1)

/-- Tiles of a tensor whose tiles span `span` rows: row-tiles and K-tiles (R138). `k` and `m` are the extents along K and across
it. -/
def tileCount (span k m batch tileK : Nat) : Nat := batch * ceilDiv m span * ceilDiv k tileK

/-- Bit offset of element (m, k) in the element plane of a tile of `cols` columns, and byte offset of its scale (R136). -/
def tileElem (geo : TileGeo) (fmt cols m k : Nat) : Nat × Nat :=
  if geo.kind = 3 then (m * geo.rowPitch * 8 + k * elemBits fmt, m * roundUp (ceilDiv cols 32) 64 + k / 32)
  else
    let g := groupOf fmt
    let r := tileRows geo.kind
    ((k / g * (r * g) + m * g + k % g) * elemBits fmt, k / g * r + m)

/-- Offset of the scales of a row of a linear MX tensor. In a view of several slots each slot has its scale plane in its
own buffer (R146, R261, R269; log 24). -/
def TDesc.scaleAt (t : TDesc) (i1 i2 i3 : Nat) : Nat :=
  if t.loc = 3 then t.splane + i3 * t.s3 + (i1 + t.d1 * i2) * ceilDiv t.d0 32
  else t.splane + (i1 + t.d1 * (i2 + t.d2 * i3)) * ceilDiv t.d0 32

/-- Footprint in bytes of an operand from its address. -/
def TDesc.extent (t : TDesc) (kind : Nat) : Nat :=
  if t.isEmpty then 0
  else if t.layout = 0 then
    let (k, m, b) := t.spans kind
    tileCount (tileRows kind) k m b t.tileK * (t.geo kind).units * 4096
  else
    let e := (t.d1 - 1) * t.s1 + (t.d2 - 1) * t.s2 + (t.d3 - 1) * t.s3 + rowBytes t.fmt t.d0
    if isMx t.fmt then max e (t.scaleAt (t.d1 - 1) (t.d2 - 1) (t.d3 - 1) + ceilDiv t.d0 32) else e

/-- A byte reader relative to the operand's address. -/
abbrev Reader := Nat → Byte

def readLe (rd : Reader) (off n : Nat) : Nat := leNat ((List.range n).map (fun i => rd (off + i)))

/-- `w` bits from a bit offset, least significant first (R96). -/
def readBits (rd : Reader) (bitOff w : Nat) : Nat := readLe rd (bitOff / 8) (ceilDiv (bitOff % 8 + w) 8) / 2 ^ (bitOff % 8) % 2 ^ w

/-- Where the planes of the tile at `base` lie, by its own header (R135). -/
def readGeo (kind : Nat) (rd : Reader) (base : Nat) : TileGeo :=
  ⟨kind, readLe rd 2 1, readLe rd (base + 12) 4, readLe rd (base + 16) 4, readLe rd (base + 20) 4⟩

/-- Rows that a tile spans: the panel's for A-tiles and B-tiles, those of the first header for V-tiles (R135, R138). -/
def tileSpan (kind : Nat) (rd : Reader) : Nat := if kind = 3 then max 1 (readLe rd 4 4) else tileRows kind

/-- Code and scale code of element (i0, i1, i2, i3); unscaled formats carry scale 7Fh (R103). -/
def TDesc.code (t : TDesc) (kind : Nat) (rd : Reader) (i0 i1 i2 i3 : Nat) : Nat × Nat :=
  if t.layout = 1 then
    let row := i1 * t.s1 + i2 * t.s2 + i3 * t.s3
    let c := readBits rd (row * 8 + i0 * elemBits t.fmt) (elemBits t.fmt)
    (c, if isMx t.fmt then (rd (t.scaleAt i1 i2 i3 + i0 / 32)).toNat else 127)
  else
    let (k, m) := if kind = 2 then (i1, i0) else (i0, i1)
    let (ke, me) := if kind = 2 then (t.d1, t.d0) else (t.d0, t.d1)
    let b := i2 + t.d2 * i3
    let span := tileSpan kind rd
    let tile := (b * ceilDiv me span + m / span) * ceilDiv ke t.tileK + k / t.tileK
    let base := tile * (readLe rd 2 1 * 4096)
    let geo := readGeo kind rd base
    let (eo, so) := tileElem geo t.fmt (min t.tileK (ke - k / t.tileK * t.tileK)) (m % span) (k % t.tileK)
    (readBits rd (base * 8 + geo.eplane * 8 + eo) (elemBits t.fmt), if isMx t.fmt then (rd (base + geo.splane + so)).toNat else 127)

/-- Element value with its block scale, exact. -/
def TDesc.value (t : TDesc) (kind : Nat) (rd : Reader) (i0 i1 i2 i3 : Nat) : Fv :=
  let (c, sc) := t.code kind rd i0 i1 i2 i3
  if isMx t.fmt then (elemValue t.fmt c).mul (scaleValue sc) else elemValue t.fmt c

/-- Widened to FP32 on load, under the ARITH of the operation where the scaled value lies outside FP32 range (R107). -/
def TDesc.load (t : TDesc) (ar : Arith) (kind : Nat) (rd : Reader) (i0 i1 i2 i3 : Nat) : Fv := (ar.to32 (t.value kind rd i0 i1 i2 i3)).1

/-- Pack codes of `w` bits from the least significant bit up (R96). -/
def packCodes (w : Nat) (cs : List Nat) : List Byte :=
  toLe (ceilDiv (w * cs.length) 8) ((cs.foldr (fun c a => c % 2 ^ w + 2 ^ w * a) 0))

def padTo (n : Nat) (xs : List Fv) : List Fv := xs ++ List.replicate (n - xs.length) Fv.zero

/-- Cut a list into pieces of `n`. -/
def chunksOf {α : Type} (n : Nat) : Nat → List α → List (List α)
  | 0, _ => []
  | k + 1, xs => if xs.isEmpty then [] else xs.take n :: chunksOf n k (xs.drop n)

/-- Encode one row: element bytes, scale bytes, summary bits. `first` is the index of its first element (R113). -/
def encodeRow (fmt : Nat) (ar : Arith) (first : Nat) (xs : List Fv) : List Byte × List Byte × Nat :=
  if isMx fmt then
    let bl := (chunksOf 32 (xs.length / 32 + 1) xs)
    let f := (List.range bl.length).map (fun j => mxForm fmt ar (first + 32 * j) (padTo 32 (bl.getD j [])))
    ((f.map (fun b => packCodes (elemBits fmt) b.2.1)).flatten, f.map (fun b => BitVec.ofNat 8 b.1), f.foldl (fun a b => a ||| b.2.2) 0)
  else match elemFmt fmt with
    | none => ([], [], 0)
    | some f =>
      let cs := (List.range xs.length).map (fun i => f.encode (ar.mode (first + i)) ar.sat (xs.getD i .zero))
      (packCodes (elemBits fmt) (cs.map (·.1)), [], cs.foldl (fun a c => a ||| c.2) 0)

/-- Header bytes of a tile (R135). -/
def tileHeader (geo : TileGeo) (fmt rows cols originRow originCol : Nat) : List Byte :=
  toLe 1 fmt ++ toLe 1 geo.kind ++ toLe 1 geo.units ++ toLe 1 0 ++ toLe 4 rows ++ toLe 4 cols ++ toLe 4 geo.eplane ++
  toLe 4 geo.splane ++ toLe 4 geo.rowPitch ++ toLe 4 originRow ++ toLe 4 originCol ++ zeros 32

/-- A tensor result row by row: offset in the operand, bytes; and the summary bits. `val` gives element values, `mine`
says which rows (linear) or tiles (tiled) the writing core owns (R147, R150). With `fill` the rows of an A-tile beyond ROWS are
written as +0 (R136); the tensor engine writes nothing there (R127, log 96). `onto` reads the tiles already there, whose
layout a result that accumulates keeps, headers and all (R138). -/
def TDesc.rowsOut (t : TDesc) (ar : Arith) (val : Nat → Nat → Nat → Nat → Fv) (mine : Nat → Bool) (fill : Bool := true)
    (onto : Option Reader := none) : List (Nat × List Byte) × Nat :=
  if t.layout = 1 then
    let rows := (List.range (t.d1 * t.d2 * t.d3)).filter mine
    let enc := rows.map (fun r =>
      let i1 := r % t.d1
      let i2 := r / t.d1 % t.d2
      let i3 := r / t.d1 / t.d2
      let (eb, sb, fl) := encodeRow t.fmt ar (r * t.d0) ((List.range t.d0).map (fun i0 => val i0 i1 i2 i3))
      ((i1 * t.s1 + i2 * t.s2 + i3 * t.s3, eb), (t.splane + r * ceilDiv t.d0 32, sb), fl))
    ((enc.map (fun e => [e.1, e.2.1])).flatten.filter (fun w => !w.2.isEmpty), enc.foldl (fun a e => a ||| e.2.2) 0)
  else
    let kind := tileKindOf t.fmt
    let mt := ceilDiv t.d1 64
    let nt := ceilDiv t.d0 32
    let nk := ceilDiv t.d0 t.tileK
    let g := groupOf t.fmt
    let (span, pitch) := match onto with
      | some rd => (tileSpan kind rd, readLe rd 2 1 * 4096)
      | none => (if kind = 3 then max 1 (min 64 t.d1) else 64, (t.geo kind).units * 4096)
    let baseOf : Nat → Nat → Nat → Nat := fun b y kt => ((b * ceilDiv t.d1 span + y / span) * nk + kt) * pitch
    let geoOf : Nat → TileGeo := fun base => match onto with
      | some rd => readGeo kind rd base
      | none => t.geo kind
    let colsOf : Nat → Nat := fun kt => min t.tileK (t.d0 - kt * t.tileK)
    let tiles := (List.range (t.d2 * t.d3 * mt * nt)).filter mine
    let enc := tiles.map (fun u =>
      let n := u % nt
      let m := u / nt % mt
      let b := u / nt / mt
      let i2 := b % t.d2
      let i3 := b / t.d2
      let valid := min 64 (t.d1 - 64 * m)
      let k0 := 32 * n
      let hdrs := if onto.isSome then [] else (((List.range (ceilDiv (min 32 (t.d0 - k0)) g)).map (fun j => (k0 + g * j) / t.tileK)).eraseDups).map (fun kt =>
        (baseOf b (64 * m) kt, tileHeader (t.geo kind) t.fmt valid (if kind = 3 then colsOf kt else roundUp (colsOf kt) g) (64 * m) (kt * t.tileK)))
      let body := (List.range (if fill && decide (kind = 1) then 64 else valid)).map (fun r =>
        let first := 32 * n + t.d0 * (64 * m + r + t.d1 * b)
        let xs := (List.range (min 32 (t.d0 - k0))).map (fun j => if r < valid then val (k0 + j) (64 * m + r) i2 i3 else .zero)
        let pieces := chunksOf g 3 (if kind = 3 then xs else padTo (roundUp xs.length g) xs)
        let parts := (List.range pieces.length).map (fun j =>
          let kt := (k0 + g * j) / t.tileK
          let base := baseOf b (64 * m + r) kt
          let geo := geoOf base
          let (eo, so) := tileElem geo t.fmt (colsOf kt) ((64 * m + r) % span) (k0 + g * j - kt * t.tileK)
          let (eb, sb, fl) := encodeRow t.fmt ar (first + g * j) (pieces.getD j [])
          ([(base + geo.eplane + eo / 8, eb)] ++ (if sb.isEmpty then [] else [(base + geo.splane + so, sb)]), fl))
        ((parts.map (·.1)).flatten, if r < valid then parts.foldl (fun a e => a ||| e.2) 0 else 0))
      (hdrs ++ (body.map (·.1)).flatten, body.foldl (fun a e => a ||| e.2) 0))
    ((enc.map (·.1)).flatten, enc.foldl (fun a e => a ||| e.2) 0)

/-- The header at the start of a tile that holds `mm` rows of `kk` values fits a format, and both its planes lie inside the
tile (R135, R136). -/
def tileOk (fmt kind units mm kk : Nat) (rd : Reader) : Bool :=
  let f : Nat → Nat → Nat := readLe rd
  let g := groupOf fmt
  let stored := roundUp kk g
  let elems := if kind = 3 then (mm - 1) * f 20 4 + rowBytes fmt kk else stored / g * (tileRows kind * g * elemBits fmt / 8)
  let scales := if kind = 3 then mm * roundUp (ceilDiv kk 32) 64 else stored / g * tileRows kind
  decide (f 0 1 = fmt ∧ f 1 1 = kind ∧ f 2 1 = units ∧ f 3 1 < 4) &&
  decide ((f 4 4, f 8 4) = (if kind = 1 then (mm, stored) else if kind = 2 then (stored, mm) else (mm, kk))) &&
  decide (64 ≤ f 12 4 ∧ f 12 4 % 64 = 0 ∧ f 12 4 + elems ≤ units * 4096 ∧ f 16 4 % 64 = 0) &&
  (if isMx fmt then decide (64 ≤ f 16 4 ∧ f 16 4 + scales ≤ units * 4096) else decide (f 16 4 = 0)) &&
  (if kind = 3 then decide (f 20 4 % 256 = 0 ∧ rowBytes fmt kk ≤ f 20 4) else decide (f 20 4 = 0))

/-- Tile headers agree with the descriptor (R153): the kinds allowed, and every tile's own header. -/
def TDesc.headersOk (t : TDesc) (kinds : List Nat) (rd : Reader) : Bool :=
  if t.layout = 1 ∨ t.isEmpty then true
  else
    let kind := readLe rd 1 1
    let units := readLe rd 2 1
    let span := tileSpan kind rd
    let (k, m, b) := t.spans kind
    kinds.contains kind && decide (1 ≤ units ∧ units ≤ 64) &&
      (List.range (tileCount span k m b t.tileK)).all (fun i =>
        let kt := i % ceilDiv k t.tileK
        let mt := i / ceilDiv k t.tileK % ceilDiv m span
        tileOk t.fmt kind units (min span (m - mt * span)) (min t.tileK (k - kt * t.tileK)) (fun o => rd (i * units * 4096 + o)))

/-- Extent of a tiled operand by its own headers (R138). -/
def TDesc.trueExtent (t : TDesc) (kind : Nat) (rd : Reader) : Nat :=
  if t.layout = 1 ∨ t.isEmpty then t.extent kind
  else
    let (k, m, b) := t.spans kind
    tileCount (tileSpan kind rd) k m b t.tileK * readLe rd 2 1 * 4096

/-- The kind of tile a source is held in: its first header's, or the one the layout implies. -/
def TDesc.kindOf (t : TDesc) (dflt : Nat) (rd : Reader) : Nat := if t.layout = 1 then dflt else readLe rd 1 1

end Sys2Proof.Machine
end

