-- ==== Sys2Proof/Machine/Errors.lean ====
section
/-! DEFINITION. Memory errors (R144, R160, R444 to R447, R456): counting, poisoning, the event and the fault-log entry,
and retiring tier-2 page frames. -/

namespace Sys2Proof.Machine

/-- Corrected and uncorrectable counts of a store kind (R457). -/
def ErrCounts.bump (c : ErrCounts) (st : Store) (bad : Bool) : ErrCounts :=
  let up : Nat × Nat → Nat × Nat := fun x => if bad then (x.1, sat32 (x.2 + 1)) else (sat32 (x.1 + 1), x.2)
  match st with
  | .core => { c with coreStore := up c.coreStore }
  | .region => { c with clusterStore := up c.clusterStore }
  | .tier2 => { c with memStacks := up c.memStacks }
  | .xd => { c with xdStore := up c.xdStore }
  | .host => { c with pcie := up c.pcie }
  | .ufs => c

/-- Home of a tier-2 page frame in use, and of a free one (R163). -/
def State.frameHome (s : State) (f : Nat) : Nat :=
  match (s.tiers.pages.map (fun kv => kv.2.find? (fun x => decide (x.2.frame = f)))).find? Option.isSome with
  | some (some x) => x.2.home
  | _ => match (s.kv.seqs.map (fun kv => kv.2.pages.find? (fun x => decide (x.2.frame = f) && decide (x.2.state ≠ 2)))).find? Option.isSome with
    | some (some x) => x.2.home
    | _ => 0

/-- Stack that holds a tier-2 byte: block b of frame f lies on L[(b + f) mod n] (R163). -/
def State.stackOf (s : State) (key : Nat) : Nat :=
  let l := homeStacks s.order (s.frameHome (key / 65536))
  l.getD ((key % 65536 / 4096 + key / 65536) % max 1 l.length) 0

/-- Unit of a store that a key lies in: core, cluster, I/O die or stack. -/
def State.unitOf (s : State) (st : Store) (key : Nat) : Nat :=
  match st with
  | .core => key / 2097152
  | .region => match s.tiers.regions.get? (key / 16777216) with
    | some r => r.cluster
    | none => 0
  | .tier2 => s.stackOf key
  | .xd => key / 4294967296 / 48
  | _ => 0

/-- SOURCE of an error: the stack, the core of a core store, or a code for another store (log 19). -/
def State.errSource (s : State) (st : Store) (key : Nat) : Nat :=
  match st with
  | .tier2 => s.stackOf key
  | .core => s.unitOf st key
  | .region => Sys2Proof.Config.storeSource 1 (s.unitOf st key)
  | .xd => Sys2Proof.Config.storeSource 2 (s.unitOf st key)
  | _ => Sys2Proof.Config.storeSource 3 0

def storeNo : Store → Nat
  | .core => 0
  | .region => 1
  | .tier2 => 2
  | .xd => 3
  | .host => 4
  | .ufs => 5

/-- Address that an error is reported with: the offset in a core store, the 4 KiB block in tier 2 (R160); what the others
show is not given (log 19). -/
def errAddress (st : Store) (key : Nat) : Nat :=
  match st with
  | .core => key % 2097152
  | .tier2 => key / 4096 * 4096
  | _ => Sys2Proof.Config.errorAddress (storeNo st) key

/-- Context of the partition that holds a core. -/
def State.ctxOfCore (s : State) (core : Nat) : Option Nat :=
  (s.sched.partitions.find? (fun kv => kv.2.positions.contains (some core))).map (fun kv => kv.2.ctx)

/-- Context that an error concerns (R64): of the core's partition, the region, or the page frame's owner. -/
def State.ctxOfStore (s : State) (st : Store) (key : Nat) : Option Nat :=
  match st with
  | .core => s.ctxOfCore (key / 2097152)
  | .region => (s.tiers.regions.get? (key / 16777216)).map (·.ctx)
  | .tier2 =>
    match s.tiers.pages.find? (fun kv => kv.2.any (fun x => decide (x.2.frame = key / 65536))) with
    | some kv => some kv.1
    | none => (s.kv.seqs.find? (fun kv => kv.2.pages.any (fun x => decide (x.2.frame = key / 65536) && decide (x.2.state ≠ 2)))).map (fun kv => kv.2.ctx)
  | _ => none

/-! ### The summary of the fault log (R453, R458) -/

/-- The summary as it stands now, to be written with a count: frames that are to be retired once they are freed stand in it
already, so that none is allocated after a reset (R447). -/
def Rel.summary (r : Rel) (count : Nat) : Summary :=
  ⟨count, r.fenceList, r.retireOnFree.foldl (fun (t : Tab (List Nat)) x =>
    if ((t.get? x.1).getD []).contains x.2 then t else t.set x.1 ((t.get? x.1).getD [] ++ [x.2])) r.retired, r.bootCount, r.lastTrip, r.unlocked⟩

def countOf : Option Summary → Nat
  | some x => x.count
  | none => 0

/-- The newer copy. -/
def Rel.newest (r : Rel) : Option Summary := if countOf r.summaryA < countOf r.summaryB then r.summaryB else r.summaryA

/-- The older copy is written, with the next count (R458). -/
def Rel.write (r : Rel) : Rel :=
  let x := r.summary (max (countOf r.summaryA) (countOf r.summaryB) + 1)
  if countOf r.summaryA < countOf r.summaryB then { r with summaryA := some x, summaryDue := false }
  else { r with summaryB := some x, summaryDue := false }

/-- The summary has changed: SEC writes it, or does so when it runs again (R453, R458). -/
def State.writeSummary (s : State) : State :=
  { s with rel := if s.fw.powered && !s.procDown 0 then s.rel.write else { s.rel with summaryDue := true } }

/-! ### Page frames (R447) -/

/-- Frames held by an owner: address spaces, sequences, models. -/
def State.framesUsed (s : State) : List (Nat × Nat) :=
  (s.tiers.pages.map (fun kv => kv.2.map (fun x => (x.2.frame, x.2.home)))).flatten ++
  (s.kv.seqs.map (fun kv => (kv.2.pages.filter (fun x => decide (x.2.state ≠ 2))).map (fun x => (x.2.frame, x.2.home)))).flatten

def State.frameHeld (s : State) (f : Nat) : Bool := s.framesUsed.any (fun x => decide (x.1 = f))

def State.retiredOf (s : State) (stack : Nat) : List Nat := (s.rel.retired.get? stack).getD []

/-- Retire a frame no owner holds: at most 1,024 a stack, each logged (R447, R458). -/
def State.retireFrame (s : State) (stack f : Nat) : State :=
  let l := s.retiredOf stack
  if l.contains f ∨ 1024 ≤ l.length then s
  else (State.writeSummary { s with rel := { s.rel with retired := s.rel.retired.set stack (l ++ [f]) } }).logFault 6 stack f

/-- A frame that Hearth is to retire: now, or when its owner frees it (R447). -/
def State.condemn (s : State) (stack f : Nat) : State :=
  if s.frameHeld f then
    (if s.rel.retireOnFree.contains (stack, f) then s
     else State.writeSummary { s with rel := { s.rel with retireOnFree := s.rel.retireOnFree ++ [(stack, f)] } })
  else s.retireFrame stack f

/-- No further frame of a stack can be retired. -/
def State.retireFull (s : State) (stack f : Nat) : Bool := decide (1024 ≤ (s.retiredOf stack).length) && !(s.retiredOf stack).contains f

/-- A corrected error of a frame: the fourth within 24 hours condemns it; past 1,024 retired frames it is logged instead (R447).
DESIGN CHOICE: that entry has code 0005h, the one of an error in a stack (log 106). -/
def State.frameCorrects (s : State) (stack f : Nat) : State :=
  let day := 86400000000000
  let l := (s.rel.frameCorrected.filter (fun x => decide (s.clock.now < x.2.2 + day))) ++ [(stack, f, s.clock.now)]
  let s := { s with rel := { s.rel with frameCorrected := l } }
  if 4 ≤ (l.filter (fun x => decide (x.1 = stack ∧ x.2.1 = f))).length then
    (if s.retireFull stack f then s.logFault 5 stack (f * 65536) else s.condemn stack f)
  else s

/-! ### Errors -/

/-- A corrected error in a store (R445). -/
def State.corrected (s : State) (st : Store) (key : Nat) : State :=
  let s := s.count (fun c => c.bump st false)
  match st with
  | .tier2 => s.frameCorrects (s.stackOf key) (key / 65536)
  | .core =>
    let l := s.rel.coreCorrected.filter (fun x => decide (s.clock.now < x.2 + 86400000000000))
    { s with rel := { s.rel with coreCorrected := l ++ [(key / 2097152, s.clock.now)] } }
  | _ => s

/-- An uncorrectable error in a store: counted, the line poisoned, one event a frame and line, a fault-log entry, and a
tier-2 frame condemned (R444 to R447, R456). -/
def State.uncorrectable (s : State) (st : Store) (key : Nat) : State :=
  let line := (storeNo st, key / 64)
  let src := s.errSource st key
  let posted := s.rel.postedLines.contains line
  let s := s.count (fun c => c.bump st true)
  let s := { s with stores := { s.stores with poison := if s.stores.poison.contains (st, key / 64) then s.stores.poison else s.stores.poison ++ [(st, key / 64)] },
                    rel := { s.rel with postedLines := if posted then s.rel.postedLines else s.rel.postedLines ++ [line] } }
  let s := if posted then s else s.post ⟨0x42, 4, 3, s.ctxOfStore st key, src, errAddress st key⟩
  let s := s.logFault 5 src (errAddress st key)
  match st with
  | .tier2 => s.condemn (s.stackOf key) (key / 65536)
  | .core =>
    let l := s.rel.bankErrors.filter (fun x => decide (s.clock.now < x.2.2 + 1000000000))
    { s with rel := { s.rel with bankErrors := l ++ [(key / 2097152, key / 64 % 16, s.clock.now)] } }
  | _ => s

/-- A read of a line that is already poisoned counts again (R446, R456). -/
def State.reread (s : State) (hit : Option (Store × Nat)) : State := match hit with
  | some x => s.uncorrectable x.1 x.2
  | none => s

/-- A tier-2 burst whose CRC failed came right on a retry: it is counted (R160, R457). -/
def State.retried (s : State) : State := s.count (fun c => { c with stackRetries := sat32 (c.stackRetries + 1) })

/-- Both retries of a tier-2 burst failed: nothing more is tried, and the block is reported (R160). -/
def State.burstLost (s : State) (key : Nat) : State := s.retried.retried.uncorrectable .tier2 key

/-- Flits on a link inside the package were replayed (R444, R457). -/
def State.replayed (s : State) (n : Nat) : State := s.count (fun c => { c with linkReplays := sat32 (c.linkReplays + n) })

/-- A transfer on a host link failed: contained, so it is counted, posted and logged; its SOURCE code and address are not given
(R444, R445; log 19). -/
def State.linkLost (s : State) (ctx : Option Nat) (addr : Nat) : State :=
  let src := Sys2Proof.Config.storeSource 3 0
  let s := s.count (fun c => c.bump .host true)
  (s.post ⟨0x42, 4, 3, ctx, src, errAddress .host addr⟩).logFault 5 src (errAddress .host addr)

/-- What an access met: the state after it and whether its operation is lost. -/
def State.met (s : State) (st : Store) (key : Nat → Nat) (m : Sys2Proof.MemOutcome) : State × Bool :=
  match m with
  | .clean => (s, false)
  | .corrected => (s.corrected st (key 0), false)
  | .retried => (if st = .tier2 then s.retried else s, false)
  | .replayed n => (s.replayed n, false)
  | .uncorrectable a => (s.uncorrectable st (key a), true)
  | .writeFailed a => if st = .tier2 then (s.burstLost (key a), true) else (s, false)
  | .jobStore => (s, false)
  | .codebook => (s, false)

/-- What an access met was put right: the completion shows it (R74, R445). -/
def memFixed (m : Sys2Proof.MemOutcome) : Bool := match m with
  | .corrected => true
  | .retried => true
  | .replayed n => decide (0 < n)
  | _ => false

end Sys2Proof.Machine
end

