-- ==== Sys2Proof/Machine/Walkers.lean ====
section
/-! DEFINITION. Address walkers: the 80 bytes of a walker descriptor (R132), the walk it makes (R133), and the walkers an
operand in linear layout takes (R134, R146). -/

namespace Sys2Proof.Machine

/-! ### The descriptor (R132) -/

def WalkDim.encode (d : WalkDim) : List Byte :=
  toLe 2 d.count ++ toLe 2 (toBits 16 d.ystep) ++ toLe 2 (toBits 16 d.xstep) ++ zeros 2 ++ toLe 4 (toBits 32 d.stride)

def Walker.encode (w : Walker) : List Byte :=
  toLe 8 w.base ++ toLe 2 (toBits 16 w.y0) ++ toLe 2 (toBits 16 w.x0) ++ toLe 2 w.ylim ++ toLe 2 w.xlim ++ toLe 1 w.run ++
  toLe 1 w.pad ++ zeros 2 ++ (w.dims.map WalkDim.encode).flatten

def WalkDim.of (bs : List Byte) (at_ : Nat) : WalkDim :=
  ⟨fieldAt bs at_ 2, signedOf 16 (fieldAt bs (at_ + 2) 2), signedOf 16 (fieldAt bs (at_ + 4) 2), signedOf 32 (fieldAt bs (at_ + 8) 4)⟩

def Walker.of (bs : List Byte) : Walker :=
  { base := fieldAt bs 0 8, y0 := signedOf 16 (fieldAt bs 8 2), x0 := signedOf 16 (fieldAt bs 10 2), ylim := fieldAt bs 12 2, xlim := fieldAt bs 14 2,
    run := fieldAt bs 16 1, pad := fieldAt bs 17 1, dims := (List.range 5).map (fun d => WalkDim.of bs (20 + 12 * d)) }

/-- Every field fits its bytes, and the reserved bits are zero. -/
def Walker.ok (w : Walker) : Bool :=
  decide (w.base < 2 ^ 64 ∧ w.ylim < 65536 ∧ w.xlim < 65536 ∧ w.run < 64 ∧ w.pad < 4 ∧ w.dims.length = 5) &&
  decide (-32768 ≤ w.y0 ∧ w.y0 < 32768 ∧ -32768 ≤ w.x0 ∧ w.x0 < 32768) &&
  w.dims.all (fun d => decide (d.count < 65536 ∧ -32768 ≤ d.ystep ∧ d.ystep < 32768 ∧ -32768 ≤ d.xstep ∧ d.xstep < 32768 ∧
    -(2 ^ 31) ≤ d.stride ∧ d.stride < 2 ^ 31))

/-! ### The walk (R133) -/

/-- What a walker computes at one visit: address, Y and X. -/
structure Visit where
  addr : Int
  y : Int
  x : Int
deriving DecidableEq, Repr

/-- The indices of a walk in the order of the visits: i0 varies fastest. -/
def walkIndices : List WalkDim → List (List Nat)
  | [] => [[]]
  | d :: r => ((walkIndices r).map (fun t => (List.range d.count).map (fun i => i :: t))).flatten

def Walker.at_ (w : Walker) (is : List Nat) : Visit :=
  let sum : (WalkDim → Int) → Int := fun f => ((List.range w.dims.length).map (fun d => (is.getD d 0 : Int) * f (w.dims.getD d ⟨0, 0, 0, 0⟩))).sum
  ⟨(w.base : Int) + sum WalkDim.stride, w.y0 + sum WalkDim.ystep, w.x0 + sum WalkDim.xstep⟩

def Walker.walk (w : Walker) : List Visit := (walkIndices w.dims).map w.at_

/-- Accesses of a walk; none when a COUNT is zero (R133). -/
def Walker.accesses (w : Walker) : Nat := (w.dims.map WalkDim.count).foldl (· * ·) 1

/-- A visit reads its address, or leaves it to the pad logic: out of bounds with PAD not 00b (R133). -/
def Walker.inBounds (w : Walker) (v : Visit) : Bool :=
  decide (w.pad = 0) || decide (0 ≤ v.y ∧ v.y < w.ylim ∧ 0 ≤ v.x ∧ v.x < w.xlim)

/-- The addresses a walk accesses, in order. -/
def Walker.addresses (w : Walker) : List Nat := ((w.walk.filter w.inBounds).map (fun v => v.addr.toNat))

/-- Bytes one walk transfers: its accesses of RUN + 1 bytes each (R133, R139). -/
def Walker.bytes (w : Walker) : Nat := w.accesses * (w.run + 1)

/-! ### The walkers of an operand -/

/-- Bytes of an access that divide a row: the most there are, up to 64. -/
def runOf (n : Nat) : Nat := (((List.range 64).map (64 - ·)).find? (fun r => decide (n % r = 0))).getD 1

/-- One dimension not walked. -/
def WalkDim.once : WalkDim := ⟨1, 0, 0, 0⟩

def WalkDim.along (count : Nat) (stride : Int) : WalkDim := ⟨min count 65535, 0, 0, stride⟩

/-- The walker that runs over `n` bytes at an address (log 97). -/
def Walker.block (base n : Nat) : Walker :=
  ⟨base, 0, 0, 0, 0, runOf n - 1, 0, [.along (n / runOf n) (runOf n), .once, .once, .once, .once]⟩

/-- The walker of an operand in linear layout: accesses along DIM0, then DIM1 to DIM3 by their strides. DESIGN CHOICE: the
spec leaves to the CCC how it sets a walker; of a dimension above the COUNT limit this is the first walk (R153, log 97). -/
def TDesc.walker (t : TDesc) : Walker :=
  let n := rowBytes t.fmt t.d0
  ⟨t.addr, 0, 0, 0, 0, runOf n - 1, 0, [.along (n / runOf n) (runOf n), .along t.d1 t.s1, .along t.d2 t.s2, .along t.d3 t.s3, .once]⟩

/-- Walkers an operand takes on each participating core: one in linear layout (R146). -/
def TDesc.walkers (t : TDesc) : List Walker := if t.layout = 1 then [t.walker] else []

end Sys2Proof.Machine
end

