-- ==== Sys2Proof/Machine/Placement.lean ====
section
/-! DEFINITION. Operations on cores: partitions' core sets (R338), operands resolved to the stores (R146, R153, R154,
R269), placement into slots and descriptor rings (R139 to R143), and taking work away (R73, R144). -/

namespace Sys2Proof.Machine

/-! ### Core sets -/

def Partition.coreAt (q : Partition) (i : Nat) : Option Nat := (q.positions[i]?).join

/-- In-service cores; a vacant position is not one (R455). -/
def Partition.inService (q : Partition) : Nat := (q.positions.filter Option.isSome).length

/-- Clusters that hold cores of the partition, ascending (R175). -/
def Partition.clusters (q : Partition) : List Nat :=
  (List.range 8).filter (fun k => q.positions.any (fun c => match c with
    | some n => decide (n / 256 = k)
    | none => false))

def Partition.position? (q : Partition) (core : Nat) : Option Nat := q.positions.findIdx? (fun c => decide (c = some core))

/-- Active slot mask of a partition (R168). -/
def State.slotMask (s : State) (p : Nat) : Nat := s.activeWord 1 p 0x10 + 2 ^ 32 * s.activeWord 1 p 0x11

/-- A class 0 partition without slots has no tier-2 access (R168). -/
def State.t2Refused (s : State) (p : Nat) (q : Partition) : Bool := decide (q.cls = 0) && decide (s.slotMask p = 0)

/-- Participating cores from position `first`; none of them vacant (R455). -/
def Partition.span (q : Partition) (first n : Nat) : List (Option Nat) := (q.positions.drop first).take n

def coreKey (core off : Nat) : Nat := core * 2097152 + off
def regionKey (h off : Nat) : Nat := h * 16777216 + off
def xdKey (slot off : Nat) : Nat := slot * 4294967296 + off

/-! ### Views of sensor samples (R266, R269) -/

def insertNewest (b : Nat × Buf) : List (Nat × Buf) → List (Nat × Buf)
  | [] => [b]
  | x :: r => if x.2.order < b.2.order then b :: x :: r else x :: insertNewest b r

/-- READY buffers of a slot with their indices, newest first. -/
def SlotState.ready (t : SlotState) : List (Nat × Buf) :=
  ((List.range t.bufs.length).zip t.bufs |>.filter (fun b => decide (b.2.state = 2))).foldl (fun l b => insertNewest b l) []

/-- The buffer a view names: status when there is none (R269), or when the part has no such slot (R3). -/
def State.view (s : State) (ctx h : Nat) : Except Nat (Nat × Nat) :=
  let slot := bits h 14 8
  if slotCount s.order ≤ slot then .error St.badParam
  else match s.ingest.slots.get? slot with
  | none => .error St.notFound
  | some t =>
    if t.cfg.iface = 0 then .error St.notFound
    else if t.cfg.readCtx ≠ ctx ∧ t.cfg.readCtx ≠ 0xFFFF then .error St.notPermitted
    else match t.ready[h % 256]? with
      | none => .error St.notFound
      | some b => .ok (slot, b.1)

/-- Byte `off` of buffer `b` of a slot, in the I/O-die store or in the tier-2 ring. -/
def State.bufByte (s : State) (slot b off : Nat) : Byte :=
  match s.ingest.slots.get? slot with
  | none => 0
  | some t =>
    let o := b * t.cfg.bufBytes + off
    if t.cfg.place = 0 then s.stores.xd.read (xdKey slot o)
    else match s.phys? t.cfg.ringCtx (t.cfg.ringAddr + o) with
      | some k => s.stores.tier2.read k
      | none => 0

/-! ### Operands (R141, R146, R153) -/

/-- A resolved operand: how each core reads it, the buffers it holds, and the window bytes it reads. -/
structure Operand where
  desc : TDesc
  read : Nat → Reader
  holds : List (Nat × Nat)

/-- The plan area of a lattice held in a region (R329). -/
def State.planOf (s : State) (h : Nat) : Option Lattice := (s.apps.lattices.find? (fun kv => decide (kv.2.region = h))).map (·.2)

/-- Bytes of the plan area, from offset 0 of its region (R327). -/
def Lattice.planBytes (l : Lattice) : Nat := 4096 + 3 * (ceilDiv (l.maxSamples * 128) 4096 * 4096)

/-- The context may read `n` bytes of the region from an offset: its own region, or a plan area open to it (R141, R329). -/
def State.regionRead (s : State) (ctx h off n : Nat) : Except Nat Region :=
  match s.tiers.regions.get? h with
  | none => .error St.notFound
  | some r =>
    if r.window ∨ r.freeing.isSome then .error St.notFound
    else if r.ctx = ctx then .ok r
    else match s.planOf h with
      | some l => if (l.readCtx = ctx ∨ l.readCtx = 0xFFFF) ∧ off + n ≤ l.planBytes then .ok r else .error St.notPermitted
      | none => .error St.notPermitted

/-- `n` bytes of a region from an offset meet its plan area (R329). -/
def State.meetsPlan (s : State) (h off n : Nat) : Bool := match s.planOf h with
  | some l => decide (off < l.planBytes ∧ n ≠ 0)
  | none => false

/-- The context may write `n` bytes of the region from an offset by a compute destination or a Tongs PUT (R158, R329). -/
def State.regionWrite (s : State) (ctx h off n : Nat) : Except Nat Region :=
  match s.regionRead ctx h off n with
  | .error e => .error e
  | .ok r => if r.ctx ≠ ctx ∨ r.weight ∨ s.meetsPlan h off n then .error St.notPermitted else .ok r

/-- An allocation being freed is named by no new operation. -/
def State.t2Freeing (s : State) (ctx addr n : Nat) : Bool :=
  s.tiers.allocs.any (fun a => decide (a.ctx = ctx) && a.freeing.isSome && decide (addr < (a.base + a.pages) * 65536 ∧ a.base * 65536 < addr + n))

/-- The range touches a page of an EVICTED model (R356). -/
def State.t2Evicted (s : State) (ctx addr n : Nat) : Bool :=
  decide (n ≠ 0) && s.sched.models.any (fun kv => decide (kv.2.ctx = ctx ∧ kv.2.state = 2) &&
    decide (addr < kv.2.base * 65536 + kv.2.bytes ∧ kv.2.base * 65536 < addr + n))

/-- Alignment of an operand at its location (R125): tiles at 4 KiB, linear tensors at 64 bytes, in the core store. -/
def TDesc.aligned (t : TDesc) : Bool :=
  if t.loc ≠ 0 then true else if t.layout = 0 then decide (t.off % 4096 = 0) else decide (t.off % 64 = 0)

/-- Buffers of a view with DIM3 slots (R269). A slot that the part has not is BAD_PARAM before anything else (R3). -/
def State.views (s : State) (ctx : Nat) (t : TDesc) : Except Nat (List (Nat × Nat)) :=
  let h := t.handle
  let n := max 1 t.d3
  if h < 0x8000 then .error St.notFound
  else if slotCount s.order < bits h 14 8 + n then .error St.badParam
  else
    let hs := (List.range n).map (fun i => s.view ctx (h + 256 * i))
    let good := hs.filterMap (fun x => match x with
      | .ok b => some b
      | .error _ => none)
    match hs.find? (fun x => match x with
      | .error _ => true
      | .ok _ => false) with
    | some (.error e) => .error e
    | _ =>
      match good.head?.bind (fun b => s.ingest.slots.get? b.1) with
      | none => .error St.notFound
      | some t0 =>
        let same := good.all (fun b => match s.ingest.slots.get? b.1 with
          | some x => decide (x.cfg.iface = t0.cfg.iface ∧ x.cfg.fmt = t0.cfg.fmt ∧ x.cfg.w = t0.cfg.w ∧ x.cfg.h = t0.cfg.h ∧
              x.cfg.bufBytes = t0.cfg.bufBytes) && decide (b.1 / 48 = (good.headD (0, 0)).1 / 48)
          | none => false)
        if !same then .error St.badParam
        else if 1 < t.d3 ∧ t.s3 ≠ t0.cfg.bufBytes then .error St.badParam
        else .ok good

/-- The buffers that a view's operand names now, as slot and buffer. -/
def State.viewBufs (s : State) (t : TDesc) : List (Nat × Nat) :=
  (List.range (max 1 t.d3)).filterMap (fun i => let slot := bits t.handle 14 8 + i
    ((s.ingest.slots.get? slot).bind (fun x => x.ready[t.handle % 256]?)).map (fun b => (slot, b.1)))

/-- Resolve a source of `n` bytes for a context on its partition. -/
def State.source (s : State) (ctx p : Nat) (q : Partition) (t : TDesc) (n : Nat) : Except Nat Operand :=
  if !t.aligned then .error St.badParam
  else if t.loc = 0 then
    if t.off + n ≤ 2097152 then .ok ⟨t, fun core i => s.stores.core.read (coreKey core (t.off + i)), []⟩ else .error St.badParam
  else if t.loc = 1 then
    match s.regionRead ctx t.handle t.off n with
    | .error e => .error e
    | .ok r => if t.off + n ≤ r.size then .ok ⟨t, fun _ i => s.stores.region.read (regionKey t.handle (t.off + i)), []⟩
               else .error St.badParam
  else if t.loc = 2 then
    if s.t2Refused p q then .error St.notPermitted
    else if s.t2Freeing ctx t.off n || s.t2Evicted ctx t.off n then .error St.notFound
    else if s.t2Mapped ctx t.off n then
      .ok ⟨t, fun _ i => match s.phys? ctx (t.off + i) with
        | some k => s.stores.tier2.read k
        | none => 0, []⟩
    else .error St.badParam
  else
    match s.views ctx t with
    | .error e => .error e
    | .ok vs =>
      let bytes := match vs.head?.bind (fun b => s.ingest.slots.get? b.1) with
        | some x => x.cfg.bufBytes
        | none => 1
      let tier2 := match vs.head?.bind (fun b => s.ingest.slots.get? b.1) with
        | some x => decide (x.cfg.place = 1)
        | none => false
      if t.off + n ≤ bytes * vs.length then
        if tier2 && s.t2Refused p q then .error St.notPermitted
        else .ok ⟨t, fun _ i => match vs[(t.off + i) / bytes]? with
          | some b => s.bufByte b.1 b.2 ((t.off + i) % bytes)
          | none => 0, vs⟩
      else .error St.badParam

/-- A destination of `n` bytes may be written (R141, R158, R161, R264); its tiles are of at most 256 KiB (R136), where the
operation itself makes them (`made`) and does not copy those of its source. -/
def State.destOk (s : State) (ctx p : Nat) (q : Partition) (t : TDesc) (n : Nat) (made : Bool := true) : Option Nat :=
  if !t.aligned || (made && decide (t.layout = 0) && decide (64 < (t.geo (tileKindOf t.fmt)).units)) then some St.badParam
  else if t.loc = 0 then (if t.off + n ≤ 2097152 then none else some St.badParam)
  else if t.loc = 1 then
    match s.regionWrite ctx t.handle t.off n with
    | .error e => some e
    | .ok r => if t.off + n ≤ r.size then none else some St.badParam
  else if t.loc = 2 then
    if s.t2Refused p q then some St.notPermitted
    else if s.t2Freeing ctx t.off n then some St.notFound
    else if !s.t2Mapped ctx t.off n then some St.badParam
    else if !s.t2Writable ctx t.off n then some St.notPermitted
    else none
  else some St.badParam

/-- Bytes at an offset of a destination, as writes to its store. -/
def State.destWr (s : State) (ctx core : Nat) (t : TDesc) (off : Nat) (bs : List Byte) : List Wr :=
  if t.loc = 0 then [⟨.core, coreKey core (t.off + off), bs⟩]
  else if t.loc = 1 then [⟨.region, regionKey t.handle (t.off + off), bs⟩]
  else s.t2Wr ctx (t.off + off) bs

/-- A source or destination at a fixed place of a context, for the operands that are one linear block. -/
def State.readAt (s : State) (ctx core : Nat) (t : TDesc) (n : Nat) : List Byte :=
  (List.range n).map (fun i =>
    if t.loc = 0 then s.stores.core.read (coreKey core (t.off + i))
    else if t.loc = 1 then s.stores.region.read (regionKey t.handle (t.off + i))
    else match s.phys? ctx (t.off + i) with
      | some k => s.stores.tier2.read k
      | none => 0)

/-- The 64-byte line at `a` meets the `n` bytes from `first`. -/
def lineIn (a first n : Nat) : Bool := decide (n ≠ 0 ∧ a < first + n ∧ first < a + 64)

/-- The line at physical tier-2 address `a` meets `n` bytes of a context's tier 2. -/
def State.lineInT2 (s : State) (ctx addr n a : Nat) : Bool :=
  (pageSpan addr n).any (fun v => match s.page? ctx v with
    | some g => decide (a / 65536 = g.frame) && decide (v * 65536 + a % 65536 < addr + n ∧ addr < v * 65536 + a % 65536 + 64)
    | none => false)

/-- The parts of a view that `n` bytes of an operand from byte `at_` of it cover: slot, first byte in its buffers, bytes (R269). -/
def State.viewParts (s : State) (t : TDesc) (at_ n : Nat) : List (Nat × Nat × Nat) :=
  let vs := s.viewBufs t
  (List.range vs.length).filterMap (fun i => match vs[i]? with
    | none => none
    | some b =>
      let size := match s.ingest.slots.get? b.1 with
        | some x => x.cfg.bufBytes
        | none => 0
      let lo := max at_ (i * size) - i * size
      let hi := min (at_ + n) ((i + 1) * size) - i * size
      if hi ≤ lo then none else some (b.1, b.2 * size + lo, hi - lo))

/-- The view's samples lie in a tier-2 ring: its context and address (R264, R269). -/
def State.viewRing (s : State) (slot : Nat) : Option (Nat × Nat) :=
  match s.ingest.slots.get? slot with
  | some x => if x.cfg.place = 1 then some (x.cfg.ringCtx, x.cfg.ringAddr) else none
  | none => none

/-- The first line of a resolved operand that holds an uncorrectable error (R144, R446). -/
def State.poisonHit (s : State) (ctx core : Nat) (t : TDesc) (n : Nat) : Option (Store × Nat) :=
  if s.stores.poison = [] then none
  else
  let parts := if t.loc = 3 then s.viewParts t t.off n else []
  (s.stores.poison.find? (fun x =>
    let a := x.2 * 64
    match x.1 with
    | .core => decide (t.loc = 0) && lineIn a (coreKey core t.off) n
    | .region => decide (t.loc = 1) && lineIn a (regionKey t.handle t.off) n
    | .tier2 => (decide (t.loc = 2) && s.lineInT2 ctx t.off n a) || parts.any (fun b => match s.viewRing b.1 with
      | some r => s.lineInT2 r.1 (r.2 + b.2.1) b.2.2 a
      | none => false)
    | .xd => parts.any (fun b => (s.viewRing b.1).isNone && lineIn a (xdKey b.1 b.2.1) b.2.2)
    | _ => false)).map (fun x => (x.1, x.2 * 64))

/-- The first poisoned line that some core of an operation reads, of its operands with their lengths. -/
def State.poisonOf (s : State) (ctx : Nat) (cores : List Nat) (l : List (TDesc × Nat)) : Option (Store × Nat) :=
  cores.findSome? (fun c => l.findSome? (fun x => s.poisonHit ctx c x.1 x.2))

/-- `n` bytes of a window from an offset hold a unit that is not READY (R178). -/
def BellowsPos.lacks (b : BellowsPos) (h off n : Nat) : Bool :=
  decide (b.window = h ∧ n ≠ 0) &&
    !((List.range (ceilDiv (off + n) 4096 - off / 4096)).all (fun i =>
      let u := off / 4096 + i
      b.tiles.any (fun w => w.ready && decide (w.dst ≤ u * 4096 ∧ u * 4096 < w.dst + w.bytes))))

/-- A read of a region waits: it meets a unit of a Bellows window that is not READY (R178). -/
def State.windowLacks (s : State) (h off n : Nat) : Bool :=
  s.tiers.bellows.any (fun kv => kv.2.positions.any (fun b => b.lacks h off n)) || s.tiers.stopped.any (fun b => b.lacks h off n)

/-- Bellows windows read by an operand: the part of each window that is not READY makes the read wait (R178). -/
def State.windowWaits (s : State) (t : TDesc) (n : Nat) : Bool := decide (t.loc = 1) && s.windowLacks t.handle t.off n

/-- Bytes of a window that a read of an operand needs: of a tiled one the first header, and by that header the rest (R138, R178). -/
def State.windowSpan (s : State) (t : TDesc) : Nat :=
  let rd : Reader := fun i => s.stores.region.read (regionKey t.handle (t.off + i))
  if t.layout = 1 ∨ t.isEmpty then t.extent 1 else if s.windowLacks t.handle t.off 64 then 64 else t.trueExtent (t.kindOf 1 rd) rd

/-- The read waits on a window whose stream BELLOWS_STOP has ended: it ends with ABORTED (R177). -/
def State.windowStopped (s : State) (t : TDesc) (n : Nat) : Bool := decide (t.loc = 1) && s.tiers.stopped.any (fun b => b.lacks t.handle t.off n)

/-! ### Placement (R85, R139 to R143) -/

def State.core (s : State) (c : Nat) : Core := (s.cores.get? c).getD Core.idle

def State.setCore (s : State) (c : Nat) (v : Core) : State :=
  { s with cores := if v = Core.idle then s.cores.erase c else s.cores.set c v }

/-- An operation as it is placed: not issued, and without writes yet. -/
def opSlot (o : Owner) (e : Sys2Proof.Engine) (walkers : List Walker) (cycles : Nat) (ranges : List (Nat × Nat × Bool)) (part : Nat) : OpSlot :=
  { owner := o, engine := some e, walkers := walkers, issued := false, cycles := cycles, ranges := ranges, part := part, tag := 0 }

/-- Into a slot, or held by the CCC while all eight are taken (R85). -/
def Core.place (c : Core) (o : OpSlot) : Core :=
  if c.slots.length < 8 && c.held.isEmpty then { c with slots := c.slots ++ [o] } else { c with held := c.held ++ [o] }

/-- Into the ring, or fed later while its 64 places are taken (R85). -/
def Core.queueDesc (c : Core) (d : Desc) : Core :=
  if c.ring.length < 64 && c.feed.isEmpty then { c with ring := c.ring ++ [d] } else { c with feed := c.feed ++ [d] }

/-- Slots without the MOVEs of Tongs whose descriptors have all retired (R142). -/
def Core.slotsKept (c : Core) : List OpSlot :=
  c.slots.filter (fun x => x.engine.isSome || (c.ring ++ c.feed).any (fun d => decide (d.owner = x.owner ∧ d.tag = x.tag)))

/-- The walkers still held: those of operations that are in their slots, and of a GATHER or SCATTER in progress (R134). -/
def Core.walkersKept (c : Core) : List (Option (Option Sys2Proof.Engine × Nat × Walker)) :=
  ((List.range c.walkers.length).zip c.walkers).map (fun w => match w.2 with
    | some x => if c.slots.any (fun y => y.issued && decide (y.engine = x.1) && decide (y.tag = x.2.1)) ||
        c.ring.any (fun d => d.started && decide (d.walk = some x.2.2 ∧ d.walker = w.1 ∧ d.tag = x.2.1)) then some x else none
    | none => none)

/-- What has ended gives up its slot and its walkers. -/
def Core.tidy (c : Core) : Core :=
  let d := { c with slots := c.slotsKept }
  { d with walkers := d.walkersKept }

/-- Slots and ring places that came free are filled in order (R85). -/
def Core.refill (c : Core) : Core :=
  let c := c.tidy
  { c with slots := c.slots ++ c.held.take (8 - c.slots.length), held := c.held.drop (8 - c.slots.length),
           ring := c.ring ++ c.feed.take (64 - c.ring.length), feed := c.feed.drop (64 - c.ring.length) }

/-- Partition a core serves; none is 16. -/
def State.partOfCore (s : State) (core : Nat) : Nat :=
  (Tab.keysWhere s.sched.partitions (fun _ q => q.positions.contains (some core))).headD 16

/-- The CCC of a cluster restarts, is held in reset, or starts a new release (R370, R373, R374). -/
def State.cccDown (s : State) (k : Nat) : Bool := s.procDown (8 + k) || s.switching

/-- Something issues to the core: a sequencer in a control-class partition, otherwise the CCC of its cluster while it runs (R18, R374). -/
def State.feeds (s : State) (core : Nat) : Bool :=
  !s.cccDown (core / 256) || (match s.sched.partitions.get? (s.partOfCore core) with
    | some q => decide (q.cls = 0)
    | none => false)

/-- A core from which something has gone; what waits for its places takes them when something issues to the core (R18, R85). -/
def State.putCore (s : State) (core : Nat) (c : Core) : State := s.setCore core (if s.feeds core then c.refill else c.tidy)

/-- The CCC of a cluster works again: it fills the places that came free meanwhile. -/
def State.refillCluster (s : State) (k : Nat) : State :=
  (s.cores.filter (fun kv => decide (kv.1 / 256 = k))).foldl (fun s kv => s.putCore kv.1 kv.2) s

/-- Slots and descriptors picked out leave the core. -/
def Core.drop (c : Core) (slot : OpSlot → Bool) (desc : Desc → Bool) : Core :=
  { c with slots := c.slots.filter (fun x => !slot x), held := c.held.filter (fun x => !slot x),
           ring := c.ring.filter (fun x => !desc x), feed := c.feed.filter (fun x => !desc x) }

/-- Everything of one owner leaves the core. -/
def Core.release (c : Core) (o : Owner) : Core := c.drop (fun x => decide (x.owner = o)) (fun x => decide (x.owner = o))

def Core.serves (c : Core) (o : Owner) : Bool :=
  c.slots.any (fun x => x.owner = o) || c.held.any (fun x => x.owner = o) || c.ring.any (fun x => x.owner = o) || c.feed.any (fun x => x.owner = o)

/-- Some core still works for the owner. -/
def State.busyFor (s : State) (o : Owner) : Bool := s.cores.any (fun kv => kv.2.serves o)

def State.placeSlot (s : State) (c : Nat) (o : OpSlot) : State := s.setCore c ((s.core c).place o)
def State.placeDesc (s : State) (c : Nat) (d : Desc) : State := s.setCore c ((s.core c).queueDesc d)

/-- RLOC code of a LOC code (R139, R154). -/
def rlocOf (loc : Nat) : Nat := if loc = 1 then 1 else if loc = 2 then 2 else if loc = 3 then 4 else if loc = 4 then 3 else 0

/-- The view's slots lie in tier-2 rings (R269). -/
def State.inRing (s : State) (t : TDesc) : Bool := decide (t.loc = 3) && (s.viewRing (bits t.handle 14 8)).isSome

/-- RLOC, REMOTE and length of the pieces of `n` bytes of an operand from its byte `off` on: a PLACE 1 view is read in the rings of
its slots, at the buffers it names (R139, R154, R269). -/
def State.remotePieces (s : State) (t : TDesc) (off n : Nat) : List (Nat × Nat × Nat) :=
  if s.inRing t then (s.viewParts t (t.off + off) n).map (fun b => (2, (match s.viewRing b.1 with
    | some r => r.2
    | none => 0) + b.2.1, b.2.2))
  else [(rlocOf t.loc, t.addr + off, n)]

/-- The store a read of an operand goes to, as a LOC code: a view of a PLACE 1 slot reads tier 2 (R269). -/
def State.pathLoc (s : State) (t : TDesc) : Nat := if t.loc ≠ 3 then t.loc else if s.inRing t then 2 else 0

/-- Descriptors of at most 256 KiB each for `n` bytes, to or from a core store at `at_` (R139). -/
def descs (o : Owner) (op rloc remote n : Nat) (at_ : Nat := 0) : List Desc :=
  (List.range (ceilDiv n 262144)).map (fun i =>
    { owner := o, op := op, order := false, rloc := rloc, length := min 262144 (roundUp n 64 - 262144 * i), started := false, window := none, tag := 0,
      local_ := at_ + 262144 * i, remote := remote + 262144 * i })

/-- The descriptors that bring `n` bytes of an operand from its byte `off` on to a core: each names the window bytes it
reads, and signals the slot (R139, R178). -/
def State.fetchDescs (s : State) (o : Owner) (op : Nat) (t : TDesc) (off n : Nat) (at_ : Nat := 0) : List Desc :=
  let all := ((s.remotePieces t off n).foldl (fun a r => (a.1 ++ descs o op r.1 r.2.1 r.2.2 (at_ + a.2), a.2 + r.2.2)) ([], 0)).1
  ((List.range all.length).zip all).map (fun d =>
    let lo := t.off + off + 262144 * d.1
    { d.2 with notify := true, window := if t.loc = 1 then some (t.handle, lo, min (lo + 262144) (t.off + off + n) - 1) else none })

/-- The share of core `j` of `c` in `n` bytes that are split over them, in whole lines: first byte and bytes (log 97). -/
def shareOf (n c j : Nat) : Nat × Nat :=
  let lines := ceilDiv n 64
  let a := 64 * (j * lines / max 1 c)
  (a, min n (64 * ((j + 1) * lines / max 1 c)) - a)

/-- The descriptors by which core `j` of `c` reads its share of a remote operand of `n` bytes. -/
def State.readDescs (s : State) (o : Owner) (t : TDesc) (n c j : Nat) (at_ : Nat := 0) : List Desc :=
  if t.loc = 0 then [] else s.fetchDescs o 1 t (shareOf n c j).1 (shareOf n c j).2 (at_ + (shareOf n c j).1)

/-- The descriptors that take `n` bytes of a result to its place. -/
def putDescs (o : Owner) (t : TDesc) (n : Nat) : List Desc := if t.loc = 0 then [] else descs o 2 (rlocOf t.loc) t.addr n

def Desc.outgoing (d : Desc) : Bool := decide (d.op = 2 ∨ d.op = 5)

/-- It takes bytes to another store. -/
def Desc.sends (d : Desc) : Bool := d.outgoing && decide (d.rloc ≠ 0)

/-- The 32 bytes of a descriptor that serves slot `slot` (R139). -/
def Desc.encode (d : Desc) (slot : Nat) : List Byte :=
  toLe 1 d.op ++ toLe 1 (b2n d.order + 2 * b2n d.notify) ++ toLe 1 d.rloc ++ toLe 1 d.walker ++ toLe 4 d.length ++ toLe 4 d.local_ ++
  toLe 2 (if d.rloc = 0 then d.rcore else 0) ++ toLe 2 slot ++ toLe 8 (if d.rloc = 0 then 0 else d.remote) ++ toLe 8 (if d.op = 3 then d.pattern else 0)

/-- The slot of a core that a descriptor serves: the place of the operation it was placed with (R139). -/
def Core.slotOf (c : Core) (d : Desc) : Nat := (c.slots.findIdx? (fun x => decide (x.owner = d.owner ∧ x.tag = d.tag))).getD 0

/-- The writes that a descriptor of a core makes when it retires: FILL repeats PATTERN from LOCAL on, NOP writes nothing, and
the others carry the bytes they move (R139, R140). -/
def Desc.made (d : Desc) (core : Nat) : List Wr :=
  if d.op = 3 then [⟨.core, coreKey core d.local_, (List.range d.length).map (fun i => (toLe 8 d.pattern).getD (i % 8) 0)⟩]
  else if d.op = 0 then [] else d.writes

/-- Bytes an operation moves, for R38: tier 1, tier-2 reads, tier-2 writes, tier 3. -/
structure Traffic where
  t1 : Nat
  rd : Nat
  wr : Nat
  t3 : Nat
deriving DecidableEq, Repr

def Traffic.add (a b : Traffic) : Traffic := ⟨a.t1 + b.t1, a.rd + b.rd, a.wr + b.wr, a.t3 + b.t3⟩
def Traffic.none : Traffic := ⟨0, 0, 0, 0⟩

def traffic (loc n : Nat) (write : Bool) : Traffic :=
  if loc = 1 then ⟨n, 0, 0, 0⟩ else if loc = 2 then (if write then ⟨0, 0, n, 0⟩ else ⟨0, n, 0, 0⟩)
  else if loc = 4 then ⟨0, 0, 0, n⟩ else Traffic.none

/-- What a compute operation does from its dispatch to its completion. -/
structure Work where
  status : Nat
  info : Nat
  result : Nat
  /-- Exception summary (R119), for firing records. -/
  exc : Nat
  /-- Core-store writes: each core makes its own when its operation or descriptor retires (R140, R142). -/
  core : List Wr
  /-- Writes to other stores, made by the descriptors that carry them; those that no descriptor carries are visible at
  completion (R16, R140). -/
  later : List Wr
  host : List (Nat × List Byte)
  slots : List (Nat × OpSlot)
  descs : List (Nat × Desc)
  holds : List (Nat × Nat)
  traffic : Traffic
  /-- A solve cut by its deadline ends no earlier than this robot time (R41). -/
  ends : Option Nat := none
  /-- What a QP channel holds from now on (R302, R307). -/
  chan : Option (Nat × Channel) := none
  /-- A poisoned line that it reads: it ends with MEM_UNCORRECTABLE (R144, R446). -/
  met : Option (Store × Nat) := none
deriving DecidableEq, Repr

/-- What an operation's checks answer: it stops with a status, it waits, or it runs. -/
inductive Attempt where
  | stop (status info result : Nat)
  /-- What the operands hold is wrong, tile headers or bounds: BAD_PARAM, found only when it runs (R153, R305). -/
  | headers
  | wait
  | run (w : Work)
deriving DecidableEq, Repr

/-- A compute operation: who it is for, its context, partition and packet. -/
abbrev Compute := Owner → Nat → Nat → Partition → Sys2Proof.Packet → State → Attempt

/-- Hold the buffers of the views an operation reads (R269). -/
def State.hold (s : State) (o : Owner) (hs : List (Nat × Nat)) : State :=
  hs.foldl (fun s h => { s with ingest := { s.ingest with slots := s.ingest.slots.update h.1 (fun t =>
    { t with bufs := t.bufs.modify h.2 (fun b => { b with holds := b.holds ++ [o] }) }) } }) s

/-- Give up every buffer an owner holds. -/
def State.unhold (s : State) (o : Owner) : State :=
  { s with ingest := { s.ingest with slots := s.ingest.slots.mapVals (fun _ t =>
    { t with bufs := t.bufs.map (fun b => { b with holds := b.holds.filter (fun h => h ≠ o) }) }) } }

def PartAcc.move (a : PartAcc) (t : Traffic) : PartAcc :=
  { a with t1 := a.t1 + t.t1, t2rd := a.t2rd + t.rd, t2wr := a.t2wr + t.wr, t3 := a.t3 + t.t3 }

/-- Bytes moved for a context, counted for its partition (R38). -/
def State.moved (s : State) (ctx : Nat) (t : Traffic) : State :=
  match s.partOf ctx with
  | none => s
  | some x => s.accPart x.1 (fun a => a.move t)

/-- Writes dealt in order over places of given sizes: each takes writes until it is full, and the last takes the rest. -/
def dealWrites : List Nat → List Wr → List (List Wr)
  | [], _ => []
  | [_], ws => [ws]
  | n :: r, ws =>
    let k := (ws.foldl (fun (a : Nat × Nat) w => if n ≤ a.2 then a else (a.1 + 1, a.2 + w.bytes.length)) (0, 0)).1
    ws.take k :: dealWrites r (ws.drop k)

def Wr.onCore (w : Wr) (c : Nat) : Bool := decide (w.store = .core) && decide (w.addr / 2097152 = c)

/-- Core-store ranges that writes on a core cover. -/
def writeRanges (core : Nat) (ws : List Wr) : List (Nat × Nat × Bool) :=
  (ws.filter (fun w => w.onCore core)).map (fun w => (w.addr % 2097152, w.addr % 2097152 + w.bytes.length, true))

/-- A descriptor of a core that carries writes. -/
def Desc.carrying (d : Desc) (core : Nat) (ws : List Wr) : Desc :=
  { d with writes := d.writes ++ ws, ranges := d.ranges ++ writeRanges core ws }

/-- Give the picked descriptors their writes, in order. -/
def carry (pick : Nat × Desc → Bool) (ws : List Wr) (l : List (Nat × Desc)) : List (Nat × Desc) :=
  let parts := dealWrites ((l.filter pick).map (fun d => d.2.length)) ws
  (l.foldl (fun (a : List (Nat × Desc) × List (List Wr)) d =>
    if pick d then (a.1 ++ [(d.1, d.2.carrying d.1 (a.2.headD []))], a.2.tail) else (a.1 ++ [d], a.2)) ([], parts)).1

/-- The writes of an operation given to what makes them: on each core to its last slot there, or without one to the
descriptors that bring bytes in; those to other stores to the descriptors that take bytes out (R140, R142). -/
def Work.dealt (w : Work) : Work :=
  let cores := ((w.slots.filter (fun x => x.2.engine.isSome)).map (·.1)).eraseDups
  let lone := ((w.descs.filter (fun d => !d.2.outgoing)).map (·.1)).eraseDups.filter (fun c => !cores.contains c)
  let slots := (List.range w.slots.length).zip w.slots |>.map (fun x =>
    if x.2.2.engine.isNone || (w.slots.drop (x.1 + 1)).any (fun y => decide (y.1 = x.2.1) && y.2.engine.isSome) then x.2
    else (x.2.1, { x.2.2 with writes := x.2.2.writes ++ w.core.filter (fun z => z.onCore x.2.1) }))
  let descs := lone.foldl (fun l c => carry (fun d => decide (d.1 = c) && !d.2.outgoing) (w.core.filter (fun z => z.onCore c)) l) w.descs
  let away := w.descs.any (fun d => d.2.sends)
  { w with slots := slots, descs := if away then carry (fun d => d.2.sends) w.later descs else descs,
           core := w.core.filter (fun z => !(cores ++ lone).any (fun c => z.onCore c)), later := if away then [] else w.later }

/-- Place an operation: its slots and descriptors, which carry its writes, its holds, its traffic. -/
def State.beginWork (s : State) (o : Owner) (p : Nat) (w : Work) : State :=
  let s := (s.apply w.core).hold o w.holds
  let s := w.slots.foldl (fun s x => s.placeSlot x.1 { x.2 with tag := s.fresh }) s
  let s := w.descs.foldl (fun s x => s.placeDesc x.1 { x.2 with tag := s.fresh }) s
  let s := match w.chan with
    | some c => { s with apps := { s.apps with channels := s.apps.channels.set c.1 c.2 } }
    | none => s
  ((s.reread w.met).accPart p (fun a => a.move w.traffic)).bump

/-- Core-store writes not made yet, by tag. -/
def State.awaited (s : State) : List (Nat × Wr) :=
  (s.cores.map (fun kv => ((kv.2.slots ++ kv.2.held).map (fun x => x.writes.map (fun w => (x.tag, w)))).flatten ++
    ((kv.2.ring ++ kv.2.feed).map (fun d => (d.made kv.1).map (fun w => (d.tag, w)))).flatten)).flatten.filter (fun x => decide (x.2.store = .core))

/-- Into rising tags, after those of the same tag. -/
def insertTag (x : Nat × Wr) : List (Nat × Wr) → List (Nat × Wr)
  | [] => [x]
  | y :: r => if x.1 < y.1 then x :: y :: r else y :: insertTag x r

/-- The stores as an operation placed now observes them: every core-store write of what was placed before it is made (R143). -/
def State.ahead (s : State) : State := s.apply ((s.awaited.foldl (fun l x => insertTag x l) []).map (·.2))

/-- Partner of a core in a pair partition: position p below half the cores has position p + half (R353). -/
def Partition.partner (q : Partition) (core : Nat) : Option Nat :=
  (q.position? core).bind (fun i => if i < q.positions.length / 2 then q.coreAt (i + q.positions.length / 2) else none)

/-- Bytes that an operation writes to cluster regions. -/
def Work.regionBytes (w : Work) : Nat :=
  (((w.later ++ (w.descs.map (·.2.writes)).flatten).filter (fun x => decide (x.store = .region))).map (·.bytes.length)).foldl (· + ·) 0

/-- The same operation on the shadows as well: they read, and write in their own core store only (R353); what they read is moved
a second time (R359). -/
def Work.mirror (w : Work) (q : Partition) : Work :=
  { w with
    slots := w.slots ++ w.slots.filterMap (fun x => (q.partner x.1).map (fun d => (d, x.2))),
    descs := w.descs ++ w.descs.filterMap (fun x => if x.2.op = 2 ∨ x.2.op = 5 then none else (q.partner x.1).map (fun d => (d, x.2))),
    core := w.core ++ w.core.filterMap (fun x => if x.store = .core then
      (q.partner (x.addr / 2097152)).map (fun d => ⟨.core, coreKey d (x.addr % 2097152), x.bytes⟩) else none),
    traffic := ⟨2 * w.traffic.t1 - w.regionBytes, 2 * w.traffic.rd, w.traffic.wr, w.traffic.t3⟩ }

/-- Place an operation that is a job of its own: one sent by a packet, not one of an armed job's image (R19, R38). -/
def State.begin_ (s : State) (o : Owner) (p : Nat) (w : Work) : State :=
  (s.beginWork o p w).accPart p (fun a => { a with dispatched := a.dispatched + 1 })

/-- Cores out of service: fenced ones, and those in self-test (R12, R448, R449). -/
def State.coreOut (s : State) (core : Nat) : Bool := s.rel.fenced.contains core || s.rel.testing.contains core

/-- Nothing is placed on a core that awaits its spare or its self-test (R450, R451), nor, for classes 1 to 3, while the CCC
of its cluster restarts or is held in reset (R373, R374). -/
def State.coreHeld (s : State) (cls core : Nat) : Bool := s.coreOut core || (decide (cls ≠ 0) && s.cccDown (core / 256))

/-- The work needs such a core: it is not placed yet. -/
def State.coreWaits (s : State) (q : Partition) (w : Work) : Bool := (w.slots.map (·.1) ++ w.descs.map (·.1)).any (s.coreHeld q.cls)

/-- The body of a compute opcode: its partition must run (R153, R339); PENDING holds it, the others are BUSY. DESIGN CHOICE: the
check table of R153 names no status for a context that holds no partition; it is BAD_PARAM (log 98). -/
def computeBody (f : Compute) : Body := fun id _ p s =>
  if Packet.ctxNo p = 0xFFFF then refuse s St.badContext
  else match s.partOf (Packet.ctxNo p) with
  | none => refuse s St.badParam
  | some (n, q) =>
    if q.state = 4 then (s, .park)
    else if q.state ≠ 1 then refuse s St.busy
    else match f (.flight id) (Packet.ctxNo p) n q p s.ahead with
      | .stop st i r => (s, .done st i r)
      | .headers => refuse s St.badParam
      | .wait => (s, .parkWork)
      | .run x =>
        let w := x.dealt
        let t := s.begin_ (.flight id) n w
        if s.coreWaits q w then (s, .parkWork)
        else if w.slots.isEmpty && w.descs.isEmpty then (t.apply w.later, .full w.status w.info w.result none w.host [])
        else match w.ends with
          | some d => (t, .cut d w.status w.info w.result w.later w.host)
          | none => (t, .placed w.status w.info w.result w.later w.host)

/-! ### Taking work away -/

/-- Scrambled bytes where partial results stand (R73, R144; log 5). -/
def State.scramble (s : State) (ws : List Wr) : State :=
  (s.apply ((List.range ws.length).zip ws |>.map (fun x => ⟨x.2.store, x.2.addr, freeBytes (s.fresh + x.1) x.2.bytes.length⟩))).bump

/-- The writes that what is picked on the cores has not made yet. -/
def State.unmade (s : State) (slot : OpSlot → Bool) (desc : Desc → Bool) : List Wr :=
  (s.cores.map (fun kv => (((kv.2.slots ++ kv.2.held).filter slot).map (·.writes)).flatten ++
    (((kv.2.ring ++ kv.2.feed).filter desc).map (fun d => d.made kv.1)).flatten)).flatten

/-- The writes that an owner's slots and descriptors have not made yet. -/
def State.partialRanges (s : State) (o : Owner) : List Wr := s.unmade (fun x => decide (x.owner = o)) (fun x => decide (x.owner = o))

/-- Everything of one owner leaves every core; the buffers it held are given up. -/
def State.releaseOwner (s : State) (o : Owner) : State :=
  ((s.cores.filter (fun kv => kv.2.serves o)).foldl (fun s kv => s.putCore kv.1 (kv.2.release o)) s).unhold o

/-- What other objects hold for a flight goes: a Bellows stream, a search, a place in a stream's queue. -/
def State.forget (s : State) (id : Nat) : State :=
  { s with tiers := { s.tiers with bellows := s.tiers.bellows.filter (fun kv => kv.2.flight ≠ id) },
           apps := { s.apps with
                     lattices := s.apps.lattices.mapVals (fun _ l => match l.search with
                       | some x => if x.flight = id then { l with search := none } else l
                       | none => l),
                     streams := s.apps.streams.mapVals (fun _ x => { x with queue := x.queue.filter (fun o => o.owner ≠ .flight id) }) } }

/-- RESULT of an operation that is stopped: a KV_APPEND that an error or a fence ends gives C and T (R190). -/
def State.stopResult (s : State) (f : Flight) (status : Nat) : Nat :=
  if f.opcode = 0x404 ∧ (status = St.memUncorrectable ∨ status = St.coreFault) then
    match s.kv.seqs.get? (Packet.fld f.pkt 16 2) with
    | some q => q.committed + 2 ^ 32 * q.tail
    | none => 0
  else 0

/-- Stop a running operation with a status: its destinations hold partial results (R73, R144). -/
def State.stopFlight (s : State) (id status : Nat) : State :=
  match s.flight? id with
  | none => s
  | some f =>
    let s := if f.placed then s.scramble (s.partialRanges (.flight id) ++ f.writes) else s
    ((s.releaseOwner (.flight id)).forget id).finish id status 0 (s.stopResult f status)

/-- Every placed operation whose core and descriptor work is over, and whose outcome was formed at its dispatch,
completes: its writes become visible (R16). -/
def State.settlePlaced (s : State) : State :=
  (s.proto.flights.filter (fun f => f.placed && !f.late && !s.busyFor (.flight f.id))).foldl (fun s f =>
    let s := match f.deadline with
      | some d => s.reach d
      | none => s
    ((s.apply f.writes).unhold (.flight f.id)).finishFull f.id f.status f.info f.result none f.hostWrites []) s

end Sys2Proof.Machine
end

