-- ==== Sys2Proof/Machine/Protocol.lean ====
section
/-! DEFINITION. Sessions, queues and event queues (R45 to R90): the packets of group 00h, the doorbells, fetching and
completing. -/

namespace Sys2Proof.Machine

def done0 (s : State) (result : Nat) : State × Reply := (s, .done St.ok 0 result)

/-! ### Sessions (R68 to R72, R86 to R90) -/

/-- Highest supported version from MIN_VER to MAX_VER (R68). -/
def chooseVersion (lo hi : Nat) : Option Nat := [0x23, 0x22, 0x21, 0x20].find? (fun v => decide (lo ≤ v ∧ v ≤ hi))

/-- The nonce of the function's session, 0 with none. -/
def State.nonceOf (s : State) (fn : Nat) : Nat := match (s.func? fn).bind (·.session) with
  | some x => x.nonce
  | none => 0

/-- A new session nonce of a function: free, but nonzero and not the one it replaces (R68, R89). -/
def State.newNonce (s : State) (fn : Nat) : Nat :=
  let n := (Sys2Proof.Config.freeDword s.fresh).toNat
  let old := s.nonceOf fn
  if n ≠ 0 ∧ n ≠ old then n else if old = 1 then 2 else 1

def reclaimedEvent (fn detail : Nat) : Event := ⟨4, 0, 0, none, fn, detail⟩

/-- Completions of a function's queues that wait to be written. -/
def State.finishedOf (s : State) (fn : Nat) : List Finished :=
  s.proto.finished.filter (fun f => match f.path with
    | .queue q => (match s.proto.queues.get? q with
        | some c => decide (c.fn = fn)
        | none => false)
    | _ => false)

def heartbeatChecks (_ : Caller) (p : Sys2Proof.Packet) (_ : State) : Option Nat := firstFail [(!shortOk p 16, St.badParam)]

def heartbeatEffect (_ : Nat) (_ : Caller) (_ : Sys2Proof.Packet) (s : State) : State × Reply := done0 s 0

def heartbeatBody : Body := checked heartbeatChecks heartbeatEffect

/-- HEARTBEAT (R86): it was counted as it was fetched, and completes. -/
def execHeartbeat (p : Sys2Proof.Packet) (s : State) : Host.Outcome State Fault Refusal := .next (runPacket 2 heartbeatBody p s)

/-- Take a flight away without a completion (R63, R88). -/
def State.dropFlight (s : State) (id : Nat) : State :=
  { s with proto := { s.proto with flights := s.proto.flights.filter (fun g => g.id ≠ id) } }

/-- Packets of a queue in flight, not yet written, or held in orphan mode, other than flight `but` (R55, R63). -/
def State.queueBusy (s : State) (q but : Nat) : Bool :=
  s.proto.flights.any (fun f => decide (f.path = .queue q) && decide (f.id ≠ but)) ||
  s.proto.finished.any (fun f => decide (f.path = .queue q) && decide (f.flight ≠ but)) ||
  s.proto.funcs.any (fun kv => kv.2.held.any (fun f => decide (f.path = .queue q) && decide (f.flight ≠ but)))

/-- Packets and slots left unfetched: the walk of R55. -/
def State.unfetched (s : State) (c : CmdQueue) : Nat → Nat → Nat
  | 0, _ => 0
  | k + 1, i =>
    let left := (c.tail + 2 ^ 32 - i) % 2 ^ 32
    if left = 0 then 0
    else
      let len := (s.stores.host.read (hostKey c.fn (c.base + 64 * (i % c.slots) + 10))).toNat
      if len = 0 ∨ left < len then 1 else 1 + s.unfetched c k ((i + len) % 2 ^ 32)

/-- A queue being destroyed is gone once nothing of it is in flight: its unfetched packets are counted and discarded, and its
QUEUE_DESTROY completes (R55). A queue whose own packet ordered it goes when that completion has been written. The ring is read
for the count, so a link without bus mastering makes it wait (R466). -/
def State.closeQueue (s : State) (q : Nat) : State :=
  match s.proto.queues.get? q with
  | none => s
  | some c => match c.closing with
    | none => s
    | some id =>
      if s.queueBusy q id || (decide (c.left ≠ 0) && !s.canReadRing c.fn) then s
      else match s.flight? id with
        | none =>
          if s.proto.finished.any (fun f => decide (f.flight = id) && decide (f.path = .queue q)) ||
              s.proto.funcs.any (fun kv => kv.2.held.any (fun f => decide (f.flight = id) && decide (f.path = .queue q))) then s
          else { s with proto := { s.proto with queues := s.proto.queues.erase q } }
        | some f =>
          let s := if f.opcode = 9 then s.finish id St.ok 0 (s.unfetched c c.left c.head + 2 ^ 32 * c.left) else s
          if f.path = .queue q then s else { s with proto := { s.proto with queues := s.proto.queues.erase q } }

/-- A RECLAIM that tears its function down outside orphan mode completes once the queues it destroys are gone (R58, R89). -/
def State.settleReclaims (s : State) : State :=
  (s.proto.flights.filter (fun f => decide (f.opcode = 3) && f.running)).foldl (fun s f =>
    if s.proto.queues.any (fun kv => decide (kv.2.fn = f.fn) && kv.2.closing.isSome) then s else s.finish f.id St.ok 0 f.result) s

def State.closeQueues (s : State) : State :=
  ((s.proto.queues.filter (fun kv => kv.2.closing.isSome)).foldl (fun s kv => s.closeQueue kv.1) s).settleReclaims

/-- Once the completion of such a RECLAIM is written, the new nonce is the one in force, and SESSION_RECLAIMED is posted (R88, R89). -/
def State.reclaimed (s : State) (f : Finished) : State :=
  if f.opcode = 3 ∧ f.status = St.ok ∧ f.info = 0 then
    match s.pathQueue f.path with
    | some x => (s.setFunc x.2.fn (fun g => { g with session := g.session.map (fun y => { y with nonce := f.result }) })).post (reclaimedEvent x.2.fn 2)
    | none => s
  else s

/-- A spare is in service when it has taken a place, and unused otherwise (R12). -/
def State.spareUsed (s : State) (k : Nat) : Bool := s.rel.spareGone.contains k

def State.inServiceOf (s : State) (k : Nat) : Nat :=
  ((List.range 16).filter (fun n => !s.coreOut (k * 256 + n))).length +
    (if s.spareUsed k && !s.coreOut (k * 256 + 16) then 1 else 0)

/-- RESULT of DEVICE_INFO (R72). -/
def State.deviceInfo (s : State) : Nat :=
  let low := ((List.range 8).map s.inServiceOf).foldl min 17
  let spares := ((List.range 8).filter (fun k => !s.spareUsed k && !s.coreOut (k * 256 + 16))).length
  orderByte s.order + 2 ^ 8 * ioDies s.order + 2 ^ 16 * (stacksOf s.order).length + 2 ^ 24 * low + 2 ^ 32 * spares + 2 ^ 40 * 0x23

def deviceInfoBody : Body := checked heartbeatChecks (fun _ _ _ s => done0 s s.deviceInfo)

/-- DEVICE_INFO (R72). -/
def execDeviceInfo (p : Sys2Proof.Packet) (s : State) : Host.Outcome State Fault Refusal := .next (runPacket 4 deviceInfoBody p s)

def nopBody : Body := checked heartbeatChecks (fun _ _ _ s => done0 s 0)

/-- NOP (R77). -/
def execNop (p : Sys2Proof.Packet) (s : State) : Host.Outcome State Fault Refusal := .next (runPacket 5 nopBody p s)

def parkBody : Body := checked heartbeatChecks (fun _ _ _ s => done0 { s with clock := { s.clock with parked := true } } 1)

/-- PARK (R76). -/
def execPark (p : Sys2Proof.Packet) (s : State) : Host.Outcome State Fault Refusal := .next (runPacket 6 parkBody p s)

/-- End a pending activation with a status; a switch under way goes on (R369). -/
def State.endActivation (s : State) (status : Nat) : State :=
  match s.fw.activation with
  | some a => if a.state = 3 then s else
      { (s.finishOpt a.flight status 0 0) with fw := { s.fw with activation := none } }
  | none => s

def unparkBody : Body := checked heartbeatChecks
  (fun _ _ _ s => done0 (State.endActivation { s with clock := { s.clock with parked := false } } St.notParked) 0)

/-- UNPARK (R76, R369). -/
def execUnpark (p : Sys2Proof.Packet) (s : State) : Host.Outcome State Fault Refusal := .next (runPacket 7 unparkBody p s)

/-! ### Queues (R52 to R56, R77) -/

def powerOfTwo (n : Nat) : Bool := decide (n ≠ 0) && decide (2 ^ n.log2 = n)

def slotsOk (n : Nat) : Bool := powerOfTwo n && decide (16 ≤ n ∧ n ≤ 65536)

def vectorOk (v : Nat) : Bool := decide (v < 128 ∨ v = 0xFFFF)

/-- The context a path is bound to, if it is bound to one (R45). -/
def State.boundCtx (s : State) (p : Sys2Proof.Path) : Option Nat := (s.pathQueue p).bind (fun x => x.2.bindCtx)

/-- A context the caller may bind a queue to: of its function and, on a queue bound to a context, that one (R45, R54). -/
def State.ownCtx (s : State) (c : Caller) (p : Sys2Proof.Packet) (b : Nat) : Bool :=
  (match s.ctx? b with
    | some x => decide (x.fn = c.fn)
    | none => false) &&
  (match s.boundCtx p.path with
    | some own => decide (c.role ≠ .tenant ∨ own = b)
    | none => true)

/-- BIND_CTX checks of R54: a context that does not exist or is not bound to the function is BAD_CONTEXT; a tenant names its own. -/
def State.bindCheck (s : State) (c : Caller) (p : Sys2Proof.Packet) (b : Nat) : Option Nat :=
  let ofFn := match s.ctx? b with
    | some x => decide (x.fn = c.fn)
    | none => false
  firstFail [(decide (b ≠ 0xFFFF) && !ofFn, St.badContext), (decide (c.role = .tenant) && (decide (b = 0xFFFF) || !s.ownCtx c p b), St.notPermitted)]

/-- CLASS checks of R54. DEDUCED: the rule names no status for a CLASS 0 that does not come from the operator, or whose BIND_CTX
holds no control-class partition; it is NOT_PERMITTED, as for a CLASS too low (log 92). -/
def State.classCheck (s : State) (c : Caller) (b cls : Nat) : Option Nat :=
  let held := if b = 0xFFFF then none else (s.partOf b).map (fun x => x.2.cls)
  firstFail [(decide (cls = 0) && (decide (c.role ≠ .operator) || decide (held ≠ some 0)), St.notPermitted),
    (match held with
      | some k => decide (cls < k)
      | none => false, St.notPermitted)]

/-- A free number of a table: the one named, or any (R53, R56; log 4). -/
def State.freeNumber (s : State) (named lo n : Nat) (used : List Nat) : Option Nat :=
  if named ≠ 0xFFFF then some named else (pickFree s.fresh n ((used.filter (lo ≤ ·)).map (· - lo))).map (· + lo)

def queueCreateChecks (c : Caller) (p : Sys2Proof.Packet) (s : State) : Option Nat :=
  let qid := Packet.fld p 36 2
  let b := Packet.fld p 40 2
  firstFail
    [(decide (Packet.len p ≠ 1) || !Packet.rsvZero p 43 44 || !Packet.rsvZero p 46 64, St.badParam),
     (!slotsOk (Packet.fld p 32 4), St.badParam),
     (decide (Packet.fld p 16 8 % 4096 ≠ 0 ∨ Packet.fld p 24 8 % 4096 ≠ 0), St.badParam),
     (decide (Packet.fld p 44 2 < 1 ∨ 256 < Packet.fld p 44 2), St.badParam),
     (decide (qid ≠ 0xFFFF) && (decide (qid < 32 ∨ 4095 < qid) || s.proto.queues.has qid), St.badParam),
     (!vectorOk (Packet.fld p 38 2), St.badParam), (decide (3 < Packet.fld p 42 1), St.badParam)]
  |>.orElse (fun _ => s.bindCheck c p b) |>.orElse (fun _ => s.classCheck c b (Packet.fld p 42 1))
  |>.orElse (fun _ => if (s.freeNumber qid 32 4064 s.proto.queues.keys).isNone then some St.noResource else none)

def queueCreateEffect (_ : Nat) (c : Caller) (p : Sys2Proof.Packet) (s : State) : State × Reply :=
  match s.freeNumber (Packet.fld p 36 2) 32 4064 s.proto.queues.keys with
  | none => refuse s St.noResource
  | some q =>
    let b := Packet.fld p 40 2
    let v : CmdQueue :=
      { fn := c.fn, base := Packet.fld p 16 8, cplBase := Packet.fld p 24 8, slots := Packet.fld p 32 4, msix := Packet.fld p 38 2,
        bindCtx := if b = 0xFFFF then none else some b, cls := Packet.fld p 42 1, maxInflight := Packet.fld p 44 2, head := 0, tail := 0,
        cplTail := 0, cplHead := 0, halted := false, closing := none }
    done0 { s with proto := { s.proto with queues := s.proto.queues.set q v } }.bump q

def queueCreateBody : Body := checked queueCreateChecks queueCreateEffect

/-- QUEUE_CREATE (R53, R54). -/
def execQueueCreate (p : Sys2Proof.Packet) (s : State) : Host.Outcome State Fault Refusal := .next (runPacket 8 queueCreateBody p s)

/-- A path owns the queues of its own function; a bound path, those bound to its context; a tenant, none of an operator's (R77; log 14). -/
def State.pathOwns (s : State) (c : Caller) (p : Sys2Proof.Path) (fn : Nat) (owner bound : Option Nat) : Bool :=
  match c.session with
  | some x => decide (owner = some x)
  | none => decide (owner = none) && decide (fn = c.fn) && (match s.boundCtx p with
      | some b => decide (bound = some b)
      | none => decide (c.role = .operator) || (match bound with
          | some b => (match s.ctx? b with
              | some x => decide (x.fn = c.fn)
              | none => false)
          | none => false))

def State.ownsQueue (s : State) (c : Caller) (p : Sys2Proof.Packet) (q : Nat) : Bool :=
  match s.proto.queues.get? q with
  | none => false
  | some x => if q < 32 then decide (x.fn = c.fn) && (s.boundCtx p.path).isNone else s.pathOwns c p.path x.fn none x.bindCtx

def queueDestroyChecks (c : Caller) (p : Sys2Proof.Packet) (s : State) : Option Nat :=
  let q := Packet.fld p 16 2
  firstFail [(!shortOk p 18 || decide (q < 32 ∨ 4095 < q), St.badParam), (!s.proto.queues.has q, St.notFound),
    (!s.ownsQueue c p q, St.notPermitted)]

def queueDestroyEffect (id : Nat) (_ : Caller) (p : Sys2Proof.Packet) (s : State) : State × Reply :=
  match s.proto.queues.get? (Packet.fld p 16 2) with
  | none => refuse s St.notFound
  | some c =>
    if c.closing.isSome then refuse s St.busy
    else
      let s := (s.setFlight id (fun f => { f with running := true })).setQueue (Packet.fld p 16 2) (fun c => { c with closing := some id })
      (s.closeQueue (Packet.fld p 16 2), .later)

def queueDestroyBody : Body := checked queueDestroyChecks queueDestroyEffect

/-- QUEUE_DESTROY (R55). -/
def execQueueDestroy (p : Sys2Proof.Packet) (s : State) : Host.Outcome State Fault Refusal := .next (runPacket 9 queueDestroyBody p s)

def queueResetChecks (c : Caller) (p : Sys2Proof.Packet) (s : State) : Option Nat :=
  let q := Packet.fld p 16 2
  firstFail [(!shortOk p 24 || !Packet.rsvZero p 18 20 || decide (4095 < q), St.badParam), (!s.proto.queues.has q, St.notFound),
    (!s.ownsQueue c p q, St.notPermitted)]

def queueResetEffect (_ : Nat) (_ : Caller) (p : Sys2Proof.Packet) (s : State) : State × Reply :=
  done0 (s.setQueue (Packet.fld p 16 2) (fun c => { c with halted := false, head := Packet.fld p 20 4, tail := Packet.fld p 20 4 })) 0

def queueResetBody : Body := checked queueResetChecks queueResetEffect

/-- QUEUE_RESET (R55). -/
def execQueueReset (p : Sys2Proof.Packet) (s : State) : Host.Outcome State Fault Refusal := .next (runPacket 0xA queueResetBody p s)

def eqCreateChecks (c : Caller) (p : Sys2Proof.Packet) (s : State) : Option Nat :=
  let e := Packet.fld p 28 2
  let n := Packet.fld p 24 4
  let own := decide (c.role = .owner)
  firstFail
    [(decide (Packet.len p ≠ 1) || !Packet.rsvZero p 35 64, St.badParam),
     (if own then !(powerOfTwo n && decide (16 ≤ n ∧ n ≤ 1024)) else !slotsOk n, St.badParam),
     (if own then !Packet.rsvZero p 16 24 || !Packet.rsvZero p 30 34 else decide (Packet.fld p 16 8 % 4096 ≠ 0), St.badParam),
     (decide (e ≠ 0xFFFF) && (decide (63 < e) || s.proto.eqs.has e), St.badParam),
     (!own && !vectorOk (Packet.fld p 30 2), St.badParam),
     (decide (3 < Packet.fld p 34 1 ∧ Packet.fld p 34 1 ≠ 0xFF), St.badParam)]
  |>.orElse (fun _ => if own then none else s.bindCheck c p (Packet.fld p 32 2))
  |>.orElse (fun _ => if (s.freeNumber e 0 64 s.proto.eqs.keys).isNone then some St.noResource else none)

def eqCreateEffect (_ : Nat) (c : Caller) (p : Sys2Proof.Packet) (s : State) : State × Reply :=
  match s.freeNumber (Packet.fld p 28 2) 0 64 s.proto.eqs.keys with
  | none => refuse s St.noResource
  | some e =>
    let own := decide (c.role = .owner)
    let b := Packet.fld p 32 2
    let v : EventQueue :=
      { fn := c.fn, owner := c.session, base := Packet.fld p 16 8, entries := Packet.fld p 24 4, msix := if own then 0xFFFF else Packet.fld p 30 2,
        bindCtx := if own ∨ b = 0xFFFF then none else some b, irqSeverity := Packet.fld p 34 1, mask := 0, minSeverity := 0, head := 0,
        tail := 0, eqSeq := 0, dropped := 0 }
    done0 { s with proto := { s.proto with eqs := s.proto.eqs.set e v } }.bump e

def eqCreateBody : Body := checked eqCreateChecks eqCreateEffect

/-- EQ_CREATE (R56, R394). -/
def execEqCreate (p : Sys2Proof.Packet) (s : State) : Host.Outcome State Fault Refusal := .next (runPacket 0xB eqCreateBody p s)

def State.ownsEq (s : State) (c : Caller) (p : Sys2Proof.Packet) (e : Nat) : Bool :=
  match s.proto.eqs.get? e with
  | none => false
  | some x => s.pathOwns c p.path x.fn x.owner x.bindCtx

def eqDestroyChecks (c : Caller) (p : Sys2Proof.Packet) (s : State) : Option Nat :=
  let e := Packet.fld p 16 2
  firstFail [(!shortOk p 18 || decide (63 < e), St.badParam), (!s.proto.eqs.has e, St.notFound), (!s.ownsEq c p e, St.notPermitted)]

def eqDestroyEffect (_ : Nat) (_ : Caller) (p : Sys2Proof.Packet) (s : State) : State × Reply :=
  let e := Packet.fld p 16 2
  let lost := match s.proto.eqs.get? e with
    | some q => q.dropped
    | none => 0
  done0 { s with proto := { s.proto with eqs := s.proto.eqs.erase e } } lost

def eqDestroyBody : Body := checked eqDestroyChecks eqDestroyEffect

/-- EQ_DESTROY (R77). DEDUCED: RESULT counts the drops that no EVENTS_LOST has reported (log 92). -/
def execEqDestroy (p : Sys2Proof.Packet) (s : State) : Host.Outcome State Fault Refusal := .next (runPacket 0xC eqDestroyBody p s)

def eventSubscribeChecks (c : Caller) (p : Sys2Proof.Packet) (s : State) : Option Nat :=
  let e := Packet.fld p 16 2
  firstFail [(!shortOk p 20 || decide (3 < Packet.fld p 19 1) || decide (63 < e), St.badParam), (!s.proto.eqs.has e, St.notFound),
    (!s.ownsEq c p e, St.notPermitted)]

def eventSubscribeEffect (_ : Nat) (_ : Caller) (p : Sys2Proof.Packet) (s : State) : State × Reply :=
  done0 { s with proto := { s.proto with eqs := s.proto.eqs.update (Packet.fld p 16 2) (fun q =>
    { q with mask := Packet.fld p 18 1, minSeverity := Packet.fld p 19 1 }) } } 0

def eventSubscribeBody : Body := checked eventSubscribeChecks eventSubscribeEffect

/-- EVENT_SUBSCRIBE (R56). -/
def execEventSubscribe (p : Sys2Proof.Packet) (s : State) : Host.Outcome State Fault Refusal := .next (runPacket 0xD eventSubscribeBody p s)

/-! ### Doorbells (R49, R50, R67) -/

/-- Halt a queue and post QUEUE_HALTED (R50, R60). -/
def State.haltQueue (s : State) (q : Nat) : State :=
  match s.proto.queues.get? q with
  | none => s
  | some c =>
    if c.halted then s
    else (s.setQueue q (fun c => { c with halted := true })).post ⟨1, 0, 2, c.bindCtx, q, St.badFraming + 2 ^ 32 * c.head⟩

/-- SQ_TAIL (R50). DESIGN CHOICE: a value that halts the queue is not taken over, so the counts of a QUEUE_DESTROY use the tail before
it; CQ_HEAD does the same (log 91). -/
def execSqTail (fn q : Nat) (value : Sys2Proof.Word) (s : State) : Host.Outcome State Fault Refusal :=
  .next (match s.proto.queues.get? q with
    | none => s
    | some c =>
      if c.fn ≠ fn then s
      else if c.slots < (value.toNat + 2 ^ 32 - c.head) % 2 ^ 32 then s.active.haltQueue q
      else s.active.setQueue q (fun c => { c with tail := value.toNat }))

/-- CQ_HEAD (R50). -/
def execCqHead (fn q : Nat) (value : Sys2Proof.Word) (s : State) : Host.Outcome State Fault Refusal :=
  .next (match s.proto.queues.get? q with
    | none => s
    | some c =>
      if c.fn ≠ fn then s
      else if (c.cplTail + 2 ^ 32 - c.cplHead) % 2 ^ 32 < (value.toNat + 2 ^ 32 - c.cplHead) % 2 ^ 32 then s.active.haltQueue q
      else s.active.setQueue q (fun c => { c with cplHead := value.toNat }))

/-- EQ_HEAD (R50, R67). -/
def execEqHead (fn e : Nat) (value : Sys2Proof.Word) (s : State) : Host.Outcome State Fault Refusal :=
  .next (match s.proto.eqs.get? e with
    | none => s
    | some q =>
      if q.fn ≠ fn ∨ q.owner.isSome then s
      else if (q.tail + 2 ^ 32 - q.head) % 2 ^ 32 < (value.toNat + 2 ^ 32 - q.head) % 2 ^ 32 then s.active
      else State.reportLost { s.active with proto := { s.proto with eqs := s.proto.eqs.update e (fun q => { q with head := value.toNat }) } } e)

/-! ### Fetching (R57 to R61, R84, R85) -/

/-- Take the packet at the head of a queue: a LEN fault halts it, and an opcode that is no
command of the table is completed at once (R59 to R61, R75). -/
def State.fetchFrom (s : State) (q : Nat) (c : CmdQueue) : State :=
  let (code, p) := s.ringPacket q c
  let len := Packet.len p
  if len = 0 ∨ c.slots < len then s.haltQueue q
  else
    let s := (s.active.setQueue q (fun c => { c with head := (c.head + len) % 2 ^ 32 }))
    match s.take c code p with
    | (t, none) => t
    | (t, some id) =>
      if (opRow code).isSome then t
      else match t.headerStatus p code with
        | some st => t.finishFull id st 0 0 (some (t.verOf p code)) [] []
        | none => t

/-- PACKET_FETCH (R57). -/
def execPacketFetch (s : State) : Host.Outcome State Fault Refusal :=
  .next (if !(s.running && decide (4 ≤ s.fw.bootStage) && !s.hearthDown) || s.power.standby then s
    else match s.chooseQueue with
      | none => s
      | some (q, cr) => match s.proto.queues.get? q with
        | none => s
        | some c => (s.serve q c cr).fetchFrom q c)

/-! ### Completing (R58, R62, R63, R87) -/

/-- Hold a completion of an orphaned function (R84, R87). -/
def State.holdCompletion (s : State) (fn : Nat) (f : Finished) : State :=
  { (s.setFunc fn (fun x => { x with held := x.held ++ [f] })) with
    proto := { (s.setFunc fn (fun x => { x with held := x.held ++ [f] })).proto with finished := s.proto.finished.filter (fun g => g.flight ≠ f.flight) } }

/-- A completion can go out or be held now: Hearth runs, no earlier one of its queue waits (R58), and a link without bus mastering
makes it wait, as does another function's orphan mode that keeps back what it writes to that function's host memory (R87, R466). -/
def State.completable (s : State) (f : Finished) : Bool :=
  match f.path with
  | .owner _ => !s.procDown 0
  | .job _ => true
  | .queue q => match s.proto.queues.get? q with
    | none => true
    | some c => !s.hearthDown && (match s.func? c.fn with
        | some x => x.orphan || (x.busMaster && s.windowOpen f)
        | none => false) && decide ((s.proto.finished.find? (fun g => decide (g.path = f.path))).map (·.flight) = some f.flight)

/-- COMPLETION_WRITE (R58, R62, R87): the oldest completion that can go out. -/
def execCompletionWrite (s : State) : Host.Outcome State Fault Refusal :=
  .next (match s.proto.finished.find? (fun f => s.completable f) with
    | none => s
    | some f =>
      let out := { s with proto := { s.proto with finished := s.proto.finished.filter (fun g => g.flight ≠ f.flight) } }
      match s.pathQueue f.path with
      | some (_, c) => if (match s.func? c.fn with
          | some x => x.orphan
          | none => false) then s.holdCompletion c.fn f else ((out.writeCompletion f).reclaimed f).closeQueues
      | none => (out.writeCompletion f).closeQueues)

/-- ORPHAN_ENTERED (R87): at a frame edge more than HB_PERIOD_MS after the last counted heartbeat; a restart of Hearth never
brings it about by itself (R375). -/
def execOrphanEntered (fn : Nat) (s : State) : Host.Outcome State Fault Refusal :=
  .next (match s.func? fn with
    | none => s
    | some f => match f.session with
      | none => s
      | some x =>
        if f.orphan ∨ s.hearthDown ∨ s.clock.frameStart ≤ x.lastBeat + x.periodMs * 1000000 then s
        else (s.setFunc fn (fun f => { f with orphan := true })).post ⟨3, 0, 2, none, fn, x.lastBeat⟩)

/-- HOST_HEARTBEAT (R86): the register of a physical function. -/
def execHostHeartbeat (fn : Nat) (_value : Sys2Proof.Word) (s : State) : Host.Outcome State Fault Refusal :=
  .next (if fn % 16 = 0 then s.beat fn else s)

end Sys2Proof.Machine
end

