-- ==== Sys2Proof/Machine/Clock.lean ====
section
/-! DEFINITION. Robot time and its discipline (R22 to R27, R44), and the frame statistics page (R36 to R39, R480). -/

namespace Sys2Proof.Machine

/-! ### The counter (R22, R27) -/

def State.timeCfg (s : State) : Nat := s.activeWord 0 0 1
/-- ROLE of the active TIME_CFG (R30): 0 grandmaster, 1 and 2 slave on port 0 and 1. -/
def State.role (s : State) : Nat := bits s.timeCfg 31 30
/-- Slew limit in parts per 10^9 (R27, R30). -/
def State.slewLimit (s : State) : Int := (bits s.timeCfg 7 0 : Nat) * 1000
/-- Sync interval as grandmaster, ns (R30). -/
def State.syncEvery (s : State) : Nat := 1000000000 / 2 ^ bits s.timeCfg 29 27
def State.holdoverNs (s : State) : Nat := bits s.timeCfg 23 16 * 1000000000

/-- One 125 MHz tick of the robot-time counter: 8 ns, the rate
term, and the part of an outstanding offset the slew limit allows, in 2^-32 ns (R22, R27; log 2). -/
def State.tick (s : State) : State :=
  if s.clock.running && s.fw.powered then
    let c := s.clock
    let lim := s.slewLimit * 8
    let part := max (-lim) (min lim c.slew)
    let total : Int := (c.frac : Int) + ((8 * 1000000000 + c.rate * 8 + part) * 4294967296) / 1000000000
    { s with clock := { c with now := c.now + (total / 4294967296).toNat, frac := (total % 4294967296).toNat, slew := c.slew - part } }
  else s

/-- Records in the event buffers of the sessions go out on them while SEC works (R373, R394). -/
def State.sendEvents (s : State) : State :=
  if s.procDown 0 || !s.fw.powered then s else s.proto.eqs.foldl (fun s kv => s.sendBuffer kv.1) s

/-- What the block does when no command waits: one tick, and the sessions' event records are sent (log 2, log 104). -/
def State.idle (s : State) : State := s.tick.sendEvents

def timeEvent (code severity source detail : Nat) : Event := ⟨code, 1, severity, none, source, detail⟩

/-- Robot time runs on the crystal, with the rate term as it stands: no correction of an offset is left to make (R26). -/
def State.onCrystal (s : State) (t : Nat) : State := { s with clock := { s.clock with timeState := t, slew := 0, step := 0 } }

/-- Enter FREE (R26). -/
def State.enterFree (s : State) : State := (s.onCrystal 0).post (timeEvent 0x10 1 0 0)

/-! ### Discipline (R25 to R27) -/

/-- The rate term the servo gives: a free value (log 6), held inside what keeps the counter moving (R22). -/
def State.servo (s : State) (offset : Int) : Int :=
  max (-100000000) (min 100000000 (Sys2Proof.Config.servoRate s.fresh offset))

/-- A positive offset at or above the threshold is stepped, in whole microseconds, while stepping is allowed (R27). -/
def State.stepPart (s : State) (offset : Int) : Nat :=
  let ms := bits s.timeCfg 15 8
  if ms ≠ 0 ∧ (ms * 1000000 : Nat) ≤ offset ∧ s.clock.parked ∧ !s.controlActive then offset.toNat / 1000 * 1000 else 0

/-- A Sync accepted on the named port: the offset is measured, corrected, and counted toward LOCKED (R26, R27). -/
def State.acceptSync (s : State) (port : Nat) (offset : Int) (interval : Nat) : State :=
  let c := s.clock
  let near := decide (-1000 < offset ∧ offset < 1000)
  let fresh := decide (c.timeState ≠ 2 ∧ c.timeState ≠ 3)
  let run := if near then (if fresh then 0 else c.lockRun) + 1 else 0
  let locks := decide (c.timeState ≠ 3) && decide (16 ≤ run)
  let st := s.stepPart offset
  let c := { c with lastSync := some c.now, syncInterval := interval, offset := offset, rate := s.servo offset,
                    slew := (offset - st) * 1000000000, step := st, lockRun := run,
                    timeState := if locks then 3 else if c.timeState = 3 then 3 else 2 }
  let s := { s with clock := c }.bump
  if locks then s.post (timeEvent 0x12 0 port (toBits 64 offset)) else s

/-- SYNC, with its Follow_Up (R26): offset of robot time to the grandmaster, and the grandmaster's interval. -/
def execSync (port : Nat) (offset : Int) (interval : Nat) (s : State) : Host.Outcome State Fault Refusal :=
  .next (if s.portUp port && decide (s.role = port + 1) then s.acceptSync port offset interval else s)

/-- ANNOUNCE (R25): roles are external, so it changes nothing. -/
def execAnnounce (_port : Nat) (s : State) : Host.Outcome State Fault Refusal := .next s

/-- PDELAY_REQ (R25): answered on both ports in every role. -/
def execPdelayReq (port reqId : Nat) (s : State) : Host.Outcome State Fault Refusal :=
  .next (if s.portUp port then s.emit (.pdelayResp port reqId) else s)

/-- PDELAY_RESP and its Follow_Up (R25): half of the round trip less the turnaround. -/
def execPdelayResp (port : Nat) (t1 t2 t3 t4 : Int) (s : State) : Host.Outcome State Fault Refusal :=
  .next (if s.portUp port then { s with clock := { s.clock with peerDelay := s.clock.peerDelay.set port (((t4 - t1) - (t3 - t2)) / 2) } } else s)

/-- GM_SYNC_TRANSMIT (R25, R30): Sync, Follow_Up and Announce on both ports, where their links are up (R377). -/
def execGmSyncTransmit (s : State) : Host.Outcome State Fault Refusal :=
  .next (if s.controlReady && decide (s.role = 0) then
      let s := s.reach s.clock.nextSync
      let s := { s with clock := { s.clock with nextSync := s.clock.nextSync + s.syncEvery } }
      [(0, "Sync"), (0, "Follow_Up"), (0, "Announce"), (1, "Sync"), (1, "Follow_Up"), (1, "Announce")].foldl
        (fun s m => if s.portUp m.1 then s.emit (.gptp m.1 m.2) else s) s
    else s)

/-- Robot time at which the loss of Sync is noticed: three intervals after the last one (R26). -/
def State.lossTime (s : State) : Option Nat :=
  if s.clock.timeState = 2 ∨ s.clock.timeState = 3 then s.clock.lastSync.map (fun t => t + 3 * s.clock.syncInterval) else none

/-- TIME_HOLDOVER (R26): straight to FREE when HOLDOVER_S has already passed. -/
def execTimeHoldover (s : State) : Host.Outcome State Fault Refusal :=
  .next (match s.lossTime with
    | none => s
    | some t =>
      let s := s.reach t
      let s := { s with clock := { s.clock with lockRun := 0 } }
      if s.clock.lastSync.getD 0 + s.holdoverNs < t then s.enterFree
      else (s.onCrystal 4).post (timeEvent 0x13 1 (s.role - 1) 0))

/-- TIME_FREE (R26): more than HOLDOVER_S since the last Sync accepted. -/
def execTimeFree (s : State) : Host.Outcome State Fault Refusal :=
  .next (if s.clock.timeState = 4 then (s.reach (s.clock.lastSync.getD 0 + s.holdoverNs + 1)).enterFree else s)

/-! ### TIME_READ (R44) -/

def timeReadChecks (_ : Caller) (p : Sys2Proof.Packet) (_ : State) : Option Nat :=
  firstFail [(!shortOk p 17 || decide (3 < Packet.fld p 16 1), St.badParam)]

/-- GM_OFFSET_NS: zero in FREE and GRANDMASTER (R38). -/
def State.gmOffset (s : State) : Int := if s.clock.timeState ≤ 1 then 0 else s.clock.offset

/-- RESULT of TIME_READ, of a packet fetched at robot time `fetched`. -/
def State.timeRead (s : State) (tenant : Bool) (fetched select : Nat) : Nat :=
  match select with
  | 0 => if tenant then s.clock.frameStart else fetched
  | 1 => s.frameNo
  | 2 => s.clock.frameStart
  | _ => s.clock.timeState + 2 ^ 8 * s.role + 2 ^ 16 * (if tenant then 0 else toBits 32 (satSigned 32 s.gmOffset))

def timeReadBody : Body := checked timeReadChecks
  (fun id c p s => done0 s (s.timeRead (decide (c.role = .tenant)) (match s.flight? id with
    | some f => f.fetchTime
    | none => s.clock.now) (Packet.fld p 16 1)))

/-- TIME_READ (R44). -/
def execTimeRead (p : Sys2Proof.Packet) (s : State) : Host.Outcome State Fault Refusal := .next (runPacket 0x100 timeReadBody p s)

/-! ### The statistics page (R37 to R39, R480) -/

/-- One partition record of the page (R38). -/
def PartRec.bytes (r : PartRec) (owner : Bool) : List Byte :=
  let ctl := decide (r.cls = 0) && decide (r.state ≠ 0)
  toLe 1 r.state ++ toLe 1 r.cls ++ toLe 1 r.cores ++ toLe 1 (b2n r.oneShort) ++ toLe 4 r.acc.dispatched ++ toLe 4 r.acc.completed ++
  toLe 4 r.acc.misses ++ toLe 8 r.acc.coreTime ++ toLe 8 r.acc.t1 ++ toLe 8 r.acc.t2rd ++ toLe 8 r.acc.t2wr ++ toLe 8 r.acc.t3 ++
  toLe 8 (if owner then r.energy else r.energy / 1000) ++ toLe 4 (if ctl then r.acc.latMax else 0) ++
  toLe 4 (if ctl then toBits 32 (r.acc.slackMin.getD 0) else 0) ++ zeros 56

/-- The 4,096 bytes of the page, in the owner or the operator view (R37, R38). -/
def StatsEntry.page (e : StatsEntry) (owner : Bool) (publish : Nat) : List Byte :=
  let a := e.acc
  let flags := b2n a.commitApplied + 2 * b2n a.cfgChanged + 4 * b2n a.stepped + 8 * b2n e.late + 16 * b2n (!owner)
  toLe 8 e.frameNo ++ toLe 8 e.start ++ toLe 8 e.stop ++ toLe 8 publish ++ toLe 2 e.timeState ++ toLe 2 flags ++
  toLe 4 (toBits 32 e.rate) ++ toLe 8 (toBits 64 e.offset) ++ toLe 4 a.commitsAccepted ++ toLe 4 a.commitsRejected ++
  toLe 2 a.tagPeakShared ++ toLe 2 a.tagPeakControl ++ toLe 2 a.emergencyPeak ++ toLe 2 a.misses ++
  toLe 8 (if owner then a.energy else a.energy / 1000) ++ zeros 56 ++ (e.parts.map (fun r => r.bytes owner)).flatten ++ zeros 1920

/-- Robot time at which the page of an entry can go out: in the frame after its own, and 50 us after the page before it while
Hearth catches up, which it does from an entry that is not the latest, or with a page already published in this frame (R37). -/
def State.publishTime (s : State) (later : List StatsEntry) : Nat :=
  if later.isEmpty && decide (s.fw.lastPublish < s.clock.frameStart) then s.clock.frameStart
  else max s.clock.frameStart (s.fw.lastPublish + 50000)

/-- Drain the oldest entry: its page to the buffer without the newer FRAME_NO, its owner view to the sessions that
select it, where it replaces an unsent one (R37, R39, R480). -/
def State.publish (s : State) : State :=
  match s.stats.ring with
  | [] => s
  | e :: r =>
    let s := s.reach (s.publishTime r)
    let bytes := e.page false s.clock.now
    let toA := s.stats.newerB
    { s with
      stats := { s.stats with ring := r, pageA := if toA then bytes else s.stats.pageA,
                              pageB := if toA then s.stats.pageB else bytes, newerB := !toA },
      fw := { s.fw with lastPublish := s.clock.now },
      sec := { s.sec with sessions := s.sec.sessions.mapVals (fun _ x =>
        if x.decimate ≠ 0 ∧ e.frameNo % x.decimate = 0 then { x with unsent := some e, unsentAt := s.clock.now } else x) } }

/-- Hearth runs and start-up has come as far as it (R376). -/
def State.hearthUp (s : State) : Bool := s.running && decide (4 ≤ s.fw.bootStage) && !s.hearthDown

/-- STATS_PUBLISH (R37). -/
def execStatsPublish (s : State) : Host.Outcome State Fault Refusal := .next (if s.hearthUp then s.publish else s)

def statsStreamChecks (_ : Caller) (p : Sys2Proof.Packet) (_ : State) : Option Nat := firstFail [(!shortOk p 18, St.badParam)]

def statsStreamEffect (_ : Nat) (c : Caller) (p : Sys2Proof.Packet) (s : State) : State × Reply :=
  match c.session with
  | none => refuse s St.notPermitted
  | some x =>
    let d := Packet.fld p 16 2
    let none_ := match s.sec.sessions.get? x with
      | some y => decide (y.decimate = 0)
      | none => true
    ({ s with sec := { s.sec with sessions := s.sec.sessions.update x (fun y => { y with decimate := d, unsent := if d = 0 then none else y.unsent }) } },
      .done St.ok (if decide (d = 0) && none_ then Inf.zeroWork else 0) 0)

def statsStreamBody : Body := checked statsStreamChecks statsStreamEffect

/-- STATS_STREAM (R480). -/
def execStatsStream (p : Sys2Proof.Packet) (s : State) : Host.Outcome State Fault Refusal := .next (runPacket 0x101 statsStreamBody p s)

/-- STATS_PAGE_SEND (R480): the waiting page of a session, as TYPE 05h. -/
def execStatsPageSend (session : Nat) (s : State) : Host.Outcome State Fault Refusal :=
  .next (match s.sec.sessions.get? session with
    | none => s
    | some x => match x.unsent with
      | none => s
      | some e =>
        if s.procDown 0 then s
        else State.emit { s with sec := { s.sec with sessions := s.sec.sessions.set session { x with unsent := none } } }
          (.mgmt session 5 (e.page true x.unsentAt)))

end Sys2Proof.Machine
end

