-- ==== Sys2Proof/Machine/Flags.lean ====
section
/-! DEFINITION. Exception summaries (R119) and the RESULT word of compute operations (R149). -/

namespace Sys2Proof.Machine

/-- Summaries OR-ed together. -/
def orFlags (l : List Nat) : Nat := l.foldl (fun a b => a ||| b) 0

/-- Summary bits raised by operand values. -/
def flagsIn (xs : List Fv) : Nat := orFlags (xs.map inFlags)

/-- Cycles counted from issue to retire: the count the manual gives while operands are in the core store, and a free number
of waits (R122, R124, R149; log 16), saturating. -/
def cyclesOf (seed base : Nat) : Nat := min (2 ^ 32 - 1) (base + Sys2Proof.Config.freeNat seed)

/-- RESULT of a compute packet (R149). -/
def computeResult (exc cores cycles : Nat) : Nat := exc % 2 ^ 16 + 2 ^ 16 * (cores % 256) + 2 ^ 32 * min (2 ^ 32 - 1) cycles

/-- INFO flag of a corrected operand (R74, R144). -/
def eccInfo (info : Nat) : Nat := info ||| Inf.eccCorrected

end Sys2Proof.Machine
end

