-- ==== Sys2Proof/Machine/ConfigScope.lean ====
section
/-! DEFINITION. Commit scopes (R78 to R81): CONFIG_WRITE, CONFIG_READ, CONFIG_COMMIT, and every scope's checks at commit
(R31, R169, R278, R280, R304, R383, R396, R409, R424). -/

namespace Sys2Proof.Machine

/-! ### Which scope, and who (R78) -/

/-- The tenant behind a path is the tenant of context `ctx` (R45). -/
def State.tenantOf (s : State) (c : Caller) (path : Sys2Proof.Path) (ctx : Nat) : Bool :=
  match s.boundCtx path with
  | some b => decide (b = ctx)
  | none => match s.ctx? ctx with
    | some x => decide (x.fn = c.fn)
    | none => false

/-- Partition holding a QP channel (R336). -/
def State.channelPart (s : State) (ch : Nat) : Option (Nat × Partition) :=
  s.sched.partitions.find? (fun kv => decide (kv.2.state ≠ 0) && bit kv.2.qpMask ch)

def scopeIdOk (s : State) (kind id : Nat) : Bool :=
  match kind with
  | 0 => decide (id = 0)
  | 1 => decide (id < 16)
  | 2 => decide (id < 256)
  | 3 => decide (id < slotCount s.order)
  | 4 => decide (id < 4)
  | 5 => decide (id < 8)
  | _ => false

def scopeRole (s : State) (c : Caller) (path : Sys2Proof.Path) (kind id : Nat) : Bool :=
  match c.role, kind with
  | .owner, k => decide (k = 0)
  | .operator, _ => true
  | .tenant, 2 => s.tenantOf c path id
  | .tenant, 4 => match s.ingest.grids.get? id with
    | some g => s.tenantOf c path g.ctx
    | none => false
  | .tenant, 5 => match s.channelPart id with
    | some x => s.tenantOf c path x.2.ctx
    | none => false
  | .tenant, _ => false

def scopeExists (s : State) (kind id : Nat) : Bool :=
  match kind with
  | 1 => match s.sched.partitions.get? id with
    | some q => decide (q.state ≠ 0)
    | none => false
  | 2 => (s.ctx? id).isSome
  | 4 => s.ingest.grids.has id
  | _ => true

/-- The three scope checks of R78, in order. -/
def scopeChecks (s : State) (c : Caller) (path : Sys2Proof.Path) (kind id : Nat) : Option Nat :=
  firstFail [(!scopeIdOk s kind id, St.badParam), (!scopeRole s c path kind id, St.notPermitted), (!scopeExists s kind id, St.notFound)]

/-! ### Writing and reading words (R79) -/

/-- The RWL word of the slot scope, written at once (R277). -/
def liveWord (kind off : Nat) : Bool := decide (kind = 3 ∧ off = 4)

/-- A slot's ENABLE (R273). -/
def State.slotOn (s : State) (k : Nat) : Bool := bit (s.activeWord 3 k 4) 0

/-- Some slot on a CSI-2 port is enabled. -/
def State.csiEnabled (s : State) (die port : Nat) : Bool :=
  s.ingest.slots.any (fun kv => decide (kv.1 / 48 = die ∧ kv.2.cfg.iface = 1 ∧ kv.2.cfg.port = port) && s.slotOn kv.1)

/-- A port without an enabled slot gives up its classification (R468). -/
def State.declassify (s : State) : State :=
  { s with ingest := { s.ingest with csiPorts := s.ingest.csiPorts.filter (fun kv => s.csiEnabled (kv.1 / 12) (kv.1 % 12)) } }

/-- Setting ENABLE starts the clock model in ACQUIRING; clearing it freezes the model (R273), and a CSI-2 port with no
enabled slot left gives up its classification (R468). -/
def State.enableSlot (s : State) (slot : Nat) (on : Bool) : State :=
  let t := { s with ingest := { s.ingest with slots := s.ingest.slots.update slot (fun t =>
      if on then (if t.model.state = 0 then { t with model := { t.model with state := 1, first := true, count := 0, received := 0, rawValid := false },
                                                     tdmLen := none, tdmSeen := 0, nextDue := ceilDiv s.clock.now (max 1 t.cfg.nomPeriod) * max 1 t.cfg.nomPeriod } else t)
      else { t with model := { t.model with state := 0 } }) } }
  if on then t else t.declassify

def State.writeWord (s : State) (kind id off v : Nat) : State :=
  if liveWord kind off then ((s.setShadow kind id off v).setActive kind id off v).enableSlot id (bit v 0) else s.setShadow kind id off v

def writeWordsFrom (kind id : Nat) : Nat → List Nat → State → State
  | _, [], s => s
  | off, v :: r, s => writeWordsFrom kind id (off + 1) r (s.writeWord kind id off v)

/-- No reserved word or field is given a nonzero value (R6, R79). -/
def wordsOk (kind : Nat) : Nat → List Nat → Bool
  | _, [] => true
  | off, v :: r => decide (v &&& wordMask kind off = v) && wordsOk kind (off + 1) r

/-- ENABLE is not set on a slot with IFACE 0 (R278). -/
def enableOk (s : State) (kind id off : Nat) (ws : List Nat) : Bool :=
  if kind ≠ 3 ∨ 4 < off then true
  else match ws[4 - off]? with
    | some v => !bit v 0 || (match s.ingest.slots.get? id with
        | some t => decide (t.cfg.iface ≠ 0)
        | none => false)
    | none => true

/-- The words a CONFIG_WRITE carries. -/
def packetWords (p : Sys2Proof.Packet) (n : Nat) : List Nat := (List.range n).map (fun i => Packet.fld p (32 + 4 * i) 4)

def writeChecks (s : State) (kind id off : Nat) (ws : List Nat) : Option Nat :=
  firstFail [(decide (scopeWords kind < off + ws.length), St.badParam), (!wordsOk kind off ws, St.badParam), (!enableOk s kind id off ws, St.badParam)]

/-- DEDUCED: the bytes of the last slot past DATA are reserved, since no field holds them (R6, R61; log 94). -/
def configWriteChecks (c : Caller) (p : Sys2Proof.Packet) (s : State) : Option Nat :=
  let n := Packet.fld p 22 2
  firstFail
    [(decide (Packet.len p ≠ ceilDiv (32 + 4 * n) 64) || decide (4072 < n) || decide (Packet.fld p 17 1 ≠ 0 ∨ Packet.fld p 24 8 ≠ 0) ||
      !Packet.rsvZero p (32 + 4 * n) (64 * Packet.len p), St.badParam)]
  |>.orElse (fun _ => scopeChecks s c p.path (Packet.fld p 16 1) (Packet.fld p 18 2))
  |>.orElse (fun _ => writeChecks s (Packet.fld p 16 1) (Packet.fld p 18 2) (Packet.fld p 20 2) (packetWords p n))

def configWriteEffect (_ : Nat) (_ : Caller) (p : Sys2Proof.Packet) (s : State) : State × Reply :=
  let n := Packet.fld p 22 2
  if n = 0 then (s, .done St.ok Inf.zeroWork 0)
  else done0 (writeWordsFrom (Packet.fld p 16 1) (Packet.fld p 18 2) (Packet.fld p 20 2) (packetWords p n) s) 0

def configWriteBody : Body := checked configWriteChecks configWriteEffect

/-- CONFIG_WRITE (R79). -/
def execConfigWrite (p : Sys2Proof.Packet) (s : State) : Host.Outcome State Fault Refusal := .next (runPacket 0x10 configWriteBody p s)

def State.viewWord (s : State) (view kind id off : Nat) : Nat :=
  if view = 0 then s.shadowWord kind id off else s.activeWord kind id off

def configReadChecks (c : Caller) (p : Sys2Proof.Packet) (s : State) : Option Nat :=
  let n := Packet.fld p 22 2
  firstFail
    [(!shortOk p 32 || decide (1 < Packet.fld p 17 1) || decide (4072 < n), St.badParam), (decide (c.role = .owner ∧ Packet.fld p 24 8 ≠ 0), St.badParam)]
  |>.orElse (fun _ => scopeChecks s c p.path (Packet.fld p 16 1) (Packet.fld p 18 2))
  |>.orElse (fun _ => firstFail [(decide (scopeWords (Packet.fld p 16 1) < Packet.fld p 20 2 + n), St.badParam)])

def configReadEffect (_ : Nat) (c : Caller) (p : Sys2Proof.Packet) (s : State) : State × Reply :=
  let n := Packet.fld p 22 2
  let bs := ((List.range n).map (fun i => toLe 4 (s.viewWord (Packet.fld p 17 1) (Packet.fld p 16 1) (Packet.fld p 18 2) (Packet.fld p 20 2 + i)))).flatten
  if n = 0 then (s, .done St.ok Inf.zeroWork 0)
  else if c.role = .owner then (s, .full St.ok 0 0 none [] [bs])
  else (s, .full St.ok 0 0 none [(hostKey c.fn (Packet.fld p 24 8), bs)] [])

def configReadBody : Body := checked configReadChecks configReadEffect

/-- CONFIG_READ (R79). -/
def execConfigRead (p : Sys2Proof.Packet) (s : State) : Host.Outcome State Fault Refusal := .next (runPacket 0x11 configReadBody p s)

/-! ### Checks at commit: each answers the word offset of the first failing field -/

def failAt : List (Bool × Nat) → Option Nat := firstFail

def finiteCode (w : Nat) : Bool := decide (bits w 30 23 ≠ 255)
def positiveCode (w : Nat) : Bool := finiteCode w && !bit w 31 && decide (w ≠ 0)

def deviceRange (w : Nat → Nat) : Option Nat :=
  failAt [(decide (bits (w 0) 12 0 < 250 ∨ 4000 < bits (w 0) 12 0), 0), (decide (bits (w 1) 31 30 = 3), 1),
    (decide (bits (w 1) 7 0 < 1 ∨ 200 < bits (w 1) 7 0), 1), (decide (bits (w 2) 7 0 < 40 ∨ 150 < bits (w 2) 7 0), 2),
    (decide (3 < bits (w 3) 7 4), 3), (decide (bits (w 4) 15 0 < 100 ∨ 60000 < bits (w 4) 15 0), 4),
    (decide (bits (w 0x10) 15 0 ≠ 0) && decide (bits (w 0x10) 15 0 < 10 ∨ 10000 < bits (w 0x10) 15 0), 0x10)]

def devicePairs (w : Nat → Nat) : Option Nat :=
  failAt [(decide (bits (w 0) 12 0 ≤ bits (w 0) 28 16), 0), (bit (w 3) 0 && decide (bits (w 3) 7 4 < 3), 3)]

/-- FRAME_CFG or ROLE changes while a control-class partition is active or PARKED is not declared (R31). -/
def State.deviceParked (s : State) (w : Nat → Nat) : Option Nat :=
  let free := s.clock.parked && !s.controlActive
  failAt [(!free && decide (w 0 ≠ s.dueWord 0 0 0), 0), (!free && decide (bits (w 1) 31 30 ≠ bits (s.dueWord 0 0 1) 31 30), 1)]

def popBits (n v : Nat) : Nat := ((List.range n).filter (bit v)).length

/-- Slot mask of a partition as its pending commits will leave it (R169). -/
def State.dueMask (s : State) (p : Nat) : Nat := s.dueWord 1 p 0x10 + 2 ^ 32 * s.dueWord 1 p 0x11

/-- Tier-2 bytes a frame that the armed jobs of a partition declare, a pair counting twice (R345). -/
def State.armedBytes (s : State) (p : Nat) : Nat :=
  ((s.sched.jobs.filter (fun kv => decide (kv.2.part = p))).map (fun kv => (if kv.2.pair then 2 else 1) * kv.2.t2Bytes)).foldl (· + ·) 0

/-- `k` slots carry `bytes` a frame: S x 4,096 x n x P / 1,000 (R345). -/
def State.slotsCarry (s : State) (k bytes : Nat) : Bool := decide (bytes * 1000 ≤ k * 4096 * (stacksOf s.order).length * s.period)

/-- A mask of `k` slots still fits the partition's armed declarations (R361). -/
def State.armedFit (s : State) (p k : Nat) : Bool := s.slotsCarry k (s.armedBytes p)

def State.partitionPairs (s : State) (id : Nat) (w : Nat → Nat) : Option Nat :=
  let m := w 0x10 + 2 ^ 32 * w 0x11
  let others := (Tab.keysWhere s.sched.partitions (fun k q => decide (k ≠ id) && decide (q.state ≠ 0))).map s.dueMask
  let all := others.foldl (fun a b => a ||| b) m
  let cls := match s.sched.partitions.get? id with
    | some q => q.cls
    | none => 3
  failAt [(others.any (fun x => decide (x &&& m ≠ 0)), 0x10),
    (decide (cls = 0) && decide (m ≠ 0) && decide (popBits 49 m < 16 / (stacksOf s.order).length), 0x10),
    (decide (49 - popBits 49 all < 4), 0x10), (!s.armedFit id (popBits 49 m), 0x10)]

def p384p : Nat := 2 ^ 384 - 2 ^ 128 - 2 ^ 96 + 2 ^ 32 - 1
def p384b : Nat := 0xb3312fa7e23ee7e4988e056be3f82d19181d9c6efe8141120314088f5013875ac656398d8a2ed19d2a85c8edd3ec2aef

/-- A point of P-384 (R396). -/
def onCurve (x y : Nat) : Bool :=
  decide (x < p384p) && decide (y < p384p) && decide ((y * y) % p384p = (x * x * x + (p384p - 3) * x + p384b) % p384p)

/-- Bytes of words `off` on. -/
def wordBytes (w : Nat → Nat) (off n : Nat) : List Byte := ((List.range n).map (fun i => toLe 4 (w (off + i)))).flatten

def entryX (w : Nat → Nat) (e : Nat) : Nat := beNat (wordBytes w (0x41 + 32 * e) 12)
def entryY (w : Nat → Nat) (e : Nat) : Nat := beNat (wordBytes w (0x4D + 32 * e) 12)

def contextRange (w : Nat → Nat) : Option Nat :=
  failAt ((List.range 8).map (fun e => (decide (2 < w (0x40 + 32 * e)), 0x40 + 32 * e)))

def contextPairs (w : Nat → Nat) : Option Nat :=
  failAt ((List.range 8).map (fun e =>
    (if w (0x40 + 32 * e) = 0 then decide (entryX w e ≠ 0 ∨ entryY w e ≠ 0) else !onCurve (entryX w e) (entryY w e), 0x40 + 32 * e)))

def slotRange (w : Nat → Nat) : Option Nat :=
  failAt ([(decide (bits (w 0) 11 8 = 0 ∨ 8 < bits (w 0) 11 8 ∨ 8 < bits (w 0) 19 16), 0), (decide (1000000000 < w 1), 1),
    (!finiteCode (w 3), 3), (decide (256 < w 5), 5), (decide (1 < w 0x40), 0x40)] ++
    -- FX and FY of a camera model in use (log 15)
    (if w 0x40 = 1 then [(!positiveCode (w 0x41), 0x41), (!positiveCode (w 0x42), 0x42)]
     else [(!finiteCode (w 0x41), 0x41), (!finiteCode (w 0x42), 0x42)]) ++
    (List.range 256).map (fun e => (decide (4 < bits (w (0x100 + 4 * e)) 23 16), 0x100 + 4 * e)))

/-- Rows of ROT form an orthonormal set to 2^-16 in every product (R278). -/
def rotOk (w : Nat → Nat) : Bool :=
  let at_ : Nat → Nat → Fv := fun i j => f32 (w (0x4D + 3 * i + j))
  (List.range 3).all (fun i => (List.range 3).all (fun j =>
    let d := ((((at_ i 0).mul (at_ j 0)).add ((at_ i 1).mul (at_ j 1))).add ((at_ i 2).mul (at_ j 2))).sub (if i = j then .one else .zero)
    d.abs.le (.fin false 1 (-16))))

def vecSize (type : Nat) : Nat := if type < 2 then 2 else 4

def State.slotPairs (s : State) (id : Nat) (w : Nat → Nat) : Option Nat :=
  match s.ingest.slots.get? id with
  | none => failAt [(decide (w 5 ≠ 0), 5), (decide (w 0x40 = 1), 0x40)]
  | some t => failAt ([(decide (w 5 ≠ 0) && decide (t.cfg.iface ≠ 3 ∧ t.cfg.iface ≠ 5), 5), (decide (w 0x40 = 1) && decide (t.cfg.iface ≠ 1), 0x40),
      (decide (w 0x40 = 1) && !rotOk w, 0x4D),
      (decide (w 0x40 = 1) && decide (bits (w 0x59) 15 0 ≠ t.cfg.w ∨ bits (w 0x59) 31 16 ≠ t.cfg.h), 0x59)] ++
      (List.range (w 5)).map (fun e => (decide (t.cfg.w < bits (w (0x100 + 4 * e)) 15 0 + vecSize (bits (w (0x100 + 4 * e)) 23 16)), 0x100 + 4 * e)))

def gridRange (w : Nat → Nat) : Option Nat :=
  failAt [(!positiveCode (w 0), 0), (!finiteCode (w 1), 1), (!finiteCode (w 2), 2), (!finiteCode (w 3), 3), (!finiteCode (w 4), 4), (decide (8 < w 5), 5)]

/-- Not negative and finite (R304). -/
def tolerance (w : Nat) : Bool := finiteCode w && (!bit w 31 || decide (w = 0x80000000))

def qpRange (w : Nat → Nat) : Option Nat :=
  failAt [(!positiveCode (w 0), 0), (decide (w 1 < 0x358637BD ∨ 0x49742400 < w 1), 1), (!(positiveCode (w 2) && decide (w 2 < 0x40000000)), 2),
    (!tolerance (w 3), 3), (!tolerance (w 4), 4), (decide (bits (w 5) 7 0 = 0), 5)]

def rangeCheck (kind : Nat) (w : Nat → Nat) : Option Nat :=
  match kind with
  | 0 => deviceRange w
  | 2 => contextRange w
  | 3 => slotRange w
  | 4 => gridRange w
  | 5 => qpRange w
  | _ => none

def State.pairCheck (s : State) (kind id : Nat) (w : Nat → Nat) : Option Nat :=
  match kind with
  | 0 => devicePairs w
  | 1 => s.partitionPairs id w
  | 2 => contextPairs w
  | 3 => s.slotPairs id w
  | _ => none

/-- The words of a scope that a commit carries: those not reserved and not live. -/
def commitWords (kind : Nat) : List Nat := (List.range (scopeWords kind)).filter (fun o => decide (wordMask kind o ≠ 0) && !liveWord kind o)

/-- Outcome of a commit: status, INFO and RESULT (R80). -/
structure CommitReply where
  status : Nat
  info : Nat
  result : Nat
deriving DecidableEq, Repr

/-- The checks of R80 and R81, in order. -/
def State.commitCheck (s : State) (kind id : Nat) : CommitReply :=
  let w := s.shadowWord kind id
  match rangeCheck kind w, s.pairCheck kind id w, (if kind = 0 then s.deviceParked w else none) with
  | some o, _, _ => ⟨St.badParam, 0, o⟩
  | none, some o, _ => ⟨St.configMismatch, 0, o⟩
  | none, none, some o => ⟨St.notParked, 0, o⟩
  | none, none, none =>
    if (commitWords kind).all (fun o => decide (w o = s.dueWord kind id o)) then
      ⟨St.ok, Inf.zeroWork, match (s.scopes.pending.filter (fun c => c.scope = ⟨kind, id⟩)).getLast? with
        | some c => c.frame
        | none => s.frameNo⟩
    else if 32 ≤ s.scopes.pending.length then ⟨St.noResource, 0, 0⟩
    else ⟨St.ok, 0, s.dueFrame⟩

/-- A commit as R80, R81 and R32 state: an accepted one waits for its edge in the commit hardware. DESIGN CHOICE: one that
completes with ZERO_WORK counts neither as accepted nor as rejected (log 94). -/
def State.commit (s : State) (kind id : Nat) : State × CommitReply :=
  let r := s.commitCheck kind id
  if r.status ≠ 0 then (s.acc (fun a => { a with commitsRejected := a.commitsRejected + 1 }), r)
  else if r.info ≠ 0 then (s, r)
  else
    let c : Commit := ⟨⟨kind, id⟩, r.result, (commitWords kind).map (fun o => (o, s.shadowWord kind id o))⟩
    (State.acc { s with scopes := { s.scopes with pending := s.scopes.pending ++ [c] } } (fun a => { a with commitsAccepted := a.commitsAccepted + 1 }), r)

def configCommitChecks (c : Caller) (p : Sys2Proof.Packet) (s : State) : Option Nat :=
  firstFail [(!shortOk p 20 || decide (Packet.fld p 17 1 ≠ 0), St.badParam)]
  |>.orElse (fun _ => scopeChecks s c p.path (Packet.fld p 16 1) (Packet.fld p 18 2))

def configCommitEffect (_ : Nat) (_ : Caller) (p : Sys2Proof.Packet) (s : State) : State × Reply :=
  let r := s.commit (Packet.fld p 16 1) (Packet.fld p 18 2)
  (r.1, .done r.2.status r.2.info r.2.result)

def configCommitBody : Body := checked configCommitChecks configCommitEffect

/-- CONFIG_COMMIT (R80, R81). -/
def execConfigCommit (p : Sys2Proof.Packet) (s : State) : Host.Outcome State Fault Refusal := .next (runPacket 0x12 configCommitBody p s)

end Sys2Proof.Machine
end

