-- ==== Sys2Proof/Machine/Pages.lean ====
section
/-! DEFINITION. Providing and freeing tier-2 pages (R161 to R163): the space left, hot-set eviction (R357), victim
sequences (R205), and page frames zero-filled and retired as they are freed (R264, R447). -/

namespace Sys2Proof.Machine

/-- Space in half frames on CD0 and CD1: a device-wide page takes one half on each, a die-local page two on its die. -/
structure Halves where
  a : Nat
  b : Nat
deriving DecidableEq, Repr

def Halves.zero : Halves := ⟨0, 0⟩
def Halves.add (x y : Halves) : Halves := ⟨x.a + y.a, x.b + y.b⟩
def Halves.le (x y : Halves) : Bool := decide (x.a ≤ y.a ∧ x.b ≤ y.b)

/-- What `n` pages of a home set take (R163). -/
def halvesOf (home n : Nat) : Halves := if home = 1 then ⟨2 * n, 0⟩ else if home = 2 then ⟨0, 2 * n⟩ else ⟨n, n⟩

def sumHalves (l : List Halves) : Halves := l.foldl Halves.add Halves.zero

/-- All tier 2 but the device reserve and the retired frames (R161, R447); 256 MiB of the reserve on the
stacks of each compute die (DESIGN CHOICE, log 115). -/
def State.t2Capacity (s : State) : Halves :=
  let die : Nat → Nat := fun d => ((stacksOf s.order).filter (fun n => decide (n / 4 = d))).length * 524288 - 8192 -
    2 * ((s.rel.retired.filter (fun kv => decide (kv.1 / 4 = d))).map (fun kv => kv.2.length)).foldl (· + ·) 0
  ⟨die 0, die 1⟩

def State.t2Used (s : State) : Halves := sumHalves (s.framesUsed.map (fun x => halvesOf x.2 1))

/-- Room for `need` beyond the pages in use, after `freed` is given back. -/
def State.t2Room (s : State) (need freed : Halves) : Bool := (s.t2Used.add need).le (s.t2Capacity.add freed)

/-- Resident pages of a sequence. -/
def Seq.resident (q : Seq) : Halves := sumHalves ((q.pages.filter (fun x => decide (x.2.state = 1))).map (fun x => halvesOf x.2.home 1))

/-- Pages mapped for a model. -/
def State.modelPages (s : State) (m : Model) : List (Nat × Page) :=
  match s.tiers.pages.get? m.ctx with
  | none => []
  | some t => t.filter (fun x => decide (x.2.base = m.base) && decide (m.base ≤ x.1 ∧ x.1 * 65536 < m.base * 65536 + m.bytes))

def insertBy {α : Type} (before : α → α → Bool) (x : α) : List α → List α
  | [] => [x]
  | y :: r => if before y x then y :: insertBy before x r else x :: y :: r

def sortBy {α : Type} (before : α → α → Bool) (l : List α) : List α := l.foldl (fun acc x => insertBy before x acc) []

/-- A context holds a control-class partition (R184, R357). -/
def State.ctlContext (s : State) (c : Nat) : Bool := match s.partOf c with
  | some x => decide (x.2.cls = 0)
  | none => false

/-- Shared tier-2 slots idle at E3: what Hearth moves for a context without a control-class partition waits (R438). -/
def State.sharedIdle (s : State) (c : Nat) : Bool := decide (3 ≤ s.power.applied) && !s.ctlContext c

/-- Models that hot-set eviction may take, least recently used first: none that a running stream takes its image or its
schedule from (R357). -/
def State.evictable (s : State) : List (Nat × Model) :=
  sortBy (fun x y => decide (x.2.lastUse ≤ y.2.lastUse)) (s.sched.models.filter (fun kv =>
    decide (kv.2.state = 1) && !kv.2.pinned && !s.ctlContext kv.2.ctx &&
    !s.tiers.bellows.any (fun b => decide (b.2.ctx = kv.2.ctx) && 
      [b.2.image, b.2.sched].any (fun a => decide (kv.2.base * 65536 ≤ a ∧ a < kv.2.base * 65536 + kv.2.bytes)))))

/-- Victim sequences of a request, in the order they are taken (R205). -/
def State.victims (s : State) (prio : Nat) (own : Option Nat) : List (Nat × Seq) :=
  sortBy (fun x y => decide (x.2.prio < y.2.prio) || (decide (x.2.prio = y.2.prio) && decide (x.2.lastUse ≤ y.2.lastUse)))
    (s.kv.seqs.filter (fun kv => decide (kv.2.state = 1) && kv.2.swappable && decide (own ≠ some kv.1) && decide (kv.2.prio < prio)))

/-- Take from a list until the room is there. -/
def takeRoom {α : Type} (room : Halves → Bool) (gives : α → Halves) : List α → Halves → List α × Halves
  | [], f => ([], f)
  | x :: r, f => if room f then ([], f) else
      let t := takeRoom room gives r (f.add (gives x))
      (x :: t.1, t.2)

/-! ### Freeing -/

/-- Zero frames that are given back, and retire those condemned (R264, R446, R447). -/
def State.freeFrames (s : State) (fs : List Nat) : State :=
  fs.foldl (fun s f =>
    let s := s.zeroFill .tier2 (f * 65536) 65536
    let s := { s with tiers := { s.tiers with codebooks := s.tiers.codebooks.mapVals (fun _ l => l.filter (fun x => decide (x.1 / 65536 ≠ f))) } }
    (s.rel.retireOnFree.filter (fun x => decide (x.2 = f))).foldl (fun s x =>
      State.retireFrame { s with rel := { s.rel with retireOnFree := s.rel.retireOnFree.filter (fun y => y ≠ x) } } x.1 x.2) s) s

/-- Unmap the pages of a context that belong to an allocation, and free them. -/
def State.unmapBase (s : State) (c base : Nat) : State :=
  match s.tiers.pages.get? c with
  | none => s
  | some t =>
    let gone := t.filter (fun x => decide (x.2.base = base))
    let rest := t.filter (fun x => decide (x.2.base ≠ base))
    State.freeFrames { s with tiers := { s.tiers with pages := if rest.isEmpty then s.tiers.pages.erase c else s.tiers.pages.set c rest } }
      (gone.map (fun x => x.2.frame))

/-- Evict a model: pages freed, range kept, MODEL_EVICTED posted (R357). -/
def State.evictModel (s : State) (h : Nat) (m : Model) : State :=
  let s := s.unmapBase m.ctx m.base
  let s := { s with sched := { s.sched with models := s.sched.models.set h { m with state := 2 } } }
  s.post ⟨0x32, 3, 0, some m.ctx, m.ctx, h⟩

/-- Sequence that a KV packet names (R189, R192, R194, R202, R207, R208, R211). -/
def kvSeqOf (code : Nat) (p : Sys2Proof.Packet) : Option Nat :=
  if code = 0x400 ∨ code = 0x401 ∨ (0x403 ≤ code ∧ code ≤ 0x407) then some (Packet.fld p 16 2) else none

/-- A held-back operation that a pre-emption completes with BUSY, and a KV_APPEND that waits for pages; one already dispatched goes
on (R205). -/
def heldOnSeq (q : Nat) (f : Flight) : Bool := f.parked && decide (kvSeqOf f.opcode f.pkt = some q) && (f.held || (f.pages && decide (f.opcode = 0x404)))

/-- Mark a victim PREEMPTING (R205). -/
def State.preempt (s : State) (q : Nat) : State :=
  let s := { s with kv := { s.kv with seqs := s.kv.seqs.update q (fun x => { x with state := 2 }) } }
  (s.proto.flights.filter (heldOnSeq q)).foldl (fun s f => s.finish f.id St.busy 0 2) s

/-! ### Providing (R162, R205, R357) -/

/-- What a request for pages meets. -/
inductive Provision where
  /-- The pages are there, after any eviction. -/
  | ready (s : State)
  /-- It waits for pages that are being freed. -/
  | wait (s : State)
  /-- It fails: OUT_OF_TIER2, and nothing changed. -/
  | never

/-- An earlier request still waits for pages: requests are served in the order they were made (R205). -/
def State.pagesAhead (s : State) (id : Nat) : Bool :=
  let mine := match s.flight? id with
    | some f => if f.parked && f.pages then f.asked else s.nextAsk
    | none => s.nextAsk
  s.proto.flights.any (fun f => f.parked && f.pages && decide (f.asked < mine))

/-- Ask for pages with a priority: 16, or the PRIO of the sequence that asks (R205). -/
def State.provide (s : State) (id prio : Nat) (own : Option Nat) (need : Halves) : Provision :=
  if need = Halves.zero then .ready s
  else if s.pagesAhead id then .wait s
  else if s.t2Room need Halves.zero then .ready s
  else
    let coming := sumHalves ((s.kv.seqs.filter (fun kv => decide (kv.2.state = 2))).map (fun kv => kv.2.resident))
    if s.t2Room need coming then .wait s
    else
      let m := takeRoom (s.t2Room need) (fun (x : Nat × Model) => sumHalves ((s.modelPages x.2).map (fun y => halvesOf y.2.home 1))) s.evictable coming
      let v := takeRoom (s.t2Room need) (fun (x : Nat × Seq) => x.2.resident) (s.victims prio own) m.2
      if !s.t2Room need v.2 then .never
      else
        let s := m.1.foldl (fun s x => s.evictModel x.1 x.2) s
        let s := v.1.foldl (fun s x => s.preempt x.1) s
        if s.t2Room need Halves.zero then .ready s else .wait s

/-- `n` free frames: any not in use and not retired (log 4). -/
def takeFrames (total : Nat) : Nat → Nat → List Nat → List Nat
  | 0, _, _ => []
  | n + 1, seed, used => match pickFree seed total used with
    | none => []
    | some f => f :: takeFrames total n (seed + 1) (f :: used)

def State.newFrames (s : State) (n : Nat) : List Nat :=
  takeFrames ((stacksOf s.order).length * 262144) n s.fresh (s.framesUsed.map (·.1) ++ (s.rel.retired.map (·.2)).flatten)

/-! ### Address space -/

/-- Where `n` pages can start in a context's space: behind an allocation, or at its first page. -/
def State.placesFor (s : State) (c n : Nat) : List Nat :=
  let mine := s.tiers.allocs.filter (fun a => decide (a.ctx = c))
  (0 :: mine.map (fun a => a.base + a.pages)).filter (fun b => decide (b + n ≤ 2 ^ 32) &&
    mine.all (fun a => decide (b + n ≤ a.base ∨ a.base + a.pages ≤ b)))

/-- Pages a context holds in tier 2: mapped ones and resident KV pages (R182, R336). -/
def State.ctxPages (s : State) (c : Nat) : Nat :=
  (match s.tiers.pages.get? c with
   | some t => t.length
   | none => 0) +
  ((s.kv.seqs.filter (fun kv => decide (kv.2.ctx = c))).map (fun kv => (kv.2.pages.filter (fun x => decide (x.2.state ≠ 2))).length)).foldl (· + ·) 0

/-- `n` more pages stay within the ceiling of the context's partition (R336). -/
def State.underCeiling (s : State) (c n : Nat) : Bool := match s.partOf c with
  | some x => decide (s.ctxPages c + n ≤ x.2.t2CeilGib * 16384)
  | none => true

/-- Map pages at a base. Every page of a free frame is zero. -/
def State.mapPages (s : State) (c base n home : Nat) (readOnly : Bool) : State :=
  let fs := s.newFrames n
  let t := (s.tiers.pages.get? c).getD []
  let t := ((List.range n).zip fs).foldl (fun t x => Tab.set t (base + x.1) (Page.mk x.2 home readOnly false base)) t
  { s with tiers := { s.tiers with pages := s.tiers.pages.set c t }, fresh := s.fresh + n }

/-- A new allocation with its pages; its base page. -/
def State.allocPages (s : State) (c n home : Nat) (readOnly : Bool) : Option (State × Nat) :=
  let l := s.placesFor c n
  match l[Sys2Proof.Config.pick s.fresh % max 1 l.length]? with
  | none => none
  | some base =>
    let s := s.bump
    let s := { s with tiers := { s.tiers with allocs := s.tiers.allocs ++ [Alloc.mk c base n home none] } }
    some (s.mapPages c base n home readOnly, base)

end Sys2Proof.Machine
end

