-- ==== Sys2Proof/Machine/Swage.lean ====
section
/-! DEFINITION. The Swage: packed records, codebooks and their decoding (R98 to R105, R179 to R181), and the layer schedule
(R174). -/

namespace Sys2Proof.Machine

/-- A reader of a context's tier 2. -/
def State.t2Reader (s : State) (c addr : Nat) : Reader := fun i => match s.phys? c (addr + i) with
  | some k => s.stores.tier2.read k
  | none => 0

def readN (rd : Reader) (off n : Nat) : List Byte := (List.range n).map (fun i => rd (off + i))

/-- Uncorrectable lines in a range of a context's tier 2: the physical key of the first. -/
def State.t2Poison (s : State) (c addr n : Nat) : Option Nat :=
  (s.stores.poison.find? (fun x => decide (x.1 = .tier2) && (pageSpan addr n).any (fun v => match s.page? c v with
    | some g => decide (x.2 * 64 / 65536 = g.frame) && decide (v * 65536 + x.2 * 64 % 65536 < addr + n ∧ addr < v * 65536 + x.2 * 64 % 65536 + 64)
    | none => false))).map (fun x => x.2 * 64)

/-- A read of a range of tier 2 that met a poisoned line (R446). -/
def State.rereadT2 (s : State) (c addr n : Nat) : State := s.reread ((s.t2Poison c addr n).map (fun k => (.tier2, k)))

/-! ### Packed records (R179) -/

/-- The header of a packed record. -/
structure Rec where
  fmt : Nat
  kind : Nat
  out4k : Nat
  rows : Nat
  cols : Nat
  splane : Nat
  bytes : Nat
  originRow : Nat
  originCol : Nat
  codebook : Nat
deriving DecidableEq, Repr

def Rec.of (rd : Reader) : Rec :=
  ⟨readLe rd 0 1, readLe rd 1 1, readLe rd 2 1, readLe rd 4 4, readLe rd 8 4, readLe rd 16 4, readLe rd 20 4, readLe rd 24 4, readLe rd 28 4, readLe rd 32 8⟩

/-- Stored K, valid rows or columns, and the rows of a panel. -/
def Rec.k (r : Rec) : Nat := if r.kind = 1 then r.cols else r.rows
def Rec.valid (r : Rec) : Nat := if r.kind = 1 then r.rows else r.cols
def Rec.panel (r : Rec) : Nat := if r.kind = 1 then 64 else 32
/-- Bytes of a CB block (R98). -/
def Rec.block (r : Rec) : Nat := if r.fmt = 0x0A then 16 else 24
def Rec.blocks (r : Rec) : Nat := r.k / 64 * r.valid

/-- SPLANE of the tile a record decodes to (R179). -/
def Rec.outScale (r : Rec) : Nat := roundUp (64 + r.k / 32 * (r.panel * 32)) 64

/-- The header is consistent within itself (R179, R181). -/
def Rec.ok (r : Rec) (rd : Reader) : Bool :=
  decide (r.fmt = 0x0A ∨ r.fmt = 0x0B) && decide (r.kind = 1 ∨ r.kind = 2) && decide (1 ≤ r.out4k ∧ r.out4k ≤ 64) && decide (readLe rd 3 1 = 0) &&
  decide (readLe rd 12 4 = 64) && decide (r.k ≠ 0 ∧ r.k % 64 = 0) && decide (1 ≤ r.valid ∧ r.valid ≤ r.panel) &&
  decide (r.splane % 64 = 0 ∧ 64 + r.blocks * r.block ≤ r.splane ∧ r.splane + r.blocks ≤ r.bytes) &&
  decide (r.bytes % 64 = 0 ∧ r.bytes ≤ 262144) && decide (r.outScale + r.k / 32 * r.panel ≤ r.out4k * 4096) &&
  decide (r.codebook % 4096 = 0 ∧ r.codebook < 2 ^ 48) && allZero (readN rd 40 24)

/-! ### Codebooks (R99, R100, R180) -/

def entriesOf (kind : Nat) : Nat := if kind = 0x0A then 256 else 4096

/-- Bytes of a codebook object. -/
def codebookBytes (kind : Nat) : Nat := 64 + 4 * entriesOf kind

/-- CRC over the entry bytes (R99). -/
def codebookCrc (bs : List Byte) : Bool := decide (crc32 (bs.drop 64) = fieldAt bs 12 4)

/-- An entry byte is no E4M3 NaN, no E5M2 infinity or NaN (R100). -/
def entryOk (elem : Nat) (b : Byte) : Bool := if elem = 2 then decide (b.toNat % 128 ≠ 127) else decide (b.toNat % 128 < 124)

/-- The checks of MODEL_REGISTER on a codebook (R100). -/
def codebookOk (bs : List Byte) : Bool :=
  let kind := fieldAt bs 0 1
  let elem := fieldAt bs 1 1
  decide (kind = 0x0A ∨ kind = 0x0B) && decide (elem = 2 ∨ elem = 3) && decide (fieldAt bs 4 4 = entriesOf kind) && decide (fieldAt bs 2 2 = 0) &&
  allZero (sliceAt bs 16 48) && (bs.drop 64).all (entryOk elem) && codebookCrc bs

/-- Bytes of entries the buffer takes for a codebook (R105). -/
def heldBytes (l : List (Nat × List Byte)) : Nat := (l.map (fun x => x.2.length - 64)).foldl (· + ·) 0

/-- Keep the most recently used codebooks that fit 128 KiB (R180). -/
def trimCodebooks : Nat → List (Nat × List Byte) → List (Nat × List Byte)
  | 0, l => l
  | k + 1, l => if 131072 < heldBytes l then trimCodebooks k l.dropLast else l

/-- The codebook in the buffer of a cluster's Swage, loaded and checked when it is not there (R100, R180): none on a CRC
mismatch, an unmapped object or an uncorrectable line. -/
def State.codebook (s : State) (cluster c addr kind : Nat) : State × Option (List Byte) :=
  let n := codebookBytes kind
  match s.phys? c addr with
  | none => (s, none)
  | some key =>
    let l := (s.tiers.codebooks.get? cluster).getD []
    let hit := (l.find? (fun x => decide (x.1 = key ∧ x.2.length = n))).map (·.2)
    let load := if s.t2Mapped c addr n && (s.t2Poison c addr n).isNone then
        (let bs := s.t2Read c addr n
         if codebookCrc bs && decide (fieldAt bs 0 1 = kind) && decide (fieldAt bs 1 1 = 2 ∨ fieldAt bs 1 1 = 3) then some bs else none)
      else none
    match hit.orElse (fun _ => load) with
    | none => (match s.t2Poison c addr n with
        | some a => s.uncorrectable .tier2 a
        | none => s, none)
    | some bs =>
      let l := trimCodebooks l.length ((key, bs) :: l.filter (fun x => decide (x.1 ≠ key)))
      ({ s with tiers := { s.tiers with codebooks := s.tiers.codebooks.set cluster l } }, some bs)

/-- Index `j` of the CB block that starts at a byte (R98). -/
def cbIndex (fmt : Nat) (rd : Reader) (at_ j : Nat) : Nat :=
  if fmt = 0x0A then (rd (at_ + j)).toNat else readBits rd (at_ * 8 + 12 * j) 12

/-- The tile a record decodes to (R104, R179): two MXFP8 panels for each pair, with the CB block's scale in both. -/
def decodeRecord (r : Rec) (rd : Reader) (cb : List Byte) : List Byte :=
  let elem : Nat → Nat → Nat → Byte := fun g row i =>
    if row < r.valid then
      let b := g / 2 * r.valid + row
      let e := g % 2 * 32 + i
      cb.getD (64 + 4 * cbIndex r.fmt rd (64 + b * r.block) (e / 4) + e % 4) 0
    else 0
  let scale : Nat → Nat → Byte := fun g row => if row < r.valid then rd (r.splane + g / 2 * r.valid + row) else 0
  let panels := r.k / 32
  let head := toLe 1 (fieldAt cb 1 1 + 2) ++ toLe 1 r.kind ++ toLe 1 r.out4k ++ toLe 1 3 ++ toLe 4 r.rows ++ toLe 4 r.cols ++ toLe 4 64 ++
    toLe 4 r.outScale ++ toLe 4 0 ++ toLe 4 r.originRow ++ toLe 4 r.originCol ++ zeros 32
  let body := ((List.range panels).map (fun g => ((List.range r.panel).map (fun row => (List.range 32).map (elem g row))).flatten)).flatten
  let sc := ((List.range panels).map (fun g => (List.range r.panel).map (scale g))).flatten
  head ++ body ++ zeros (r.outScale - 64 - body.length) ++ sc ++ zeros (r.out4k * 4096 - r.outScale - sc.length)

/-- A word of a cluster's codebook buffer came out wrong: the codebook is loaded again (R444). -/
def State.dropCodebook (s : State) (cluster c addr : Nat) : State :=
  match s.phys? c addr with
  | none => s
  | some key => { s with tiers := { s.tiers with codebooks := s.tiers.codebooks.update cluster (fun l => l.filter (fun x => decide (x.1 ≠ key))) } }

/-- Pass one record through a Swage: its header and the decoded tile, or the status that the read ends with: NOT_FOUND where a page of
an EVICTED model is read, otherwise MEM_UNCORRECTABLE (R181, R356). DESIGN CHOICE: a record on unmapped tier 2 is one that is
inconsistent within itself (log 99). -/
def State.swage (s : State) (cluster c addr : Nat) : State × Except Nat (Rec × List Byte) :=
  let rd := s.t2Reader c addr
  let r := Rec.of rd
  if s.t2Evicted c addr 64 then (s, .error St.notFound)
  else if !s.t2Mapped c addr 64 || !r.ok rd then (s, .error St.memUncorrectable)
  else if s.t2Evicted c addr r.bytes || s.t2Evicted c r.codebook (codebookBytes r.fmt) then (s, .error St.notFound)
  else if !s.t2Mapped c addr r.bytes then (s, .error St.memUncorrectable)
  else match s.t2Poison c addr r.bytes with
  | some a => (s.uncorrectable .tier2 a, .error St.memUncorrectable)
  | none =>
    match s.codebook cluster c r.codebook r.fmt with
    | (t, none) => (t, .error St.memUncorrectable)
    | (t, some cb) => (t, .ok (r, decodeRecord r rd cb))

/-! ### Layer schedules (R174) -/

/-- The header of a layer schedule. -/
structure Sched4 where
  clusters : Nat
  layers : Nat
  maxLayer : Nat
  firsts : List Nat
  counts : List Nat
deriving DecidableEq, Repr

/-- One entry. -/
structure SEntry where
  src : Nat
  layer : Nat
  srcBytes : Nat
  out4k : Nat
  consumers : Nat
  decode : Bool
deriving DecidableEq, Repr

def Sched4.of (rd : Reader) : Sched4 :=
  ⟨readLe rd 2 2, readLe rd 4 4, readLe rd 8 4, (List.range 8).map (fun p => readLe rd (16 + 8 * p) 4), (List.range 8).map (fun p => readLe rd (20 + 8 * p) 4)⟩

def entryAt (rd : Reader) (i : Nat) : SEntry :=
  let o := 128 + 16 * i
  ⟨readLe rd o 6, readLe rd (o + 6) 2, readLe rd (o + 8) 4, readLe rd (o + 12) 1, readLe rd (o + 13) 1, bit (readLe rd (o + 14) 1) 0⟩

/-- Entry `i` of the tile list of position `p`. -/
def Sched4.entry (h : Sched4) (rd : Reader) (p i : Nat) : SEntry := entryAt rd (h.firsts.getD p 0 + i)

def Sched4.entries (h : Sched4) (rd : Reader) (p : Nat) : List SEntry := (List.range (h.counts.getD p 0)).map (h.entry rd p)

/-- Bytes of a schedule: its header and its last entry. -/
def Sched4.bytes (h : Sched4) : Nat := 128 + 16 * ((List.range 8).map (fun p => h.firsts.getD p 0 + h.counts.getD p 0)).foldl max 0

def Sched4.headOk (h : Sched4) (rd : Reader) : Bool :=
  decide (readLe rd 0 2 = 1) && decide (1 ≤ h.clusters ∧ h.clusters ≤ 8) && decide (1 ≤ h.layers ∧ h.layers ≤ 65536) && decide (readLe rd 12 4 = 0) &&
  allZero (readN rd 80 48) && (List.range 8).all (fun p => decide (p < h.clusters) || decide (h.counts.getD p 0 = 0))

/-- Footprint in the window of a layer at a position, in 4 KiB units. -/
def layerUnits (l : List SEntry) (layer : Nat) : Nat := ((l.filter (fun e => decide (e.layer = layer))).map (·.out4k)).foldl (· + ·) 0

def ascending : List Nat → Bool
  | a :: b :: r => decide (a ≤ b) && ascending (b :: r)
  | _ => true

/-- Every entry in range, ascending layers, footprints within MAX_LAYER_4K (R174). -/
def Sched4.entriesOk (h : Sched4) (rd : Reader) : Bool :=
  (List.range h.clusters).all (fun p =>
    let l := h.entries rd p
    ascending (l.map (·.layer)) &&
    l.all (fun e => decide (e.layer < h.layers) && decide (e.src % 64 = 0) && decide (e.srcBytes % 64 = 0 ∧ 0 < e.srcBytes ∧ e.srcBytes ≤ 262144) &&
      decide (1 ≤ e.out4k ∧ e.out4k ≤ 64) && decide (1 ≤ e.consumers ∧ e.consumers ≤ 16) && decide (layerUnits l e.layer ≤ h.maxLayer)) &&
    (List.range (h.counts.getD p 0)).all (fun i => let o := 128 + 16 * (h.firsts.getD p 0 + i); decide (readLe rd (o + 14) 1 ≤ 1) && decide (readLe rd (o + 15) 1 = 0)))

def Sched4.ok (h : Sched4) (rd : Reader) : Bool := h.headOk rd && h.entriesOk rd

end Sys2Proof.Machine
end

