-- ==== Sys2Proof/Machine/Tiers.lean ====
section
/-! DEFINITION. TILE_MOVE, regions, allocations and host windows, Bellows streams and slot 49 (R154 to R181). -/

namespace Sys2Proof.Machine

/-! ### What a packet names -/

/-- Offsets of the tensor descriptors of a packet. -/
def descOffsets (code : Nat) (p : Sys2Proof.Packet) : List Nat :=
  match code with
  | 0x200 => [32, 80, 128]
  | 0x201 => [32, 80, 128, 176]
  | 0x202 => [32, 80]
  | 0x203 => [32, 80]
  | 0x400 => [80, 128]
  | 0x401 => [64, 112, 160, 208, 256]
  | 0x404 => [32, 80]
  | 0x405 => [32, 80]
  | 0x500 => [64, 112]
  | 0x504 => [32, 80, 128, 176]
  | 0x507 => [32]
  | 0x600 => [64, 112, 160, 208]
  | 0x601 => [64, 112]
  | 0x602 => [64, 112]
  | 0x704 => (List.range (Packet.fld p 17 1 + Packet.fld p 18 1)).map (fun i => 72 + 64 * i)
  | 0x800 => [64, 112, 160, 208, 256]
  | 0x801 => [64, 112, 160, 208]
  | 0x802 => [64, 112]
  | 0x803 => [64, 112, 160, 208, 256, 304, 352]
  | 0x902 => [96]
  | _ => []

/-- Tier-2 addresses a packet names outside descriptors: offsets. -/
def addrOffsets (code : Nat) : List Nat :=
  match code with
  | 0x303 => [16, 24]
  | 0x400 => [48, 56]
  | 0x401 => [32, 40]
  | 0x500 => [40]
  | 0x505 => [32]
  | 0x506 => [24, 40]
  | 0x701 => [24]
  | 0x704 => [32]
  | 0x705 => [24]
  | 0x900 => [16]
  | 0x901 => [40]
  | 0x902 => [80]
  | 0xA04 => [16]
  | _ => []

/-- Region handles a packet names outside descriptors: offsets of 2-byte fields. -/
def handleOffsets (code : Nat) : List Nat :=
  match code with
  | 0x303 => [40, 42, 44, 46, 48, 50, 52, 54]
  | 0x400 => [64]
  | 0x401 => [48]
  | 0x900 => [36]
  | 0x902 => [64]
  | 0xA04 => [48]
  | 0xA06 => [18]
  | _ => []

/-- Location, address and extent of every operand a packet names. -/
def operandsOf (code : Nat) (p : Sys2Proof.Packet) : List (Nat × Nat × Nat) :=
  ((descOffsets code p).map (fun o => let t := Packet.desc p o; (t.loc, t.addr, max 1 (t.extent 1)))) ++
  ((addrOffsets code).map (fun o => (2, Packet.fld p o 8, 1))) ++ ((handleOffsets code).map (fun o => (1, Packet.fld p o 2 * 2 ^ 48, 1))) ++
  (if code = 0x300 then [(Packet.fld p 32 1, Packet.fld p 16 8, max 1 (Packet.fld p 40 4 * max (Packet.fld p 44 4) (Packet.fld p 36 4))),
    (Packet.fld p 33 1, Packet.fld p 24 8, max 1 (Packet.fld p 40 4 * max (Packet.fld p 48 4) (Packet.fld p 36 4)))]
   else if code = 0x602 then [(Packet.fld p 40 1, Packet.fld p 48 8, 1)] else [])

/-- A packet names a handle, or a tier-2 range of its context. -/
def namesHandle (code : Nat) (p : Sys2Proof.Packet) (h : Nat) : Bool :=
  (operandsOf code p).any (fun x => (decide (x.1 = 1) || decide (x.1 = 4)) && decide (bits x.2.1 63 48 = h))

def namesRange (code : Nat) (p : Sys2Proof.Packet) (c lo hi : Nat) : Bool :=
  decide (Packet.ctxNo p = c) && (operandsOf code p).any (fun x => decide (x.1 = 2) && decide (x.2.1 < hi ∧ lo < x.2.1 + x.2.2))

/-- Packets of operations in flight: accepted ones, and those of firings in progress. -/
def State.inWork (s : State) : List (Nat × Sys2Proof.Packet) :=
  (s.proto.flights.filter (fun f => f.running || f.parked)).map (fun f => (f.opcode, f.pkt)) ++
  ((s.sched.jobs.filter (fun kv => kv.2.firing.isSome)).map (fun kv => kv.2.packets.map (fun x => (x.opcode, x.pkt)))).flatten

/-! ### REGION_ALLOC (R158, R162, R171, R336) -/

/-- DESIGN CHOICE: R158 names no status for a cluster that holds no core of the context's partition; it is BAD_PARAM (log 98). -/
def regionAllocChecks (_ : Caller) (p : Sys2Proof.Packet) (s : State) : Option Nat :=
  let kind := Packet.fld p 16 1
  let c := Packet.ctxNo p
  let size := Packet.fld p 24 8
  firstFail
    [(decide (c = 0xFFFF), St.badContext),
     (decide (Packet.len p ≠ 1) || !Packet.rsvZero p 20 24 || !Packet.rsvZero p 40 64 || decide (kind < 1 ∨ 3 < kind), St.badParam),
     (if kind = 1 then decide (7 < Packet.fld p 17 1) else decide (Packet.fld p 17 1 ≠ 0), St.badParam),
     (if kind = 2 then decide (2 < Packet.fld p 18 1) else decide (Packet.fld p 18 1 ≠ 0), St.badParam),
     (if kind = 1 then decide (1 < Packet.fld p 19 1) else decide (Packet.fld p 19 1 ≠ 0), St.badParam),
     (if kind = 3 then decide (size % 4096 ≠ 0 ∨ Packet.fld p 32 8 % 4096 ≠ 0) else decide (Packet.fld p 32 8 ≠ 0), St.badParam),
     (decide (kind = 1) && (match s.partOf c with
        | some x => !x.2.clusters.contains (Packet.fld p 17 1)
        | none => true), St.badParam)]

/-- Granules of 64 KiB that a context's regions, or all regions, take in a cluster. -/
def State.granules (s : State) (k : Nat) (c : Option Nat) : Nat :=
  ((s.tiers.regions.filter (fun kv => !kv.2.window && decide (kv.2.cluster = k) && (match c with
    | some n => decide (kv.2.ctx = n)
    | none => true))).map (fun kv => kv.2.size / 65536)).foldl (· + ·) 0

def State.addRegion (s : State) (r : Region) : Option (State × Nat) :=
  (pickFree s.fresh 4096 s.tiers.regions.keys).map (fun h =>
    ((State.bump { s with tiers := { s.tiers with regions := s.tiers.regions.set h r } }).zeroFill .region (regionKey h 0) 16777216, h))

/-- The function a context is bound to: its windows use that function's host link (R334). -/
def State.ctxFn (s : State) (c other : Nat) : Nat := match s.ctx? c with
  | some x => x.fn
  | none => other

def regionAllocEffect (id : Nat) (k : Caller) (p : Sys2Proof.Packet) (s : State) : State × Reply :=
  let kind := Packet.fld p 16 1
  let c := Packet.ctxNo p
  let size := Packet.fld p 24 8
  let g := ceilDiv size 65536
  if size = 0 then (s, .done St.ok Inf.zeroWork 0xFFFF)
  else if kind = 1 then
    let cl := Packet.fld p 17 1
    let ceil := match s.partOf c with
      | some x => x.2.regionCeil
      | none => 0
    if 176 < s.granules cl none + g ∨ ceil < s.granules cl (some c) + g then refuse s St.noResource
    else match s.addRegion ⟨c, false, cl, g * 65536, bit (Packet.fld p 19 1) 0, 0, k.fn, none⟩ with
      | some (t, h) => done0 t h
      | none => refuse s St.noResource
  else if kind = 3 then
    if 16 ≤ (s.tiers.regions.filter (fun kv => kv.2.window && decide (kv.2.ctx = c))).length then refuse s St.noResource
    else match s.addRegion ⟨c, true, 0, size, false, Packet.fld p 32 8, s.ctxFn c k.fn, none⟩ with
      | some (t, h) => done0 t h
      | none => refuse s St.noResource
  else if !s.underCeiling c g then refuse s St.outOfTier2
  else match s.provide id 16 none (halvesOf (Packet.fld p 18 1) g) with
    | .never => refuse s St.outOfTier2
    | .wait t => (t, .parkPages)
    | .ready t => match t.allocPages c g (Packet.fld p 18 1) false with
      | some (u, base) => done0 u (base * 65536)
      | none => refuse s St.outOfTier2

def regionAllocBody : Body := checked regionAllocChecks regionAllocEffect

/-- REGION_ALLOC (R158). -/
def execRegionAlloc (p : Sys2Proof.Packet) (s : State) : Host.Outcome State Fault Refusal := .next (runPacket 0x301 regionAllocBody p s)

/-! ### REGION_FREE (R177, R264, R332, R356) -/

/-- Allocation that starts at an address of a context. -/
def State.allocAt (s : State) (c addr : Nat) : Option Alloc :=
  if addr % 65536 = 0 then s.tiers.allocs.find? (fun a => decide (a.ctx = c ∧ a.base = addr / 65536)) else none

def State.isWindow (s : State) (h : Nat) : Bool := s.tiers.bellows.any (fun kv => kv.2.positions.any (fun b => decide (b.window = h)))

/-- The region holds a plan area or the node table of a search under way (R332). -/
def State.planBusy (s : State) (h : Nat) : Bool :=
  s.apps.lattices.any (fun kv => decide (kv.2.region = h) || (match kv.2.search with
    | some x => (match s.flight? x.flight with
        | some f => decide (Packet.fld f.pkt 64 2 = h)
        | none => false)
    | none => false))

/-- The allocation holds some of a configured ring, a grid's cells, or a resident map epoch (R264, R287, R289, R319). -/
def State.allocBusy (s : State) (a : Alloc) : Bool :=
  let meets : Nat → Nat → Bool := fun x n => decide (a.base * 65536 < x + max 1 n ∧ x < (a.base + a.pages) * 65536)
  s.ingest.slots.any (fun kv => decide (kv.2.cfg.iface ≠ 0 ∧ kv.2.cfg.place = 1 ∧ kv.2.cfg.ringCtx = a.ctx) && meets kv.2.cfg.ringAddr (kv.2.cfg.granules * 65536)) ||
  s.ingest.grids.any (fun kv => decide (kv.2.ctx = a.ctx) && (meets kv.2.dataAddr (kv.2.nc * kv.2.nx * kv.2.ny * kv.2.nz) || meets kv.2.poseAddr 4096)) ||
  s.apps.maps.any (fun kv => decide (kv.2.ctx = a.ctx) && kv.2.epochs.any (fun e => meets e.addr (4096 * (kv.2.nbx * kv.2.nby * kv.2.nbz))))

def regionFreeChecks (_ : Caller) (p : Sys2Proof.Packet) (s : State) : Option Nat :=
  let kind := Packet.fld p 16 1
  let c := Packet.ctxNo p
  let a := Packet.fld p 24 8
  let r := if a < 65536 then s.tiers.regions.get? a else none
  firstFail
    [(decide (c = 0xFFFF), St.badContext),
     (decide (Packet.len p ≠ 1) || !Packet.rsvZero p 17 24 || !Packet.rsvZero p 32 64 || decide (kind < 1 ∨ 3 < kind), St.badParam),
     (decide (kind ≠ 2) && (match r with
        | some x => decide (x.window ≠ decide (kind = 3)) || x.freeing.isSome
        | none => true), St.notFound),
     (decide (kind ≠ 2) && (match r with
        | some x => decide (x.ctx ≠ c)
        | none => false), St.notPermitted),
     (decide (kind = 1) && (s.isWindow a || s.planBusy a), St.busy),
     (decide (kind = 2) && (match s.allocAt c a with
        | some x => x.freeing.isSome
        | none => true), St.notFound),
     (decide (kind = 2) && (match s.allocAt c a with
        | some x => s.allocBusy x
        | none => false), St.busy)]

/-- Take a region or a window away; its bytes are zero-filled (R264, R446). -/
def State.dropRegion (s : State) (h : Nat) : State :=
  (State.zeroFill { s with tiers := { s.tiers with regions := s.tiers.regions.erase h } } .region (regionKey h 0) 16777216)

/-- Take an allocation away, with the model registered in it (R356). -/
def State.dropAlloc (s : State) (c base : Nat) : State :=
  let s := s.unmapBase c base
  let s := (s.sched.models.filter (fun kv => decide (kv.2.ctx = c ∧ kv.2.base = base))).foldl (fun s kv => s.finishOpt kv.2.flight St.aborted 0 0) s
  { s with tiers := { s.tiers with allocs := s.tiers.allocs.filter (fun a => ¬(a.ctx = c ∧ a.base = base)) },
           sched := { s.sched with models := s.sched.models.filter (fun kv => ¬(kv.2.ctx = c ∧ kv.2.base = base)) } }

def Alloc.inWork (a : Alloc) (s : State) : Bool := s.inWork.any (fun x => namesRange x.1 x.2 a.ctx (a.base * 65536) ((a.base + a.pages) * 65536))

/-- Free every object whose REGION_FREE waits and that no operation in flight names any more. -/
def State.settleFrees (s : State) : State :=
  let s := (s.tiers.regions.filter (fun kv => kv.2.freeing.isSome && !s.inWork.any (fun x => decide (x.1 ≠ 0x302) && namesHandle x.1 x.2 kv.1))).foldl
    (fun s kv => (s.dropRegion kv.1).finishOpt kv.2.freeing St.ok 0 0) s
  (s.tiers.allocs.filter (fun a => a.freeing.isSome && !a.inWork s)).foldl (fun s a => (s.dropAlloc a.ctx a.base).finishOpt a.freeing St.ok 0 0) s

def regionFreeEffect (id : Nat) (_ : Caller) (p : Sys2Proof.Packet) (s : State) : State × Reply :=
  let a := Packet.fld p 24 8
  let s := s.setFlight id (fun f => { f with running := true })
  let s := if Packet.fld p 16 1 = 2 then
      { s with tiers := { s.tiers with allocs := s.tiers.allocs.map (fun x => if x.ctx = Packet.ctxNo p ∧ x.base * 65536 = a then { x with freeing := some id } else x) } }
    else { s with tiers := { s.tiers with regions := s.tiers.regions.update a (fun r => { r with freeing := some id }) } }
  (s.settleFrees, .later)

def regionFreeBody : Body := checked regionFreeChecks regionFreeEffect

/-- REGION_FREE (R264). -/
def execRegionFree (p : Sys2Proof.Packet) (s : State) : Host.Outcome State Fault Refusal := .next (runPacket 0x302 regionFreeBody p s)

/-! ### The ends of Bellows streams, and the reads of their windows (R176, R178) -/

def Bellows.head (b : Bellows) (s : State) : Sched4 := Sched4.of (s.t2Reader b.ctx b.sched)

/-- Passes of a position that are fetched and retired whole. -/
def BellowsPos.passes (q : BellowsPos) (layers : Nat) : Nat := (q.tiles.map (fun t => t.layer / max 1 layers)).foldl min (q.pass - 1)

def Bellows.passes (b : Bellows) : Nat := (b.positions.map (fun q => q.passes b.layers)).foldl min (2 ^ 32 - 1)

/-- RESULT of a BELLOWS_START (R176): passes completed, layers retired at position 0 in the last pass. -/
def Bellows.result (b : Bellows) (s : State) : Nat :=
  match b.positions.head? with
  | none => 0
  | some q =>
    let h := b.head s
    let rd := s.t2Reader b.ctx b.sched
    let es := h.entries rd 0
    let ls := (es.map (·.layer)).eraseDups
    let last := min (q.passes b.layers) (b.repeat_ - 1)
    let fetched := if last + 1 < q.pass then es.length else q.entry
    let done := ls.filter (fun l => (List.range es.length).all (fun i => decide ((es.getD i ⟨0, 0, 0, 0, 0, false⟩).layer ≠ l) || decide (i < fetched)) &&
      !q.tiles.any (fun t => decide (t.layer = last * b.layers + l)))
    b.passes % 2 ^ 32 + 2 ^ 32 * done.length

/-- End a stream: its lanes are free and its BELLOWS_START completes (R176, R177). -/
def State.endBellows (s : State) (key status : Nat) : State :=
  match s.tiers.bellows.get? key with
  | none => s
  | some b => (State.finish { s with tiers := { s.tiers with bellows := s.tiers.bellows.erase key } } b.flight status (if b.ecc then Inf.eccCorrected else 0) (b.result s))

/-- A stream whose passes are done and whose tiles have all retired ends with OK (R176). -/
def State.settleBellows (s : State) : State :=
  (s.tiers.bellows.filter (fun kv => decide (kv.2.repeat_ ≠ 0xFFFFFFFF) && kv.2.positions.all (fun q => decide (kv.2.repeat_ < q.pass) && q.tiles.isEmpty))).foldl
    (fun s kv => s.endBellows kv.1 St.ok) s

/-- A Tongs read of a window retires: each tile whose last line it covers has one read less, and the last read empties
its units (R178). -/
def WinTile.read (t : WinTile) (lo hi : Nat) : WinTile :=
  if lo ≤ t.dst + t.bytes - 64 ∧ t.dst + t.bytes - 64 ≤ hi then { t with readsLeft := t.readsLeft - 1 } else t

def BellowsPos.read (q : BellowsPos) (h lo hi : Nat) : BellowsPos :=
  if q.window ≠ h then q
  else { q with tiles := (q.tiles.map (fun t => t.read lo hi)).filter (fun t => decide (t.readsLeft ≠ 0)) }

def State.windowRead (s : State) (h lo hi : Nat) : State :=
  State.settleBellows { s with tiers := { s.tiers with bellows := s.tiers.bellows.mapVals (fun _ b =>
    { b with positions := b.positions.map (fun q => q.read h lo hi) }) } }

/-! ### TILE_MOVE (R172) -/

def rangesMeet (a n b m : Nat) : Bool := decide (a < b + m ∧ b < a + n)

/-- One side of a TILE_MOVE: how a tile at an offset is read or written. -/
structure Side where
  loc : Nat
  base : Nat
  limit : Nat
  handle : Nat
  readOnly : Bool
  weight : Bool

/-- The core of the side at LOC 0, with its partition. -/
def moveCore (s : State) (c : Nat) (p : Sys2Proof.Packet) : Option Nat := (s.partOf c).bind (fun x => x.2.coreAt (Packet.fld p 34 1))

/-- Where the slots of the context's partition forbid tier 2 (R168). -/
def State.t2Barred (s : State) (c : Nat) : Bool := match s.partOf c with
  | some x => s.t2Refused x.1 x.2
  | none => false

/-- The tiles of one side of a move: how many, from one to the next, and bytes of each. -/
structure Tiles where
  count : Nat
  pitch : Nat
  bytes : Nat

/-- Bytes from a side's address to the end of its last tile. -/
def Tiles.span (t : Tiles) : Nat := if t.count = 0 ∨ t.bytes = 0 then 0 else (t.count - 1) * t.pitch + t.bytes

/-- A condition on the range of every tile, from the side's address. -/
def Tiles.all (t : Tiles) (addr : Nat) (f : Nat → Nat → Bool) : Bool :=
  if t.pitch ≤ t.bytes then f addr t.span else (List.range t.count).all (fun i => f (addr + i * t.pitch) t.bytes)

def Tiles.any (t : Tiles) (addr : Nat) (f : Nat → Nat → Bool) : Bool := !t.all addr (fun a n => !f a n)

/-- A tile header that marks a weight copy: an A-tile or B-tile with READ_ONLY (R135, R179). -/
def weightTile (rd : Reader) : Bool :=
  let f : Nat → Nat → Nat := readLe rd
  decide (f 0 1 ≤ 9 ∧ (f 1 1 = 1 ∨ f 1 1 = 2) ∧ 1 ≤ f 2 1 ∧ f 2 1 ≤ 64 ∧ (f 3 1 = 1 ∨ f 3 1 = 3) ∧ 64 ≤ f 12 4 ∧ f 12 4 % 64 = 0) && allZero (readN rd 32 32)

/-- Resolve a side from its address: status when it cannot be used. A weight copy above tier 2 is read-only: a weight region, and a
tile in a core store or another region whose header says so (R16, R135; log 108). -/
def State.moveSide (s : State) (c core loc addr : Nat) (t : Tiles) (dst : Bool) : Except Nat Side :=
  let h := bits addr 63 48
  let n := t.span
  if !addrOk loc addr then .error St.badParam
  else if loc = 0 then (if addr + n ≤ 2097152 then .ok ⟨0, addr, 2097152, 0, !dst && t.any addr (fun a k => decide (64 ≤ k) &&
      weightTile (fun i => s.stores.core.read (coreKey core (a + i)))), false⟩ else .error St.badParam)
  else if loc = 1 then
    match s.regionRead c h (bits addr 23 0) n with
    | .error e => .error e
    | .ok r =>
      if dst && (decide (r.ctx ≠ c) || s.meetsPlan h (bits addr 23 0) n) then .error St.notPermitted
      else if bits addr 23 0 + n ≤ r.size then .ok ⟨1, bits addr 23 0, r.size, h, r.weight || (!dst && t.any addr (fun a k => decide (64 ≤ k) &&
        weightTile (fun i => s.stores.region.read (regionKey h (bits a 23 0 + i))))), r.weight⟩ else .error St.badParam
  else if loc = 2 then
    if s.t2Barred c then .error St.notPermitted
    else if t.any addr (fun a n => s.t2Freeing c a n || s.t2Evicted c a n) then .error St.notFound
    else if !t.all addr (s.t2Mapped c) then .error St.badParam
    else if dst && !t.all addr (s.t2Writable c) then .error St.notPermitted
    else .ok ⟨2, addr, 2 ^ 48, 0, t.any addr (fun a n => (pageSpan a n).any (fun v => match s.page? c v with
      | some g => g.readOnly
      | none => false)), false⟩
  else if loc = 3 then
    if h < 0x8000 then .error St.notFound
    else match s.view c h with
    | .error e => .error e
    | .ok b => match s.ingest.slots.get? b.1 with
      | none => .error St.notFound
      | some x =>
        if decide (x.cfg.place = 1) && s.t2Barred c then .error St.notPermitted
        else if bits addr 23 0 + n ≤ x.cfg.bufBytes then .ok ⟨3, bits addr 23 0, x.cfg.bufBytes, h, false, false⟩ else .error St.badParam
  else match s.tiers.regions.get? h with
    | none => .error St.notFound
    | some r =>
      if !r.window ∨ r.freeing.isSome then .error St.notFound
      else if r.ctx ≠ c then .error St.notPermitted
      else if bits addr 39 0 + n ≤ r.size then .ok ⟨4, bits addr 39 0, r.size, h, false, false⟩ else .error St.badParam

/-- Bytes read from a side at an offset from its base. -/
def State.sideRead (s : State) (c core : Nat) (x : Side) (off n : Nat) : List Byte :=
  match x.loc with
  | 0 => s.stores.core.readBytes (coreKey core (x.base + off)) n
  | 1 => s.stores.region.readBytes (regionKey x.handle (x.base + off)) n
  | 2 => s.t2Read c (x.base + off) n
  | 3 => match s.view c x.handle with
    | .ok b => (List.range n).map (fun i => s.bufByte b.1 b.2 (x.base + off + i))
    | .error _ => zeros n
  | _ => match s.tiers.regions.get? x.handle with
    | some r => s.stores.host.readBytes (hostKey r.fn (r.busAddr + x.base + off)) n
    | none => zeros n

/-- A write to a side at an offset: on-part writes, and those to the host. -/
def State.sideWrite (s : State) (c core : Nat) (x : Side) (off : Nat) (bs : List Byte) : List Wr × List (Nat × List Byte) :=
  match x.loc with
  | 0 => ([⟨.core, coreKey core (x.base + off), bs⟩], [])
  | 1 => ([⟨.region, regionKey x.handle (x.base + off), bs⟩], [])
  | 2 => (s.t2Wr c (x.base + off) bs, [])
  | _ => match s.tiers.regions.get? x.handle with
    | some r => ([], [(hostKey r.fn (r.busAddr + x.base + off), bs)])
    | none => ([], [])

/-- An uncorrectable line in a range of a side. -/
def State.sidePoison (s : State) (c core : Nat) (x : Side) (off n : Nat) : Option (Store × Nat) :=
  let near : Store → Nat → Option (Store × Nat) := fun st k =>
    (s.stores.poison.find? (fun y => decide (y.1 = st) && decide (k < y.2 * 64 + 64 ∧ y.2 * 64 < k + n))).map (fun y => (y.1, y.2 * 64))
  match x.loc with
  | 0 => near .core (coreKey core (x.base + off))
  | 1 => near .region (regionKey x.handle (x.base + off))
  | 2 => (s.t2Poison c (x.base + off) n).map (fun k => (.tier2, k))
  | 3 => s.poisonHit c core ⟨x.handle * 2 ^ 48 + x.base + off, 0, 3, 1, 1, 1, 1, 1, 1, 0, 0, 0, 0, 0⟩ n
  | _ => none

/-- The host side of a move can be reached now (R87, R466). -/
def State.sideReady (s : State) (x : Side) : Bool := decide (x.loc ≠ 4) || (match s.tiers.regions.get? x.handle with
  | some r => s.canWriteHost r.fn
  | none => true)

/-- The fields of a TILE_MOVE (R172); it moves whole lines of the stores (R139, R172), and a decoded tile begins on 4 KiB in a core
store (R125). -/
def tileMoveChecks (_ : Caller) (p : Sys2Proof.Packet) (s : State) : Option Nat :=
  let sl := Packet.fld p 32 1
  let dl := Packet.fld p 33 1
  let dec := bit (Packet.fld p 35 1) 0
  let tb := Packet.fld p 36 4
  let c := Packet.ctxNo p
  firstFail
    [(decide (c = 0xFFFF), St.badContext),
     (!shortOk p 52 || decide (4 < sl) || !([0, 1, 2, 4].contains dl) || decide (1 < Packet.fld p 35 1), St.badParam),
     (decide (sl = 0 ∧ dl = 0), St.badParam),
     (if sl = 0 ∨ dl = 0 then (match s.partOf c with
        | some x => decide (x.2.inService ≤ Packet.fld p 34 1)
        | none => true) else decide (Packet.fld p 34 1 ≠ 0), St.badParam),
     (if dec then decide (tb ≠ 0 ∨ Packet.fld p 44 4 ≠ 0 ∨ Packet.fld p 48 4 % 4096 ≠ 0)
      else decide (tb % 64 ≠ 0 ∨ 262144 < tb ∨ Packet.fld p 44 4 % 64 ≠ 0 ∨ Packet.fld p 48 4 % 64 ≠ 0), St.badParam),
     (decide (sl < 4 ∧ Packet.fld p 16 8 % 64 ≠ 0 ∨ dl < 4 ∧ Packet.fld p 24 8 % 64 ≠ 0), St.badParam),
     (dec && decide (sl ≠ 2 ∨ (dl ≠ 0 ∧ dl ≠ 1)), St.badParam),
     (dec && decide (dl = 0 ∧ Packet.fld p 24 8 % 4096 ≠ 0), St.badParam)]

/-- Pass `count` records through the Swage: outputs in order until a bad record, the status, and the bytes of the good records. -/
def State.swageRun (cluster c : Nat) : Nat → Nat → State → List (List Byte) → Nat → State × List (List Byte) × Nat × Nat
  | 0, _, s, acc, read => (s, acc.reverse, St.ok, read)
  | n + 1, addr, s, acc, read => match s.swage cluster c addr with
    | (t, .error e) => (t, acc.reverse, e, read)
    | (t, .ok (r, bs)) => State.swageRun cluster c n (addr + r.bytes) t (bs :: acc) (read + r.bytes)

/-- What the CRC of a move's tier-2 bursts shows. -/
structure LinkFate where
  /-- Some burst came right only on a retry. -/
  retried : Bool
  /-- The first tile with a burst whose retries both failed. -/
  lost : Option Nat
deriving DecidableEq, Repr

/-- Whether bursts of a move of `n` tiles fail their CRC is a free value; only tier-2 accesses have bursts (R160; log 100). -/
def State.linkFate (s : State) (tier2 : Bool) (n : Nat) : LinkFate :=
  let v := Sys2Proof.Config.freeNat (s.fresh + 0x8000000000)
  if !tier2 || decide (n = 0) || decide (v % 3 = 0) then ⟨false, none⟩
  else if v % 3 = 1 then ⟨true, none⟩ else ⟨true, some (v / 3 % n)⟩

/-- INFO and counts of bursts that came right on a retry (R160, R445). -/
def State.countRetry (s : State) (l : LinkFate) : State := if l.retried && l.lost.isNone then s.retried else s

def LinkFate.info (l : LinkFate) : Nat := if l.retried && l.lost.isNone then Inf.eccCorrected else 0

/-- Write tiles through `State.sideWrite`. -/
def State.putTiles (s : State) (c core : Nat) (x : Side) (pitch : Nat) (ts : List (List Byte)) : List Wr × List (Nat × List Byte) :=
  let ws := ((List.range ts.length).zip ts).map (fun y => s.sideWrite c core x (y.1 * pitch) y.2)
  ((ws.map (·.1)).flatten, (ws.map (·.2)).flatten)

/-- The reads of a window by a move: each tile is a Tongs read of its own (R178). -/
def State.windowTiles (s : State) (x : Side) (t : Tiles) : State :=
  if x.loc ≠ 1 then s else (List.range t.count).foldl (fun s i => s.windowRead x.handle (x.base + i * t.pitch) (x.base + i * t.pitch + t.bytes - 1)) s

/-- The places of the two sides meet: one store, or host memory through windows of one function (R172);
judged from the first byte to the last, gaps between tiles included (DESIGN CHOICE, log 115). -/
def State.sidesMeet (s : State) (x d : Side) (n m : Nat) : Bool :=
  decide (x.loc = d.loc ∧ x.loc ≠ 0) &&
    (if x.loc = 4 then (match s.tiers.regions.get? x.handle, s.tiers.regions.get? d.handle with
      | some a, some b => decide (a.fn = b.fn) && rangesMeet (a.busAddr + x.base) n (b.busAddr + d.base) m
      | _, _ => false)
     else decide (x.handle = d.handle) && rangesMeet x.base n d.base m)

/-- Physical tier-2 address of a byte of a side; none where the side lies elsewhere. -/
def State.sideKey (s : State) (c : Nat) (x : Side) (off : Nat) : Option Nat :=
  if x.loc = 2 then s.phys? c (x.base + off)
  else if x.loc = 3 then match s.view c x.handle with
    | .error _ => none
    | .ok b => (s.viewRing b.1).bind (fun r => s.phys? r.1 (r.2 + b.2 * x.limit + x.base + off))
  else none

/-- Bytes a move reads and writes (R38). -/
def moveTraffic (x d : Side) (n m : Nat) : Traffic := (traffic x.loc n false).add (traffic d.loc m true)

/-- The decoding move (R181): good records are moved; a bad one ends it, as does one whose tier-2 read fails (R160). -/
def State.moveDecode (s : State) (c core cluster : Nat) (x d : Side) (count pitch : Nat) : State × Reply :=
  let l := s.linkFate true count
  let (t, outs, st, read) := State.swageRun cluster c (l.lost.getD count) x.base s [] 0
  if !((List.range outs.length).zip outs).all (fun y => decide (d.base + y.1 * pitch + y.2.length ≤ d.limit)) then refuse s St.badParam
  else
    let u := ((t.apply (t.putTiles c core d pitch outs).1).moved c (moveTraffic x d read (outs.map List.length).sum)).bump
    if st = St.ok ∧ l.lost.isSome then (u.burstLost ((u.phys? c (x.base + read)).getD 0), .done St.memUncorrectable 0 outs.length)
    else (u.countRetry l, .done st l.info outs.length)

/-- The plain move: tiles in ascending order; a tile that holds an uncorrectable line ends it, and so does one whose tier-2 bursts
fail (R160). -/
def State.movePlain (s : State) (c core : Nat) (x d : Side) (n count sp dp : Nat) : State × Reply :=
  let l := s.linkFate ((s.sideKey c x 0).isSome || (s.sideKey c d 0).isSome) count
  let bad := (List.range count).findSome? (fun i => (s.sidePoison c core x (i * sp) n).map (fun k => (i, k)))
  let bad : Option (Nat × Option (Store × Nat)) := match bad, l.lost with
    | some b, some i => if i ≤ b.1 then some (i, none) else some (b.1, some b.2)
    | some b, none => some (b.1, some b.2)
    | none, some i => some (i, none)
    | none, none => none
  let upto := match bad with
    | some b => b.1
    | none => count
  let w := s.putTiles c core d dp ((List.range upto).map (fun i => s.sideRead c core x (i * sp) n))
  let t := (s.apply w.1).moved c (moveTraffic x d (upto * n) (upto * n))
  match bad with
  | none => ((t.countRetry l).bump, .full St.ok l.info count none w.2 [])
  | some b =>
    let u := s.sideWrite c core d (b.1 * dp) (freeBytes s.fresh n)
    let t := match b.2 with
      | some k => t.uncorrectable k.1 k.2
      | none => t.burstLost (((s.sideKey c x (b.1 * sp)).orElse (fun _ => s.sideKey c d (b.1 * dp))).getD 0)
    ((t.apply u.1).bump, .full St.memUncorrectable 0 upto none (w.2 ++ u.2) [])

/-- The tiles of a side in a core store meet what an operation or a descriptor placed there earlier has still to read or to
write (R143). -/
def State.tilesAfter (s : State) (core : Nat) (x : Side) (t : Tiles) (dst : Bool) : Bool :=
  let c := s.core core
  decide (x.loc = 0) && (((c.slots ++ c.held).map (·.ranges)).flatten ++ ((c.ring ++ c.feed).map (·.ranges)).flatten).any (fun r =>
    (dst || r.2.2) && t.any x.base (fun a n => decide (a < r.2.1 ∧ r.1 < a + n)))

/-- At level E3 the Swages stand still, and so does what other classes move (R438). -/
def tileMoveEffect (_ : Nat) (_ : Caller) (p : Sys2Proof.Packet) (s : State) : State × Reply :=
  let c := Packet.ctxNo p
  let sl := Packet.fld p 32 1
  let dl := Packet.fld p 33 1
  let dec := bit (Packet.fld p 35 1) 0
  let n := Packet.fld p 36 4
  let count := Packet.fld p 40 4
  let sp := Packet.fld p 44 4
  let dp := Packet.fld p 48 4
  let st : Tiles := if dec then ⟨min count 1, 0, 64⟩ else ⟨count, sp, n⟩
  let dt : Tiles := if dec then ⟨count, dp, 4096⟩ else ⟨count, dp, n⟩
  match s.moveSide c ((moveCore s c p).getD 0) sl (Packet.fld p 16 8) st false, s.moveSide c ((moveCore s c p).getD 0) dl (Packet.fld p 24 8) dt true with
  | .error e, _ => refuse s e
  | .ok _, .error e => refuse s e
  | .ok x, .ok d =>
    let pending := match s.partOf c with
      | some y => decide (y.2.state = 4)
      | none => false
    let leaving := match s.partOf c with
      | some y => decide (y.2.state = 2 ∨ y.2.state = 3)
      | none => false
    let cls := match s.partOf c with
      | some y => y.2.cls
      | none => 1
    let core := (moveCore s c p).getD 0
    let cluster := if dl = 0 then core / 256 else match s.tiers.regions.get? d.handle with
      | some r => r.cluster
      | none => 0
    if s.sidesMeet x d st.span dt.span then refuse s St.badParam
    else if dec && decide (dl = 1) && !d.weight then refuse s St.badParam
    else if x.readOnly && !(decide (dl = 0) || d.weight) then refuse s St.badParam
    else if st.span = 0 then (s, .done St.ok Inf.zeroWork 0)
    else if decide (sl = 0 ∨ dl = 0) && leaving then refuse s St.busy
    else if decide (sl = 0 ∨ dl = 0) && pending then (s, .park)
    else if (sl = 0 ∨ dl = 0) ∧ (moveCore s c p).isNone then refuse s St.coreFault
    else if decide (sl = 0 ∨ dl = 0) && s.coreHeld cls core then (s, .parkWork)
    else if dec && decide (cls ≠ 0) && s.procDown (8 + cluster) then (s, .parkWork)
    else if decide (3 ≤ s.power.applied) && (dec || decide (cls ≠ 0)) then (s, .parkWork)
    else if decide (sl = 1) && st.any x.base (s.windowLacks x.handle) then (s, .parkWork)
    else if !(s.sideReady x && s.sideReady d) then (s, .parkWork)
    else if s.tilesAfter core x st false || s.tilesAfter core d (if dec then ⟨count, dp, dp⟩ else dt) true then (s, .park)
    else
      let r := if dec then s.moveDecode c core cluster x d count dp else s.movePlain c core x d n count sp dp
      (r.1.windowTiles x st, r.2)

def tileMoveBody : Body := checked tileMoveChecks tileMoveEffect

/-- TILE_MOVE (R172). -/
def execTileMove (p : Sys2Proof.Packet) (s : State) : Host.Outcome State Fault Refusal := .next (runPacket 0x300 tileMoveBody p s)

/-! ### Bellows (R175 to R178) -/

/-- Mark the use of the model an image lies in (R357). -/
def State.useModel (s : State) (c addr : Nat) : State :=
  { s with sched := { s.sched with models := s.sched.models.mapVals (fun _ m =>
      if m.ctx = c ∧ m.base * 65536 ≤ addr ∧ addr < m.base * 65536 + m.bytes then { m with lastUse := s.clock.now } else m) } }

/-- Streams that take a landing lane in a cluster. -/
def State.lanesUsed (s : State) (k : Nat) : List Nat :=
  (s.tiers.bellows.map (fun kv => (kv.2.positions.filter (fun b => decide (b.cluster = k))).map (·.lane))).flatten

def bellowsWindow (p : Sys2Proof.Packet) (i : Nat) : Nat := Packet.fld p (40 + 2 * i) 2

/-- The conditions of R176, in order, after the packet's own fields; IMAGE_ADDR is a multiple of 64
(R175 is silent on it; DESIGN CHOICE, log 115). -/
def bellowsStartChecks (_ : Caller) (p : Sys2Proof.Packet) (s : State) : Option Nat :=
  let c := Packet.ctxNo p
  let sched := Packet.fld p 16 8
  let k := Packet.fld p 32 1
  let n := Packet.fld p 33 1
  let rd := s.t2Reader c sched
  let h := Sched4.of rd
  firstFail
    [(decide (c = 0xFFFF), St.badContext),
     (decide (Packet.len p ≠ 1) || !Packet.rsvZero p 34 36 || !Packet.rsvZero p 56 64 || decide (sched % 64 ≠ 0 ∨ Packet.fld p 24 8 % 64 ≠ 0), St.badParam),
     (decide (k = 0 ∨ 8 < k), St.badParam)]
  |>.orElse (fun _ => match s.partOf c with
    | none => some St.badParam
    | some x =>
      if x.2.state = 2 ∨ x.2.state = 3 then some St.busy
      else firstFail
        [(s.t2Refused x.1 x.2, St.notPermitted),
         (s.t2Evicted c sched 128 || s.t2Evicted c (Packet.fld p 24 8) 64 || s.t2Freeing c sched 128, St.notFound),
         (!s.t2Mapped c sched 128, St.badParam),
         (decide (n ≠ h.clusters) || decide (n ≠ x.2.clusters.length), St.badParam),
         (!s.t2Mapped c sched h.bytes || !h.ok rd, St.badParam),
         (!(List.range n).all (fun i => match s.tiers.regions.get? (bellowsWindow p i) with
            | some r => !r.window && r.freeing.isNone && decide (r.ctx = c) && r.weight && decide (r.cluster = x.2.clusters.getD i 0) && !s.isWindow (bellowsWindow p i)
            | none => false), St.badParam),
         (!(List.range (8 - n)).all (fun i => decide (bellowsWindow p (n + i) = 0xFFFF)), St.badParam),
         (!(List.range n).all (fun i => match s.tiers.regions.get? (bellowsWindow p i) with
            | some r => decide (h.maxLayer * 4096 ≤ r.size / k / 4096 * 4096)
            | none => false), St.badParam),
         (x.2.clusters.any (fun q => decide (4 ≤ (s.lanesUsed q).length)), St.noResource)])

/-- The CCC of each cluster sets its position up: a stream of a class 1 to 3 partition waits while one of them is down (R18,
R373). -/
def bellowsStartEffect (id : Nat) (_ : Caller) (p : Sys2Proof.Packet) (s : State) : State × Reply :=
  let c := Packet.ctxNo p
  match s.partOf c with
  | none => refuse s St.badParam
  | some x =>
    if Packet.fld p 36 4 = 0 then (s, .done St.ok Inf.zeroWork 0)
    else if x.2.state = 4 then (s, .park)
    else if decide (x.2.cls ≠ 0) && x.2.clusters.any (fun k => s.procDown (8 + k)) then (s, .parkWork)
    else
      let k := Packet.fld p 32 1
      let pos := (List.range (Packet.fld p 33 1)).map (fun i =>
        let cl := x.2.clusters.getD i 0
        let lane := ((List.range 4).find? (fun l => !(s.lanesUsed cl).contains l)).getD 0
        let size := match s.tiers.regions.get? (bellowsWindow p i) with
          | some r => r.size
          | none => 0
        (⟨cl, lane, bellowsWindow p i, size / k / 4096 * 4096, 1, 0, []⟩ : BellowsPos))
      let b : Bellows := ⟨c, x.1, id, Packet.fld p 16 8, Packet.fld p 24 8, k, (Sched4.of (s.t2Reader c (Packet.fld p 16 8))).layers, Packet.fld p 36 4, pos, false⟩
      ((State.useModel { s with tiers := { s.tiers with bellows := s.tiers.bellows.set (bellowsWindow p 0) b } } c (Packet.fld p 24 8)).useModel c (Packet.fld p 16 8), .later)

def bellowsStartBody : Body := checked bellowsStartChecks bellowsStartEffect

/-- BELLOWS_START (R175). -/
def execBellowsStart (p : Sys2Proof.Packet) (s : State) : Host.Outcome State Fault Refusal := .next (runPacket 0x303 bellowsStartBody p s)

def bellowsStopChecks (_ : Caller) (p : Sys2Proof.Packet) (s : State) : Option Nat :=
  let h := Packet.fld p 16 2
  firstFail [(!shortOk p 18, St.badParam), (!s.tiers.bellows.has h, St.notFound),
    (match s.tiers.bellows.get? h with
     | some b => decide (Packet.ctxNo p ≠ b.ctx ∧ Packet.ctxNo p ≠ 0xFFFF)
     | none => false, St.notPermitted)]

/-- The packet reads a window there and meets units not READY: by a descriptor, or as the tiles of a move. -/
def State.readsLacking (s : State) (wins : List Nat) (code : Nat) (p : Sys2Proof.Packet) : Bool :=
  (descOffsets code p).any (fun o => let t := Packet.desc p o; decide (t.loc = 1) && wins.contains t.handle && s.windowWaits t (s.windowSpan t)) ||
  (decide (code = 0x300 ∧ Packet.fld p 32 1 = 1) && wins.contains (bits (Packet.fld p 16 8) 63 48) &&
    (Tiles.mk (Packet.fld p 40 4) (Packet.fld p 44 4) (Packet.fld p 36 4)).any (bits (Packet.fld p 16 8) 23 0) (s.windowLacks (bits (Packet.fld p 16 8) 63 48)))

/-- The reads waiting on the windows end with ABORTED, those of firings and of stream operations at their next turn; then the
BELLOWS_START, then the BELLOWS_STOP (R177). -/
def bellowsStopEffect (id : Nat) (_ : Caller) (p : Sys2Proof.Packet) (s : State) : State × Reply :=
  let h := Packet.fld p 16 2
  let wins := match s.tiers.bellows.get? h with
    | some b => b.positions.map BellowsPos.window
    | none => []
  let pos := match s.tiers.bellows.get? h with
    | some b => b.positions
    | none => []
  let s := (s.proto.flights.filter (fun f => f.parked && !f.pages && decide (f.id ≠ id) && s.readsLacking wins f.opcode f.pkt)).foldl
    (fun s f => s.finish f.id St.aborted 0 0) s
  done0 (State.endBellows { s with tiers := { s.tiers with stopped := s.tiers.stopped ++ pos } } h St.aborted) 0

def bellowsStopBody : Body := checked bellowsStopChecks bellowsStopEffect

/-- BELLOWS_STOP (R177). -/
def execBellowsStop (p : Sys2Proof.Packet) (s : State) : Host.Outcome State Fault Refusal := .next (runPacket 0x304 bellowsStopBody p s)

def State.setBellows (s : State) (key : Nat) (g : Bellows → Bellows) : State :=
  { s with tiers := { s.tiers with bellows := s.tiers.bellows.update key g } }

def State.setPos (s : State) (key i : Nat) (g : BellowsPos → BellowsPos) : State :=
  { s with tiers := { s.tiers with bellows := s.tiers.bellows.update key (fun b => { b with positions := b.positions.modify i g }) } }

/-- Position of the next fetch: entries run out, a new pass begins. -/
def BellowsPos.next (q : BellowsPos) (count : Nat) : BellowsPos :=
  if q.entry + 1 < count then { q with entry := q.entry + 1 } else { q with entry := 0, pass := q.pass + 1 }

/-- Fetch the next tile of a position, when its place is EMPTY (R178). An entry rewritten since the start so that its tile would
leave its slot, or its layer the schedule, ends the stream like a record that disagrees with its entry (R8, R181; log 99). A fetch
is a tier-2 request, refused to a control-class partition that has no slots any more (R168). -/
def State.bellowsFetch (s : State) (key i : Nat) (b : Bellows) (q : BellowsPos) (link : Sys2Proof.MemOutcome) : State :=
  let rd := s.t2Reader b.ctx b.sched
  let h := b.head s
  let count := h.counts.getD i 0
  if b.repeat_ ≠ 0xFFFFFFFF ∧ b.repeat_ < q.pass then s
  else if count = 0 then (s.setPos key i (fun q => { q with pass := q.pass + 1 })).settleBellows
  else
    let e := h.entry rd i q.entry
    let g := (q.pass - 1) * b.layers + e.layer
    let place := (((List.range q.entry).map (h.entry rd i)).filter (fun x => decide (x.layer = e.layer))).map (·.out4k) |>.foldl (· + ·) 0
    let dst := g % b.k * q.slotSize + place * 4096
    if q.slotSize < (place + e.out4k) * 4096 ∨ b.layers ≤ e.layer then s.endBellows key St.memUncorrectable
    else if q.tiles.any (fun t => rangesMeet t.dst t.bytes dst (e.out4k * 4096)) then s
    else if s.t2Barred b.ctx then s.endBellows key St.notPermitted
    else if s.t2Evicted b.ctx (b.image + e.src) e.srcBytes then s.endBellows key St.notFound
    else match s.phys? b.ctx (b.image + e.src) with
    | none => s.endBellows key St.memUncorrectable
    | some first =>
      let (s, lost) := s.met .tier2 (fun a => first / 64 * 64 + a % 64) link
      let s := if link = .codebook then s.dropCodebook q.cluster b.ctx (Rec.of (s.t2Reader b.ctx (b.image + e.src))).codebook else s
      let s := if memFixed link then s.setBellows key (fun b => { b with ecc := true }) else s
      if lost then s.endBellows key St.memUncorrectable
      else if !s.t2Mapped b.ctx (b.image + e.src) e.srcBytes then s.endBellows key St.memUncorrectable
      else match s.t2Poison b.ctx (b.image + e.src) e.srcBytes with
      | some a => (s.uncorrectable .tier2 a).endBellows key St.memUncorrectable
      | none =>
        let r : State × Except Nat (List Byte) := if e.decode then (match s.swage q.cluster b.ctx (b.image + e.src) with
            | (t, .ok (x, bs)) => (t, if x.bytes = e.srcBytes ∧ x.out4k = e.out4k then .ok bs else .error St.memUncorrectable)
            | (t, .error st) => (t, .error st))
          else (s, if e.srcBytes ≤ e.out4k * 4096 then .ok (s.t2Read b.ctx (b.image + e.src) e.srcBytes) else .error St.memUncorrectable)
        match r.2 with
        | .error st => r.1.endBellows key st
        | .ok bs =>
          ((r.1.apply [⟨.region, regionKey q.window dst, bs⟩]).accPart b.part (fun a => a.move ⟨bs.length, e.srcBytes, 0, 0⟩)).setPos key i (fun q =>
            { q.next count with tiles := q.tiles ++ [⟨dst, e.out4k * 4096, e.consumers, g, true⟩] })

/-! ### Slot 49 (R170) -/

/-- A line of a frame that lies on a stack: the blocks of a frame are spread over the stacks of its home (R163). -/
def State.lineOn (s : State) (stack f : Nat) : Nat :=
  (((List.range 16).map (fun i => f * 65536 + 4096 * i)).find? (fun k => decide (s.stackOf k = stack))).getD (f * 65536)

/-- MAINTENANCE_SLOT (R170, R444, R447): refresh, at most one delay tap per stack and frame, and patrol scrub. One count stands
for all receive and transmit delays of a stack, which the margin given moves alike (log 100). -/
def execMaintenanceSlot (stack : Nat) (margin : Int) (scrub : Sys2Proof.ScrubResult) (s : State) : Host.Outcome State Fault Refusal :=
  .next (if !(s.running && (stacksOf s.order).contains stack) || s.power.standby then s
    else
      let step : Int := if margin < 0 then -1 else if margin = 0 then 0 else 1
      let s := if s.tiers.trained.get? stack = some s.frameNo then s
        else { s with tiers := { s.tiers with taps := s.tiers.taps.set stack ((s.tiers.taps.get? stack).getD 0 + step), trained := s.tiers.trained.set stack s.frameNo } }
      match scrub with
      | .none => s
      | .corrected f => (s.count (fun c => c.bump .tier2 false)).frameCorrects stack f
      | .uncorrectable f => s.uncorrectable .tier2 (s.lineOn stack f))

end Sys2Proof.Machine
end

