-- ==== Sys2Proof/Machine/Transcend.lean ====
section
/-! DEFINITION. The transcendental functions of R108: the correctly rounded FP32 result, computed in fixed point with 512
fraction bits, and the result the unit gives, which is any FP32 value inside the bound of R108 (log 7). -/

namespace Sys2Proof.Machine

/-- One in fixed point. -/
def fxOne : Int := ((2 ^ 512 : Nat) : Int)

def fxMul (a b : Int) : Int := a * b / fxOne
def fxDiv (a b : Int) : Int := if b = 0 then 0 else a * fxOne / b

/-- A finite value in fixed point, truncated. -/
def Fv.fx : Fv → Int
  | .fin neg m e => scaledIntFx neg m (e + 512)
  | _ => 0
where
  scaledIntFx (neg : Bool) (m : Nat) (k : Int) : Int :=
    let v : Int := if 0 ≤ k then ((m * 2 ^ k.toNat : Nat) : Int) else ((m / 2 ^ (-k).toNat : Nat) : Int)
    if neg then -v else v

/-- A fixed-point value as an exact one. -/
def fxFv (x : Int) : Fv := .fin (decide (x < 0)) x.natAbs (-512)

/-- Sum of `x^k / k!` from the term `t` on. -/
def fxExpSum : Nat → Nat → Int → Int → Int → Int
  | 0, _, _, _, acc => acc
  | n + 1, k, x, t, acc => fxExpSum n (k + 1) x (fxMul t x / (k : Int)) (acc + t)

/-- Sum of `y^(2k+1) / (2k+1)`: the inverse hyperbolic tangent. -/
def fxAtanhSum : Nat → Nat → Int → Int → Int → Int
  | 0, _, _, _, acc => acc
  | n + 1, k, y2, t, acc => fxAtanhSum n (k + 2) y2 (fxMul t y2) (acc + t / (k : Int))

/-- Sum of `(-1)^k y^(2k+1) / (2k+1)`: the inverse tangent. -/
def fxAtanSum : Nat → Nat → Int → Int → Int → Int
  | 0, _, _, _, acc => acc
  | n + 1, k, y2, t, acc => fxAtanSum n (k + 2) y2 (-(fxMul t y2)) (acc + t / (k : Int))

def fxAtanh (y : Int) : Int := fxAtanhSum 180 1 (fxMul y y) y 0

def fxLn2 : Int := 2 * fxAtanh (fxOne / 3)

def fxPi : Int :=
  let a := fxOne / 5
  let b := fxOne / 239
  4 * (4 * fxAtanSum 120 1 (fxMul a a) a 0 - fxAtanSum 40 1 (fxMul b b) b 0)

/-- `e^x` as a fixed-point mantissa and a power of two. -/
def fxExp (x : Int) : Int × Int :=
  let k := (x + fxLn2 / 2) / fxLn2
  (fxExpSum 110 1 (x - k * fxLn2) fxOne 0, k)

def expValue (x : Int) : Fv :=
  let (m, k) := fxExp x
  (fxFv m).scale2 k

/-- Natural logarithm of a positive finite value. -/
def fxLn (m : Nat) (e : Int) : Int :=
  let k : Int := m.log2
  let y : Int := ((m * 2 ^ 512 / 2 ^ m.log2 : Nat) : Int)
  2 * fxAtanh (fxDiv (y - fxOne) (y + fxOne)) + (k + e) * fxLn2

/-- Sine and cosine by their series on a reduced argument. -/
def fxSinSum : Nat → Nat → Int → Int → Int → Int
  | 0, _, _, _, acc => acc
  | n + 1, k, x2, t, acc => fxSinSum n (k + 2) x2 (-(fxMul t x2) / ((k + 1 : Nat) * (k + 2 : Nat) : Int)) (acc + t)

def fxReduce (x : Int) : Int :=
  let two := 2 * fxPi
  x - (x + fxPi) / two * two

def fxSin (x : Int) : Int := let r := fxReduce x; fxSinSum 70 1 (fxMul r r) r 0
def fxCos (x : Int) : Int := let r := fxReduce x; fxSinSum 70 0 (fxMul r r) fxOne 0

/-- A finite argument too large in magnitude for the exponential's range. -/
def beyond (x : Fv) (bound : Nat) : Bool := (Fv.ofNat bound).lt x.abs

def expSat (x : Fv) (arg : Fv → Int) : Fv := if beyond x 200 then (if x.isNeg then .fin false 1 (-400) else .inf false) else expValue (arg x)

/-- Correctly rounded FP32 results of the functions of R128 by FUNC, before the subnormal rule. -/
def transExact (func : Nat) (x : Fv) : Fv :=
  match func, x with
  | _, .nan => .nan
  | 0x10, .inf n => if n then .zero else .inf false
  | 0x11, .inf n => if n then .zero else .inf false
  | 0x10, x => r32 (expSat x Fv.fx)
  | 0x11, x => r32 (expSat x (fun y => fxMul y.fx fxLn2))
  | 0x12, .inf n => if n then .nan else .inf false
  | 0x13, .inf n => if n then .nan else .inf false
  | 0x12, .fin n m e => if m = 0 then .inf true else if n then .nan else r32 (fxFv (fxLn m e))
  | 0x13, .fin n m e => if m = 0 then .inf true else if n then .nan else
      r32 (fxFv (if 2 ^ m.log2 = m then ((m.log2 : Int) + e) * fxOne else fxDiv (fxLn m e) fxLn2))
  | 0x14, x => r32 (Fv.one.div x)
  | 0x15, .inf n => if n then .nan else .zero
  | 0x15, .fin n m e => if m = 0 then .inf n else if n then .nan else r32 (Fv.one.div (Fv.fin n m e).sqrt)
  | 0x16, x => fsqrt x
  | 0x17, .fin n m e => if m = 0 then .fin n 0 0 else r32 (fxFv (fxSin (Fv.fx (.fin n m e))))
  | 0x18, .fin n m e => r32 (fxFv (fxCos (Fv.fx (.fin n m e))))
  | 0x19, .inf n => .fin n 1 0
  | 0x19, .fin n m e =>
    if m = 0 then .fin n 0 0
    else if beyond (.fin n m e) 64 then .fin n 1 0
    else
      let (v, k) := fxExp (2 * Fv.fx (.fin false m e))
      let t := if 0 ≤ k then v * 2 ^ k.toNat else v / 2 ^ (-k).toNat
      r32 (let y := fxFv (fxDiv (t - fxOne) (t + fxOne)); if n then y.neg else y)
  | 0x1A, .inf n => if n then .zero else .one
  | 0x1A, x =>
    if beyond x 200 then (if x.isNeg then .fin false 1 (-400) else .one)
    else
      let (v, k) := fxExp (-(x.fx))
      if k < 400 then r32 ((Fv.fin false 1 0).div ((fxFv v |>.scale2 k).add .one)) else .fin false 1 (-400)
  | _, _ => .nan

/-- Maximum error in ulp (R108); SQRT is exact. -/
def transUlp (func : Nat) : Nat := if func = 0x16 then 0 else if func < 0x16 then 1 else 2

/-- The results R108 states outright: special values and NaN. -/
def transStated (func : Nat) (x : Fv) : Bool :=
  x.isNan ||
  (match func with
   | 0x10 => x.isInf
   | 0x11 => x.isInf
   | 0x12 => x.isZero || (x.isNeg && !x.isZero)
   | 0x13 => x.isZero || (x.isNeg && !x.isZero)
   | 0x14 => x.isZero
   | 0x15 => x.isZero || (x.isNeg && !x.isZero)
   | 0x16 => true
   | 0x19 => x.isInf
   | 0x1A => x.isInf && x.isNeg
   | _ => false)

/-- A code as a place on the number line, so that neighbours differ by one ulp. -/
def codePlace (c : Nat) : Int := if c < 2 ^ 31 then (c : Int) else -((c - 2 ^ 31 : Nat) : Int)

/-- The free result lies inside the bound of R108 around the correctly rounded one; beyond 2^16, sine and cosine are
bounded by an absolute error of 2^-22. -/
def transAllowed (func : Nat) (x exact free : Fv) : Bool :=
  if (func = 0x17 ∨ func = 0x18) ∧ beyond x 65536 then free.isFin && (free.sub exact).abs.le (.fin false 1 (-22))
  else !free.isNan && !exact.isNan && decide ((codePlace (code32 free) - codePlace (code32 exact)).natAbs ≤ transUlp func)

/-- The unit's result: stated, or any value inside the bound; a value the manual does not bound is free (R108). -/
def transResult (func seed : Nat) (x : Fv) : Fv :=
  let exact := transExact func x
  let free := f32 (Sys2Proof.Config.freeFp32 seed (BitVec.ofNat 32 (code32 x))).toNat
  if transStated func x then exact
  else if (func = 0x17 ∨ func = 0x18) && x.isInf then free
  else if transAllowed func x exact free then free else exact

/-- The exact result is zero. -/
def transZero (func : Nat) (x : Fv) : Bool :=
  match func with
  | 0x10 => x.isInf && x.isNeg
  | 0x11 => x.isInf && x.isNeg
  | 0x12 => decide (code32 x = 0x3F800000)
  | 0x13 => decide (code32 x = 0x3F800000)
  | 0x14 => x.isInf
  | 0x15 => x.isInf
  | 0x1A => x.isInf && x.isNeg
  | 0x18 => false
  | _ => x.isZero

/-- A result too small for a normal value becomes a zero with the sign of the exact result, and UNDERFLOW_ZERO says that a nonzero
result was written as zero; an exact zero is written as such (R108, R116, R119): the value and the flag. -/
def transOut (func seed : Nat) (x : Fv) : Fv × Nat :=
  let exact := transExact func x
  if transZero func x then (exact, 0)
  else
    let y := transResult func seed x
    if y.isFin && y.abs.lt (.fin false 1 (-126)) then (.fin exact.isNeg 0 0, fUnder) else (y, 0)

end Sys2Proof.Machine
end

