-- ==== Sys2Proof/Machine/Engines.lean ====
section
/-! DEFINITION. MATMUL, VECTOR_OP, REDUCE and MOVE (R102 to R119, R125 to R129, R145 to R153). -/

namespace Sys2Proof.Machine

/-! ### Shared by the four compute opcodes -/

/-- The compute prologue (R145). -/
structure Prologue where
  first : Nat
  n : Nat
  split : Nat
  arith : Nat
  seed : Nat
  func : Nat
  opflags : Nat
  imm : Nat
deriving DecidableEq, Repr

def Packet.prologue (p : Sys2Proof.Packet) : Prologue :=
  ⟨Packet.fld p 16 1, Packet.fld p 17 1, Packet.fld p 18 1, Packet.fld p 19 1, Packet.fld p 20 4, Packet.fld p 24 2,
   Packet.fld p 26 2, Packet.fld p 28 4⟩

def Prologue.ar (g : Prologue) : Arith := Arith.of g.arith g.seed

/-- Fields of the prologue that every opcode checks alike (R111, R145, R153). -/
def Prologue.ok (g : Prologue) (q : Partition) : Bool :=
  decide (g.n ≤ 128) && decide (g.split ≤ 1) && arithOk g.arith && decide (g.opflags ≤ 1) && decide (g.first + g.n ≤ q.inService)

/-- The participating cores, none of them vacant (R455). -/
def Partition.cores (q : Partition) (first n : Nat) : Option (List Nat) := (q.span first n).foldr (fun c a => match c, a with
  | some x, some l => some (x :: l)
  | _, _ => none) (some [])

/-- Resolve a source: its handles and its range. A tiled one is resolved by its first line, and by its own tile size once
its headers are read. -/
def State.src (s : State) (ctx p : Nat) (q : Partition) (kind : Nat) (t : TDesc) : Except Nat Operand :=
  s.source ctx p q t (if t.layout = 0 ∧ !t.isEmpty then 64 else t.extent kind)

/-- The cores whose own copies an operand is read from: each core's own at LOC 0, one copy elsewhere (R147). -/
def Operand.copies (o : Operand) (cores : List Nat) : List Nat := if o.desc.loc = 0 then cores else cores.take 1

/-- Bytes of an operand, by the tile size its headers give (R138). -/
def Operand.need (o : Operand) (dflt : Nat) (cores : List Nat) : Nat :=
  ((o.copies cores).map (fun c => o.desc.trueExtent (o.desc.kindOf dflt (o.read c)) (o.read c))).foldl max 0

/-- The tile headers of a resolved source agree with its descriptor on every core (R153). -/
def Operand.headersFit (o : Operand) (kinds : List Nat) (cores : List Nat) : Bool :=
  o.desc.isEmpty || (o.copies cores).all (fun c => o.desc.headersOk kinds (o.read c))

/-- The status of a source whose range, by its own tile size, does not lie inside its object. -/
def State.srcStop (s : State) (ctx p : Nat) (q : Partition) (kinds : List Nat) (o : Operand) (cores : List Nat) : Option Nat :=
  match s.source ctx p q o.desc (o.need (kinds.headD 1) cores) with
  | .ok _ => none
  | .error e => some e

/-- A resolved source is readable on these cores. DESIGN CHOICE: at LOC 0 that is every participating core, for the C that
ACCUMULATE reads as for any other source (log 98). -/
def State.srcFits (s : State) (ctx p : Nat) (q : Partition) (kinds : List Nat) (o : Operand) (cores : List Nat) : Bool :=
  o.headersFit kinds cores && (s.srcStop ctx p q kinds o cores).isNone

/-- The part of an operation that writes: per participating core, rows of the destination and summary bits. -/
structure Produced where
  rows : List (Nat × List Byte)
  flags : Nat
deriving DecidableEq, Repr

/-- What a compute operation needs to be placed. -/
structure Plan where
  owner : Owner
  engine : Option Sys2Proof.Engine
  ctx : Nat
  part : Nat
  first : Nat
  cores : List Nat
  srcs : List (TDesc × Nat)
  holds : List (Nat × Nat)
  dest : TDesc
  /-- Bytes of the destination from its address on. -/
  destBytes : Nat
  /-- The destination is read as well, as one operand (ACCUMULATE). -/
  inPlace : Bool
  /-- Bytes of the partial result that every core but the first sends to it (R152). -/
  partialBytes : Nat
  busy : List Bool
  flagsIn : Nat
  cycles : List Nat
deriving DecidableEq, Repr

/-- Core-store ranges of an operation (R143). -/
def Plan.ranges (g : Plan) : List (Nat × Nat × Bool) :=
  (g.srcs.filter (fun x => decide (x.1.loc = 0))).map (fun x => (x.1.off, x.1.off + x.2, false)) ++
  (if g.dest.loc = 0 then [(g.dest.off, g.dest.off + g.destBytes, true)] else [])

/-- Walkers of an operation on each core: one for each operand in linear layout (R134, R146). -/
def Plan.walkers (g : Plan) : List Walker :=
  ((g.srcs.map (fun x => x.1.walkers)).flatten ++ (if g.inPlace then [] else g.dest.walkers)).take 4

/-- Pieces of at most 65,472 bytes, with their offsets. -/
def rowPieces (off : Nat) (bs : List Byte) : List (Nat × Nat) :=
  (List.range (ceilDiv bs.length 65472)).map (fun i => (off + 65472 * i, min 65472 (bs.length - 65472 * i)))

/-- The descriptors that take a result to another store: a PUT for whole tiles, a SCATTER by a walker for each row of a
linear tensor (R139; log 97). -/
def resultDescs (o : Owner) (t : TDesc) (rows : List (Nat × List Byte)) : List Desc :=
  if t.loc = 0 then []
  else if t.layout = 0 then putDescs o t ((rows.map (fun r => r.2.length)).foldl (· + ·) 0)
  else ((rows.map (fun r => rowPieces r.1 r.2)).flatten).map (fun x =>
    { owner := o, op := 5, order := false, rloc := rlocOf t.loc, length := x.2, started := false, window := none, tag := 0,
      remote := t.addr + x.1, walk := some (Walker.block (t.addr + x.1) x.2) })

/-- The slot of a MOVE that Tongs does alone: no engine runs it, and it holds its place and its walkers until its descriptors
have retired (R134, R142). -/
def loneSlot (o : Owner) (walkers : List Walker) (ranges : List (Nat × Nat × Bool)) (part : Nat) : OpSlot :=
  { owner := o, engine := none, walkers := walkers, issued := false, cycles := 0, ranges := ranges, part := part, tag := 0 }

/-- Descriptors of core `j` of a plan: the remote sources come in, a partial result goes to the first core, and the result
leaves (R139, R152, R154). An operation without an engine is the descriptors alone, and what it sends on it has brought in before. -/
def Plan.moves (g : Plan) (s : State) (n i j : Nat) (rows : List (Nat × List Byte)) : List Desc :=
  let core := g.cores.getD j 0
  let bytes := (rows.map (fun r => r.2.length)).foldl (· + ·) 0
  let read := (g.srcs.filter (fun x => decide (x.1.loc = 0))).map (fun x => (x.1.off, x.1.off + x.2, false))
  let into := if g.engine.isNone && g.dest.loc = 0 then g.dest.off else 0
  let from_ := match g.srcs with
    | [x] => if g.engine.isNone && x.1.loc = 0 then x.1.off else 0
    | _ => 0
  let come := (g.srcs.map (fun x => s.readDescs g.owner x.1 x.2 n i into)).flatten
  let here := if g.engine.isNone && g.dest.loc = 0 && !read.isEmpty then
      (descs g.owner 1 0 0 bytes into).map (fun d => { d with rcore := core, ranges := read }) else []
  let part := if g.partialBytes = 0 ∨ j = 0 then [] else (descs g.owner 2 0 0 g.partialBytes).map (fun d => { d with rcore := g.cores.getD 0 0 })
  let go := (resultDescs g.owner g.dest rows).map (fun d => if g.engine.isNone then
      { d with ranges := read, order := !come.isEmpty, local_ := d.local_ + from_ } else d)
  (if g.engine.isNone then come.map (fun d => { d with notify := false }) else come) ++ here ++ part ++ go

/-- The operation of a plan, given what each core produces. -/
def Plan.work (g : Plan) (s : State) (out : Nat → Produced) : Work :=
  let js := (List.range g.cores.length).filter (fun j => g.busy.getD j false)
  let n := max 1 js.length
  let prod := js.map (fun j => (j, g.cores.getD j 0, out j))
  let wr := prod.map (fun x => (x.2.2.rows.map (fun r => s.destWr g.ctx x.2.1 g.dest r.1 r.2)).flatten)
  let exc := g.flagsIn ||| orFlags (prod.map (fun x => x.2.2.flags))
  let remote := g.srcs.filter (fun x => decide (x.1.loc ≠ 0))
  let descs := (((List.range prod.length).zip prod).map (fun x => (g.moves s n x.1 x.2.1 x.2.2.2.rows).map (fun d => (x.2.2.1, d)))).flatten
  let outBytes := (prod.map (fun x => (x.2.2.rows.map (fun r => r.2.length)).foldl (· + ·) 0)).foldl (· + ·) 0
  { status := St.ok, info := 0, exc := exc,
    result := computeResult exc js.length (cyclesOf s.fresh (g.cycles.foldl max 0)),
    core := if g.dest.loc = 0 then wr.flatten else [], later := if g.dest.loc = 0 then [] else wr.flatten, host := [],
    slots := match g.engine with
      | none => ((descs.map (·.1)).eraseDups).map (fun c => (c, loneSlot g.owner g.walkers g.ranges g.part))
      | some e => js.map (fun j => (g.cores.getD j 0, opSlot g.owner e g.walkers (g.cycles.getD j 0) g.ranges g.part)),
    descs := descs,
    holds := g.holds,
    traffic := (remote.map (fun x => traffic (s.pathLoc x.1) x.2 false)).foldl Traffic.add (traffic g.dest.loc outBytes true) }

/-- The destinations of an operation stopped by an uncorrectable operand hold partial results (R144; log 5). -/
def Work.spoil (w : Work) (seed : Nat) (hit : Store × Nat) : Work :=
  let bad : Nat → List Wr → List Wr := fun k l => (List.range l.length).zip l |>.map (fun x => ⟨x.2.store, x.2.addr, freeBytes (k + x.1) x.2.bytes.length⟩)
  { w with status := St.memUncorrectable, result := 0, chan := none, ends := none, met := some hit, core := bad seed w.core, later := bad (seed + 0x100000000) w.later,
           host := (List.range w.host.length).zip w.host |>.map (fun x => (x.2.1, freeBytes (seed + 0x200000000 + x.1) x.2.2.length)) }

def Work.spoilIf (w : Work) (seed : Nat) (hit : Option (Store × Nat)) : Work := match hit with
  | some x => w.spoil seed x
  | none => w

/-- Units of a destination (R150). -/
def TDesc.units (t : TDesc) : Nat :=
  if t.layout = 1 then t.d1 * t.d2 * t.d3 else t.d2 * t.d3 * ceilDiv t.d1 64 * ceilDiv t.d0 32

/-- The unit that an element belongs to (R150). -/
def TDesc.unitAt (t : TDesc) (i0 i1 i2 i3 : Nat) : Nat :=
  if t.layout = 1 then i1 + t.d1 * (i2 + t.d2 * i3) else ((i2 + t.d2 * i3) * ceilDiv t.d1 64 + i1 / 64) * ceilDiv t.d0 32 + i0 / 32

/-- Units of position `j` of `n` (R150). -/
def unitsOf (u n j : Nat) : Nat := if n = 0 then 0 else (u + n - 1 - j) / n

/-- After the field checks: resolution, zero work, vacancies, the windows that are still to be filled, headers, poison, then the
operation; a header in a unit that is not READY is read when it is (R178). `out` gives what core `j` with physical number `c` produces; `dlen` the bytes of the destination, at least `dmin`; `acc` says that the
destination is a source too, `part` how many bytes of partial results travel, and `made` that the operation lays out the tiles
of its destination itself. -/
def attempt (s : State) (o : Owner) (ctx p : Nat) (q : Partition) (g : Prologue) (engine : Option Sys2Proof.Engine)
    (srcs : List (TDesc × List Nat)) (dest : TDesc) (busy : Nat → Bool) (cycles : Nat → Nat)
    (out : List Operand → List Nat → Nat → Produced) (insOf : List Operand → List Nat → Nat)
    (acc : Bool := false) (part : Nat := 0) (dmin : Nat := dest.extent (tileKindOf dest.fmt))
    (dlen : List Operand → List Nat → Nat := fun _ _ => dmin) (made : Bool := !acc) : Attempt :=
  let res := srcs.map (fun x => s.src ctx p q (x.2.headD 1) x.1)
  let errs := res.filterMap (fun r => match r with
    | .error e => some e
    | .ok _ => none)
  let ops := res.filterMap (fun r => match r with
    | .ok a => some a
    | .error _ => none)
  match errs.head?, s.destOk ctx p q dest dmin made with
  | some e, _ => .stop e 0 0
  | none, some e => .stop e 0 0
  | none, none =>
    if g.n = 0 ∨ dest.isEmpty ∨ srcs.any (fun x => x.1.isEmpty) then .stop St.ok Inf.zeroWork 0
    else match q.cores g.first g.n with
      | none => .stop St.coreFault 0 0
      | some cores =>
        let both := ops.zip srcs
        if both.any (fun x => s.windowWaits x.2.1 (s.windowSpan x.2.1)) then .wait
        else if !both.all (fun x => x.1.headersFit x.2.2 cores) then .headers
        else match both.findSome? (fun x => s.srcStop ctx p q x.2.2 x.1 cores), s.destOk ctx p q dest (dlen ops cores) made with
        | some e, _ => .stop e 0 0
        | none, some e => .stop e 0 0
        | none, none =>
          let sized := both.map (fun x => (x.2.1, x.1.need (x.2.2.headD 1) cores))
          let plan : Plan :=
            { owner := o, engine := engine, ctx := ctx, part := p, first := g.first, cores := cores,
              srcs := sized, holds := (ops.map (·.holds)).flatten, dest := dest, destBytes := dlen ops cores, inPlace := acc, partialBytes := part,
              busy := (List.range cores.length).map busy, flagsIn := insOf ops cores, cycles := (List.range cores.length).map cycles }
          let w := plan.work s (out ops cores)
          .run (w.spoilIf s.fresh (s.poisonOf ctx cores sized))

/-- Every element of an operand, as one core reads it. -/
def Operand.values (o : Operand) (dflt core : Nat) : List Fv :=
  let t := o.desc
  let k := t.kindOf dflt (o.read core)
  ((List.range t.d3).map (fun i3 => ((List.range t.d2).map (fun i2 => ((List.range t.d1).map (fun i1 =>
    (List.range t.d0).map (fun i0 => t.value k (o.read core) i0 i1 i2 i3))).flatten)).flatten)).flatten

/-- Summary bits of an operand's values, over all participating cores (R119, R149). -/
def Operand.flags (o : Operand) (dflt : Nat) (cores : List Nat) : Nat := orFlags ((o.copies cores).map (fun c => flagsIn (o.values dflt c)))

/-- The same where the values are widened to FP32 on load (R107). -/
def Operand.loadFlags (o : Operand) (ar : Arith) (dflt : Nat) (cores : List Nat) : Nat :=
  orFlags ((o.copies cores).map (fun c => orFlags ((o.values dflt c).map (fun x => inFlags x ||| (ar.to32 x).2))))

/-- An element widened to FP32, as one core loads it. -/
def Operand.at_ (o : Operand) (ar : Arith) (dflt core i0 i1 i2 i3 : Nat) : Fv :=
  o.desc.load ar (o.desc.kindOf dflt (o.read core)) (o.read core) i0 i1 i2 i3

/-- Summary bits over the elements of a result. -/
def TDesc.eachFlags (t : TDesc) (f : Nat → Nat → Nat → Nat → Nat) : Nat :=
  orFlags ((List.range t.d3).map (fun i3 => orFlags ((List.range t.d2).map (fun i2 => orFlags ((List.range t.d1).map (fun i1 =>
    orFlags ((List.range t.d0).map (fun i0 => f i0 i1 i2 i3))))))))

/-- A nonzero result that was taken to zero on the way (R116). -/
def underIf (x : Fv) (lost : Bool) : Nat := if x.isZero && lost then fUnder else 0

/-! ### MATMUL (R103, R106, R126, R127, R151, R152) -/

/-- G: 16 when either operand is BF16 (R106). -/
def matmulGroup (a b : TDesc) : Nat := if a.fmt = 1 ∨ b.fmt = 1 then 16 else 32

/-- A rounding step took a nonzero value to zero. -/
def lostTo (x y : Fv) : Bool := y.isZero && x.isFin && !x.isZero

/-- One group's product sum rounded to FP32, with its scales, and whether it was taken to zero (R106). A group cut short by
the end of K is filled with +0 (R97, R136). A linear B operand in an MX format carries its blocks along N, so its scale joins
each product (log 17). -/
def groupTerm (a b : Operand) (core m n batch k0 k1 : Nat) : Fv × Bool :=
  let ka := a.desc.kindOf 1 (a.read core)
  let kb := b.desc.kindOf 2 (b.read core)
  let bb := if b.desc.d2 = 1 then 0 else batch
  let loose := decide (b.desc.layout = 1) && isMx b.desc.fmt
  let terms := (List.range (k1 - k0)).map (fun i =>
    let (ca, sa) := a.desc.code ka (a.read core) (k0 + i) m batch 0
    let (cb, sb) := b.desc.code kb (b.read core) n (k0 + i) bb 0
    let x := (elemValue a.desc.fmt ca).mul (elemValue b.desc.fmt cb)
    (if loose then x.mul (scaleValue sb) else x, sa, sb))
  let full := match terms with
    | [] => Fv.zero
    | t :: r => r.foldl (fun acc y => acc.add y.1) t.1
  let sum := if k1 - k0 = matmulGroup a.desc b.desc then full else full.add .zero
  let (sa, sb) := match terms with
    | [] => (127, 127)
    | t :: _ => (t.2.1, if loose then 127 else t.2.2)
  let x := r32 sum
  let y := if isMx a.desc.fmt ∨ isMx b.desc.fmt then r32 (x.mul ((scaleValue sa).mul (scaleValue sb))) else x
  (y, lostTo sum y)

/-- Accumulate groups `g0` to `g1` on a starting value, and whether a term was taken to zero (R106). -/
def groupsFrom (a b : Operand) (core m n batch g0 g1 : Nat) (c0 : Fv) : Fv × Bool :=
  let g := matmulGroup a.desc b.desc
  ((List.range (g1 - g0)).map (fun i => g0 + i)).foldl
    (fun acc i =>
      let t := groupTerm a b core m n batch (i * g) (min a.desc.d0 ((i + 1) * g))
      (fadd acc.1 t.1, acc.2 || t.2)) (c0, false)

/-- Cycles per group (R126). -/
def groupCycles (a b : Nat) : Nat := if a = 8 ∧ b = 8 then 16 else 32

def matmulShapes (a b c : TDesc) : Bool :=
  decide (a.d0 = b.d1 ∧ b.d0 = c.d0 ∧ a.d1 = c.d1 ∧ a.d2 = c.d2 ∧ (b.d2 = a.d2 ∨ b.d2 = 1) ∧ a.d3 = 1 ∧ b.d3 = 1 ∧ c.d3 = 1)

/-- DESIGN CHOICE: with SPLIT 1 and K = 0 there are no groups, so NCORES above NG answers BAD_PARAM before zero work is seen
(R82, R153; log 109). -/
def compMatmul : Compute := fun o ctx p q pk s =>
  let g := Packet.prologue pk
  let a := Packet.desc pk 32
  let b := Packet.desc pk 80
  let c := Packet.desc pk 128
  let ng := ceilDiv a.d0 (matmulGroup a b)
  let acc := bit g.opflags 0
  if decide (Packet.len pk ≠ 3) || !Packet.rsvZero pk 176 192 || !g.ok q || decide (g.func ≠ 0) ||
     !(a.wellShaped && b.wellShaped && c.wellShaped) || !(tensorReads a.fmt && tensorReads b.fmt && tensorWrites c.fmt) ||
     !matmulShapes a b c || decide (c.loc = 3) || (decide (g.split = 1) && decide (ng < g.n)) then .stop St.badParam 0 0
  else
    let srcs := [(a, [1]), (b, [2])] ++ (if acc then [(c, [tileKindOf c.fmt])] else [])
    let start : List Operand → Nat → Nat → Nat → Nat → Fv := fun ops core n m batch => match ops[2]? with
      | some x => x.at_ g.ar (tileKindOf c.fmt) core n m batch 0
      | none => .zero
    let elem : List Operand → List Nat → Nat → Nat → Nat → Nat → Nat → Fv × Bool := fun ops cores j n m batch _ =>
      match ops[0]?, ops[1]? with
      | some x, some y =>
        if g.split = 0 then groupsFrom x y (cores.getD j 0) m n batch 0 ng (start ops (cores.getD j 0) n m batch)
        else
          let parts := (List.range g.n).map (fun i =>
            groupsFrom x y (cores.getD i 0) m n batch (i * ng / g.n) ((i + 1) * ng / g.n) (if i = 0 then start ops (cores.getD 0 0) n m batch else .zero))
          (treeSum (parts.map (·.1)), parts.any (·.2))
      | _, _ => (.zero, false)
    let tiles : Nat → Nat := fun j =>
      if g.split = 1 then c.d2 * ceilDiv c.d1 64 * ceilDiv c.d0 32
      else if c.layout = 0 then unitsOf c.units g.n j
      else ((List.range c.d2).map (fun b => ceilDiv (unitsOf ((b + 1) * c.d1) g.n j - unitsOf (b * c.d1) g.n j) 64)).sum * ceilDiv c.d0 32
    attempt s o ctx p q g (some .tensor) srcs c
      (fun j => decide (g.split = 1) || decide (0 < unitsOf c.units g.n j))
      (fun j => tiles j * (if g.split = 1 then (j + 1) * ng / g.n - j * ng / g.n else ng) * groupCycles a.fmt b.fmt + 64)
      (fun ops cores j =>
        let r := c.rowsOut g.ar (fun i0 i1 i2 i3 => (elem ops cores j i0 i1 i2 i3).1) (fun u => if g.split = 1 then decide (j = 0) else decide (u % g.n = j))
          (fill := false) (onto := (ops[2]?).map (fun x => x.read (cores.getD j 0)))
        ⟨r.1, r.2⟩)
      (fun ops cores => orFlags ((ops.zip srcs).map (fun x => x.1.flags (x.2.2.headD 1) cores)) |||
        c.eachFlags (fun i0 i1 i2 i3 =>
          let x := elem ops cores (c.unitAt i0 i1 i2 i3 % g.n) i0 i1 i2 i3
          underIf x.1 x.2))
      acc (if g.split = 1 then 4 * c.count else 0)
      (dlen := fun ops cores => match ops[2]? with
        | some x => x.need (tileKindOf c.fmt) cores
        | none => c.extent (tileKindOf c.fmt))

def matmulBody : Body := computeBody compMatmul

/-- MATMUL (R148). -/
def execMatmul (p : Sys2Proof.Packet) (s : State) : Host.Outcome State Fault Refusal := .next (runPacket 0x200 matmulBody p s)

/-! ### VECTOR_OP (R107, R108, R128) -/

/-- Sources a FUNC uses; none for an unassigned one (R128). -/
def vectorSources (f : Nat) : Option Nat :=
  if f = 1 ∨ f = 2 ∨ f = 3 ∨ f = 5 ∨ f = 6 ∨ f = 7 then some 2
  else if f = 4 then some 3
  else if f = 8 ∨ f = 9 ∨ f = 10 ∨ (0x10 ≤ f ∧ f ≤ 0x1A) ∨ f = 0x20 then some 1
  else none

/-- Exact value before the rounding into the destination, and summary bits (R107, R108). -/
def vectorFn (f imm seed : Nat) (x y z : Fv) : Fv × Nat :=
  match f with
  | 1 => (x.add y, 0)
  | 2 => (x.sub y, 0)
  | 3 => (x.mul y, 0)
  | 4 => (x.fma y z, 0)
  | 5 => (x.fma (f32 imm) y, 0)
  | 6 => (x.max y, 0)
  | 7 => (x.min y, 0)
  | 8 => (x.abs, 0)
  | 9 => (x.neg, 0)
  | 10 => (x.mul (f32 imm), 0)
  | 0x20 => (x, 0)
  | f => transOut f seed x

/-- A source matches the destination or is 1 wide in a dimension (R128). -/
def broadcasts (a d : TDesc) : Bool :=
  decide ((a.d0 = d.d0 ∨ a.d0 = 1) ∧ (a.d1 = d.d1 ∨ a.d1 = 1) ∧ (a.d2 = d.d2 ∨ a.d2 = 1) ∧ (a.d3 = d.d3 ∨ a.d3 = 1))

def pickDim (n i : Nat) : Nat := if n = 1 then 0 else i

/-- Elements per cycle (R128). -/
def vectorRate (f : Nat) (allBf16 : Bool) : Nat :=
  if 0x10 ≤ f ∧ f ≤ 0x16 then 16 else if 0x17 ≤ f ∧ f ≤ 0x1A then 8 else if f = 0x20 then 64 else if allBf16 then 128 else 64

/-- Rounding on the way to a narrower destination than FP32: to FP32 first, unless the operation runs in BF16 mode; the
value and the summary bits that this step sets (R107, R112, R114, R116; log 18). -/
def intoDest (fmt : Nat) (bf16Mode : Bool) (ar : Arith) (x : Fv) : Fv × Nat := if fmt = 0 ∨ bf16Mode then (x, 0) else ar.to32 x

def compVector : Compute := fun o ctx p q pk s =>
  let g := Packet.prologue pk
  let d := Packet.desc pk 176
  match vectorSources g.func with
  | none => .stop St.badParam 0 0
  | some n =>
    let ds := (List.range n).map (fun i => Packet.desc pk (32 + 48 * i))
    let bf := decide (d.fmt = 1) && ds.all (fun t => decide (t.fmt = 1))
    if decide (Packet.len pk ≠ 4) || !Packet.rsvZero pk 224 256 || !g.ok q || decide (g.split ≠ 0 ∨ g.opflags ≠ 0) ||
       !(d.wellShaped && ds.all TDesc.wellShaped) || !(vectorTakes d.fmt && ds.all (fun t => vectorTakes t.fmt)) ||
       !(ds.all (fun t => broadcasts t d)) || decide (d.loc = 3) then .stop St.badParam 0 0
    else
      let elem : List Operand → Nat → Nat → Nat → Nat → Nat → Fv × Nat := fun ops core i0 i1 i2 i3 =>
        let v : Nat → Fv := fun i => match ops[i]? with
          | some x => x.at_ g.ar 1 core (pickDim x.desc.d0 i0) (pickDim x.desc.d1 i1) (pickDim x.desc.d2 i2) (pickDim x.desc.d3 i3)
          | none => .zero
        vectorFn g.func g.imm g.func (v 0) (v 1) (v 2)
      attempt s o ctx p q g (some .vector) (ds.map (fun t => (t, [1, 3]))) d (fun j => decide (0 < unitsOf d.units g.n j))
        (fun j => max (ceilDiv (unitsOf d.units g.n j * d.count / max 1 d.units) (vectorRate g.func bf))
          (((ds.map (fun t => t.extent 1)).foldl (· + ·) (d.extent 1)) / (1024 * max 1 g.n)) + 12)
        (fun ops cores j =>
          let core := cores.getD j 0
          let mine : Nat → Bool := fun u => decide (u % g.n = j)
          let r := d.rowsOut g.ar (fun i0 i1 i2 i3 => (intoDest d.fmt bf g.ar (elem ops core i0 i1 i2 i3).1).1) mine
          ⟨r.1, r.2⟩)
        (fun ops cores => orFlags (ops.map (fun x => x.loadFlags g.ar 1 cores)) |||
          d.eachFlags (fun i0 i1 i2 i3 =>
            let e := elem ops (cores.getD (d.unitAt i0 i1 i2 i3 % g.n) 0) i0 i1 i2 i3
            e.2 ||| (intoDest d.fmt bf g.ar e.1).2))

def vectorBody : Body := computeBody compVector

/-- VECTOR_OP (R128). -/
def execVectorOp (p : Sys2Proof.Packet) (s : State) : Host.Outcome State Fault Refusal := .next (runPacket 0x201 vectorBody p s)

/-! ### REDUCE (R129, R151, R152) -/

/-- Index of the first NaN, or of the first maximum (R129). -/
def argmax (xs : List Fv) : Nat :=
  match xs.findIdx? Fv.isNan with
  | some i => i
  | none =>
    let best := xs.foldl Fv.max (.inf true)
    (xs.findIdx? (fun x => !(x.below best) && !(best.below x))).getD 0

/-- The lanes of one core over the indices `a` to `b` of a row (R129): lane `l` takes the indices congruent to `l`. -/
def reducePart (kind : Nat) (xs : List Fv) (a b : Nat) : Fv :=
  let part := List.replicate (a % 64) none ++ ((xs.drop a).take (b - a)).map some
  let step : Fv → Fv → Fv := fun acc x => match kind with
    | 1 => fadd acc x
    | 4 => ffma x x acc
    | 2 => acc.max x
    | _ => acc.min x
  let start : Fv := if kind = 2 then .inf true else if kind = 3 then .inf false else .zero
  let tree : Fv → Fv → Fv := fun x y => if kind = 2 then x.max y else if kind = 3 then x.min y else fadd x y
  let lanes := (List.range 64).map (fun l => ((List.range (ceilDiv (part.length - l) 64)).filterMap (fun k => (part[64 * k + l]?).join)).foldl step start)
  let once : List Fv → List Fv := fun l => (List.range (l.length / 2)).map (fun i => tree (l.getD (2 * i) .zero) (l.getD (2 * i + 1) .zero))
  (iter once 6 lanes).headD .zero

/-- The tree of R152 for a kind. -/
def combine (kind : Nat) (l : List Fv) : Fv :=
  if kind = 2 then l.foldl Fv.max (.inf true) else if kind = 3 then l.foldl Fv.min (.inf false) else treeSum l

/-- DESIGN CHOICES: with SPLIT 1 and DIM0 = 0, NCORES above L answers BAD_PARAM before zero work is seen; and ARGMAX under SPLIT 1 is
the index over the whole row, from the copy of position 0, with no parts to combine (R82, R151, R153; log 109). -/
def compReduce : Compute := fun o ctx p q pk s =>
  let g := Packet.prologue pk
  let a := Packet.desc pk 32
  let d := Packet.desc pk 80
  if decide (Packet.len pk ≠ 2) || !g.ok q || decide (g.func < 1 ∨ 5 < g.func ∨ g.opflags ≠ 0) || !(a.wellShaped && d.wellShaped) ||
     !(vectorTakes a.fmt && vectorTakes d.fmt) || decide (d.d0 ≠ 1 ∨ d.d1 ≠ a.d1 ∨ d.d2 ≠ a.d2 ∨ d.d3 ≠ a.d3) || decide (d.loc = 3) ||
     (decide (g.split = 1) && decide (a.d0 < g.n)) || (decide (g.func = 5) && decide (2 ^ 24 < a.d0)) then .stop St.badParam 0 0
  else
    let row : Operand → Nat → Nat → Nat → Nat → List Fv := fun x core i1 i2 i3 => (List.range a.d0).map (fun i0 => x.at_ g.ar 1 core i0 i1 i2 i3)
    let elem : List Operand → List Nat → Nat → Nat → Nat → Nat → Nat → Fv := fun ops cores j _ i1 i2 i3 => match ops[0]? with
      | none => .zero
      | some x =>
        if g.func = 5 then Fv.ofNat (argmax (row x (cores.getD j 0) i1 i2 i3))
        else if g.split = 0 then reducePart g.func (row x (cores.getD j 0) i1 i2 i3) 0 a.d0
        else combine g.func ((List.range g.n).map (fun i =>
          reducePart g.func (row x (cores.getD i 0) i1 i2 i3) (i * a.d0 / g.n) ((i + 1) * a.d0 / g.n)))
    attempt s o ctx p q g (some .vector) [(a, [1, 3])] d (fun j => decide (g.split = 1) || decide (0 < unitsOf d.units g.n j))
      (fun j => ceilDiv (if g.split = 1 then a.count / g.n else unitsOf d.units g.n j * a.d0) 64 + 12)
      (fun ops cores j =>
        let r := d.rowsOut g.ar (elem ops cores j) (fun u => if g.split = 1 then decide (j = 0) else decide (u % g.n = j))
        ⟨r.1, r.2⟩)
      (fun ops cores => orFlags (ops.map (fun x => x.loadFlags g.ar 1 cores)) |||
        (if g.func ≠ 4 then 0 else d.eachFlags (fun i0 i1 i2 i3 =>
          let j := d.unitAt i0 i1 i2 i3 % g.n
          match ops[0]? with
          | none => 0
          | some x => underIf (elem ops cores j i0 i1 i2 i3) ((row x (cores.getD j 0) i1 i2 i3).any (fun v => v.isFin && !v.isZero)))))
      false (if g.split = 1 then 4 * d.count else 0)

def reduceBody : Body := computeBody compReduce

/-- REDUCE (R129). -/
def execReduce (p : Sys2Proof.Packet) (s : State) : Host.Outcome State Fault Refusal := .next (runPacket 0x202 reduceBody p s)

/-! ### MOVE (R117, R148) -/

/-- Tongs alone does the copy: format and layout are the same (R148). -/
def plainMove (a d : TDesc) : Bool := decide (a.fmt = d.fmt ∧ a.layout = d.layout ∧ a.tileK = d.tileK)

/-- A row of a linear tensor as it is copied: its elements, and +0 to the end of its last block (R97). -/
def TDesc.rowCopy (a : TDesc) (rd : Reader) (i1 i2 i3 : Nat) : List Byte :=
  let bs := packCodes (elemBits a.fmt) ((List.range a.d0).map (fun i0 => (a.code 1 rd i0 i1 i2 i3).1))
  bs ++ zeros (rowBytes a.fmt a.d0 - bs.length)

/-- The bytes of a plain copy of a linear tensor: the rows picked out, and their scales. -/
def plainLinear (a d : TDesc) (rd : Reader) (mine : Nat → Bool) : List (Nat × List Byte) :=
  (((List.range d.units).filter mine).map (fun r =>
    let i1 := r % d.d1
    let i2 := r / d.d1 % d.d2
    let i3 := r / d.d1 / d.d2
    [(i1 * d.s1 + i2 * d.s2 + i3 * d.s3, a.rowCopy rd i1 i2 i3)] ++
    (if isMx a.fmt then [(d.splane + r * ceilDiv d.d0 32, (List.range (ceilDiv a.d0 32)).map (fun k => rd (a.scaleAt i1 i2 i3 + k)))] else []))).flatten

/-- A piece of a row of a tile as it is copied: the codes that lie in the tensor, +0 for the others up to the group's or the MX
block's end, and the scale byte of an MX format (R97, R136). -/
def copyPiece (fmt : Nat) (rd : Reader) (geo : TileGeo) (base cols m k valid n : Nat) : List (Nat × List Byte) :=
  let at_ := tileElem geo fmt cols m k
  let codes := (List.range n).map (fun i =>
    if i < valid then readBits rd ((base + geo.eplane) * 8 + at_.1 + i * elemBits fmt) (elemBits fmt) else 0)
  [(base + geo.eplane + at_.1 / 8, packCodes (elemBits fmt) codes)] ++ (if isMx fmt then [(base + geo.splane + at_.2, [rd (base + geo.splane + at_.2)])] else [])

/-- The bytes of a plain copy of B-tiles: no output tiles, each is a unit of its own (log 96). -/
def plainB (a : TDesc) (rd : Reader) (mine : Nat → Bool) : List (Nat × List Byte) :=
  let tile := readLe rd 2 1 * 4096
  let nk := ceilDiv a.d1 a.tileK
  let g := groupOf a.fmt
  (((List.range (a.trueExtent 2 rd / max 1 tile)).filter mine).map (fun u =>
    let geo := readGeo 2 rd (u * tile)
    let kk := min a.tileK (a.d1 - u % nk * a.tileK)
    let mm := min 32 (a.d0 - u / nk % ceilDiv a.d0 32 * 32)
    [(u * tile, (List.range 64).map (fun i => rd (u * tile + i)))] ++
    ((List.range (ceilDiv kk g)).map (fun j => ((List.range 32).map (fun r =>
      copyPiece a.fmt rd geo (u * tile) (roundUp kk g) r (g * j) (if r < mm then min g (kk - g * j) else 0) g)).flatten)).flatten)).flatten

/-- The bytes of a plain copy of a tiled tensor: of each unit picked out its rows and scales, with the headers of the tiles
it lies in; source and destination hold the same tiles. Rows of an A-tile beyond ROWS are +0 (R136). -/
def plainTiled (a : TDesc) (rd : Reader) (mine : Nat → Bool) : List (Nat × List Byte) :=
  let kind := readLe rd 1 1
  let tile := readLe rd 2 1 * 4096
  if kind = 2 then plainB a rd mine
  else
    let span := tileSpan kind rd
    let nk := ceilDiv a.d0 a.tileK
    let g := groupOf a.fmt
    let baseOf : Nat → Nat → Nat → Nat := fun b y k => ((b * ceilDiv a.d1 span + y / span) * nk + k / a.tileK) * tile
    ((List.range a.units).filter mine).map (fun u =>
      let n := u % ceilDiv a.d0 32
      let m := u / ceilDiv a.d0 32 % ceilDiv a.d1 64
      let b := u / ceilDiv a.d0 32 / ceilDiv a.d1 64
      let parts := ((List.range (if kind = 1 then 64 else min 64 (a.d1 - 64 * m))).map (fun r =>
        (List.range (ceilDiv (min 32 (a.d0 - 32 * n)) g)).map (fun j => (64 * m + r, 32 * n + g * j)))).flatten
      let body := parts.map (fun x =>
        let base := baseOf b x.1 x.2
        let valid := if x.1 < a.d1 then min g (a.d0 - x.2) else 0
        copyPiece a.fmt rd (readGeo kind rd base) base (min a.tileK (a.d0 - x.2 / a.tileK * a.tileK)) (x.1 % span) (x.2 % a.tileK) valid
          (if kind = 3 && !isMx a.fmt then valid else g))
      ((parts.map (fun x => baseOf b x.1 x.2)).eraseDups.map (fun base => (base, (List.range 64).map (fun i => rd (base + i))))) ++ body.flatten) |>.flatten

/-- The bytes of a plain copy, by the units picked out (R148, R150). -/
def plainRows (a d : TDesc) (rd : Reader) (mine : Nat → Bool) : List (Nat × List Byte) :=
  if a.layout = 1 then plainLinear a d rd mine else plainTiled a rd mine

/-- A tile of a tiled operand is a weight copy (R16, R135; log 108). -/
def TDesc.holdsWeight (a : TDesc) (rd : Reader) : Bool :=
  let tile := readLe rd 2 1 * 4096
  decide (a.layout = 0) && !a.isEmpty && (List.range (a.trueExtent (a.kindOf 1 rd) rd / max 1 tile)).any (fun i => weightTile (fun o => rd (i * tile + o)))

/-- The source of a copy is a weight copy above tier 2, in a core store or a region: it is never written back (R16; log 108). -/
def State.weightAbove (s : State) (a : TDesc) (rd : Reader) : Bool :=
  (decide (a.loc ≤ 1) && a.holdsWeight rd) || (decide (a.loc = 1) && !a.isEmpty && (match s.tiers.regions.get? a.handle with
    | some r => r.weight
    | none => false))

/-- Units of a plain copy: those of R150, and for B-tiles the tiles. -/
def plainUnits (a d : TDesc) (rd : Reader) : Nat :=
  if a.layout = 0 ∧ readLe rd 1 1 = 2 then a.trueExtent 2 rd / max 1 (readLe rd 2 1 * 4096) else d.units

def compMove : Compute := fun o ctx p q pk s =>
  let g := Packet.prologue pk
  let a := Packet.desc pk 32
  let d := Packet.desc pk 80
  if decide (Packet.len pk ≠ 2) || !g.ok q || decide (g.func ≠ 0 ∨ g.split ≠ 0 ∨ g.opflags ≠ 0) || !(a.wellShaped && d.wellShaped) ||
     !(vectorTakes a.fmt && vectorTakes d.fmt) || !a.sameDims d || decide (d.loc = 3) then .stop St.badParam 0 0
  else if plainMove a d then
    let rd : Reader := match s.src ctx p q 1 a, q.coreAt g.first with
      | .ok x, some c => x.read c
      | _, _ => fun _ => 0
    if d.loc = 2 && s.weightAbove a rd then .stop St.badParam 0 0
    else attempt s o ctx p q g none [(a, [1, 2, 3])] d (fun j => decide (0 < unitsOf (plainUnits a d rd) g.n j)) (fun _ => ceilDiv (a.trueExtent 1 rd) (128 * max 1 g.n))
      (fun ops cores j => ⟨match ops[0]? with
        | some x => plainRows a d (x.read (cores.getD j 0)) (fun u => decide (u % g.n = j))
        | none => [], 0⟩)
      (fun _ _ => 0) false 0 (if d.layout = 0 then 0 else d.extent 1)
      (fun ops cores => match ops[0]? with
        | some x => if d.layout = 0 then x.need 1 cores else d.extent 1
        | none => 0) false
  else
    attempt s o ctx p q g (some .vector) [(a, [1, 3])] d (fun j => decide (0 < unitsOf d.units g.n j))
      (fun j => ceilDiv (unitsOf d.units g.n j * d.count / max 1 d.units) 64 + 12)
      (fun ops cores j =>
        let r := d.rowsOut g.ar (fun i0 i1 i2 i3 => match ops[0]? with
          | some x => x.at_ g.ar 1 (cores.getD j 0) i0 i1 i2 i3
          | none => .zero) (fun u => decide (u % g.n = j))
        ⟨r.1, r.2⟩)
      (fun ops cores => orFlags (ops.map (fun x => x.loadFlags g.ar 1 cores)))

def moveBody : Body := computeBody compMove

/-- MOVE (R148). -/
def execMove (p : Sys2Proof.Packet) (s : State) : Host.Outcome State Fault Refusal := .next (runPacket 0x203 moveBody p s)

end Sys2Proof.Machine
end

