-- ==== Sys2Proof/Machine/Kv.lean ====
section
/-! DEFINITION. KV sequences and their pages (R182 to R193), swap pools and swapping (R203 to R213). -/

namespace Sys2Proof.Machine

/-! ### Layout (R185, R186) -/

/-- Bytes of a KV element. -/
def kvBytes (fmt : Nat) : Nat := if fmt = 1 then 2 else 1

/-- Heads of a page. -/
def Seq.hPage (q : Seq) : Nat := if q.byHead then q.kvHeads / 2 else q.kvHeads

def pageTokens (hPage headDim fmt : Nat) : Nat := 32768 / max 1 (hPage * headDim * kvBytes fmt)

def Seq.tokens (q : Seq) : Nat := pageTokens q.hPage q.headDim q.fmt

def Seq.groups (q : Seq) : Nat := if q.byHead then 2 else 1

/-- Key of a page in the page table. A run has 8,192 page numbers (R188); a page beyond them has a key that no page bears. -/
def kvKey (layer group n : Nat) : Nat := if n < 8192 then (layer * 2 + group) * 8192 + n else 2 ^ 32 + n

/-- HOME of page `n` of a group (R185). -/
def Seq.homeOf (q : Seq) (group n : Nat) : Nat := if q.byHead then group + 1 else n % 2 + 1

/-- Bits of G for the panels of a page (R186). -/
def kvGroup (fmt : Nat) : Nat := if fmt = 1 then 16 else 32

/-- Byte offset in a page of element `d` of head `i` at token slot `x`, in the K plane or the V plane (R186). -/
def Seq.elemOff (q : Seq) (v : Bool) (i x d : Nat) : Nat :=
  let b := kvBytes q.fmt
  let g := kvGroup q.fmt
  let block := i * q.tokens * q.headDim * b
  if v then 32768 + block + (d / 32 * (q.tokens / g) + x / g) * 1024 + d % 32 * (g * b) + x % g * b
  else block + (x / 32 * (q.headDim / g) + d / g) * 1024 + x % 32 * (g * b) + d % g * b

/-- Element code of K or V of head `h` at a position; positions never written hold +0. -/
def State.kvCode (s : State) (q : Seq) (v : Bool) (layer h pos d : Nat) : Nat :=
  let group := if q.byHead then h / q.hPage else 0
  match q.pages.get? (kvKey layer group (pos / q.tokens)) with
  | none => 0
  | some g => leNat (s.stores.tier2.readBytes (g.frame * 65536 + q.elemOff v (h % max 1 q.hPage) (pos % q.tokens) d) (kvBytes q.fmt))

/-! ### Common to the packets -/

def State.seq? (s : State) (h : Nat) : Option Seq := s.kv.seqs.get? h

def State.setSeq (s : State) (h : Nat) (f : Seq → Seq) : State := { s with kv := { s.kv with seqs := s.kv.seqs.update h f } }

/-- INFO of every completion on a sequence whose tail was discarded (R206). -/
def Seq.info (q : Seq) : Nat := if q.tailDiscarded then Inf.tailDiscarded else 0

/-- INFO of a completion that refuses a packet on a sequence of its own context (R206). -/
def State.seqInfo (s : State) (p : Sys2Proof.Packet) : Nat :=
  match s.seq? (Packet.fld p 16 2) with
  | some q => if Packet.ctxNo p = q.ctx ∨ Packet.ctxNo p = 0xFFFF then q.info else 0
  | none => 0

/-- Checks and an effect of a packet that names a sequence. -/
def checkedSeq (checks : Caller → Sys2Proof.Packet → State → Option Nat)
    (effect : Nat → Caller → Sys2Proof.Packet → State → State × Reply) : Body := fun id c p s =>
  match checks c p s with
  | some st => (s, .done st (s.seqInfo p) 0)
  | none => effect id c p s

/-- A packet's sequence: it exists and belongs to the header's context; operators may name none. -/
def State.seqCheck (s : State) (p : Sys2Proof.Packet) (anyCtx : Bool) : Option Nat :=
  match s.seq? (Packet.fld p 16 2) with
  | none => some St.notFound
  | some q => if Packet.ctxNo p = q.ctx ∨ (anyCtx ∧ Packet.ctxNo p = 0xFFFF) then none else some St.notPermitted

/-- Opcodes that Hearth dispatches alone on their sequence (R191). -/
def barrier (code : Nat) : Bool := decide (code = 0x403 ∨ code = 0x405 ∨ code = 0x406)

/-- Hearth has dispatched the flight, and it waits for a core, a window, a link or pages (R85, R178, R205). -/
def Flight.waits (f : Flight) : Bool := f.parked && !f.held

def State.isWaiting (s : State) (id : Nat) : Bool := match s.flight? id with
  | some f => f.waits
  | none => false

/-- The flight is in flight on a sequence, or Hearth has held it since before flight `id` was fetched (R191). -/
def Flight.aheadOn (f : Flight) (id h : Nat) : Bool :=
  decide (f.id ≠ id) && decide (kvSeqOf f.opcode f.pkt = some h) && (f.running || f.waits || (f.parked && decide (f.id < id)))

/-- Another operation on the sequence keeps this one back (R191): a VERIFY_COMMIT, SEQ_PREEMPT or PT_DESTROY keeps back
what comes after it, and is kept back by everything before it. One that is dispatched already is kept back no more. -/
def State.seqWaits (s : State) (id h : Nat) (alone : Bool) : Bool :=
  !s.isWaiting id && s.proto.flights.any (fun f => f.aheadOn id h && (alone || barrier f.opcode))

/-- An operation may work on the sequence: it is ACTIVE, or it was taken as a victim after this operation was dispatched, which
goes on (R187, R205). -/
def State.seqOpen (s : State) (id : Nat) (q : Seq) : Bool :=
  decide (q.state = 1) || (decide (q.state = 2) && !q.swapStarted && s.isWaiting id)

/-- The operation counts as the sequence's last (R205). -/
def State.useSeq (s : State) (h : Nat) : State :=
  { (s.setSeq h (fun q => { q with lastUse := s.sched.useCount })) with sched := { s.sched with useCount := s.sched.useCount + 1 } }

/-- RESULT of a KV_APPEND: C and T. -/
def Seq.ct (q : Seq) : Nat := q.committed + 2 ^ 32 * q.tail

/-- Free some pages of a sequence: frames zeroed, pool slots given back (R193, R206, R211). -/
def State.freeKv (s : State) (h : Nat) (gone : Nat → KvPage → Bool) : State :=
  match s.seq? h with
  | none => s
  | some q =>
    let out := q.pages.filter (fun x => gone x.1 x.2)
    let s := s.setSeq h (fun q => { q with pages := q.pages.filter (fun x => !gone x.1 x.2) })
    let s := (out.filter (fun x => decide (x.2.state ≠ 1) && !x.2.lost)).foldl (fun s x =>
      { s with kv := { s.kv with pools := s.kv.pools.update x.2.pool (fun y => { y with used := y.used.filter (· ≠ x.2.slot) }) } }) s
    s.freeFrames ((out.filter (fun x => decide (x.2.state ≠ 2))).map (fun x => x.2.frame))

/-- First position of a page. -/
def Seq.firstPos (q : Seq) (key : Nat) : Nat := key % 8192 * q.tokens

/-! ### PT_CREATE and PT_DESTROY (R183, R184, R211) -/

/-- Most descriptors a page table can hold, 16 bytes each in the device reserve (R184, R188; log 21). -/
def tableBytes (layers groups maxTokens tokens : Nat) : Nat := 16 * layers * groups * ceilDiv maxTokens (max 1 tokens)

def Seq.table (q : Seq) : Nat := tableBytes q.layers q.groups q.maxTokens q.tokens

def ptCreateChecks (_ : Caller) (p : Sys2Proof.Packet) (s : State) : Option Nat :=
  let heads := Packet.fld p 18 1
  let fmt := Packet.fld p 19 1
  let dim := Packet.fld p 20 2
  let lay := Packet.fld p 22 1
  let c := Packet.ctxNo p
  let tokens := pageTokens (if lay = 1 then heads / 2 else heads) dim fmt
  firstFail
    [(decide (c = 0xFFFF), St.badContext),
     (!shortOk p 29 || decide (Packet.fld p 16 2 < 1 ∨ 1024 < Packet.fld p 16 2) || !([1, 2, 4, 8, 16, 32].contains heads) ||
      decide (fmt < 1 ∨ 3 < fmt) || !([64, 128, 256].contains dim) || decide (1 < lay ∨ 15 < Packet.fld p 23 1 ∨ 131072 < Packet.fld p 24 4 ∨ 1 < Packet.fld p 28 1), St.badParam),
     (decide (lay = 1 ∧ heads = 1), St.badParam), (decide (tokens < 32), St.badParam),
     (decide (Packet.fld p 28 1 = 1) && s.ctlContext c, St.notPermitted),
     (decide (Packet.fld p 24 4 ≠ 0) && (decide (4096 ≤ s.kv.seqs.length) ||
        decide (536870912 < (s.kv.seqs.map (fun kv => kv.2.table)).foldl (· + ·) (tableBytes (Packet.fld p 16 2) (lay + 1) (Packet.fld p 24 4) tokens))), St.noResource)]

def ptCreateEffect (_ : Nat) (_ : Caller) (p : Sys2Proof.Packet) (s : State) : State × Reply :=
  let q : Seq :=
    { ctx := Packet.ctxNo p, layers := Packet.fld p 16 2, kvHeads := Packet.fld p 18 1, fmt := Packet.fld p 19 1, headDim := Packet.fld p 20 2,
      byHead := decide (Packet.fld p 22 1 = 1), prio := Packet.fld p 23 1, maxTokens := Packet.fld p 24 4, swappable := bit (Packet.fld p 28 1) 0,
      state := 1, committed := 0, tail := 0, pages := [], tailDiscarded := false, preemptFlight := none, resumeFlight := none, swapStarted := false,
      lastUse := 0 }
  if q.maxTokens = 0 then (s, .done St.ok Inf.zeroWork (0xFFFF + 65536 * q.tokens))
  else match pickFree s.fresh 4096 s.kv.seqs.keys with
    | none => refuse s St.noResource
    | some h => done0 ((State.bump { s with kv := { s.kv with seqs := s.kv.seqs.set h q } }).useSeq h) (h + 65536 * q.tokens)

def ptCreateBody : Body := checked ptCreateChecks ptCreateEffect

/-- PT_CREATE (R183). -/
def execPtCreate (p : Sys2Proof.Packet) (s : State) : Host.Outcome State Fault Refusal := .next (runPacket 0x402 ptCreateBody p s)

def ptDestroyChecks (_ : Caller) (p : Sys2Proof.Packet) (s : State) : Option Nat :=
  firstFail [(!shortOk p 18, St.badParam)] |>.orElse (fun _ => s.seqCheck p true)

/-- Destroy a sequence: a SEQ_PREEMPT or SEQ_RESUME of it ends with ABORTED, and retired generations may become
FREE (R211, R401). -/
def State.destroySeq (s : State) (h : Nat) : State :=
  match s.seq? h with
  | none => s
  | some q =>
    let s := (s.finishOpt q.preemptFlight St.aborted q.info 0).finishOpt q.resumeFlight St.aborted q.info 0
    let s := s.freeKv h (fun _ _ => true)
    State.settleKeys { s with kv := { s.kv with seqs := s.kv.seqs.erase h } }

/-- PT_DESTROY waits for operations other than the swap in progress (R191, R211). -/
def State.destroyWaits (s : State) (id h : Nat) : Bool :=
  s.proto.flights.any (fun f => f.aheadOn id h && !decide ((f.opcode = 0x406 ∨ f.opcode = 0x407) ∧ f.running))

def ptDestroyEffect (id : Nat) (_ : Caller) (p : Sys2Proof.Packet) (s : State) : State × Reply :=
  let h := Packet.fld p 16 2
  if s.destroyWaits id h then (s, .park)
  else
    let info := match s.seq? h with
      | some q => q.info
      | none => 0
    (s.destroySeq h, .done St.ok info 0)

def ptDestroyBody : Body := checkedSeq ptDestroyChecks ptDestroyEffect

/-- PT_DESTROY (R211). -/
def execPtDestroy (p : Sys2Proof.Packet) (s : State) : Host.Outcome State Fault Refusal := .next (runPacket 0x403 ptDestroyBody p s)

/-! ### KV_APPEND (R189, R190) -/

/-- Pages that a write of positions needs and the sequence lacks: keys with their homes. -/
def Seq.missing (q : Seq) (layer first n : Nat) : List (Nat × Nat) :=
  if n = 0 then [] else
    (((List.range ((first + n - 1) / q.tokens - first / q.tokens + 1)).map (fun i => first / q.tokens + i)).map (fun pg =>
      (List.range q.groups).map (fun g => (kvKey layer g pg, q.homeOf g pg)))).flatten.filter (fun x => !q.pages.has x.1)

/-- Give a sequence new zero pages. -/
def State.addKvPages (s : State) (h : Nat) (ks : List (Nat × Nat)) : State :=
  let fs := s.newFrames ks.length
  { (s.setSeq h (fun q => { q with pages := (ks.zip fs).foldl (fun t x => Tab.set t x.1.1 (KvPage.mk 1 x.2 x.1.2 0 0 0 0 false)) q.pages })) with
    fresh := s.fresh + ks.length }

/-- Writes of one element plane: converted codes of every head, position and dimension. -/
def Seq.kvWrites (q : Seq) (v : Bool) (layer first : Nat) (o : Operand) (core : Nat) (ar : Arith) : List Wr × Nat :=
  let t := o.desc
  match elemFmt q.fmt with
  | none => ([], 0)
  | some f =>
    let cells := ((List.range t.d2).map (fun h => ((List.range t.d1).map (fun x => (List.range t.d0).map (fun d =>
      let e := f.encode (ar.mode (d + t.d0 * (x + t.d1 * h))) ar.sat (o.at_ ar 1 core d x h 0)
      let pos := first + x
      let group := if q.byHead then h / q.hPage else 0
      ((q.pages.get? (kvKey layer group (pos / q.tokens))).map (fun g =>
        (⟨.tier2, g.frame * 65536 + q.elemOff v (h % max 1 q.hPage) (pos % q.tokens) d, toLe (kvBytes q.fmt) e.1⟩ : Wr)), e.2)))).flatten)).flatten
    (cells.filterMap (·.1), orFlags (cells.map (·.2)))

/-- Limits of R190 on the positions written. -/
def appendPosition (q : Seq) (tentative : Bool) (first n : Nat) : Option Nat :=
  if q.maxTokens < first + n then some St.contextFull
  else if tentative then (if q.committed ≤ first ∧ first ≤ q.committed + q.tail ∧ first + n ≤ q.committed + 9 then none else some St.badParam)
  else if first = q.committed ∧ q.tail = 0 then none else some St.badParam

def kvAppendFields (p : Sys2Proof.Packet) : Bool :=
  let k := Packet.desc p 32
  let v := Packet.desc p 80
  decide (Packet.len p = 2) && decide (Packet.fld p 24 4 = 0) && decide (Packet.fld p 28 1 ≤ 3) && arithOk (Packet.fld p 29 1) &&
  decide (bits (Packet.fld p 29 1) 7 6 ≠ 2) && decide (Packet.fld p 31 1 = 0) && k.wellShaped && v.wellShaped && k.sameDims v && vectorTakes k.fmt && vectorTakes v.fmt &&
  decide (k.d3 = 1)

def kvAppendChecks (_ : Caller) (p : Sys2Proof.Packet) (s : State) : Option Nat :=
  firstFail [(decide (Packet.ctxNo p = 0xFFFF), St.badContext), (!kvAppendFields p, St.badParam)] |>.orElse (fun _ => s.seqCheck p false)

/-- The write of a KV_APPEND on its core, once its pages are there. -/
def State.appendWork (s : State) (id ctx part core h : Nat) (p : Sys2Proof.Packet) (k v : Operand) : State × Reply :=
  match s.seq? h with
  | none => refuse s St.notFound
  | some q =>
    let ar := Arith.of (Packet.fld p 29 1) 0
    let a := q.kvWrites false (Packet.fld p 18 2) (Packet.fld p 20 4) k core ar
    let b := q.kvWrites true (Packet.fld p 18 2) (Packet.fld p 20 4) v core ar
    let exts := [(k.desc, k.need 1 [core]), (v.desc, v.need 1 [core])]
    let n := 2 * k.desc.count * kvBytes q.fmt
    let o : Owner := .flight id
    let ranges := (exts.filter (fun x => decide (x.1.loc = 0))).map (fun x => (x.1.off, x.1.off + x.2, false))
    let w : Work :=
      { status := St.ok, info := 0, result := 0, exc := a.2 ||| b.2, core := [], later := a.1 ++ b.1, host := [],
        slots := [(core, opSlot o .vector ((exts.map (fun x => x.1.walkers)).flatten) (ceilDiv (2 * k.desc.count) 64 + 12) ranges part)],
        descs := ((exts.map (fun x => s.readDescs o x.1 x.2 1 0)).flatten ++ descs o 2 2 0 n).map (fun d => (core, d)),
        holds := k.holds ++ v.holds,
        traffic := (exts.map (fun x => traffic (s.pathLoc x.1) x.2 false)).foldl Traffic.add ⟨0, 0, n, 0⟩ }
    let w := (w.spoilIf s.fresh (s.poisonOf ctx [core] exts)).dealt
    if w.status ≠ St.ok then (s.begin_ o part w, .placed w.status q.info q.ct w.later [])
    else (s.begin_ o part w, .late none w.later)

def kvAppendEffect (id : Nat) (_ : Caller) (p : Sys2Proof.Packet) (s : State) : State × Reply :=
  let h := Packet.fld p 16 2
  let k := Packet.desc p 32
  let v := Packet.desc p 80
  match s.seq? h, s.partOf (Packet.ctxNo p) with
  | none, _ => refuse s St.notFound
  | some q, none => (s, .done St.badParam q.info 0)
  | some q, some (n, part) =>
    let stop : Nat → State × Reply := fun e => (s, .done e q.info 0)
    if decide (q.layers ≤ Packet.fld p 18 2) || decide (k.d0 ≠ q.headDim ∨ k.d2 ≠ q.kvHeads) || decide (part.inService ≤ Packet.fld p 30 1) then
      (s, .done St.badParam q.info 0)
    else if !s.seqOpen id q then (s, .done St.busy q.info q.state)
    else if part.state = 4 then (s, .park)
    else if part.state ≠ 1 then stop St.busy
    else if s.t2Refused n part then stop St.notPermitted
    else if s.seqWaits id h false then (s, .park)
    else match appendPosition q (bit (Packet.fld p 28 1) 0) (Packet.fld p 20 4) k.d1 with
      | some st => (s, .done st q.info (if st = St.contextFull then q.ct else 0))
      | none =>
        match s.ahead.src (Packet.ctxNo p) n part 1 k, s.ahead.src (Packet.ctxNo p) n part 1 v, part.coreAt (Packet.fld p 30 1) with
        | .error e, _, _ => stop e
        | .ok _, .error e, _ => stop e
        | .ok _, .ok _, none => (s, .done St.coreFault q.info q.ct)
        | .ok ko, .ok vo, some core =>
          if k.isEmpty then (s, .done St.ok (Inf.zeroWork ||| q.info) q.ct)
          else if s.coreHeld part.cls core || [k, v].any (fun t => s.windowWaits t (s.windowSpan t)) then (s, .parkWork)
          else if !(s.srcFits (Packet.ctxNo p) n part [1, 3] ko [core] && s.srcFits (Packet.ctxNo p) n part [1, 3] vo [core]) then stop St.badParam
          else
            let miss := q.missing (Packet.fld p 18 2) (Packet.fld p 20 4) k.d1
            if !s.underCeiling q.ctx miss.length then (s, .done St.outOfTier2 q.info q.ct)
            else match s.provide id q.prio (some h) (sumHalves (miss.map (fun x => halvesOf x.2 1))) with
              | .never => (s, .done St.outOfTier2 q.info q.ct)
              | .wait t => if q.state = 2 then (s, .done St.busy q.info q.state) else (t, .parkPages)
              | .ready t => ((t.addKvPages h miss).useSeq h).appendWork id (Packet.ctxNo p) n core h p ko vo

def kvAppendBody : Body := checkedSeq kvAppendChecks kvAppendEffect

/-- KV_APPEND (R189). -/
def execKvAppend (p : Sys2Proof.Packet) (s : State) : Host.Outcome State Fault Refusal := .next (runPacket 0x404 kvAppendBody p s)

/-- The end of a KV_APPEND: its data is visible and ADVANCE moves C or T (R190, R191). -/
def State.appendEnd (s : State) (f : Flight) : State × Nat × Nat :=
  let h := Packet.fld f.pkt 16 2
  let n := (Packet.desc f.pkt 32).d1
  let first := Packet.fld f.pkt 20 4
  let fl := Packet.fld f.pkt 28 1
  let s := s.setSeq h (fun q =>
    if !bit fl 1 then q
    else if bit fl 0 then { q with tail := max q.tail (first + n - q.committed) }
    else { q with committed := first + n })
  match s.seq? h with
  | some q => (s, q.info, q.ct)
  | none => (s, 0, 0)

/-! ### VERIFY_COMMIT (R192, R193) -/

/-- Longest agreeing prefix of drafts and targets; NaN never equals. -/
def agree : List Fv → List Fv → Nat
  | x :: xs, y :: ys => if x.eqv y then 1 + agree xs ys else 0
  | _, _ => 0

/-- A token number, or FFFFFFFFh (R193). -/
def tokenOf (x : Fv) : Nat :=
  if x.isFin && x.eqv (Fv.ofInt x.floor) && decide (0 ≤ x.floor ∧ x.floor < 16777216) then x.floor.toNat else 0xFFFFFFFF

def verifyFields (p : Sys2Proof.Packet) : Bool :=
  let mode := Packet.fld p 18 1
  let d := Packet.desc p 32
  let t := Packet.desc p 80
  let shape : TDesc → Nat → Bool := fun x n => x.wellShaped && decide (x.fmt = 0 ∧ x.rank = 1 ∧ x.d0 = n)
  decide (Packet.len p = 2) && Packet.rsvZero p 26 32 && decide (mode ≤ 1) &&
  (if mode = 0 then decide (Packet.fld p 19 1 = 0) && d.unused && t.unused
   else decide (Packet.fld p 19 1 ≤ 1 ∧ Packet.fld p 20 4 = 0 ∧ Packet.fld p 25 1 ≤ 8) && shape d (Packet.fld p 25 1) && shape t (Packet.fld p 25 1 + 1))

def verifyChecks (_ : Caller) (p : Sys2Proof.Packet) (s : State) : Option Nat :=
  firstFail [(decide (Packet.ctxNo p = 0xFFFF), St.badContext), (!verifyFields p, St.badParam)] |>.orElse (fun _ => s.seqCheck p false)

/-- Commit `keep` tail entries, drop the rest, and free the pages wholly above (R193). -/
def State.commitTail (s : State) (h keep : Nat) : State :=
  let s := s.setSeq h (fun q => { q with committed := q.committed + keep, tail := 0 })
  match s.seq? h with
  | none => s
  | some q => s.freeKv h (fun k _ => decide (q.committed ≤ q.firstPos k))

/-- A sequence that is not ACTIVE is BUSY before its tail is looked at (R213); an empty tail or no draft is no work (R212). The
core counts only where an operand lies in its store. -/
def verifyEffect (id : Nat) (_ : Caller) (p : Sys2Proof.Packet) (s : State) : State × Reply :=
  let h := Packet.fld p 16 2
  let mode := Packet.fld p 18 1
  match s.seq? h with
  | none => refuse s St.notFound
  | some q =>
    let ndr := Packet.fld p 25 1
    let stop : Nat → State × Reply := fun e => (s, .done e q.info 0)
    if !s.seqOpen id q then (s, .done St.busy q.info q.state)
    else if s.seqWaits id h true then (s, .park)
    else if q.tail = 0 ∨ (mode = 1 ∧ ndr = 0) then (s.useSeq h, .done St.ok (Inf.zeroWork ||| q.info) 0)
    else if (mode = 0 ∧ q.tail < Packet.fld p 20 4) ∨ (mode = 1 ∧ q.tail < Packet.fld p 19 1 + ndr) then stop St.badParam
    else if mode = 0 then
      let a := Packet.fld p 20 4
      ((s.useSeq h).commitTail h a, .done St.ok q.info (a % 256 + 256 * (a % 256)))
    else match s.partOf q.ctx with
      | none => stop St.badParam
      | some (n, part) =>
        let d := Packet.desc p 32
        let t := Packet.desc p 80
        let local_ := decide (d.loc = 0 ∨ t.loc = 0)
        if part.state = 4 then (s, .park)
        else if part.state ≠ 1 then stop St.busy
        else if local_ && decide (part.inService ≤ Packet.fld p 24 1) then stop St.badParam
        else match s.ahead.src q.ctx n part 1 d, s.ahead.src q.ctx n part 1 t, (if local_ then part.coreAt (Packet.fld p 24 1) else some 0) with
          | .error e, _, _ => stop e
          | .ok _, .error e, _ => stop e
          | .ok _, .ok _, none => stop St.coreFault
          | .ok x, .ok y, some core =>
            let exts := [(d, x.need 1 [core]), (t, y.need 1 [core])]
            if (local_ && s.coreHeld part.cls core) || [d, t].any (fun e => s.windowWaits e (s.windowSpan e)) then (s, .parkWork)
            else if !(s.srcFits q.ctx n part [1, 3] x [core] && s.srcFits q.ctx n part [1, 3] y [core]) then stop St.badParam
            else match s.poisonOf q.ctx [core] exts with
            | some x => (s.reread (some x), .done St.memUncorrectable q.info 0)
            | none =>
              let dr := (List.range ndr).map (fun i => x.at_ Arith.rne 1 core i 0 0 0)
              let tg := (List.range (ndr + 1)).map (fun i => y.at_ Arith.rne 1 core i 0 0 0)
              let a := agree dr tg
              let keep := Packet.fld p 19 1 + a
              ((s.useSeq h).commitTail h keep, .done St.ok q.info (a + 256 * keep + 2 ^ 32 * tokenOf (tg.getD a .nan)))

def verifyBody : Body := checkedSeq verifyChecks verifyEffect

/-- VERIFY_COMMIT (R192, R193). -/
def execVerifyCommit (p : Sys2Proof.Packet) (s : State) : Host.Outcome State Fault Refusal := .next (runPacket 0x405 verifyBody p s)

/-! ### Pools (R203) -/

def poolChecks (_ : Caller) (p : Sys2Proof.Packet) (s : State) : Option Nat :=
  let n := Packet.fld p 36 1
  firstFail
    [(!shortOk p 37 || decide (Packet.fld p 16 8 % 4096 ≠ 0 ∨ Packet.fld p 24 8 % 4096 ≠ 0) || decide (2 ^ 24 < Packet.fld p 32 4) ||
      decide (7 < n ∧ n ≠ 0xFF), St.badParam),
     (decide (n ≠ 0xFF) && s.kv.pools.has n, St.busy),
     (decide (Packet.fld p 32 4 ≠ 0) && decide (8 ≤ s.kv.pools.length), St.noResource)]

def poolEffect (_ : Nat) (c : Caller) (p : Sys2Proof.Packet) (s : State) : State × Reply :=
  let n := Packet.fld p 36 1
  if Packet.fld p 32 4 = 0 then (s, .done St.ok Inf.zeroWork 0xFF)
  else match (if n = 0xFF then pickFree s.fresh 8 s.kv.pools.keys else some n) with
    | none => refuse s St.noResource
    | some k => done0 (State.bump { s with kv := { s.kv with pools := s.kv.pools.set k ⟨c.fn, Packet.fld p 16 8, Packet.fld p 24 8, Packet.fld p 32 4, []⟩ } }) k

def poolBody : Body := checked poolChecks poolEffect

/-- SWAP_POOL_REGISTER (R203). -/
def execSwapPoolRegister (p : Sys2Proof.Packet) (s : State) : Host.Outcome State Fault Refusal := .next (runPacket 0x408 poolBody p s)

/-! ### Pre-emption and swap-out (R204 to R207) -/

/-- A sequence whose pages have all left is PREEMPTED (R206). -/
def State.swapDone (s : State) (h : Nat) : State :=
  match s.seq? h with
  | none => s
  | some q =>
    if q.state = 2 ∧ q.swapStarted ∧ !q.pages.any (fun x => decide (x.2.state = 1)) then
      (s.setSeq h (fun q => { q with state := 3, preemptFlight := none, swapStarted := false })).finishOpt q.preemptFlight St.ok q.info 0
    else s

/-- A victim whose operations in flight have ended begins its swap-out: the tail is discarded (R205, R206). -/
def State.startSwap (s : State) (h : Nat) : State :=
  match s.seq? h with
  | none => s
  | some q =>
    if q.state ≠ 2 ∨ q.swapStarted ∨ s.proto.flights.any (fun f => (f.running || f.waits) && decide (kvSeqOf f.opcode f.pkt = some h) && decide (f.opcode ≠ 0x406)) then s
    else
      let s := s.setSeq h (fun q => { q with tail := 0, tailDiscarded := q.tailDiscarded || decide (q.tail ≠ 0), swapStarted := true })
      (s.freeKv h (fun k x => decide (q.committed ≤ q.firstPos k) && decide (x.state = 1))).swapDone h

def State.settleSeqs (s : State) : State := (s.kv.seqs.filter (fun kv => decide (kv.2.state = 2))).foldl (fun s kv => s.startSwap kv.1) s

def seqOpChecks (_ : Caller) (p : Sys2Proof.Packet) (s : State) : Option Nat :=
  firstFail [(!shortOk p 18, St.badParam)] |>.orElse (fun _ => s.seqCheck p true)

def seqPreemptEffect (id : Nat) (_ : Caller) (p : Sys2Proof.Packet) (s : State) : State × Reply :=
  let h := Packet.fld p 16 2
  match s.seq? h with
  | none => refuse s St.notFound
  | some q =>
    if !q.swappable then (s, .done St.notPermitted q.info 0)
    else if q.state = 2 then (s, .done St.busy q.info q.state)
    else if s.seqWaits id h true then (s, .park)
    else if q.state = 3 then (s, .done St.ok (Inf.zeroWork ||| q.info) 0)
    else
      let s := (s.useSeq h).setFlight id (fun f => { f with running := true, parked := false })
      let s := if q.state = 1 then s.preempt h else s
      ((s.setSeq h (fun q => { q with preemptFlight := some id })).startSwap h |>.swapDone h, .later)

def seqPreemptBody : Body := checkedSeq seqOpChecks seqPreemptEffect

/-- SEQ_PREEMPT (R207). -/
def execSeqPreempt (p : Sys2Proof.Packet) (s : State) : Host.Outcome State Fault Refusal := .next (runPacket 0x406 seqPreemptBody p s)

def gcmIv (swapNo ctx gen : Nat) : List Byte := toLe 8 swapNo ++ toLe 1 ctx ++ toLe 1 gen ++ zeros 2

/-- XOR with the key stream: encrypts and decrypts (R399). -/
def gcmXor (key iv bs : List Byte) : List Byte := (List.range bs.length).zip bs |>.map (fun x => x.2 ^^^ Sys2Proof.Config.keyStream key iv x.1)

/-- Bytes 16 to 31 of a swap record (R204). -/
def swapTail (swapNo ctx gen seq layer page group : Nat) : List Byte :=
  toLe 8 swapNo ++ toLe 1 ctx ++ toLe 1 gen ++ toLe 2 seq ++ toLe 2 layer ++ toLe 2 (page + 8192 * group)

def pageTail (h : Nat) (q : Seq) (key : Nat) (swapNo gen : Nat) : List Byte :=
  swapTail swapNo q.ctx gen h (key / 16384) (key % 8192) (key / 8192 % 2)

def State.genKey (s : State) (c gen : Nat) : List Byte := match (s.ctx? c).bind (fun x => x.gens[gen]?) with
  | some g => g.key
  | none => []

/-- The pool that a context's pages are swapped out to, and a free slot of it: the lowest-numbered one on the host link of the
context's function that can take it (R206, R334). -/
def State.swapSlot (s : State) (ctx : Nat) : Option (Nat × Pool × Nat) :=
  match s.kv.pools.find? (fun kv => decide ((s.ctx? ctx).map (fun c => c.fn / 16) = some (kv.2.fn / 16)) && s.canWriteHost kv.2.fn && decide (kv.2.used.length < kv.2.slots)) with
  | none => none
  | some (n, x) => (pickFree s.fresh x.slots x.used).map (fun k => (n, x, k))

/-- Encrypt one page to a slot with its record, and free it (R204, R206, R399). -/
def State.swapOut (s : State) (h : Nat) (q : Seq) (key : Nat) (g : KvPage) (n : Nat) (x : Pool) (slot : Nat) : State :=
  match s.ctx? q.ctx with
  | none => s
  | some c =>
    let k := s.genKey q.ctx c.current
    let iv := gcmIv c.swapNo q.ctx c.current
    let ct := gcmXor k iv (s.stores.tier2.readBytes (g.frame * 65536) 65536)
    let aad := pageTail h q key c.swapNo c.current
    let s := s.apply [⟨.host, hostKey x.fn (x.dataBase + slot * 65536), ct⟩,
      ⟨.host, hostKey x.fn (x.recBase + slot * 32), fixedLen 16 (Sys2Proof.Config.gcmTag k iv aad ct) ++ aad⟩]
    let s := { s with kv := { s.kv with pools := s.kv.pools.update n (fun y => { y with used := y.used ++ [slot] }) },
                      sched := { s.sched with contexts := s.sched.contexts.set q.ctx { c with swapNo := c.swapNo + 1 } } }
    let s := s.setSeq h (fun q => { q with pages := q.pages.set key ⟨2, 0, g.home, c.current, n, slot, c.swapNo, false⟩ })
    ((s.freeFrames [g.frame]).moved q.ctx ⟨0, 65536, 0, 65568⟩).bump.swapDone h

/-! ### Resume (R208, R209) -/

def seqResumeEffect (id : Nat) (_ : Caller) (p : Sys2Proof.Packet) (s : State) : State × Reply :=
  let h := Packet.fld p 16 2
  match s.seq? h with
  | none => refuse s St.notFound
  | some q =>
    if q.state ≠ 3 ∧ !s.seqWaits id h false then (s, .done St.ok (Inf.zeroWork ||| q.info) 0)
    else if s.seqWaits id h false then (s, .park)
    else if q.pages.any (fun x => x.2.lost) then (s, .done St.notFound q.info 0)
    else
      let swapped := q.pages.filter (fun x => decide (x.2.state = 2))
      if !s.underCeiling q.ctx swapped.length then (s, .done St.outOfTier2 q.info 0)
      else match s.provide id q.prio (some h) (sumHalves (swapped.map (fun x => halvesOf x.2.home 1))) with
        | .never => (s, .done St.outOfTier2 q.info 0)
        | .wait t => (t, .parkPages)
        | .ready t =>
          let fs := t.newFrames swapped.length
          let t := { (t.useSeq h) with fresh := t.fresh + swapped.length }
          if swapped.isEmpty then (t.setSeq h (fun q => { q with state := 1, tailDiscarded := false }), .done St.ok q.info 0)
          else
            let pages := (swapped.zip fs).foldl (fun l x => Tab.set l x.1.1 { x.1.2 with state := 3, frame := x.2 }) q.pages
            (t.setSeq h (fun q => { q with state := 4, resumeFlight := some id, pages := pages }), .later)

def seqResumeBody : Body := checkedSeq seqOpChecks seqResumeEffect

/-- SEQ_RESUME (R208). -/
def execSeqResume (p : Sys2Proof.Packet) (s : State) : Host.Outcome State Fault Refusal := .next (runPacket 0x407 seqResumeBody p s)

/-- A failed resume: pages not yet in go back to swapped and give up their frames (R209). -/
def State.resumeFail (s : State) (h : Nat) (q : Seq) (status : Nat) : State :=
  let fs := (q.pages.filter (fun x => decide (x.2.state = 3))).map (fun x => x.2.frame)
  let s := s.setSeq h (fun q => { q with state := 3, resumeFlight := none, pages := q.pages.mapVals (fun _ g => if g.state = 3 then { g with state := 2, frame := 0 } else g) })
  (s.freeFrames fs).finishOpt q.resumeFlight status q.info 0

/-- Bring one page in: authenticated, checked against its descriptor, decrypted (R208, R209). -/
def State.swapIn (s : State) (h : Nat) (q : Seq) (key : Nat) (g : KvPage) (x : Pool) : State :=
  let retired := match (s.ctx? q.ctx).bind (fun c => c.gens[g.gen]?) with
    | some y => decide (y.state ≠ 1)
    | none => true
  if retired then s.resumeFail h q St.keyRetired
  else
    let ct := s.stores.host.readBytes (hostKey x.fn (x.dataBase + g.slot * 65536)) 65536
    let rec_ := s.stores.host.readBytes (hostKey x.fn (x.recBase + g.slot * 32)) 32
    let aad := pageTail h q key g.swapNo g.gen
    let k := s.genKey q.ctx g.gen
    let iv := gcmIv g.swapNo q.ctx g.gen
    if rec_.drop 16 ≠ aad ∨ rec_.take 16 ≠ fixedLen 16 (Sys2Proof.Config.gcmTag k iv aad ct) then s.resumeFail h q St.linkError
    else
      let s := (s.apply [⟨.tier2, g.frame * 65536, gcmXor k iv ct⟩]).moved q.ctx ⟨0, 0, 65536, 65568⟩
      let s := { s with kv := { s.kv with pools := s.kv.pools.update g.pool (fun y => { y with used := y.used.filter (· ≠ g.slot) }) } }
      let s := s.setSeq h (fun q => { q with pages := q.pages.set key { g with state := 1, gen := 0, pool := 0, slot := 0 } })
      match s.seq? h with
      | none => s
      | some q2 =>
        if q2.pages.any (fun y => decide (y.2.state = 3)) then s
        else (s.setSeq h (fun q => { q with state := 1, tail := 0, tailDiscarded := false, resumeFlight := none })).finishOpt q2.resumeFlight St.ok q2.info 0

end Sys2Proof.Machine
end

