-- ==== Sys2Proof/Machine/Attention.lean ====
section
/-! DEFINITION. ATTENTION and ATTENTION_BACKWARD (R194 to R202). -/

namespace Sys2Proof.Machine

/-- An operand of a product: element value and scale code. -/
abbrev Factor := Fv × Nat

/-- Product sum in groups along the inner dimension, each rounded to FP32, on a starting value (R106), and whether a group's
sum was taken to zero (R116). -/
def dotGroups (g : Nat) (mx : Bool) (xs ys : List Factor) (c0 : Fv) : Fv × Bool :=
  (List.range (ceilDiv xs.length g)).foldl (fun acc i =>
    let a := (xs.drop (i * g)).take g
    let b := (ys.drop (i * g)).take g
    let terms := (a.zip b).map (fun t => t.1.1.mul t.2.1)
    let sum := match terms with
      | [] => Fv.zero
      | t :: r => r.foldl Fv.add t
    let x := r32 sum
    let y := if mx then r32 (x.mul ((scaleValue (a.headD (.zero, 127)).2).mul (scaleValue (b.headD (.zero, 127)).2))) else x
    (fadd acc.1 y, acc.2 || lostTo sum y)) (c0, false)

/-- What an ATTENTION works on, resolved. -/
structure Att where
  seq : Seq
  layer : Nat
  qHeads : Nat
  qTokens : Nat
  kvEnd : Nat
  causal : Bool
  qPos0 : Nat
  scale : Nat
  pFmt : Nat
  ksplit : Nat
  ar : Arith

def Att.rows (a : Att) : Nat := a.qHeads * a.qTokens
def Att.pages (a : Att) : Nat := ceilDiv a.kvEnd a.seq.tokens
/-- Keys of part `j` (R195). -/
def Att.keys (a : Att) (j : Nat) : Nat × Nat :=
  (min a.kvEnd (j * a.pages / a.ksplit * a.seq.tokens), min a.kvEnd ((j + 1) * a.pages / a.ksplit * a.seq.tokens))
def Att.masked (a : Att) (r k : Nat) : Bool := decide (a.kvEnd ≤ k) || (a.causal && decide (a.qPos0 + r % max 1 a.qTokens < k))
def Att.npKeys (a : Att) : Nat := roundUp a.kvEnd 32

/-- One row or column of K or V as factors. -/
def Att.kv (a : Att) (s : State) (v : Bool) (h k d : Nat) : Factor := (elemValue a.seq.fmt (s.kvCode a.seq v a.layer h k d), 127)

/-- A row of Q, or of any tensor of its shape, as factors. -/
def Operand.factors (o : Operand) (core h i1 : Nat) : List Factor :=
  (List.range o.desc.d0).map (fun d =>
    let c := o.desc.code (o.desc.kindOf 1 (o.read core)) (o.read core) d i1 h 0
    (elemValue o.desc.fmt c.1, c.2))

/-- Scores of a row over every key, as each part's core computes them (R196, pass 1). `cores` are the unit's cores. -/
def Att.scores (a : Att) (s : State) (q : Operand) (cores : List Nat) (h r : Nat) : List Fv :=
  ((List.range a.ksplit).map (fun j =>
    let xs := q.factors (cores.getD j 0) (h * a.qHeads + r / max 1 a.qTokens) (r % max 1 a.qTokens)
    (List.range ((a.keys j).2 - (a.keys j).1)).map (fun i =>
      let k := (a.keys j).1 + i
      (dotGroups (if q.desc.fmt = 1 ∨ a.seq.fmt = 1 then 16 else 32) (isMx q.desc.fmt) xs ((List.range a.seq.headDim).map (a.kv s false h k)) .zero).1))).flatten

/-- A row after pass 2: probabilities as values before conversion, the summary bits of a result taken to zero (R108, R116),
and whether the row is NaN (R196, R197). -/
def Att.probRow (a : Att) (s : State) (q : Operand) (cores : List Nat) (h r : Nat) : List Fv × Nat × Bool :=
  let sc := a.scores s q cores h r
  let open_ := (List.range sc.length).filter (fun k => !a.masked r k)
  let m := (open_.map (fun k => sc.getD k .zero)).foldl Fv.max (.inf true)
  let bad := !m.isFin || open_.any (fun k => (sc.getD k .zero).isNan)
  let e := (List.range sc.length).map (fun k => if a.masked r k then (Fv.zero, 0) else transOut 0x10 0x10 (fmul (f32 a.scale) (fsub (sc.getD k .zero) m)))
  let es := e.map (·.1)
  let z := treeSum ((List.range a.ksplit).map (fun j => reducePart 1 es (a.keys j).1 (a.keys j).2))
  let y := (transOut 0x14 0x14 z).1
  (es.map (fun x => fmul x y), orFlags (e.map (·.2)) ||| orFlags (es.map (fun x => underIf (fmul x y) (!x.isZero && !y.isZero))), bad)

/-- Codes of a row of P: +0 where masked, NaN in a NaN row; and summary bits. -/
def Att.probCodes (a : Att) (row : List Fv × Nat × Bool) (h r : Nat) : List Nat × Nat :=
  match elemFmt a.pFmt with
  | none => ([], 0)
  | some f =>
    let cs := (List.range row.1.length).map (fun k =>
      if a.masked r k then (0, 0)
      else if row.2.2 then (f.nanCode, fNanOut)
      else f.encode (a.ar.mode ((h * a.rows + r) * a.npKeys + k)) a.ar.sat (row.1.getD k .zero))
    (cs.map (·.1), orFlags (row.2.1 :: cs.map (·.2)))

/-- One element of O from the probabilities of its row, and whether a term was taken to zero (R196, pass 3). -/
def Att.outElem (a : Att) (s : State) (codes : List Nat) (nan : Bool) (h d : Nat) : Fv × Bool :=
  if nan then (.nan, false)
  else
    let parts := (List.range a.ksplit).map (fun j =>
      let ks := (List.range ((a.keys j).2 - (a.keys j).1)).map (fun i => (a.keys j).1 + i)
      dotGroups (if a.pFmt = 1 ∨ a.seq.fmt = 1 then 16 else 32) false (ks.map (fun k => (elemValue a.pFmt (codes.getD k 0), 127)))
        (ks.map (fun k => a.kv s true h k d)) .zero)
    (treeSum (parts.map (·.1)), parts.any (·.2))

/-- Summary bits of the keys and values that an operation reads (R119, R200). -/
def Att.kvFlags (a : Att) (s : State) : Nat :=
  orFlags ((List.range a.seq.kvHeads).map (fun h => orFlags ((List.range a.kvEnd).map (fun k =>
    flagsIn ((List.range a.seq.headDim).map (fun d => (a.kv s false h k d).1) ++ (List.range a.seq.headDim).map (fun d => (a.kv s true h k d).1))))))

/-! ### Score blocks (R198) -/

/-- Where each part's block of `sizes` lies: 0 its core store, 1 the region at an offset, 2 tier 2. -/
def placeBlocks (region : Option (Nat × Nat)) (slice : Nat) : List (Nat × Nat) → Nat → List (Nat × Nat)
  | [], _ => []
  | (core, b) :: r, used =>
    if b ≤ 1048576 then (0, 0) :: placeBlocks region slice r used
    else match region with
      | some (cluster, size) =>
        if b ≤ 8388608 ∧ core / 256 = cluster ∧ used * slice + b ≤ size then (1, used * slice) :: placeBlocks region slice r (used + 1)
        else (2, 0) :: placeBlocks region slice r used
      | none => (2, 0) :: placeBlocks region slice r used

/-- The scratch fields of a packet, resolved. -/
structure Scratch where
  core : Nat
  t2 : Nat
  region : Option (Nat × Nat × Nat)

/-- Cluster and size of SCRATCH_REGION; the region must be the context's own and writable. -/
def State.scratchRegion (s : State) (ctx h : Nat) : Except Nat (Option (Nat × Nat × Nat)) :=
  if h = 0xFFFF then .ok none
  else match s.regionWrite ctx h 0 1 with
    | .error e => .error e
    | .ok r => .ok (some (h, r.cluster, r.size))

/-- The blocks of all parts, placed, and the slice; or the status of tier-2 scratch that cannot be had (R161, R198). -/
def Scratch.plan (x : Scratch) (s : State) (ctx : Nat) (blocks : List (Nat × Nat)) : Except Nat (List (Nat × Nat) × Nat) :=
  let slice := roundUp ((blocks.map (·.2)).foldl max 0) 65536
  let pl := placeBlocks (x.region.map (fun r => (r.2.1, r.2.2))) slice blocks 0
  if !pl.any (fun y => decide (y.1 = 2)) then .ok (pl, slice)
  else if x.t2 = 2 ^ 64 - 1 ∨ s.t2Mapped ctx x.t2 (blocks.length * slice) = false then .error St.badParam
  else if !s.t2Writable ctx x.t2 (blocks.length * slice) then .error St.notPermitted
  else .ok (pl, slice)

/-- A KV page; one that is not there holds +0. -/
def State.kvPage (s : State) (q : Seq) (key : Nat) : List Byte := match q.pages.get? key with
  | some g => s.stores.tier2.readBytes (g.frame * 65536) 65536
  | none => zeros 65536

/-- A page as ATTENTION holds it in a core store: a raw tile of SIZE_4K 17 with EPLANE 64 (R186). -/
def State.pageTile (s : State) (q : Seq) (key : Nat) : List Byte := tileHeader ⟨4, 17, 64, 0, 0⟩ q.fmt 0 0 0 0 ++ s.kvPage q key

/-- Where the page buffers of a scratch range begin: behind the largest score block that it holds (R198; log 22). -/
def pageArea : Nat := 1048576

/-- `rows` rows of `keys` codes in the order of the element planes of A-tiles: panels of up to 64 rows, in each the groups along
the keys, in each of these its rows (R136). DESIGN CHOICE: the last panel holds the rows there are, so that the whole fits its
block (R198; log 22). -/
def panelOrder (fmt rows keys : Nat) (code : Nat → Nat → Nat) : List Byte :=
  let g := kvGroup fmt
  let cells := (List.range (ceilDiv rows 64)).map (fun m => (List.range (ceilDiv keys g)).map (fun j =>
    (List.range (min 64 (rows - 64 * m))).map (fun r => (List.range g).map (fun i => if g * j + i < keys then code (64 * m + r) (g * j + i) else 0))))
  packCodes (8 * kvBytes fmt) (cells.flatten.flatten.flatten)

/-- What a run leaves of its scratch: each block holds the probabilities of its part from its start and free bytes after them, and
the scratch range of each core free bytes but for that and the page it read last (R186, R198; log 22). `last` gives a part's
last page, `probs` its probabilities. -/
def Scratch.wr (x : Scratch) (s : State) (ctx : Nat) (q : Seq) (last : Nat → Nat) (probs : Nat → List Byte) (blocks : List (Nat × Nat))
    (pl : List (Nat × Nat)) (slice : Nat) : List Wr × List Wr :=
  let core := (List.range blocks.length).map (fun i =>
    let c := (blocks.getD i (0, 0)).1
    [(⟨.core, coreKey c x.core, freeBytes (s.fresh + i) 1441792⟩ : Wr), ⟨.core, coreKey c (x.core + pageArea), s.pageTile q (last i)⟩] ++
      (if (pl.getD i (0, 0)).1 = 0 then [(⟨.core, coreKey c x.core, probs i⟩ : Wr)] else []))
  let away := (List.range blocks.length).map (fun i =>
    let bytes := probs i ++ (freeBytes (s.fresh + 4096 + i) (blocks.getD i (0, 0)).2).drop (probs i).length
    match pl.getD i (0, 0) with
    | (0, _) => []
    | (1, off) => match x.region with
        | some r => [(⟨.region, regionKey r.1 off, bytes⟩ : Wr)]
        | none => []
    | _ => s.t2Wr ctx (x.t2 + i * slice) bytes)
  (core.flatten, away.flatten)

/-- Bytes read and bytes written of a block of `b` outside the core store, with BF16 or FP8 probabilities (R198). -/
def sweepBytes (b pFmt : Nat) : Nat × Nat :=
  let p := if pFmt = 1 then b / 2 else b / 4
  (3 * b + p, 2 * b + p)

/-- Traffic of the blocks outside the core stores (R198). -/
def blockTraffic (blocks pl : List (Nat × Nat)) (pFmt : Nat) : Traffic :=
  ((blocks.zip pl).map (fun x =>
    let t := sweepBytes x.1.2 pFmt
    if x.2.1 = 1 then (⟨t.1 + t.2, 0, 0, 0⟩ : Traffic)
    else if x.2.1 = 2 then ⟨0, t.1, t.2, 0⟩ else Traffic.none)).foldl Traffic.add Traffic.none

/-- The descriptors by which part `i` passes its block through the core store (R198). -/
def Scratch.descs (x : Scratch) (o : Owner) (blocks pl : List (Nat × Nat)) (slice pFmt i : Nat) : List Desc :=
  let t := sweepBytes (blocks.getD i (0, 0)).2 pFmt
  let through : Nat → Nat → List Desc := fun rloc remote => Machine.descs o 1 rloc remote t.1 ++ Machine.descs o 2 rloc remote t.2
  match pl.getD i (0, 0), x.region with
  | (0, _), _ => []
  | (1, off), some r => through 1 (r.1 * 2 ^ 48 + off)
  | (1, _), none => []
  | _, _ => through 2 (x.t2 + i * slice)

/-- The descriptors that bring KV pages to a core store, by their frames: four pages each (R139, R186). -/
def kvDescs (o : Owner) (frames : List Nat) : List Desc :=
  let l := Machine.descs o 1 2 0 (frames.length * 65536)
  ((List.range l.length).zip l).map (fun d => { d.2 with frames := (frames.drop (4 * d.1)).take 4 })

/-- The walker of the K planes or the V planes of the pages in a scratch range (R186). -/
def Scratch.walker (x : Scratch) (v : Bool) : Walker := Walker.block (x.core + pageArea + 64 + (if v then 32768 else 0)) 32768

def Scratch.range (x : Scratch) : Nat × Nat × Bool := (x.core, x.core + 1441792, true)

/-! ### ATTENTION -/

/-- Cycles of a part (R199). -/
def attCycles (rows n headDim g1 c1 g3 c3 : Nat) : Nat × Nat × Nat :=
  let n2 := roundUp n 32
  (ceilDiv rows 64 * (n2 / 32) * (headDim / g1) * c1 + 64, 2 * ceilDiv (rows * n2) 64 + ceilDiv (rows * n2) 16 + 36,
   ceilDiv rows 64 * (headDim / 32) * (n2 / g3) * c3 + 64)

def attentionFields (p : Sys2Proof.Packet) : Bool :=
  let q := Packet.desc p 80
  let o := Packet.desc p 128
  let pf := Packet.fld p 23 1
  decide (Packet.len p = 3) && Packet.rsvZero p 66 80 && Packet.rsvZero p 176 192 && decide (1 ≤ Packet.fld p 21 1 ∧ Packet.fld p 21 1 ≤ 16) &&
  decide (Packet.fld p 22 1 ≤ 3) && decide (pf = 1 ∨ pf = 2) && positiveCode (Packet.fld p 32 4) && arithOk (Packet.fld p 36 1) &&
  decide (1 ≤ Packet.fld p 37 1 ∧ Packet.fld p 37 1 ≤ 16) && decide (Packet.fld p 38 2 ≤ 1024) && decide (Packet.fld p 44 4 % 4096 = 0 ∧ Packet.fld p 44 4 + 1441792 ≤ 2097152) &&
  (decide (Packet.fld p 48 8 = 2 ^ 64 - 1) || decide (Packet.fld p 48 8 % 65536 = 0 ∧ Packet.fld p 48 8 < 2 ^ 48)) &&
  (if bit (Packet.fld p 22 1) 1 then decide (Packet.fld p 56 8 % 64 = 0 ∧ Packet.fld p 56 8 < 2 ^ 48) else decide (Packet.fld p 56 8 = 0)) &&
  q.wellShaped && o.wellShaped && tensorReads q.fmt && tensorWrites o.fmt && q.sameDims o && decide (q.d3 = 1 ∧ o.loc ≠ 3)

/-- Checks of an ATTENTION against what its sequence was created with. -/
def attentionFits (p : Sys2Proof.Packet) (q : Seq) (part : Partition) : Bool :=
  let t := Packet.desc p 80
  decide (Packet.fld p 18 2 < q.layers) && decide (t.d0 = q.headDim ∧ t.d1 = Packet.fld p 38 2 ∧ t.d2 = Packet.fld p 37 1 * q.kvHeads) &&
  decide (Packet.fld p 20 1 + q.kvHeads * Packet.fld p 21 1 ≤ part.inService)

def Att.of (p : Sys2Proof.Packet) (q : Seq) : Att :=
  ⟨q, Packet.fld p 18 2, Packet.fld p 37 1, Packet.fld p 38 2, if Packet.fld p 28 4 = 0xFFFFFFFF then q.committed + q.tail else Packet.fld p 28 4,
   bit (Packet.fld p 22 1) 0, Packet.fld p 24 4, Packet.fld p 32 4, Packet.fld p 23 1, Packet.fld p 21 1, Arith.of (Packet.fld p 36 1) (Packet.fld p 40 4)⟩

/-- The probability record's header (R201). -/
def Att.header (a : Att) (h : Nat) : List Byte :=
  toLe 2 h ++ toLe 2 a.layer ++ toLe 1 a.qHeads ++ toLe 1 a.seq.kvHeads ++ toLe 1 a.pFmt ++ toLe 1 (b2n a.causal) ++ toLe 2 a.qTokens ++ zeros 2 ++
  toLe 4 a.qPos0 ++ toLe 4 a.kvEnd ++ toLe 4 a.npKeys ++ toLe 4 a.scale ++ zeros 4 ++
  toLe 8 (64 + a.seq.kvHeads * a.rows * a.npKeys * kvBytes a.pFmt) ++ zeros 24

def Att.recordBytes (a : Att) : Nat := 64 + a.seq.kvHeads * a.rows * a.npKeys * kvBytes a.pFmt

/-- Destination rows of head `h`'s unit. -/
def headMine (t : TDesc) (qHeads h : Nat) (u : Nat) : Bool :=
  if t.layout = 1 then decide (u / max 1 t.d1 / max 1 qHeads = h) else decide (u / max 1 (ceilDiv t.d0 32) / max 1 (ceilDiv t.d1 64) / max 1 qHeads = h)

/-- Key of the last page below KV_END that head `h` reads in a part that ends with page `n` (R185). -/
def Att.pageKey (a : Att) (h n : Nat) : Nat := kvKey a.layer (if a.seq.byHead then h / a.seq.hPage else 0) (n - 1)

/-- Frames of `n` pages of a KV head, from page `lo` on. -/
def Att.frames (a : Att) (h lo n : Nat) : List Nat := (List.range n).filterMap (fun i => (a.seq.pages.get? (a.pageKey h (lo + i + 1))).map (·.frame))

/-- The whole operation, once it can run. -/
def Att.work (a : Att) (s : State) (id ctx part h : Nat) (cores : List Nat) (q : Operand) (o : TDesc) (x : Scratch) (probs : Option Nat) : Except Nat Work :=
  let nh := a.seq.kvHeads
  let blocks := (List.range (nh * a.ksplit)).map (fun i =>
    (cores.getD i 0, a.rows * roundUp ((a.keys (i % a.ksplit)).2 - (a.keys (i % a.ksplit)).1) 32 * 4))
  match x.plan s ctx blocks with
  | .error e => .error e
  | .ok (pl, slice) =>
    let own : Owner := .flight id
    let unit : Nat → List Nat := fun k => (cores.drop (k * a.ksplit)).take a.ksplit
    let rows := (List.range nh).map (fun k => (List.range a.rows).map (fun r => a.probRow s q (unit k) k r))
    let codes := (List.range nh).map (fun k => (List.range a.rows).map (fun r => a.probCodes ((rows.getD k []).getD r ([], 0, false)) k r))
    let outs := (List.range nh).map (fun k =>
      let core := (unit k).headD 0
      let elem : Nat → Nat → Nat → Fv × Bool := fun d t qh =>
        let row := qh % max 1 a.qHeads * a.qTokens + t
        a.outElem s ((codes.getD k []).getD row ([], 0)).1 ((rows.getD k []).getD row ([], 0, false)).2.2 k d
      let r := o.rowsOut a.ar (fun d t qh _ => (elem d t qh).1) (headMine o a.qHeads k) (fill := false)
      let under := orFlags ((List.range a.qHeads).map (fun i => orFlags ((List.range a.qTokens).map (fun t => orFlags ((List.range o.d0).map (fun d =>
        let e := elem d t (k * a.qHeads + i)
        underIf e.1 e.2))))))
      ((r.1.map (fun y => s.destWr ctx core o y.1 y.2)).flatten, r.2 ||| under, core, (r.1.map (fun y => y.2.length)).foldl (· + ·) 0))
    let b := kvBytes a.pFmt
    let rec_ := match probs with
      | none => []
      | some addr => s.t2Wr ctx addr (a.header h) ++ ((List.range nh).map (fun k => ((List.range a.rows).map (fun r =>
          s.t2Wr ctx (addr + 64 + (k * a.rows + r) * a.npKeys * b) (packCodes (8 * b) (((codes.getD k []).getD r ([], 0)).1 ++
            List.replicate (a.npKeys - a.kvEnd) 0)))).flatten)).flatten
    let left : Nat → List Byte := fun i =>
      let ks := a.keys (i % a.ksplit)
      panelOrder a.pFmt a.rows (ks.2 - ks.1) (fun r k => (((codes.getD (i / a.ksplit) []).getD r ([], 0)).1).getD (ks.1 + k) 0)
    let scr := x.wr s ctx a.seq (fun i => a.pageKey (i / a.ksplit) ((i % a.ksplit + 1) * a.pages / a.ksplit)) left blocks pl slice
    let flagsQ := q.flags 1 cores ||| a.kvFlags s
    let anyNan := rows.any (fun l => l.any (fun r => r.2.2))
    let exc := flagsQ ||| orFlags ((codes.map (fun l => orFlags (l.map (·.2)))) ++ outs.map (fun y => y.2.1)) ||| (if anyNan then fNanOut else 0)
    let qExt := q.need 1 cores
    let toDest := outs.map (fun y => y.1) |>.flatten
    let g1 := if q.desc.fmt = 1 ∨ a.seq.fmt = 1 then 16 else 32
    let g3 := if a.pFmt = 1 ∨ a.seq.fmt = 1 then 16 else 32
    let slots := (List.range cores.length).map (fun i =>
      let n := (a.keys (i % a.ksplit)).2 - (a.keys (i % a.ksplit)).1
      let cy := attCycles a.rows n a.seq.headDim g1 (groupCycles q.desc.fmt a.seq.fmt) g3 (groupCycles a.pFmt a.seq.fmt)
      let scrR := [x.range]
      let qR := if q.desc.loc = 0 then [(q.desc.off, q.desc.off + qExt, false)] else []
      let oR := if o.loc = 0 ∧ i % a.ksplit = 0 then [(o.off, o.off + o.extent (tileKindOf o.fmt), true)] else []
      [(cores.getD i 0, opSlot own .tensor (x.walker false :: q.desc.walkers) cy.1 (scrR ++ qR) part), (cores.getD i 0, opSlot own .vector [] cy.2.1 scrR part),
       (cores.getD i 0, opSlot own .tensor (x.walker true :: (if i % a.ksplit = 0 then o.walkers else [])) cy.2.2 (scrR ++ oR) part)])
    let nPages : Nat → Nat := fun j => (j + 1) * a.pages / a.ksplit - j * a.pages / a.ksplit
    let ds := (List.range cores.length).map (fun i =>
      (s.readDescs own q.desc qExt 1 0 ++ kvDescs own (a.frames (i / a.ksplit) (i % a.ksplit * a.pages / a.ksplit) (nPages (i % a.ksplit))) ++ x.descs own blocks pl slice a.pFmt i ++
       (if i % a.ksplit = 0 then putDescs own o ((outs.getD (i / a.ksplit) ([], 0, 0, 0)).2.2.2)
        else (descs own 2 0 0 (4 * a.rows * a.seq.headDim)).map (fun d => { d with rcore := cores.getD (i - i % a.ksplit) 0, local_ := x.core })) ++
       (match probs with
        | some addr => let z := shareOf a.recordBytes cores.length i; descs own 2 2 (addr + z.1) z.2
        | none => [])).map (fun d => (cores.getD i 0, d)))
    let wrBytes := (toDest.map (fun w => w.bytes.length)).foldl (· + ·) 0
    .ok { status := St.ok, info := a.seq.info, exc := exc,
           result := exc % 65536 + 65536 * (cores.length % 256) + 2 ^ 24 * (pl.map (·.1)).foldl max 0 + 2 ^ 32 * a.kvEnd,
           core := scr.1 ++ (if o.loc = 0 then toDest else []), later := scr.2 ++ (if o.loc = 0 then [] else toDest) ++ rec_, host := [],
           slots := slots.flatten, descs := ds.flatten, holds := q.holds,
           traffic := ((traffic (s.pathLoc q.desc) (qExt * cores.length) false).add
             ⟨0, nh * a.pages * 65536, if probs.isSome then a.recordBytes else 0, 0⟩).add ((traffic o.loc wrBytes true).add (blockTraffic blocks pl a.pFmt)) }

/-- KV pages an operation reads that hold an uncorrectable error. -/
def State.kvPoison (s : State) (q : Seq) (layer : Nat) : Option (Store × Nat) :=
  (s.stores.poison.find? (fun x => decide (x.1 = .tier2) && q.pages.any (fun y => decide (y.1 / 16384 = layer) && decide (y.2.state = 1 ∧ y.2.frame = x.2 * 64 / 65536)))).map (fun x => (x.1, x.2 * 64))

def attentionChecks (_ : Caller) (p : Sys2Proof.Packet) (s : State) : Option Nat :=
  firstFail [(decide (Packet.ctxNo p = 0xFFFF), St.badContext), (!attentionFields p, St.badParam)] |>.orElse (fun _ => s.seqCheck p false)

/-- Run a KV operation's work, spoiled when an operand holds an uncorrectable error (R144). -/
def State.runKv (s : State) (id part h : Nat) (w : Work) (bad : Option (Store × Nat)) : State × Reply :=
  let w := (w.spoilIf s.fresh bad).dealt
  ((s.useSeq h).begin_ (.flight id) part w, .placed w.status w.info w.result w.later w.host)

def attentionEffect (id : Nat) (_ : Caller) (p : Sys2Proof.Packet) (s : State) : State × Reply :=
  let h := Packet.fld p 16 2
  let c := Packet.ctxNo p
  match s.seq? h, s.partOf c with
  | none, _ => refuse s St.notFound
  | some q, none => (s, .done St.badParam q.info 0)
  | some q, some (n, part) =>
    let stop : Nat → State × Reply := fun e => (s, .done e q.info 0)
    let a := Att.of p q
    if !attentionFits p q part then stop St.badParam
    else if !s.seqOpen id q then (s, .done St.busy q.info q.state)
    else if part.state = 4 then (s, .park)
    else if part.state ≠ 1 then stop St.busy
    else if s.t2Refused n part then stop St.notPermitted
    else if s.seqWaits id h false then (s, .park)
    else if a.kvEnd ≠ 0 ∧ a.pages < a.ksplit then stop St.badParam
    else
      let o := Packet.desc p 128
      let probs := if bit (Packet.fld p 22 1) 1 then some (Packet.fld p 56 8) else none
      match s.ahead.src c n part 1 (Packet.desc p 80), s.destOk c n part o (o.extent (tileKindOf o.fmt)), s.scratchRegion c (Packet.fld p 64 2) with
      | .error e, _, _ => stop e
      | .ok _, some e, _ => stop e
      | .ok _, none, .error e => stop e
      | .ok qo, none, .ok reg =>
        if (match probs with
            | some x => !s.t2Writable c x a.recordBytes
            | none => false) then stop St.badParam
        else if a.qTokens = 0 ∨ a.kvEnd = 0 then (s.useSeq h, .done St.ok (Inf.zeroWork ||| q.info) (2 ^ 32 * a.kvEnd))
        else match part.cores (Packet.fld p 20 1) (q.kvHeads * a.ksplit) with
          | none => stop St.coreFault
          | some cores =>
            if cores.any (s.coreHeld part.cls) || s.windowWaits qo.desc (s.windowSpan qo.desc) then (s, .parkWork)
            else if !s.srcFits c n part [1] qo cores then stop St.badParam
            else match a.work s id c n h cores qo o ⟨Packet.fld p 44 4, Packet.fld p 48 8, reg⟩ probs with
              | .error e => stop e
              | .ok w => s.runKv id n h w ((s.poisonOf c cores [(qo.desc, qo.need 1 cores)]).orElse (fun _ => s.kvPoison q a.layer))

def attentionBody : Body := checkedSeq attentionChecks attentionEffect

/-- ATTENTION (R194). -/
def execAttention (p : Sys2Proof.Packet) (s : State) : Host.Outcome State Fault Refusal := .next (runPacket 0x400 attentionBody p s)

/-! ### ATTENTION_BACKWARD (R202) -/

def backwardFields (p : Sys2Proof.Packet) : Bool :=
  let ds := [64, 112, 160, 208, 256].map (Packet.desc p)
  let d : Nat → TDesc := fun i => Packet.desc p (64 + 48 * i)
  decide (Packet.len p = 5) && decide (Packet.fld p 22 2 = 0) && Packet.rsvZero p 50 64 && Packet.rsvZero p 304 320 && arithOk (Packet.fld p 21 1) &&
  decide (Packet.fld p 28 4 % 4096 = 0 ∧ Packet.fld p 28 4 + 1441792 ≤ 2097152) && decide (Packet.fld p 32 8 % 64 = 0 ∧ Packet.fld p 32 8 < 2 ^ 48) &&
  (decide (Packet.fld p 40 8 = 2 ^ 64 - 1) || decide (Packet.fld p 40 8 % 65536 = 0 ∧ Packet.fld p 40 8 < 2 ^ 48)) &&
  ds.all TDesc.wellShaped && tensorReads (d 0).fmt && tensorReads (d 1).fmt && tensorWrites (d 2).fmt && tensorWrites (d 3).fmt && tensorWrites (d 4).fmt &&
  (d 0).sameDims (d 1) && (d 1).sameDims (d 2) && (d 3).sameDims (d 4) && decide ((d 0).d3 = 1 ∧ (d 3).d3 = 1 ∧ (d 2).loc ≠ 3 ∧ (d 3).loc ≠ 3 ∧ (d 4).loc ≠ 3)

/-- The record a backward pass reads, from its header (R201). -/
def recAtt (rd : Reader) (q : Seq) (ar : Arith) : Att :=
  ⟨q, readLe rd 2 2, readLe rd 4 1, readLe rd 8 2, readLe rd 16 4, bit (readLe rd 7 1) 0, readLe rd 12 4, readLe rd 24 4, readLe rd 6 1, 1, ar⟩

def backwardFits (p : Sys2Proof.Packet) (q : Seq) (part : Partition) (a : Att) (rd : Reader) : Bool :=
  let t := Packet.desc p 64
  let k := Packet.desc p 208
  decide (readLe rd 0 2 = Packet.fld p 16 2 ∧ a.layer = Packet.fld p 18 2 ∧ a.layer < q.layers) && decide (a.kvEnd ≤ q.committed + q.tail) &&
  decide (readLe rd 5 1 = q.kvHeads) && decide (1 ≤ a.qHeads ∧ a.qHeads ≤ 16 ∧ a.qTokens ≤ 1024 ∧ (a.pFmt = 1 ∨ a.pFmt = 2)) &&
  decide (t.d0 = q.headDim ∧ t.d1 = a.qTokens ∧ t.d2 = a.qHeads * q.kvHeads) && decide (k.d0 = q.headDim ∧ k.d1 = a.kvEnd ∧ k.d2 = q.kvHeads) &&
  decide (Packet.fld p 20 1 + q.kvHeads ≤ part.inService)

/-- P of the record. -/
def Att.p (a : Att) (rd : Reader) (h r k : Nat) : Nat := readLe rd (64 + ((h * a.rows + r) * a.npKeys + k) * kvBytes a.pFmt) (kvBytes a.pFmt)

/-- Summary bits of the probabilities read (R119). -/
def Att.pFlags (a : Att) (rd : Reader) : Nat :=
  orFlags ((List.range a.seq.kvHeads).map (fun h => orFlags ((List.range a.rows).map (fun r =>
    flagsIn ((List.range a.kvEnd).map (fun k => elemValue a.pFmt (a.p rd h r k)))))))

def unscaled (fmt c : Nat) : Factor := (elemValue fmt c, 127)

/-- The products of one unit: dV, dQ and dK elements by index, in FP32 before conversion, each with whether a step took a
nonzero value to zero (R116). -/
structure Grads where
  dv : Nat → Nat → Fv × Bool
  dq : Nat → Nat → Fv × Bool
  dk : Nat → Nat → Fv × Bool

/-- Gradients of head `h` on its core (R202). -/
def Att.grads (a : Att) (s : State) (rd : Reader) (go q : Operand) (core h : Nat) : Grads :=
  let rows := List.range a.rows
  let keys := List.range a.kvEnd
  let head : Nat → Nat := fun r => h * a.qHeads + r / max 1 a.qTokens
  let tok : Nat → Nat := fun r => r % max 1 a.qTokens
  let dO := rows.map (fun r => go.factors core (head r) (tok r))
  let qs := rows.map (fun r => q.factors core (head r) (tok r))
  let mx := isMx go.desc.fmt
  let g : Nat → Nat → Nat := fun x y => if x = 1 ∨ y = 1 then 16 else 32
  let dP := rows.map (fun r => keys.map (fun k =>
    (dotGroups (g go.desc.fmt a.seq.fmt) mx (dO.getD r []) ((List.range a.seq.headDim).map (a.kv s true h k)) .zero).1))
  let dS := rows.map (fun r =>
    let pr := keys.map (fun k => elemValue a.pFmt (a.p rd h r k))
    let prod := keys.map (fun k => fmul (pr.getD k .zero) ((dP.getD r []).getD k .zero))
    let d := reducePart 1 prod 0 a.kvEnd
    keys.map (fun k => if (pr.getD k .zero).isZero && !(pr.getD k .zero).isNeg then Fv.zero
      else bf16.round (fmul (pr.getD k .zero) (fsub ((dP.getD r []).getD k .zero) d))))
  let at_ : List (List Factor) → Nat → Nat → Factor := fun l r d => (l.getD r []).getD d (.zero, 127)
  -- operands whose blocks run along HEAD_DIM give each element its own scale here (log 17)
  let own : Factor → Factor := fun f => (f.1.mul (scaleValue f.2), 127)
  let scaled : Fv × Bool → Fv × Bool := fun x => (fmul (f32 a.scale) x.1, x.2 || !x.1.isZero)
  { dv := fun k d => dotGroups (g a.pFmt go.desc.fmt) false (rows.map (fun r => unscaled a.pFmt (a.p rd h r k))) (rows.map (fun r => own (at_ dO r d))) .zero
    dq := fun r d => scaled (dotGroups 16 false (keys.map (fun k => ((dS.getD r []).getD k .zero, 127))) (keys.map (fun k => a.kv s false h k d)) .zero)
    dk := fun k d => scaled (dotGroups 16 false (rows.map (fun r => ((dS.getD r []).getD k .zero, 127))) (rows.map (fun r => own (at_ qs r d))) .zero) }

def Att.backwardWork (a : Att) (s : State) (id ctx part addr : Nat) (rd : Reader) (cores : List Nat) (go q : Operand) (dq dk dv : TDesc) (x : Scratch) : Except Nat Work :=
  let blocks := cores.map (fun c => (c, a.rows * a.npKeys * 4))
  match x.plan s ctx blocks with
  | .error e => .error e
  | .ok (pl, slice) =>
    let own : Owner := .flight id
    let scr := x.wr s ctx a.seq (fun h => a.pageKey h a.pages) (fun _ => []) blocks pl slice
    let units := (List.range cores.length).map (fun h =>
      let core := cores.getD h 0
      let g := a.grads s rd go q core h
      let o1 := dq.rowsOut a.ar (fun d t qh _ => (g.dq (qh % max 1 a.qHeads * a.qTokens + t) d).1) (headMine dq a.qHeads h) (fill := false)
      let o2 := dk.rowsOut a.ar (fun d k _ _ => (g.dk k d).1) (headMine dk 1 h) (fill := false)
      let o3 := dv.rowsOut a.ar (fun d k _ _ => (g.dv k d).1) (headMine dv 1 h) (fill := false)
      let under : Nat → (Nat → Nat → Fv × Bool) → Nat := fun n f => orFlags ((List.range n).map (fun i => orFlags ((List.range a.seq.headDim).map (fun d =>
        underIf (f i d).1 (f i d).2))))
      let put : TDesc → List (Nat × List Byte) → List Wr := fun t l => (l.map (fun y => s.destWr ctx core t y.1 y.2)).flatten
      ([(dq, put dq o1.1), (dk, put dk o2.1), (dv, put dv o3.1)],
       o1.2 ||| o2.2 ||| o3.2 ||| under a.rows g.dq ||| under a.kvEnd g.dk ||| under a.kvEnd g.dv))
    let ws := (units.map (·.1)).flatten
    let exc := orFlags (units.map (·.2)) ||| go.flags 1 cores ||| q.flags 1 cores ||| a.kvFlags s ||| a.pFlags rd
    let len : List Wr → Nat := fun l => (l.map (fun w => w.bytes.length)).foldl (· + ·) 0
    let srcs : List (TDesc × Nat) := [(go.desc, go.need 1 cores), (q.desc, q.need 1 cores)]
    let slots := cores.map (fun c =>
      let r := [x.range] ++ ((srcs.filter (fun t => decide (t.1.loc = 0))).map (fun t => (t.1.off, t.1.off + t.2, false))) ++
        (([dq, dk, dv].filter (fun t => decide (t.loc = 0))).map (fun t => (t.off, t.off + t.extent (tileKindOf t.fmt), true)))
      let cy := attCycles a.rows a.kvEnd a.seq.headDim 16 32 16 32
      [(c, opSlot own .vector [] cy.2.1 [x.range] part),
       (c, opSlot own .tensor (([x.walker false, x.walker true] ++ go.desc.walkers ++ q.desc.walkers).take 4) (2 * cy.1 + 3 * cy.2.2) r part)])
    let ds := (List.range cores.length).map (fun i =>
      let z := shareOf a.recordBytes cores.length i
      ((srcs.map (fun t => s.readDescs own t.1 t.2 1 0)).flatten ++ kvDescs own (a.frames i 0 a.pages) ++ descs own 1 2 (addr + z.1) z.2 ++
       x.descs own blocks pl slice 1 i ++ (((ws.drop (3 * i)).take 3).map (fun y => putDescs own y.1 (len y.2))).flatten).map (fun d => (cores.getD i 0, d)))
    .ok { status := St.ok, info := a.seq.info, exc := exc, result := computeResult exc cores.length (cyclesOf s.fresh (attCycles a.rows a.kvEnd a.seq.headDim 16 32 16 32).1),
           core := scr.1 ++ ((ws.filter (fun y => decide (y.1.loc = 0))).map (·.2)).flatten,
           later := scr.2 ++ ((ws.filter (fun y => decide (y.1.loc ≠ 0))).map (·.2)).flatten, host := [],
           slots := slots.flatten, descs := ds.flatten, holds := go.holds ++ q.holds,
           traffic := ((ws.map (fun y => traffic y.1.loc (len y.2) true)).foldl Traffic.add ⟨0, a.seq.kvHeads * a.pages * 65536 + a.recordBytes, 0, 0⟩).add
             (((srcs.filter (fun t => decide (t.1.loc ≠ 0))).map (fun t => traffic (s.pathLoc t.1) (t.2 * cores.length) false)).foldl Traffic.add (blockTraffic blocks pl 1)) }

def backwardChecks (_ : Caller) (p : Sys2Proof.Packet) (s : State) : Option Nat :=
  firstFail [(decide (Packet.ctxNo p = 0xFFFF), St.badContext), (!backwardFields p, St.badParam)] |>.orElse (fun _ => s.seqCheck p false)

def backwardEffect (id : Nat) (_ : Caller) (p : Sys2Proof.Packet) (s : State) : State × Reply :=
  let h := Packet.fld p 16 2
  let c := Packet.ctxNo p
  match s.seq? h, s.partOf c with
  | none, _ => refuse s St.notFound
  | some q, none => (s, .done St.badParam q.info 0)
  | some q, some (n, part) =>
    let stop : Nat → State × Reply := fun e => (s, .done e q.info 0)
    let rd := s.t2Reader c (Packet.fld p 32 8)
    let a := recAtt rd q (Arith.of (Packet.fld p 21 1) (Packet.fld p 24 4))
    if !s.seqOpen id q then (s, .done St.busy q.info q.state)
    else if part.state = 4 then (s, .park)
    else if part.state ≠ 1 then stop St.busy
    else if s.t2Refused n part then stop St.notPermitted
    else if s.seqWaits id h false then (s, .park)
    else if !s.t2Mapped c (Packet.fld p 32 8) 64 || !backwardFits p q part a rd || !s.t2Mapped c (Packet.fld p 32 8) a.recordBytes then stop St.badParam
    else
      let dest : Nat → TDesc := fun i => Packet.desc p (160 + 48 * i)
      let ok : TDesc → Option Nat := fun t => s.destOk c n part t (t.extent (tileKindOf t.fmt))
      match s.ahead.src c n part 1 (Packet.desc p 64), s.ahead.src c n part 1 (Packet.desc p 112), (ok (dest 0)).orElse (fun _ => (ok (dest 1)).orElse (fun _ => ok (dest 2))),
            s.scratchRegion c (Packet.fld p 48 2) with
      | .error e, _, _, _ => stop e
      | .ok _, .error e, _, _ => stop e
      | .ok _, .ok _, some e, _ => stop e
      | .ok _, .ok _, none, .error e => stop e
      | .ok go, .ok qo, none, .ok reg =>
        if a.rows = 0 ∨ a.kvEnd = 0 then (s.useSeq h, .done St.ok (Inf.zeroWork ||| q.info) 0)
        else match part.cores (Packet.fld p 20 1) q.kvHeads with
          | none => stop St.coreFault
          | some cores =>
            let exts := [(go.desc, go.need 1 cores), (qo.desc, qo.need 1 cores)]
            if cores.any (s.coreHeld part.cls) || [go.desc, qo.desc].any (fun e => s.windowWaits e (s.windowSpan e)) then (s, .parkWork)
            else if !(s.srcFits c n part [1] go cores && s.srcFits c n part [1] qo cores) then stop St.badParam
            else match a.backwardWork s id c n (Packet.fld p 32 8) rd cores go qo (dest 0) (dest 1) (dest 2) ⟨Packet.fld p 28 4, Packet.fld p 40 8, reg⟩ with
              | .error e => stop e
              | .ok w => s.runKv id n h w (((s.poisonOf c cores exts).orElse (fun _ => s.kvPoison q a.layer)).orElse
                  (fun _ => (s.t2Poison c (Packet.fld p 32 8) a.recordBytes).map (fun k => (.tier2, k))))

def backwardBody : Body := checkedSeq backwardChecks backwardEffect

/-- ATTENTION_BACKWARD (R202). -/
def execAttentionBackward (p : Sys2Proof.Packet) (s : State) : Host.Outcome State Fault Refusal := .next (runPacket 0x401 backwardBody p s)

end Sys2Proof.Machine
end

