-- ==== Sys2Proof/Machine/Crypto.lean ====
section
/-! DEFINITION. Identities, signers, and the sealing of state blobs (R235, R391, R396, R404, R405); the primitives are
uninterpreted (log 8). -/

namespace Sys2Proof.Machine

/-- The context words of a packet's dispatch: those it kept while it waited, or those active now (R396). -/
def State.contextWord (s : State) (id c off : Nat) : Nat :=
  match (s.flight? id).bind (fun f => f.words) with
  | some l => l.getD (off - 0x40) 0
  | none => s.activeWord 2 c off

/-- Trust entries of a context of one KIND, as active at the dispatch of a packet (R395, R396): X and Y. -/
def State.trust (s : State) (id c kind : Nat) : List (List Byte × List Byte) :=
  let w := s.contextWord id c
  ((List.range 8).filter (fun e => decide (w (0x40 + 32 * e) = kind))).map (fun e =>
    (wordBytes w (0x41 + 32 * e) 12, wordBytes w (0x4D + 32 * e) 12))

/-- Verify a signature under a key. -/
def verifyBy (key : List Byte × List Byte) (msg sig : List Byte) : Bool := Sys2Proof.Config.ecdsaVerify ([0x04] ++ key.1 ++ key.2) msg sig

/-- A slot burned by the unlock of the test modes (R414). -/
def burned (n : Nat) : List Byte := List.replicate n 0xFF

/-- GEN of a new blob: the highest-numbered nonzero fleet root slot, and the root (R404). From burned roots no key is derived
(R414), so the blob's key is free. -/
def State.exportRoot (s : State) : Nat × List Byte :=
  match ((List.range 4).reverse).find? (fun i => !allZero (s.sec.fuses.fleetRoots.getD i [])) with
  | some i => (i, if s.sec.fuses.fleetRoots.getD i [] = burned 32 then freeBytes s.fresh 32 else s.sec.fuses.fleetRoots.getD i [])
  | none => (0, Sys2Proof.Config.rootSecret)

def State.fleetFused (s : State) : Bool := s.sec.fuses.fleetRoots.any (fun r => !allZero r)

/-- Root that a blob's GEN names, if it names one here (R405). -/
def State.importRoot (s : State) (gen : Nat) (dev : List Byte) : Option (List Byte) :=
  if s.fleetFused then (if allZero (s.sec.fuses.fleetRoots.getD gen []) ∨ s.sec.fuses.fleetRoots.getD gen [] = burned 32 then none else some (s.sec.fuses.fleetRoots.getD gen []))
  else if gen = 0 ∧ dev = deviceId then some Sys2Proof.Config.rootSecret else none

/-- "HX9 state blob" in ASCII. -/
def blobInfo : List Byte := [0x48, 0x58, 0x39, 0x20, 0x73, 0x74, 0x61, 0x74, 0x65, 0x20, 0x62, 0x6C, 0x6F, 0x62]

/-- Key of a blob (R404). -/
def blobKey (root nonce dev : List Byte) : List Byte := fixedLen 32 (Sys2Proof.Config.hkdf root nonce (blobInfo ++ dev))

/-- XOR with the key stream. -/
def xorStream (key iv bs : List Byte) : List Byte := (List.range bs.length).zip bs |>.map (fun x => x.2 ^^^ Sys2Proof.Config.keyStream key iv x.1)

/-- The blob of a record (R235). -/
def sealBlob (root : Nat × List Byte) (nonce : List Byte) (ctx step version : Nat) (record : List Byte) : List Byte :=
  let head := toLe 2 1 ++ zeros 2 ++ toLe 4 record.length ++ deviceId ++ toLe 8 step ++ toLe 8 version ++ toLe 1 ctx ++ toLe 1 root.1 ++ zeros 2 ++
    nonce ++ zeros 72
  let key := blobKey root.2 nonce deviceId
  let ct := xorStream key nonce record
  let body := head ++ ct ++ fixedLen 16 (Sys2Proof.Config.gcmTag key nonce head ct)
  body ++ fixedLen 96 (Sys2Proof.Config.identitySign body)

/-- Open a blob for a packet of a context: the record, when every check of R405 holds. -/
def State.openBlob (s : State) (id c : Nat) (b : List Byte) : Option (List Byte) :=
  let n := fieldAt b 4 4
  let dev := sliceAt b 8 16
  let gen := fieldAt b 41 1
  let nonce := sliceAt b 44 12
  let head := b.take 128
  let ct := sliceAt b 128 n
  let key := if dev = deviceId then some identityKey else (s.trust id c 2).find? (fun k => decide (signerId k.1 k.2 = dev))
  match key, s.importRoot (gen % 4) dev with
  | some k, some root =>
    let bk := blobKey root nonce dev
    if fieldAt b 0 2 = 1 ∧ fieldAt b 2 2 = 0 ∧ gen < 4 ∧ fieldAt b 42 2 = 0 ∧ allZero (sliceAt b 56 72) ∧ n ≤ 262144 ∧
       verifyBy k (b.take (144 + n)) (sliceAt b (144 + n) 96) ∧ sliceAt b (128 + n) 16 = fixedLen 16 (Sys2Proof.Config.gcmTag bk nonce head ct) then
      some (xorStream bk nonce ct)
    else none
  | _, _ => none

end Sys2Proof.Machine
end

