-- ==== Sys2Proof/Machine/Streams.lean ====
section
/-! DEFINITION. State-carrying streams (R214 to R239): records, the four recurrences, numbered operations, residency,
export and import. -/

namespace Sys2Proof.Machine

/-! ### The state record (R217, R218) -/

/-- Planes of the parameter block and of the state block (R218). -/
def Stream.paramPlanes (x : Stream) : Nat := match x.kind with
  | 1 => 3
  | 2 => 5 * x.sections
  | 3 => 2 * x.nstate
  | _ => 0

def Stream.statePlanes (x : Stream) : Nat := match x.kind with
  | 2 => 2 * x.sections
  | 3 => 2 * x.nstate
  | _ => 1

def Stream.stateOff (x : Stream) : Nat := 128 + roundUp (4 * x.paramPlanes * x.channels) 64
def Stream.compOff (x : Stream) : Nat := if x.comp then x.stateOff + roundUp (4 * x.statePlanes * x.channels) 64 else 0
def Stream.recordBytes (x : Stream) : Nat :=
  x.stateOff + roundUp (4 * x.statePlanes * x.channels) 64 + (if x.comp then roundUp (4 * x.channels) 64 else 0)

/-- The 128 bytes of headers (R217). -/
def Stream.header (x : Stream) : List Byte :=
  toLe 1 0 ++ toLe 1 4 ++ toLe 1 (ceilDiv x.recordBytes 4096) ++ toLe 1 0 ++ toLe 4 0 ++ toLe 4 0 ++ toLe 4 64 ++ zeros 48 ++
  toLe 1 x.kind ++ toLe 1 (b2n x.comp + 2 * b2n x.jobFed) ++ toLe 1 x.sections ++ toLe 1 x.nstate ++ toLe 4 x.channels ++ toLe 8 x.step ++ toLe 8 x.version ++
  toLe 4 128 ++ toLe 4 x.stateOff ++ toLe 4 x.compOff ++ toLe 4 x.recordBytes ++ toLe 1 x.disc ++ zeros 23

/-- Blocks padded with +0 behind the headers (R218). -/
def Stream.record (x : Stream) (params state comp : List Nat) : List Byte :=
  let block : List Nat → List Byte := fun l => (l.map (toLe 4)).flatten ++ zeros (roundUp (4 * l.length) 64 - 4 * l.length)
  x.header ++ block params ++ block state ++ (if x.comp then block comp else [])

/-- Word `i` of a block of a record. -/
def recWord (rec_ : List Byte) (off i : Nat) : Nat := fieldAt rec_ (off + 4 * i) 4

/-- Where a record lies at the stream's home or in its swap area: location, address for `sideRead`, core. -/
def State.homeCore (s : State) (x : Stream) : Option Nat := (s.sched.partitions.get? x.part).bind (fun q => q.coreAt x.position)

/-- Bytes of the record where it now is. -/
def State.recordRead (s : State) (x : Stream) (swap : Bool) : List Byte :=
  let n := x.recordBytes
  if swap ∨ x.home = 2 then s.t2Read x.ctx x.swapAddr n
  else if x.home = 1 then s.stores.region.readBytes (regionKey (bits x.homeAddr 63 48) (bits x.homeAddr 23 0)) n
  else match s.homeCore x with
    | some c => s.stores.core.readBytes (coreKey c x.homeAddr) n
    | none => zeros n

def State.recordWr (s : State) (x : Stream) (swap : Bool) (bs : List Byte) : List Wr :=
  if swap ∨ x.home = 2 then s.t2Wr x.ctx x.swapAddr bs
  else if x.home = 1 then [⟨.region, regionKey (bits x.homeAddr 63 48) (bits x.homeAddr 23 0), bs⟩]
  else match s.homeCore x with
    | some c => [⟨.core, coreKey c x.homeAddr, bs⟩]
    | none => []

/-- An uncorrectable line in the record. -/
def State.recordPoison (s : State) (x : Stream) (swap : Bool) : Option (Store × Nat) :=
  let n := x.recordBytes
  let near : Store → Nat → Option (Store × Nat) := fun st k =>
    (s.stores.poison.find? (fun y => decide (y.1 = st) && decide (k < y.2 * 64 + 64 ∧ y.2 * 64 < k + n))).map (fun y => (y.1, y.2 * 64))
  if swap ∨ x.home = 2 then (s.t2Poison x.ctx x.swapAddr n).map (fun k => (.tier2, k))
  else if x.home = 1 then near .region (regionKey (bits x.homeAddr 63 48) (bits x.homeAddr 23 0))
  else match s.homeCore x with
    | some c => near .core (coreKey c x.homeAddr)
    | none => none

/-- KIND and VERSION in a record agree with what Hearth holds (R224). -/
def Stream.agrees (x : Stream) (rec_ : List Byte) : Bool := decide (fieldAt rec_ 64 1 = x.kind ∧ fieldAt rec_ 80 8 = x.version)

/-! ### The recurrences (R214 to R216) -/

/-- State of one channel: its state planes and its compensation word. -/
abbrev Cell := List Fv × Fv

/-- A value of a step and whether a rounding on the way took a nonzero result to zero (R116). -/
abbrev Step := Fv × Bool

def Step.mul (a b : Step) : Step := (fmul a.1 b.1, a.2 || b.2 || lostTo (a.1.mul b.1) (fmul a.1 b.1))
def Step.fma (a b c : Step) : Step := (ffma a.1 b.1 c.1, a.2 || b.2 || c.2 || lostTo (a.1.fma b.1 c.1) (ffma a.1 b.1 c.1))
def Step.neg (a : Step) : Step := (a.1.neg, a.2)

/-- A value read. -/
def Step.of (x : Fv) : Step := (x, false)

/-- UNDERFLOW_ZERO of the values a step writes (R116). -/
def Step.under (l : List Step) : Nat := orFlags (l.map (fun x => underIf x.1 x.2))

/-- One biquad section: its output and its new states (R215). -/
def biquad (b0 b1 b2 a1 a2 x z1 z2 : Step) : Step × Step × Step :=
  let y := b0.fma x z1
  (y, b1.fma x (a1.neg.fma y z2), b2.fma x (a2.neg.mul y))

/-- Discretised factor of one element (R216): real and imaginary parts, and UNDERFLOW of the functions. -/
def discretise (delta ar ai : Step) : Step × Step × Nat :=
  let m := transOut 0x10 0x10 (delta.mul ar).1
  let c := transOut 0x18 0x18 (delta.mul ai).1
  let n := transOut 0x17 0x17 (delta.mul ai).1
  (Step.mul (.of m.1) (.of c.1), Step.mul (.of m.1) (.of n.1), m.2 ||| c.2 ||| n.2)

/-- One step of one channel (R215): parameters by plane, input, AUX0, AUX1 by index. -/
def stepCell (k : Stream) (par : Nat → Fv) (x a0 : Fv) (a1 : Nat → Fv) (c : Cell) : Cell × Fv × Nat :=
  let st : Nat → Step := fun i => .of (c.1.getD i .zero)
  let pv : Nat → Step := fun i => .of (par i)
  let av : Nat → Step := fun i => .of (a1 i)
  match k.kind with
  | 1 =>
    if k.comp then
      let u := (pv 1).fma (.of x) (.of c.2)
      let v := (pv 2).fma (st 0) u
      let t := fadd (st 0).1 v.1
      let e := if t.isInf then Fv.zero else r32 (((st 0).1.add v.1).sub t)
      (([t], e), t, Step.under [(t, v.2)])
    else
      let s := (pv 0).fma (st 0) ((pv 1).mul (.of x))
      (([s.1], c.2), s.1, Step.under [s])
  | 2 =>
    let r := (List.range k.sections).foldl (fun (acc : List Step × Step) j =>
      let b := biquad (pv (5 * j)) (pv (5 * j + 1)) (pv (5 * j + 2)) (pv (5 * j + 3)) (pv (5 * j + 4)) acc.2 (st (2 * j)) (st (2 * j + 1))
      (acc.1 ++ [b.2.1, b.2.2], b.1)) ([], .of x)
    ((r.1.map (·.1), c.2), r.2.1, Step.under (r.2 :: r.1))
  | 3 =>
    let w := if k.disc = 1 then Step.mul (.of a0) (.of x) else .of x
    let r := (List.range k.nstate).foldl (fun (acc : List Step × Step × Nat) n =>
      let f := if k.disc = 1 then discretise (.of a0) (pv (2 * n)) (pv (2 * n + 1)) else (pv (2 * n), pv (2 * n + 1), 0)
      let hr := st (2 * n)
      let hi := st (2 * n + 1)
      let re := w.fma (av (4 * n)) (f.1.fma hr (f.2.1.mul hi).neg)
      let im := w.fma (av (4 * n + 1)) (f.1.fma hi (f.2.1.mul hr))
      (acc.1 ++ [re, im], (av (4 * n + 3)).neg.fma im ((av (4 * n + 2)).fma re acc.2.1), acc.2.2 ||| f.2.2)) ([], .of .zero, 0)
    ((r.1.map (·.1), c.2), r.2.1.1, r.2.2 ||| Step.under (r.2.1 :: r.1))
  | _ =>
    let s := Step.fma (.of a0) (st 0) ((av 0).mul (.of x))
    (([s.1], c.2), s.1, Step.under [s])

/-- Operand values of a chunk by channel and step. -/
structure ChunkIn where
  x : Nat → Nat → Fv
  a0 : Nat → Nat → Fv
  /-- AUX1 by channel (KIND 4) or by index (KIND 3), and step. -/
  a1 : Nat → Nat → Nat → Fv

/-- All steps of one channel. -/
def runCell (k : Stream) (rec_ : List Byte) (i : ChunkIn) (ch steps : Nat) : Cell × List Fv × Nat :=
  let par : Nat → Fv := fun p => f32 (recWord rec_ 128 (p * k.channels + ch))
  let c0 : Cell := ((List.range k.statePlanes).map (fun p => f32 (recWord rec_ k.stateOff (p * k.channels + ch))), if k.comp then f32 (recWord rec_ k.compOff ch) else .zero)
  (List.range steps).foldl (fun (acc : Cell × List Fv × Nat) t =>
    let r := stepCell k par (i.x ch t) (i.a0 ch t) (fun n => i.a1 ch n t) acc.1
    (r.1, acc.2.1 ++ [r.2.1], acc.2.2 ||| r.2.2)) (c0, [], 0)

/-- Summary bits of a value written (R119). -/
def outFlags (x : Fv) : Nat := if x.isNan then fNanOut else if x.isInf then fInfOut else 0

/-- A chunk on a record: the new record, outputs by channel, and summary bits, those of the state it writes among them (R119, R215,
R224). -/
def runChunk (k : Stream) (rec_ : List Byte) (i : ChunkIn) (steps : Nat) : List Byte × List (List Fv) × Nat :=
  let cells := (List.range k.channels).map (fun ch => runCell k rec_ i ch steps)
  let state := ((List.range k.statePlanes).map (fun p => cells.map (fun c => code32 (c.1.1.getD p .zero)))).flatten
  let comp := cells.map (fun c => code32 c.1.2)
  let params := (List.range (k.paramPlanes * k.channels)).map (recWord rec_ 128)
  ({ k with step := (k.step + steps) % 2 ^ 64, version := (k.version + 1) % 2 ^ 64 }.record params state comp, cells.map (fun c => c.2.1),
    orFlags (cells.map (fun c => c.2.2 ||| orFlags (c.1.1.map outFlags) ||| (if k.comp then outFlags c.1.2 else 0))))

/-- Lane operations per step over all channels (R130). -/
def Stream.laneOps (k : Stream) : Nat := k.channels * (match k.kind with
  | 1 => if k.comp then 4 else 2
  | 2 => 5 * k.sections
  | 3 => 8 * k.nstate
  | _ => 2)

/-- Cycles of a chunk (R130, R225). -/
def Stream.cycles (k : Stream) (steps : Nat) : Nat :=
  max (steps * ceilDiv k.laneOps 64) (steps * 4) + 12 +
    (if k.disc = 1 then 3 * ceilDiv (k.channels * k.nstate * steps) 8 + ceilDiv (k.channels * steps) 64 else 0)

/-! ### Streams as objects -/

def State.stream? (s : State) (h : Nat) : Option Stream := s.apps.streams.get? h

def State.setStream (s : State) (h : Nat) (f : Stream → Stream) : State := { s with apps := { s.apps with streams := s.apps.streams.update h f } }

/-- RESULT of pause, resume, end and swap-out (R221). -/
def Stream.result (x : Stream) : Nat := x.residency + 256 * b2n x.paused + 2 ^ 32 * x.nextCseq

/-- An armed job fires chunks on the stream (R230). -/
def State.fed (s : State) (h : Nat) : Bool :=
  s.sched.jobs.any (fun kv => kv.2.packets.any (fun x => decide (x.opcode = 0x504) && decide (Packet.fld x.pkt 16 2 = h)))

/-- A partition in whose name a context without one reads: none of the core stores. -/
def noPartition : Partition :=
  { state := 0, ctx := 0, cls := 3, pair := false, qpMask := 0, regionCeil := 0, t2CeilGib := 0, positions := [], activeFrame := 0, misses := 0, oneShort := false, drained := false,
    release := none, ofDestroy := false, shownCores := 0, quenchStarted := false, quenchEdges := 0, tier2End := none, paused := false }

def State.partOr (s : State) (c : Nat) : Nat × Partition := (s.partOf c).getD (16, noPartition)

/-- A packet of a firing completes with a status: below 100h or from 600h on it stops the firing; otherwise the first that
is not OK stays (R343). -/
def Firing.outcome (f : Firing) (n status : Nat) : Firing :=
  if status = 0 then f
  else if status < 0x100 ∨ 0x600 ≤ status then { f with status := if f.next < n ∨ f.status = 0 ∨ (0x100 ≤ f.status ∧ f.status < 0x600) then status else f.status, next := n }
  else { f with status := if f.status = 0 then status else f.status }

/-- Complete one operation of a stream for whoever sent it. -/
def State.endStreamOp (s : State) (o : StreamOp) (status info result exc : Nat) : State :=
  match o.owner with
  | .flight id => s.finish id status info result
  | .job j => { s with sched := { s.sched with jobs := s.sched.jobs.update j (fun x => { x with firing := x.firing.map (fun f =>
      { f.outcome x.packets.length status with exc := f.exc ||| exc, rflags := if bit info 4 then f.rflags ||| 64 else f.rflags }) }) } }
  | _ => s

/-- Every queued operation that does not run completes with ABORTED, in order (R226, R232, R233). -/
def State.abortQueue (s : State) (h : Nat) : State :=
  match s.stream? h with
  | none => s
  | some x =>
    let out := x.queue.filter (fun o => !o.running)
    out.foldl (fun s o => s.endStreamOp o St.aborted 0 0 0) (s.setStream h (fun x => { x with queue := x.queue.filter (·.running) }))

/-- Numbers given back from the first aborted one on (R226, R233). -/
def State.rewind (s : State) (h cseq : Nat) : State := s.setStream h (fun x => { x with nextCseq := cseq })

/-- A chunk that ends with CORE_FAULT or MEM_UNCORRECTABLE (R226): the writes it has not made, a Y in another store among them,
are partial results; the home copy of HOME 1 and 2 stays. -/
def State.failChunk (s : State) (h status : Nat) : State :=
  match s.stream? h with
  | none => s
  | some x => match x.queue.head? with
    | none => s
    | some o =>
      let s := (s.scramble (s.partialRanges (.stream h))).releaseOwner (.stream h)
      let s := s.setStream h (fun x => { x with queue := x.queue.tail, residency := if x.home = 0 then 3 else x.residency })
      ((s.endStreamOp o status (if o.fault then Inf.stateFault else 0) 0 0).abortQueue h).rewind h o.cseq

/-- Bytes a record's move between its home and its swap area counts (R38). -/
def Stream.recordTraffic (x : Stream) (out : Bool) : Traffic :=
  (traffic 2 x.recordBytes out).add (if x.home = 1 then traffic 1 x.recordBytes (!out) else Traffic.none)

/-- The record moves from the home to the swap area (R227). -/
def State.moveOut (s : State) (h : Nat) (toTier2 : Bool) : State :=
  match s.stream? h with
  | none => s
  | some x =>
    let s := (s.apply (s.recordWr x true (s.ahead.recordRead x false))).moved x.ctx (x.recordTraffic true)
    s.setStream h (fun x => if toTier2 then { x with home := 2, residency := 0 } else { x with residency := 2 })

/-- What waits on a stream with no operation running: a pause, an end, a swap-out (R227, R232, R234). A stream lost meanwhile
is not swapped out. -/
def State.settleStream (s : State) (h : Nat) : State :=
  match s.stream? h with
  | none => s
  | some x =>
    if x.queue.any (·.running) then s
    else
      let s := (s.setStream h (fun x => { x with pauseFlight := none })).finishOpt x.pauseFlight St.ok 0 x.result
      let s := match x.swapOut with
        | none => s
        | some (id, force, t2) =>
          if x.residency = 3 then (s.setStream h (fun x => { x with swapOut := none })).finish id St.busy 0 x.result
          else if x.residency = 2 ∨ x.home = 2 then (s.setStream h (fun x => { x with swapOut := none })).finish id St.ok Inf.zeroWork x.result
          else if force ∨ x.queue.isEmpty ∨ x.paused then
            let s := (s.moveOut h t2).setStream h (fun x => { x with swapOut := none })
            s.finish id St.ok 0 (match s.stream? h with
              | some y => y.result
              | none => 0)
          else s
      match x.ending with
      | none => s
      | some id =>
        if x.drain && !x.queue.isEmpty && !x.paused then s
        else
          let s := s.abortQueue h
          let y := s.stream? h
          let r := match y with
            | some y => y.result
            | none => 0
          let s := s.finishOpt (y.bind (fun y => y.swapOut.map (·.1))) St.aborted 0 r
          State.finish { s with apps := { s.apps with streams := s.apps.streams.erase h } } id St.ok 0 r

/-- The operations from place `i` of the queue on complete without having run: those `p` picks with `status`, the others with
ABORTED, and their numbers are given back (log 40). -/
def State.dropFrom (s : State) (h i status : Nat) (p : StreamOp → Bool) : State :=
  match s.stream? h with
  | none => s
  | some x =>
    let out := x.queue.drop i
    (out.foldl (fun s o => s.endStreamOp o (if p o then status else St.aborted) 0 0 0) (s.setStream h (fun x => { x with
      queue := x.queue.take i, nextCseq := match out.head? with
        | some o => o.cseq
        | none => x.nextCseq }))).settleStream h

/-- The front operation of a stream that is LOST, other than a RE_ANCHOR, completes with CORE_FAULT, with what is queued behind
it (R226, R231; log 40). -/
def State.dropLost (s : State) (h : Nat) : State :=
  match s.stream? h with
  | none => s
  | some x => match x.queue.head? with
    | none => s
    | some o => if o.opcode = 0x507 ∨ x.residency ≠ 3 ∨ o.running then s else s.dropFrom h 0 St.coreFault (fun o => decide (o.opcode ≠ 0x507))

/-- The chunk at the front ends when its core and mover work is over (R224). -/
def State.endChunk (s : State) (h : Nat) : State :=
  match s.stream? h with
  | none => s
  | some x => match x.queue.head? with
    | none => s
    | some o =>
      if !o.running || s.busyFor (.stream h) then s
      else
        let steps := Packet.fld o.pkt 24 2
        let s := (s.apply o.later).unhold (.stream h)
        let s := s.setStream h (fun x => { x with queue := x.queue.tail, step := (x.step + steps) % 2 ^ 64, version := (x.version + 1) % 2 ^ 64 })
        let s := match (match o.owner with
            | .flight _ => s.partOf x.ctx
            | _ => none) with
          | some y => s.accPart y.1 (fun a => { a with completed := a.completed + 1 })
          | none => s
        s.endStreamOp o St.ok ((if o.fault then Inf.stateFault else 0) ||| (if o.ecc then Inf.eccCorrected else 0)) o.result o.exc

/-- What was shed while an operation ran completes when that one has (R222, R437). -/
def State.dropShed (s : State) (h : Nat) : State :=
  match (s.stream? h).bind (fun x => x.queue.head?) with
  | some o => if o.shed && !o.running then s.dropFrom h 0 St.shed (fun o => o.shed) else s
  | none => s

def State.settleStreams (s : State) : State :=
  (Tab.keys s.apps.streams).foldl (fun s h => ((s.endChunk h).dropShed h).settleStream h) s

/-- End a stream as STREAM_END without DRAIN: at once, an operation in flight being let complete first (R232, R233). -/
def State.dropStream (s : State) (h : Nat) : State :=
  let s := s.abortQueue h
  match s.stream? h with
  | none => s
  | some x =>
    let s := ((s.finishOpt x.pauseFlight St.aborted 0 x.result).finishOpt (x.swapOut.map (·.1)) St.aborted 0 x.result).finishOpt x.ending St.ok 0 x.result
    { s with apps := { s.apps with streams := s.apps.streams.erase h } }

/-- PARTITION_RELEASE on the streams it homes (R233): a LOST one goes to its swap area too, and stays LOST. -/
def State.rehome (s : State) (h : Nat) : State :=
  match s.stream? h with
  | none => s
  | some x =>
    let first := (x.queue.find? (fun o => !o.running)).map (·.cseq)
    let s := s.abortQueue h
    let s := match first with
      | some c => s.rewind h c
      | none => s
    if x.residency = 3 then (s.moveOut h true).setStream h (fun x => { x with residency := 3 }) else if x.residency = 2 then s.setStream h (fun x => { x with home := 2, residency := 0 }) else s.moveOut h true

/-! ### STREAM_START and STATE_IMPORT (R219, R220, R236) -/

def streamHeader (kind flags sections nstate channels disc : Nat) : Stream :=
  { ctx := 0, kind := kind, comp := bit flags 0, jobFed := bit flags 1, sections := sections, nstate := nstate, channels := channels, disc := disc, home := 0, part := 0,
    position := 0, homeAddr := 0, swapAddr := 0, version := 0, step := 0, residency := 0, paused := false, ending := none, drain := false, pauseFlight := none,
    swapOut := none, nextCseq := 0, queue := [] }

/-- Header conditions of R220. -/
def Stream.headOk (x : Stream) : Bool :=
  decide (1 ≤ x.kind ∧ x.kind ≤ 4) && decide (1 ≤ x.channels ∧ x.channels ≤ 65536) &&
  (if x.kind = 2 then decide (1 ≤ x.sections ∧ x.sections ≤ 8) else decide (x.sections = 0)) &&
  (if x.kind = 3 then decide (1 ≤ x.nstate ∧ x.nstate ≤ 64) else decide (x.nstate = 0)) &&
  (if x.kind = 3 then decide (x.disc ≤ 1) else decide (x.disc = 0)) && (!x.comp || decide (x.kind = 1)) && decide (x.recordBytes ≤ 262144)

/-- Every a of a compensated filter lies from 0.5 to 1 (R220). -/
def compOk (a : List Nat) : Bool := a.all (fun c => !(f32 c).isNan && (Fv.fin false 1 (-1)).le (f32 c) && (f32 c).le .one)

/-- Home and swap area of a new stream (R220): status when they cannot be used. -/
def State.homeCheck (s : State) (x : Stream) : Option Nat :=
  let n := x.recordBytes
  let meets : Stream → Bool := fun y => decide (y.home = x.home) && (match x.home with
    | 0 => decide (y.part = x.part ∧ y.position = x.position) && rangesMeet x.homeAddr n y.homeAddr y.recordBytes
    | 1 => decide (bits x.homeAddr 63 48 = bits y.homeAddr 63 48) && rangesMeet (bits x.homeAddr 23 0) n (bits y.homeAddr 23 0) y.recordBytes
    | _ => decide (y.ctx = x.ctx) && rangesMeet x.swapAddr n y.swapAddr y.recordBytes)
  firstFail
    [(decide (2 < x.home), St.badParam),
     (match x.home with
      | 0 => decide (x.homeAddr % 4096 ≠ 0 ∨ 2097152 < x.homeAddr + n) || (match s.sched.partitions.get? x.part with
          | some q => decide (q.inService ≤ x.position)
          | none => true)
      | 1 => decide (bits x.homeAddr 23 0 % 4096 ≠ 0 ∨ bits x.homeAddr 47 24 ≠ 0)
      | _ => decide (x.homeAddr ≠ 0), St.badParam)]
  |>.orElse (fun _ => if x.home ≠ 1 then none else match s.regionWrite x.ctx (bits x.homeAddr 63 48) (bits x.homeAddr 23 0) n with
      | .error e => some e
      | .ok r => if bits x.homeAddr 23 0 + n ≤ r.size then none else some St.badParam)
  |>.orElse (fun _ => firstFail
    [(s.apps.streams.any (fun kv => meets kv.2), St.badParam),
     (decide (x.swapAddr % 4096 ≠ 0) || !s.t2Within x.ctx x.swapAddr (roundUp n 4096), St.badParam),
     (x.jobFed && decide (x.home ≠ 0), St.badParam), (x.jobFed && !s.ctlContext x.ctx, St.notPermitted),
     (decide (2048 ≤ s.apps.streams.length), St.noResource)])

/-- Create a stream: its record at its home. -/
def State.addStream (s : State) (x : Stream) (rec_ : List Byte) : Option (State × Nat) :=
  (pickFree s.fresh 2048 s.apps.streams.keys).map (fun h =>
    (State.bump { (s.apply (s.recordWr x false rec_)) with apps := { s.apps with streams := s.apps.streams.set h x } }, h))

/-- A context whose home partition is not yet ACTIVE, or is leaving (R339). -/
def State.homeState (s : State) (x : Stream) : Nat := if x.home ≠ 0 then 1 else match s.sched.partitions.get? x.part with
  | some q => q.state
  | none => 1

def startStream (p : Sys2Proof.Packet) (s : State) : Stream :=
  let c := Packet.ctxNo p
  { streamHeader (Packet.fld p 16 1) (Packet.fld p 17 1) (Packet.fld p 18 1) (Packet.fld p 19 1) (Packet.fld p 20 4) (Packet.fld p 26 1) with
    ctx := c, home := Packet.fld p 24 1, part := (s.partOr c).1, position := Packet.fld p 25 1, homeAddr := Packet.fld p 32 8, swapAddr := Packet.fld p 40 8,
    step := Packet.fld p 48 8 }

def streamStartChecks (_ : Caller) (p : Sys2Proof.Packet) (s : State) : Option Nat :=
  let x := startStream p s
  let par := Packet.desc p 64
  let ini := Packet.desc p 112
  let zeroInit := bit (Packet.fld p 17 1) 2
  let vec : TDesc → Nat → Bool := fun t n => t.wellShaped && decide (t.fmt = 0 ∧ t.layout = 1 ∧ t.rank = 1 ∧ t.d0 = n)
  firstFail
    [(decide (Packet.ctxNo p = 0xFFFF), St.badContext),
     (decide (Packet.len p ≠ 3) || !Packet.rsvZero p 27 32 || !Packet.rsvZero p 56 64 || !Packet.rsvZero p 160 192 || decide (7 < Packet.fld p 17 1), St.badParam),
     (decide (Packet.fld p 24 1 ≠ 0 ∧ Packet.fld p 25 1 ≠ 0), St.badParam), (!x.headOk, St.badParam),
     (if x.kind = 4 then !par.unused else !vec par (x.paramPlanes * x.channels), St.badParam),
     (if zeroInit then !ini.unused else !vec ini (x.statePlanes * x.channels), St.badParam)]
  |>.orElse (fun _ => s.homeCheck x)

/-- Words of an FP32 vector operand as its core reads them; status when it cannot be read. -/
def State.vecWords (s : State) (c core : Nat) (t : TDesc) : Except Nat (List Nat × List (Nat × Nat)) :=
  if t.unused then .ok ([], [])
  else match s.ahead.src c (s.partOr c).1 (s.partOr c).2 1 t with
    | .error e => .error e
    | .ok o => .ok ((List.range t.d0).map (fun i => (t.code 1 (o.read core) i 0 0 0).1), o.holds)

def streamStartEffect (_ : Nat) (_ : Caller) (p : Sys2Proof.Packet) (s : State) : State × Reply :=
  let c := Packet.ctxNo p
  let x := startStream p s
  let core := (s.homeCore x).getD 0
  if s.homeState x = 4 then (s, .park)
  else if s.homeState x ≠ 1 then refuse s St.busy
  else if x.home = 0 ∧ (s.homeCore x).isNone then refuse s St.coreFault
  else if (decide (x.home = 0) && s.coreOut core) || s.windowWaits (Packet.desc p 64) ((Packet.desc p 64).extent 1) || s.windowWaits (Packet.desc p 112) ((Packet.desc p 112).extent 1) then (s, .parkWork)
  else match s.vecWords c core (Packet.desc p 64), s.vecWords c core (Packet.desc p 112) with
    | .error e, _ => refuse s e
    | .ok _, .error e => refuse s e
    | .ok a, .ok b =>
      let n := x.channels
      if x.comp && !compOk (a.1.take n) then refuse s St.badParam
      else match s.poisonOf c [core] [(Packet.desc p 64, 4 * a.1.length), (Packet.desc p 112, 4 * b.1.length)] with
      | some x => refuse (s.reread (some x)) St.memUncorrectable
      | none =>
        let par := if x.kind = 1 then a.1.take (2 * n) ++ (a.1.take n).map (fun w => code32 (fsub (f32 w) .one)) else a.1
        let st := if bit (Packet.fld p 17 1) 2 then List.replicate (x.statePlanes * n) 0 else b.1
        match s.addStream x (x.record par st (List.replicate n 0)) with
        | none => refuse s St.noResource
        | some (t, h) => done0 t (h + 2 ^ 32 * x.recordBytes)

def streamStartBody : Body := checked streamStartChecks streamStartEffect

/-- STREAM_START (R219). -/
def execStreamStart (p : Sys2Proof.Packet) (s : State) : Host.Outcome State Fault Refusal := .next (runPacket 0x500 streamStartBody p s)

def stateImportChecks (_ : Caller) (p : Sys2Proof.Packet) (s : State) : Option Nat :=
  let l := Packet.fld p 16 1
  firstFail
    [(decide (Packet.ctxNo p = 0xFFFF), St.badContext),
     (decide (Packet.len p ≠ 2) || !Packet.rsvZero p 20 24 || !Packet.rsvZero p 48 128 || !decide (l = 2 ∨ l = 4) || !decide (Packet.fld p 17 1 = 0 ∨ Packet.fld p 17 1 = 2) ||
      decide (Packet.fld p 18 1 ≠ 0 ∧ Packet.fld p 19 1 ≠ 0), St.badParam)]
  |>.orElse (fun _ => match s.moveSide (Packet.ctxNo p) 0 l (Packet.fld p 24 8) ⟨1, 240, 240⟩ false with
      | .error e => some e
      | .ok _ => none)

/-- The stream of an opened record. -/
def importStream (p : Sys2Proof.Packet) (s : State) (r : List Byte) : Stream :=
  let c := Packet.ctxNo p
  { streamHeader (fieldAt r 64 1) (fieldAt r 65 1 % 2 + Packet.fld p 17 1) (fieldAt r 66 1) (fieldAt r 67 1) (fieldAt r 68 4) (fieldAt r 104 1) with
    ctx := c, home := Packet.fld p 18 1, part := (s.partOr c).1, position := Packet.fld p 19 1, homeAddr := Packet.fld p 32 8, swapAddr := Packet.fld p 40 8,
    step := fieldAt r 72 8, version := fieldAt r 80 8 }

/-- The header of an opened record passes the checks of R220. -/
def importOk (x : Stream) (r : List Byte) : Bool :=
  x.headOk && decide (fieldAt r 65 1 ≤ 3) && decide (fieldAt r 88 4 = 128 ∧ fieldAt r 92 4 = x.stateOff ∧ fieldAt r 96 4 = x.compOff ∧ fieldAt r 100 4 = x.recordBytes) &&
  decide (r.length = x.recordBytes) && (!x.comp || compOk ((List.range x.channels).map (recWord r 128)))

def stateImportEffect (id : Nat) (_ : Caller) (p : Sys2Proof.Packet) (s : State) : State × Reply :=
  let c := Packet.ctxNo p
  match s.moveSide c 0 (Packet.fld p 16 1) (Packet.fld p 24 8) ⟨1, 240, 240⟩ false with
  | .error e => refuse s e
  | .ok d =>
    if !s.sideReady d then (s, .parkWork)
    else
      let n := leNat (s.sideRead c 0 d 4 4)
      if 262144 < n ∨ d.limit < d.base + 240 + n then refuse s St.badBlob
      else match s.openBlob id c (s.sideRead c 0 d 0 (240 + n)) with
        | none => refuse s St.badBlob
        | some r =>
          let x := importStream p s r
          if !importOk x r then refuse s St.badBlob
          else match s.homeCheck x with
            | some e => refuse s e
            | none =>
              if s.homeState x = 4 then (s, .park)
              else if s.homeState x ≠ 1 then refuse s St.busy
              else if x.home = 0 ∧ (s.homeCore x).isNone then refuse s St.coreFault
              else if decide (x.home = 0) && s.coreOut ((s.homeCore x).getD 0) then (s, .parkWork)
              else match s.addStream x (x.header ++ r.drop 128) with
                | none => refuse s St.noResource
                | some (t, h) => done0 t h

def stateImportBody : Body := checked stateImportChecks stateImportEffect

/-- STATE_IMPORT (R236, R405). -/
def execStateImport (p : Sys2Proof.Packet) (s : State) : Host.Outcome State Fault Refusal := .next (runPacket 0x506 stateImportBody p s)

/-! ### Pause, resume, end, swap-out (R227, R230, R232) -/

/-- The stream a packet names: unknown, of another context, or held by an armed job or an end under way. -/
def State.streamCheck (s : State) (p : Sys2Proof.Packet) (host : Bool) : Option Nat :=
  match s.stream? (Packet.fld p 16 2) with
  | none => some St.notFound
  | some x => firstFail [(decide (x.ctx ≠ Packet.ctxNo p), St.notPermitted), (host && x.jobFed && s.fed (Packet.fld p 16 2), St.notPermitted),
      (x.ending.isSome, St.busy)]

def streamOpChecks (from_ flagMax : Nat) (fed : Bool) (_ : Caller) (p : Sys2Proof.Packet) (s : State) : Option Nat :=
  firstFail [(!shortOk p from_ || decide (from_ = 19 ∧ flagMax < Packet.fld p 18 1), St.badParam)] |>.orElse (fun _ => s.streamCheck p fed)

/-- RESULT of a refused packet: every completion reports an existing stream of the caller's context (R221). -/
def State.streamReport (s : State) (p : Sys2Proof.Packet) : Nat := match s.stream? (Packet.fld p 16 2) with
  | some x => if x.ctx = Packet.ctxNo p then x.result else 0
  | none => 0

def streamBody (checks : Caller → Sys2Proof.Packet → State → Option Nat) (effect : Nat → Caller → Sys2Proof.Packet → State → State × Reply) : Body :=
  fun id c p s => match checks c p s with
  | some st => (s, .done st 0 (s.streamReport p))
  | none => effect id c p s

def streamPauseEffect (id : Nat) (_ : Caller) (p : Sys2Proof.Packet) (s : State) : State × Reply :=
  let h := Packet.fld p 16 2
  match s.stream? h with
  | none => refuse s St.notFound
  | some x =>
    if x.paused then (s, .done St.ok Inf.zeroWork x.result)
    else
      let s := (s.setFlight id (fun f => { f with running := true, parked := false })).setStream h (fun x => { x with paused := true, pauseFlight := some id })
      (s.settleStream h, .later)

def streamPauseBody : Body := streamBody (streamOpChecks 18 0 true) streamPauseEffect

/-- STREAM_PAUSE (R232). -/
def execStreamPause (p : Sys2Proof.Packet) (s : State) : Host.Outcome State Fault Refusal := .next (runPacket 0x501 streamPauseBody p s)

def streamResumeEffect (_ : Nat) (_ : Caller) (p : Sys2Proof.Packet) (s : State) : State × Reply :=
  let h := Packet.fld p 16 2
  match s.stream? h with
  | none => refuse s St.notFound
  | some x =>
    if !x.paused then (s, .done St.ok Inf.zeroWork x.result)
    else (s.setStream h (fun x => { x with paused := false }), .done St.ok 0 ({ x with paused := false }).result)

def streamResumeBody : Body := streamBody (streamOpChecks 18 0 false) streamResumeEffect

/-- STREAM_RESUME (R232). -/
def execStreamResume (p : Sys2Proof.Packet) (s : State) : Host.Outcome State Fault Refusal := .next (runPacket 0x502 streamResumeBody p s)

def streamEndEffect (id : Nat) (_ : Caller) (p : Sys2Proof.Packet) (s : State) : State × Reply :=
  let h := Packet.fld p 16 2
  let drain := bit (Packet.fld p 18 1) 0
  match s.stream? h with
  | none => refuse s St.notFound
  | some x =>
    let s := (s.setFlight id (fun f => { f with running := true, parked := false })).setStream h (fun y => { y with ending := some id, drain := drain && !x.paused })
    (s.settleStream h, .later)

def streamEndBody : Body := streamBody (streamOpChecks 19 1 true) streamEndEffect

/-- STREAM_END (R232). -/
def execStreamEnd (p : Sys2Proof.Packet) (s : State) : Host.Outcome State Fault Refusal := .next (runPacket 0x503 streamEndBody p s)

def swapOutEffect (id : Nat) (_ : Caller) (p : Sys2Proof.Packet) (s : State) : State × Reply :=
  let h := Packet.fld p 16 2
  let fl := Packet.fld p 18 1
  match s.stream? h with
  | none => refuse s St.notFound
  | some x =>
    if x.residency = 3 ∨ x.swapOut.isSome then (s, .done St.busy 0 x.result)
    else if x.residency = 2 ∨ x.home = 2 then (s, .done St.ok Inf.zeroWork x.result)
    else
      let s := (s.setFlight id (fun f => { f with running := true, parked := false })).setStream h (fun x => { x with swapOut := some (id, bit fl 0, bit fl 1) })
      (s.settleStream h, .later)

def stateSwapOutBody : Body := streamBody (streamOpChecks 19 3 true) swapOutEffect

/-- STATE_SWAP_OUT (R227). -/
def execStateSwapOut (p : Sys2Proof.Packet) (s : State) : Host.Outcome State Fault Refusal := .next (runPacket 0x508 stateSwapOutBody p s)

/-! ### Numbered operations (R222, R223, R235, R237) -/

/-- Accept a numbered operation into the queue, or answer why not (R222, R226, R230, R232). DESIGN CHOICE: the queue of a
stream that an armed job feeds is full once it holds a RE_ANCHOR (R231; log 101). -/
def State.acceptOp (s : State) (id h : Nat) (x : Stream) (code : Nat) (p : Sys2Proof.Packet) : State × Reply :=
  let cseq := Packet.fld p 20 4
  if x.residency = 3 ∧ code ≠ 0x507 then refuse s St.coreFault
  else if cseq ≠ x.nextCseq then refuse s St.badChunkSeq
  else if 64 ≤ x.queue.length ∨ (s.fed h ∧ x.queue.any (fun o => decide (o.opcode = 0x507)) = true) then (s, .park)
  else (s.setStream h (fun x => { x with nextCseq := (x.nextCseq + 1) % 2 ^ 32, queue := x.queue ++ [⟨.flight id, code, cseq, p, false, false, false, [], 0, 0, false⟩] }), .later)

/-- Ranges of two operands meet. -/
def TDesc.meets (a : TDesc) (n : Nat) (b : TDesc) (m : Nat) : Bool :=
  !a.unused && !b.unused && decide (a.loc = b.loc) && (decide (a.loc = 0 ∨ a.loc = 2) || decide (a.handle = b.handle)) && rangesMeet a.off n b.off m

/-- The record as an operand: at its home, and at WORK_OFF while a chunk of HOME 1 or 2 runs. -/
def Stream.places (x : Stream) (p : Sys2Proof.Packet) : List TDesc :=
  let d : Nat → Nat → TDesc := fun loc a => ⟨a, 0, loc, 1, 1, 1, 1, 1, 1, 0, 0, 0, 0, 0⟩
  if x.home = 0 then [d 0 x.homeAddr] else if x.home = 1 then [d 1 x.homeAddr, d 0 (Packet.fld p 28 4)] else [d 2 x.swapAddr, d 0 (Packet.fld p 28 4)]

/-- Shape, format and overlap rules of a CHUNK (R223). A tiled source takes here the least bytes it can have; its own tiles, whose
headers say how many it has, are compared with Y when its turn comes. -/
def chunkOk (x : Stream) (p : Sys2Proof.Packet) (cores : Nat) : Bool :=
  let d : Nat → TDesc := fun i => Packet.desc p (32 + 48 * i)
  let steps := Packet.fld p 24 2
  let like : TDesc → Nat → Bool := fun t n => t.wellShaped && scanTakes t.fmt && decide (t.d0 = n ∧ t.d1 = steps ∧ t.d2 = 1 ∧ t.d3 = 1)
  let ext : TDesc → Nat := fun t => min (t.extent 1) (t.extent 3)
  decide (Packet.len p = 4) && Packet.rsvZero p 224 256 && decide (Packet.fld p 27 1 = 0) && decide (steps ≤ 4096) &&
  (if x.home = 0 then decide (Packet.fld p 26 1 = 0 ∧ Packet.fld p 28 4 = 0)
   else decide (Packet.fld p 26 1 < cores) && decide (Packet.fld p 28 4 % 4096 = 0 ∧ Packet.fld p 28 4 + x.recordBytes ≤ 2097152)) &&
  like (d 0) x.channels && like (d 1) x.channels && decide ((d 1).loc ≤ 2) &&
  (if (x.kind = 3 ∧ x.disc = 1) ∨ x.kind = 4 then like (d 2) x.channels else (d 2).unused) &&
  (if x.kind = 3 then like (d 3) (4 * x.nstate) else if x.kind = 4 then like (d 3) x.channels else (d 3).unused) &&
  !([d 0, d 2, d 3].any (fun t => (d 1).meets ((d 1).extent (tileKindOf (d 1).fmt)) t (ext t))) &&
  !((x.places p).any (fun t => (d 1).meets ((d 1).extent (tileKindOf (d 1).fmt)) t x.recordBytes))

/-- Operands that cannot be resolved: status (R141, R146). -/
def State.chunkRefs (s : State) (c : Nat) (p : Sys2Proof.Packet) : Option Nat :=
  let q := s.partOr c
  ([32, 128, 176].findSome? (fun o => if (Packet.desc p o).unused then none else match s.src c q.1 q.2 1 (Packet.desc p o) with
    | .error e => some e
    | .ok _ => none)).orElse (fun _ => s.destOk c q.1 q.2 (Packet.desc p 80) ((Packet.desc p 80).extent (tileKindOf (Packet.desc p 80).fmt)))

/-- The checks of a host CHUNK. DEDUCED: a JOB_FED stream is advanced by fired chunks only, so a host CHUNK on it is refused
as R230 states for the time a job is armed (log 101). -/
def chunkChecks (_ : Caller) (p : Sys2Proof.Packet) (s : State) : Option Nat :=
  firstFail [(decide (Packet.fld p 18 2 ≠ 0), St.badParam)]
  |>.orElse (fun _ => s.streamCheck p true)
  |>.orElse (fun _ => match s.stream? (Packet.fld p 16 2) with
    | none => some St.notFound
    | some x => if x.jobFed then some St.notPermitted else if chunkOk x p (s.partOr x.ctx).2.inService then s.chunkRefs x.ctx p else some St.badParam)

def chunkEffect (id : Nat) (_ : Caller) (p : Sys2Proof.Packet) (s : State) : State × Reply :=
  match s.stream? (Packet.fld p 16 2) with
  | none => refuse s St.notFound
  | some x => s.acceptOp id (Packet.fld p 16 2) x 0x504 p

def chunkBody : Body := checked chunkChecks chunkEffect

/-- CHUNK (R223). -/
def execChunk (p : Sys2Proof.Packet) (s : State) : Host.Outcome State Fault Refusal := .next (runPacket 0x504 chunkBody p s)

def stateExportChecks (_ : Caller) (p : Sys2Proof.Packet) (s : State) : Option Nat :=
  firstFail [(!shortOk p 40 || decide (Packet.fld p 18 2 ≠ 0) || !Packet.rsvZero p 25 32 || !decide (Packet.fld p 24 1 = 2 ∨ Packet.fld p 24 1 = 4) ||
    decide (Packet.fld p 32 8 % 64 ≠ 0), St.badParam)]
  |>.orElse (fun _ => s.streamCheck p true)

def stateExportEffect (id : Nat) (_ : Caller) (p : Sys2Proof.Packet) (s : State) : State × Reply :=
  match s.stream? (Packet.fld p 16 2) with
  | none => refuse s St.notFound
  | some x => s.acceptOp id (Packet.fld p 16 2) x 0x505 p

def stateExportBody : Body := checked stateExportChecks stateExportEffect

/-- STATE_EXPORT (R235). -/
def execStateExport (p : Sys2Proof.Packet) (s : State) : Host.Outcome State Fault Refusal := .next (runPacket 0x505 stateExportBody p s)

def reAnchorChecks (_ : Caller) (p : Sys2Proof.Packet) (s : State) : Option Nat :=
  let h := Packet.fld p 16 2
  firstFail [(decide (Packet.len p ≠ 2) || decide (Packet.fld p 18 2 ≠ 0) || !Packet.rsvZero p 80 128, St.badParam)]
  |>.orElse (fun _ => s.streamCheck p false)
  |>.orElse (fun _ => match s.stream? h with
    | none => some St.notFound
    | some x =>
      let t := Packet.desc p 32
      if !(t.wellShaped && decide (t.fmt = 0 ∧ t.layout = 1 ∧ t.rank = 1 ∧ t.d0 = x.statePlanes * x.channels)) then some St.badParam
      else if s.fed h ∧ x.residency ≠ 3 then some St.notPermitted
      else match s.src x.ctx (s.partOr x.ctx).1 (s.partOr x.ctx).2 1 t with
        | .error e => some e
        | .ok _ => none)

def reAnchorEffect (id : Nat) (_ : Caller) (p : Sys2Proof.Packet) (s : State) : State × Reply :=
  match s.stream? (Packet.fld p 16 2) with
  | none => refuse s St.notFound
  | some x => s.acceptOp id (Packet.fld p 16 2) x 0x507 p

def reAnchorBody : Body := checked reAnchorChecks reAnchorEffect

/-- RE_ANCHOR (R237). -/
def execReAnchor (p : Sys2Proof.Packet) (s : State) : Host.Outcome State Fault Refusal := .next (runPacket 0x507 reAnchorBody p s)

/-! ### The turn of an operation (R222, R224, R229) -/

/-- Take the front operation off a queue with an outcome. -/
def State.popOp (s : State) (h : Nat) (o : StreamOp) (status info result : Nat) : State :=
  (s.setStream h (fun x => { x with queue := x.queue.tail })).endStreamOp o status info result 0

/-- The core a chunk runs on. -/
def State.chunkCore (s : State) (x : Stream) (p : Sys2Proof.Packet) : Option Nat :=
  if x.home = 0 then s.homeCore x else (s.partOf x.ctx).bind (fun q => q.2.coreAt (Packet.fld p 26 1))

/-- What a chunk takes in: operand values, the buffers it holds, summary bits, and the operands with their bytes. -/
structure ChunkSrc where
  ins : ChunkIn
  holds : List (Nat × Nat)
  flags : Nat
  exts : List (TDesc × Nat)

/-- The operands of a chunk as a core reads them. -/
def State.chunkIn (s : State) (x : Stream) (p : Sys2Proof.Packet) (core : Nat) : Option ChunkSrc :=
  let q := s.partOr x.ctx
  let get : Nat → Option (Option Operand) := fun o =>
    let t := Packet.desc p o
    if t.unused then some none else match s.src x.ctx q.1 q.2 1 t with
      | .ok a => if s.srcFits x.ctx q.1 q.2 [1, 3] a [core] then some (some a) else none
      | .error _ => none
  match get 32, get 128, get 176 with
  | some a, some b, some c =>
    let val : Option Operand → Nat → Nat → Fv := fun o i t => match o with
      | some z => z.at_ Arith.rne 1 core i t 0 0
      | none => .zero
    let used := [a, b, c].filterMap id
    some { ins := ⟨val a, val b, fun ch n t => val c (if x.kind = 4 then ch else n) t⟩, holds := (used.map (·.holds)).flatten,
           flags := orFlags (used.map (fun z => flagsIn (z.values 1 core))), exts := used.map (fun z => (z.desc, z.need 1 [core])) }
  | _, _, _ => none

/-- What a chunk computes: its record and outputs, and Y by rows. DESIGN CHOICE: a CHUNK carries no ARITH byte, and a result of Y's
format beyond range becomes an infinity, as with SAT 0 (R114; log 110). -/
def State.chunkOut (s : State) (x : Stream) (o : StreamOp) (i : ChunkSrc) : (List Byte × List (List Fv) × Nat) × List (Nat × List Byte) × Nat :=
  let r := runChunk x (s.ahead.recordRead x false) i.ins (Packet.fld o.pkt 24 2)
  (r, (Packet.desc o.pkt 80).rowsOut Arith.rne (fun c t _ _ => (r.2.1.getD c []).getD t .zero) (fun _ => true))

/-- The writes of Y. -/
def State.chunkY (s : State) (x : Stream) (o : StreamOp) (core : Nat) (i : ChunkSrc) : List Wr :=
  ((s.chunkOut x o i).2.1.map (fun w => s.destWr x.ctx core (Packet.desc o.pkt 80) w.1 w.2)).flatten

/-- Y meets a source by the tiles that the source has (R223). -/
def chunkMeets (p : Sys2Proof.Packet) (exts : List (TDesc × Nat)) : Bool :=
  let y := Packet.desc p 80
  exts.any (fun t => y.meets (y.extent (tileKindOf y.fmt)) t.1 t.2)

/-- Run the chunk at the front: its effects on the core, what its end makes visible, its slot and descriptors (R224). The
record of HOME 1 and 2 comes to WORK_OFF and goes back, which shows at the end. -/
def State.startChunk (s : State) (h : Nat) (x : Stream) (o : StreamOp) (core part : Nat) (i : ChunkSrc) : State :=
  let p := o.pkt
  let steps := Packet.fld p 24 2
  let y := Packet.desc p 80
  let all := s.chunkOut x o i
  let r := all.1
  let out := all.2
  let yw := s.chunkY x o core i
  let yn := (out.1.map (fun w => w.2.length)).foldl (· + ·) 0
  let exc := i.flags ||| r.2.2 ||| out.2
  let own : Owner := .stream h
  let away := decide (x.home ≠ 0)
  let homeW := s.recordWr x false r.1
  let remote := i.exts.filter (fun t => decide (t.1.loc ≠ 0))
  let at_ := if away then Packet.fld p 28 4 else x.homeAddr
  let ranges := ((i.exts.filter (fun t => decide (t.1.loc = 0))).map (fun t => (t.1.off, t.1.off + t.2, false))) ++ [(at_, at_ + x.recordBytes, true)] ++
    (if y.loc = 0 then [(y.off, y.off + y.extent (tileKindOf y.fmt), true)] else [])
  let loc := if x.home = 1 then 1 else 2
  let record : Nat → List (Nat × Desc) := fun op => if away then
    (descs own op (rlocOf loc) (if x.home = 1 then x.homeAddr else x.swapAddr) x.recordBytes).map (fun d => (core, { d with local_ := at_ })) else []
  let w : Work :=
    { status := 0, info := 0, result := 0, exc := exc,
      core := (if y.loc = 0 then yw else []) ++ (if away then [⟨.core, coreKey core at_, r.1⟩] else homeW), later := if y.loc = 0 then [] else yw, host := [],
      slots := [(core, opSlot own .vector ((((i.exts.map (·.1)) ++ [y]).map TDesc.walkers).flatten) (x.cycles steps) ranges part)],
      descs := ((remote.map (fun t => s.readDescs own t.1 t.2 1 0)).flatten ++ putDescs own y yn).map (fun e => (core, e)),
      holds := i.holds, traffic := (remote.map (fun t => traffic (s.pathLoc t.1) t.2 false)).foldl Traffic.add
        ((traffic y.loc yn true).add (if away then (traffic loc x.recordBytes false).add (traffic loc x.recordBytes true) else Traffic.none)) }
  let run : Work → Work := fun w =>
    let d := w.dealt
    { d with descs := record 1 ++ d.descs ++ record 2 }
  let s := match o.owner with
    | .flight _ => s.begin_ own part (run w)
    | .job j => s.beginWork own part (run (match s.sched.jobs.get? j, s.sched.partitions.get? part with
      | some y, some q => if y.pair then w.mirror q else w
      | _, _ => w))
    | _ => s.beginWork own part (run w)
  s.setStream h (fun x => { x with queue := match x.queue with
    | [] => []
    | f :: rest => { f with running := true, later := if away then homeW else [], result := exc % 65536 + 2 ^ 32 * ((x.version + 1) % 2 ^ 32), exc := exc } :: rest })

/-- INFO of an operation that took a state fault (R229). -/
def StreamOp.info (o : StreamOp) : Nat := if o.fault then Inf.stateFault else 0

/-- The turn of a CHUNK on a resident record. -/
def State.turnChunk (s : State) (h : Nat) (x : Stream) (o : StreamOp) : State :=
  let p := o.pkt
  if Packet.fld p 24 2 = 0 then s.popOp h o St.ok (Inf.zeroWork ||| o.info) (2 ^ 32 * (x.version % 2 ^ 32))
  else match s.chunkRefs x.ctx p, s.partOf x.ctx, s.chunkCore x p with
    | some e, _, _ => s.popOp h o e o.info 0
    | none, none, _ => s.popOp h o St.badParam o.info 0
    | none, some _, none => s.failChunk h St.coreFault
    | none, some q, some core =>
      let used := ([32, 128, 176].map (Packet.desc p)).filter (fun t => !t.unused)
      if q.2.state ≠ 1 ∨ s.coreHeld q.2.cls core then s
      else if used.any (fun t => s.windowStopped t (s.windowSpan t)) then s.popOp h o St.aborted o.info 0
      else if used.any (fun t => s.windowWaits t (s.windowSpan t)) then s
      else match s.ahead.chunkIn x p core with
        | none => s.popOp h o St.badParam o.info 0
        | some i =>
          if chunkMeets p i.exts then s.popOp h o St.badParam o.info 0
          else if !x.agrees (s.ahead.recordRead x false) then
            (s.failChunk h St.memUncorrectable).setStream h (fun x => { x with residency := 3 })
          else match (s.recordPoison x false).orElse (fun _ => s.poisonOf x.ctx [core] i.exts) with
          | some y => ((s.scramble (s.chunkY x o core i)).reread (some y)).failChunk h St.memUncorrectable
          | none => s.startChunk h x o core q.1 i

/-- A RE_ANCHOR waits while the core that holds the home awaits its spare, its self-test or its CCC (R450, R451). -/
def State.anchorWaits (s : State) (x : Stream) : Bool :=
  decide (x.home = 0) && (match s.homeCore x, s.sched.partitions.get? x.part with
    | some c, some q => decide (q.state ≠ 1) || s.coreHeld q.cls c
    | _, _ => false)

/-- The turn of a RE_ANCHOR (R237). -/
def State.turnAnchor (s : State) (h : Nat) (x : Stream) (o : StreamOp) : State :=
  let p := o.pkt
  let t := Packet.desc p 32
  let core := (s.homeCore x).getD 0
  if x.residency ≠ 3 ∧ Packet.fld p 24 8 ≠ x.step then s.popOp h o St.badParam o.info 0
  else if x.home = 0 ∧ (s.homeCore x).isNone then s.popOp h o St.coreFault o.info 0
  else if s.windowStopped t (t.extent 1) then s.popOp h o St.aborted o.info 0
  else if s.anchorWaits x || s.windowWaits t (t.extent 1) then s
  else match s.vecWords x.ctx core t with
    | .error e => s.popOp h o e o.info 0
    | .ok st =>
      match s.poisonHit x.ctx core t (4 * st.1.length) with
      | some y => (s.reread (some y)).popOp h o St.memUncorrectable o.info 0
      | none =>
        let y := { x with step := Packet.fld p 24 8, version := (x.version + 1) % 2 ^ 64 }
        let old := s.ahead.recordRead x false
        -- a LOST record's parameters stay those of the stream; its home may have been written over
        let par := (List.range (x.paramPlanes * x.channels)).map (recWord old 128)
        let s := s.apply (s.recordWr x false (y.record par st.1 (List.replicate x.channels 0)))
        let s := s.setStream h (fun x => { x with step := Packet.fld p 24 8, version := (x.version + 1) % 2 ^ 64, residency := 0 })
        s.popOp h o St.ok o.info 0

/-- The turn of a STATE_EXPORT (R235): it waits while tier 3 cannot be written. -/
def State.turnExport (s : State) (h : Nat) (x : Stream) (o : StreamOp) : State :=
  let p := o.pkt
  let rec_ := s.ahead.recordRead x (decide (x.residency = 2))
  match s.moveSide x.ctx 0 (Packet.fld p 24 1) (Packet.fld p 32 8) ⟨1, 240 + x.recordBytes, 240 + x.recordBytes⟩ true with
  | .error _ => s.popOp h o St.badParam 0 0
  | .ok d =>
    if !s.sideReady d || s.procDown 0 then s
    else match s.recordPoison x (decide (x.residency = 2)) with
    | some y => (s.reread (some y)).popOp h o St.memUncorrectable 0 0
    | none =>
      let blob := sealBlob s.exportRoot (freeBytes s.fresh 12) x.ctx x.step x.version rec_
      let w := s.sideWrite x.ctx 0 d 0 blob
      (((s.apply w.1).apply (w.2.map (fun y => ⟨.host, y.1, y.2⟩))).moved x.ctx (traffic d.loc (240 + x.recordBytes) true)).bump.popOp h o St.ok 0 (240 + x.recordBytes)

/-- A state fault of the operation at the front, which its completion reports: the record comes back from the swap area (R229). -/
def State.stateFault (s : State) (h : Nat) (x : Stream) : State × Bool :=
  let s := s.setStream h (fun x => { x with queue := match x.queue with
    | [] => []
    | f :: rest => { f with fault := true } :: rest })
  let r := s.recordRead x true
  if x.agrees r && (s.recordPoison x true).isNone then (((s.apply (s.recordWr x false r)).moved x.ctx (x.recordTraffic false)).setStream h (fun x => { x with residency := 0 }), true)
  else (s.reread (s.recordPoison x true), false)

def State.streamTurn (s : State) (h : Nat) : State :=
  match s.stream? h with
  | none => s
  | some x => match x.queue.head? with
    | none => s
    | some o =>
      let forced := match x.swapOut with
        | some (_, f, _) => f
        | none => false
      if o.running || x.paused || forced then s
      else if x.residency = 3 then (if o.opcode = 0x507 then s.turnAnchor h x o else s.dropLost h)
      else if o.opcode = 0x505 then s.turnExport h x o
      else if x.residency = 2 then
        if x.home = 0 ∧ (s.homeCore x).isNone then s
        else
          let r := s.stateFault h x
          if !r.2 then
            (if o.opcode = 0x504 then (r.1.failChunk h St.memUncorrectable).setStream h (fun x => { x with residency := 3 })
             else ((r.1.popOp h o St.memUncorrectable Inf.stateFault 0).setStream h (fun x => { x with residency := 3 })).dropLost h)
          else if o.opcode = 0x504 then r.1.turnChunk h { x with residency := 0 } { o with fault := true }
          else r.1.turnAnchor h { x with residency := 0 } { o with fault := true }
      else if o.opcode = 0x504 then s.turnChunk h x o else s.turnAnchor h x o

end Sys2Proof.Machine
end

