-- ==== Sys2Proof/Machine/Vision.lean ====
section
/-! DEFINITION. CONV, POOL and CROP_RESIZE (R240 to R258). -/

namespace Sys2Proof.Machine

/-! ### The window (R241 to R243) -/

/-- The window block of R241. -/
structure WinBlock where
  kh : Nat
  kw : Nat
  sy : Nat
  sx : Nat
  dy : Nat
  dx : Nat
  pad : Nat
  wflags : Nat
  top : Nat
  bottom : Nat
  left : Nat
  right : Nat
  stripe : Nat
  scratch : Nat
  scratchBytes : Nat
deriving DecidableEq, Repr

def Packet.winBlock (p : Sys2Proof.Packet) : WinBlock :=
  let f := fun (o n : Nat) => Packet.fld p o n
  ⟨f 32 1, f 33 1, f 34 1, f 35 1, f 36 1, f 37 1, f 38 1, f 39 1, f 40 1, f 41 1, f 42 1, f 43 1, f 44 2, f 48 4, f 52 4⟩

/-- Kernel extents and output size (R242). -/
def WinBlock.ey (b : WinBlock) : Nat := (b.kh - 1) * b.dy + 1
def WinBlock.ex (b : WinBlock) : Nat := (b.kw - 1) * b.dx + 1
def WinBlock.oh (b : WinBlock) (h : Nat) : Nat := (h + b.top + b.bottom - b.ey) / b.sy + 1
def WinBlock.ow (b : WinBlock) (w : Nat) : Nat := (w + b.left + b.right - b.ex) / b.sx + 1

/-- Where a tap reads along one axis: a position, or the zero padding (R242, R243). -/
def padTap (mode n : Nat) (x : Int) : Option Nat :=
  if 0 ≤ x ∧ x < (n : Int) then some x.toNat
  else match mode with
    | 2 => some (if x < 0 then 0 else n - 1)
    | 3 => some (if x < 0 then (-x).toNat else (2 * ((n : Int) - 1) - x).toNat)
    | _ => none

def WinBlock.tapY (b : WinBlock) (h oy ky : Nat) : Option Nat := padTap b.pad h ((oy * b.sy + ky * b.dy : Nat) - (b.top : Int))
def WinBlock.tapX (b : WinBlock) (w ox kx : Nat) : Option Nat := padTap b.pad w ((ox * b.sx + kx * b.dx : Nat) - (b.left : Int))

/-- The pixel a tap reads; none in the zero padding. -/
def WinBlock.tap (b : WinBlock) (x : TDesc) (oy ox ky kx : Nat) : Option (Nat × Nat) :=
  match b.tapY x.d2 oy ky, b.tapX x.d1 ox kx with
  | some r, some c => some (r, c)
  | _, _ => none

/-- Fields of the window block (R241, R257). `flags` are the WFLAGS bits the opcode and FUNC allow. -/
def WinBlock.ok (b : WinBlock) (p : Sys2Proof.Packet) (flags : Nat) : Bool :=
  decide (1 ≤ b.kh ∧ b.kh ≤ 16 ∧ 1 ≤ b.kw ∧ b.kw ≤ 16) && decide (1 ≤ b.sy ∧ b.sy ≤ 32 ∧ 1 ≤ b.sx ∧ b.sx ≤ 32) &&
  decide (1 ≤ b.dy ∧ b.dy ≤ 64 ∧ 1 ≤ b.dx ∧ b.dx ≤ 64) && decide (b.pad ≤ 3) && decide (b.wflags &&& flags = b.wflags) &&
  (decide (b.pad ≠ 0) || decide (b.top = 0 ∧ b.bottom = 0 ∧ b.left = 0 ∧ b.right = 0)) &&
  decide (b.scratch % 4096 = 0 ∧ b.scratchBytes % 4096 = 0 ∧ b.scratch + b.scratchBytes ≤ 2097152) &&
  Packet.rsvZero p 46 48 && Packet.rsvZero p 56 64

/-- An image operand: linear, RANK 4, at most 16,384 rows and columns (R240, R257). -/
def TDesc.isImage (t : TDesc) : Bool := t.wellShaped && decide (t.layout = 1 ∧ t.rank = 4 ∧ t.d1 ≤ 16384 ∧ t.d2 ≤ 16384)

/-- The window fits an axis of `n` pixels and gives `m` there (R242, R243, R257). An axis of X or Y that is zero makes an empty
tensor, which is checked no further along it (R82). -/
def axisFits (pad extent stride before after n m : Nat) : Bool :=
  decide (n = 0) || (decide (extent ≤ n + before + after) && (decide (pad ≠ 3) || decide (before < n ∧ after < n)) &&
    decide (m = 0 ∨ m = (n + before + after - extent) / stride + 1))

/-- The window fits the image and Y has the shape of R242 (R257). -/
def WinBlock.fits (b : WinBlock) (x y : TDesc) : Bool :=
  axisFits b.pad b.ey b.sy b.top b.bottom x.d2 y.d2 && axisFits b.pad b.ex b.sx b.left b.right x.d1 y.d1 && decide (x.d3 = 0 ∨ y.d3 = 0 ∨ y.d3 = x.d3)

/-- Channels of an input and an output agree, or one of the tensors has none (R82). -/
def sameChannels (x y : TDesc) : Bool := decide (x.d0 = 0 ∨ y.d0 = 0 ∨ y.d0 = x.d0)

/-! ### Stripes (R249 to R251) -/

/-- Element and scale bytes of one row of an image (R250). -/
def TDesc.imageRow (t : TDesc) : Nat := ceilDiv (t.d1 * t.d0 * elemBits t.fmt) 8 + (if isMx t.fmt then t.d1 * ceilDiv t.d0 32 else 0)

/-- Scratch that a stripe of `n` rows takes (R250). -/
def WinBlock.scratchFor (b : WinBlock) (x y : TDesc) (n : Nat) : Nat :=
  (if x.loc ≠ 0 then 2 * ((n - 1) * b.sy + b.ey) * x.imageRow else 0) + (if y.loc ≠ 0 then 2 * n * y.imageRow else 0)

/-- Rows of a stripe; none when no stripe fits (R250). -/
def WinBlock.rows (b : WinBlock) (x y : TDesc) : Option Nat :=
  if x.loc = 0 ∧ y.loc = 0 then some y.d2
  else if b.stripe ≠ 0 then (if b.scratchFor x y b.stripe ≤ b.scratchBytes then some b.stripe else none)
  else ((List.range (max 1 y.d2)).map (fun i => max 1 y.d2 - i)).find? (fun n => decide (b.scratchFor x y n ≤ b.scratchBytes))

/-- Stripes of a position, in order: image, first output row and rows; stripe u goes to position u mod n (R249). -/
def stripesAt (y : TDesc) (rows n j : Nat) : List (Nat × Nat × Nat) :=
  let per := ceilDiv y.d2 (max 1 rows)
  ((List.range (y.d3 * per)).filter (fun u => decide (u % n = j))).map (fun u => (u / per, u % per * rows, min rows (y.d2 - u % per * rows)))

/-- The rows of the stripes of a position. -/
def stripesOf (y : TDesc) (rows n j : Nat) : List Nat := (stripesAt y rows n j).map (fun u => u.2.2)

/-- The stripe of an output row of pixels (R249). -/
def stripeOf (y : TDesc) (rows i2 i3 : Nat) : Nat := i3 * ceilDiv y.d2 (max 1 rows) + i2 / max 1 rows

/-- The scratch range and Y keep clear of what R251 names; W and BIAS come with their bytes. -/
def WinBlock.clear (b : WinBlock) (x y : TDesc) (others : List (TDesc × Nat)) : Bool :=
  let sc : TDesc := ⟨b.scratch, 0, 0, 1, 1, b.scratchBytes / 4, 1, 1, 1, 0, 0, 0, 0, 0⟩
  (decide (b.scratchBytes = 0) || ((x, x.extent 1) :: (y, y.extent 1) :: others).all (fun t => t.1.isEmpty || !sc.meets b.scratchBytes t.1 t.2)) &&
  (x.isEmpty || y.isEmpty || !x.meets (x.extent 1) y (y.extent 1))

/-- The walker of the taps of an image whose pixels take `px` bytes, at `origin` with the given pitches of columns and rows: the
channels of a pixel, then the taps of a window, then the windows (R132, R243, R245; log 97). -/
def WinBlock.walker (b : WinBlock) (t : TDesc) (origin px pitchX pitchY ow rows : Nat) : Walker :=
  { base := toBits 64 ((origin : Int) - b.top * pitchY - b.left * pitchX), y0 := -(b.top : Int), x0 := -(b.left : Int), ylim := t.d2, xlim := t.d1,
    run := runOf px - 1, pad := b.pad,
    dims := [.along (px / runOf px) (runOf px), ⟨b.kw, 0, b.dx, b.dx * pitchX⟩, ⟨b.kh, b.dy, 0, b.dy * pitchY⟩, ⟨ow, 0, b.sx, b.sx * pitchX⟩,
      ⟨rows, b.sy, 0, b.sy * pitchY⟩] }

/-- The walkers of a window operation: one for the elements of X and one for its scales, and the same for Y (R245, R247). X is
read where it lies, or in the scratch range (R250). -/
def WinBlock.walkers (b : WinBlock) (x y : TDesc) (rows : Nat) : List Walker :=
  let px := rowBytes x.fmt x.d0
  let sc := ceilDiv x.d0 32
  let origin := if x.loc = 0 then x.addr else b.scratch
  let pitch := if x.loc = 0 then (x.s1, x.s2) else (px, px * x.d1)
  [b.walker x origin px pitch.1 pitch.2 y.d1 rows] ++
    (if isMx x.fmt then [b.walker x (origin + x.splane) sc sc (sc * x.d1) y.d1 rows] else []) ++
    y.walkers ++ (if isMx y.fmt then [Walker.block (y.addr + y.splane) (y.d1 * y.d2 * y.d3 * ceilDiv y.d0 32)] else [])

/-- Bytes of a remote image in a window, as what a descriptor reads of it: any of them (R178; log 97). -/
def TDesc.windowRange (t : TDesc) : Option (Nat × Nat × Nat) := if t.loc = 1 then some (t.handle, t.off, t.off + t.extent 1 - 1) else none

/-- Input bytes of a stripe of `n` output rows (R249, R250). -/
def WinBlock.stripeBytes (b : WinBlock) (x : TDesc) (n : Nat) : Nat := ((n - 1) * b.sy + b.ey) * x.imageRow

/-- The descriptors that fetch a stripe into its half of the scratch range: from the first row its windows touch (R249, R250). -/
def WinBlock.stripeDescs (b : WinBlock) (s : State) (o : Owner) (x : TDesc) (rows i : Nat) (u : Nat × Nat × Nat) : List Desc :=
  (s.fetchDescs o 1 x (u.1 * x.s3 + (u.2.1 * b.sy - b.top) * x.s2) (b.stripeBytes x u.2.2) (b.scratch + i % 2 * b.stripeBytes x rows)).map
    (fun d => { d with window := x.windowRange })

/-- Staging by stripes: the descriptors that read X and their traffic, the walkers of X and Y alone (R245, R247, R250), and
the scratch range, whose contents the manual does not give (log 22). -/
def stagedWork (w : Work) (s : State) (o : Owner) (b : WinBlock) (x y : TDesc) (rows n : Nat) (cores : List Nat) : Work :=
  let walkers := b.walkers x y rows
  let per := (List.range cores.length).map (fun j => (cores.getD j 0, stripesAt y rows n j))
  let fetched := (per.map (fun c => (c.2.map (fun u => b.stripeBytes x u.2.2)).sum)).sum
  let old := traffic (s.pathLoc x) (if x.loc = 0 then 0 else x.extent 1) false
  let new := traffic (s.pathLoc x) fetched false
  let used := decide (x.loc ≠ 0 ∨ y.loc ≠ 0)
  let busy := per.filter (fun c => w.slots.any (fun z => decide (z.1 = c.1)))
  { w with
    slots := w.slots.map (fun z => (z.1, { z.2 with walkers := walkers, ranges := z.2.ranges ++ (if used then [(b.scratch, b.scratch + b.scratchBytes, true)] else []) })),
    core := (if used then (List.range busy.length).zip busy |>.map (fun c => Wr.mk .core (coreKey c.2.1 b.scratch) (freeBytes (s.fresh + 1000 + c.1) b.scratchBytes)) else []) ++ w.core,
    descs := (if x.loc = 0 then [] else (busy.map (fun c => (((List.range c.2.length).zip c.2).map (fun u =>
      (b.stripeDescs s o x rows u.1 u.2).map (fun d => (c.1, d)))).flatten)).flatten) ++ w.descs.filter (fun d => d.2.op ≠ 1),
    traffic := if x.loc = 0 then w.traffic else ⟨w.traffic.t1 - old.t1 + new.t1, w.traffic.rd - old.rd + new.rd, w.traffic.wr, w.traffic.t3⟩ }

/-- Rows and columns of X that some tap reads, for the exception summary. -/
def WinBlock.readRows (b : WinBlock) (x y : TDesc) : List Nat :=
  (List.range x.d2).filter (fun r => (List.range y.d2).any (fun oy => (List.range b.kh).any (fun ky => decide (b.tapY x.d2 oy ky = some r))))

def WinBlock.readCols (b : WinBlock) (x y : TDesc) : List Nat :=
  (List.range x.d1).filter (fun c => (List.range y.d1).any (fun ox => (List.range b.kw).any (fun kx => decide (b.tapX x.d1 ox kx = some c))))

/-- Summary bits raised by the pixels of X that are read, on every core's copy; on the vector engine they are widened (R107). -/
def WinBlock.imageFlags (b : WinBlock) (y : TDesc) (o : Operand) (vector : Bool) (ar : Arith) (cores : List Nat) : Nat :=
  let x := o.desc
  orFlags ((o.copies cores).map (fun core => orFlags ((List.range x.d3).map (fun i3 => orFlags ((b.readRows x y).map (fun r => orFlags ((b.readCols x y).map (fun c =>
    orFlags ((List.range x.d0).map (fun i0 =>
      let v := x.value 1 (o.read core) i0 c r i3
      inFlags v ||| (if vector then (ar.to32 v).2 else 0))))))))))) 

/-! ### CONV (R244 to R247) -/

/-- Channels of a tap as the engine takes them: Cp (R244). -/
def convPadded (x w : TDesc) : Nat := roundUp x.d0 (matmulGroup x w)

/-- One group of one tap: channels `c0` on, of K index `k0` on; channels from C_in and padding taps are +0 (R106, R244). With
it, whether the group was taken to zero (R116). -/
def convTerm (x w : Operand) (core n : Nat) (px : Option (Nat × Nat)) (batch k0 c0 g : Nat) : Fv × Bool :=
  let sx := match px with
    | some (r, c) => (x.desc.code 1 (x.read core) c0 c r batch).2
    | none => 127
  let sw := (w.desc.code 2 (w.read core) n k0 0 0).2
  let term : Nat → Fv := fun i =>
    if x.desc.d0 ≤ c0 + i then .zero
    else
      let v := match px with
        | some (r, c) => elemValue x.desc.fmt (x.desc.code 1 (x.read core) (c0 + i) c r batch).1
        | none => .zero
      v.mul (elemValue w.desc.fmt (w.desc.code 2 (w.read core) n (k0 + i) 0 0).1)
  let sum := ((List.range (g - 1)).map (fun i => term (i + 1))).foldl Fv.add (term 0)
  let y := if isMx x.desc.fmt ∨ isMx w.desc.fmt then
      r32 ((r32 sum).mul ((if isMx x.desc.fmt then scaleValue sx else .one).mul (if isMx w.desc.fmt then scaleValue sw else .one)))
    else r32 sum
  (y, lostTo sum y)

/-- One output of a dense convolution (R106, R244). -/
def convDense (b : WinBlock) (x w : Operand) (core n oy ox batch : Nat) (start : Fv) : Fv × Bool :=
  let g := matmulGroup x.desc w.desc
  let cp := convPadded x.desc w.desc
  (List.range (b.kh * b.kw)).foldl (fun acc t =>
    (List.range (cp / g)).foldl (fun acc i =>
      let u := convTerm x w core n (b.tap x.desc oy ox (t / b.kw) (t % b.kw)) batch (t * cp + i * g) (i * g) g
      (fadd acc.1 u.1, acc.2 || u.2)) acc) (start, false)

/-- Rounding of a depthwise FMA: into BF16 in BF16 mode and into an FP32 result it is a rounding into the destination format,
governed by ROUND and SAT; otherwise it is to FP32, to nearest even (R107, R112, R114). `i` is the index of the element (R113). -/
def depthRound (bf : Bool) (yfmt : Nat) (ar : Arith) (i : Nat) (x : Fv) : Fv × Nat :=
  if bf then (bf16.decode (bf16.encode (ar.mode i) ar.sat x).1, (bf16.encode (ar.mode i) ar.sat x).2)
  else if yfmt = 0 then (fp32.decode (fp32.encode (ar.mode i) ar.sat x).1, (fp32.encode (ar.mode i) ar.sat x).2)
  else (r32 x, 0)

/-- One output of a depthwise convolution, with its summary bits SATURATED and UNDERFLOW_ZERO: every FMA rounds once (R107,
R246). -/
def convDepth (b : WinBlock) (bf : Bool) (ar : Arith) (x w : Operand) (y : TDesc) (core n oy ox batch : Nat) (start : Fv) : Fv × Nat :=
  let i := n + y.d0 * (ox + y.d1 * (oy + y.d2 * batch))
  let r := (List.range (b.kh * b.kw)).foldl (fun (acc : Fv × Bool × Nat) t =>
    let v := match b.tap x.desc oy ox (t / b.kw) (t % b.kw) with
      | some (r, c) => x.at_ ar 1 core n c r batch
      | none => .zero
    let exact := v.fma (w.at_ ar 1 core n (t % b.kw) (t / b.kw) 0) acc.1
    let z := depthRound bf y.fmt ar i exact
    (z.1, acc.2.1 || lostTo exact z.1, acc.2.2 ||| (z.2 &&& fSat))) (start, false, 0)
  (r.1, r.2.2 ||| underIf r.1 r.2.1)

/-- Cycles of a position's stripes (R245, R246). -/
def convCycles (b : WinBlock) (x w y : TDesc) (depth bf : Bool) (stripes : List Nat) : Nat :=
  let cp := convPadded x w
  let ng := b.kh * b.kw * cp / matmulGroup x w
  let a := 64 * b.kh * b.kw * ceilDiv (ceilDiv (cp * elemBits x.fmt) 8) 64
  (stripes.map (fun n =>
    if depth then n * y.d1 * b.kh * b.kw * ceilDiv y.d0 (if bf then 128 else 64) + 12
    else ceilDiv (n * y.d1) 64 * ceilDiv y.d0 32 * max (ng * groupCycles x.fmt w.fmt) a + 64)).foldl (· + ·) 0

/-- Channels agree with those of an image, or the image has none: it is empty, and is checked no further (R82, R257). -/
def channelsAre (image : TDesc) (n : Nat) : Bool := decide (image.d0 = 0 ∨ n = image.d0)

/-- W and BIAS have the shapes that X and Y ask for (R244, R246, R257). -/
def convShapes (depth : Bool) (b : WinBlock) (x w bias y : TDesc) : Bool :=
  w.wellShaped && decide (w.loc = 0) &&
  (if depth then sameChannels x y && channelsAre x w.d0 && decide ((w.fmt = 0 ∨ w.fmt = 1) ∧ w.layout = 1 ∧ w.d1 = b.kw ∧ w.d2 = b.kh ∧ w.d3 = 1)
   else channelsAre y w.d0 && decide (w.layout = 0 ∧ (x.d0 = 0 ∨ w.d1 = b.kh * b.kw * convPadded x w) ∧ w.d2 = 1 ∧ w.d3 = 1) &&
     tensorReads x.fmt && tensorReads w.fmt) &&
  (bias.unused || (bias.wellShaped && channelsAre y bias.d0 && decide (bias.loc = 0 ∧ bias.layout = 1 ∧ bias.rank = 1) &&
    (decide (bias.fmt = 0) || (depth && decide (bias.fmt = 1)))))

/-- Bytes of W on the cores of the packet, by its tile headers. -/
def State.convBytes (s : State) (ctx p : Nat) (q : Partition) (g : Prologue) (w : TDesc) : Nat :=
  max (w.extent 2) (match s.src ctx p q 2 w, q.cores g.first g.n with
    | .ok o, some cores => o.need 2 cores
    | _, _ => 0)

def compConv : Compute := fun o ctx p q pk s =>
  let g := Packet.prologue pk
  let b := Packet.winBlock pk
  let x := Packet.desc pk 64
  let w := Packet.desc pk 112
  let bias := Packet.desc pk 160
  let y := Packet.desc pk 208
  let depth := bit b.wflags 0
  if decide (Packet.len pk ≠ 4) || !g.ok q || decide (g.split ≠ 0 ∨ g.func ≠ 0 ∨ g.opflags ≠ 0) || !b.ok pk 1 || !(x.isImage && y.isImage) ||
     decide (y.loc = 3) || !(if depth then vectorTakes x.fmt && vectorTakes y.fmt else tensorWrites y.fmt) ||
     !convShapes depth b x w bias y || !b.fits x y || !b.clear x y [(w, s.convBytes ctx p q g w), (bias, bias.extent 1)] then .stop St.badParam 0 0
  else match b.rows x y with
    | none => .stop St.badParam 0 0
    | some rows =>
      let bf := decide (x.fmt = 1 ∧ w.fmt = 1 ∧ y.fmt = 1) && (bias.unused || decide (bias.fmt = 1))
      let start : List Operand → Nat → Nat → Fv := fun ops core n => match ops[2]? with
        | some t => t.at_ g.ar 1 core n 0 0 0
        | none => .zero
      let elem : List Operand → Nat → Nat → Nat → Nat → Nat → Fv × Nat := fun ops core i0 i1 i2 i3 => match ops[0]?, ops[1]? with
        | some a, some k =>
          if depth then convDepth b bf g.ar a k y core i0 i2 i1 i3 (start ops core i0)
          else
            let r := convDense b a k core i0 i2 i1 i3 (start ops core i0)
            (r.1, underIf r.1 r.2)
        | _, _ => (.zero, 0)
      match attempt s o ctx p q g (some (if depth then .vector else .tensor)) ([(x, [1]), (w, [if depth then 1 else 2])] ++ (if bias.unused then [] else [(bias, [1])])) y
        (fun j => !(stripesOf y rows g.n j).isEmpty)
        (fun j => convCycles b x w y depth bf (stripesOf y rows g.n j))
        (fun ops cores j =>
          let core := cores.getD j 0
          let r := y.rowsOut g.ar (fun i0 i1 i2 i3 => (elem ops core i0 i1 i2 i3).1)
            (fun u => decide (stripeOf y rows (u / y.d1 % y.d2) (u / y.d1 / y.d2) % g.n = j))
          ⟨r.1, r.2⟩)
        (fun ops cores =>
          (match ops[0]? with
            | some a => b.imageFlags y a depth g.ar cores
            | none => 0) ||| orFlags ((ops.drop 1).map (fun t => t.flags (if t.desc = w && !depth then 2 else 1) cores)) |||
          y.eachFlags (fun i0 i1 i2 i3 => (elem ops (cores.getD (stripeOf y rows i2 i3 % g.n) 0) i0 i1 i2 i3).2)) with
      | .run k => .run (stagedWork k s o b x y rows g.n ((q.cores g.first g.n).getD []))
      | r => r

def convBody : Body := computeBody compConv

/-- CONV (R244). -/
def execConv (p : Sys2Proof.Packet) (s : State) : Host.Outcome State Fault Refusal := .next (runPacket 0x600 convBody p s)

/-! ### POOL (R248) -/

/-- Taps of one window: values to take in, and zero-padding taps counted in the divisor. -/
def poolTaps (b : WinBlock) (ar : Arith) (x : Operand) (core ch oy ox batch : Nat) : List Fv × Nat :=
  let all := (List.range (b.kh * b.kw)).map (fun t => b.tap x.desc oy ox (t / b.kw) (t % b.kw))
  (all.filterMap (fun t => t.map (fun rc => x.at_ ar 1 core ch rc.2 rc.1 batch)), (all.filter Option.isNone).length)

/-- One output of a pool, and whether it was taken to zero (R116, R248). -/
def poolOut (b : WinBlock) (avg : Bool) (ar : Arith) (x : Operand) (core ch oy ox batch : Nat) : Fv × Bool :=
  let (vs, padded) := poolTaps b ar x core ch oy ox batch
  match vs with
  | [] => (.zero, false)
  | v :: r =>
    if avg then Step.mul (.of (r.foldl fadd v)) (.of (fdiv .one (Fv.ofNat (vs.length + (if bit b.wflags 1 then padded else 0))))) else (r.foldl Fv.max v, false)

def compPool : Compute := fun o ctx p q pk s =>
  let g := Packet.prologue pk
  let b := Packet.winBlock pk
  let x := Packet.desc pk 64
  let y := Packet.desc pk 112
  let avg := decide (g.func = 2)
  if decide (Packet.len pk ≠ 3) || !Packet.rsvZero pk 160 192 || !g.ok q || decide (g.split ≠ 0 ∨ g.func < 1 ∨ 2 < g.func ∨ g.opflags ≠ 0) ||
     !b.ok pk (if avg then 2 else 0) || !(x.isImage && y.isImage) || decide (y.loc = 3) || !sameChannels x y ||
     !(vectorTakes x.fmt && vectorTakes y.fmt) || !b.fits x y || !b.clear x y [] then .stop St.badParam 0 0
  else match b.rows x y with
    | none => .stop St.badParam 0 0
    | some rows =>
      let elem : List Operand → Nat → Nat → Nat → Nat → Nat → Fv × Bool := fun ops core i0 i1 i2 i3 => match ops[0]? with
        | some a => poolOut b avg g.ar a core i0 i2 i1 i3
        | none => (.zero, false)
      match attempt s o ctx p q g (some .vector) [(x, [1])] y (fun j => !(stripesOf y rows g.n j).isEmpty)
        (fun j => convCycles b x x y true (decide (x.fmt = 1 ∧ y.fmt = 1)) (stripesOf y rows g.n j))
        (fun ops cores j =>
          let r := y.rowsOut g.ar (fun i0 i1 i2 i3 => (elem ops (cores.getD j 0) i0 i1 i2 i3).1)
            (fun u => decide (stripeOf y rows (u / y.d1 % y.d2) (u / y.d1 / y.d2) % g.n = j))
          ⟨r.1, r.2⟩)
        (fun ops cores => (match ops[0]? with
          | some a => b.imageFlags y a true g.ar cores
          | none => 0) |||
          y.eachFlags (fun i0 i1 i2 i3 =>
            let e := elem ops (cores.getD (stripeOf y rows i2 i3 % g.n) 0) i0 i1 i2 i3
            underIf e.1 e.2)) with
      | .run k => .run (stagedWork k s o b x y rows g.n ((q.cores g.first g.n).getD []))
      | r => r

def poolOpBody : Body := computeBody compPool

/-- POOL (R248). -/
def execPool (p : Sys2Proof.Packet) (s : State) : Host.Outcome State Fault Refusal := .next (runPacket 0x601 poolOpBody p s)

/-! ### CROP_RESIZE (R252 to R256) -/

/-- A box record (R253). -/
structure Box where
  y0 : Nat
  x0 : Nat
  y1 : Nat
  x1 : Nat
  batch : Nat
  rsv : Bool
deriving DecidableEq, Repr

def boxAt (rd : Reader) (i : Nat) : Box :=
  let o := 32 * i
  ⟨readLe rd o 4, readLe rd (o + 4) 4, readLe rd (o + 8) 4, readLe rd (o + 12) 4, readLe rd (o + 16) 4, decide (readLe rd (o + 20) 12 = 0)⟩

def Box.ok (b : Box) (images : Nat) : Bool :=
  finiteCode b.y0 && finiteCode b.x0 && finiteCode b.y1 && finiteCode b.x1 && !((f32 b.y1).lt (f32 b.y0)) && !((f32 b.x1).lt (f32 b.x0)) &&
  decide (b.batch < images) && b.rsv

/-- A box of no height or no width (R255). -/
def Box.isEmpty (b : Box) : Bool := (f32 b.y1).eqv (f32 b.y0) || (f32 b.x1).eqv (f32 b.x0)

/-- The sample point of an output along one axis; its step is correctly rounded (R254). -/
def sampleAt (lo hi n i : Nat) : Fv := ffma ((Fv.ofNat (2 * i + 1)).scale2 (-1)) (fdiv ((f32 hi).sub (f32 lo)) (Fv.ofNat n)) (f32 lo)

/-- A pixel position along one axis: clamped under EDGE 1, none outside under EDGE 0. -/
def edgeTap (edge n : Nat) (r : Int) : Option Nat :=
  if 0 ≤ r ∧ r < (n : Int) then some r.toNat else if edge = 0 then none else some (if r < 0 then 0 else n - 1)

/-- One output value, whether it was taken to zero (R116), and the taps read for it (R254). A sample point that is not finite is
not given a value: it is a free value of its operands (R120; log 23). -/
def cropValue (x : Operand) (ar : Arith) (core interp edge pad : Nat) (b : Box) (oh ow i j ch : Nat) : Step × List (Nat × Nat) :=
  let place : Int → Int → Option (Nat × Nat) := fun r c => match edgeTap edge x.desc.d2 r, edgeTap edge x.desc.d1 c with
    | some r, some c => some (r, c)
    | _, _ => none
  let tap : Int → Int → Fv := fun r c => match place r c with
    | some (r, c) => x.at_ ar 1 core ch c r b.batch
    | none => f32 pad
  let sy := sampleAt b.y0 b.y1 oh i
  let sx := sampleAt b.x0 b.x1 ow j
  let half : Fv := .fin false 1 (-1)
  let y := fsub sy half
  let z := fsub sx half
  if !(sy.isFin && sx.isFin && y.isFin && z.isFin) then
    (.of (f32 (Sys2Proof.Config.cropSample [b.y0, b.x0, b.y1, b.x1, b.batch, oh, ow, interp, edge, i, j, ch]).toNat), [])
  else if interp = 0 then (.of (tap sy.floor sx.floor), (place sy.floor sx.floor).toList)
  else
    let r := y.floor
    let c := z.floor
    let fy := y.sub (Fv.ofInt r)
    let fx := z.sub (Fv.ofInt c)
    let a := tap r c
    let d := tap r (c + 1)
    let e := tap (r + 1) c
    let f := tap (r + 1) (c + 1)
    let top := Step.fma (.of fx) (.of (fsub d a)) (.of a)
    let bot := Step.fma (.of fx) (.of (fsub f e)) (.of e)
    (Step.fma (.of fy) (fsub bot.1 top.1, bot.2) top, [place r c, place r (c + 1), place (r + 1) c, place (r + 1) (c + 1)].filterMap id)

/-- The GATHER of the `n` by `n` pixels from row `r` and column `c` of an image at byte `at_` of an operand, with the channels of
each: the walk's bounds are those of the image (R133, R139, R256; log 97). -/
def State.gatherPixels (s : State) (o : Owner) (x : TDesc) (at_ : Nat) (r c : Int) (n pad : Nat) : List Desc :=
  let px := rowBytes x.fmt x.d0
  (s.remotePieces x at_ 1).map (fun p =>
    let w : Walker := { base := toBits 64 ((p.2.1 : Int) + r * x.s2 + c * x.s1), y0 := r, x0 := c, ylim := x.d2, xlim := x.d1, run := runOf px - 1,
                        pad := pad, dims := [.along (px / runOf px) (runOf px), ⟨n, 0, 1, x.s1⟩, ⟨n, 1, 0, x.s2⟩, .once, .once] }
    { owner := o, op := 4, order := false, rloc := p.1, length := w.bytes, started := false, window := x.windowRange, tag := 0, notify := true,
      remote := p.2.1, walk := some w })

/-- The GATHER of one sample of a box; a pixel outside is zero or replicated in it, as EDGE is (R256). -/
def State.gatherSample (s : State) (o : Owner) (x : TDesc) (interp edge oh ow : Nat) (b : Box) (i j : Nat) : List Desc :=
  let sy := sampleAt b.y0 b.y1 oh i
  let sx := sampleAt b.x0 b.x1 ow j
  let half : Fv := .fin false 1 (-1)
  let pad := if edge = 0 then 1 else 2
  if interp = 0 then s.gatherPixels o x (b.batch * x.s3) sy.floor sx.floor 1 pad
  else s.gatherPixels o x (b.batch * x.s3) (fsub sy half).floor (fsub sx half).floor 2 pad

/-- The GATHERs of a box: one for each sample (R256). -/
def State.gatherBox (s : State) (o : Owner) (x : TDesc) (interp edge oh ow : Nat) (b : Box) : List Desc :=
  ((List.range (oh * ow)).map (fun k => s.gatherSample o x interp edge oh ow b (k / ow) (k % ow))).flatten

/-- Summary bits of an output: its taps, which are widened (R107), and UNDERFLOW_ZERO. -/
def cropFlags (x : Operand) (ar : Arith) (core batch ch : Nat) (r : Step × List (Nat × Nat)) : Nat :=
  orFlags (r.2.map (fun t =>
    let v := x.desc.value 1 (x.read core) ch t.2 t.1 batch
    inFlags v ||| (ar.to32 v).2)) ||| underIf r.1.1 r.1.2

/-- The box list as an operand (R252). -/
def boxList (p : Sys2Proof.Packet) : TDesc :=
  ⟨Packet.fld p 48 8, 0, Packet.fld p 38 1, 1, 1, 8 * Packet.fld p 32 2, 1, 1, 1, 0, 0, 0, 0, 0⟩

def cropFields (p : Sys2Proof.Packet) : Bool :=
  decide (Packet.fld p 32 2 ≤ 1024 ∧ Packet.fld p 34 1 ≤ 64 ∧ Packet.fld p 35 1 ≤ 64 ∧ Packet.fld p 36 1 ≤ 1 ∧ Packet.fld p 37 1 ≤ 1 ∧ Packet.fld p 38 1 ≤ 2) &&
  finiteCode (Packet.fld p 40 4) && Packet.rsvZero p 39 40 && Packet.rsvZero p 44 48 && Packet.rsvZero p 56 64 && Packet.rsvZero p 160 192 &&
  decide (Packet.fld p 48 8 % 64 = 0) && addrOk (Packet.fld p 38 1) (Packet.fld p 48 8)

def compCrop : Compute := fun o ctx p q pk s =>
  let g := Packet.prologue pk
  let n := Packet.fld pk 32 2
  let oh := Packet.fld pk 34 1
  let ow := Packet.fld pk 35 1
  let interp := Packet.fld pk 36 1
  let x := Packet.desc pk 64
  let y := Packet.desc pk 112
  let bl := boxList pk
  if decide (Packet.len pk ≠ 3) || !g.ok q || decide (g.split ≠ 0 ∨ g.func ≠ 0 ∨ g.opflags ≠ 0) || !cropFields pk || !(x.isImage && y.isImage) ||
     !(vectorTakes x.fmt && vectorTakes y.fmt) || decide (y.loc = 3) || decide (y.d0 ≠ x.d0 ∨ y.d1 ≠ ow ∨ y.d2 ≠ oh ∨ y.d3 ≠ n) then .stop St.badParam 0 0
  else
    let mine : Nat → List Nat := fun j => (List.range n).filter (fun i => decide (i % max 1 g.n = j))
    let cores := (q.cores g.first g.n).getD []
    let boxes : Operand → Nat → List (Nat × Box) := fun t j => (mine j).map (fun i => (i, boxAt (t.read (cores.getD j 0)) i))
    let value : Operand → Operand → Nat → Nat → Nat → Nat → Nat → Step × List (Nat × Nat) := fun a t core i0 i1 i2 i3 =>
      let b := boxAt (t.read core) i3
      if b.isEmpty then (.of (f32 (Packet.fld pk 40 4)), []) else cropValue a g.ar core interp (Packet.fld pk 37 1) (Packet.fld pk 40 4) b oh ow i2 i1 i0
    match attempt s o ctx p q g (some .vector) [(x, [1]), (bl, [1])] y (fun j => !(mine j).isEmpty)
      (fun j => if interp = 0 then 0 else (mine j).length * (oh * ow * ceilDiv (6 * y.d0) 64))
      (fun ops cores j => match ops[0]?, ops[1]? with
        | some a, some t =>
          let core := cores.getD j 0
          let r := y.rowsOut g.ar (fun i0 i1 i2 i3 => (value a t core i0 i1 i2 i3).1.1) (fun u => decide (u / y.d1 / y.d2 % g.n = j))
          let fl := orFlags ((mine j).map (fun i3 => orFlags ((List.range oh).map (fun i2 => orFlags ((List.range ow).map (fun i1 =>
            orFlags ((List.range y.d0).map (fun i0 => cropFlags a g.ar core (boxAt (t.read core) i3).batch i0 (value a t core i0 i1 i2 i3)))))))))
          ⟨r.1, r.2 ||| fl⟩
        | _, _ => ⟨[], 0⟩)
      (fun _ _ => 0) with
    | .run w =>
      match s.source ctx p q bl (bl.extent 1) with
      | .error e => .stop e 0 0
      | .ok t =>
        let all := ((List.range g.n).map (boxes t)).flatten
        if w.status = 0 && !all.all (fun b => b.2.ok x.d3) then .headers
        else
          let empties := (all.filter (fun b => b.2.isEmpty)).length
          let bytes := fun (j : Nat) => ((boxes t j).filter (fun b => !b.2.isEmpty)).length * (oh * ow * ceilDiv ((if interp = 0 then 1 else 4) * y.d0 * elemBits x.fmt) 8)
          let gathers := if x.loc = 0 then [] else ((List.range cores.length).map (fun j =>
            ((boxes t j).filter (fun b => !b.2.isEmpty)).map (fun b => (s.gatherBox o x interp (Packet.fld pk 37 1) oh ow b.2).map (fun d => (cores.getD j 0, d))))).flatten.flatten
          let old := traffic (s.pathLoc x) (if x.loc = 0 then 0 else x.extent 1) false
          let new := traffic (s.pathLoc x) (if x.loc = 0 then 0 else ((List.range cores.length).map bytes).foldl (· + ·) 0) false
          .run { w with
            info := if w.status = 0 ∧ empties ≠ 0 then Inf.boxEmpty else w.info,
            result := if w.status = 0 then w.exc % 2 ^ 16 + 2 ^ 16 * (w.slots.length % 256) + 2 ^ 32 * empties else w.result,
            descs := gathers ++ (cores.map (fun c => (s.readDescs o bl (bl.extent 1) 1 0).map (fun d => (c, d)))).flatten ++ w.descs.filter (fun d => d.2.op ≠ 1),
            traffic := ⟨w.traffic.t1 - old.t1 + new.t1, w.traffic.rd - old.rd + new.rd, w.traffic.wr, w.traffic.t3⟩ }
    | r => r

def cropBody : Body := computeBody compCrop

/-- CROP_RESIZE (R252). -/
def execCropResize (p : Sys2Proof.Packet) (s : State) : Host.Outcome State Fault Refusal := .next (runPacket 0x602 cropBody p s)

end Sys2Proof.Machine
end

