-- ==== Sys2Proof/Machine/Ingest.lean ====
section
/-! DEFINITION. Stream slots, ingress buffers, source stamps, clock models and slot calibration (R259 to R278, R287). -/

namespace Sys2Proof.Machine

/-! ### Slots and their rings (R259, R263 to R266) -/

def State.slot? (s : State) (k : Nat) : Option SlotState := s.ingest.slots.get? k

def State.setSlot (s : State) (k : Nat) (f : SlotState → SlotState) : State := { s with ingest := { s.ingest with slots := s.ingest.slots.update k f } }

/-- READ_CTX as the CTX of the slot's events (R267). -/
def SlotState.evCtx (t : SlotState) : Option Nat := if t.cfg.readCtx = 0xFFFF then none else some t.cfg.readCtx

/-- Channels of a pixel (R261); none for a data type that is not supported. -/
def csiChannels (dt : Nat) : Option Nat :=
  if dt = 0x24 ∨ dt = 0x1E then some 3
  else if dt = 0x2A ∨ dt = 0x2B ∨ dt = 0x2C ∨ dt = 0x2E ∨ (0x30 ≤ dt ∧ dt ≤ 0x37) then some 1
  else none

/-- Bytes of an element of FMT. -/
def fmtBytes (fmt : Nat) : Nat := elemBits fmt / 8

/-- Data bytes of a sample (R264). -/
def Slot.dataBytes (c : Slot) : Nat :=
  match c.iface with
  | 1 => c.w * c.h * (csiChannels c.dt).getD 1 * fmtBytes c.fmt + (if c.fmt = 4 then c.w * c.h else 0)
  | 2 => c.w * c.h * fmtBytes c.fmt
  | 4 => 0
  | _ => 1024 + c.w

def Slot.bufSize (c : Slot) : Nat := roundUp (64 + c.dataBytes) 4096

/-- Ring granules of each I/O die (R265). -/
def ringSpace (die : Nat) : Nat := if die = 0 then 216 else 224

def State.ringUsed (s : State) (die but : Nat) : Nat :=
  ((s.ingest.slots.filter (fun kv => decide (kv.1 / 48 = die ∧ kv.1 ≠ but ∧ kv.2.cfg.place = 0))).map (fun kv => kv.2.cfg.granules)).foldl (· + ·) 0

/-- The slot that a SLOT_CONFIG describes (R263). -/
def slotOf (p : Sys2Proof.Packet) : Slot :=
  let f := fun (o n : Nat) => Packet.fld p o n
  let c : Slot :=
    { iface := f 17 1, port := f 18 1, sub := f 19 1, dt := f 20 1, fmt := f 21 1, srcKind := f 22 1, place := f 23 1, nbuf := f 24 1,
      trig := f 25 1, srcOff := f 26 2, w := f 28 2, h := f 30 2, nomPeriod := f 32 4, tickPs := f 36 4, srcBytes := f 40 1,
      spiCmdLen := f 41 1, spiDiv := f 42 2, readCtx := f 44 2, vlan := f 46 2, mac := f 48 6, spiCmd := Packet.bytes p 56 8,
      ringAddr := f 64 8, ringCtx := Packet.ctxNo p, bufBytes := 0, granules := 0 }
  { c with bufBytes := c.bufSize, granules := ceilDiv (c.nbuf * c.bufSize) 65536 }

/-- Fields by interface (R263, R290). -/
def Slot.fieldsOk (c : Slot) (slot : Nat) : Bool :=
  let spi := decide (c.iface = 3)
  let eth := decide (c.iface = 5)
  (match c.iface with
   | 1 => decide (c.port ≤ 11 ∧ c.sub ≤ 15) && (csiChannels c.dt).isSome && decide (c.fmt ≤ 2 ∨ c.fmt = 4) &&
      decide (1 ≤ c.w ∧ c.w ≤ 16384 ∧ 1 ≤ c.h ∧ c.h ≤ 16384)
   | 2 => decide (c.port ≤ 7 ∧ c.sub ≤ 15 ∧ (c.dt = 16 ∨ c.dt = 24 ∨ c.dt = 32) ∧ c.fmt ≤ 1) &&
      decide (1 ≤ c.w ∧ c.w ≤ 16 ∧ c.sub + c.w ≤ 16 ∧ 1 ≤ c.h ∧ c.h ≤ 4096)
   | 3 => decide (c.port ≤ 15 ∧ c.sub ≤ 3 ∧ c.dt ≤ 3 ∧ c.fmt = 0 ∧ (c.trig ≤ 23 ∨ c.trig = 255)) &&
      decide (1 ≤ c.w ∧ c.w ≤ 256 ∧ c.h = 0 ∧ c.spiCmdLen ≤ 8 ∧ 1 ≤ c.spiDiv ∧ c.spiDiv ≤ 99)
   | 4 => decide (c.port ≤ 23 ∧ 1 ≤ c.sub ∧ c.sub ≤ 3 ∧ c.dt = 0 ∧ c.fmt = 0 ∧ c.w = 0 ∧ c.h = 0 ∧ c.srcKind = 0)
   | 5 => decide (slot < 48 ∧ c.port ≤ 1 ∧ c.sub = 0 ∧ c.dt = 0 ∧ c.fmt = 0 ∧ 1 ≤ c.w ∧ c.w ≤ 1500 ∧ c.h = 0) && decide (c.vlan < 4096 ∨ c.vlan = 0xFFFF)
   | _ => false) &&
  decide (c.srcKind ≤ 3 ∧ c.place ≤ 1 ∧ 2 ≤ c.nbuf ∧ c.nbuf ≤ 16 ∧ 1 ≤ c.nomPeriod ∧ c.nomPeriod ≤ 1000000000) &&
  (if c.srcKind = 2 then decide (1 ≤ c.tickPs ∧ c.tickPs ≤ 1000000000) else decide (c.tickPs = 0)) &&
  (if c.srcKind = 0 then decide (c.srcBytes = 0) else decide (1 ≤ c.srcBytes ∧ c.srcBytes ≤ 8)) &&
  (spi || decide (c.trig = 0)) && (eth || decide (c.vlan = 0 ∧ c.mac = 0)) &&
  (if c.place = 1 then decide (c.ringAddr % 65536 = 0 ∧ c.ringAddr < 2 ^ 48) else decide (c.ringAddr = 0)) &&
  decide (c.bufBytes ≤ 16777216)

/-- IFACE 0 leaves every field that its interface would give a meaning reserved (R6, R263). -/
def Slot.noneOk (c : Slot) : Bool :=
  decide (c.dt = 0 ∧ c.fmt = 0 ∧ c.trig = 0 ∧ c.vlan = 0 ∧ c.mac = 0 ∧ c.h = 0) && decide (c.srcKind = 2 ∨ c.tickPs = 0) &&
  decide ((1 ≤ c.srcKind ∧ c.srcKind ≤ 3) ∨ c.srcBytes = 0) && decide (c.place = 1 ∨ c.ringAddr = 0)

/-- Two slots that may not both be configured (R259; log 26). -/
def Slot.clashes (a b : Slot) : Bool :=
  decide (a.iface = b.iface ∧ a.port = b.port) &&
    (match a.iface with
     | 1 => decide (a.sub = b.sub)
     | 5 => decide (a.mac = b.mac ∧ a.vlan = b.vlan)
     | _ => true)

/-- Bytes of a PLACE 1 ring in tier 2 (R264). -/
def Slot.ringBytes (c : Slot) : Nat := c.granules * 65536

/-- Mark or clear the ingress pages of a ring (R264). -/
def State.markRing (s : State) (c : Slot) (on : Bool) : State :=
  if c.place = 0 then s
  else { s with tiers := { s.tiers with pages := s.tiers.pages.update c.ringCtx (fun t =>
    (pageSpan c.ringAddr c.ringBytes).foldl (fun t v => Tab.update t v (fun g => { g with ingress := on })) t) } }

/-- Samples a slot has dropped, over every configuration it had (R285). -/
def State.dropTotal (s : State) (k : Nat) : Nat := match s.slot? k with
  | some t => t.totalDrops
  | none => (s.ingest.dropTotals.get? k).getD 0

/-- Unconfigure a slot: its ring is freed; its drop total stays. -/
def State.dropSlot (s : State) (k : Nat) : State :=
  match s.slot? k with
  | none => s
  | some t =>
    let s := s.markRing t.cfg false
    let s := { s with ingest := { s.ingest with slots := s.ingest.slots.erase k, dropTotals := s.ingest.dropTotals.set k t.totalDrops } }
    if t.cfg.place = 0 then s.zeroFill .xd (xdKey k 0) (2 ^ 32) else s

def slotConfigChecks (_ : Caller) (p : Sys2Proof.Packet) (s : State) : Option Nat :=
  let k := Packet.fld p 16 1
  let c := slotOf p
  let busy := s.slotOn k || (match s.slot? k with
    | some t => t.bufs.any (fun b => !b.holds.isEmpty)
    | none => false)
  firstFail
    [(decide (Packet.len p ≠ 2 ∨ slotCount s.order ≤ k ∨ 5 < c.iface) || !Packet.rsvZero p 54 56 || !Packet.rsvZero p 72 128, St.badParam),
     (!(if c.iface = 0 then c.noneOk else c.fieldsOk k), St.badParam),
     (decide (c.iface ≠ 0) && s.ingest.slots.any (fun kv => decide (kv.1 ≠ k ∧ kv.1 / 48 = k / 48) && kv.2.cfg.clashes c), St.badParam),
     (decide (c.iface ≠ 0 ∧ c.place = 1) && decide (Packet.ctxNo p = 0xFFFF), St.badContext),
     (busy, St.busy)]

def slotConfigEffect (_ : Nat) (_ : Caller) (p : Sys2Proof.Packet) (s : State) : State × Reply :=
  let k := Packet.fld p 16 1
  let c := slotOf p
  let t := s.dropSlot k
  let view := (0x8000 + 256 * k) * 2 ^ 32
  if c.iface = 0 then (t, .done St.ok 0 view)
  else if c.place = 0 ∧ ringSpace (k / 48) < s.ringUsed (k / 48) k + c.granules then refuse s St.noResource
  else if c.place = 1 ∧ (t.t2Freeing c.ringCtx c.ringAddr c.ringBytes) then refuse s St.notFound
  else if c.place = 1 ∧ !(t.t2Mapped c.ringCtx c.ringAddr c.ringBytes && t.t2One c.ringCtx c.ringAddr c.ringBytes) then refuse s St.badParam
  else if c.place = 1 ∧ !t.t2Writable c.ringCtx c.ringAddr c.ringBytes then refuse s St.notPermitted
  else
    let x : SlotState :=
      { cfg := c, bufs := List.replicate c.nbuf (Buf.mk 0 0 [] 0 0 0), filling := none, waiting := [], model := ClockModel.reset, nextSeq := 0,
        lastPin := 0, orderCount := 0, drops := [0, 0, 0, 0, 0], latched := [0, 0, 0, 0, 0, 0], frameDrops := 0, totalDrops := s.dropTotal k,
        history := [], tdmLen := none, tdmSeen := 0, nextDue := 0, fsNo := 0, feNo := 0 }
    (State.markRing { t with ingest := { t.ingest with slots := t.ingest.slots.set k x } } c true, .done St.ok 0 (view + c.bufBytes))

def slotConfigBody : Body := checked slotConfigChecks slotConfigEffect

/-- SLOT_CONFIG (R263). -/
def execSlotConfig (p : Sys2Proof.Packet) (s : State) : Host.Outcome State Fault Refusal := .next (runPacket 0x700 slotConfigBody p s)

/-! ### Clock models (R271 to R275) -/

/-- Signed 64-bit arithmetic. -/
def w64 (x : Int) : Int := signedOf 64 (toBits 64 x)

/-- Source time of the `count`-th sample since enable with raw stamp `raw`, and the model with the stamp unwrapped (R271).
None without a stamp. -/
def ClockModel.sigma (m : ClockModel) (c : Slot) (count : Nat) (raw : Option Nat) : ClockModel × Option Int :=
  if c.srcKind = 0 then (m, some (w64 ((count * c.nomPeriod : Nat) : Int)))
  else match raw with
    | none => (m, none)
    | some r =>
      let modulus := if c.iface = 1 ∧ c.srcKind = 1 then 65535 else 2 ^ (8 * c.srcBytes)
      let u : Int := if m.rawValid then m.unwrapped + (((r : Int) - m.rawPrev) % (modulus : Nat)) else r
      let m := { m with unwrapped := u, rawPrev := r, rawValid := true }
      (m, some (w64 (if c.srcKind = 1 then u * c.nomPeriod else if c.srcKind = 2 then Int.tdiv (u * c.tickPs) 1000 else u)))

/-- OFF + sigma + sigma * RATE / 10^9. -/
def ClockModel.source (m : ClockModel) (sg : Int) : Int := m.off + sg + Int.tdiv (sg * m.rate) 1000000000

def ClockModel.reseed (m : ClockModel) (kind : Nat) (p sg : Int) (jump : Bool) : ClockModel :=
  if kind = 3 then { m with lat := w64 (p - sg), count := 0 }
  else { m with off := w64 (p - m.lat - sg - Int.tdiv (sg * m.rate) 1000000000), rate := if jump then 0 else m.rate, count := 0 }

def ClockModel.track (m : ClockModel) (kind : Nat) (r sg : Int) : ClockModel :=
  let g := if r < 0 then Int.tdiv r 4 else Int.tdiv r 256
  if kind = 3 then { m with lat := w64 (m.lat + g) }
  else { m with off := w64 (m.off + g), rate := max (-1000000) (min 1000000 (m.rate + Int.tdiv (r * 1000000000) (1024 * (sg - m.prevSigma)))) }

/-- What an update reports. -/
inductive ClockNews where
  | none | slip (r : Int) | relock
deriving DecidableEq, Repr

/-- CLOCK_MODEL_UPDATE (R272). -/
def ClockModel.update (m : ClockModel) (kind : Nat) (lim p sg : Int) : ClockModel × ClockNews :=
  let r := w64 (p - w64 (m.source sg + m.lat))
  let d := (p - m.prevPin) - (sg - m.prevSigma)
  let jump := m.first || decide (sg ≤ m.prevSigma) || decide (lim < d ∨ lim < -d)
  let far : Int → Bool := fun l => decide (l < r ∨ l < -r)
  let (m, news) :=
    if m.state = 2 then
      (if jump || far lim then ({ m.reseed kind p sg jump with state := 3, slips := m.slips + 1 }, ClockNews.slip r) else (m.track kind r sg, .none))
    else if jump || far (Int.tdiv lim 4) then (m.reseed kind p sg jump, .none)
    else
      let m := { m.track kind r sg with count := m.count + 1 }
      if m.count = 32 then ({ m with state := 2 }, .relock) else (m, .none)
  ({ m with prevPin := p, prevSigma := sg, first := false, residual := r }, news)

/-- Drift limit of a slot now (R272, R275). -/
def State.driftLimit (s : State) (k : Nat) : Int := ((bits (s.activeWord 3 k 0) 11 8 * s.period : Nat) : Int)

/-- Update the model of a slot with a sample's stamps; the source time it took (R272). A disabled model is frozen (R273). -/
def State.clockUpdate (s : State) (k : Nat) (f : Filling) : State × Option Int :=
  match s.slot? k with
  | none => (s, none)
  | some t =>
    let m := if t.cfg.srcKind = 3 then t.model else { t.model with lat := (s.activeWord 3 k 1 : Nat) }
    let (m, sg) := m.sigma t.cfg f.count f.raw
    match sg with
    | none => (s.setSlot k (fun t => { t with model := m }), none)
    | some x =>
      if m.state = 0 then (s, some x)
      else
        let (m, news) := m.update t.cfg.srcKind (s.driftLimit k) f.pin x
        let s := s.setSlot k (fun t => { t with model := m })
        match news with
        | .none => (s, some x)
        | .slip r => (s.post ⟨0x20, 2, 1, t.evCtx, k, toBits 64 r⟩, some x)
        | .relock => (s.post ⟨0x21, 2, 0, t.evCtx, k, 0⟩, some x)

/-- Capture instant of a sample with the model as it stands (R273, R274). -/
def ClockModel.capture (m : ClockModel) (kind : Nat) (pin : Nat) (sg : Option Int) : Int :=
  match sg with
  | some x => if m.state = 2 then (if kind = 3 then x else w64 (m.source x)) else (pin : Int) - m.lat
  | none => (pin : Int) - m.lat

/-! ### Starting, filling and dropping a sample (R266, R267) -/

/-- Count a drop (R267). -/
def State.countDrop (s : State) (k reason : Nat) : State :=
  s.setSlot k (fun t => { t with drops := t.drops.modify reason (fun n => (n + 1) % 2 ^ 32), frameDrops := t.frameDrops + 1, totalDrops := t.totalDrops + 1 })

/-- The buffer a new sample takes: the oldest that is FREE or READY and not held, other than the newest READY one (R266). -/
def SlotState.takeBuf (t : SlotState) : Option Nat :=
  let newest := (t.ready.head?).map (·.1)
  let ok := (List.range t.bufs.length).filter (fun i => match t.bufs[i]? with
    | some b => decide (b.state ≠ 1) && b.holds.isEmpty && decide (newest ≠ some i)
    | none => false)
  ok.foldl (fun best i => match best with
    | none => some i
    | some j => if (t.bufs.getD i (Buf.mk 0 0 [] 0 0 0)).order < (t.bufs.getD j (Buf.mk 0 0 [] 0 0 0)).order then some i else some j) none

/-- A filling buffer goes back to FREE; it holds no sample, so it counts as older than every READY one (log 39). -/
def State.freeBuf (s : State) (k : Nat) (b : Option Nat) : State :=
  match b with
  | none => s
  | some i => s.setSlot k (fun t => { t with bufs := t.bufs.modify i (fun b => { b with state := 0, order := 0 }) })

/-- Dropped samples at the front of those that wait take part in the clock model and are gone; one behind a sample that is not
READY yet waits for its turn, so that the model takes the samples in order (R272). -/
def State.passDropped (s : State) (k : Nat) : State :=
  match s.slot? k with
  | none => s
  | some t => (t.waiting.takeWhile (fun f => f.buf.isNone)).foldl (fun s f =>
      (s.clockUpdate k f).1.setSlot k (fun t => { t with waiting := t.waiting.tail })) s

/-- SAMPLE_DROP (R267): the sample being filled goes, for the first reason met (log 102), and takes part in the clock model if
its stamps were taken (R272). -/
def State.dropSample (s : State) (k reason : Nat) : State :=
  match (s.slot? k).bind (·.filling) with
  | none => s
  | some f =>
    let s := (s.freeBuf k f.buf).setSlot k (fun t => { t with filling := none, waiting := t.waiting ++ [{ f with buf := none, fifo := [] }] })
    (if f.buf.isNone then s else s.countDrop k (f.bad.getD reason)).passDropped k

/-- A sample starts at the pin: its number, its stamp, its buffer (R23, R266). -/
def State.startSample (s : State) (k pin frameNo : Nat) (raw : Option Nat) : State :=
  match s.slot? k with
  | none => s
  | some t =>
    let b := t.takeBuf
    let f : Filling := ⟨b, pin / 8 * 8, t.nextSeq, 0, 0, [], raw, false, none, false, frameNo, 0, t.model.received + 1, []⟩
    let s := s.setSlot k (fun t => { t with
      nextSeq := (t.nextSeq + 1) % 2 ^ 32, lastPin := pin / 8 * 8, orderCount := t.orderCount + 1, filling := some f,
      bufs := match b with
        | some i => t.bufs.modify i (fun x => { x with state := 1, order := t.orderCount + 1 })
        | none => t.bufs,
      model := { t.model with received := t.model.received + 1 } })
    if b.isNone then s.countDrop k 0 else s

def State.setFilling (s : State) (k : Nat) (g : Filling → Filling) : State := s.setSlot k (fun t => { t with filling := t.filling.map g })

/-- Mark the sample being filled for a drop, for the first reason met. -/
def State.spoilSample (s : State) (k reason : Nat) : State := s.setFilling k (fun f => { f with bad := if f.bad.isNone then some reason else f.bad })

/-- Bytes in the landing FIFO of an I/O die (R265). -/
def State.fifoBytes (s : State) (die : Nat) : Nat :=
  ((s.ingest.slots.filter (fun kv => decide (kv.1 / 48 = die))).map (fun kv =>
    ((kv.2.filling.toList ++ kv.2.waiting).map (fun f => (f.fifo.map (fun x => x.2.length)).foldl (· + ·) 0)).foldl (· + ·) 0)).foldl (· + ·) 0

/-- Data of the sample at a buffer offset: into the ring of a PLACE 0 slot, or into the landing FIFO (R267, R268). -/
def State.putData (s : State) (k off : Nat) (bs : List Byte) : State :=
  match s.slot? k with
  | none => s
  | some t => match t.filling with
    | none => s
    | some f => match f.buf with
      | none => s
      | some b =>
        if t.cfg.place = 0 then s.apply [⟨.xd, xdKey k (b * t.cfg.bufBytes + off), bs⟩]
        else if 1048576 < s.fifoBytes (k / 48) + bs.length then s.spoilSample k 4
        else s.setFilling k (fun f => { f with fifo := f.fifo ++ [(off, bs)] })

/-- The sample is over at the pin: dropped, or complete and waiting to be READY. -/
def State.endSample (s : State) (k : Nat) : State :=
  match (s.slot? k).bind (·.filling) with
  | none => s
  | some f => match f.buf, f.bad with
    | some _, none => s.setSlot k (fun t => { t with filling := none, waiting := t.waiting ++ [{ f with endTime := s.clock.now }] })
    | _, r => s.dropSample k (r.getD 0)

/-- Unsigned little-endian source stamp in a payload (R271). -/
def Slot.stampIn (c : Slot) (bs : List Byte) : Option Nat :=
  if c.srcKind = 0 ∨ bs.length < c.srcOff + c.srcBytes then none else some (fieldAt bs c.srcOff c.srcBytes)

/-! ### CSI-2 (R260, R261) -/

/-- Bytes of a line of `w` pixels, as CSI-2 v2.1 packs it (log 27). -/
def csiLineBytes (dt w : Nat) : Nat :=
  if dt = 0x24 then 3 * w else if dt = 0x1E then 4 * ceilDiv w 2 else if dt = 0x2B then 5 * ceilDiv w 4
  else if dt = 0x2C then 3 * ceilDiv w 2 else if dt = 0x2E then 2 * w else w

/-- Codes of one pixel of a line (R261; log 27). -/
def csiPixel (dt : Nat) (b : Nat → Nat) (i : Nat) : List Nat :=
  if dt = 0x24 then [b (3 * i + 2), b (3 * i + 1), b (3 * i)]
  else if dt = 0x1E then [b (4 * (i / 2) + 1 + 2 * (i % 2)), b (4 * (i / 2)), b (4 * (i / 2) + 2)]
  else if dt = 0x2B then [4 * b (5 * (i / 4) + i % 4) + b (5 * (i / 4) + 4) / 4 ^ (i % 4) % 4]
  else if dt = 0x2C then [16 * b (3 * (i / 2) + i % 2) + b (3 * (i / 2) + 2) / 16 ^ (i % 2) % 16]
  else if dt = 0x2E then [b (2 * i) + 256 * b (2 * i + 1)]
  else [b i]

/-- Conversion into a slot's format: RNE with saturation (R261). -/
def ingestArith : Arith := ⟨0, true, 0⟩

/-- Element and scale bytes of a pixel in a format (R118, R261): as many elements as channels. -/
def ingestPixel (fmt : Nat) (vs : List Fv) : List Byte × List Byte :=
  let e := encodeRow fmt ingestArith 0 vs
  (e.1.take (vs.length * fmtBytes fmt), e.2.1)

/-- A pixel line at line `y` of the sample: its element and scale bytes with their buffer offsets. -/
def State.csiLine (s : State) (k : Nat) (c : Slot) (y : Nat) (payload : List Byte) : List (Nat × List Byte) :=
  let black := bits (s.activeWord 3 k 2) 15 0
  let gain := f32 (s.activeWord 3 k 3)
  let ch := (csiChannels c.dt).getD 1
  let px := (List.range c.w).map (fun i => ingestPixel c.fmt
    ((csiPixel c.dt (fun j => (payload.getD j 0).toNat) i).map (fun (v : Nat) => fmul (Fv.ofInt ((v : Int) - (black : Int))) gain)))
  [(64 + y * c.w * ch * fmtBytes c.fmt, (px.map (·.1)).flatten)] ++
  (if c.fmt = 4 then [(64 + c.w * c.h * ch + y * c.w, (px.map (·.2)).flatten)] else [])

/-- The CSI-2 slot on a port and virtual channel. -/
def State.csiSlot (s : State) (die port vc : Nat) : Option (Nat × SlotState) :=
  s.ingest.slots.find? (fun kv => decide (kv.1 / 48 = die ∧ kv.2.cfg.iface = 1 ∧ kv.2.cfg.port = port ∧ kv.2.cfg.sub = vc))

/-- What a packet's link check does to the sample being filled: a corrected header is marked, any other header error or a payload
error drops the sample (R260). -/
def State.linkOutcome (s : State) (k : Nat) (link : Sys2Proof.LinkCheck) : State :=
  match link with
  | .ok => s
  | .headerCorrected => s.setFilling k (fun f => { f with corrected := true })
  | .bad => s.spoilSample k 3

/-- The first high-speed burst on a port with an enabled slot classifies its link (R468). -/
def State.classify (s : State) (die port : Nat) (c : PortClass) : State :=
  if s.csiEnabled die port && (s.ingest.csiPorts.get? (12 * die + port)).isNone then
    { s with ingest := { s.ingest with csiPorts := s.ingest.csiPorts.set (12 * die + port) c } }
  else s

/-- What a short packet's burst does to the sample being filled: its link check, and, on a link that is not as it was classified,
a drop with LINK_CRC where the header is beyond correction and INCOMPLETE where it is not (R468; log 102). -/
def State.burstOutcome (s : State) (k die port : Nat) (frame : Sys2Proof.FramePacket) : State :=
  let s := s.linkOutcome k frame.link
  match s.ingest.csiPorts.get? (12 * die + port) with
  | some c => if c = ⟨frame.dphy, frame.lanes⟩ then s else s.spoilSample k 2
  | none => s

/-- CSI2_FRAME_START (R259, R260, R266, R267). A Frame Start whose header is beyond correction starts a sample too, which is
dropped (log 102). -/
def execCsi2FrameStart (die port vc : Nat) (frame : Sys2Proof.FramePacket) (s : State) : Host.Outcome State Fault Refusal :=
  .next (match s.csiSlot die port vc with
    | none => s
    | some (k, t) =>
      let s := (s.dropSample k 2).setSlot k (fun t => { t with fsNo := if frame.link = .bad then t.fsNo else frame.number })
      if s.controlReady && s.slotOn k then
        ((s.classify die port ⟨frame.dphy, frame.lanes⟩).startSample k s.clock.now frame.number
          (if t.cfg.srcKind = 1 ∧ frame.link ≠ .bad then some (frame.number % 65536) else none)).burstOutcome k die port frame
      else s)

/-- A pixel line of the slot's data type. -/
def State.csiData (s : State) (k : Nat) (t : SlotState) (f : Filling) (payload : List Byte) : State :=
  let c := t.cfg
  let n := payload.length * c.w * ((csiChannels c.dt).getD 1 * fmtBytes c.fmt + (if c.fmt = 4 then 1 else 0)) / max 1 (csiLineBytes c.dt c.w)
  let s := s.setFilling k (fun f => { f with lines := f.lines + 1, size := f.size + n })
  if c.bufBytes < 64 + f.size + n then s.spoilSample k 1
  else if payload.length ≠ csiLineBytes c.dt c.w ∨ c.h ≤ f.lines then s.spoilSample k 2
  else if f.bad.isSome then s
  else (s.csiLine k c f.lines payload).foldl (fun s x => s.putData k x.1 x.2) s

/-- CSI2_LONG_PACKET (R260, R261): the slot's data type, or the first embedded-data line. -/
def execCsi2LongPacket (die port vc dt : Nat) (link : Sys2Proof.LinkCheck) (payload : List Byte) (s : State) : Host.Outcome State Fault Refusal :=
  .next (match s.csiSlot die port vc with
    | none => s
    | some (k, t) => match t.filling with
      | none => s
      | some f =>
        if dt ≠ t.cfg.dt ∧ (dt ≠ 0x12 ∨ f.embedded) then s
        else
          let s := s.linkOutcome k link
          if dt = 0x12 then
            s.setFilling k (fun f => { f with embedded := true, raw := if link ≠ .bad ∧ (t.cfg.srcKind = 2 ∨ t.cfg.srcKind = 3) then t.cfg.stampIn payload else f.raw })
          else if link = .bad then s
          else s.csiData k t f payload)

/-- CSI2_FRAME_END (R260, R267). -/
def execCsi2FrameEnd (die port vc : Nat) (frame : Sys2Proof.FramePacket) (s : State) : Host.Outcome State Fault Refusal :=
  .next (match s.csiSlot die port vc with
    | none => s
    | some (k, t) =>
      let s := s.setSlot k (fun t => { t with feNo := if frame.link = .bad then t.feNo else frame.number })
      match t.filling with
      | none => s
      | some f =>
        let s := s.burstOutcome k die port frame
        (if f.lines ≠ t.cfg.h then s.spoilSample k 2 else s).endSample k)

/-! ### TDM (R262, R469) -/

/-- A TDM code scaled to code / 2^(DT - 1). -/
def tdmValue (dt code : Nat) : Fv := (Fv.ofInt (signedOf dt code)).scale2 (1 - (dt : Int))

/-- The bytes of a slot's words in a frame as the line carries them: each code in DT / 8 bytes, its MSB first (log 102). -/
def Slot.wireBytes (c : Slot) (words : List Nat) : List Byte :=
  ((List.range c.w).map (fun i => (toLe (c.dt / 8) (words.getD (c.sub + i) 0)).reverse)).flatten

/-- One frame for one slot: the frame length is learnt from the first two frames after enable. A source stamp is read from the
sample's bytes as soon as all of it has arrived (R271). -/
def State.tdmFrame (s : State) (k : Nat) (t : SlotState) (bclks : Nat) (words : List Nat) : State :=
  let c := t.cfg
  let learning := decide (t.tdmSeen < 2)
  let cut := !learning && decide (t.tdmLen ≠ some bclks)
  let s := s.setSlot k (fun t => { t with tdmLen := if learning then some bclks else t.tdmLen, tdmSeen := if learning then t.tdmSeen + 1 else t.tdmSeen })
  if cut then s.dropSample k 2
  else
    let s := match t.filling with
      | none => if s.slotOn k then s.startSample k s.clock.now 0 none else s
      | some _ => s
    match (s.slot? k).bind (·.filling) with
    | none => s
    | some f =>
      let row := (List.range c.w).map (fun i => tdmValue c.dt (words.getD (c.sub + i) 0))
      let s := s.putData k (64 + f.lines * c.w * fmtBytes c.fmt) (ingestPixel c.fmt row).1
      let wire := f.wire ++ c.wireBytes words
      let s := s.setFilling k (fun f => { f with lines := f.lines + 1, wire := wire, raw := c.stampIn wire })
      if f.lines + 1 = c.h then s.endSample k else s

/-- MCLK of a TDM port runs at 24.576 MHz, in service from control-ready, while a slot bound to the port is enabled; otherwise it
is low (R469, R477). -/
def State.mclk (s : State) (die port : Nat) : Bool :=
  s.controlReady && s.ingest.slots.any (fun kv => decide (kv.1 / 48 = die ∧ kv.2.cfg.iface = 2 ∧ kv.2.cfg.port = port) && s.slotOn kv.1)

/-- TDM_FRAME_SYNC (R262, R469): a frame with its length in BCLK cycles and its words. -/
def execTdmFrameSync (die port bclks : Nat) (words : List Nat) (s : State) : Host.Outcome State Fault Refusal :=
  .next (if !s.controlReady then s
    else (s.ingest.slots.filter (fun kv => decide (kv.1 / 48 = die ∧ kv.2.cfg.iface = 2 ∧ kv.2.cfg.port = port) && (s.slotOn kv.1 || kv.2.filling.isSome))).foldl
      (fun s kv => s.tdmFrame kv.1 kv.2 bclks words) s)

/-! ### SPI, GPIO and Ethernet (R262, R263, R470) -/

def rawOf (type : Nat) (n : Nat) : Fv :=
  match type with
  | 0 => Fv.ofInt (signedOf 16 n)
  | 1 => Fv.ofNat n
  | 2 => Fv.ofInt (signedOf 32 n)
  | 3 => Fv.ofNat n
  | _ => f32 n

/-- Value of entry `e` of the active vector conversion table (R277). -/
def State.vecEntry (s : State) (k e : Nat) (payload : List Byte) : Fv :=
  let w := s.activeWord 3 k (0x100 + 4 * e)
  let type := bits w 23 16
  let bs := sliceAt payload (bits w 15 0) (vecSize type)
  ffma (r32 (rawOf type (if bit w 24 then beNat bs else leNat bs))) (f32 (s.activeWord 3 k (0x101 + 4 * e))) (f32 (s.activeWord 3 k (0x102 + 4 * e)))

def State.vecLen (s : State) (k : Nat) : Nat := bits (s.activeWord 3 k 5) 8 0

/-- An SPI or Ethernet payload: the converted vector, then the raw bytes (R262). -/
def State.putPayload (s : State) (k : Nat) (payload : List Byte) : State :=
  let vec := ((List.range (s.vecLen k)).map (fun e => toLe 4 (code32 (s.vecEntry k e payload)))).flatten
  let s := if vec.isEmpty then s else s.putData k 64 vec
  s.putData k 1088 payload

/-- A transaction starts on an SPI slot, if none is under way (R263). -/
def State.spiStart (s : State) (k pin : Nat) (t : SlotState) : State :=
  if t.filling.isSome || !s.slotOn k then s else (s.startSample k pin 0 none).emit (.sensorSpi k (t.cfg.spiCmd.take t.cfg.spiCmdLen))

/-- Robot time of the start that is due: the next one, or, where later ones have passed, the last of these (R263). -/
def SlotState.nextStart (t : SlotState) (now : Nat) : Nat := max t.nextDue (now / max 1 t.cfg.nomPeriod * max 1 t.cfg.nomPeriod)

/-- SPI_PERIODIC_START (R263). -/
def execSpiPeriodicStart (slot : Nat) (s : State) : Host.Outcome State Fault Refusal :=
  .next (match s.slot? slot with
    | none => s
    | some t =>
      if s.controlReady && s.slotOn slot && decide (t.cfg.iface = 3 ∧ t.cfg.trig = 255) then
        let due := t.nextStart s.clock.now
        ((s.reach due).setSlot slot (fun t => { t with nextDue := due + max 1 t.cfg.nomPeriod })).spiStart slot due t
      else s)

/-- SPI_TRANSACTION_END (R262): W bytes were read. -/
def execSpiTransactionEnd (slot : Nat) (payload : List Byte) (s : State) : Host.Outcome State Fault Refusal :=
  .next (match s.slot? slot with
    | none => s
    | some t =>
      if t.cfg.iface = 3 ∧ t.filling.isSome then
        let bytes := (payload ++ zeros t.cfg.w).take t.cfg.w
        let s := s.setFilling slot (fun f => { f with raw := t.cfg.stampIn bytes })
        (s.putPayload slot bytes).endSample slot
      else s)

/-- GPIO_EDGE (R470), on a die whose lands are connected (R464): one stamp for the GPIO slot and for the SPI slots the line triggers on its rising edge (log 28). -/
def execGpioEdge (die line : Nat) (rising : Bool) (s : State) : Host.Outcome State Fault Refusal :=
  .next (if !s.controlReady || decide (ioDies s.order ≤ die) then s
    else
      let pin := s.clock.now / 8 * 8
      let s := { s with ingest := { s.ingest with gpioStamp := s.ingest.gpioStamp.set (die * 24 + line) pin } }
      (s.ingest.slots.filter (fun kv => decide (kv.1 / 48 = die))).foldl (fun s kv =>
        let c := kv.2.cfg
        if c.iface = 4 ∧ c.port = line ∧ (bit c.sub (if rising then 0 else 1)) ∧ s.slotOn kv.1 then (s.startSample kv.1 pin 0 none).endSample kv.1
        else if c.iface = 3 ∧ c.trig = line ∧ rising then s.spiStart kv.1 pin kv.2
        else s) s)

/-- ETH_FRAME (R259, R262, R267): a frame that matches no slot is not ingested. -/
def execEthFrame (port mac vlan : Nat) (fcsOk : Bool) (payload : List Byte) (s : State) : Host.Outcome State Fault Refusal :=
  .next (match s.ingest.slots.find? (fun kv => decide (kv.2.cfg.iface = 5 ∧ kv.2.cfg.port = port ∧ kv.2.cfg.mac = mac ∧ kv.2.cfg.vlan = vlan)) with
    | none => s
    | some (k, t) =>
      if !s.portUp port || !s.slotOn k then s
      else
        let s := s.startSample k s.clock.now 0 (if fcsOk then t.cfg.stampIn (payload.take t.cfg.w) else none)
        if !fcsOk then (s.spoilSample k 3).endSample k
        else if payload.length < t.cfg.w then (s.spoilSample k 2).endSample k
        else (s.putPayload k (payload.take t.cfg.w)).endSample k)

/-! ### Into tier 2, and READY (R268, R270) -/

/-- Bytes at a buffer offset of a ring, as writes to its store. -/
def State.ringWr (s : State) (k : Nat) (c : Slot) (b off : Nat) (bs : List Byte) : List Wr :=
  if c.place = 0 then [⟨.xd, xdKey k (b * c.bufBytes + off), bs⟩] else s.t2Wr c.ringCtx (c.ringAddr + b * c.bufBytes + off) bs

/-- Everything a sample has in the landing FIFO goes to tier 2. -/
def State.drainFifo (s : State) (k : Nat) (t : SlotState) (f : Filling) : State :=
  match f.buf with
  | none => s
  | some b => s.apply ((f.fifo.map (fun x => s.ringWr k t.cfg b x.1 x.2)).flatten)

/-- INGRESS_T2_WRITE (R268): in a shared slot, before any partition's request; at E3 the shared slots are idle (R438). -/
def execIngressT2Write (slot : Nat) (s : State) : Host.Outcome State Fault Refusal :=
  .next (match s.slot? slot with
    | none => s
    | some t =>
      if !s.running || decide (3 ≤ s.power.applied) then s
      else
        let s := (t.waiting ++ t.filling.toList).foldl (fun s f => s.drainFifo slot t f) s
        s.setSlot slot (fun t => { t with waiting := t.waiting.map (fun f => { f with fifo := [] }), filling := t.filling.map (fun f => { f with fifo := [] }) }))

/-- The 64-byte sample header (R270). -/
def sampleHeader (f : Filling) (slot state : Nat) (stale srcValid : Bool) (sg : Option Int) (capture : Int) (bytes : Nat) : List Byte :=
  toLe 4 f.seq ++ toLe 1 slot ++ toLe 1 (b2n stale + 2 * b2n srcValid + 4 * b2n f.corrected) ++ toLe 1 state ++ zeros 1 ++ toLe 8 f.pin ++
  toLe 8 (toBits 64 (sg.getD 0)) ++ toLe 8 (toBits 64 capture) ++ toLe 8 f.endTime ++ toLe 4 bytes ++ zeros 20

/-- The oldest complete sample becomes READY (R270 to R274), and the dropped ones behind it have their turn; whether one did. A sample without a source time takes its capture
instant from p - LAT in every clock state, so its STALE_CLOCK is set (R285; log 102). -/
def State.sampleReady (s : State) (k : Nat) : State × Bool :=
  match s.slot? k with
  | none => (s, false)
  | some t => match t.waiting with
    | [] => (s, false)
    | f :: rest => match f.buf with
      | none => (s, false)
      | some b =>
        if !f.fifo.isEmpty then (s, false)
        else
          let (s, sg) := s.clockUpdate k f
          let m := match s.slot? k with
            | some t => t.model
            | none => t.model
          let capture := m.capture t.cfg.srcKind f.pin sg
          let stale := decide (m.state ≠ 2) || sg.isNone
          let s := s.apply (s.ringWr k t.cfg b 0 (sampleHeader f k m.state stale f.raw.isSome sg capture t.cfg.dataBytes))
          ((s.setSlot k (fun t => { t with
            waiting := rest,
            bufs := t.bufs.modify b (fun x => { x with state := 2, sampleSeq := f.seq, capture := toBits 64 capture, endTime := f.endTime }),
            history := ((f.seq, toBits 64 capture, stale) :: t.history).take 64 })).passDropped k, true)

/-- At a frame edge: INGRESS_DROP for the ended frame, and the counters latched (R267, R287). -/
def State.latchDrops (s : State) : State :=
  s.ingest.slots.foldl (fun s kv =>
    let t := kv.2
    let s := if bit (s.activeWord 3 kv.1 4) 1 && decide (0 < t.frameDrops) then s.post ⟨0x22, 2, 1, t.evCtx, kv.1, t.frameDrops⟩ else s
    s.setSlot kv.1 (fun t => { t with latched := t.drops ++ [t.model.slips % 2 ^ 32], frameDrops := 0 })) s

/-- Robot time stepped forward: the models of kinds 0 to 2 shift with it (R275). -/
def State.shiftModels (s : State) (d : Nat) : State :=
  { s with ingest := { s.ingest with slots := s.ingest.slots.mapVals (fun _ t =>
      if t.cfg.srcKind = 3 then t else { t with model := { t.model with off := t.model.off + d, prevPin := t.model.prevPin + d } }) } }

/-! ### CALIB_WRITE (R278) -/

def calibWords (p : Sys2Proof.Packet) (s : State) : List Nat :=
  (List.range (Packet.fld p 20 2)).map (fun i => leNat (s.t2Read (Packet.ctxNo p) (Packet.fld p 24 8 + 4 * i) 4))

def calibWriteChecks (c : Caller) (p : Sys2Proof.Packet) (s : State) : Option Nat :=
  let n := Packet.fld p 20 2
  let a := Packet.fld p 24 8
  firstFail [(decide (Packet.len p ≠ 1 ∨ 1280 < n ∨ 2 ^ 48 ≤ a) || !Packet.rsvZero p 17 18 || !Packet.rsvZero p 22 24 || !Packet.rsvZero p 32 64, St.badParam)]
  |>.orElse (fun _ => scopeChecks s c p.path 3 (Packet.fld p 16 1))
  |>.orElse (fun _ => firstFail
    [(decide (scopeWords 3 < Packet.fld p 18 2 + n), St.badParam), (decide (Packet.ctxNo p = 0xFFFF), St.badContext),
     (s.t2Freeing (Packet.ctxNo p) a (4 * n) || s.t2Evicted (Packet.ctxNo p) a (4 * n), St.notFound),
     (decide (n ≠ 0) && !s.t2Mapped (Packet.ctxNo p) a (4 * n), St.badParam), (s.t2Poison (Packet.ctxNo p) a (4 * n) |>.isSome, St.memUncorrectable)])
  |>.orElse (fun _ => writeChecks s 3 (Packet.fld p 16 1) (Packet.fld p 18 2) (calibWords p s))

def calibWriteEffect (_ : Nat) (_ : Caller) (p : Sys2Proof.Packet) (s : State) : State × Reply :=
  if Packet.fld p 20 2 = 0 then (s, .done St.ok Inf.zeroWork 0)
  else done0 (writeWordsFrom 3 (Packet.fld p 16 1) (Packet.fld p 18 2) (calibWords p s) s) 0

def calibWriteBody : Body := fun id c p s => match calibWriteChecks c p s with
  | some st => refuse (if st = St.memUncorrectable then s.rereadT2 (Packet.ctxNo p) (Packet.fld p 24 8) (4 * Packet.fld p 20 2) else s) st
  | none => calibWriteEffect id c p s

/-- CALIB_WRITE (R278). -/
def execCalibWrite (p : Sys2Proof.Packet) (s : State) : Host.Outcome State Fault Refusal := .next (runPacket 0x701 calibWriteBody p s)

/-! ### STREAM_HEALTH (R287) -/

/-- Status record of a slot (R287); an unconfigured slot reads zero. -/
def State.healthRecord (s : State) (k : Nat) : List Byte :=
  match s.slot? k with
  | none => zeros 64
  | some t =>
    let m := t.model
    toLe 1 m.state ++ toLe 1 t.cfg.iface ++ toLe 2 m.count ++ toLe 4 (if t.orderCount = 0 then 0 else (t.nextSeq + 2 ^ 32 - 1) % 2 ^ 32) ++ toLe 8 t.lastPin ++
    toLe 8 (toBits 64 m.off) ++ toLe 4 (toBits 32 m.rate) ++ toLe 4 (toBits 32 m.lat) ++ toLe 4 (toBits 32 (satSigned 32 m.residual)) ++
    ((List.range 6).map (fun i => toLe 4 (t.latched.getD i 0))).flatten ++ zeros 4

def slotReadable (s : State) (c : Caller) (p : Sys2Proof.Packet) (k : Nat) : Bool :=
  decide (c.role ≠ .tenant) || (match s.slot? k with
    | some t => decide (t.cfg.readCtx = 0xFFFF ∨ t.cfg.readCtx = Packet.ctxNo p)
    | none => true)

def streamHealthChecks (c : Caller) (p : Sys2Proof.Packet) (s : State) : Option Nat :=
  let k := Packet.fld p 16 1
  let n := Packet.fld p 17 1
  let loc := Packet.fld p 18 1
  firstFail
    [(decide (Packet.len p ≠ 1 ∨ (loc ≠ 2 ∧ loc ≠ 4) ∨ slotCount s.order ≤ k ∨ slotCount s.order < k + n) || !Packet.rsvZero p 19 24 || !Packet.rsvZero p 32 64, St.badParam),
     (decide (Packet.ctxNo p = 0xFFFF), St.badContext),
     (!(List.range n).all (fun i => slotReadable s c p (k + i)), St.notPermitted)]

def streamHealthEffect (_ : Nat) (_ : Caller) (p : Sys2Proof.Packet) (s : State) : State × Reply :=
  let n := Packet.fld p 17 1
  match s.moveSide (Packet.ctxNo p) 0 (Packet.fld p 18 1) (Packet.fld p 24 8) ⟨1, 64 * n, 64 * n⟩ true with
  | .error e => refuse s e
  | .ok x =>
    if n = 0 then (s, .done St.ok Inf.zeroWork 0)
    else if !s.sideReady x then (s, .parkWork)
    else
      let w := s.sideWrite (Packet.ctxNo p) 0 x 0 (((List.range n).map (fun i => s.healthRecord (Packet.fld p 16 1 + i))).flatten)
      (s.apply w.1, .full St.ok 0 0 none w.2 [])

def streamHealthBody : Body := checked streamHealthChecks streamHealthEffect

/-- STREAM_HEALTH (R287). -/
def execStreamHealth (p : Sys2Proof.Packet) (s : State) : Host.Outcome State Fault Refusal := .next (runPacket 0x705 streamHealthBody p s)

end Sys2Proof.Machine
end

