-- ==== Sys2Proof/Machine/Grid.lean ====
section
/-! DEFINITION. Fusion grids, poses, alignment and projection (R276, R279 to R287). -/

namespace Sys2Proof.Machine

def State.grid? (s : State) (g : Nat) : Option Grid := s.ingest.grids.get? g

def State.setGrid (s : State) (g : Nat) (f : Grid → Grid) : State := { s with ingest := { s.ingest with grids := s.ingest.grids.update g f } }

/-! ### GRID_CREATE and GRID_DESTROY (R279, R280, R287) -/

def gridCreateChecks (_ : Caller) (p : Sys2Proof.Packet) (s : State) : Option Nat :=
  let f := fun (o n : Nat) => Packet.fld p o n
  let c := Packet.ctxNo p
  let cells := f 20 2 * f 22 2 * f 24 2
  let data := f 48 8
  firstFail
    [(decide (Packet.len p ≠ 2) || !Packet.rsvZero p 26 28 || !Packet.rsvZero p 65 128, St.badParam),
     (decide (3 < f 16 1 ∧ f 16 1 ≠ 255) || decide (f 17 1 ≠ 2 ∧ f 17 1 ≠ 3) || decide (f 18 2 < 1 ∨ 256 < f 18 2), St.badParam),
     (decide (f 20 2 < 1 ∨ 4096 < f 20 2 ∨ f 22 2 < 1 ∨ 4096 < f 22 2 ∨ f 24 2 < 1 ∨ 4096 < f 24 2 ∨ 8388608 < cells), St.badParam),
     (!positiveCode (f 28 4) || !finiteCode (f 32 4) || !finiteCode (f 36 4) || !finiteCode (f 40 4) || !finiteCode (f 44 4) || decide (8 < f 64 1), St.badParam),
     (decide (data % 65536 ≠ 0 ∨ 2 ^ 48 ≤ data ∨ f 56 8 % 4096 ≠ 0 ∨ 2 ^ 48 ≤ f 56 8), St.badParam),
     (decide (c = 0xFFFF), St.badContext),
     (s.t2Freeing c data (cells * f 18 2) || s.t2Freeing c (f 56 8) 4096, St.notFound),
     (!(s.t2Mapped c data (cells * f 18 2) && s.t2One c data (cells * f 18 2)) || !s.t2Mapped c (f 56 8) 4096, St.badParam),
     (!s.t2Writable c data (cells * f 18 2), St.notPermitted)]

def gridCreateEffect (_ : Nat) (_ : Caller) (p : Sys2Proof.Packet) (s : State) : State × Reply :=
  let want := Packet.fld p 16 1
  let used := s.ingest.grids.keys
  match (if want = 255 then pickFree s.fresh 4 used else if used.contains want then none else some want) with
  | none => refuse s St.noResource
  | some g =>
    let f := fun (o n : Nat) => Packet.fld p o n
    let s := (s.bump).resetScope 4 g
    let s := [(0, f 28 4), (1, f 32 4), (2, f 36 4), (3, f 40 4), (4, f 44 4), (5, f 64 1)].foldl
      (fun (s : State) (w : Nat × Nat) => (s.setShadow 4 g w.1 w.2).setActive 4 g w.1 w.2) s
    let x : Grid := ⟨Packet.ctxNo p, f 17 1, f 18 2, f 20 2, f 22 2, f 24 2, f 48 8, f 56 8, 0, none, []⟩
    ({ s with ingest := { s.ingest with grids := s.ingest.grids.set g x } }, .done St.ok 0 g)

def gridCreateBody : Body := checked gridCreateChecks gridCreateEffect

/-- GRID_CREATE (R279). -/
def execGridCreate (p : Sys2Proof.Packet) (s : State) : Host.Outcome State Fault Refusal := .next (runPacket 0x702 gridCreateBody p s)

/-- A grid of the packet's context that is not being destroyed (log 25). -/
def State.gridOf (s : State) (ctx g : Nat) : Option Grid :=
  match s.grid? g with
  | some x => if x.ctx = ctx ∧ x.destroy.isNone then some x else none
  | none => none

/-- A projection runs on the grid (R283). -/
def State.projecting (s : State) (g : Nat) : Bool :=
  s.proto.flights.any (fun f => f.running && decide (f.opcode = 0x704 ∧ Packet.fld f.pkt 16 1 = g))

def gridDestroyChecks (_ : Caller) (p : Sys2Proof.Packet) (s : State) : Option Nat :=
  firstFail [(!shortOk p 17 || decide (3 < Packet.fld p 16 1), St.badParam), ((s.gridOf (Packet.ctxNo p) (Packet.fld p 16 1)).isNone, St.notFound)]

/-- The grid number is free again; its scope words go back to reset (R78). -/
def State.dropGrid (s : State) (g : Nat) : State :=
  State.resetScope { s with ingest := { s.ingest with grids := s.ingest.grids.erase g } } 4 g

def gridDestroyEffect (id : Nat) (_ : Caller) (p : Sys2Proof.Packet) (s : State) : State × Reply :=
  let g := Packet.fld p 16 1
  if s.projecting g then (s.setGrid g (fun x => { x with destroy := some id }), .later) else (s.dropGrid g, .done St.ok 0 0)

def gridDestroyBody : Body := checked gridDestroyChecks gridDestroyEffect

/-- GRID_DESTROY (R287). -/
def execGridDestroy (p : Sys2Proof.Packet) (s : State) : Host.Outcome State Fault Refusal := .next (runPacket 0x703 gridDestroyBody p s)

/-- Destroys that waited for a projection end. -/
def State.settleGrids (s : State) : State :=
  s.ingest.grids.foldl (fun s kv => match kv.2.destroy with
    | some id => if s.projecting kv.1 then s else (s.dropGrid kv.1).finish id St.ok 0 0
    | none => s) s

/-! ### Values at an instant (R276, R281) -/

/-- A sample of a pose ring or a vector stream: its capture instant and its components. -/
abbrev Timed := Nat × List Fv

/-- Into ascending instants; it takes the place of an earlier sample of its instant (R276). -/
def insertTimed (x : Timed) : List Timed → List Timed
  | [] => [x]
  | y :: r => if x.1 < y.1 then x :: y :: r else if x.1 = y.1 then x :: r else y :: insertTimed x r

/-- Samples in the order they were written, by ascending instants: of two of one instant the later-written stays (R276). -/
def timeline (l : List Timed) : List Timed := l.foldl (fun acc x => insertTimed x acc) []

def lerp (p q u : Fv) : Fv := ffma u (fsub q p) p

def dot4 (a b : List Fv) : Fv :=
  let m : Nat → Fv := fun i => fmul (a.getD i .zero) (b.getD i .zero)
  fadd (fadd (fadd (m 0) (m 1)) (m 2)) (m 3)

/-- Interpolation of a vector, or of a pose: position, then a rotation made a unit quaternion again. -/
def lerpVec (pose : Bool) (p q : List Fv) (u : Fv) : List Fv :=
  if !pose then (List.range p.length).map (fun i => lerp (p.getD i .zero) (q.getD i .zero) u)
  else
    let pos := (List.range 3).map (fun i => lerp (p.getD i .zero) (q.getD i .zero) u)
    let q1 := q.drop 3
    let q0 := if (dot4 (p.drop 3) q1).lt .zero then (p.drop 3).map Fv.neg else p.drop 3
    let r := (List.range 4).map (fun i => lerp (q0.getD i .zero) (q1.getD i .zero) u)
    let k := transExact 0x15 (dot4 r r)
    pos ++ r.map (fun x => fmul x k)

/-- A value with its flags STALE and EXTRAPOLATED. -/
structure AtTime where
  v : List Fv
  stale : Bool
  extrap : Bool

def spanOf (a b : Nat) : Fv := r32 (Fv.ofInt ((b : Int) - (a : Int)))

/-- The value at instant `t` (R276); none without a sample. -/
def valueAt (pose : Bool) (horizon t : Nat) (l : List Timed) : Option AtTime :=
  match l.find? (fun x => decide (x.1 = t)), l.head?, l.getLast? with
  | some x, _, _ => some ⟨x.2, false, false⟩
  | none, some a, some b =>
    if t < a.1 then some ⟨a.2, true, false⟩
    else if t < b.1 then
      match (l.filter (fun x => decide (x.1 < t))).getLast?, l.find? (fun x => decide (t < x.1)) with
      | some x, some y => some ⟨lerpVec pose x.2 y.2 (fdiv (spanOf x.1 t) (spanOf x.1 y.1)), false, false⟩
      | _, _ => none
    else
      let h := min t (b.1 + horizon)
      let stale := decide (b.1 + horizon < t)
      match (l.dropLast).getLast? with
      | none => some ⟨b.2, stale, true⟩
      | some a => some ⟨lerpVec pose a.2 b.2 (fdiv (spanOf a.1 h) (spanOf a.1 b.1)), stale, true⟩
  | _, _, _ => none

/-- The records of a pose ring in the order they were last written; those never written come first (R276). -/
def State.poseOrder (s : State) (ctx addr : Nat) : List Nat :=
  let line : Nat → Nat := fun i => ((s.phys? ctx (addr + 64 * i)).getD 0) / 64
  let known := s.stores.recent.filter (fun k => (List.range 64).any (fun i => line i = k))
  (List.range 64).filter (fun i => !known.contains (line i)) ++ known.filterMap (fun k => (List.range 64).find? (fun i => line i = k))

/-- The valid records of a pose ring (R281). DESIGN CHOICE: a record whose TIME has bit 62 or 63 set is used as it stands, as R281
has every valid finite record used; nothing of a ring that software writes is rejected (R24; log 111). -/
def State.poses (s : State) (ctx addr : Nat) : List Timed :=
  timeline ((s.poseOrder ctx addr).filterMap (fun i =>
    let b := s.t2Read ctx (addr + 64 * i) 64
    let ws := (List.range 7).map (fun j => fieldAt b (8 + 4 * j) 4)
    if bit (fieldAt b 36 4) 0 && ws.all finiteCode then some (fieldAt b 0 8, ws.map f32) else none))

/-- The samples of a vector stream: every READY buffer (R276). -/
def State.vectorSamples (s : State) (k : Nat) : List Timed :=
  match s.slot? k with
  | none => []
  | some t => timeline (t.ready.reverse.map (fun b => (b.2.capture, (List.range (s.vecLen k)).map (fun e =>
      f32 (leNat ((List.range 4).map (fun i => s.bufByte k b.1 (64 + 4 * e + i))))))))

/-! ### Projection (R284) -/

/-- A camera model (R277). -/
structure Cam where
  fx : Fv
  fy : Fv
  cx : Fv
  cy : Fv
  k : List Fv
  p1 : Fv
  p2 : Fv
  rot : List Fv
  trans : List Fv

def State.cam (s : State) (k : Nat) : Cam :=
  let w : Nat → Fv := fun o => f32 (s.activeWord 3 k o)
  ⟨w 0x41, w 0x42, w 0x43, w 0x44, (List.range 6).map (fun i => w (0x45 + i)), w 0x4B, w 0x4C, (List.range 9).map (fun i => w (0x4D + i)),
   (List.range 3).map (fun i => w (0x56 + i))⟩

def vget (v : List Fv) (i : Nat) : Fv := v.getD i .zero
def vadd (a b : List Fv) : List Fv := (List.range 3).map (fun i => fadd (vget a i) (vget b i))
def vsub (a b : List Fv) : List Fv := (List.range 3).map (fun i => fsub (vget a i) (vget b i))
def dot3 (a b c x y z : Fv) : Fv := fadd (fadd (fmul a x) (fmul b y)) (fmul c z)
def matVec (m v : List Fv) : List Fv :=
  (List.range 3).map (fun i => dot3 (vget m (3 * i)) (vget m (3 * i + 1)) (vget m (3 * i + 2)) (vget v 0) (vget v 1) (vget v 2))
def matTVec (m v : List Fv) : List Fv :=
  (List.range 3).map (fun i => dot3 (vget m i) (vget m (3 + i)) (vget m (6 + i)) (vget v 0) (vget v 1) (vget v 2))

def two : Fv := .fin false 2 0

/-- The standard matrix of a unit quaternion w, x, y, z. -/
def quatMat (q : List Fv) : List Fv :=
  let w := vget q 0
  let x := vget q 1
  let y := vget q 2
  let z := vget q 3
  let diag : Fv → Fv → Fv := fun a b => fsub .one (fmul two (fadd (fmul a a) (fmul b b)))
  let plus : Fv → Fv → Fv → Fv → Fv := fun a b c d => fmul two (fadd (fmul a b) (fmul c d))
  let minus : Fv → Fv → Fv → Fv → Fv := fun a b c d => fmul two (fsub (fmul a b) (fmul c d))
  [diag y z, minus x y w z, plus x z w y, plus x y w z, diag x z, minus y z w x, minus x z w y, plus y z w x, diag x y]

/-- One feature input of a projection: its camera, the body's rotation and position at its capture, and its map. -/
structure FeatIn where
  cam : Cam
  rot : List Fv
  pos : List Fv
  op : Operand
  stride : Nat
  conf : Bool

/-- Where a world point falls in a feature map: row and column coordinates, if it is visible. -/
def FeatIn.project (i : FeatIn) (pw : List Fv) : Option (Fv × Fv) :=
  let c := i.cam
  let k : Nat → Fv := vget c.k
  let q := matTVec c.rot (vsub (matTVec i.rot (vsub pw i.pos)) c.trans)
  let z := vget q 2
  if !(Fv.lt (.fin false 1 (-10)) z) then none
  else
    let xn := fdiv (vget q 0) z
    let yn := fdiv (vget q 1) z
    let r2 := fadd (fmul xn xn) (fmul yn yn)
    let poly : Fv → Fv → Fv → Fv := fun a b d => fadd .one (fmul r2 (fadd a (fmul r2 (fadd b (fmul r2 d)))))
    let rad := fdiv (poly (k 0) (k 1) (k 2)) (poly (k 3) (k 4) (k 5))
    let xd := fadd (fadd (fmul xn rad) (fmul (fmul (fmul two c.p1) xn) yn)) (fmul c.p2 (fadd r2 (fmul (fmul two xn) xn)))
    let yd := fadd (fadd (fmul yn rad) (fmul c.p1 (fadd r2 (fmul (fmul two yn) yn)))) (fmul (fmul (fmul two c.p2) xn) yn)
    let half : Fv := .fin false 1 (-1)
    let place : Fv → Fv → Fv → Fv := fun f d o => fsub (fdiv (fadd (fmul f d) o) (Fv.ofNat i.stride)) half
    let fx := place c.fx xd c.cx
    let fy := place c.fy yd c.cy
    let inside : Fv → Nat → Bool := fun x n => Fv.le .zero x && x.lt (Fv.ofInt ((n : Int) - 1))
    if inside fx i.op.desc.d1 && inside fy i.op.desc.d2 then some (fy, fx) else none

/-- Bilinear tap of one channel (R254, R284), with the summary bits of the elements it read, which are widened (R107). -/
def FeatIn.tap (i : FeatIn) (ar : Arith) (core ch : Nat) (fy fx : Fv) : Step × Nat :=
  let r := fy.floor.toNat
  let c := fx.floor.toNat
  let wy := fy.sub (Fv.ofNat r)
  let wx := fx.sub (Fv.ofNat c)
  let at_ : Nat → Nat → Fv := fun r c => i.op.at_ ar 1 core ch c r 0
  let top := Step.fma (.of wx) (.of (fsub (at_ r (c + 1)) (at_ r c))) (.of (at_ r c))
  let bot := Step.fma (.of wx) (.of (fsub (at_ (r + 1) (c + 1)) (at_ (r + 1) c))) (.of (at_ (r + 1) c))
  (Step.fma (.of wy) (fsub bot.1 top.1, bot.2) top,
   orFlags ([(r, c), (r, c + 1), (r + 1, c), (r + 1, c + 1)].map (fun t =>
     let v := i.op.desc.value (i.op.desc.kindOf 1 (i.op.read core)) (i.op.read core) ch t.2 t.1 0
     inFlags v ||| (ar.to32 v).2)))

/-- A cell's channels; its visible inputs, each with its place among the entries and the row and column of its first tap;
whether it took FILL; and input flags. -/
structure CellOut where
  out : List Fv
  visible : List (Nat × Int × Int)
  filled : Bool
  flags : Nat

/-- What a cell adds up: numerators, denominator, visible inputs, input flags. -/
structure CellSum where
  num : List Step
  den : Fv
  visible : List (Nat × Int × Int)
  flags : Nat

def projectCell (ar : Arith) (nc core : Nat) (fill : Fv) (ins : List FeatIn) (pw : List Fv) : CellOut :=
  let z : CellSum := ⟨List.replicate nc (.of .zero), .zero, [], 0⟩
  let a := ((List.range ins.length).zip ins).foldl (fun (a : CellSum) (x : Nat × FeatIn) => match x.2.project pw with
    | none => a
    | some (fy, fx) =>
      let f := (List.range nc).map (fun ch => x.2.tap ar core ch fy fx)
      let c : Step × Nat := if x.2.conf then x.2.tap ar core nc fy fx else (.of .one, 0)
      CellSum.mk ((List.range nc).map (fun ch => Step.fma c.1 (f.getD ch (.of .zero, 0)).1 (a.num.getD ch (.of .zero)))) (fadd a.den c.1.1) (a.visible ++ [(x.1, fy.floor, fx.floor)])
        (a.flags ||| orFlags (f.map (·.2)) ||| c.2)) z
  if a.den.isZero then ⟨List.replicate nc fill, a.visible, true, a.flags⟩
  else
    let out := a.num.map (fun x => Step.mul x (.of (fdiv .one a.den)))
    ⟨out.map (·.1), a.visible, false, a.flags ||| Step.under out⟩

/-! ### GRID_PROJECT (R282 to R286) -/

/-- An entry of GRID_PROJECT (R282). -/
structure GEntry where
  slot : Nat
  kind : Nat
  stride : Nat
  flags : Nat
  seq : Nat
  desc : TDesc
  rsv : Bool

def gridEntry (p : Sys2Proof.Packet) (i : Nat) : GEntry :=
  let o := 64 + 64 * i
  ⟨Packet.fld p o 1, Packet.fld p (o + 1) 1, Packet.fld p (o + 2) 1, Packet.fld p (o + 3) 1, Packet.fld p (o + 4) 4, Packet.desc p (o + 8), Packet.rsvZero p (o + 56) (o + 64)⟩

def GEntry.featOk (e : GEntry) (nc slots : Nat) : Bool :=
  decide (e.slot < slots ∧ e.kind = 0 ∧ 1 ≤ e.stride ∧ e.stride ≤ 32 ∧ e.flags ≤ 1) && e.rsv && e.desc.wellShaped && vectorTakes e.desc.fmt &&
  decide (e.desc.rank = 3 ∧ e.desc.d0 = nc + e.flags)

def GEntry.alignOk (e : GEntry) (vec slots : Nat) : Bool :=
  decide (e.slot < slots ∧ e.kind = 1 ∧ e.stride = 0 ∧ e.flags = 0 ∧ e.seq = 0) && e.rsv && e.desc.wellShaped &&
  decide (e.desc.fmt = 0 ∧ e.desc.rank = 1 ∧ e.desc.loc ≤ 2 ∧ vec ≠ 0 ∧ e.desc.d0 = vec)

/-- A stream-health word (R285). -/
def healthWord (seq lag : Nat) (poseStale dropped extrap stale staleClock arrived : Bool) : Nat :=
  seq * 2 ^ 32 + min lag 0xFFFF * 2 ^ 8 + b2n poseStale * 32 + b2n dropped * 16 + b2n extrap * 8 + b2n stale * 4 + b2n staleClock * 2 + b2n arrived

def lagUs (a b : Nat) : Nat := (if a < b then b - a else a - b) / 1000

/-- SAMPLE_SEQ, capture instant and STALE_CLOCK of a sample in the stamp history (R270). -/
def State.stamp (s : State) (k seq : Nat) : Option (Nat × Nat × Bool) := match s.slot? k with
  | some t => t.history.find? (fun h => decide (h.1 = seq))
  | none => none

/-- The slot dropped samples since the grid's previous update, whatever configuration it had then (R285). -/
def State.dropsSince (s : State) (g : Grid) (k : Nat) : Bool := decide ((g.dropsSeen.get? k).getD 0 < s.dropTotal k)

/-- Everything GRID_PROJECT works from (R283). -/
structure GSnap where
  grid : Grid
  t : Nat
  feats : List (GEntry × Operand × Nat × Bool)
  aligns : List GEntry
  poses : List Timed
  horizon : Nat
  body : Option AtTime

def State.gridFail (s : State) (ctx p : Nat) (q : Partition) (feats aligns : List GEntry) (health n : Nat) : Option Nat :=
  let err : Except Nat Operand → Option Nat := fun r => match r with
    | .error e => some e
    | .ok _ => none
  let readable : GEntry → Bool := fun e => match s.slot? e.slot with
    | some t => decide (t.cfg.readCtx = ctx ∨ t.cfg.readCtx = 0xFFFF)
    | none => true
  ((feats.filterMap (fun e => if readable e then err (s.src ctx p q 1 e.desc) else some St.notPermitted)) ++
   (aligns.filterMap (fun e => if readable e then s.destOk ctx p q e.desc (e.desc.extent (tileKindOf e.desc.fmt)) else some St.notPermitted)) ++
   (if s.t2Refused p q then [St.notPermitted] else if s.t2Freeing ctx health n then [St.notFound] else if !s.t2Mapped ctx health n then [St.badParam]
    else if !s.t2Writable ctx health n then [St.notPermitted] else []) ++
   (feats.filterMap (fun e => if (s.stamp e.slot e.seq).isSome then none else some St.notFound))).head?

/-- Value of an align entry, its health word, and whether it is stale (R285). -/
def State.alignOut (s : State) (g : Grid) (t : Nat) (e : GEntry) : List Fv × Nat :=
  let hz := bits (s.activeWord 3 e.slot 0) 19 16 * s.period
  match (s.slot? e.slot).bind (fun x => x.ready.head?), valueAt false hz t (s.vectorSamples e.slot) with
  | some b, some v =>
    let sc := match s.stamp e.slot b.2.sampleSeq with
      | some h => h.2.2
      | none => false
    (v.v, healthWord b.2.sampleSeq (lagUs t b.2.capture) false (s.dropsSince g e.slot) v.extrap v.stale sc true)
  | _, _ => (List.replicate (s.vecLen e.slot) .zero, healthWord 0 0 false (s.dropsSince g e.slot) false true false false)

/-- Cells of position `j` of `n` (R151, R284). -/
def cellsOf (cells n j : Nat) : List Nat := (List.range (((j + 1) * cells) / n - j * cells / n)).map (fun i => j * cells / n + i)

/-- What a projection does, given its cores. -/
def State.project (s : State) (o : Owner) (ctx p : Nat) (gno : Nat) (ar : Arith) (health : Nat) (cores : List Nat) (k : GSnap) : Work :=
  let g := k.grid
  let cells := g.nx * g.ny * g.nz
  let n := cores.length
  let w : Nat → Fv := fun i => f32 (s.activeWord 4 gno i)
  let bodyV := match k.body with
    | some b => b.v
    | none => []
  let rb := quatMat (bodyV.drop 3)
  let ins := k.feats.map (fun f =>
    let v := match valueAt true k.horizon f.2.2.1 k.poses with
      | some x => x.v
      | none => []
    FeatIn.mk (s.cam f.1.slot) (quatMat (v.drop 3)) (v.take 3) f.2.1 f.1.stride (decide (f.1.flags = 1)))
  let half : Fv := .fin false 1 (-1)
  let j0 : Nat → Nat := fun j => j * cells / n
  let coord : Nat → Nat → Fv := fun i c => fadd (w (i + 1)) (fmul (w 0) ((Fv.ofNat c).add half))
  let cell : Nat → Nat → CellOut := fun core c =>
    let pb := [coord 0 (c % g.nx), coord 1 (c / g.nx % g.ny), coord 2 (c / g.nx / g.ny)]
    projectCell ar g.nc core (w 4) ins (vadd (matVec rb pb) (bodyV.take 3))
  let per : List (Nat × Nat × List (Nat × CellOut)) :=
    (List.range n).map (fun j => (j, cores.getD j 0, if k.feats.isEmpty then [] else (cellsOf cells n j).map (fun c => (c, cell (cores.getD j 0) c))))
  let enc := per.map (fun x => x.2.2.map (fun c => (c.1, encodeRow g.cfmt ar (c.1 * g.nc) c.2.out, c.2)))
  let cellWr := (enc.map (fun l => (l.map (fun c => s.t2Wr ctx (g.dataAddr + c.1 * g.nc) c.2.1.1)).flatten)).flatten
  let exc := orFlags (enc.map (fun l => orFlags (l.map (fun c => c.2.1.2.2 ||| c.2.2.flags))))
  let filled := (enc.map (fun l => (l.filter (fun c => c.2.2.filled)).length)).foldl (· + ·) 0
  let c0 := cores.getD 0 0
  let al := k.aligns.map (fun e => (e, s.alignOut g k.t e))
  let alRows := al.map (fun x => (x.1.desc, (x.1.desc.rowsOut .rne (fun i _ _ _ => vget x.2.1 i) (fun _ => true)).1))
  let alWr := alRows.map (fun x => (x.1.loc, (x.2.map (fun r => s.destWr ctx c0 x.1 r.1 r.2)).flatten))
  let bodyStale := match k.body with
    | some b => b.stale
    | none => true
  let fw := k.feats.map (fun f =>
    let ps := bodyStale || (match valueAt true k.horizon f.2.2.1 k.poses with
      | some x => x.stale
      | none => true)
    healthWord f.1.seq (lagUs k.t f.2.2.1) ps (s.dropsSince g f.1.slot) false false f.2.2.2 true)
  let words := fw ++ al.map (fun x => x.2.2)
  let head := toLe 4 (g.updates + 1) ++ toLe 1 gno ++ toLe 1 k.feats.length ++ toLe 1 k.aligns.length ++ toLe 1 (b2n bodyStale) ++ toLe 8 k.t ++ zeros 48
  let record := head ++ (words.map (toLe 8)).flatten
  let flagged := (words.filter (fun x => bit x 1 || bit x 2 || bit x 5)).length
  let stale := bodyStale || words.any (fun x => bit x 2 || bit x 5)
  let busy := per.filter (fun x => !x.2.2.isEmpty || (decide (x.1 = 0) && !al.isEmpty))
  let vis : List (Nat × CellOut) → Nat := fun l => (l.map (fun c => c.2.visible.length)).foldl (· + ·) 0
  let cyc : List (Nat × CellOut) → Nat := fun l =>
    ceilDiv l.length 64 * (16 + 40 * k.feats.length) + vis l * ceilDiv (5 * g.nc) 64 + ceilDiv (l.length * g.nc) 1024 + 12
  let remote := ((List.range k.feats.length).zip k.feats).filter (fun f => decide (f.2.1.desc.loc ≠ 0))
  let taps : Nat → List (Nat × CellOut) → List (Nat × Int × Int) := fun i l => (l.map (fun c => c.2.visible.filter (fun v => decide (v.1 = i)))).flatten
  let taken : Nat → TDesc → List (Nat × CellOut) → Nat := fun i t l => ceilDiv ((taps i l).length * 4 * t.d0 * elemBits t.fmt) 8
  let gathers := (busy.map (fun x => (remote.map (fun f =>
    let t := f.2.1.desc
    let ds := if t.layout = 1 then ((taps f.1 x.2.2).map (fun v => s.gatherPixels o t 0 v.2.1 v.2.2 2 0)).flatten else s.fetchDescs o 1 t 0 (taken f.1 t x.2.2)
    ds.map (fun d => (x.2.1, d)))).flatten)).flatten
  let walkers := ((k.feats.map (fun f => f.1.desc.walkers)).flatten ++ (k.aligns.map (fun e => e.desc.walkers)).flatten).take 4
  let reads := (k.feats.filter (fun f => decide (f.1.desc.loc = 0))).map (fun f => (f.1.desc.off, f.1.desc.off + f.2.1.need 1 cores, false))
  { status := St.ok, info := if stale then Inf.staleInput else 0, exc := exc,
    result := exc % 2 ^ 16 + busy.length % 256 * 2 ^ 16 + flagged % 256 * 2 ^ 24 + filled % 2 ^ 32 * 2 ^ 32,
    core := ((alWr.filter (fun x => decide (x.1 = 0))).map (·.2)).flatten,
    later := cellWr ++ ((alWr.filter (fun x => decide (x.1 ≠ 0))).map (·.2)).flatten ++ s.t2Wr ctx health record, host := [],
    slots := busy.map (fun x => (x.2.1, opSlot o .vector walkers (cyc x.2.2) (reads ++
      (k.aligns.filter (fun e => decide (e.desc.loc = 0 ∧ x.1 = 0))).map (fun e => (e.desc.off, e.desc.off + e.desc.extent (tileKindOf e.desc.fmt), true))) p)),
    descs := gathers ++ (busy.map (fun x => (descs o 2 2 (g.dataAddr + j0 x.1 * g.nc) (x.2.2.length * g.nc)).map (fun d => (x.2.1, d)))).flatten ++
      ((alRows.map (fun x => resultDescs o x.1 x.2)).flatten ++ descs o 2 2 health record.length).map (fun d => (c0, d)),
    holds := (k.feats.map (fun f => f.2.1.holds)).flatten ++ (k.aligns.map (fun e => match s.slot? e.slot with
      | some t => t.ready.map (fun b => (e.slot, b.1))
      | none => [])).flatten,
    traffic := ((busy.map (fun x => remote.map (fun f => traffic (s.pathLoc f.2.1.desc) (taken f.1 f.2.1.desc x.2.2) false))).flatten ++
      alRows.map (fun x => traffic x.1.loc ((x.2.map (fun r => r.2.length)).foldl (· + ·) 0) true)).foldl Traffic.add
      (traffic 2 ((if k.feats.isEmpty then 0 else cells * g.nc) + record.length) true) }

def gridFields (p : Sys2Proof.Packet) (q : Partition) : Bool :=
  let nin := Packet.fld p 17 1
  let nal := Packet.fld p 18 1
  decide (nin ≤ 16 ∧ nal ≤ 16 ∧ Packet.len p = 1 + nin + nal ∧ Packet.fld p 16 1 ≤ 3) && arithOk (Packet.fld p 19 1) &&
  decide (Packet.fld p 21 1 ≤ 128 ∧ Packet.fld p 20 1 + Packet.fld p 21 1 ≤ q.inService) && timeOk (Packet.fld p 24 8) &&
  decide (Packet.fld p 32 8 % 64 = 0 ∧ Packet.fld p 32 8 < 2 ^ 48) && Packet.rsvZero p 22 24 && Packet.rsvZero p 44 64

/-- The I/O-die buffers that an align entry reads, as views of the slot's READY samples, newest first (R276, R285). -/
def State.alignReads (s : State) (e : GEntry) : List (TDesc × Nat) :=
  (List.range (match s.slot? e.slot with
    | some t => t.ready.length
    | none => 0)).map (fun i => (⟨(0x8000 + 256 * e.slot + i) * 2 ^ 48 + 64, 0, 3, 1, 1, s.vecLen e.slot, 1, 1, 1, 0, 0, 0, 0, 0⟩, 4 * s.vecLen e.slot))

/-- The pose ring as an operand (R281). -/
def Grid.poseRing (g : Grid) : TDesc × Nat := (⟨g.poseAddr, 0, 2, 1, 1, 1024, 1, 1, 1, 0, 0, 0, 0, 0⟩, 4096)

def compGrid : Compute := fun o ctx p q pk s =>
  let nin := Packet.fld pk 17 1
  let nal := Packet.fld pk 18 1
  let gno := Packet.fld pk 16 1
  let n := Packet.fld pk 21 1
  let health := Packet.fld pk 32 8
  let feats := (List.range nin).map (gridEntry pk)
  let aligns := (List.range nal).map (fun i => gridEntry pk (nin + i))
  if !gridFields pk q then .stop St.badParam 0 0
  else match s.gridOf ctx gno with
    | none => .stop St.notFound 0 0
    | some g =>
      if !(feats.all (fun e => e.featOk g.nc (slotCount s.order)) && aligns.all (fun e => e.alignOk (s.vecLen e.slot) (slotCount s.order))) then .stop St.badParam 0 0
      else if s.projecting gno then .wait
      else match s.gridFail ctx p q feats aligns health (64 + 8 * (nin + nal)) with
        | some e => .stop e 0 0
        | none =>
          let poses := s.poses g.ctx g.poseAddr
          if nin ≠ 0 ∧ poses.isEmpty then .stop St.badParam 0 0
          else if n = 0 ∨ nin + nal = 0 ∨ feats.any (fun e => e.desc.isEmpty) then .stop St.ok Inf.zeroWork 0
          else match q.cores (Packet.fld pk 20 1) n with
            | none => .stop St.coreFault 0 0
            | some cores =>
              let ops := feats.filterMap (fun e => match s.src ctx p q 1 e.desc, s.stamp e.slot e.seq with
                | .ok a, some h => some (e, a, h.2.1, h.2.2)
                | _, _ => none)
              if ops.any (fun f => s.windowWaits f.1.desc (s.windowSpan f.1.desc)) then .wait
              else if !ops.all (fun f => f.2.1.headersFit [1, 3] cores) then .headers
              else match ops.findSome? (fun f => s.srcStop ctx p q [1, 3] f.2.1 cores) with
              | some e => .stop e 0 0
              | none =>
                let hz := bits (s.activeWord 4 gno 5) 7 0 * s.period
                let t := Packet.fld pk 24 8
                let w := s.project o ctx p gno (Arith.of (Packet.fld pk 19 1) (Packet.fld pk 40 4)) health cores
                  ⟨g, t, ops, aligns, poses, hz, valueAt true hz t poses⟩
                .run (w.spoilIf s.fresh (s.poisonOf ctx cores (ops.map (fun f => (f.1.desc, f.2.1.need 1 cores)) ++
                  (aligns.map s.alignReads).flatten ++ [g.poseRing])))

/-- The grid has been projected: its update number and the drops it has seen (R285). -/
def State.countUpdate (s : State) (g : Nat) : State :=
  s.setGrid g (fun x => { x with updates := x.updates + 1, dropsSeen := (List.range (slotCount s.order)).map (fun k => (k, s.dropTotal k)) })

def gridProjectBody : Body := fun id c p s =>
  let r := computeBody compGrid id c p s
  match r.2 with
  | .placed _ _ _ _ _ => (r.1.countUpdate (Packet.fld p 16 1), r.2)
  | _ => r

/-- GRID_PROJECT (R282). -/
def execGridProject (p : Sys2Proof.Packet) (s : State) : Host.Outcome State Fault Refusal := .next (runPacket 0x704 gridProjectBody p s)

end Sys2Proof.Machine
end

