-- ==== Sys2Proof/Machine/Solve.lean ====
section
/-! DEFINITION. Batched factorisations and triangular solves: FACTOR and TRI_SOLVE (R291 to R299). Every step is FP32 with one
rounding per FMA, in ascending order of the summed index (R110; log 30). -/

namespace Sys2Proof.Machine

/-! ### Dense algebra over FP32 -/

/-- A matrix as its columns. -/
abbrev Cols := List (List Fv)

def Cols.at_ (m : Cols) (i j : Nat) : Fv := (m.getD j []).getD i .zero

/-- `acc - a * b` with one rounding. -/
def fnma (a b acc : Fv) : Fv := ffma a.neg b acc

/-- The threshold of R294: 2^-e times the largest diagonal magnitude, or 2^-e when that is zero. -/
def tauOf (e : Nat) (diag : List Fv) : Fv :=
  let d := (diag.map Fv.abs).foldl Fv.max .zero
  r32 ((if Fv.lt .zero d then d else .one).scale2 (-(e : Int)))

/-- The pivot rule of R294: the pivot taken, and whether it was replaced. -/
def pivotOf (chol : Bool) (tau p : Fv) : Fv × Bool :=
  if chol then (if Fv.le tau p then (p, false) else (tau, true))
  else if p.abs.lt tau then ((if p.isNeg then tau.neg else tau), true) else (p, false)

/-- A factorisation: its columns, the vector beside it (D, PIV or TAU), and the pivots replaced. -/
structure Factored where
  cols : Cols
  aux : List Fv
  replaced : Nat
deriving DecidableEq, Repr

/-- One column of a Cholesky factorisation (R292). -/
def cholStep (n : Nat) (a : Nat → Nat → Fv) (tau : Fv) (f : Factored) (k : Nat) : Factored :=
  let s : Nat → Fv := fun i => (List.range k).foldl (fun acc t => fnma (f.cols.at_ i t) (f.cols.at_ k t) acc) (a i k)
  let p := pivotOf true tau (s k)
  let d := fsqrt p.1
  ⟨f.cols ++ [(List.range n).map (fun i => if i < k then .zero else if i = k then d else fdiv (s i) d)], [], f.replaced + b2n p.2⟩

/-- One column of L D L^T (R292): the column of L has its unit diagonal, `aux` holds D. -/
def ldlStep (n : Nat) (a : Nat → Nat → Fv) (tau : Fv) (f : Factored) (k : Nat) : Factored :=
  let s : Nat → Fv := fun i => (List.range k).foldl (fun acc t => fnma (f.cols.at_ i t) (fmul (f.cols.at_ k t) (vget f.aux t)) acc) (a i k)
  let p := pivotOf false tau (s k)
  ⟨f.cols ++ [(List.range n).map (fun i => if i < k then .zero else if i = k then .one else fdiv (s i) p.1)], f.aux ++ [p.1], f.replaced + b2n p.2⟩

def swapRows (m : Cols) (i j : Nat) : Cols := m.map (fun c => (c.set i (c.getD j .zero)).set j (c.getD i .zero))

/-- One step of LU with partial pivoting (R292). -/
def luStep (n : Nat) (tau : Fv) (f : Factored) (k : Nat) : Factored :=
  let r := ((List.range (n - k)).map (· + k)).foldl (fun best i => if ((f.cols.at_ best k).abs).below ((f.cols.at_ i k).abs) then i else best) k
  let m := swapRows f.cols k r
  let p := pivotOf false tau (m.at_ k k)
  let l : Nat → Fv := fun i => fdiv (m.at_ i k) p.1
  ⟨(List.range n).map (fun j => (List.range n).map (fun i =>
      if j = k then (if i = k then p.1 else if k < i then l i else m.at_ i k)
      else if k < j ∧ k < i then fnma (l i) (m.at_ k j) (m.at_ i j) else m.at_ i j)),
   f.aux ++ [Fv.ofNat r], f.replaced + b2n p.2⟩

/-- Element `i` of the vector of reflector `k`; element k is 1 (R292). -/
def houseV (m : Cols) (k i : Nat) : Fv := if i < k then .zero else if i = k then .one else m.at_ i k

/-- Apply I - t v v^T of reflector `k` to a column. -/
def houseApply (rows : Nat) (v : Nat → Fv) (t : Fv) (k : Nat) (c : List Fv) : List Fv :=
  let w := fmul t ((List.range (rows - k)).foldl (fun acc i => ffma (v (k + i)) (vget c (k + i)) acc) .zero)
  (List.range rows).map (fun i => if i < k then vget c i else fnma (v i) w (vget c i))

/-- One column of Householder QR (R292). v_k and TAU[k] are those of the reflection; a replaced pivot changes R[k][k] alone. -/
def qrStep (rows n : Nat) (tau : Fv) (f : Factored) (k : Nat) : Factored :=
  let x : Nat → Fv := fun i => f.cols.at_ i k
  let norm := fsqrt ((List.range (rows - k)).foldl (fun acc i => ffma (x (k + i)) (x (k + i)) acc) .zero)
  let beta := if (x k).isNeg then norm else norm.neg
  let p := pivotOf false tau beta
  let d := fsub (x k) beta
  let t := if d.isZero then Fv.zero else fdiv (fsub beta (x k)) beta
  let v : Nat → Fv := fun i => if i = k then .one else if d.isZero then .zero else fdiv (x i) d
  ⟨(List.range n).map (fun j =>
      if j < k then f.cols.getD j []
      else if j = k then (List.range rows).map (fun i => if i < k then x i else if i = k then p.1 else v i)
      else houseApply rows v t k (f.cols.getD j [])),
   f.aux ++ [t], f.replaced + b2n p.2⟩

/-- Factor an M by N matrix of a KIND with threshold tau (R292, R294). -/
def factorMat (kind m n : Nat) (a : Nat → Nat → Fv) (tau : Fv) : Factored :=
  let all : Cols := (List.range n).map (fun j => (List.range m).map (fun i => a i j))
  match kind with
  | 1 => (List.range n).foldl (cholStep n a tau) ⟨[], [], 0⟩
  | 2 => (List.range n).foldl (ldlStep n a tau) ⟨[], [], 0⟩
  | 3 => (List.range n).foldl (luStep n tau) ⟨all, [], 0⟩
  | _ => (List.range n).foldl (qrStep m n tau) ⟨all, [], 0⟩

/-- F as FACTOR stores it: D on the diagonal of L for KIND 2 (R292). -/
def Factored.stored (f : Factored) (kind n : Nat) : Cols :=
  if kind = 2 then (List.range n).map (fun j => (f.cols.getD j []).set j (vget f.aux j)) else f.cols

/-- Lower triangular solve: rows ascending. `t i j` is the matrix; `unit` takes the diagonal as 1. -/
def lowerSolve (n : Nat) (t : Nat → Nat → Fv) (unit : Bool) (b : List Fv) : List Fv :=
  (List.range n).foldl (fun y i =>
    let s := (List.range i).foldl (fun acc j => fnma (t i j) (vget y j) acc) (vget b i)
    y ++ [if unit then s else fdiv s (t i i)]) []

/-- Upper triangular solve: rows descending. -/
def upperSolve (n : Nat) (t : Nat → Nat → Fv) (unit : Bool) (b : List Fv) : List Fv :=
  (List.range n).foldl (fun y r =>
    let i := n - 1 - r
    let s := (List.range r).foldl (fun acc d => fnma (t i (i + 1 + d)) (vget y d) acc) (vget b i)
    (if unit then s else fdiv s (t i i)) :: y) []

/-- Exchange the rows of a right-hand side as PIV says. -/
def permute (piv : List Fv) (b : List Fv) : List Fv :=
  (List.range piv.length).foldl (fun b k =>
    let r := ((vget piv k).nearest).toNat
    (b.set k (vget b r)).set r (vget b k)) b

/-- Solve with a stored factor and its AUX (R292, R297). -/
def solveWith (kind m n : Nat) (f : Cols) (aux b : List Fv) : List Fv :=
  match kind with
  | 1 => upperSolve n (fun i j => f.at_ j i) false (lowerSolve n f.at_ false b)
  | 2 =>
    let y := lowerSolve n f.at_ true b
    upperSolve n (fun i j => f.at_ j i) true ((List.range n).map (fun i => fdiv (vget y i) (f.at_ i i)))
  | 3 => upperSolve n f.at_ false (lowerSolve n f.at_ true (permute (aux.take n) b))
  | _ => upperSolve n f.at_ false (((List.range n).foldl (fun b k => houseApply m (houseV f k) (vget aux k) k b) b).take n)

/-! ### Refinement in FP64 (R110, R295) -/

def dmul (a b : Fv) : Fv := r64 (a.mul b)
def dadd (a b : Fv) : Fv := r64 (a.add b)

def infNorm (v : List Fv) : Fv := (v.map Fv.abs).foldl Fv.max .zero

/-- r = b - A x in FP64. -/
def residual (m n : Nat) (a : Nat → Nat → Fv) (b x : List Fv) : List Fv :=
  (List.range m).map (fun i =>
    r64 ((vget b i).sub ((List.range n).foldl (fun acc j => dadd acc ((a i j).mul (vget x j))) .zero)))

/-- A solve under refinement of one right-hand side. -/
structure Refined where
  x : List Fv
  mstat : Nat
  corrections : Nat
  resid : Fv

/-- Passes of R295. `budget` is how many corrections the deadline leaves; none for no deadline. -/
def refine (kind m n : Nat) (a : Nat → Nat → Fv) (normA : Fv) (f : Cols) (aux : List Fv) (tol : Fv) (b : List Fv) :
    Nat → Option Nat → Nat → List Fv → Refined
  | left, budget, done, x =>
    let r := residual m n a b x
    let scale := dadd (dmul normA (infNorm x)) (infNorm b)
    let rel := r64 ((infNorm r).div scale)
    if Fv.le (infNorm r) (dmul tol scale) then ⟨x, 0, done, rel⟩
    else match left, budget with
      | 0, _ => ⟨x, 1, done, rel⟩
      | _ + 1, some 0 => ⟨x, 2, done, rel⟩
      | l + 1, bud =>
        let c := solveWith kind m n f aux (r.map r32)
        refine kind m n a normA f aux tol b l (bud.map (· - 1)) (done + 1) ((List.range n).map (fun i => fadd (vget x i) (vget c i)))

/-! ### The batch (R293, R296, R298) -/

/-- Where the deadline cuts a batch: matrices finished by each position, and corrections left to the matrix after them.
No deadline, or one not reached, cuts nothing; which is a free value (R41, R43). -/
structure BatchCut where
  reached : Bool
  prefix_ : Nat → Nat
  budget : Nat → Nat

def State.batchCut (s : State) (d : Option Nat) : BatchCut :=
  let r := Sys2Proof.Config.freeNat
  if reachedAt d s.clock.now then ⟨true, fun _ => 0, fun _ => 0⟩
  else if d.isSome && decide (r (s.fresh + 0x100000000) % 2 = 1) then ⟨true, fun j => r (s.fresh + 0x100000001 + 2 * j), fun j => r (s.fresh + 0x100000002 + 2 * j)⟩
  else ⟨false, fun _ => 0, fun _ => 0⟩

/-- What became of one matrix: MSTAT, corrections, replaced pivots, residual, tau, the columns it writes, and what it leaves in
the matrix buffer: in one half, or in both (R131, R299). -/
structure MatOut where
  mstat : Nat
  corrections : Nat
  replaced : Nat
  resid : Fv
  tau : Fv
  f : Cols
  aux : List Fv
  x : Cols
  half : List (List Byte)

/-- The 16-byte info record (R296). -/
def MatOut.record (r : MatOut) : List Byte :=
  toLe 1 r.mstat ++ toLe 1 r.corrections ++ toLe 2 r.replaced ++ toLe 4 (code32 r.resid) ++ toLe 4 (code32 r.tau) ++ zeros 4

/-- Offset of column `j` of matrix `b`; a batch of vectors has one column each. -/
def TDesc.colOff (t : TDesc) (j b : Nat) : Nat := if t.rank = 2 then b * t.s1 else j * t.s1 + b * t.s2

/-- Columns of a matrix of the batch. -/
def TDesc.colCount (t : TDesc) : Nat := if t.rank = 2 then 1 else t.d1

/-- Bytes from the first to the last of matrix `b`. -/
def TDesc.matBytes (t : TDesc) : Nat := if t.isEmpty then 0 else t.colOff (t.colCount - 1) 0 + 4 * t.d0

def Operand.mat (o : Operand) (core b i j : Nat) : Fv := o.at_ .rne 1 core i j b 0
def Operand.colVec (o : Operand) (core b j : Nat) : List Fv := (List.range o.desc.d0).map (fun i => o.mat core b i j)
def Operand.vec2 (o : Operand) (core b : Nat) : List Fv := (List.range o.desc.d0).map (fun i => o.at_ .rne 1 core i b 0 0)

def colBytes (v : List Fv) : List Byte := (v.map (fun x => toLe 4 (code32 x))).flatten

/-- FACTOR's fields (R291). -/
structure BatchJob where
  first : Nat
  n : Nat
  kind : Nat
  flags : Nat
  cap : Nat
  tauExp : Nat
  infoLoc : Nat
  tol : Nat
  deadline : Nat
  infoAddr : Nat

def batchJob (p : Sys2Proof.Packet) : BatchJob :=
  let f := fun (o n : Nat) => Packet.fld p o n
  ⟨f 16 1, f 17 1, f 18 1, f 19 1, f 20 1, f 21 1, f 22 1, f 24 4, f 32 8, f 40 8⟩

/-- Info records as an operand. -/
def BatchJob.infoDesc (j : BatchJob) (batch : Nat) : TDesc := ⟨j.infoAddr, 0, j.infoLoc, 1, 1, 4 * batch, 1, 1, 1, 0, 0, 0, 0, 0⟩

def BatchJob.infoOk (j : BatchJob) : Bool :=
  if j.infoLoc = 255 then decide (j.infoAddr = 0) else decide ((j.infoLoc = 1 ∨ j.infoLoc = 2) ∧ j.infoAddr % 64 = 0) && addrOk j.infoLoc j.infoAddr

/-- FP32, linear, of a rank. -/
def TDesc.lin32 (t : TDesc) (rank : Nat) : Bool := t.wellShaped && decide (t.fmt = 0 ∧ t.layout = 1 ∧ t.rank = rank)

/-- Two operands share no byte. -/
def TDesc.clear (t u : TDesc) : Bool := t.isEmpty || u.isEmpty || !t.meets (t.extent 1) u (u.extent 1)

def pairsClear : List TDesc → Bool
  | [] => true
  | t :: r => r.all t.clear && pairsClear r

/-- The same tensor: LOC, ADDR and strides (R292). -/
def TDesc.same (a b : TDesc) : Bool := decide (a.loc = b.loc ∧ a.addr = b.addr ∧ a.s1 = b.s1 ∧ a.s2 = b.s2)

/-- Engine and port cycles of one matrix (R299). -/
def sumTo (n : Nat) (f : Nat → Nat) : Nat := ((List.range n).map f).foldl (· + ·) 0

def factorCycles (kind m n : Nat) : Nat :=
  let nb := ceilDiv n 16
  let nbr := ceilDiv m 16
  let mk : Nat → Nat := fun k => nb - 1 - k
  if kind ≤ 2 then sumTo nb (fun k => 64 + 16 * mk k + 8 * mk k * (mk k + 1))
  else if kind = 3 then sumTo nb (fun k => 96 * (mk k + 1) + 32 * mk k + 16 * mk k * mk k)
  else sumTo nb (fun k => 80 * (nbr - k) + 32 * (nbr - k) * (nb - 1 - k))

def solveCycles (kind m n rhs : Nat) : Nat :=
  let nb := ceilDiv n 16
  let tri := 16 * nb + 8 * nb * (nb - 1)
  ceilDiv rhs 16 * (if kind ≤ 3 then 2 * tri else if kind = 4 then 32 * sumTo nb (fun k => ceilDiv m 16 - k) + tri else tri)

def portCycles (m n rhs : Nat) : Nat := ceilDiv (4 * (2 * m * n + (m + n) * rhs)) 128

/-- Everything a batch writes for a matrix: F, AUX and X at the places given. -/
structure BatchDest where
  f : Option TDesc
  aux : Option TDesc
  x : Option TDesc

/-- The columns of matrix `b` in each destination. -/
def BatchDest.rows (d : BatchDest) (b : Nat) (r : MatOut) : List (TDesc × List (Nat × List Byte)) :=
  let put : Option TDesc → Cols → List (TDesc × List (Nat × List Byte)) := fun t c => match t with
    | none => []
    | some t => [(t, (List.range c.length).map (fun j => (t.colOff j b, colBytes (c.getD j []))))]
  put d.f r.f ++ put d.x r.x ++ put d.aux [r.aux]

def BatchDest.writes (d : BatchDest) (s : State) (ctx core b : Nat) (r : MatOut) : List Wr :=
  ((d.rows b r).map (fun t => (t.2.map (fun x => s.destWr ctx core t.1 x.1 x.2)).flatten)).flatten

/-- An operand that a batch reads, with the rows that it reads of column `j`: from `lo j` on, below `hi j`. -/
structure BatchRead where
  op : Operand
  lo : Nat → Nat
  hi : Nat → Nat

/-- Bytes of matrix `b` that are read, from the operand's address: one run for each column (R293). -/
def BatchRead.pieces (r : BatchRead) (b : Nat) : List (Nat × Nat) :=
  ((List.range r.op.desc.colCount).map (fun j => (r.op.desc.colOff j b + 4 * r.lo j, 4 * (r.hi j - r.lo j)))).filter (fun x => decide (x.2 ≠ 0))

/-- Matrices of position `j` of `n` (R293). -/
def matricesOf (batch n j : Nat) : List Nat := (List.range batch).filter (fun b => decide (b % max 1 n = j))

/-- What the matrices of a core leave in the two halves, which they take in turn (R131). -/
def halvesLeft (l : List MatOut) : List (List Byte) :=
  ((List.range l.length).zip l).foldl (fun (h : List (List Byte)) x => match x.2.half with
    | [a] => h.set (x.1 % 2) a
    | [a, b] => [a, b]
    | _ => h) [[], []]

/-- The batch over its cores: matrix b on position b mod n, each in ascending b (R293); a matrix that was not started takes no
cycles, and one that the deadline interrupted some of its own (R299). `one` runs a matrix under a budget of
corrections, `three` says what an unfinished matrix leaves behind, whether it was the next one or a later one (R298). -/
def runBatch (s : State) (o : Owner) (ctx p : Nat) (cores : List Nat) (batch : Nat) (job : BatchJob) (refines : Bool) (dest : BatchDest)
    (reads : List BatchRead) (cycles : MatOut → Nat) (one : Nat → Nat → Option Nat → MatOut) (three : Bool → Nat → Nat → MatOut) : Work :=
  let n := cores.length
  let d := s.dueBy o job.deadline
  let cut := s.batchCut d
  let outs := (List.range batch).map (fun b =>
    let j := b % max 1 n
    let place := b / max 1 n
    let k := cut.prefix_ j % (ceilDiv batch (max 1 n) + 1)
    if !cut.reached ∨ place < k then one (cores.getD j 0) b none
    else if place = k ∧ refines ∧ !reachedAt d s.clock.now ∧ cut.budget j % 2 = 1 then one (cores.getD j 0) b (some (cut.budget j / 2 % (64 * 255 + 1)))
    else three (decide (place = k) && !reachedAt d s.clock.now) (cores.getD j 0) b)
  let cost : Nat → MatOut → Nat := fun b r =>
    if r.mstat ≠ 3 then cycles r
    else if r.half.isEmpty then 0 else Sys2Proof.Config.freeNat (s.fresh + 0x300000000 + b) % (cycles r + 1)
  let count : (MatOut → Bool) → Nat := fun f => (outs.filter f).length
  let live := count (fun r => decide (r.mstat ≤ 2))
  let hit := cut.reached && outs.any (fun r => decide (r.mstat = 3 ∨ r.mstat = 2))
  let status := if hit && decide (live = 0) then St.noSolution else if hit then St.deadline
    else if outs.any (fun r => decide (r.mstat = 1)) then St.iterCap else St.ok
  let out : Nat → MatOut := fun b => outs.getD b (three false 0 b)
  let info := if job.infoLoc = 255 then [] else s.destWr ctx 0 (job.infoDesc batch) 0 ((outs.map MatOut.record).flatten)
  let busy := (List.range n).filter (fun j => decide (j < batch))
  let all := (busy.map (fun j => ((matricesOf batch n j).map (fun b => dest.writes s ctx (cores.getD j 0) b (out b))).flatten)).flatten
  let isCore : Wr → Bool := fun w => decide (w.store = .core)
  let dests := [dest.f, dest.aux, dest.x].filterMap id
  let span : TDesc → Bool → Nat → Nat × Nat × Bool := fun t w b => (t.off + t.colOff 0 b, t.off + t.colOff 0 b + t.matBytes, w)
  let ranges : Nat → List (Nat × Nat × Bool) := fun j => ((matricesOf batch n j).map (fun b =>
    ((reads.filter (fun r => decide (r.op.desc.loc = 0))).map (fun r => span r.op.desc false b)) ++
    ((dests.filter (fun t => decide (t.loc = 0))).map (fun t => span t true b)))).flatten
  let descsIn := reads.map (fun r => r.op.desc)
  let remote := descsIn.filter (fun t => decide (t.loc ≠ 0))
  let away := dests.filter (fun t => decide (t.loc ≠ 0))
  { status := status, info := if outs.any (fun r => decide (r.replaced ≠ 0)) then Inf.pivot else 0, exc := 0,
    result := count (fun r => decide (r.mstat ≠ 3)) + 2 ^ 16 * count (fun r => decide (r.replaced ≠ 0)) + 2 ^ 32 * count (fun r => decide (r.mstat = 3)) +
      2 ^ 48 * count (fun r => decide (r.mstat = 1)),
    core := all.filter isCore, later := (all.filter (fun w => !isCore w)) ++ info, host := [],
    slots := busy.map (fun j => (cores.getD j 0, { opSlot o .solve
        (((descsIn ++ dests.filter (fun t => !descsIn.any t.same)).map TDesc.walkers).flatten.take 4)
        (((matricesOf batch n j).map (fun b => cost b (out b))).foldl (· + ·) 24) (ranges j) p with
        halves := halvesLeft ((matricesOf batch n j).map out) })),
    descs := (busy.map (fun j => ((matricesOf batch n j).map (fun b => (remote.map (fun t => s.fetchDescs o 1 t (t.colOff 0 b) t.matBytes)).flatten ++
        ((dest.rows b (out b)).map (fun t => resultDescs o t.1 t.2)).flatten)).flatten.map (fun d => (cores.getD j 0, d)))).flatten ++
      (if job.infoLoc = 255 then [] else (descs o 2 (rlocOf job.infoLoc) job.infoAddr (16 * batch)).map (fun d => (cores.getD 0 0, d))),
    holds := (reads.map (fun r => r.op.holds)).flatten,
    traffic := ((remote.map (fun t => traffic (s.pathLoc t) (batch * t.matBytes) false)) ++ (away.map (fun t => traffic t.loc (batch * t.matBytes) true))).foldl Traffic.add
      (if job.infoLoc = 255 then Traffic.none else traffic job.infoLoc (16 * batch) true),
    ends := if hit then d else none }

/-- Statuses of operands: sources, destinations and info records, in that order. -/
def State.batchFail (s : State) (ctx p : Nat) (q : Partition) (job : BatchJob) (batch : Nat) (reads writes : List TDesc) : Option Nat :=
  ((reads.filterMap (fun t => match s.source ctx p q t (t.extent 1) with
      | .error e => some e
      | .ok _ => none)) ++
   (writes.filterMap (fun t => s.destOk ctx p q t (t.extent 1))) ++
   (if job.infoLoc = 255 then [] else [s.destOk ctx p q (job.infoDesc batch) (16 * batch)].filterMap id)).head?

def Operand.orZero (o : Except Nat Operand) (t : TDesc) : Operand := match o with
  | .ok x => x
  | .error _ => ⟨t, fun _ _ => 0, []⟩

/-- The first poisoned line among the bytes that each core reads of its own matrices (R144, R293). -/
def State.batchPoison (s : State) (ctx : Nat) (cores : List Nat) (batch : Nat) (reads : List BatchRead) : Option (Store × Nat) :=
  if s.stores.poison = [] then none
  else (List.range batch).findSome? (fun b => reads.findSome? (fun r => (r.pieces b).findSome? (fun x =>
    s.poisonHit ctx (cores.getD (b % max 1 cores.length) 0) { r.op.desc with addr := r.op.desc.addr + x.1 } x.2)))

/-- After the field checks of both opcodes: operands, zero work, vacancies, windows, poison; then the batch. -/
def batchAttempt (s : State) (o : Owner) (ctx p : Nat) (q : Partition) (job : BatchJob) (batch : Nat) (empty : Bool)
    (reads : List (TDesc × (Nat → Nat) × (Nat → Nat))) (writes : List TDesc) (run : List BatchRead → List Nat → Work) : Attempt :=
  match s.batchFail ctx p q job batch (reads.map (·.1)) writes with
  | some e => .stop e 0 0
  | none =>
    if job.n = 0 ∨ empty then .stop St.ok Inf.zeroWork 0
    else match q.cores job.first job.n with
      | none => .stop St.coreFault 0 0
      | some cores =>
        if reads.any (fun t => s.windowWaits t.1 (t.1.extent 1)) then .wait
        else
          let rs := reads.map (fun t => BatchRead.mk (Operand.orZero (s.source ctx p q t.1 (t.1.extent 1)) t.1) t.2.1 t.2.2)
          let w := run rs cores
          .run (w.spoilIf s.fresh (if reachedAt (s.dueBy o job.deadline) s.clock.now then none else s.batchPoison ctx cores batch rs))

def nanCols (m n : Nat) : Cols := List.replicate n (List.replicate m .nan)

/-- Free contents of a matrix the deadline interrupted (R298; log 5). -/
def freeCols (seed m n : Nat) : Cols :=
  (List.range n).map (fun j => (List.range m).map (fun i => f32 (Sys2Proof.Config.freeFp32 (seed + 64 * j + i) 0).toNat))

def factorFields (p : Sys2Proof.Packet) (q : Partition) : Bool :=
  let j := batchJob p
  let a := Packet.desc p 64
  let f := Packet.desc p 112
  let aux := Packet.desc p 160
  let b := Packet.desc p 208
  let x := Packet.desc p 256
  let refines := bit j.flags 1
  decide (Packet.len p = 5 ∧ 1 ≤ j.kind ∧ j.kind ≤ 4 ∧ j.flags ≤ 3 ∧ j.n ≤ 128 ∧ j.first + j.n ≤ q.inService ∧ j.tauExp ≤ 126) &&
  (bit j.flags 0 || !refines) && (if refines then decide (1 ≤ j.cap) && tolerance j.tol else decide (j.cap = 0 ∧ j.tol = 0)) &&
  j.infoOk && deadlineOk j.deadline && Packet.rsvZero p 23 24 && Packet.rsvZero p 28 32 && Packet.rsvZero p 48 64 && Packet.rsvZero p 304 320 &&
  a.lin32 3 && f.lin32 3 && decide (a.loc ≤ 2 ∧ f.loc ≤ 2 ∧ a.d0 ≤ 64 ∧ a.d1 ≤ 64 ∧ a.d2 ≤ 4096 ∧ f.d0 = a.d0 ∧ f.d1 = a.d1 ∧ f.d2 = a.d2) &&
  (if j.kind = 4 then decide (a.d1 ≤ a.d0) else decide (a.d0 = a.d1)) &&
  (if 3 ≤ j.kind then aux.lin32 2 && decide (aux.d0 = a.d1 ∧ aux.d1 = a.d2) else aux.unused) &&
  (if bit j.flags 0 then b.lin32 3 && x.lin32 3 && decide (b.d0 = a.d0 ∧ b.d1 ≤ 64 ∧ b.d2 = a.d2 ∧ x.d0 = a.d1 ∧ x.d1 = b.d1 ∧ x.d2 = a.d2)
   else b.unused && x.unused) &&
  ((a.same f && !refines) || a.clear f) && pairsClear [a, aux, b, x] && [aux, b, x].all f.clear

/-- The part of A that a KIND reads: elements, and as the matrix they stand for (R292). -/
def partRead (kind m n : Nat) : List (Nat × Nat) :=
  ((List.range n).map (fun j => ((List.range m).filter (fun i => decide (3 ≤ kind) || decide (j ≤ i))).map (fun i => (i, j)))).flatten

def worst (l : List Refined) : Nat := (l.map (·.mstat)).foldl max 0

/-- What a FACTOR of one matrix works from: its fields and the codes of A and of the right-hand sides. -/
def factorData (job : BatchJob) (m n rhs : Nat) (a b : Operand) (core bi : Nat) : List Nat :=
  [job.kind, job.flags, job.cap, job.tauExp, job.tol, m, n, rhs] ++
    (((List.range n).map (fun j => a.colVec core bi j)) ++ ((List.range rhs).map (fun j => b.colVec core bi j))).flatten.map code32

/-- RESID and TAU of a matrix that was not factored: R296 states +0 without REFINE and nothing else, so they are free values of
the operands (R120; log 84). -/
def freeResid (job : BatchJob) (data : List Nat) : Fv := if bit job.flags 1 then f32 (Sys2Proof.Config.unfactored (0 :: data)).toNat else .zero
def freeTau (data : List Nat) : Fv := f32 (Sys2Proof.Config.unfactored (1 :: data)).toNat

/-- One matrix of FACTOR (R292 to R295). -/
def factorOne (job : BatchJob) (m n rhs : Nat) (a b : Operand) (core bi : Nat) (budget : Option Nat) : MatOut :=
  let refines := bit job.flags 1 && decide (rhs ≠ 0)
  let els := partRead job.kind m n
  let bs := (List.range rhs).map (fun j => b.colVec core bi j)
  if !(els.all (fun e => (a.mat core bi e.1 e.2).isFin) && bs.all (fun c => c.all Fv.isFin)) then
    let data := factorData job m n rhs a b core bi
    ⟨4, 0, 0, freeResid job data, freeTau data, nanCols m n, List.replicate n .nan, nanCols n rhs, [((nanCols m n).map colBytes).flatten]⟩
  else
    let full : Nat → Nat → Fv := fun i j => if job.kind ≤ 2 ∧ i < j then a.mat core bi j i else a.mat core bi i j
    let tau := tauOf (if job.tauExp = 0 then 20 else job.tauExp) ((List.range (min m n)).map (fun i => full i i))
    let f := factorMat job.kind m n full tau
    let st := f.stored job.kind n
    let xs := bs.map (solveWith job.kind m n st f.aux)
    let kept := (st.map colBytes).flatten
    if !refines then ⟨0, 0, f.replaced, .zero, tau, st, f.aux, xs, [kept]⟩
    else
      let rowSum : Nat → Fv := fun i => (List.range n).foldl (fun acc j => dadd acc (full i j).abs) .zero
      let normA := ((List.range m).map rowSum).foldl Fv.max .zero
      let rs := ((List.range rhs).foldl (fun (acc : List Refined × Option Nat) j =>
        let r := refine job.kind m n full normA st f.aux (f32 job.tol) (bs.getD j []) job.cap acc.2 0 (xs.getD j [])
        (acc.1 ++ [r], acc.2.map (fun k => k - r.corrections))) ([], budget)).1
      ⟨worst rs, (rs.map (·.corrections)).foldl max 0, f.replaced, r32 ((rs.map (·.resid)).foldl Fv.max .zero), tau, st, f.aux, rs.map (·.x),
        [((List.range n).map (fun j => colBytes (a.colVec core bi j))).flatten, kept]⟩

def compFactor : Compute := fun o ctx p q pk s =>
  let job := batchJob pk
  let a := Packet.desc pk 64
  let f := Packet.desc pk 112
  let aux := Packet.desc pk 160
  let b := Packet.desc pk 208
  let x := Packet.desc pk 256
  let solve := bit job.flags 0 && decide (b.d1 ≠ 0)
  let m := a.d0
  let n := a.d1
  let rhs := if solve then b.d1 else 0
  if !factorFields pk q then .stop St.badParam 0 0
  else batchAttempt s o ctx p q job a.d2 (a.isEmpty) ([(a, fun j => if job.kind ≤ 2 then j else 0, fun _ => m)] ++ (if solve then [(b, fun _ => 0, fun _ => m)] else []))
    ([f] ++ (if 3 ≤ job.kind then [aux] else []) ++ (if solve then [x] else []))
    (fun rs cores =>
      let oa := (rs.map (·.op)).getD 0 ⟨a, fun _ _ => 0, []⟩
      let ob := (rs.map (·.op)).getD 1 ⟨b, fun _ _ => 0, []⟩
      runBatch s o ctx p cores a.d2 job (bit job.flags 1 && solve)
      ⟨some f, if 3 ≤ job.kind then some aux else none, if solve then some x else none⟩ rs
      (fun r =>
        let c := factorCycles job.kind m n + (if solve then solveCycles job.kind m n rhs else 0)
        if bit job.flags 1 && solve then c + (r.corrections + 1) * (ceilDiv (m * n * rhs) 16 + solveCycles job.kind m n rhs) + portCycles m n rhs
        else max c (portCycles m n rhs))
      (fun core bi bud => factorOne job m n rhs oa ob core bi bud)
      (fun begun core bi => ⟨3, 0, if begun then Sys2Proof.Config.freeNat (s.fresh + 0x200000000 + bi) % (n + 1) else 0,
        freeResid job (factorData job m n rhs oa ob core bi), freeTau (factorData job m n rhs oa ob core bi), freeCols (s.fresh + 16384 * bi) m n, (freeCols (s.fresh + 16384 * bi + 4096) n 1).getD 0 [],
        freeCols (s.fresh + 16384 * bi + 8192) n rhs, if begun then [((freeCols (s.fresh + 16384 * bi + 12288) m n).map colBytes).flatten] else []⟩))

def factorBody : Body := computeBody compFactor

/-- FACTOR (R291). -/
def execFactor (p : Sys2Proof.Packet) (s : State) : Host.Outcome State Fault Refusal := .next (runPacket 0x800 factorBody p s)

/-! ### TRI_SOLVE (R297) -/

def triFields (p : Sys2Proof.Packet) (q : Partition) : Bool :=
  let j := batchJob p
  let f := Packet.desc p 64
  let aux := Packet.desc p 112
  let b := Packet.desc p 160
  let x := Packet.desc p 208
  decide (Packet.len p = 4 ∧ 1 ≤ j.kind ∧ j.kind ≤ 6 ∧ j.flags ≤ 3 ∧ j.n ≤ 128 ∧ j.first + j.n ≤ q.inService) &&
  (decide (5 ≤ j.kind) || decide (j.flags = 0)) && j.infoOk && deadlineOk j.deadline && Packet.rsvZero p 20 22 && Packet.rsvZero p 23 32 &&
  Packet.rsvZero p 48 64 && f.lin32 3 && decide (f.loc ≤ 2 ∧ f.d0 ≤ 64 ∧ f.d1 ≤ 64 ∧ f.d2 ≤ 4096) && (if j.kind = 4 then decide (f.d1 ≤ f.d0) else decide (f.d0 = f.d1)) &&
  (if j.kind = 3 ∨ j.kind = 4 then aux.lin32 2 && decide (aux.d0 = f.d1 ∧ aux.d1 = f.d2) else aux.unused) &&
  b.lin32 3 && x.lin32 3 && decide (b.d0 = f.d0 ∧ b.d1 ≤ 64 ∧ b.d2 = f.d2 ∧ x.d0 = f.d1 ∧ x.d1 = b.d1 ∧ x.d2 = f.d2)

/-- The row of column `j` of F from which a solve of an M by N factor reads, and the row it reads up to (R297). -/
def triRows (job : BatchJob) (m j : Nat) : Nat × Nat :=
  let unit := bit job.flags 1
  match job.kind with
  | 1 | 2 => (j, m)
  | 5 => (if unit then j + 1 else j, m)
  | 6 => (0, if unit then j else j + 1)
  | _ => (0, m)

/-- The diagonal a solve divides by. -/
def dividesBy (job : BatchJob) : Bool := !(decide (5 ≤ job.kind) && bit job.flags 1)

/-- One matrix of TRI_SOLVE (R297): MSTAT 4 for a zero that it divides by, and for non-finite data among what it reads (log 84). -/
def triOne (job : BatchJob) (m n rhs : Nat) (f aux b : Operand) (core bi : Nat) : MatOut :=
  let c : Cols := (List.range n).map (fun j => f.colVec core bi j)
  let av := if job.kind = 3 ∨ job.kind = 4 then aux.vec2 core bi else []
  let unit := bit job.flags 1
  let bs := (List.range rhs).map (fun j => b.colVec core bi j)
  let xs := bs.map (fun v =>
    if job.kind ≤ 4 then solveWith job.kind m n c av v
    else if job.kind = 5 then (if bit job.flags 0 then upperSolve n (fun i j => c.at_ j i) unit v else lowerSolve n c.at_ unit v)
    else if bit job.flags 0 then lowerSolve n (fun i j => c.at_ j i) unit v else upperSolve n c.at_ unit v)
  let zero := dividesBy job && (List.range n).any (fun i => (c.at_ i i).isZero)
  let used := (List.range n).map (fun j => ((c.getD j []).take (triRows job m j).2).drop (triRows job m j).1)
  let odd := !(used.all (fun l => l.all Fv.isFin) && av.all Fv.isFin && bs.all (fun l => l.all Fv.isFin))
  ⟨if zero || odd then 4 else 0, 0, 0, .zero, .zero, [], [], xs, [(c.map colBytes).flatten]⟩

def compTri : Compute := fun o ctx p q pk s =>
  let job := batchJob pk
  let f := Packet.desc pk 64
  let aux := Packet.desc pk 112
  let b := Packet.desc pk 160
  let x := Packet.desc pk 208
  let m := f.d0
  let n := f.d1
  let reads := [(f, fun j => (triRows job m j).1, fun j => (triRows job m j).2), (b, fun _ => 0, fun _ => m)] ++
    (if job.kind = 3 ∨ job.kind = 4 then [(aux, fun _ => 0, fun _ => n)] else [])
  if !triFields pk q then .stop St.badParam 0 0
  else batchAttempt s o ctx p q job f.d2 (f.isEmpty || b.isEmpty) reads [x]
    (fun rs cores => runBatch s o ctx p cores f.d2 job false ⟨none, none, some x⟩ rs
      (fun _ => max (solveCycles job.kind m n b.d1) (portCycles m n b.d1))
      (fun core bi _ => triOne job m n b.d1 ((rs.map (·.op)).getD 0 ⟨f, fun _ _ => 0, []⟩) ((rs.map (·.op)).getD 2 ⟨aux, fun _ _ => 0, []⟩)
        ((rs.map (·.op)).getD 1 ⟨b, fun _ _ => 0, []⟩) core bi)
      (fun begun _ bi => ⟨3, 0, 0, .zero, .zero, [], [], freeCols (s.fresh + 16384 * bi) n b.d1,
        if begun then [((freeCols (s.fresh + 16384 * bi + 12288) m n).map colBytes).flatten] else []⟩))

def triBody : Body := computeBody compTri

/-- TRI_SOLVE (R297). -/
def execTriSolve (p : Sys2Proof.Packet) (s : State) : Host.Outcome State Fault Refusal := .next (runPacket 0x801 triBody p s)

end Sys2Proof.Machine
end

