-- ==== Sys2Proof/Machine/Qp.lean ====
section
/-! DEFINITION. QP channels: QP_SETUP and QP_SOLVE (R300 to R311). -/

namespace Sys2Proof.Machine

/-! ### The problem (R301 to R303) -/

/-- Stage width and rows of a stage group of FORM 1. -/
def Channel.sw (c : Channel) : Nat := c.vars / max 1 c.horizon
def Channel.cw (c : Channel) : Nat := c.cons / max 1 c.horizon

/-- P[i][j]: the lower triangle of FORM 0, or the bands of FORM 1; `p` holds P as given, DIM0 fastest. -/
def Channel.pAt (c : Channel) (i j : Nat) : Fv :=
  if c.form = 0 then f32 (c.p.getD (max i j + c.vars * min i j) 0)
  else
    let s := c.sw
    let at_ : Nat → Nat → Nat → Fv := fun i j k => f32 (c.p.getD (i + s * (j + 2 * s * k)) 0)
    if i / s = j / s then at_ (i % s) (j % s) (i / s)
    else if i / s = j / s + 1 then at_ (i % s) (s + j % s) (j / s)
    else if j / s = i / s + 1 then at_ (j % s) (s + i % s) (i / s)
    else .zero

/-- A[r][j]. -/
def Channel.aAt (c : Channel) (r j : Nat) : Fv :=
  if c.form = 0 then f32 (c.a.getD (r + c.cons * j) 0)
  else
    let s := c.sw
    let k := r / max 1 c.cw
    if j / s = k ∨ j / s = k + 1 then f32 (c.a.getD (r % c.cw + c.cw * ((j - k * s) + 2 * s * k)) 0) else .zero

/-- Columns that row r of A, and row i of P, can hold. -/
def Channel.aCols (c : Channel) (r : Nat) : List Nat :=
  if c.form = 0 then List.range c.vars
  else (List.range c.vars).filter (fun j => decide (j / c.sw = r / max 1 c.cw ∨ j / c.sw = r / max 1 c.cw + 1))

def Channel.aRows (c : Channel) (j : Nat) : List Nat := (List.range c.cons).filter (fun r => (c.aCols r).contains j)

def Channel.pCols (c : Channel) (i : Nat) : List Nat :=
  if c.form = 0 then List.range c.vars
  else (List.range c.vars).filter (fun j => decide (i / c.sw ≤ j / c.sw + 1 ∧ j / c.sw ≤ i / c.sw + 1))

def dotOver (l : List Nat) (f g : Nat → Fv) : Fv := l.foldl (fun acc j => ffma (f j) (g j) acc) .zero

/-- Products in ascending column order (R307). -/
def Channel.mulA (c : Channel) (x : List Fv) : List Fv := (List.range c.cons).map (fun r => dotOver (c.aCols r) (c.aAt r) (vget x))
def Channel.mulAT (c : Channel) (y : List Fv) : List Fv := (List.range c.vars).map (fun j => dotOver (c.aRows j) (fun r => c.aAt r j) (vget y))
def Channel.mulP (c : Channel) (x : List Fv) : List Fv := (List.range c.vars).map (fun i => dotOver (c.pCols i) (c.pAt i) (vget x))

/-- Rows and columns of the arrays whose 16 x 16 blocks the map covers, and how many there are. -/
def Channel.blockDims (c : Channel) : Nat × Nat × Nat := if c.form = 0 then (c.cons, c.vars, 1) else (c.cw, 2 * c.sw, c.horizon)

/-- A block of A as stored holds a nonzero element (R303). -/
def Channel.blockBit (c : Channel) (k br bc : Nat) : Bool :=
  let (m, n, _) := c.blockDims
  (List.range 16).any (fun i => (List.range 16).any (fun j =>
    let r := 16 * br + i
    let q := 16 * bc + j
    decide (r < m ∧ q < n) && !(f32 (c.a.getD (r + m * (q + n * k)) 0)).isZero))

/-- The block map (R303). -/
def Channel.blockMap (c : Channel) : List Byte :=
  let (m, n, k) := c.blockDims
  let bs := ((List.range k).map (fun k => ((List.range (ceilDiv m 16)).map (fun r => (List.range (ceilDiv n 16)).map (fun q => c.blockBit k r q))).flatten)).flatten
  (List.range (ceilDiv bs.length 8)).map (fun i => BitVec.ofNat 8 ((List.range 8).map (fun j => if bs.getD (8 * i + j) false then 2 ^ j else 0) |>.foldl (· + ·) 0))

def Channel.patternCrc (c : Channel) : Nat := crc32 c.blockMap

/-- The structure signature (R303). -/
def Channel.signature (c : Channel) : List Byte :=
  toLe 2 c.vars ++ toLe 2 c.cons ++ toLe 2 c.horizon ++ toLe 1 c.form ++ zeros 1 ++ toLe 4 c.patternCrc ++ zeros 4

/-- W of R302, and the blocks stored. -/
def Channel.blocks (c : Channel) : Nat :=
  if c.form = 0 then
    let nb := ceilDiv c.vars 16
    let mb := ceilDiv c.cons 16
    nb * (nb + 1) + nb * mb
  else
    let sb := ceilDiv c.sw 16
    let cb := ceilDiv c.cw 16
    c.horizon * (4 * sb * sb + 2 * cb * sb)

def Channel.workNeed (c : Channel) : Nat := 1024 * c.blocks + 64 * (c.vars + c.cons)

/-! ### Who may use a channel (R300, R311) -/

/-- An armed job refers to the channel. -/
def State.channelArmed (s : State) (ch : Nat) : Bool := s.sched.jobs.any (fun kv => bit kv.2.qpUse ch)

/-- An earlier operation of the channel is not over: a channel runs one at a time, in dispatch order (R300). -/
def State.channelBusy (s : State) (o : Owner) (ch : Nat) : Bool :=
  s.proto.flights.any (fun f => (f.running || f.parked) && decide ((f.opcode = 0x802 ∨ f.opcode = 0x803) ∧ Packet.fld f.pkt 16 1 = ch) &&
    (match o with
     | .flight id => decide (f.id < id)
     | _ => f.running))

def State.channel (s : State) (ch : Nat) : Channel := (s.apps.channels.get? ch).getD Channel.empty

/-- Permission: the context's partition holds the channel, and no armed job keeps a host packet off it (R300, R311). -/
def State.channelBarred (s : State) (o : Owner) (q : Partition) (ch : Nat) (setup : Bool) : Bool :=
  !bit q.qpMask ch || (match o with
    | .flight _ => s.channelArmed ch && !(setup && !(s.channel ch).ready)
    | _ => false)

/-- Without a partition the context holds no channel (R300): the field checks come first. -/
def qpBody (fields : Sys2Proof.Packet → Bool) (f : Compute) : Body := fun id c p s =>
  if decide (Packet.ctxNo p ≠ 0xFFFF) && (s.partOf (Packet.ctxNo p)).isNone then refuse s (if fields p then St.notPermitted else St.badParam)
  else computeBody f id c p s

/-! ### QP_SETUP (R302) -/

/-- The channel that a QP_SETUP describes, without its data. -/
def setupChannel (p : Sys2Proof.Packet) : Channel :=
  let f := fun (o n : Nat) => Packet.fld p o n
  { Channel.empty with form := f 17 1, vars := f 18 2, cons := f 20 2, horizon := f 22 2, core := f 24 1, workOff := f 28 4, workBytes := f 32 4 }

def qpSetupFields (p : Sys2Proof.Packet) : Bool :=
  let c := setupChannel p
  let pd := Packet.desc p 64
  let ad := Packet.desc p 112
  decide (Packet.len p = 3 ∧ Packet.fld p 16 1 ≤ 7 ∧ c.form ≤ 1 ∧ 1 ≤ c.vars ∧ c.vars ≤ 384 ∧ c.cons ≤ 768) &&
  (if c.form = 0 then decide (c.horizon = 0) && pd.isLinear32 c.vars c.vars 1 && decide (pd.loc ≤ 2) && (if c.cons = 0 then ad.unused else ad.isLinear32 c.cons c.vars 1)
   else decide (2 ≤ c.horizon ∧ c.horizon ≤ 64 ∧ c.vars % c.horizon = 0 ∧ c.cons % c.horizon = 0 ∧ c.sw ≤ 64 ∧ c.cw ≤ 64) &&
     pd.isLinear32 c.sw (2 * c.sw) c.horizon && decide (pd.loc ≤ 2) && (if c.cons = 0 then ad.unused else ad.isLinear32 c.cw (2 * c.sw) c.horizon)) &&
  decide (c.workOff % 4096 = 0 ∧ c.workBytes % 4096 = 0 ∧ c.workOff + c.workBytes ≤ 2097152 ∧ roundUp c.workNeed 4096 ≤ c.workBytes) &&
  Packet.rsvZero p 25 28 && Packet.rsvZero p 36 64 && Packet.rsvZero p 160 192

/-- Every element of an operand as codes, DIM0 fastest. -/
def Operand.codes (o : Operand) (core : Nat) : List Nat := (o.values 1 core).map code32

def compQpSetup : Compute := fun o ctx p q pk s =>
  let ch := Packet.fld pk 16 1
  let c := setupChannel pk
  let ds := [Packet.desc pk 64] ++ (if c.cons = 0 then [] else [Packet.desc pk 112])
  if !qpSetupFields pk || (q.coreAt c.core).isNone then .stop St.badParam 0 0
  else if s.channelBarred o q ch true then .stop St.notPermitted 0 0
  else if s.channelBusy o ch then .wait
  else match (ds.filterMap (fun t => match s.source ctx p q t (t.extent 1) with
      | .error e => some e
      | .ok _ => none)).head?, q.coreAt c.core with
    | some e, _ => .stop e 0 0
    | none, none => .stop St.coreFault 0 0
    | none, some core =>
      if ds.any (fun t => s.windowWaits t (t.extent 1)) then .wait
      else
        let get : Nat → List Nat := fun i => match ds[i]? with
          | some t => (Operand.orZero (s.source ctx p q t (t.extent 1)) t).codes core
          | none => []
        let old := s.channel ch
        let new : Channel := { c with part := p, ready := true, p := get 0, a := get 1, rho := s.activeWord 5 ch 1, factorOk := false,
                                      x := old.x, z := old.z, y := old.y, ax := old.ax, lastSig := old.lastSig }
        let new := { new with sig := new.signature }
        let remote := ds.filter (fun t => decide (t.loc ≠ 0))
        let held := (ds.map (fun t => match s.source ctx p q t (t.extent 1) with
          | .ok x => x.holds
          | .error _ => [])).flatten
        let w : Work :=
          { status := St.ok, info := 0, result := c.workNeed + 2 ^ 32 * new.patternCrc, exc := 0,
            core := [⟨.core, coreKey core c.workOff, freeBytes s.fresh c.workBytes⟩], later := [], host := [],
            slots := [(core, opSlot o .solve (ds.map TDesc.walkers).flatten (16 * c.blocks) ([(c.workOff, c.workOff + c.workBytes, true)] ++
              ((ds.filter (fun t => decide (t.loc = 0))).map (fun t => (t.off, t.off + t.extent 1, false)))) p)],
            descs := ((remote.map (fun t => s.fetchDescs o 1 t 0 (t.extent 1))).flatten).map (fun d => (core, d)),
            holds := held, traffic := (remote.map (fun t => traffic (s.pathLoc t) (t.extent 1) false)).foldl Traffic.add Traffic.none, chan := some (ch, new) }
        .run (w.spoilIf s.fresh (s.poisonOf ctx [core] (ds.map (fun t => (t, t.extent 1)))))

def qpSetupBody : Body := qpBody qpSetupFields compQpSetup

/-- QP_SETUP (R302). -/
def execQpSetup (p : Sys2Proof.Packet) (s : State) : Host.Outcome State Fault Refusal := .next (runPacket 0x802 qpSetupBody p s)

/-! ### The iteration (R306 to R308) -/

/-- Settings active at dispatch (R304). -/
structure QpSet where
  sigma : Fv
  rho0 : Nat
  alpha : Fv
  epsAbs : Fv
  epsRel : Fv
  maxRefactor : Nat
  checkEvery : Nat

/-- The settings of a channel for an operation: those a packet kept from its dispatch while it waited, or those active now. -/
def State.qpSet (s : State) (o : Owner) (ch : Nat) : QpSet :=
  let kept : Option (List Nat) := match o with
    | .flight id => (s.flight? id).bind (fun f => f.words)
    | _ => none
  let w : Nat → Nat := fun i => match kept with
    | some l => l.getD i 0
    | none => s.activeWord 5 ch i
  ⟨f32 (w 0), w 1, f32 (w 2), f32 (w 3), f32 (w 4), bits (w 5) 11 8, bits (w 5) 7 0⟩

/-- A bound problem: the channel with q, l and u. -/
structure QpProb where
  c : Channel
  set : QpSet
  q : List Fv
  l : List Fv
  u : List Fv
  cap : Nat

def clampV (x lo hi : Fv) : Fv := if x.lt lo then lo else if hi.lt x then hi else x

/-- rho_i (R307). -/
def QpProb.rhoAt (k : QpProb) (rho : Fv) (i : Nat) : Fv := if (vget k.l i).eqv (vget k.u i) then fmul rho (Fv.ofNat 1000) else rho

/-- K = P + SIGMA I + A^T diag(rho_i) A. -/
def QpProb.assemble (k : QpProb) (rho : Fv) (i j : Nat) : Fv :=
  let base := if i = j then fadd (k.c.pAt i i) k.set.sigma else k.c.pAt i j
  (k.c.aRows i).foldl (fun acc r => if (k.c.aCols r).contains j then ffma (fmul (k.rhoAt rho r) (k.c.aAt r i)) (k.c.aAt r j) acc else acc) base

/-- A factor of K with the pivots replaced (R294, R307). -/
def QpProb.factor (k : QpProb) (rho : Fv) : Factored :=
  factorMat 2 k.c.vars k.c.vars (k.assemble rho) (tauOf 20 ((List.range k.c.vars).map (fun i => k.assemble rho i i)))

/-- The factor as the channel keeps it: L with D on its diagonal, column by column. -/
def packFactor (f : Factored) (n : Nat) : List Nat := ((f.stored 2 n).map (fun c => c.map code32)).flatten

def Channel.factorCols (c : Channel) : Cols := (List.range c.vars).map (fun j => ((c.factor.drop (j * c.vars)).take c.vars).map f32)

/-- An iterate. -/
structure QpIter where
  x : List Fv
  z : List Fv
  y : List Fv
  ax : List Fv
deriving DecidableEq, Repr

/-- One ADMM iteration (R307). -/
def QpProb.iterate (k : QpProb) (fac : Cols) (rho : Fv) (t : QpIter) : QpIter :=
  let a := k.set.alpha
  let b := fsub .one a
  let m := k.c.cons
  let r : Nat → Fv := k.rhoAt rho
  let atw := k.c.mulAT ((List.range m).map (fun i => ffma (r i) (vget t.z i) (vget t.y i).neg))
  let rhs := (List.range k.c.vars).map (fun i => fadd (ffma k.set.sigma (vget t.x i) (vget k.q i).neg) (vget atw i))
  let xt := solveWith 2 k.c.vars k.c.vars fac [] rhs
  let zt := k.c.mulA xt
  let mix : List Fv → List Fv → Nat → List Fv := fun u v n => (List.range n).map (fun i => ffma a (vget u i) (fmul b (vget v i)))
  let zr := mix zt t.z m
  let zn := (List.range m).map (fun i => clampV (fadd (vget zr i) (fdiv (vget t.y i) (r i))) (vget k.l i) (vget k.u i))
  ⟨mix xt t.x k.c.vars, zn, (List.range m).map (fun i => ffma (r i) (fsub (vget zr i) (vget zn i)) (vget t.y i)), mix zt t.ax m⟩

/-- What a test computes (R307). -/
structure QpTest where
  rp : Fv
  rd : Fv
  ep : Fv
  ed : Fv
  nz : Fv
  nd : Fv

def vsubN (n : Nat) (a b : List Fv) : List Fv := (List.range n).map (fun i => fsub (vget a i) (vget b i))

def QpProb.test (k : QpProb) (t : QpIter) : QpTest :=
  let px := k.c.mulP t.x
  let aty := k.c.mulAT t.y
  let nz := (infNorm t.ax).max (infNorm t.z)
  let nd := ((infNorm px).max (infNorm aty)).max (infNorm k.q)
  ⟨infNorm (vsubN k.c.cons t.ax t.z), infNorm ((List.range k.c.vars).map (fun i => fadd (fadd (vget px i) (vget k.q i)) (vget aty i))),
   ffma k.set.epsRel nz k.set.epsAbs, ffma k.set.epsRel nd k.set.epsAbs, nz, nd⟩

def QpTest.passes (t : QpTest) : Bool := Fv.le t.rp t.ep && Fv.le t.rd t.ed

/-- The new penalty (R307). -/
def QpTest.rhoNew (t : QpTest) (rho : Fv) : Fv :=
  let tiny : Fv := .fin false 1 (-100)
  let a := fdiv t.rp (t.nz.max tiny)
  let b := (fdiv t.rd (t.nd.max tiny)).max tiny
  clampV (fmul rho (fsqrt (fdiv a b))) (f32 0x358637BD) (f32 0x49742400)

/-- Where the deadline comes: before iteration `n`, or during refactorisation `n`, of which a part was done (R308). A free value
among these. -/
inductive QpCut where
  | none
  | before (n : Nat)
  | refactor (n part : Nat)
deriving DecidableEq, Repr

/-- The part done of refactorisation `n`, when the deadline comes in it. -/
def QpCut.inRefactor (c : QpCut) (n : Nat) : Option Nat := match c with
  | .refactor m part => if m = n then some part else Option.none
  | _ => Option.none

/-- Pivots factored when the deadline is seen: it is checked before every block column of 16 pivot columns, in banded form of
each stage (R308). -/
def Channel.cutAt (c : Channel) (part : Nat) : Nat :=
  if c.form = 0 then 16 * (part % max 1 (ceilDiv c.vars 16))
  else part % max 1 c.horizon * c.sw + 16 * (part / max 1 c.horizon % max 1 (ceilDiv c.sw 16))

/-- Pivots that an interrupted factorisation replaced before it was discarded (R308, R309). -/
def QpProb.cutReplaced (k : QpProb) (rho : Fv) (part : Nat) : Nat :=
  let n := min k.c.vars (k.c.cutAt part)
  (factorMat 2 n n (k.assemble rho) (tauOf 20 ((List.range k.c.vars).map (fun i => k.assemble rho i i)))).replaced

/-- The running solve: the factor in use, its iterate, and its counts. -/
structure QpRun where
  it : Nat
  refac : Nat
  tests : Nat
  rho : Fv
  factor : List Nat
  cols : Cols
  iter : QpIter
  replaced : Nat
  cycles : Nat
  last : Option QpTest

/-- Status, the run, and the test whose residuals are reported. -/
structure QpEnd where
  status : Nat
  run : QpRun
  test : QpTest

/-- Cycle costs (R310): assembly and factor, an iteration, a test. -/
def Channel.costs (c : Channel) : Nat × Nat × Nat :=
  let n := c.vars
  let m := c.cons
  let vec := ceilDiv (10 * (n + m)) 64 + 88
  let tail := ceilDiv (4 * (n + m)) 64 + 36
  if c.form = 0 then
    let nb := ceilDiv n 16
    let mb := ceilDiv m 16
    (8 * nb * (nb + 1) * mb + factorCycles 1 n n, 2 * (16 * nb + 8 * nb * (nb - 1)) + 32 * nb * mb + vec, 16 * nb * nb + 16 * nb * mb + tail)
  else
    let sb := ceilDiv c.sw 16
    let cb := ceilDiv c.cw 16
    let k := c.horizon
    (64 * k * sb * sb * cb + k * (factorCycles 1 c.sw c.sw + 16 * sb * sb + 16 * sb * sb * sb),
     2 * k * (16 * sb + 8 * sb * (sb - 1) + 16 * sb * sb) + 64 * k * cb * sb + vec, 48 * k * sb * sb + 32 * k * cb * sb + tail)

/-- Cycles of the product A x0 that a start under WARM 2 makes: half of what an iteration counts for its two products with A (R306,
R310). -/
def Channel.productCost (c : Channel) : Nat :=
  if c.form = 0 then 16 * ceilDiv c.vars 16 * ceilDiv c.cons 16 else 32 * c.horizon * ceilDiv c.cw 16 * ceilDiv c.sw 16

/-- The loop of R307 with at most `fuel` iterations left. -/
def QpProb.loop (k : QpProb) (cut : QpCut) : Nat → QpRun → QpEnd
  | 0, r => ⟨St.iterCap, r, k.test r.iter⟩
  | fuel + 1, r =>
    let (cf, ci, ct) := k.c.costs
    if cut = .before r.it then
      let t := match r.last with
        | some t => t
        | none => k.test r.iter
      ⟨if r.it = 0 then St.noSolution else St.deadline,
        { r with tests := if r.it ≠ 0 ∧ r.last.isNone then r.tests + 1 else r.tests, cycles := if r.last.isNone then r.cycles + ct else r.cycles }, t⟩
    else
      let iter := k.iterate r.cols r.rho r.iter
      let r := { r with it := r.it + 1, iter := iter, cycles := r.cycles + ci, last := none }
      if r.it % max 1 k.set.checkEvery ≠ 0 ∧ r.it ≠ k.cap then k.loop cut fuel r
      else
        let t := k.test iter
        let r := { r with tests := r.tests + 1, cycles := r.cycles + ct, last := some t }
        if t.passes then ⟨St.ok, r, t⟩
        else if r.it = k.cap then ⟨St.iterCap, r, t⟩
        else
          let rn := t.rhoNew r.rho
          if ((fmul (Fv.ofNat 5) r.rho).lt rn || rn.lt (fdiv r.rho (Fv.ofNat 5))) && decide (r.refac < k.set.maxRefactor) then
            match cut.inRefactor r.refac with
            | some part => ⟨St.deadlineInFactor, { r with replaced := r.replaced + k.cutReplaced rn part, cycles := r.cycles + part % (cf + 1) }, t⟩
            | none =>
              let f := k.factor rn
              k.loop cut fuel { r with rho := rn, refac := r.refac + 1, factor := packFactor f k.c.vars, cols := f.stored 2 k.c.vars,
                                       replaced := r.replaced + f.replaced, cycles := r.cycles + cf }
          else k.loop cut fuel r

/-- The solve from its starting iterate (R307, R308): its end, and whether a factor was made at the start. `lead` are the cycles
of its start, `inFirst` the part done of the initial factorisation when the deadline comes in it. -/
def QpProb.solve (k : QpProb) (cut : QpCut) (inFirst : Option Nat) (lead : Nat) (start : QpIter) : QpEnd × Bool :=
  let n := k.c.vars
  let rho := f32 k.c.rho
  let (cf, _, _) := k.c.costs
  if k.c.factorOk then (k.loop cut k.cap ⟨0, 0, 0, rho, k.c.factor, k.c.factorCols, start, 0, lead, none⟩, false)
  else match inFirst with
    | some part => (⟨St.noSolution, ⟨0, 0, 0, rho, [], [], start, k.cutReplaced rho part, lead + part % (cf + 1), none⟩, k.test start⟩, false)
    | none =>
      let f := k.factor rho
      (k.loop cut k.cap ⟨0, 0, 0, rho, packFactor f n, f.stored 2 n, start, f.replaced, lead + cf, none⟩, true)

/-! ### QP_SOLVE (R305, R309) -/

def qpSolveFields (p : Sys2Proof.Packet) : Bool :=
  let warm := Packet.fld p 17 1
  let cap := Packet.fld p 18 2
  let loc := Packet.fld p 20 1
  decide (Packet.len p = 7 ∧ Packet.fld p 16 1 ≤ 7 ∧ warm ≤ 2 ∧ 1 ≤ cap ∧ cap ≤ 10000 ∧ loc ≤ 2) && addrOk loc (Packet.fld p 24 8) &&
  decide (Packet.fld p 24 8 % 64 = 0) && deadlineOk (Packet.fld p 32 8) && (decide (warm = 2) || Packet.rsvZero p 40 56) &&
  Packet.rsvZero p 21 24 && Packet.rsvZero p 56 64 && Packet.rsvZero p 400 448

/-- Shapes of the vectors against the channel (R305). -/
def qpShapes (p : Sys2Proof.Packet) (c : Channel) : Bool :=
  let d : Nat → TDesc := fun o => Packet.desc p o
  let vec : TDesc → Nat → Bool := fun t n => t.lin32 1 && decide (t.loc ≤ 2 ∧ t.d0 = n)
  let opt : TDesc → Bool := fun t => if c.cons = 0 then t.unused else vec t c.cons
  vec (d 64) c.vars && opt (d 112) && opt (d 160) && vec (d 304) c.vars && opt (d 352) &&
  (if Packet.fld p 17 1 = 2 then vec (d 208) c.vars && opt (d 256) else (d 208).unused && (d 256).unused)

def recDesc (p : Sys2Proof.Packet) : TDesc := ⟨Packet.fld p 24 8, 0, Packet.fld p 20 1, 1, 1, 16, 1, 1, 1, 0, 0, 0, 0, 0⟩

/-- The cut of a solve (R308): none without a deadline, the first check when it is reached at dispatch, otherwise free. -/
def State.qpCut (s : State) (d : Option Nat) (cap : Nat) : QpCut × Option Nat :=
  let r := Sys2Proof.Config.freeNat
  let part := r (s.fresh + 0x100000002)
  if reachedAt d s.clock.now then (.before 0, some 0)
  else if d.isNone then (.none, none)
  else
    let v := r (s.fresh + 0x100000001)
    match r (s.fresh + 0x100000000) % 4 with
    | 1 => (.before (v % (cap + 1)), none)
    | 2 => (.refactor (v % 16) part, none)
    | 3 => (.none, some part)
    | _ => (.none, none)

/-- The 64-byte solve record (R309). -/
def solveRecord (e : QpEnd) (k : QpProb) (used reused atStart : Bool) (rho : Fv) (obj : Fv) (cycles : Nat) : List Byte :=
  toLe 4 e.run.it ++ toLe 2 e.run.tests ++ toLe 1 e.run.refac ++ toLe 1 (b2n used + 2 * b2n reused + 4 * b2n atStart) ++
  toLe 4 (code32 e.test.rp) ++ toLe 4 (code32 e.test.rd) ++ toLe 4 (code32 e.test.ep) ++ toLe 4 (code32 e.test.ed) ++ toLe 4 (code32 rho) ++
  toLe 4 (code32 obj) ++ k.c.sig ++ toLe 4 cycles ++ zeros 12

/-- Starting iterate, whether it is warm, and WARM_IGNORED (R306). -/
def qpStart (c : Channel) (warm : Nat) (sig : List Byte) (l u x0 y0 : List Fv) : QpIter × Bool × Bool :=
  let cold : QpIter := ⟨List.replicate c.vars .zero, List.replicate c.cons .zero, List.replicate c.cons .zero, List.replicate c.cons .zero⟩
  if warm = 1 then (if c.lastSig = c.sig then (⟨c.x.map f32, c.z.map f32, c.y.map f32, c.ax.map f32⟩, true, false) else (cold, false, true))
  else if warm = 2 then
    (if sig = c.sig then
      let ax := c.mulA x0
      (⟨x0, (List.range c.cons).map (fun i => clampV (vget ax i) (vget l i) (vget u i)), y0, ax⟩, true, false)
     else (cold, false, true))
  else (cold, false, false)

/-- What the channel holds after a solve (R307, R308). -/
def Channel.after (c : Channel) (e : QpEnd) : Channel :=
  let fac := { c with factor := if e.run.factor.isEmpty then c.factor else e.run.factor, factorOk := c.factorOk || !e.run.factor.isEmpty,
                      rho := code32 e.run.rho }
  if e.status = St.noSolution then fac
  else
    let i := e.run.iter
    { fac with x := i.x.map code32, z := i.z.map code32, y := i.y.map code32, ax := i.ax.map code32, lastSig := c.sig }

def compQpSolve : Compute := fun o ctx p q pk s =>
  let ch := Packet.fld pk 16 1
  let c := s.channel ch
  let warm := Packet.fld pk 17 1
  let cap := Packet.fld pk 18 2
  let d : Nat → TDesc := fun off => Packet.desc pk off
  if !qpSolveFields pk then .stop St.badParam 0 0
  else if s.channelBarred o q ch false then .stop St.notPermitted 0 0
  else if s.channelBusy o ch then .wait
  else if !c.ready then .stop St.notFound 0 0
  else if !qpShapes pk c then .stop St.badParam 0 0
  else
    let reads := [d 64] ++ (if c.cons = 0 then [] else [d 112, d 160]) ++ (if warm = 2 then [d 208] ++ (if c.cons = 0 then [] else [d 256]) else [])
    let writes := [d 304] ++ (if c.cons = 0 then [] else [d 352])
    match ((reads.filterMap (fun t => match s.source ctx p q t (t.extent 1) with
        | .error e => some e
        | .ok _ => none)) ++ ((writes ++ [recDesc pk]).filterMap (fun t => s.destOk ctx p q t (t.extent 1)))).head?, q.coreAt c.core with
    | some e, _ => .stop e 0 0
    | none, none => .stop St.coreFault 0 0
    | none, some core =>
      if reads.any (fun t => s.windowWaits t (t.extent 1)) then .wait
      else
        let get : TDesc → List Fv := fun t => if t.unused then [] else (Operand.orZero (s.source ctx p q t (t.extent 1)) t).values 1 core
        let l := get (d 112)
        let u := get (d 160)
        if (List.range c.cons).any (fun i => (vget l i).isNan || (vget u i).isNan || (vget u i).lt (vget l i)) then .headers
        else
          let k : QpProb := ⟨c, s.qpSet o ch, get (d 64), l, u, cap⟩
          let dl := s.dueBy o (Packet.fld pk 32 8)
          let (cut, inFirst) := s.qpCut dl cap
          let (start, used, ignored) := qpStart c warm (Packet.bytes pk 40 16) l u (get (d 208)) (get (d 256))
          let (e, atStart) := k.solve cut inFirst (600 + (if warm = 2 ∧ used then c.productCost else 0)) start
          let new := c.after e
          let px := c.mulP e.run.iter.x
          let n := c.vars
          let obj := ffma (.fin false 1 (-1)) (dotOver (List.range n) (vget e.run.iter.x) (vget px)) (dotOver (List.range n) (vget k.q) (vget e.run.iter.x))
          let cycles := cyclesOf s.fresh e.run.cycles
          let wr := s.destWr ctx core (d 304) 0 (colBytes e.run.iter.x) ++ (if c.cons = 0 then [] else s.destWr ctx core (d 352) 0 (colBytes e.run.iter.y)) ++
            s.destWr ctx core (recDesc pk) 0 (solveRecord e k used (c.factorOk) atStart (f32 new.rho) obj cycles)
          let isCore : Wr → Bool := fun w => decide (w.store = .core)
          let hit := decide (e.status = St.noSolution ∨ e.status = St.deadline ∨ e.status = St.deadlineInFactor)
          let remote := reads.filter (fun t => decide (t.loc ≠ 0))
          let outs := writes ++ [recDesc pk]
          let away := outs.filter (fun t => decide (t.loc ≠ 0))
          let w : Work :=
            { status := e.status, info := (if ignored then Inf.warmIgnored else 0) ||| (if e.run.replaced ≠ 0 then Inf.pivot else 0), exc := 0,
              result := e.run.it + 2 ^ 32 * (e.run.refac % 256),
              core := [⟨.core, coreKey core c.workOff, freeBytes (s.fresh + 7) c.workBytes⟩] ++ wr.filter isCore, later := wr.filter (fun x => !isCore x), host := [],
              slots := [(core, { opSlot o .solve (((reads ++ writes).map TDesc.walkers).flatten.take 4) cycles ([(c.workOff, c.workOff + c.workBytes, true)] ++
                ((reads.filter (fun t => decide (t.loc = 0))).map (fun t => (t.off, t.off + t.extent 1, false))) ++
                ((outs.filter (fun t => decide (t.loc = 0))).map (fun t => (t.off, t.off + t.extent 1, true)))) p with
                also := [.vector], halves := [freeBytes (s.fresh + 8) 16384, freeBytes (s.fresh + 9) 16384] })],
              descs := ((remote.map (fun t => s.fetchDescs o 1 t 0 (t.extent 1)) ++ away.map (fun t => putDescs o t (t.extent 1))).flatten).map (fun x => (core, x)),
              holds := [], traffic := ((remote.map (fun t => traffic t.loc (t.extent 1) false)) ++ (away.map (fun t => traffic t.loc (t.extent 1) true))).foldl Traffic.add Traffic.none,
              ends := if hit then dl else none, chan := some (ch, new) }
          match s.poisonOf ctx [core] (reads.map (fun t => (t, t.extent 1))),
            s.poisonHit ctx core ⟨c.workOff, 0, 0, 1, 1, c.workBytes / 4, 1, 1, 1, 0, 0, 0, 0, 0⟩ c.workBytes with
          | some x, _ => .run (w.spoil s.fresh x)
          | none, some x => .run { (w.spoil s.fresh x) with chan := some (ch, Channel.empty) }
          | none, none => .run w

def qpSolveBody : Body := qpBody qpSolveFields compQpSolve

/-- QP_SOLVE (R305). -/
def execQpSolve (p : Sys2Proof.Packet) (s : State) : Host.Outcome State Fault Refusal := .next (runPacket 0x803 qpSolveBody p s)

/-- A channel becomes EMPTY (R311). -/
def State.emptyChannel (s : State) (ch : Nat) : State := { s with apps := { s.apps with channels := s.apps.channels.set ch Channel.empty } }

end Sys2Proof.Machine
end

