-- ==== Sys2Proof/Machine/Plan.lean ====
section
/-! DEFINITION. Motion planning (R313 to R333): lattices, map epochs, the search queue unit, searches, the trajectory and
the standing plan. -/

namespace Sys2Proof.Machine

def State.lattice? (s : State) (h : Nat) : Option Lattice := match s.apps.lattices.get? h with
  | some l => if l.unloadNext then none else some l
  | none => none

def State.setLattice (s : State) (h : Nat) (f : Lattice → Lattice) : State :=
  { s with apps := { s.apps with lattices := s.apps.lattices.update h f } }

/-! ### The standing plan (R327, R328) -/

def Lattice.bufBytes (l : Lattice) : Nat := ceilDiv (l.maxSamples * 128) 4096 * 4096

def bufCode (b : Option Nat) : Nat := b.getD 0xFF

/-- The 64-byte plan header (R327). -/
def Lattice.header (l : Lattice) : List Byte :=
  toLe 1 l.pstate ++ toLe 1 (bufCode l.active) ++ toLe 1 (bufCode l.pendingBuf) ++ toLe 1 l.dims ++ toLe 4 l.curIndex ++ toLe 8 l.activeFrame ++
  toLe 4 l.planNo ++ (l.counts.map (toLe 4)).flatten ++ zeros 32

/-- Write the header of a lattice's plan area. -/
def State.writeHeader (s : State) (h : Nat) : State := match s.apps.lattices.get? h with
  | some l => s.apply [⟨.region, regionKey l.region 0, l.header⟩]
  | none => s

def Lattice.emptied (l : Lattice) : Lattice :=
  { l with pstate := 0, active := none, pendingBuf := none, prevActive := none, curIndex := 0, counts := [0, 0, 0], activeFrame := 0, held := false,
           holdNext := false }

/-- The plan becomes EMPTY and the handle is free. -/
def State.unloadLattice (s : State) (h : Nat) : State :=
  let s := (s.setLattice h Lattice.emptied).writeHeader h
  { s with apps := { s.apps with lattices := s.apps.lattices.erase h } }

/-- Velocity and acceleration of a sample read as zero from now on (R331). -/
def State.stillSample (s : State) (l : Lattice) : State := match l.active with
  | none => s
  | some b => s.apply ((List.range l.dims).map (fun d => ⟨.region, regionKey l.region (4096 + b * l.bufBytes + 128 * l.curIndex + 20 + 12 * d), zeros 8⟩))

/-- One plan header at action 4 of the edge that opens frame `fr`: the stop latch holds every plan and keeps pending
buffers; a change of FRAME_CFG holds the active and discards the pending; otherwise a pending buffer becomes active, or
the sample advances, or HOLD_NOW keeps it (R328, R331, R332, R386). -/
def State.stepPlan (s : State) (h fr : Nat) (stop cfg : Bool) : State :=
  match s.apps.lattices.get? h with
  | none => s
  | some l =>
    if l.unloadNext then s.unloadLattice h
    else
      let hold : Lattice := { l with held := true, holdNext := false, prevActive := l.active, pstate := if l.active.isSome then 2 else l.pstate }
      let due := l.pendingBuf.isSome && decide (l.pendingFrame ≤ fr)
      let s := if cfg then (if l.holdNext || stop then s.stillSample l else s).setLattice h (fun _ => { hold with pendingBuf := none, held := l.active.isSome })
        else if stop then (s.stillSample l).setLattice h (fun _ => hold)
        else if due then
          s.setLattice h (fun _ => { l with active := l.pendingBuf, pendingBuf := none, prevActive := l.active, curIndex := 0, activeFrame := fr,
                                            planNo := (l.planNo + 1) % 2 ^ 32, held := false, holdNext := false,
                                            pstate := if l.counts.getD (l.pendingBuf.getD 0) 0 ≤ 1 then 2 else 1 })
        else if l.holdNext then (s.stillSample l).setLattice h (fun _ => hold)
        else match l.active with
          | none => s
          | some b =>
            let i := if l.held then l.curIndex else min (l.curIndex + 1) (l.counts.getD b 0 - 1)
            s.setLattice h (fun _ => { l with curIndex := i, prevActive := l.active, pstate := if l.held ∨ i + 1 = l.counts.getD b 0 then 2 else 1 })
      s.writeHeader h

/-- PLAN_ACTIVATE: every plan header at a frame edge (R35, R328). -/
def State.stepPlans (s : State) (fr : Nat) (stop cfg : Bool) : State :=
  s.apps.lattices.keys.foldl (fun s h => s.stepPlan h fr stop cfg) s

/-! ### Lattice images (R313, R314) -/

def voxelOf (w : Nat) : Int × Int × Int := (signedOf 10 (bits w 9 0), signedOf 10 (bits w 19 10), signedOf 10 (bits w 29 20))

/-- Header of an image. -/
structure LatHead where
  dims : Nat
  nclasses : Nat
  nprim : Nat
  classDim : Nat
  flags : Nat
  vox : Nat
  size : Nat
  classOff : Nat
  primOff : Nat
  voxOff : Nat

def LatHead.of (rd : Reader) : LatHead :=
  ⟨readLe rd 2 1, readLe rd 3 1, readLe rd 4 2, readLe rd 6 1, readLe rd 7 1, readLe rd 8 4, readLe rd 12 4, readLe rd 116 4, readLe rd 120 4, readLe rd 124 4⟩

def minOf (rd : Reader) (d : Nat) : Int := signedOf 16 (readLe rd (16 + 8 * d) 2)
def maxOf (rd : Reader) (d : Nat) : Int := signedOf 16 (readLe rd (18 + 8 * d) 2)

/-- The header obeys R313. -/
def LatHead.ok (h : LatHead) (rd : Reader) : Bool :=
  decide (readLe rd 0 2 = 1 ∧ 3 ≤ h.dims ∧ h.dims ≤ 8 ∧ 1 ≤ h.nclasses ∧ h.nclasses ≤ 64 ∧ 1 ≤ h.nprim ∧ h.nprim ≤ 4096 ∧ h.flags ≤ 1) &&
  (if h.nclasses = 1 then decide (h.classDim = 0xFF) else decide (3 ≤ h.classDim ∧ h.classDim < h.dims)) &&
  (List.range 8).all (fun d =>
    if h.dims ≤ d then decide (readLe rd (16 + 8 * d) 8 = 0 ∧ readLe rd (80 + 4 * d) 4 = 0)
    else decide (minOf rd d ≤ maxOf rd d ∧ readLe rd (20 + 8 * d) 1 ≤ 1 ∧ readLe rd (21 + 8 * d) 3 = 0) &&
      (decide (3 ≤ d) || decide (readLe rd (20 + 8 * d) 1 = 0 ∧ readLe rd (80 + 4 * d) 4 = 0)) &&
      (decide (d ≠ h.classDim) || decide (minOf rd d = 0 ∧ maxOf rd d = (h.nclasses : Int) - 1 ∧ readLe rd (20 + 8 * d) 1 = 1))) &&
  tolerance (readLe rd 112 4) && allZero (readN rd 128 128) &&
  decide (256 ≤ h.classOff ∧ h.classOff + 16 * h.nclasses ≤ h.size ∧ 256 ≤ h.primOff ∧ h.primOff + 32 * h.nprim ≤ h.size ∧
    256 ≤ h.voxOff ∧ h.voxOff + 4 * h.vox ≤ h.size)

/-- A class entry and a primitive entry by their fields. -/
def classAt (h : LatHead) (rd : Reader) (c off n : Nat) : Nat := readLe rd (h.classOff + 16 * c + off) n
def primAt (h : LatHead) (rd : Reader) (i off n : Nat) : Nat := readLe rd (h.primOff + 32 * i + off) n

/-- The tables obey R314. -/
def LatHead.tablesOk (h : LatHead) (rd : Reader) : Bool :=
  (List.range h.nclasses).all (fun c =>
    decide (classAt h rd c 2 2 ≤ 1024 ∧ classAt h rd c 4 2 ≤ 4096 ∧ classAt h rd c 6 2 = 0 ∧ classAt h rd c 12 4 = 0 ∧
      classAt h rd c 0 2 + classAt h rd c 2 2 ≤ h.nprim ∧ classAt h rd c 8 4 + classAt h rd c 4 2 ≤ h.vox) &&
    (List.range (classAt h rd c 2 2)).all (fun k => decide (primAt h rd (classAt h rd c 0 2 + k) 0 1 = c))) &&
  (List.range h.nprim).all (fun i =>
    let c := primAt h rd i 0 1
    decide (c < h.nclasses ∧ classAt h rd c 0 2 ≤ i ∧ i < classAt h rd c 0 2 + classAt h rd c 2 2 ∧ primAt h rd i 1 1 = 0 ∧
      primAt h rd i 2 2 ≤ 4096 ∧ primAt h rd i 28 4 = 0 ∧ primAt h rd i 24 4 + primAt h rd i 2 2 ≤ h.vox) &&
    (List.range (8 - h.dims)).all (fun d => decide (primAt h rd i (8 + 2 * (h.dims + d)) 2 = 0))) &&
  (List.range h.vox).all (fun v => decide (bits (readLe rd (h.voxOff + 4 * v) 4) 31 30 = 0))

def voxList (h : LatHead) (rd : Reader) (first n : Nat) : List (Int × Int × Int) :=
  (List.range n).map (fun k => voxelOf (readLe rd (h.voxOff + 4 * (first + k)) 4))

def LatHead.classes (h : LatHead) (rd : Reader) : List LatClass :=
  (List.range h.nclasses).map (fun c => ⟨classAt h rd c 0 2, classAt h rd c 2 2, voxList h rd (classAt h rd c 8 4) (classAt h rd c 4 2)⟩)

def LatHead.prims (h : LatHead) (rd : Reader) : List Prim :=
  (List.range h.nprim).map (fun i => ⟨primAt h rd i 0 1, primAt h rd i 4 4,
    (List.range h.dims).map (fun d => signedOf 16 (primAt h rd i (8 + 2 * d) 2)), voxList h rd (primAt h rd i 24 4) (primAt h rd i 2 2)⟩)

/-- Bytes of the share of search core `j` (R317). -/
def shareBytes (cs : List LatClass) (ps : List Prim) (ncores j : Nat) : Nat :=
  (cs.map (fun c => ((List.range c.count).map (fun k => if k % ncores = j then 32 + 4 * ((ps[c.first + k]?).map (·.vox.length)).getD 0 else 0)).foldl (· + ·) 0)).foldl
    (· + ·) (if j = 0 then (cs.map (fun c => 16 + 4 * c.foot.length)).foldl (· + ·) 0 else 0)

/-! ### LATTICE_LOAD (R316, R317) -/

def latFields (p : Sys2Proof.Packet) : Bool :=
  let f := fun (o n : Nat) => Packet.fld p o n
  decide (Packet.len p = 1 ∧ f 16 8 % 64 = 0 ∧ f 16 8 < 2 ^ 48 ∧ f 24 1 < 8 ∧ 1 ≤ f 26 1 ∧ f 26 1 ≤ 128 ∧ f 28 4 % 4096 = 0 ∧ f 32 4 % 4096 = 0 ∧
    f 28 4 + f 32 4 ≤ 2097152 ∧ 1 ≤ f 40 2 ∧ f 40 2 ≤ 16384) && Packet.rsvZero p 27 28 && Packet.rsvZero p 42 64

/-- The lattice a checked LATTICE_LOAD describes. -/
def latticeOf (p : Sys2Proof.Packet) (part : Nat) (rd : Reader) : Lattice :=
  let h := LatHead.of rd
  { ctx := Packet.ctxNo p, part := part, cluster := Packet.fld p 24 1, firstCore := Packet.fld p 25 1, ncores := Packet.fld p 26 1, dims := h.dims,
    classDim := h.classDim, outsideFree := bit h.flags 0, mins := (List.range h.dims).map (minOf rd), maxs := (List.range h.dims).map (maxOf rd),
    wraps := (List.range h.dims).map (fun d => decide (readLe rd (20 + 8 * d) 1 = 1)), scales := (List.range h.dims).map (fun d => readLe rd (80 + 4 * d) 4),
    hScale := readLe rd 112 4, classes := h.classes rd, prims := h.prims rd, region := Packet.fld p 36 2, readCtx := Packet.fld p 38 2,
    maxSamples := Packet.fld p 40 2, usable := true, search := none, pstate := 0, active := none, pendingBuf := none, pendingFrame := 0,
    prevActive := none, curIndex := 0, activeFrame := 0, planNo := 0, counts := [0, 0, 0], holdNext := false, held := false, unloadNext := false }

/-- After its fields: the partition, the objects it names, the image, the shares (R316, R317). -/
def State.latStatus (s : State) (p : Sys2Proof.Packet) (n : Nat) (q : Partition) (rd : Reader) : Option Nat :=
  let c := Packet.ctxNo p
  let at_ := Packet.fld p 16 8
  let h := LatHead.of rd
  let l := latticeOf p n rd
  firstFail [(decide (q.inService < Packet.fld p 25 1 + Packet.fld p 26 1) || !q.clusters.contains (Packet.fld p 24 1), St.badParam)]
  |>.orElse (fun _ => match s.regionWrite c (Packet.fld p 36 2) 0 1 with
    | .error e => some e
    | .ok r => if r.size < 4096 + 3 * (ceilDiv (Packet.fld p 40 2 * 128) 4096 * 4096) then some St.badParam else none)
  |>.orElse (fun _ => firstFail
    [(s.t2Refused n q, St.notPermitted), (s.t2Freeing c at_ 256 || s.t2Evicted c at_ 256, St.notFound), (!s.t2Mapped c at_ 256, St.badParam),
     (!h.ok rd || !s.t2Mapped c at_ h.size, St.badParam), (s.t2Freeing c at_ h.size || s.t2Evicted c at_ h.size, St.notFound), (!h.tablesOk rd, St.badParam)])
  |>.orElse (fun _ => firstFail
    [((List.range l.ncores).any (fun j => decide (Packet.fld p 32 4 < shareBytes l.classes l.prims l.ncores j)), St.badParam),
     (decide (32 ≤ (s.apps.lattices.filter (fun kv => !kv.2.unloadNext)).length), St.noResource),
     ((q.cores l.firstCore l.ncores).isNone, St.coreFault), ((s.t2Poison c at_ h.size).isSome, St.memUncorrectable)])

def latticeLoadBody : Body := fun _ _ p s =>
  let c := Packet.ctxNo p
  if c = 0xFFFF then refuse s St.badContext
  else if !latFields p then refuse s St.badParam
  else match s.partOf c with
  | none => refuse s St.badParam
  | some (n, q) =>
    let rd := s.t2Reader c (Packet.fld p 16 8)
    if q.state = 4 then (s, .park)
    else if q.state ≠ 1 then refuse s St.busy
    else match s.latStatus p n q rd, pickFree s.fresh 65536 s.apps.lattices.keys with
      | some e, _ => refuse (if e = St.memUncorrectable then s.rereadT2 c (Packet.fld p 16 8) (LatHead.of rd).size else s) e
      | none, none => refuse s St.noResource
      | none, some h =>
        let l := latticeOf p n rd
        let cores := (q.cores l.firstCore l.ncores).getD []
        if cores.any (s.coreHeld q.cls) then (s, .parkWork)
        else
          let share : Nat → Nat := shareBytes l.classes l.prims l.ncores
          -- how a share is laid out in its core store is not given: free bytes
          let w : List Wr := (List.range cores.length).map (fun j => ⟨.core, coreKey (cores.getD j 0) (Packet.fld p 28 4), freeBytes (s.fresh + j) (share j)⟩)
          let s := (s.apply w).bump.zeroFill .region (regionKey l.region 0) (4096 + 3 * l.bufBytes)
          let s := State.accPart { s with apps := { s.apps with lattices := s.apps.lattices.set h l } } n (fun a => a.move ⟨0, (LatHead.of rd).size, 0, 0⟩)
          (s.writeHeader h, .done St.ok 0 (h + 2 ^ 32 * ((List.range l.ncores).map share).foldl max 0))

/-- LATTICE_LOAD (R316). -/
def execLatticeLoad (p : Sys2Proof.Packet) (s : State) : Host.Outcome State Fault Refusal := .next (runPacket 0x900 latticeLoadBody p s)

/-! ### Searching (R320 to R323) -/

/-- What a search reads: the lattice, the epoch's voxels, the goal and the options. -/
structure Problem where
  lat : Lattice
  occ : Int → Int → Int → Bool
  start : List Int
  goal : List Int
  tol : Nat
  mask : Nat
  cap : Nat
  shortcut : Bool
  origin : List Nat
  voxel : Nat
  limits : List Nat
  /-- The frame period under which a trajectory is sampled (R325). -/
  period : Nat
  /-- Bricks of the map along x, y and z, and the bricks that a core's cache has space for (R322). -/
  bricks : Nat × Nat × Nat
  slots : Nat

/-- Occupancy of a voxel of an epoch; outside the map the lattice says (R315, R318). -/
def State.voxelSet (s : State) (m : VoxMap) (addr : Nat) (outsideFree : Bool) (x y z : Int) : Bool :=
  if x < 0 ∨ y < 0 ∨ z < 0 ∨ 32 * (m.nbx : Int) ≤ x ∨ 32 * (m.nby : Int) ≤ y ∨ 32 * (m.nbz : Int) ≤ z then !outsideFree
  else
    let (x, y, z) := (x.toNat, y.toNat, z.toNat)
    let brick := addr + 4096 * (x / 32 + m.nbx * (y / 32 + m.nby * (z / 32)))
    let i := x % 32 + 32 * (y % 32 + 32 * (z % 32))
    bit (s.t2Reader m.ctx brick (i / 8)).toNat (i % 8)

/-- Coordinate `d` of a state; zero beyond its dimensions. -/
def coord (st : List Int) (d : Nat) : Int := st.getD d 0

def Lattice.classOf (l : Lattice) (st : List Int) : Nat := if l.classDim = 0xFF then 0 else (coord st l.classDim).toNat

/-- Voxels tested in list order up to the first occupied one: how many, and whether one was (R315). -/
def Problem.sweep (k : Problem) (x y z : Int) : List (Int × Int × Int) → Nat × Bool
  | [] => (0, false)
  | v :: r => if k.occ (x + v.1) (y + v.2.1) (z + v.2.2) then (1, true) else
      let t := k.sweep x y z r
      (t.1 + 1, t.2)

/-- The brick that holds a voxel; none outside the map (R318). -/
def Problem.brickAt (k : Problem) (x y z : Int) : Option Nat :=
  let b := k.bricks
  if x < 0 ∨ y < 0 ∨ z < 0 ∨ 32 * (b.1 : Int) ≤ x ∨ 32 * (b.2.1 : Int) ≤ y ∨ 32 * (b.2.2 : Int) ≤ z then none
  else some (x.toNat / 32 + b.1 * (y.toNat / 32 + b.2.1 * (z.toNat / 32)))

def Problem.brickCount (k : Problem) : Nat := k.bricks.1 * k.bricks.2.1 * k.bricks.2.2

/-- The bricks that the first `n` voxels of a list lie in, in order. -/
def Problem.touched (k : Problem) (x y z : Int) (vox : List (Int × Int × Int)) (n : Nat) : List Nat :=
  (vox.take n).filterMap (fun v => k.brickAt (x + v.1) (y + v.2.1) (z + v.2.2))

/-- A use of a brick: it becomes the last used; a missing one takes the slot of the least recently used, which is answered too
(R322). -/
def cacheUse (c : List (Nat × Nat)) (b : Nat) : List (Nat × Nat) × Option Nat :=
  match c.find? (fun e => decide (e.2 = b)), c.getLast? with
  | some e, _ => (e :: c.filter (fun x => decide (x ≠ e)), none)
  | none, some e => ((e.1, b) :: c.dropLast, some e.1)
  | none, none => (c, none)

/-- Bricks used on search core `j`; with the whole epoch in the caches none is ever missing. -/
def Problem.use (k : Problem) (j : Nat) (bs : List Nat) (r : Run) : Run :=
  if k.brickCount ≤ k.slots then r
  else bs.foldl (fun (r : Run) b =>
    let c := cacheUse (r.caches.getD j []) b
    { r with caches := r.caches.set j c.1, got := match c.2 with
        | some i => r.got ++ [(j, i, b)]
        | none => r.got }) r

/-- Successor of a state, or none outside the range (R315). -/
def Lattice.successor (l : Lattice) (st : List Int) (p : Prim) : Option (List Int) :=
  let moved := (List.range l.dims).map (fun d =>
    let lo := l.mins.getD d 0
    let v := coord st d + p.delta.getD d 0
    if l.wraps.getD d false then lo + (v - lo) % (l.maxs.getD d 0 - lo + 1) else v)
  if (List.range l.dims).all (fun d => decide (l.mins.getD d 0 ≤ coord moved d ∧ coord moved d ≤ l.maxs.getD d 0)) then some moved else none

def satSum (a b : Nat) : Nat := satNat 32 (a + b)

/-- u32_rtz of an FP32 value, saturating. -/
def u32Rtz (x : Fv) : Nat := match x with
  | .fin neg m e => if neg then 0 else satNat 32 (roundMag .rtz m e 0)
  | .inf neg => if neg then 0 else 2 ^ 32 - 1
  | .nan => 0

/-- The heuristic, in FP32 with one rounding a step (R322). -/
def Problem.h (k : Problem) (st : List Int) : Nat :=
  let sq : Nat → Fv := fun d =>
    let e := r32 (Fv.ofInt (coord st d - coord k.goal d))
    fmul e e
  u32Rtz (fmul (f32 k.lat.hScale) (fsqrt (fadd (fadd (sq 0) (sq 1)) (sq 2))))

def Problem.isGoal (k : Problem) (st : List Int) : Bool :=
  (List.range 3).all (fun d => decide ((coord st d - coord k.goal d).natAbs ≤ k.tol)) &&
  (List.range k.lat.dims).all (fun d => decide (d < 3) || !bit k.mask d || decide (coord st d = coord k.goal d))

/-- The search queue unit's entries, key and node, in the order pushed (R320). -/
def unitPush (q : List (Nat × Nat)) (key idx : Nat) : List (Nat × Nat) × Bool :=
  if q.length < 65536 then (q ++ [(key, idx)], false)
  else
    let top := (q.map (·.1)).foldl max 0
    if top ≤ key then (q, true)
    else
      let last := (q.length - 1) - (q.reverse.findIdx (fun e => decide (e.1 = top)))
      (q.eraseIdx last ++ [(key, idx)], true)

/-- POP: the smallest key, the earliest pushed among equals (R320). -/
def unitPop (q : List (Nat × Nat)) : Option ((Nat × Nat) × List (Nat × Nat)) :=
  match q with
  | [] => none
  | e :: r =>
    let low := (r.map (·.1)).foldl min e.1
    let i := q.findIdx (fun x => decide (x.1 = low))
    (q[i]?).map (fun x => (x, q.eraseIdx i))

/-- The path to a node: primitive indices from START. -/
def pathTo (nodes : List Node) : Nat → Nat → List Nat
  | 0, _ => []
  | f + 1, i => match (nodes[i]?).bind (·.parent) with
    | some (p, prim) => pathTo nodes f p ++ [prim]
    | none => []

def Run.path (r : Run) (i : Nat) : List Nat := pathTo r.nodes r.nodes.length i

/-! ### Smoothing and time-scaling (R325) -/

/-- States along a path, with the coordinates of wrapping dimensions unwrapped beside them. -/
def Problem.states (k : Problem) : List Int → List Int → List Nat → List (List Int × List Int)
  | st, un, [] => [(st, un)]
  | st, un, i :: r => match k.lat.prims[i]? with
    | some p => (st, un) :: k.states ((k.lat.successor st p).getD st) ((List.range k.lat.dims).map (fun d => coord un d + p.delta.getD d 0)) r
    | none => [(st, un)]

/-- Axis values of a waypoint, FP32 with one rounding a step (R325). -/
def Problem.axis (k : Problem) (un : List Int) (d : Nat) : Nat :=
  if d < 3 then code32 (fadd (f32 (k.origin.getD d 0)) (fmul (r32 ((Fv.ofInt (coord un d)).add (.fin false 1 (-1)))) (f32 k.voxel)))
  else code32 (fmul (Fv.ofInt (coord un d)) (f32 (k.lat.scales.getD d 0)))

/-- What a chain of footprint checks took and met: its cycles, whether it passed, and the bricks it used, in order (R322, R325). -/
structure Checked where
  cycles : Nat
  ok : Bool
  bricks : List Nat

/-- A footprint check of a class at a voxel: 12 cycles and one a voxel tested (R325). -/
def Problem.foot (k : Problem) (cls : Nat) (x y z : Int) : Checked := match k.lat.classes[cls]? with
  | some c =>
    let t := k.sweep x y z c.foot
    ⟨12 + t.1, !t.2, k.touched x y z c.foot t.1⟩
  | none => ⟨12, true, []⟩

/-- Coordinate at step `j` of `n` of a segment; where it falls between two voxels, which of them is a free choice. -/
def segCoord (a b : Int) (j n : Nat) : Int :=
  let t := (b - a) * (j : Int)
  a + t / (n : Int) + (if t % (n : Int) ≠ 0 ∧ Sys2Proof.Config.segmentUp a b j n then 1 else 0)

/-- The steps of a segment, up to the first that is not free. -/
def Problem.segment (k : Problem) (a b : List Int) : Checked :=
  let n := ((List.range 3).map (fun d => (coord b d - coord a d).natAbs)).foldl max 0
  ((List.range n).map (· + 1)).foldl (fun (acc : Checked) j =>
    if acc.ok then
      let at_ : Nat → Int := fun d => segCoord (coord a d) (coord b d) j n
      let t := k.foot (k.lat.classOf a) (at_ 0) (at_ 1) (at_ 2)
      ⟨acc.cycles + t.cycles, t.ok, acc.bricks ++ t.bricks⟩
    else acc) ⟨0, true, []⟩

/-- Waypoints after the shortcut stage, its cycles and the bricks it used (R325 stage 1). -/
def Problem.shorten (k : Problem) : Nat → List (List Int × List Int) → List (List Int × List Int) × Nat × List Nat
  | 0, l => (l, 0, [])
  | _, [] => ([], 0, [])
  | _, [a] => ([a], 0, [])
  | f + 1, a :: r =>
    -- the farthest of the next eight waypoints with a free segment, else the next one
    let tries := ((List.range (min 8 r.length)).reverse).map (fun i => (i, k.segment a.1 ((r[i]?).getD a).1))
    let i := ((tries.find? (fun x => x.2.ok)).map (·.1)).getD 0
    let made := tries.filter (fun x => decide (i ≤ x.1))
    let t := k.shorten f (r.drop i)
    (a :: t.1, (made.map (fun x => x.2.cycles)).sum + t.2.1, (made.map (fun x => x.2.bricks)).flatten ++ t.2.2)

/-- What a trajectory is made from: the axes, the limits, the frame period and the waypoints (R325). -/
def Problem.shape (k : Problem) (way : List (List Int × List Int)) : List Nat :=
  [k.lat.dims, k.lat.maxSamples, k.period, k.voxel] ++ k.origin ++ k.lat.scales ++ k.limits ++
    (way.map (fun x => (List.range k.lat.dims).map (fun d => toBits 64 (coord x.2 d)))).flatten

/-- The bounds of stage 3 on the rate and the second rate of axis `d`, in exact arithmetic: VMAX, AMAX, and TMAX on INERTIA and
DAMP. Stretching time by `c` lowers them: the rates by `c`, the second rates by its square (R325 stages 3 and 4). -/
def Problem.bounded (k : Problem) (c : Fv) (d v a : Nat) : Bool :=
  let lim : Nat → Fv := fun j => f32 (k.limits.getD (6 * d + j) 0)
  let rate := (f32 v).abs.mul c
  let acc := ((f32 a).abs.mul c).mul c
  finiteCode v && finiteCode a && rate.le (lim 0) && acc.le (lim 1) && (((lim 4).mul acc).add ((lim 5).mul rate)).le (lim 3)

/-- `n` samples of a profile: at rest on the end waypoints, where the spline's first and second derivatives are zero; the inner
ones are free values inside the bounds (R325 stages 2 to 4; log 63). -/
def Problem.sampled (k : Problem) (free : Nat → Nat) (c : Fv) (n : Nat) (first last : List Int) : List Sample :=
  (List.range n).map (fun i => (List.range k.lat.dims).map (fun d =>
    let v : Nat → Nat := fun j => free (3 * (8 * i + d) + j) % 2 ^ 32
    if i = 0 then (k.axis first d, 0, 0) else if i + 1 = n then (k.axis last d, 0, 0)
    else (if finiteCode (v 0) then v 0 else k.axis first d, if k.bounded c d (v 1) (v 2) then (v 1, v 2) else (0, 0))))

/-- The largest ratio of jerk to JMAX over the axes: differences of consecutive second rates divided by the period (R325 stage 4). -/
def Problem.jerkRatio (k : Problem) (l : List Sample) : Fv :=
  let sec := fdiv (Fv.ofNat k.period) (Fv.ofNat 1000000000)
  let acc : Sample → Nat → Fv := fun x d => f32 ((x[d]?).map (fun v => v.2.2) |>.getD 0)
  ((l.zip l.tail).map (fun p => ((List.range k.lat.dims).map (fun d =>
    fdiv (fdiv (fsub (acc p.2 d) (acc p.1 d)).abs sec) (f32 (k.limits.getD (6 * d + 2) 0)))).foldl Fv.max .zero)).foldl Fv.max .zero

/-- The integer cube root of a number below 2^105. -/
def cubeRoot (n : Nat) : Nat := (List.range 35).foldl (fun x i => if (x + 2 ^ (34 - i)) ^ 3 ≤ n then x + 2 ^ (34 - i) else x) 0

/-- r^(1/3) of a positive FP32 value, rounded to FP32 (R325 stage 4; log 63). -/
def cbrt32 (x : Fv) : Fv := match x with
  | .fin _ m e =>
    let q := (e - 75) / 3
    r32 (.fin false (cubeRoot (m * 2 ^ (e - 3 * q).toNat)) q)
  | y => y

/-- The smallest integer not below a value. -/
def Fv.ceil (x : Fv) : Int := -(x.neg.floor)

/-- A trajectory over waypoints, whether the jerk limit stretched it, and how many samples were taken in all (R325 stages 2 to 4).
The manual gives no arithmetic for the spline and its time-optimal profile, so how long the motion takes and its inner
samples are free values of what it is made from. A jerk above its limit stretches time by the cube root of the ratio, and the
profile is sampled again (log 63). -/
def Problem.trajectory (k : Problem) (way : List (List Int × List Int)) : List Sample × Bool × Nat :=
  let free := Sys2Proof.Config.trajectory (k.shape way)
  let first := ((way.head?).map (·.2)).getD []
  let last := ((way.getLast?).map (·.2)).getD []
  let n := if way.length ≤ 1 then 1 else 2 + free 0 % (2 * k.lat.maxSamples)
  let raw := k.sampled (fun i => free (1 + 2 * i)) .one n first last
  let r := k.jerkRatio raw
  if Fv.one.lt r then
    let c := cbrt32 r
    let m := 1 + ((Fv.ofNat (n - 1)).mul c).ceil.toNat
    (k.sampled (fun i => free (2 + 2 * i)) c m first last, true, n + m)
  else (raw, false, n)

/-- Voxel position and class of a sample (R325 stage 5). -/
def Problem.place (k : Problem) (x : Sample) : Int × Int × Int × Nat :=
  let pos : Nat → Fv := fun d => f32 ((x[d]?).map (·.1) |>.getD 0)
  let vox : Nat → Int := fun d => (((pos d).sub (f32 (k.origin.getD d 0))).div (f32 k.voxel)).floor
  (vox 0, vox 1, vox 2, if k.lat.classDim = 0xFF then 0 else
    (((pos k.lat.classDim).div (f32 (k.lat.scales.getD k.lat.classDim 0))).nearest % (max 1 k.lat.classes.length : Nat)).toNat)

/-- The footprint check of the samples, of each whose place or class is not that of the last one checked (R325 stage 5). -/
def Problem.check (k : Problem) : Option (Int × Int × Int × Nat) → List Sample → Checked
  | _, [] => ⟨0, true, []⟩
  | prev, x :: r =>
    let at_ := k.place x
    if prev = some at_ then k.check prev r
    else
      let t := k.foot at_.2.2.2 at_.1 at_.2.1 at_.2.2.1
      if t.ok then
        let u := k.check (some at_) r
        ⟨t.cycles + u.cycles, u.ok, t.bricks ++ u.bricks⟩
      else t

/-- Stages 2 to 5 on waypoints: the trajectory, whether stage 5 passes, and the bricks it used. -/
def Problem.profile (k : Problem) (way : List (List Int × List Int)) : Traj × Bool × List Nat :=
  let t := k.trajectory way
  let c := k.check none t.1
  let n := way.length
  (⟨t.1, false, t.2.1, 200 * n + 2048 * (n - 1) + 40 * t.2.2 + c.cycles⟩, c.ok, c.bricks)

/-- smooth_and_scale: the trajectory if it exists, the cycles it took, and the bricks it used (R325). -/
def Problem.smooth (k : Problem) (path : List Nat) : Option Traj × Nat × List Nat :=
  let way := k.states k.start k.start path
  let short := if k.shortcut then k.shorten way.length way else (way, 0, [])
  let one := k.profile short.1
  let again := k.profile way
  let cut := decide (short.1.length < way.length)
  let t : Traj × Bool × Nat × List Nat := if one.2.1 ∨ !cut then (one.1, one.2.1, short.2.1 + one.1.cycles, short.2.2 ++ one.2.2)
    else ({ again.1 with dropped := true }, again.2.1, short.2.1 + one.1.cycles + again.1.cycles, short.2.2 ++ one.2.2 ++ again.2.2)
  (if t.2.1 && decide (t.1.samples.length ≤ k.lat.maxSamples) && decide (path.length ≤ 4096) then some t.1 else none, t.2.2)

/-! ### The loop (R322 to R324) -/

/-- One free successor: a new node, or a better g of an open one. -/
def Problem.record (k : Problem) (n g prim : Nat) (r : Run) (st : List Int) : Run :=
  let put : Run → Nat → Run := fun r i =>
    let q := unitPush r.queue (satSum g (k.h st)) i
    { r with queue := q.1, truncated := r.truncated || q.2, pushes := r.pushes + 1, peak := max r.peak q.1.length }
  match r.nodes.findIdx? (fun x => decide (x.st = st)) with
  | none =>
    if k.cap ≤ r.nodes.length then { r with truncated := true }
    else put { r with nodes := r.nodes ++ [⟨st, g, some (n, prim), false⟩] } r.nodes.length
  | some i => match r.nodes[i]? with
    | some x => if g < x.g ∧ !x.closed then put { r with nodes := r.nodes.set i ⟨st, g, some (n, prim), false⟩ } i else r
    | none => r

/-- Close a node; it is the best when its h, then its g, is smaller than the best's (R324). -/
def Problem.close (k : Problem) (i : Nat) (x : Node) (r : Run) : Run :=
  let h := k.h x.st
  { r with nodes := r.nodes.set i { x with closed := true }, best := match r.best with
      | none => some (i, h, x.g)
      | some b => if h < b.2.1 ∨ (h = b.2.1 ∧ x.g < b.2.2) then some (i, h, x.g) else r.best }

/-- Expand a node: every primitive of its class is tested, and the free successors follow in order (R323). -/
def Problem.expand (k : Problem) (i : Nat) (x : Node) (r : Run) : Run :=
  match k.lat.classes[k.lat.classOf x.st]? with
  | none => r
  | some c =>
    let tested := (List.range c.count).filterMap (fun j => (k.lat.prims[c.first + j]?).map (fun p => (j, p, k.sweep (coord x.st 0) (coord x.st 1) (coord x.st 2) p.vox)))
    let tested := tested.filter (fun t => (k.lat.successor x.st t.2.1).isSome)
    let free := tested.filter (fun t => !t.2.2.2)
    let share : Nat → Nat := fun j => ((tested.filter (fun t => decide (t.1 % k.lat.ncores = j))).map (fun t => 12 + t.2.2.1)).foldl (· + ·) 0
    let r := (List.range k.lat.ncores).foldl (fun r j => k.use j (((tested.filter (fun t => decide (t.1 % k.lat.ncores = j))).map (fun t =>
      k.touched (coord x.st 0) (coord x.st 1) (coord x.st 2) t.2.1.vox t.2.2.1)).flatten) r) r
    let r := { r with expansions := r.expansions + 1, cycles := r.cycles + 40 + ((List.range k.lat.ncores).map share).foldl max 0 + 8 * free.length }
    free.foldl (fun r t => match k.lat.successor x.st t.2.1 with
      | some st => k.record i (satSum x.g t.2.1.cost) (c.first + t.1) r st
      | none => r) r

/-- How a search comes to its end, before any commit. -/
inductive SearchEnd where
  | noPath
  | cut
  | found (node : Nat) (t : Traj)

/-- The loop with at most `fuel` pops; `cut` is the deadline check that stops it, if one does. -/
def Problem.loop (k : Problem) (cut : Option Nat) : Nat → Run → Run × SearchEnd
  | 0, r => (r, .noPath)
  | fuel + 1, r =>
    if cut = some r.checks then (r, .cut)
    else
      let r := { r with checks := r.checks + 1 }
      match unitPop r.queue with
      | none => (r, .noPath)
      | some ((key, i), q) =>
        let r := { r with queue := q }
        match r.nodes[i]? with
        | none => k.loop cut fuel r
        | some x =>
          if x.closed ∨ satSum x.g (k.h x.st) < key then k.loop cut fuel r
          else if k.isGoal x.st then
            -- five checks stand between the stages and before the commit
            let inside := match cut with
              | some c => decide (r.checks ≤ c ∧ c < r.checks + 5)
              | none => false
            if inside then (r, .cut)
            else
              let t := k.smooth (r.path i)
              let r := k.use 0 t.2.2 { r with checks := r.checks + 5, smooth := r.smooth + t.2.1 }
              match t.1 with
              | some t => ({ r with dropped := t.dropped, stretched := t.stretched }, .found i t)
              | none => k.loop cut fuel (k.close i x { r with rejected := r.rejected + 1 })
          else k.loop cut fuel (k.expand i x (k.close i x r))

def Problem.begin_ (k : Problem) : Run :=
  ⟨[⟨k.start, 0, none, false⟩], [(k.h k.start, 0)], none, false, false, false, 0, 0, 1, 1, 0, 0, 0,
    List.replicate k.lat.ncores ((List.range (min k.slots k.brickCount)).reverse.map (fun b => (b, b))), []⟩

def Problem.search (k : Problem) (cut : Option Nat) : Run × SearchEnd := k.loop cut (2 + 1024 * k.cap) k.begin_

/-! ### PLAN_SEARCH (R321, R324, R326, R330) -/

def packetState (p : Sys2Proof.Packet) (off dims : Nat) : List Int := (List.range dims).map (fun d => signedOf 16 (Packet.fld p (off + 2 * d) 2))

/-- LIMITS as the core at search position 0 reads them (R321). -/
def State.limitsOf (s : State) (c n : Nat) (q : Partition) (l : Lattice) (p : Sys2Proof.Packet) : Except Nat (List Nat) :=
  let t := Packet.desc p 96
  match s.source c n q t (t.extent 1), q.coreAt l.firstCore with
  | .error e, _ => .error e
  | .ok _, none => .error St.coreFault
  | .ok o, some core => .ok (o.codes core)

def limitsOk (dims : Nat) (v : List Nat) : Bool :=
  (List.range dims).all (fun d => (List.range 6).all (fun j => if j < 4 then positiveCode (v.getD (6 * d + j) 0) else tolerance (v.getD (6 * d + j) 0)))

def searchFields (p : Sys2Proof.Packet) : Bool :=
  let f := fun (o n : Nat) => Packet.fld p o n
  decide (Packet.len p = 3 ∧ f 18 1 < 8 ∧ f 19 1 < 4 ∧ f 22 1 % 8 = 0 ∧ f 68 4 % 4096 = 0 ∧ f 72 4 % 4096 = 0 ∧ 4096 ≤ f 72 4 ∧
    f 68 4 + f 72 4 ≤ 2097152 ∧ f 80 8 % 64 = 0) && deadlineOk (f 24 8) && Packet.rsvZero p 23 24 && Packet.rsvZero p 66 68 &&
  Packet.rsvZero p 76 80 && Packet.rsvZero p 88 96 && Packet.rsvZero p 144 192

def Lattice.inRange (l : Lattice) (st : List Int) : Bool :=
  (List.range l.dims).all (fun d => decide (l.mins.getD d 0 ≤ coord st d ∧ coord st d ≤ l.maxs.getD d 0))

/-- After the fields: lattice, map, node table, record, LIMITS, partition (R321, R324, R330, R333). -/
def State.searchStatus (s : State) (p : Sys2Proof.Packet) (n : Nat) (q : Partition) : Option Nat :=
  let c := Packet.ctxNo p
  match s.lattice? (Packet.fld p 16 2), s.apps.maps.get? (Packet.fld p 18 1) with
  | none, _ => some St.notFound
  | some l, m => firstFail
      [(decide (l.ctx ≠ c ∨ l.part ≠ n), St.notPermitted), (m.isNone, St.notFound),
       (match m with
        | some x => decide (x.ctx ≠ c ∧ x.readCtx ≠ c ∧ x.readCtx ≠ 0xFFFF)
        | none => false, St.notPermitted)]
    |>.orElse (fun _ => match s.regionWrite c (Packet.fld p 64 2) 0 1 with
      | .error e => some e
      | .ok r => if r.size < 80 ∨ r.cluster ≠ l.cluster then some St.badParam else none)
    |>.orElse (fun _ => firstFail
      [(!s.t2Within c (Packet.fld p 80 8) 8256, St.badParam), (s.t2Freeing c (Packet.fld p 80 8) 8256, St.notFound), (s.t2Refused n q, St.notPermitted),
       (!(Packet.desc p 96).isLinear32 6 l.dims 1 || decide ((Packet.desc p 96).rank ≠ 2) || !l.inRange (packetState p 32 l.dims), St.badParam),
       (!l.usable || (q.cores l.firstCore l.ncores).isNone, St.coreFault)])
    |>.orElse (fun _ => match s.limitsOf c n q l p with
      | .error e => some e
      | .ok v => if limitsOk l.dims v then none else some St.badParam)

/-- The problem of a search against the epoch at `addr`. -/
def State.problem (s : State) (l : Lattice) (m : VoxMap) (addr : Nat) (p : Sys2Proof.Packet) (limits : List Nat) : Problem :=
  { lat := l, occ := s.voxelSet m addr l.outsideFree, start := packetState p 32 l.dims, goal := packetState p 48 l.dims, tol := Packet.fld p 20 2,
    mask := Packet.fld p 22 1, cap := ((s.tiers.regions.get? (Packet.fld p 64 2)).map (·.size)).getD 0 / 40, shortcut := bit (Packet.fld p 19 1) 0,
    origin := m.origin, voxel := m.voxel, limits := limits, period := s.period,
    bricks := (m.nbx, m.nby, m.nbz), slots := Packet.fld p 72 4 / 4096 }

/-- Bytes of an epoch (R318). -/
def VoxMap.epochBytes (m : VoxMap) : Nat := 4096 * (m.nbx * m.nby * m.nbz)

def VoxMap.epoch? (m : VoxMap) (e : Nat) : Option Epoch := m.epochs.find? (fun x => decide (x.number = e))

/-- The problem a lattice's search in flight works on. -/
def State.problemOf (s : State) (l : Lattice) (x : Search) : Option (Problem × VoxMap) :=
  match s.flight? x.flight, s.apps.maps.get? x.map with
  | some f, some m => (m.epoch? x.epoch).map (fun e => (s.problem l m e.addr f.pkt x.limits, m))
  | _, _ => none

/-- The search record (R330). -/
def searchRecord (k : Problem) (r : Run) (status epoch recheck node samples frame : Nat) : List Byte :=
  let x := (r.nodes[node]?).getD ⟨k.start, 0, none, false⟩
  let path := (r.path node).take 4096
  toLe 2 status ++ toLe 1 (b2n r.truncated + 2 * b2n r.dropped + 4 * b2n r.stretched) ++ toLe 1 0 ++ toLe 4 epoch ++ toLe 4 recheck ++
  toLe 4 r.expansions ++ toLe 4 r.pushes ++ toLe 4 r.peak ++ toLe 2 r.rejected ++ toLe 2 path.length ++ toLe 4 samples ++
  ((List.range 8).map (fun d => toLe 2 (toBits 16 (coord x.st d)))).flatten ++ toLe 4 x.g ++ toLe 4 (k.h x.st) ++ toLe 8 frame ++
  (path.map (toLe 2)).flatten

/-- The 128 bytes of a plan sample (R327). -/
def sampleBytes (time frame : Nat) (x : Sample) : List Byte :=
  let body := toLe 8 time ++ toLe 8 frame ++ (x.map (fun v => toLe 4 v.1 ++ toLe 4 v.2.1 ++ toLe 4 v.2.2)).flatten
  body ++ zeros (128 - body.length)

/-- Robot time of the edge that opens frame `fr`. -/
def State.edgeOf (s : State) (fr : Nat) : Nat := s.clock.nextEdge + (fr - s.clock.nextFrame) * s.period

/-- The samples go to the buffer that is neither active nor was active in the frame before, or rewrite the pending one;
it becomes pending for the next edge at least 5 us away (R326, R328; log 4). -/
def State.commitPlan (s : State) (h : Nat) (l : Lattice) (t : Traj) : State :=
  let b := match l.pendingBuf with
    | some b => b
    | none => (pickFree s.fresh 3 ([l.active, l.prevActive].filterMap id)).getD 0
  let fr := s.dueFrame
  let ws : List Wr := (List.range t.samples.length).map (fun k =>
    ⟨.region, regionKey l.region (4096 + b * l.bufBytes + 128 * k), sampleBytes (s.edgeOf (fr + k)) (fr + k) (t.samples.getD k [])⟩)
  ((s.apply ws).bump.setLattice h (fun l => { l with pendingBuf := some b, pendingFrame := fr, counts := l.counts.set b t.samples.length })).writeHeader h

/-- The unit and the node table as the search leaves them; how a node is laid out is not given (log 5). -/
def State.leaveRun (s : State) (l : Lattice) (p : Sys2Proof.Packet) (r : Run) : State :=
  (State.apply { s with apps := { s.apps with units := s.apps.units.set l.cluster r.queue } }
    [⟨.region, regionKey (Packet.fld p 64 2) 0, freeBytes s.fresh (40 * r.nodes.length)⟩]).bump

/-- The first poisoned line of some bricks of an epoch. -/
def State.bricksLost (s : State) (m : VoxMap) (addr : Nat) (bs : List Nat) : Option (Store × Nat) :=
  if s.stores.poison = [] then none
  else (bs.findSome? (fun b => s.t2Poison m.ctx (addr + 4096 * b) 4096)).map (fun a => (.tier2, a))

/-- Write the record of a search and complete it (R324, R330). -/
def State.recordSearch (s : State) (l : Lattice) (x : Search) (p : Sys2Proof.Packet) (k : Problem) (r : Run) (status recheck node samples frame result : Nat) : State :=
  ((s.apply (s.t2Wr l.ctx (Packet.fld p 80 8) (searchRecord k r status x.epoch recheck node samples frame))).releaseOwner (.flight x.flight)).finish
    x.flight status 0 result

/-- A search ends without a plan: its record has the best partial node (R324). -/
def State.failSearch (s : State) (l : Lattice) (x : Search) (p : Sys2Proof.Packet) (k : Problem) (r : Run) (status recheck : Nat) : State :=
  s.recordSearch l x p k r status recheck ((r.best.map (·.1)).getD 0) 0 0 0

/-- The samples stand: they become the pending plan, unless NO_COMMIT is set, and the search completes OK (R326). -/
def State.landSearch (s : State) (h : Nat) (l : Lattice) (x : Search) (p : Sys2Proof.Packet) (k : Problem) (r : Run) (node : Nat) (t : Traj) (recheck : Nat) : State :=
  let commit := !bit (Packet.fld p 19 1) 1
  let fr := if commit then s.dueFrame else 0
  let s := if commit then s.commitPlan h l t else s
  s.recordSearch l x p k r St.ok recheck node t.samples.length fr
    (r.expansions % 2 ^ 32 + 2 ^ 32 * (r.path node).length + 2 ^ 48 * t.samples.length)

/-- A search that has found a plan releases its pin, and on search core 0 repeats stage 5 against the current epoch, fetching its
bricks (R326). -/
def State.enterCommit (s : State) (h : Nat) (l : Lattice) (x : Search) (k : Problem) (e : Epoch) (c : PlanCommit) : State :=
  let s := (s.releaseOwner (.flight x.flight)).setLattice h (fun l => { l with search := some { x with commit := some c } })
  match (s.sched.partitions.get? l.part).bind (fun q => q.coreAt l.firstCore), s.flight? x.flight with
  | some core, some f =>
    let t := k.check none c.traj.samples
    let bs := t.bricks.eraseDups
    let at_ := Packet.fld f.pkt 68 4
    s.beginWork (.flight x.flight) l.part
      { status := St.ok, info := 0, result := 0, exc := 0, core := [], later := [], host := [],
        slots := [(core, opSlot (.flight x.flight) .vector [] (cyclesOf s.fresh t.cycles) [(at_, at_ + Packet.fld f.pkt 72 4, true)] l.part)],
        descs := (((List.range bs.length).zip bs).map (fun b =>
          (descs (.flight x.flight) 1 2 (e.addr + 4096 * b.2) 4096 (at_ + 4096 * (b.1 % max 1 k.slots))).map (fun d => (core, { d with notify := true })))).flatten,
        holds := [], traffic := ⟨0, 4096 * bs.length, 0, 0⟩ }
  | _, _ => s

/-- A search in its commit comes to its end: with a status that stops it, or by the outcome of the re-check (R324, R326). -/
def State.endCommit (s : State) (h : Nat) (l : Lattice) (x : Search) (c : PlanCommit) (status : Option Nat) : State :=
  match s.flight? x.flight, (s.apps.maps.get? x.map).bind (fun m => (m.epoch? c.epoch).map (fun e => (m, e))) with
  | some f, some (m, e) =>
    let k := s.problem l m e.addr f.pkt x.limits
    let t := k.check none c.traj.samples
    let lost := if status.isNone then s.bricksLost m e.addr t.bricks else none
    let s := (s.setLattice h (fun l => { l with search := none })).reread lost
    match status with
    | some st => s.failSearch l x f.pkt k c.run st c.epoch
    | none =>
      if lost.isSome then s.failSearch l x f.pkt k c.run St.memUncorrectable c.epoch
      else if t.ok then s.landSearch h l x f.pkt k c.run c.node c.traj c.epoch
      else s.failSearch l x f.pkt k c.run St.staleMap c.epoch
  | _, _ => (s.setLattice h (fun l => { l with search := none })).finish x.flight (status.getD St.mapRetired) 0 0

/-- End a search before its commit: `status` none lets it come to its own end, under its deadline, and then to its commit;
otherwise it is stopped at one of its checks, whichever time had reached, with that status (R319, R324, R326). An
uncorrectable brick that it fetched stops it as well. -/
def State.endRun (s : State) (h : Nat) (l : Lattice) (x : Search) (status : Option Nat) : State :=
  match s.flight? x.flight, s.problemOf l x with
  | some f, some (k, m) =>
    let p := f.pkt
    let whole := (k.search none).1
    let e := (m.epoch? x.epoch).getD ⟨0, 0⟩
    let lost := if status.isNone && !x.late then s.bricksLost m e.addr (List.range (min k.slots k.brickCount) ++ whole.got.map (fun g => g.2.2)) else none
    let status := if lost.isSome then some St.memUncorrectable else status
    let pick := Sys2Proof.Config.freeNat s.fresh
    let cut := if x.late then some 0 else if status.isSome then some (pick % max 1 whole.checks)
      else if reachedAt x.deadline s.clock.now then some (pick % (whole.checks + 1)) else none
    let (r, how) := k.search cut
    let now_ := (m.epochs.getLast?).getD ⟨x.epoch, 0⟩
    let s := ((s.leaveRun l p r).setLattice h (fun l => { l with search := none })).reread lost
    match how with
    | .cut => s.failSearch l x p k r (status.getD St.timeUp) 0xFFFFFFFF
    | .noPath => s.failSearch l x p k r (status.getD St.noPath) 0xFFFFFFFF
    | .found node t => match status with
      | some st => s.failSearch l x p k r st 0xFFFFFFFF
      | none =>
        if now_.number ≠ x.epoch ∧ !bit (Packet.fld p 19 1) 1 then
          s.enterCommit h l x { k with occ := s.voxelSet m now_.addr l.outsideFree } now_ ⟨now_.number, node, r, t⟩
        else s.landSearch h l x p k r node t 0xFFFFFFFF
  | _, _ => (s.setLattice h (fun l => { l with search := none })).finish x.flight (status.getD St.mapRetired) 0 0

/-- End a search, in its commit or before it. -/
def State.endSearch (s : State) (h : Nat) (status : Option Nat) : State :=
  match s.apps.lattices.get? h with
  | none => s
  | some l => match l.search with
    | none => s
    | some x => match x.commit with
      | some c => s.endCommit h l x c status
      | none => s.endRun h l x status

/-- The lattice whose search a flight runs. -/
def State.searchOf (s : State) (id : Nat) : Option Nat :=
  (Tab.keysWhere s.apps.lattices (fun _ l => match l.search with
    | some x => decide (x.flight = id)
    | none => false)).head?

/-- Stop a running operation with a status; a search writes its record (R73, R144, R324). -/
def State.stopOp (s : State) (id status : Nat) : State := match s.searchOf id with
  | some h => s.endSearch h (some status)
  | none => s.stopFlight id status

/-- Searches whose work on the cores is over. -/
def State.settleSearches (s : State) : State :=
  s.apps.lattices.foldl (fun s kv => match kv.2.search with
    | some x => if s.busyFor (.flight x.flight) then s else s.endSearch kv.1 none
    | none => s) s

/-- The unit of a cluster serves a search (R320). -/
def State.unitBusy (s : State) (cluster : Nat) : Bool := s.apps.lattices.any (fun kv => decide (kv.2.cluster = cluster) && kv.2.search.isSome)

/-- The brick caches of search core `j` after a run, as writes at `at_`: each slot holds the brick it last took (R322). -/
def State.brickCache (s : State) (m : VoxMap) (addr core at_ j : Nat) (r : Run) : List Wr :=
  (r.caches.getD j []).map (fun e => ⟨.core, coreKey core (at_ + 4096 * e.1), s.t2Read m.ctx (addr + 4096 * e.2) 4096⟩)

/-- The fetches of bricks that search core `j` makes on first use, after those that load its cache (R322). -/
def brickGets (o : Owner) (addr at_ j : Nat) (r : Run) : List Desc :=
  ((r.got.filter (fun g => decide (g.1 = j))).map (fun g => descs o 1 2 (addr + 4096 * g.2.2) 4096 (at_ + 4096 * g.2.1))).flatten

def planSearchBody : Body := fun id _ p s =>
  let c := Packet.ctxNo p
  if c = 0xFFFF then refuse s St.badContext
  else if !searchFields p then refuse s St.badParam
  else match s.partOf c with
  | none => refuse s (if (s.lattice? (Packet.fld p 16 2)).isNone then St.notFound else St.notPermitted)
  | some (n, q) =>
    if q.state = 4 then (s, .park)
    else if q.state ≠ 1 then refuse s St.busy
    else match s.ahead.searchStatus p n q, s.lattice? (Packet.fld p 16 2), s.apps.maps.get? (Packet.fld p 18 1) with
      | some e, _, _ => refuse s e
      | none, some l, some m =>
        let cores := (q.cores l.firstCore l.ncores).getD []
        let t := Packet.desc p 96
        let core0 := cores.getD 0 0
        if l.search.isSome || s.unitBusy l.cluster then (s, .park)
        else if cores.any (s.coreHeld q.cls) || s.windowWaits t (t.extent 1) then (s, .parkWork)
        else
          let hit := s.ahead.poisonHit c core0 t (t.extent 1)
          let limits := match s.ahead.limitsOf c n q l p with
            | .ok v => v
            | .error _ => []
          let h := Packet.fld p 16 2
          let e := (m.epochs.getLast?).getD ⟨0, 0⟩
          let due := s.dueBy (.flight id) (Packet.fld p 24 8)
          let x : Search := { flight := id, epoch := e.number, map := Packet.fld p 18 1, deadline := due, late := reachedAt due s.clock.now, seed := s.fresh, limits := limits }
          let held := match s.source c n q t (t.extent 1) with
            | .ok o => o.holds
            | .error _ => []
          let s := (s.setLattice h (fun l => { l with search := some x })).bump
          if x.late then (s.endSearch h none, .later)
          else if hit.isSome then ((s.reread hit).endSearch h (some St.memUncorrectable), .later)
          else
            let r := match s.problemOf l x with
              | some (k, _) => (k.search none).1
              | none => (⟨[], [], none, false, false, false, 0, 0, 0, 0, 0, 0, 0, [], []⟩ : Run)
            let at_ := Packet.fld p 68 4
            let cache := min (Packet.fld p 72 4) m.epochBytes
            let slots : List (Nat × OpSlot) := (List.range cores.length).map (fun j =>
              (cores.getD j 0, opSlot (.flight id) .vector (if j = 0 then t.walkers else []) (cyclesOf (x.seed + 0x4000000000 + j) (r.cycles + (if j = 0 then r.smooth else 0)))
                ([(Packet.fld p 68 4, Packet.fld p 68 4 + Packet.fld p 72 4, true)] ++ (if j = 0 ∧ t.loc = 0 then [(t.off, t.off + t.extent 1, false)] else [])) n))
            let ws : List Wr := ((List.range cores.length).map (fun j => s.brickCache m e.addr (cores.getD j 0) at_ j r)).flatten
            let w : Work :=
              { status := St.ok, info := 0, result := 0, exc := 0, core := ws, later := [], host := [], slots := slots, holds := held,
                descs := ((List.range cores.length).map (fun j => (descs (.flight id) 1 2 e.addr cache at_ ++ brickGets (.flight id) e.addr at_ j r).map (fun d =>
                    (cores.getD j 0, { d with notify := true })))).flatten ++
                  (s.readDescs (.flight id) t (t.extent 1) 1 0).map (fun d => (core0, d)),
                traffic := (Traffic.mk 0 (cache * cores.length + 4096 * r.got.length) 0 0).add (traffic (s.pathLoc t) (t.extent 1) false) }
            (s.begin_ (.flight id) n w.dealt, .late x.deadline [])
      | none, _, _ => refuse s St.notFound

/-- PLAN_SEARCH (R322). -/
def execPlanSearch (p : Sys2Proof.Packet) (s : State) : Host.Outcome State Fault Refusal := .next (runPacket 0x902 planSearchBody p s)

/-! ### PLAN_ABORT (R331) -/

def planAbortChecks (_ : Caller) (p : Sys2Proof.Packet) (s : State) : Option Nat :=
  firstFail [(!shortOk p 19 || decide (3 < Packet.fld p 18 1), St.badParam), (decide (Packet.ctxNo p = 0xFFFF), St.badContext),
    ((s.lattice? (Packet.fld p 16 2)).isNone, St.notFound),
    (match s.lattice? (Packet.fld p 16 2) with
     | some l => decide (l.ctx ≠ Packet.ctxNo p)
     | none => false, St.notPermitted)]

/-- A search already in its commit completes first, by its re-check (R331). -/
def planAbortEffect (_ : Nat) (_ : Caller) (p : Sys2Proof.Packet) (s : State) : State × Reply :=
  let h := Packet.fld p 16 2
  let fl := Packet.fld p 18 1
  let idle := match s.lattice? h with
    | some l => l.search.isNone
    | none => true
  let s := match (s.lattice? h).bind (·.search) with
    | some x => s.endSearch h (if x.commit.isSome then none else some St.aborted)
    | none => s
  let s := s.setLattice h (fun l => { l with holdNext := l.holdNext || bit fl 0, unloadNext := bit fl 1 })
  (s, .done St.ok (if idle && decide (fl = 0) then Inf.zeroWork else 0) 0)

def planAbortBody : Body := checked planAbortChecks planAbortEffect

/-- PLAN_ABORT (R331). -/
def execPlanAbort (p : Sys2Proof.Packet) (s : State) : Host.Outcome State Fault Refusal := .next (runPacket 0x903 planAbortBody p s)

/-! ### MAP_PUBLISH (R318, R319) -/

/-- READ_ONLY of the pages of an epoch (R319). -/
def State.markPages (s : State) (c addr n : Nat) (ro : Bool) : State :=
  { s with tiers := { s.tiers with pages := s.tiers.pages.update c (fun t => (pageSpan addr n).foldl (fun t v => t.update v (fun g => { g with readOnly := ro })) t) } }

/-- Retire epochs of a map: the searches pinned to them, and the re-checks against them, end with MAP_RETIRED (R332); then their pages are writable again (R319). -/
def State.retireEpochs (s : State) (map : Nat) (m : VoxMap) (old : List Epoch) : State :=
  let s := s.apps.lattices.foldl (fun s kv => match kv.2.search with
    | some x => if x.map = map ∧ old.any (fun e => decide (e.number = (x.commit.map (·.epoch)).getD x.epoch)) then s.endSearch kv.1 (some St.mapRetired) else s
    | none => s) s
  let s := old.foldl (fun s e => s.markPages m.ctx e.addr m.epochBytes false) s
  { s with apps := { s.apps with maps := s.apps.maps.update map (fun m => { m with epochs := m.epochs.filter (fun e => !old.contains e) }) } }

/-- A map number is free again (R319). -/
def State.dropMap (s : State) (map : Nat) : State := match s.apps.maps.get? map with
  | none => s
  | some m =>
    let s := s.retireEpochs map m m.epochs
    { s with apps := { s.apps with maps := s.apps.maps.erase map } }

/-- The map a publish describes. -/
def publishedMap (p : Sys2Proof.Packet) : VoxMap :=
  ⟨Packet.ctxNo p, Packet.fld p 18 2, Packet.fld p 20 1, Packet.fld p 21 1, Packet.fld p 22 1, Packet.fld p 24 4,
   [Packet.fld p 28 4, Packet.fld p 32 4, Packet.fld p 36 4], [], 0⟩

def VoxMap.sameShape (a b : VoxMap) : Bool :=
  decide (a.nbx = b.nbx ∧ a.nby = b.nby ∧ a.nbz = b.nbz ∧ a.voxel = b.voxel ∧ a.origin = b.origin)

def mapPublishChecks (_ : Caller) (p : Sys2Proof.Packet) (s : State) : Option Nat :=
  let m := publishedMap p
  let c := Packet.ctxNo p
  let a := Packet.fld p 40 8
  let old := s.apps.maps.get? (Packet.fld p 16 1)
  let edges := decide (1 ≤ m.nbx ∧ m.nbx ≤ 64 ∧ 1 ≤ m.nby ∧ m.nby ≤ 64 ∧ 1 ≤ m.nbz ∧ m.nbz ≤ 64 ∧ m.nbx * m.nby * m.nbz ≤ 4096)
  firstFail
    [(!shortOk p 48 || !Packet.rsvZero p 23 24 || decide (7 < Packet.fld p 16 1 ∨ 1 < Packet.fld p 17 1) || !edges || !positiveCode m.voxel ||
      decide (a % 65536 ≠ 0 ∨ 2 ^ 48 ≤ a), St.badParam),
     (decide (c = 0xFFFF), St.badContext),
     (match old with
      | some o => decide (o.ctx ≠ c)
      | none => false, St.notPermitted),
     (match old with
      | some o => !o.sameShape m && !bit (Packet.fld p 17 1) 0
      | none => false, St.badParam),
     (s.t2Freeing c a m.epochBytes || s.t2Evicted c a m.epochBytes, St.notFound), (!s.t2Mapped c a m.epochBytes, St.badParam),
     -- pages of a resident epoch and other read-only pages cannot be published
     (!s.t2Writable c a m.epochBytes, St.notPermitted)]

def mapPublishEffect (_ : Nat) (_ : Caller) (p : Sys2Proof.Packet) (s : State) : State × Reply :=
  let k := Packet.fld p 16 1
  let new := publishedMap p
  let old := s.apps.maps.get? k
  let before := match old with
    | some o => o.epochs
    | none => []
  let retired := if bit (Packet.fld p 17 1) 0 then before else before.take (before.length - 2)
  let s := match old with
    | some o => s.retireEpochs k o retired
    | none => s
  let n := (old.map (·.next)).getD 0
  let kept := before.filter (fun e => !retired.contains e)
  let m : VoxMap := { new with epochs := kept ++ [⟨n, Packet.fld p 40 8⟩], next := n + 1 }
  let gone := match retired[Sys2Proof.Config.pick s.fresh % max 1 retired.length]? with
    | some e => e.number
    | none => 0xFFFFFFFF
  let s := (s.bump).markPages (Packet.ctxNo p) (Packet.fld p 40 8) m.epochBytes true
  ({ s with apps := { s.apps with maps := s.apps.maps.set k m } }, .done St.ok 0 (n % 2 ^ 32 + 2 ^ 32 * (gone % 2 ^ 32)))

def mapPublishBody : Body := checked mapPublishChecks mapPublishEffect

/-- MAP_PUBLISH (R318). -/
def execMapPublish (p : Sys2Proof.Packet) (s : State) : Host.Outcome State Fault Refusal := .next (runPacket 0x901 mapPublishBody p s)

end Sys2Proof.Machine
end

