-- ==== Sys2Proof/Machine/Contexts.lean ====
section
/-! DEFINITION. Contexts, partitions and Quench (R334 to R340, R406 to R411), key generations (R399 to R403), models
(R355 to R357, R398) and accounting (R358 to R360). -/

namespace Sys2Proof.Machine

def State.setCtx (s : State) (c : Nat) (f : Context → Context) : State :=
  { s with sched := { s.sched with contexts := s.sched.contexts.update c f } }

def State.setPart (s : State) (p : Nat) (f : Partition → Partition) : State :=
  { s with sched := { s.sched with partitions := s.sched.partitions.update p f } }

/-- A CTX_DESTROY of the context is under way. -/
def State.leaving (s : State) (c : Nat) : Bool := match s.ctx? c with
  | some x => x.destroy.isSome
  | none => false

/-! ### CTX_CREATE (R334) -/

/-- A page key as SEC draws it (R390, R399). -/
def State.drawKey (s : State) (c g : Nat) : List Byte := fixedLen 32 (Sys2Proof.Config.pageKey c g s.fresh)

def ctxCreateChecks (_ : Caller) (p : Sys2Proof.Packet) (s : State) : Option Nat :=
  let n := Packet.fld p 16 2
  firstFail
    [(decide (Packet.ctxNo p ≠ 0xFFFF), St.badContext),
     (!shortOk p 19 || decide (255 < n ∧ n ≠ 0xFFFF) || decide (funcCount s.order ≤ Packet.fld p 18 1), St.badParam),
     (decide (n ≠ 0xFFFF) && s.sched.contexts.has n, St.busy), (decide (256 ≤ s.sched.contexts.length), St.noResource)]

def ctxCreateEffect (_ : Nat) (_ : Caller) (p : Sys2Proof.Packet) (s : State) : State × Reply :=
  let n := Packet.fld p 16 2
  match (if n = 0xFFFF then pickFree s.fresh 256 s.sched.contexts.keys else some n) with
  | none => refuse s St.noResource
  | some c =>
    let free : KeyGen := ⟨0, []⟩
    let x : Context := ⟨Packet.fld p 18 1, [⟨1, s.drawKey c 0⟩, free, free, free], 0, 0, { Account.zero with frameNo := s.frameNo - 1 }, none⟩
    done0 (State.resetScope { s.bump with sched := { s.sched with contexts := s.sched.contexts.set c x } } 2 c) c

def ctxCreateBody : Body := checked ctxCreateChecks ctxCreateEffect

/-- CTX_CREATE (R334). -/
def execCtxCreate (p : Sys2Proof.Packet) (s : State) : Host.Outcome State Fault Refusal := .next (runPacket 0xA00 ctxCreateBody p s)

/-! ### PARTITION_CREATE (R336 to R339) -/

/-- PARTITION_STATE (R65, R339). It concerns the partition's context; QUENCHING and FREE reach operator and owner queues
only, as device-wide events do (R66, R410). -/
def State.postPart (s : State) (p state : Nat) : State :=
  s.post ⟨0x31, 3, 0, if state = 3 ∨ state = 0 then none else (s.sched.partitions.get? p).map (·.ctx), p, state⟩

/-- Cores named by the masks, in the order of R338. -/
def namedCores (p : Sys2Proof.Packet) : List Nat :=
  ((List.range 8).map (fun k => ((List.range 17).filter (bit (Packet.fld p (32 + 4 * k) 4))).map (fun n => k * 256 + n))).flatten

/-- A core in service (R12): a spare is one only in a fenced core's place. -/
def State.coreServes (s : State) (c : Nat) : Bool := !s.coreOut c && (decide (c % 256 < 16) || s.spareUsed (c / 256))

/-- A core or a channel belongs to a partition in any state. -/
def State.coreTaken (s : State) (c : Nat) : Bool := s.sched.partitions.any (fun kv => kv.2.positions.contains (some c))

def partitionCreateChecks (_ : Caller) (p : Sys2Proof.Packet) (s : State) : Option Nat :=
  let c := Packet.ctxNo p
  let n := Packet.fld p 16 1
  let cls := Packet.fld p 17 1
  let cores := namedCores p
  let pair := bit (Packet.fld p 18 1) 0
  firstFail
    [(decide (c = 0xFFFF), St.badContext),
     (decide (Packet.len p ≠ 1) || !Packet.rsvZero p 24 32 || decide (3 < cls ∨ 1 < Packet.fld p 18 1 ∨ (15 < n ∧ n ≠ 0xFF)) ||
      (List.range 8).any (fun k => decide (2 ^ 17 ≤ Packet.fld p (32 + 4 * k) 4)), St.badParam),
     (s.leaving c, St.busy), ((s.partOf c).isSome, St.badParam), (cores.isEmpty, St.badParam), (!cores.all s.coreServes, St.badParam),
     (cores.any s.coreTaken, St.busy), (decide (cls = 0) && decide (1 < (cores.map (· / 256)).eraseDups.length ∨ 16 < cores.length), St.badParam),
     (pair && decide (cls ≠ 0 ∨ cores.length % 2 = 1), St.badParam), (decide (Packet.fld p 19 1 ≠ 0 ∧ cls ≠ 0), St.badParam),
     (s.sched.partitions.any (fun kv => decide (kv.2.qpMask &&& Packet.fld p 19 1 ≠ 0)), St.busy),
     (decide (176 < Packet.fld p 20 2 ∨ 127 < Packet.fld p 22 2) || decide (Packet.fld p 22 2 * 16384 < s.ctxPages c), St.badParam),
     (decide (n ≠ 0xFF) && s.sched.partitions.has n, St.busy),
     (decide (16 ≤ s.sched.partitions.length) || (decide (cls = 0) && decide (4 ≤ (s.sched.partitions.filter (fun kv => decide (kv.2.cls = 0))).length)),
      St.noResource)]

/-- A cluster given to a control-class partition leaves PS2 and PS3, in which its clock would stop (R13). DESIGN CHOICE: it is in
PS0 from the partition's creation on (log 95). -/
def State.wakeClusters (s : State) (cores : List Nat) : State :=
  { s with power := { s.power with clusters := s.power.clusters.mapVals (fun k c =>
      if 2 ≤ c.ps ∧ (cores.map (· / 256)).contains k then { c with ps := 0, wakeAt := none } else c) } }

def partitionCreateEffect (_ : Nat) (_ : Caller) (p : Sys2Proof.Packet) (s : State) : State × Reply :=
  let n := Packet.fld p 16 1
  match (if n = 0xFF then pickFree s.fresh 16 s.sched.partitions.keys else some n) with
  | none => refuse s St.noResource
  | some k =>
    let cores := namedCores p
    let fr := s.dueFrame
    let q : Partition :=
      { state := 4, ctx := Packet.ctxNo p, cls := Packet.fld p 17 1, pair := bit (Packet.fld p 18 1) 0, qpMask := Packet.fld p 19 1,
        regionCeil := Packet.fld p 20 2, t2CeilGib := Packet.fld p 22 2, positions := cores.map some, activeFrame := fr, misses := 0,
        oneShort := false, drained := false, release := none, ofDestroy := false, shownCores := cores.length, quenchStarted := false,
        quenchEdges := 0, tier2End := none, paused := false }
    let s := State.resetScope { s.bump with sched := { s.sched with partitions := s.sched.partitions.set k q } } 1 k
    let s := if q.cls = 0 then (s.endActivation St.notParked).wakeClusters cores else s
    done0 (s.postPart k 4) (k + 2 ^ 32 * (fr % 2 ^ 32))

def partitionCreateBody : Body := checked partitionCreateChecks partitionCreateEffect

/-- PARTITION_CREATE (R336). -/
def execPartitionCreate (p : Sys2Proof.Packet) (s : State) : Host.Outcome State Fault Refusal := .next (runPacket 0xA02 partitionCreateBody p s)

/-! ### PARTITION_RELEASE and Quench (R340, R406 to R411) -/

def State.armedOn (s : State) (p : Nat) : Bool := s.sched.jobs.any (fun kv => decide (kv.2.part = p))

/-- A stream operation runs on the partition of its context. -/
def State.streamRuns (s : State) (c : Nat) : Bool := s.apps.streams.any (fun kv => decide (kv.2.ctx = c) && kv.2.queue.any (·.running))

/-- Nothing of the context runs on its partition any more. -/
def State.partIdle (s : State) (c : Nat) : Bool :=
  !s.proto.flights.any (fun f => f.placed && decide (Packet.ctxNo f.pkt = c)) && !s.streamRuns c

/-- The last steps of DRAINING: streams rehomed, channels EMPTY with their reset settings (R340). -/
def State.settleDrain (s : State) (p : Nat) : State :=
  match s.sched.partitions.get? p with
  | none => s
  | some q =>
    if q.state ≠ 2 ∨ q.drained ∨ !s.partIdle q.ctx then s
    else
      let homed := Tab.keysWhere s.apps.streams (fun _ x => decide (x.ctx = q.ctx) && decide (x.home ≤ 1))
      let s := homed.foldl (fun s h => s.rehome h) s
      let s := ((List.range 8).filter (bit q.qpMask)).foldl (fun s ch => (s.emptyChannel ch).resetScope 5 ch) s
      s.setPart p (fun q => { q with drained := true })

/-- QP operations of a context in flight, those that wait for their channel or core among them (R300, R311). -/
def State.qpInFlight (s : State) (c : Nat) : List Flight :=
  s.proto.flights.filter (fun f => (f.running || (f.parked && !f.held)) && decide (f.opcode = 0x802 ∨ f.opcode = 0x803) && decide (Packet.ctxNo f.pkt = c))

/-- Move a partition to DRAINING: Bellows streams, searches and QP operations end with ABORTED, plans become EMPTY (R311, R340). -/
def State.releasePart (s : State) (p : Nat) (flight : Option Nat) (ofDestroy : Bool) : State :=
  match s.sched.partitions.get? p with
  | none => s
  | some q =>
    let s := (s.setPart p (fun q => { q with state := 2, release := flight, ofDestroy := ofDestroy, shownCores := q.inService })).postPart p 2
    let s := (Tab.keysWhere s.tiers.bellows (fun _ b => decide (b.part = p))).foldl (fun s k => s.endBellows k St.aborted) s
    let s := (Tab.keysWhere s.apps.lattices (fun _ l => decide (l.part = p))).foldl (fun s h => (s.endSearch h (some St.aborted)).unloadLattice h) s
    let s := (s.qpInFlight q.ctx).foldl (fun s f => s.stopFlight f.id St.aborted) s
    s.settleDrain p

def partitionReleaseChecks (_ : Caller) (p : Sys2Proof.Packet) (s : State) : Option Nat :=
  let n := Packet.fld p 16 1
  let c := Packet.ctxNo p
  let q := s.sched.partitions.get? n
  firstFail
    [(!shortOk p 17, St.badParam),
     (decide (c ≠ 0xFFFF) && decide (q.map (·.ctx) ≠ some c), St.notPermitted),
     (decide (15 < n), St.badParam), (q.isNone, St.notFound),
     (match q with
      | some x => decide (x.state ≠ 1)
      | none => false, St.busy),
     (s.armedOn n, St.busy)]

def partitionReleaseEffect (id : Nat) (_ : Caller) (p : Sys2Proof.Packet) (s : State) : State × Reply :=
  ((s.setFlight id (fun f => { f with running := true })).releasePart (Packet.fld p 16 1) (some id) false, .later)

def partitionReleaseBody : Body := checked partitionReleaseChecks partitionReleaseEffect

/-- PARTITION_RELEASE (R340). -/
def execPartitionRelease (p : Sys2Proof.Packet) (s : State) : Host.Outcome State Fault Refusal := .next (runPacket 0xA03 partitionReleaseBody p s)

/-- Length of a Quench and of its tier-2 part, in microseconds (R407). -/
def State.tier2PartUs (s : State) (q : Partition) : Nat := 8192 * q.t2CeilGib * 8 / (stacksOf s.order).length
def State.quenchUs (s : State) (q : Partition) : Nat := 500 + 20 * q.positions.length + s.tier2PartUs q

/-- Frame edges to count (R407). -/
def State.quenchEdgesOf (s : State) (q : Partition) : Nat := ceilDiv (s.quenchUs q * 1000) (max 1 s.period)

/-- Something stops Quench of the partition now: E3, or a restart of a CCC of its clusters or of Temper, or a firmware
switch (R411). -/
def State.quenchHeld (s : State) (q : Partition) : Bool :=
  decide (3 ≤ s.power.level) || s.procDown 1 || s.switching || q.clusters.any (fun k => s.procDown (8 + k))

/-- A stop begins: the partitions in Quench that it holds lose this frame (R411). -/
def State.pauseQuench (s : State) : State :=
  { s with sched := { s.sched with partitions := s.sched.partitions.mapVals (fun _ q =>
      if q.state = 3 ∧ s.quenchHeld q then { q with paused := true } else q) } }

/-- Slots that the tier-2 part of a Quench takes: the four lowest-numbered ones that no partition owns, other than slot 49 (R408). -/
def State.quenchSlots (s : State) : List Nat :=
  ((List.range 49).filter (fun i => !s.sched.partitions.any (fun kv => bit (s.slotMask kv.1) i))).take 4

/-- Frames of a context's tier-2 pages, in address order. -/
def State.framesOf (s : State) (c : Nat) : List Nat := match s.tiers.pages.get? c with
  | some t => t.vals.map Page.frame
  | none => []

/-- The frame that stands for the scratch range of the device reserve: the first past those that can be allocated (R161, R408). -/
def State.scratchFrame (s : State) : Nat := (stacksOf s.order).length * 262144

/-- What the tier-2 part of a Quench has written after `us` microseconds: a 4 KiB block of zeros on every stack in each of its slots
of each wheel, to the context's pages when the context leaves, in address order, and then to the scratch range (R406, R408). -/
def State.quenchWrite (s : State) (q : Partition) (us : Nat) : State :=
  let blocks := us * s.quenchSlots.length * (stacksOf s.order).length
  let mine := if q.ofDestroy then s.framesOf q.ctx else []
  let s := (mine.take (blocks / 16)).foldl (fun s f => s.zeroFill .tier2 (f * 65536) 65536) s
  match mine[blocks / 16]? with
  | some f => s.zeroFill .tier2 (f * 65536) (blocks % 16 * 4096)
  | none => s.zeroFill .tier2 (s.scratchFrame * 65536) 65536

/-- Microseconds of the tier-2 part of a Quench that have passed at `t`. -/
def State.quenchDone (s : State) (q : Partition) (t : Nat) : Nat := match q.tier2End with
  | some e => (s.tier2PartUs q * 1000 - (e - t)) / 1000
  | none => 0

/-- Zero-fill of what Quench scrubs at its edge (R406); the tier-2 pages follow in its tier-2 part (R408). A fenced core's
store is filled too: whether it still answers is not observable, for nothing reads it before a module reset zeroes it (R411). -/
def State.scrub (s : State) (q : Partition) : State :=
  let s := (q.positions.filterMap id).foldl (fun s c => State.setCore (s.zeroFill .core (coreKey c 0) 2097152) c Core.idle) s
  let gone := s.tiers.regions.filter (fun kv => !kv.2.window && decide (kv.2.ctx = q.ctx) && q.clusters.contains kv.2.cluster)
  let s := gone.foldl (fun s kv => (s.dropRegion kv.1).finishOpt kv.2.freeing St.ok 0 0) s
  let mine := s.framesOf q.ctx
  { s with
    tiers := { s.tiers with codebooks := s.tiers.codebooks.mapVals (fun k l => if q.clusters.contains k then l.filter (fun x => !mine.contains (x.1 / 65536)) else l) },
    apps := { s.apps with units := s.apps.units.filter (fun kv => !(q.clusters.contains kv.1 && !s.unitBusy kv.1)) } }

/-- Begin counting a Quench at the current edge, with its tier-2 part if it has one (R407). -/
def State.startCount (s : State) (p : Nat) (q : Partition) : State :=
  s.setPart p (fun x => { x with quenchStarted := true, quenchEdges := s.quenchEdgesOf q,
                                 tier2End := if q.t2CeilGib = 0 then none else some (s.clock.frameStart + s.tier2PartUs q * 1000) })

/-- A tier-2 part is under way (R407: one at a time). -/
def State.tier2PartRuns (s : State) : Bool := s.sched.partitions.any (fun kv => decide (kv.2.state = 3) && kv.2.tier2End.isSome)

/-- QUENCH_START at an edge (R340, R406, R407): the slot mask is cleared, and the partition is scrubbed. -/
def State.startQuench (s : State) (p fr : Nat) : State :=
  match s.sched.partitions.get? p with
  | none => s
  | some q =>
    let s := ((s.resetScope 1 p).scrub q).setPart p (fun q => { q with state := 3, activeFrame := fr, misses := 0, oneShort := false })
    let s := s.postPart p 3
    if q.t2CeilGib = 0 then s.startCount p q else s

/-- At an edge: Quenches not held count it; the next tier-2 part may begin (R407, R411). -/
def State.countQuench (s : State) (frameNs : Nat) : State :=
  let s := (s.sched.partitions.vals.filter (fun q => decide (q.state = 3) && q.tier2End.isSome && !q.paused)).foldl
    (fun s q => s.quenchWrite q (s.quenchDone q s.clock.frameStart)) s
  { s with sched := { s.sched with partitions := s.sched.partitions.mapVals (fun _ q =>
    if q.state ≠ 3 ∨ !q.quenchStarted then { q with paused := false }
    else if q.paused ∨ s.quenchHeld q then { q with paused := false, tier2End := q.tier2End.map (· + frameNs) }
    else { q with quenchEdges := q.quenchEdges - 1 }) } }

/-- The first waiting tier-2 part begins when none runs, in the order the partitions entered QUENCHING (R407). -/
def State.nextTier2Part (s : State) : State :=
  if s.tier2PartRuns then s
  else match sortBy (fun (x y : Nat × Partition) => decide (x.2.activeFrame < y.2.activeFrame) || decide (x.2.activeFrame = y.2.activeFrame ∧ x.1 < y.1))
      (s.sched.partitions.filter (fun kv => decide (kv.2.state = 3) && !kv.2.quenchStarted)) |>.head? with
    | none => s
    | some x => s.startCount x.1 x.2

/-- QUENCH_TIER2_PART_END (R407, R408): the tier-2 part under way ends, and its four slots are shared again. -/
def execQuenchTier2PartEnd (s : State) : Host.Outcome State Fault Refusal :=
  .next (match s.sched.partitions.find? (fun kv => decide (kv.2.state = 3) && kv.2.tier2End.isSome) with
    | none => s
    | some kv => if s.quenchHeld kv.2 then s
      else ((s.reach (kv.2.tier2End.getD 0)).quenchWrite kv.2 (s.tier2PartUs kv.2)).setPart kv.1 (fun q => { q with tier2End := none }))

/-! ### CTX_DESTROY (R335) -/

/-- Streams, sequences, grids, lattices and maps of a context go as far as nothing of them runs (R233, R335). -/
def State.dropObjects (s : State) (c : Nat) : State :=
  let s := (Tab.keysWhere s.apps.streams (fun _ x => decide (x.ctx = c))).foldl (fun s h =>
    (s.setStream h (fun x => { x with ending := some (x.ending.getD 0), drain := false })).settleStream h) s
  let s := (Tab.keysWhere s.kv.seqs (fun _ q => decide (q.ctx = c))).foldl (fun s h => if s.destroyWaits 0 h then s else s.destroySeq h) s
  let s := (s.ingest.grids.filter (fun kv => decide (kv.2.ctx = c))).foldl (fun s kv =>
    if s.projecting kv.1 then s else (s.dropGrid kv.1).finishOpt kv.2.destroy St.ok 0 0) s
  let s := (Tab.keysWhere s.apps.lattices (fun _ l => decide (l.ctx = c))).foldl (fun s h => (s.endSearch h (some St.aborted)).unloadLattice h) s
  (Tab.keysWhere s.apps.maps (fun _ m => decide (m.ctx = c))).foldl (fun s m => s.dropMap m) s

/-- Nothing of the context stands in the way of freeing its memory. -/
def State.objectsGone (s : State) (c : Nat) : Bool :=
  !s.apps.streams.any (fun kv => decide (kv.2.ctx = c)) && !s.kv.seqs.any (fun kv => decide (kv.2.ctx = c)) &&
  !s.ingest.grids.any (fun kv => decide (kv.2.ctx = c)) && !s.proto.queues.any (fun kv => decide (kv.2.bindCtx = some c ∧ 32 ≤ kv.1)) &&
  (s.partOf c).isNone

/-- Steps 5 and 6 and the end (R335, R403). -/
def State.freeContext (s : State) (c : Nat) : State :=
  let s := (s.tiers.allocs.filter (fun a => decide (a.ctx = c))).foldl (fun s a => (s.dropAlloc a.ctx a.base).finishOpt a.freeing St.ok 0 0) s
  let s := (s.tiers.regions.filter (fun kv => decide (kv.2.ctx = c))).foldl (fun s kv => (s.dropRegion kv.1).finishOpt kv.2.freeing St.ok 0 0) s
  State.resetScope { s with sched := { s.sched with contexts := s.sched.contexts.erase c } } 2 c

/-- A CTX_DESTROY goes on as far as it can (R335). -/
def State.settleDestroy (s : State) (c : Nat) : State :=
  match (s.ctx? c).bind (·.destroy) with
  | none => s
  | some d =>
    let s := (s.dropObjects c).closeQueues
    let s := match s.partOf c with
      | some x => if x.2.state = 1 ∧ !s.armedOn x.1 then s.releasePart x.1 none true else s.settleDrain x.1
      | none => s
    if s.objectsGone c then (s.freeContext c).finish d.1 St.ok 0 0 else s

def ctxDestroyChecks (_ : Caller) (p : Sys2Proof.Packet) (s : State) : Option Nat :=
  let n := Packet.fld p 16 2
  firstFail
    [(!shortOk p 18, St.badParam), (decide (Packet.ctxNo p ≠ 0xFFFF ∧ Packet.ctxNo p ≠ n), St.notPermitted), (decide (255 < n), St.badParam),
     ((s.ctx? n).isNone, St.notFound),
     (s.leaving n || s.sched.jobs.any (fun kv => decide (kv.2.ctx = n)) ||
      s.ingest.slots.any (fun kv => decide (kv.2.cfg.iface ≠ 0 ∧ kv.2.cfg.place = 1 ∧ kv.2.cfg.ringCtx = n)), St.busy)]

def ctxDestroyEffect (id : Nat) (_ : Caller) (p : Sys2Proof.Packet) (s : State) : State × Reply :=
  let c := Packet.fld p 16 2
  let s := (s.setFlight id (fun f => { f with running := true, parked := false })).setCtx c (fun x => { x with destroy := some (id, 0) })
  let s := s.dropObjects c
  let s := { s with proto := { s.proto with
    queues := s.proto.queues.mapVals (fun q x => if x.bindCtx = some c ∧ 32 ≤ q ∧ x.closing.isNone then { x with closing := some id } else x),
    eqs := s.proto.eqs.filter (fun kv => !decide (kv.2.bindCtx = some c)) } }
  (s.settleDestroy c, .later)

def ctxDestroyBody : Body := checked ctxDestroyChecks ctxDestroyEffect

/-- CTX_DESTROY (R335). -/
def execCtxDestroy (p : Sys2Proof.Packet) (s : State) : Host.Outcome State Fault Refusal := .next (runPacket 0xA01 ctxDestroyBody p s)

/-- Every partition that drains and every context that leaves goes on. -/
def State.settleLeaving (s : State) : State :=
  let s := (s.sched.partitions.keys).foldl (fun s p => s.settleDrain p) s
  (Tab.keysWhere s.sched.contexts (fun _ x => x.destroy.isSome)).foldl (fun s c => s.settleDestroy c) s

/-- QUENCH_END (R339, R340, R407): the edge is reached, and the partition is FREE. -/
def execQuenchEnd (part : Nat) (s : State) : Host.Outcome State Fault Refusal :=
  .next (match s.sched.partitions.get? part with
    | none => s
    | some q =>
      if q.state = 3 ∧ q.quenchStarted ∧ q.quenchEdges = 0 then
        let s := (State.postPart (State.resetScope { s with sched := { s.sched with partitions := s.sched.partitions.erase part } } 1 part) part 0)
        (s.finishOpt q.release St.ok 0 s.frameNo).settleLeaving
      else s)

/-! ### Key generations (R399 to R402) -/

def keyRotateChecks (_ : Caller) (p : Sys2Proof.Packet) (s : State) : Option Nat :=
  let c := Packet.ctxNo p
  firstFail [(decide (c = 0xFFFF), St.badContext), (!shortOk p 16, St.badParam), (s.leaving c, St.busy),
    (match s.ctx? c with
     | some x => !x.gens.any (fun g => decide (g.state = 0))
     | none => true, St.keySlotsFull)]

def keyRotateEffect (_ : Nat) (_ : Caller) (p : Sys2Proof.Packet) (s : State) : State × Reply :=
  let c := Packet.ctxNo p
  match (s.ctx? c).bind (fun x => x.gens.findIdx? (fun g => decide (g.state = 0))) with
  | none => refuse s St.keySlotsFull
  | some g => done0 (s.setCtx c (fun x => { x with gens := x.gens.set g ⟨1, s.drawKey c g⟩, current := g })).bump g

def keyRotateBody : Body := checked keyRotateChecks keyRotateEffect

/-- KEY_ROTATE (R400). -/
def execKeyRotate (p : Sys2Proof.Packet) (s : State) : Host.Outcome State Fault Refusal := .next (runPacket 0xC00 keyRotateBody p s)

def retireKeyChecks (_ : Caller) (p : Sys2Proof.Packet) (s : State) : Option Nat :=
  firstFail [(decide (Packet.ctxNo p = 0xFFFF), St.badContext),
    (!shortOk p 18 || decide (1 < Packet.fld p 17 1) || decide (3 < Packet.fld p 16 1), St.badParam), (s.leaving (Packet.ctxNo p), St.busy)]

def retireKeyEffect (_ : Nat) (_ : Caller) (p : Sys2Proof.Packet) (s : State) : State × Reply :=
  let c := Packet.ctxNo p
  let g := Packet.fld p 16 1
  match s.ctx? c with
  | none => refuse s St.badContext
  | some x =>
    let n := s.genCount c g
    let k := (x.gens.getD g ⟨0, []⟩).state
    let set : Nat → State := fun st => State.post (s.setCtx c (fun x => { x with gens := x.gens.set g ⟨st, []⟩ })) ⟨0x70, 7, 0, some c, c, g⟩
    if k = 0 then refuse s St.notFound
    else if x.current = g then (s, .done St.keyInUse 0 (0xFFFFFFFF + 2 ^ 32 * n))
    else if k = 2 then (s, .done St.ok Inf.zeroWork (2 ^ 32 * n))
    else if n = 0 then done0 (set 0) 0
    else if bit (Packet.fld p 17 1) 0 then done0 (set 2) (2 ^ 32 * n)
    else (s, .done St.keyInUse 0 (2 ^ 32 * n))

def retireKeyBody : Body := checked retireKeyChecks retireKeyEffect

/-- RETIRE_KEY (R401). -/
def execRetireKey (p : Sys2Proof.Packet) (s : State) : Host.Outcome State Fault Refusal := .next (runPacket 0xC01 retireKeyBody p s)

/-- The 256-byte key status record (R402). -/
def State.keyRecord (s : State) (c : Nat) (x : Context) : List Byte :=
  toLe 1 x.current ++ toLe 1 ((x.gens.map (·.state)).foldr (fun g a => g + 4 * a) 0) ++ toLe 1 (if s.fleetFused then s.exportRoot.1 else 0xFF) ++ zeros 5 ++
  toLe 8 x.swapNo ++ ((List.range 4).map (fun g => toLe 8 (s.genCount c g))).flatten ++ deviceId ++ identityKey.1 ++ identityKey.2 ++ zeros 96

/-- Fields of a packet that writes one record: DST_LOC at 16 and DST_ADDR at 24, which must be a multiple of `unit`. -/
def recordChecks (p : Sys2Proof.Packet) (unit : Nat) : List (Bool × Nat) :=
  [(decide (Packet.ctxNo p = 0xFFFF), St.badContext),
   (!shortOk p 32 || !Packet.rsvZero p 17 24 || !decide (Packet.fld p 16 1 = 2 ∨ Packet.fld p 16 1 = 4) || decide (Packet.fld p 24 8 % unit ≠ 0), St.badParam)]

/-- Write one record where such a packet says; it waits while tier 3 cannot be written. -/
def State.putRecord (s : State) (p : Sys2Proof.Packet) (bs : List Byte) : State × Reply :=
  let c := Packet.ctxNo p
  match s.moveSide c 0 (Packet.fld p 16 1) (Packet.fld p 24 8) ⟨1, bs.length, bs.length⟩ true with
  | .error e => refuse s e
  | .ok d =>
    if !s.sideReady d then (s, .parkWork)
    else
      let w := s.sideWrite c 0 d 0 bs
      (s.apply w.1, .full St.ok 0 0 none w.2 [])

def keyStatusChecks (_ : Caller) (p : Sys2Proof.Packet) (_ : State) : Option Nat := firstFail (recordChecks p 64)

def keyStatusEffect (_ : Nat) (_ : Caller) (p : Sys2Proof.Packet) (s : State) : State × Reply :=
  match s.ctx? (Packet.ctxNo p) with
  | none => refuse s St.badContext
  | some x => s.putRecord p (s.keyRecord (Packet.ctxNo p) x)

def keyStatusBody : Body := checked keyStatusChecks keyStatusEffect

/-- KEY_STATUS (R402). -/
def execKeyStatus (p : Sys2Proof.Packet) (s : State) : Host.Outcome State Fault Refusal := .next (runPacket 0xC02 keyStatusBody p s)

/-! ### Models (R355, R356, R397, R398) -/

/-- The source window of a model image: its bounds, or why it cannot be read. -/
def State.modelSource (s : State) (c kind win src bytes : Nat) : Option Nat :=
  if kind = 1 then none
  else match s.tiers.regions.get? win with
    | none => some St.notFound
    | some r => if !r.window ∨ r.freeing.isSome then some St.notFound else if r.ctx ≠ c then some St.notPermitted
      else if r.size < src + bytes then some St.badParam else none

def modelRegisterChecks (_ : Caller) (p : Sys2Proof.Packet) (s : State) : Option Nat :=
  let c := Packet.ctxNo p
  let kind := Packet.fld p 16 1
  let n := Packet.fld p 32 8
  let ceil := match s.partOf c with
    | some x => x.2.t2CeilGib * 2 ^ 30
    | none => 2 ^ 48
  firstFail
    [(decide (c = 0xFFFF), St.badContext),
     (!shortOk p 40 || !Packet.rsvZero p 20 24 || !decide (kind = 1 ∨ kind = 2) || decide (2 < Packet.fld p 17 1) ||
      decide (kind = 1 ∧ Packet.fld p 18 2 ≠ 0) || decide (Packet.fld p 24 8 % 4096 ≠ 0) || decide (n = 0 ∨ n % 65536 ≠ 0 ∨ ceil < n), St.badParam)]
  |>.orElse (fun _ => s.modelSource c kind (Packet.fld p 18 2) (Packet.fld p 24 8) n)
  |>.orElse (fun _ => firstFail [(decide (64 ≤ s.sched.models.length), St.noResource), (decide (kind = 1) && s.fw.ufsFailed, St.linkError)])

def modelRegisterEffect (id : Nat) (_ : Caller) (p : Sys2Proof.Packet) (s : State) : State × Reply :=
  let c := Packet.ctxNo p
  let n := Packet.fld p 32 8
  let home := Packet.fld p 17 1
  if !s.underCeiling c (n / 65536) then refuse s St.outOfTier2
  else match s.provide id 16 none (halvesOf home (n / 65536)) with
    | .never => refuse s St.outOfTier2
    | .wait t => (t, .parkPages)
    | .ready t => match pickFree t.fresh 64 t.sched.models.keys, t.bump.allocPages c (n / 65536) home true with
      | some h, some (u, base) =>
        let m : Model :=
          { ctx := c, state := 0, base := base, bytes := n, home := home, srcKind := Packet.fld p 16 1, window := Packet.fld p 18 2, src := Packet.fld p 24 8,
            pinned := false, lastUse := s.clock.now, flight := some id, wantPin := false, signers := (s.trust id c 1).map (fun k => k.1 ++ k.2) }
        (State.setFlight { u with sched := { u.sched with models := u.sched.models.set h m } } id (fun f => { f with result := h + 65536 * base }), .later)
      | _, _ => refuse s St.outOfTier2

def modelRegisterBody : Body := checked modelRegisterChecks modelRegisterEffect

/-- MODEL_REGISTER (R355). -/
def execModelRegister (p : Sys2Proof.Packet) (s : State) : Host.Outcome State Fault Refusal := .next (runPacket 0xA06 modelRegisterBody p s)

/-- The image carries a signature of one of the keys (R397, R398). -/
def signedBy (keys : List (List Byte)) (img : List Byte) : Bool :=
  let n := img.length
  let pg := img.drop (n - 4096)
  let digest := fixedLen 48 (Sys2Proof.Config.sha384 (img.take (n - 4096)))
  decide (pg.take 4 = [0x4D, 0x53, 0x49, 0x47]) && decide (sliceAt pg 24 48 = digest) &&
  keys.any (fun k => decide (signerId (k.take 48) (k.drop 48) = sliceAt pg 8 16) && verifyBy (k.take 48, k.drop 48) (pg.take 72) (sliceAt pg 72 96))

/-- A schedule of an image agrees with the rest of it: it is aligned, its MAX_LAYER_4K is the largest footprint there is, its
tiles lie in the image, and each record to be decoded is as its entry says (R174). -/
def Sched4.fits (h : Sched4) (rd : Nat → Reader) (at_ size : Nat) : Bool :=
  let lists := (List.range h.clusters).map (h.entries (rd at_))
  decide (at_ % 64 = 0) && decide (h.maxLayer = ((lists.map (fun l => l.map (fun e => layerUnits l e.layer))).flatten).foldl max 0) &&
  lists.flatten.all (fun e =>
    let r := Rec.of (rd e.src)
    decide (e.src + e.srcBytes ≤ size) &&
    (if e.decode then r.ok (rd e.src) && decide (r.bytes = e.srcBytes ∧ r.out4k = e.out4k) else decide (e.srcBytes ≤ e.out4k * 4096)))

/-- Every codebook, schedule and record of an image is well formed (R98, R100, R174; log 31). -/
def imageOk (img : List Byte) : Bool :=
  let rd : Nat → Reader := fun o i => img.getD (o + i) 0
  (Sys2Proof.Config.imageObjects img).all (fun x =>
    if x.1 = 0 then codebookOk ((img.drop x.2).take (codebookBytes (readLe (rd x.2) 0 1)))
    else if x.1 = 1 then (Sched4.of (rd x.2)).ok (rd x.2) && (Sched4.of (rd x.2)).fits rd x.2 img.length else (Rec.of (rd x.2)).ok (rd x.2))

def State.imageBytes (s : State) (m : Model) : List Byte :=
  if m.srcKind = 1 then s.stores.ufs.readBytes m.src m.bytes
  else match s.tiers.regions.get? m.window with
    | some r => s.stores.host.readBytes (hostKey r.fn (r.busAddr + m.src)) m.bytes
    | none => zeros m.bytes

/-- The source can be read now (R356, R466). -/
def State.sourceReady (s : State) (m : Model) : Bool := decide (m.srcKind = 1) || (match s.tiers.regions.get? m.window with
  | some r => s.canWriteHost r.fn
  | none => true)

/-- The pages of a model take its image. -/
def State.placeImage (s : State) (m : Model) (img : List Byte) : State := s.apply (s.t2Wr m.ctx (m.base * 65536) img)

/-- MODEL_LOAD_DONE (R355, R356, R398): a first load is checked; a bad image leaves no page mapped. Shared slots idle at E3 (R438). -/
def State.loadDone (s : State) (h : Nat) : State :=
  match s.sched.models.get? h with
  | none => s
  | some m =>
    if m.state ≠ 0 ∨ !s.sourceReady m ∨ s.sharedIdle m.ctx then s
    else
      let img := s.imageBytes m
      let first := match m.flight.bind s.flight? with
        | some f => decide (f.opcode = 0xA06)
        | none => false
      let bad := if !first then none else if !m.signers.isEmpty && !signedBy m.signers img then some St.badSignature
        else if !imageOk img then some St.badParam else none
      match bad with
      | some st => (s.finishOpt m.flight st 0 0).dropAlloc m.ctx m.base
      | none =>
        let res := match m.flight.bind s.flight? with
          | some f => f.result
          | none => 0
        let s := s.placeImage m img
        let m2 : Model := { m with state := 1, lastUse := s.clock.now, flight := none, pinned := m.pinned || m.wantPin, wantPin := false }
        State.finishOpt { s with sched := { s.sched with models := s.sched.models.set h m2 } } m.flight St.ok 0 res

def execModelLoadDone (model : Nat) (s : State) : Host.Outcome State Fault Refusal := .next (if s.hearthUp then s.loadDone model else s)

/-- The model a packet names. -/
def modelCheck (p : Sys2Proof.Packet) (s : State) : List (Bool × Nat) :=
  let m := s.sched.models.get? (Packet.fld p 16 2)
  [(m.isNone, St.notFound), (match m with
    | some x => decide (x.ctx ≠ Packet.ctxNo p)
    | none => false, St.notPermitted)]

def modelPinChecks (_ : Caller) (p : Sys2Proof.Packet) (s : State) : Option Nat :=
  firstFail ([(decide (Packet.ctxNo p = 0xFFFF), St.badContext), (!shortOk p 19 || decide (1 < Packet.fld p 18 1), St.badParam)] ++ modelCheck p s)

def modelPinEffect (id : Nat) (_ : Caller) (p : Sys2Proof.Packet) (s : State) : State × Reply :=
  let h := Packet.fld p 16 2
  let pin := bit (Packet.fld p 18 1) 0
  match s.sched.models.get? h with
  | none => refuse s St.notFound
  | some m =>
    let put : State → Model → State := fun s m => { s with sched := { s.sched with models := s.sched.models.set h m } }
    if m.state = 0 then (s, .parkWork)
    else if m.state = 1 then done0 (put s { m with pinned := m.pinned || pin, lastUse := s.clock.now }) 0
    else
      let n := m.bytes / 65536
      match s.modelSource m.ctx m.srcKind m.window m.src m.bytes with
      | some e => refuse s e
      | none =>
        if m.srcKind = 1 ∧ s.fw.ufsFailed then refuse s St.linkError
        else if !s.underCeiling m.ctx n then refuse s St.outOfTier2
        else match s.provide id 16 none (halvesOf m.home n) with
          | .never => refuse s St.outOfTier2
          | .wait t => (t, .parkPages)
          | .ready t => (put (t.mapPages m.ctx m.base n m.home true) { m with state := 0, flight := some id, wantPin := pin }, .later)

def modelPinBody : Body := checked modelPinChecks modelPinEffect

/-- MODEL_PIN (R356). -/
def execModelPin (p : Sys2Proof.Packet) (s : State) : Host.Outcome State Fault Refusal := .next (runPacket 0xA07 modelPinBody p s)

def modelUnpinChecks (_ : Caller) (p : Sys2Proof.Packet) (s : State) : Option Nat :=
  firstFail ([(decide (Packet.ctxNo p = 0xFFFF), St.badContext), (!shortOk p 18, St.badParam)] ++ modelCheck p s)

def modelUnpinEffect (_ : Nat) (_ : Caller) (p : Sys2Proof.Packet) (s : State) : State × Reply :=
  let h := Packet.fld p 16 2
  match s.sched.models.get? h with
  | none => refuse s St.notFound
  | some m => if m.pinned then done0 { s with sched := { s.sched with models := s.sched.models.set h { m with pinned := false } } } 0
    else (s, .done St.ok Inf.zeroWork 0)

def modelUnpinBody : Body := checked modelUnpinChecks modelUnpinEffect

/-- MODEL_UNPIN (R356). -/
def execModelUnpin (p : Sys2Proof.Packet) (s : State) : Host.Outcome State Fault Refusal := .next (runPacket 0xA08 modelUnpinBody p s)

/-! ### ACCOUNT_READ (R359, R360) -/

def downTo (n g : Nat) : Nat := n / g * g

/-- The accounting record as a role sees it; energy is kept in microjoules. -/
def State.accountRecord (s : State) (a : Account) (r : Role) : List Byte :=
  let ten := decide (r = .tenant)
  let g : Nat → Nat → Nat := fun v k => if ten then downTo v k else v
  toLe 8 (if ten then s.frameNo else a.frameNo) ++ toLe 8 (g (a.coreTime / 1000) 100) ++ toLe 8 (g a.t1 65536) ++ toLe 8 (g a.t2rd 65536) ++
  toLe 8 (g a.t2wr 65536) ++ toLe 8 (g a.t3 65536) ++ toLe 8 (if r = .owner then a.energy else a.energy / 1000) ++ toLe 4 a.misses ++ zeros 4

def accountReadChecks (_ : Caller) (p : Sys2Proof.Packet) (_ : State) : Option Nat := firstFail (recordChecks p 1)

def accountReadEffect (_ : Nat) (c : Caller) (p : Sys2Proof.Packet) (s : State) : State × Reply :=
  match s.ctx? (Packet.ctxNo p) with
  | none => refuse s St.badContext
  | some x => s.putRecord p (s.accountRecord x.acct c.role)

def accountReadBody : Body := checked accountReadChecks accountReadEffect

/-- ACCOUNT_READ (R359). -/
def execAccountRead (p : Sys2Proof.Packet) (s : State) : Host.Outcome State Fault Refusal := .next (runPacket 0xA09 accountReadBody p s)

end Sys2Proof.Machine
end

