-- ==== Sys2Proof/Machine/Jobs.lean ====
section
/-! DEFINITION. Armed jobs (R341 to R353): images, arming and disarming, triggers, firings, records and misses. -/

namespace Sys2Proof.Machine

def State.setJob (s : State) (h : Nat) (f : Job → Job) : State := { s with sched := { s.sched with jobs := s.sched.jobs.update h f } }

/-- Compute opcodes a job image may hold (R343). -/
def jobCompute (code : Nat) : Option Compute :=
  match code with
  | 0x200 => some compMatmul
  | 0x201 => some compVector
  | 0x202 => some compReduce
  | 0x203 => some compMove
  | 0x600 => some compConv
  | 0x601 => some compPool
  | 0x602 => some compCrop
  | 0x800 => some compFactor
  | 0x801 => some compTri
  | 0x803 => some compQpSolve
  | _ => none

/-! ### Images (R342, R343) -/

/-- Header of a job image (R342). -/
structure JobHead where
  jver : Nat
  npkts : Nat
  bytes : Nat
  wcet : Nat
  cycles : Nat
  t2 : Nat
  coreMask : Nat
  qpUse : Nat
  check : Nat
  rsv : Bool
deriving DecidableEq, Repr

def JobHead.of (b : List Byte) : JobHead :=
  ⟨fieldAt b 0 2, fieldAt b 2 1, fieldAt b 4 4, fieldAt b 8 4, fieldAt b 12 4, fieldAt b 16 8, fieldAt b 24 2, fieldAt b 26 1, fieldAt b 28 4,
   allZero (sliceAt b 3 1 ++ sliceAt b 27 1 ++ sliceAt b 32 32)⟩

/-- The packets behind the header, as many as fit. -/
def jobPackets (h : Nat) : Nat → List Byte → Option (List JobPacket)
  | 0, b => if b.isEmpty then some [] else none
  | n + 1, b =>
    let len := fieldAt b 10 1
    if b.isEmpty then none
    else if len = 0 ∨ b.length < 64 * len then none
    else (jobPackets h n (b.drop (64 * len))).map (fun l =>
      JobPacket.mk (fieldAt b 0 2)
        { path := .job h, ver := b.getD 2 0, flags := b.getD 3 0, seq := BitVec.ofNat 32 (fieldAt b 4 4), ctx := BitVec.ofNat 16 (fieldAt b 8 2),
          len := b.getD 10 0, rsv := BitVec.ofNat 40 (fieldAt b 11 5), body := sliceAt b 16 (64 * len - 16) } :: l)

/-- The packet is one of the kinds of R343, and its header is as a ring packet's (R59, R70). -/
def JobPacket.allowed (x : JobPacket) (ctx : Nat) : Bool :=
  decide (Packet.ctxNo x.pkt = ctx) && decide (x.pkt.rsv = 0) && decide (x.pkt.flags.toNat < 4) && decide (x.pkt.ver.toNat / 16 = 2 ∧ x.pkt.ver.toNat % 16 ≤ 3) &&
  ((jobCompute x.opcode).isSome || (decide (x.opcode = 0x300) && !bit (Packet.fld x.pkt 35 1) 0) || decide (x.opcode = 0x504))

/-- Positions an operation takes part on (R345); a channel not set up yet has none. -/
def State.usedBy (s : State) (x : JobPacket) : List Nat :=
  let p := x.pkt
  match x.opcode with
  | 0x300 => if Packet.fld p 32 1 = 0 ∨ Packet.fld p 33 1 = 0 then [Packet.fld p 34 1] else []
  | 0x504 => match s.stream? (Packet.fld p 16 2) with
    | some y => [y.position]
    | none => []
  | 0x803 => if (s.channel (Packet.fld p 16 1)).ready then [(s.channel (Packet.fld p 16 1)).core] else []
  | _ => (List.range (Packet.fld p 17 1)).map (fun i => Packet.fld p 16 1 + i)

def maskOf (l : List Nat) : Nat := l.foldl (fun m i => m ||| 2 ^ i) 0

/-- What an operand's READY sample or its channel will be only shows when the job fires (R269, R301). -/
def JobPacket.later (x : JobPacket) : Bool :=
  decide (x.opcode = 0x803) || (descOffsets x.opcode x.pkt).any (fun o => decide ((Packet.desc x.pkt o).loc = 3)) ||
  (decide (x.opcode = 0x300) && decide (Packet.fld x.pkt 32 1 = 3)) || (decide (x.opcode = 0x602) && decide (Packet.fld x.pkt 40 1 = 3))

/-- A caller for what an armed job does: the sequencer. -/
def sequencer : Caller := ⟨.operator, 0, none⟩

/-- The packet passes its own chapter's checks as things stand (R345). -/
def State.jobPacketOk (s : State) (ctx n : Nat) (q : Partition) (x : JobPacket) : Bool :=
  let p := x.pkt
  let fine : Nat → Bool := fun st => decide (st = 0) || (decide (st = St.notFound) && x.later)
  x.allowed ctx && (match x.opcode with
    | 0x300 => (match tileMoveChecks sequencer p s with
      | some _ => false
      | none => (match (tileMoveEffect 0 sequencer p s).2 with
        | .done st _ _ => fine st || decide (st = St.memUncorrectable)
        | .full st _ _ _ _ _ => fine st || decide (st = St.memUncorrectable)
        | _ => true))
    | 0x504 => (match s.stream? (Packet.fld p 16 2) with
      | none => false
      | some y => decide (y.ctx = ctx) && y.jobFed && decide (Packet.fld p 18 2 = 1) && chunkOk y p q.inService && (match s.chunkRefs ctx p with
        | none => true
        | some e => fine e && ([32, 128, 176].any (fun o => decide ((Packet.desc p o).loc = 3)))))
    | c => (match jobCompute c with
      | none => false
      | some f => (match f (.job 64) ctx n q p s with
        | .stop st _ _ => fine st
        | _ => true)))

/-! ### Arming (R344 to R346) -/

/-- Latest trigger time of an armed job (R345). -/
def State.latest (s : State) : Nat → Nat → Nat
  | 0, _ => 0
  | k + 1, h => match s.sched.jobs.get? h with
    | none => 0
    | some j => if j.trigger = 0 then 0 else if j.trigger < 3 then j.latestUs * 1000
      else match s.sched.jobs.get? j.pred with
        | none => 0
        | some y => s.latest k j.pred + y.wcet + 12000

/-- Positions of a job, its shadows' included (R353). -/
def jobPositions (coreMask : Nat) (pair : Bool) (half : Nat) : List Nat :=
  let l := (List.range 16).filter (bit coreMask)
  if pair then l ++ l.map (· + half) else l

def Job.positions (j : Job) (q : Partition) : List Nat := jobPositions j.coreMask j.pair (q.positions.length / 2)

/-- Cycles a frame that the armed jobs of a partition declare on a position. -/
def State.cyclesOn (s : State) (part : Nat) (q : Partition) (pos : Nat) : Nat :=
  ((s.sched.jobs.filter (fun kv => decide (kv.2.part = part) && (kv.2.positions q).contains pos)).map (fun kv => kv.2.cycles)).foldl (· + ·) 0

/-- Jobs in the store of a cluster's sequencer (R341). -/
def State.jobsIn (s : State) (cluster : Nat) : List (Nat × Job) :=
  s.sched.jobs.filter (fun kv => match s.sched.partitions.get? kv.2.part with
    | some q => q.clusters.contains cluster
    | none => false)

/-- Bytes of the image a JOB_ARM names. -/
def State.jobImage (s : State) (p : Sys2Proof.Packet) : List Byte :=
  let n := min 16384 (fieldAt (s.t2Read (Packet.ctxNo p) (Packet.fld p 16 8) 64) 4 4)
  s.t2Read (Packet.ctxNo p) (Packet.fld p 16 8) n

def jobFields (p : Sys2Proof.Packet) : Bool :=
  let t := Packet.fld p 24 1
  decide (Packet.len p = 1) && Packet.rsvZero p 30 32 && Packet.rsvZero p 44 48 && Packet.rsvZero p 50 52 && Packet.rsvZero p 56 64 &&
  decide (Packet.fld p 16 8 % 64 = 0 ∧ Packet.fld p 16 8 < 2 ^ 48) && decide (t ≤ 3 ∧ Packet.fld p 25 1 ≤ 1) && decide (Packet.fld p 52 4 % 64 = 0) &&
  (decide (t = 3) || decide (Packet.fld p 26 2 = 0)) && (decide (t = 1 ∨ t = 2) || (decide (Packet.fld p 28 2 = 0) && Packet.rsvZero p 32 44))

/-- JVER, IMAGE_BYTES, NPKTS, WCET_NS, CHECK and the packets (R342, R343, R362). -/
def State.imageWrong (s : State) (ctx n : Nat) (q : Partition) (img : List Byte) : Bool :=
  let h := JobHead.of img
  let pk := jobPackets 64 h.npkts (img.drop 64)
  decide (h.jver ≠ 1 ∨ h.npkts = 0 ∨ 64 < h.npkts ∨ h.bytes < 64 ∨ 16384 < h.bytes ∨ h.wcet = 0) || !h.rsv || decide (img.length ≠ h.bytes) ||
  decide (crc32 (img.drop 64) ≠ h.check) || (match pk with
    | none => true
    | some l => !l.all (s.jobPacketOk ctx n q))

/-- CORE_MASK and QP_USE against the packets (R345, R455). -/
def State.masksWrong (s : State) (q : Partition) (img : List Byte) : Bool :=
  let h := JobHead.of img
  let l := (jobPackets 64 h.npkts (img.drop 64)).getD []
  let used := maskOf (l.map s.usedBy).flatten
  let qp := maskOf ((l.filter (fun x => decide (x.opcode = 0x803))).map (fun x => Packet.fld x.pkt 16 1))
  let loose := l.any (fun x => decide (x.opcode = 0x803) && !(s.channel (Packet.fld x.pkt 16 1)).ready)
  decide (used &&& h.coreMask ≠ used) || (!loose && decide (used ≠ h.coreMask)) || decide (qp ≠ h.qpUse) || decide (h.qpUse &&& q.qpMask ≠ h.qpUse) ||
  ((List.range 16).filter (bit h.coreMask)).any (fun i => (q.coreAt i).isNone)

/-- The checks of R345, in the order of its table. -/
def jobArmChecks (_ : Caller) (p : Sys2Proof.Packet) (s : State) : Option Nat :=
  let c := Packet.ctxNo p
  let a := Packet.fld p 16 8
  let t := Packet.fld p 24 1
  let pair := bit (Packet.fld p 25 1) 0
  let slots := Packet.fld p 32 12
  firstFail [(decide (c = 0xFFFF), St.badContext), (!jobFields p, St.badParam)]
  |>.orElse (fun _ => match s.partOf c with
    | none => some St.notPermitted
    | some (n, q) =>
      firstFail [(decide (q.state ≠ 1), St.busy), (decide (q.cls ≠ 0), St.notPermitted),
        (s.t2Freeing c a 64 || s.t2Evicted c a 64, St.notFound), (!s.t2Mapped c a 64, St.badParam),
        (!s.t2Mapped c a (min 16384 (fieldAt (s.t2Read c a 64) 4 4)), St.badParam),
        ((s.t2Poison c a (s.jobImage p).length).isSome, St.memUncorrectable)]
      |>.orElse (fun _ =>
        let img := s.jobImage p
        let h := JobHead.of img
        let half := q.positions.length / 2
        firstFail [(s.imageWrong c n q img, St.badParam), (s.masksWrong q img, St.badParam),
          (pair && (!q.pair || decide (2 ^ half ≤ h.coreMask) || (jobPositions h.coreMask pair half).any (fun i => (q.coreAt i).isNone)), St.badParam)]
        |>.orElse (fun _ => match s.regionWrite c (Packet.fld p 48 2) (Packet.fld p 52 4) 1024 with
          | .error e => some e
          | .ok r => if r.size < Packet.fld p 52 4 + 1024 then some St.badParam else none)
        |>.orElse (fun _ => if t = 1 ∨ t = 2 then firstFail
            [(decide (slots = 0) || decide (2 ^ slotCount s.order ≤ slots), St.badParam),
             (((List.range 96).filter (bit slots)).any (fun k => match s.ingest.slots.get? k with
                | some x => decide (x.cfg.iface = 0) || decide (x.cfg.readCtx ≠ c ∧ x.cfg.readCtx ≠ 0xFFFF)
                | none => true), St.notPermitted),
             (decide (Packet.fld p 28 2 = 0 ∨ 3999 < Packet.fld p 28 2), St.badParam)] else none)
        |>.orElse (fun _ =>
          let pred := s.sched.jobs.get? (Packet.fld p 26 2)
          if decide (t = 3) && (match pred with
            | some y => decide (y.part ≠ n) || y.armFlight.isSome || y.disarm.isSome
            | none => true) then some St.notFound
          else
            let lat := if t = 0 then 0 else if t < 3 then Packet.fld p 28 2 * 1000
              else s.latest 64 (Packet.fld p 26 2) + (match pred with
                | some y => y.wcet
                | none => 0) + 12000
            firstFail
              [(decide (h.wcet < h.cycles + 1200 * ceilDiv h.t2 65536), St.badParam), (decide (s.period < lat + h.wcet + 12000), St.noResource),
               ((jobPositions h.coreMask pair half).any (fun i => decide (s.period < s.cyclesOn n q i + h.cycles)), St.noResource),
               (!s.slotsCarry (popBits 49 (s.dueMask n)) (s.armedBytes n + (if pair then 2 else 1) * h.t2), St.noResource),
               (q.clusters.any (fun k => decide (16 ≤ (s.jobsIn k).length) || decide (32768 < ((s.jobsIn k).map (fun j => j.2.imageBytes)).foldl (· + ·) h.bytes)),
                St.noResource),
               (decide (64 ≤ s.sched.jobs.length), St.noResource)])))

def jobArmEffect (id : Nat) (_ : Caller) (p : Sys2Proof.Packet) (s : State) : State × Reply :=
  let c := Packet.ctxNo p
  match s.partOf c, pickFree s.fresh 64 s.sched.jobs.keys with
  | some (n, _), some k =>
    let img := s.jobImage p
    let h := JobHead.of img
    let j : Job :=
      { part := n, ctx := c, wcet := h.wcet, cycles := h.cycles, t2Bytes := h.t2, coreMask := h.coreMask, qpUse := h.qpUse, imageBytes := h.bytes,
        packets := (jobPackets k h.npkts (img.drop 64)).getD [], trigger := Packet.fld p 24 1, pair := bit (Packet.fld p 25 1) 0, pred := Packet.fld p 26 2,
        latestUs := Packet.fld p 28 2, slotBits := Packet.fld p 32 12, recRegion := Packet.fld p 48 2, recOff := Packet.fld p 52 4,
        armFrame := s.dueFrame, armFlight := some id, disarm := none, disarmFrame := 0, firingNo := 0, firedFrame := none, readyBits := 0,
        firing := none, last := none, bad := false }
    (State.bump { s with sched := { s.sched with jobs := s.sched.jobs.set k j } }, .later)
  | _, _ => refuse s St.noResource

/-- The frame sequencers accept JOB_ARM from control-ready on (R376). DESIGN CHOICE: one that comes earlier waits (log 112). -/
def jobArmBody : Body := fun id c p s => if s.fw.bootStage < 5 then (s, .parkWork) else match jobArmChecks c p s with
  | some st => refuse (if st = St.memUncorrectable then s.rereadT2 (Packet.ctxNo p) (Packet.fld p 16 8) (s.jobImage p).length else s) st
  | none => jobArmEffect id c p s

/-- JOB_ARM (R344). -/
def execJobArm (p : Sys2Proof.Packet) (s : State) : Host.Outcome State Fault Refusal := .next (runPacket 0xA04 jobArmBody p s)

/-- JOB_ARMED at the edge that opens frame `fr` (R346). -/
def State.armJobs (s : State) (fr : Nat) : State :=
  s.sched.jobs.foldl (fun s kv => match kv.2.armFlight with
    | some id => if kv.2.armFrame ≤ fr then (s.setJob kv.1 (fun j => { j with armFlight := none })).finish id St.ok 0 (kv.1 + 2 ^ 32 * (fr % 2 ^ 32)) else s
    | none => s) s

def jobDisarmChecks (_ : Caller) (p : Sys2Proof.Packet) (s : State) : Option Nat :=
  let h := Packet.fld p 16 1
  let j := s.sched.jobs.get? h
  firstFail
    [(!shortOk p 17, St.badParam), (decide (Packet.ctxNo p = 0xFFFF), St.badContext),
     (match j with
      | some x => x.armFlight.isSome
      | none => true, St.notFound),
     (match j with
      | some x => decide (x.ctx ≠ Packet.ctxNo p)
      | none => false, St.notPermitted),
     (s.sched.jobs.any (fun kv => decide (kv.2.trigger = 3 ∧ kv.2.pred = h)) || (match j with
      | some x => x.disarm.isSome
      | none => false), St.busy)]

def jobDisarmEffect (id : Nat) (_ : Caller) (p : Sys2Proof.Packet) (s : State) : State × Reply :=
  (s.setJob (Packet.fld p 16 1) (fun j => { j with disarm := some id, disarmFrame := s.clock.nextFrame }), .later)

def jobDisarmBody : Body := checked jobDisarmChecks jobDisarmEffect

/-- JOB_DISARM (R347). -/
def execJobDisarm (p : Sys2Proof.Packet) (s : State) : Host.Outcome State Fault Refusal := .next (runPacket 0xA05 jobDisarmBody p s)

/-- Disarms whose edge has passed end once no firing of their job is in progress (R347). -/
def State.settleJobs (s : State) : State :=
  s.sched.jobs.foldl (fun s kv => match kv.2.disarm with
    | some id => if kv.2.disarmFrame ≤ s.frameNo ∧ kv.2.firing.isNone then
        State.finish { s with sched := { s.sched with jobs := s.sched.jobs.erase kv.1 } } id St.ok 0 0 else s
    | none => s) s

/-! ### Records and misses (R349, R350) -/

/-- Bits of RFLAGS. -/
def rfMiss : Nat := 1
def rfSkipped : Nat := 2
def rfLate : Nat := 4
def rfPredFailed : Nat := 8
def rfMismatch : Nat := 16
def rfCoalesced : Nat := 32

/-- A 64-byte firing record (R349). -/
def firingRecord (frame trigger dispatch done status rflags exc : Nat) (slack : Int) (no : Nat) : List Byte :=
  toLe 8 frame ++ toLe 8 trigger ++ toLe 8 dispatch ++ toLe 8 done ++ toLe 2 status ++ toLe 2 rflags ++ toLe 2 exc ++ zeros 2 ++
  toLe 4 (toBits 32 slack) ++ toLe 4 (no % 2 ^ 32) ++ zeros 16

/-- Write the next record of a job. -/
def State.putFiring (s : State) (h : Nat) (frame : Nat) (bytes : Nat → List Byte) (coalesced : Bool) : State :=
  match s.sched.jobs.get? h with
  | none => s
  | some j =>
    let no := j.firingNo + 1
    (s.apply [⟨.region, regionKey j.recRegion (j.recOff + 64 * (no % 16)), bytes no⟩]).setJob h (fun j =>
      { j with firingNo := no, last := some ⟨no, bytes no, frame, coalesced⟩ })

/-- A miss becomes known: CTL_MISS with the frame of the trigger, and the counts (R350). -/
def State.missed (s : State) (h frame : Nat) : State :=
  match s.sched.jobs.get? h with
  | none => s
  | some j =>
    let s := (s.accPart j.part (fun a => { a with misses := a.misses + 1 })).acc (fun a => { a with misses := a.misses + 1 })
    let s := { (s.setPart j.part (fun q => { q with misses := q.misses + 1 })) with win := { s.win with missTotal := s.win.missTotal + 1 } }
    s.post ⟨0x30, 3, 2, some j.ctx, j.part, frame⟩

/-- A trigger ignored in the frame the job fired in: COALESCED, in the record to come or in the one written (R348, R349). -/
def State.coalesce (s : State) (h : Nat) : State :=
  match s.sched.jobs.get? h with
  | none => s
  | some j =>
    if (match j.firing with
        | some f => decide (f.frame = s.frameNo)
        | none => false) then s.setJob h (fun j => { j with firing := j.firing.map (fun f => { f with rflags := f.rflags ||| rfCoalesced }) })
    else match j.last with
      | none => s
      | some r =>
        if r.frame ≠ s.frameNo ∨ r.coalesced then s
        else
          let b := r.bytes.take 34 ++ toLe 2 (fieldAt r.bytes 34 2 ||| rfCoalesced) ++ r.bytes.drop 36
          (s.apply [⟨.region, regionKey j.recRegion (j.recOff + 64 * (r.number % 16)), b⟩]).setJob h (fun j => { j with last := some { r with bytes := b, coalesced := true } })

/-! ### Placing a firing's packets (R341, R343, R353) -/

/-- Operations of the firing still run, on cores or in streams' queues. -/
def State.firingBusy (s : State) (h : Nat) : Bool :=
  s.busyFor (.job h) || s.apps.streams.any (fun kv => kv.2.queue.any (fun o => decide (o.owner = .job h)))

def State.setFiring (s : State) (h : Nat) (f : Firing → Firing) : State := s.setJob h (fun j => { j with firing := j.firing.map f })

/-- A packet of the firing completes with a status. -/
def State.firingOutcome (s : State) (h status : Nat) : State :=
  match s.sched.jobs.get? h with
  | none => s
  | some j => s.setFiring h (fun f => f.outcome j.packets.length status)

/-- One operation of an owner is still on some core. -/
def State.tagBusy (s : State) (o : Owner) (tag : Nat) : Bool :=
  s.cores.any (fun kv => (kv.2.slots ++ kv.2.held).any (fun x => decide (x.owner = o ∧ x.tag = tag)) ||
    (kv.2.ring ++ kv.2.feed).any (fun d => decide (d.owner = o ∧ d.tag = tag)))

/-- Packets of the firing whose operations are over complete: what they wrote outside the core stores becomes visible, and their
statuses count (R16, R343). -/
def State.landFiring (s : State) (h : Nat) : State :=
  match (s.sched.jobs.get? h).bind (·.firing) with
  | none => s
  | some f =>
    let ended : Nat → Bool := fun tag => !s.tagBusy (.job h) tag
    let t := (s.apply ((f.writes.filter (fun x => ended x.1)).map (·.2))).setFiring h (fun f =>
      { f with writes := f.writes.filter (fun x => !ended x.1), ends := f.ends.filter (fun x => !ended x.1) })
    (f.ends.filter (fun x => ended x.1)).foldl (fun s x => s.firingOutcome h x.2) t

/-- The samples that the completed packets of a firing held are given up. -/
def State.firingSync (s : State) (h : Nat) : State := (s.landFiring h).unhold (.job h)

/-- Copy the first `n` tiles that a tile move wrote in a core store to the shadow's (R353). -/
def State.mirrorTiles (s : State) (q : Partition) (p : Sys2Proof.Packet) (n : Nat) : State :=
  match (q.coreAt (Packet.fld p 34 1)).bind (fun c => (q.partner c).map (fun d => (c, d))) with
  | none => s
  | some (c, d) => s.apply ((List.range n).map (fun i =>
      let a := Packet.fld p 24 8 + i * Packet.fld p 48 4
      ⟨.core, coreKey d a, s.stores.core.readBytes (coreKey c a) (Packet.fld p 36 4)⟩))

/-- A packet of a firing that waits reads a window whose stream BELLOWS_STOP has ended: it ends with ABORTED (R177). -/
def State.packetStopped (s : State) (code : Nat) (p : Sys2Proof.Packet) : Bool :=
  (descOffsets code p).any (fun o => let t := Packet.desc p o; s.windowStopped t (s.windowSpan t)) ||
  (decide (code = 0x300 ∧ Packet.fld p 32 1 = 1) && s.tiers.stopped.any (fun b => decide (b.window = bits (Packet.fld p 16 8) 63 48)))

/-- Start one packet: whether it could be. -/
def State.startPacket (s : State) (h : Nat) (j : Job) (q : Partition) (x : JobPacket) : State × Bool :=
  let p := x.pkt
  let done : State → Nat → State × Bool := fun s st => ((s.setFiring h (fun f => { f with next := f.next + 1 })).firingOutcome h st, true)
  match x.opcode with
  | 0x300 => match tileMoveChecks sequencer p s with
    | some st => done s st
    | none =>
      let r := tileMoveEffect 0 sequencer p s
      let copy : State → Nat → State := fun t n => if j.pair && decide (Packet.fld p 33 1 = 0) then t.mirrorTiles q p n else t
      match r.2 with
      | .done st _ _ => done r.1 st
      | .full st _ n _ hw _ => done ((copy r.1 (if st = St.ok then n else n + 1)).setFiring h (fun f =>
          { f with writes := f.writes ++ hw.map (fun w => (s.fresh, Wr.mk .host w.1 w.2)) })) st
      | _ => if s.packetStopped x.opcode p then done s St.aborted else (s, false)
  | 0x504 =>
    let k := Packet.fld p 16 2
    match s.stream? k with
    | none => done s St.notFound
    | some y =>
      if y.residency = 3 ∧ !y.queue.any (fun o => decide (o.opcode = 0x507)) then done s St.coreFault
      else
        let o : StreamOp := ⟨.job h, 0x504, y.nextCseq, p, false, false, false, [], 0, 0, false⟩
        let s := s.setStream k (fun y => { y with nextCseq := (y.nextCseq + 1) % 2 ^ 32, queue := y.queue ++ [o] })
        ((s.setFiring h (fun f => { f with next := f.next + 1 })).streamTurn k, true)
  | c => match jobCompute c with
    | none => done s St.badParam
    | some f => match f (.job h) j.ctx j.part q p s.ahead with
      | .stop st _ _ => done s st
      | .headers => done s St.badParam
      | .wait => if s.packetStopped x.opcode p then done s St.aborted else (s, false)
      | .run w =>
        let w := (if j.pair then w.mirror q else w).dealt
        if s.coreWaits q w then (s, false)
        else ((s.beginWork (.job h) j.part w).setFiring h (fun f =>
          { f with writes := f.writes ++ w.later.map (fun x => (s.fresh, x)), ends := f.ends ++ [(s.fresh, w.status)], next := f.next + 1,
                   exc := f.exc ||| w.exc, until_ := max f.until_ (w.ends.getD 0) }), true)

/-- Start packets in image order until one has to wait (R343). -/
def State.startPackets (h : Nat) : Nat → State → State
  | 0, s => s
  | n + 1, s => match s.sched.jobs.get? h with
    | none => s
    | some j => match j.firing, s.sched.partitions.get? j.part with
      | some f, some q => match j.packets[f.next]? with
        | none => s
        | some x =>
          if Packet.fence x.pkt && s.firingBusy h then s
          else
            let s := if Packet.fence x.pkt then s.firingSync h else s
            let r := s.startPacket h j q x
            if r.2 then State.startPackets h n (r.1.landFiring h) else r.1
      | _, _ => s

/-- Packets of firings complete, and those that waited go on. -/
def State.settleFirings (s : State) : State :=
  (Tab.keysWhere s.sched.jobs (fun _ j => j.firing.isSome)).foldl (fun s h => State.startPackets h 64 (s.landFiring h)) s

/-! ### Triggers (R348) -/

/-- Armed, and not yet past the edge its disarm waits for. -/
def Job.live (j : Job) (frame : Nat) : Bool := j.armFlight.isNone && (j.disarm.isNone || decide (frame < j.disarmFrame))

/-- A position the job uses is vacant, or its core is out of service (R348, R449, R451, R455). -/
def State.jobBlocked (s : State) (j : Job) (q : Partition) : Bool :=
  (j.positions q).any (fun i => match q.coreAt i with
    | some c => s.coreOut c
    | none => true)

/-- Jobs a job precedes. -/
def State.successors (s : State) (h : Nat) : List Nat := Tab.keysWhere s.sched.jobs (fun _ j => decide (j.trigger = 3 ∧ j.pred = h))

/-- Skip a job for the frame: a record, a miss, and its successors are skipped too (R348, R349, R350). -/
def State.skipJob : Nat → Nat → Nat → Nat → State → State
  | 0, _, _, _, s => s
  | n + 1, h, trigger, flags, s => match s.sched.jobs.get? h with
    | none => s
    | some j =>
      if !j.live s.frameNo then s
      else if j.firedFrame = some s.frameNo then s.coalesce h
      else
        let fr := s.frameNo
        let s := s.setJob h (fun j => { j with firedFrame := some fr })
        let s := s.putFiring h fr (firingRecord fr trigger 0 0 0 (flags ||| rfSkipped ||| rfMiss) 0 ((j.wcet + 12000 : Nat) : Int)) false
        let s := s.missed h fr
        (s.successors h).foldl (fun s k => State.skipJob n k trigger 0 s) s

/-- A trigger of a job at a robot time (R348); a job whose part of the store is bad starts nothing (R444). Its first operation is placed within 4 us: when exactly is free (log 32). -/
def State.fireJob (s : State) (h trigger flags : Nat) : State :=
  match s.sched.jobs.get? h with
  | none => s
  | some j => match s.sched.partitions.get? j.part with
    | none => s
    | some q =>
      if !j.live s.frameNo then s
      else if j.firedFrame = some s.frameNo then s.coalesce h
      else if j.firing.isSome || s.jobBlocked j q then State.skipJob 64 h trigger flags s
      else
        let lat := Sys2Proof.Config.freeNat s.fresh % 4001
        let f : Firing := ⟨s.frameNo, trigger, trigger + lat, if j.bad then St.memUncorrectable else 0, flags, 0, false,
          if j.bad then j.packets.length else 0, trigger + lat, [], []⟩
        let s := (s.setJob h (fun j => { j with firedFrame := some s.frameNo, firing := some f })).bump
        let s := s.accPart j.part (fun a => { a with dispatched := a.dispatched + 1, latMax := max a.latMax lat })
        State.startPackets h 64 s

/-- TRIG_LATEST_EXPIRE (R348): fires with LATE_INPUT unless the job has fired in the frame. -/
def State.trigLatest (s : State) (h : Nat) : State :=
  match s.sched.jobs.get? h with
  | none => s
  | some j =>
    if decide (j.trigger = 1 ∨ j.trigger = 2) && j.live s.frameNo && decide (j.firedFrame ≠ some s.frameNo) then
      let t := s.clock.frameStart + j.latestUs * 1000
      (s.reach t).fireJob h t rfLate
    else s

/-- Latest trigger times that lie before robot time `t` have come before what happens at `t` (R348). -/
def State.latestBefore (s : State) (t : Nat) : State :=
  (Tab.keysWhere s.sched.jobs (fun _ j => decide (j.trigger = 1 ∨ j.trigger = 2) && decide (s.clock.frameStart + j.latestUs * 1000 < t))).foldl
    (fun s h => s.trigLatest h) s

/-- The firing in progress began at the latest trigger time, in the 8 ns step that is current (R361). -/
def State.lateNow (s : State) (j : Job) : Bool := match j.firing with
  | some f => bit f.rflags 2 && decide (f.frame = s.frameNo ∧ f.trigger / 8 = s.clock.now / 8)
  | none => false

/-- Input-ready of a slot reaches every sequencer (R270, R348). A condition met in the very step of F+TRIG_LATEST_US takes LATE_INPUT
from the firing that has begun there (R361). -/
def State.inputReady (s : State) (slot : Nat) : State :=
  (Tab.keysWhere s.sched.jobs (fun _ j => decide (j.trigger = 1 ∨ j.trigger = 2) && bit j.slotBits slot && j.live s.frameNo)).foldl (fun s h =>
    match s.sched.jobs.get? h with
    | none => s
    | some j =>
      let b := j.readyBits ||| 2 ^ slot
      let met := decide (j.trigger = 1 ∨ b = j.slotBits)
      if j.firedFrame = some s.frameNo then
        if s.lateNow j then
          let t := s.setJob h (fun j => { j with readyBits := b })
          if met then t.setFiring h (fun f => { f with rflags := f.rflags - rfLate }) else t
        else s.coalesce h
      else
        let s := s.setJob h (fun j => { j with readyBits := b })
        if met then s.fireJob h s.clock.now 0 else s) s

/-- JOB_FIRE at action 5 of the edge (R35, R348). -/
def State.fireEdgeJobs (s : State) : State :=
  let s := { s with sched := { s.sched with jobs := s.sched.jobs.mapVals (fun _ j => { j with readyBits := 0 }) } }
  (Tab.keysWhere s.sched.jobs (fun _ j => decide (j.trigger = 0))).foldl (fun s h => s.fireJob h s.clock.frameStart 0) s

/-- SAMPLE_READY (R270): the sample is READY, and input-ready is raised. -/
def State.readyAndFire (s : State) (slot : Nat) : State :=
  let r := (s.latestBefore (s.clock.now / 8 * 8)).sampleReady slot
  if r.2 then r.1.inputReady slot else r.1

/-- CTL_MISS (R350): a firing is later than its bound. -/
def State.lateFiring (s : State) (h : Nat) : State :=
  match s.sched.jobs.get? h with
  | none => s
  | some j => match j.firing with
    | none => s
    | some f =>
      if f.missKnown then s
      else
        let s := s.reach (f.trigger + j.wcet + 12001)
        (s.setFiring h (fun f => { f with missKnown := true, rflags := f.rflags ||| rfMiss })).missed h f.frame

/-- Firings whose bound has passed before `t` without completion are misses of the frame that ends then (R350). -/
def State.lateBefore (s : State) (t : Nat) : State :=
  (Tab.keysWhere s.sched.jobs (fun _ j => match j.firing with
    | some f => !f.missKnown && decide (f.trigger + j.wcet + 12001 ≤ t)
    | none => false)).foldl (fun s h => s.lateFiring h) s

/-! ### The end of a firing (R343, R349, R350, R353) -/

/-- Primary cores of the pairs whose digests differ: free, for the manual gives no way to tell a failed core (log 33). -/
def State.badPairs (s : State) (j : Job) (q : Partition) : List (Nat × Nat) :=
  if !j.pair then []
  else ((List.range 16).filter (fun i => bit j.coreMask i && bit (Sys2Proof.Config.freeNat s.fresh) i)).filterMap (fun i =>
    (q.coreAt i).bind (fun c => (q.partner c).map (fun d => (c, d))))

/-- Submit both cores of a pair to self-test (R450). -/
def State.testPair (s : State) (part : Nat) (x : Nat × Nat) : State :=
  (s.count (fun c => { c with pairMismatches := sat32 (c.pairMismatches + 1) })) |> fun s =>
  { s with rel := { s.rel with pairTests := s.rel.pairTests ++ [⟨part, x.1, x.2, []⟩], testing := s.rel.testing ++ [x.1, x.2] } }

/-- FIRING_COMPLETE (R343, R349): everything started has ended and nothing is left to start. -/
def State.completeFiring (s : State) (h : Nat) : State :=
  match s.sched.jobs.get? h with
  | none => s
  | some j => match j.firing, s.sched.partitions.get? j.part with
    | some f, some q =>
      if f.next < j.packets.length || s.firingBusy h then s
      else
        let f := ((((s.landFiring h).sched.jobs.get? h).bind (·.firing)).getD f)
        let s := (s.firingSync h).reach (max f.dispatch f.until_)
        let bad := s.badPairs j q
        let s := (bad.foldl (fun s x => s.testPair j.part x) s).bump
        let status := if bad.isEmpty then f.status else St.coreFault
        let flags := if bad.isEmpty then f.rflags else f.rflags ||| rfMismatch
        let done := s.clock.now
        let miss := decide (f.trigger + j.wcet + 12000 < done) || decide (status = St.coreFault ∨ status = St.memUncorrectable) || !bad.isEmpty
        let slack : Int := ((j.wcet + 12000 : Nat) : Int) - ((done - f.dispatch : Nat) : Int)
        let flags := if miss then flags ||| rfMiss else flags
        let s := s.putFiring h f.frame (firingRecord f.frame f.trigger f.dispatch done status flags f.exc slack) (bit flags 5)
        let s := s.setJob h (fun j => { j with firing := none })
        let s := s.accPart j.part (fun a => { a with completed := a.completed + 1, slackMin := some (min slack (a.slackMin.getD slack)) })
        let s := if miss && !f.missKnown then s.missed h f.frame else s
        (s.successors h).foldl (fun s k => s.fireJob k done (if status = 0 then 0 else rfPredFailed)) s
    | _, _ => s

end Sys2Proof.Machine
end

