-- ==== Sys2Proof/Machine/Firmware.lean ====
section
/-! DEFINITION. Firmware bundles, their staging in the boot flash, and the activation packets (R363 to R369, R372). -/

namespace Sys2Proof.Machine

/-! ### Banks (R363) -/

def State.bank (s : State) (b : Bool) : Bank := if b then s.fw.bankB else s.fw.bankA

def State.setBank (s : State) (b : Bool) (f : Bank → Bank) : State :=
  { s with fw := if b then { s.fw with bankB := f s.fw.bankB } else { s.fw with bankA := f s.fw.bankA } }

/-- The bank that staging writes: the one that is not ACTIVE, or, with none ACTIVE, the one the marker does not name (R366; log 34). -/
def State.stageBank (s : State) : Bool :=
  if s.fw.bankA.state = 2 then true else if s.fw.bankB.state = 2 then false else !s.fw.markerB

/-- Release of the bank in a state: 1 STAGED, 3 REJECTED; 0 when there is none. -/
def State.bankRelease (s : State) (st : Nat) : Nat :=
  if s.fw.bankA.state = st then s.fw.bankA.release else if s.fw.bankB.state = st then s.fw.bankB.release else 0

/-! ### Bundles (R364, R366) -/

def bundleRelease (b : Mem) : Nat := leNat (b.readBytes 4 4)
def bundleSec (b : Mem) : Nat := leNat (b.readBytes 8 4)

/-- A public key is one of the fused firmware keys, and not revoked (R390). -/
def Fuses.trusts (f : Fuses) (key : List Byte) : Bool := f.firmware.any (fun x => decide (x.1 = Sys2Proof.Config.sha384 key) && !x.2)

/-- Digest of every segment matches, and the header's signature is by a Novlar firmware key in force (R364, R390). -/
def bundleSigned (f : Fuses) (b : Mem) : Bool :=
  let n := min 11 (b.read 3).toNat
  let sig := b.readBytes 720 96
  let msg := b.readBytes 0 720
  Sys2Proof.Config.firmwareKeys.any (fun k => f.trusts k && Sys2Proof.Config.ecdsaVerify k msg sig) &&
  (List.range n).all (fun i =>
    let h := b.readBytes (16 + 64 * i) 64
    decide (fixedLen 48 (Sys2Proof.Config.sha384 (b.readBytes (fieldAt h 4 4) (fieldAt h 8 4))) = sliceAt h 16 48))

/-- Order codes of ORDER_MASK (R364). -/
def bundleFits (o : Sys2Proof.OrderCode) (b : Mem) : Bool := bit (b.read 2).toNat (orderByte o - 1)

/-- The checks of LAST, in the order R366 lists them. -/
def State.bundleStatus (s : State) (b : Mem) (received : Nat) : Option Nat :=
  firstFail [(!bundleSigned s.sec.fuses b || decide (bundleSec b < s.sec.fuses.minSecVersion), St.badSignature),
    (!bundleFits s.order b || decide (leNat (b.readBytes 12 4) ≠ received) || decide ((b.read 3).toNat ≠ 11), St.badParam)]

/-! ### FW_STAGE (R365, R366) -/

def fwStageChecks (_ : Caller) (p : Sys2Proof.Packet) (s : State) : Option Nat :=
  let off := Packet.fld p 16 4
  let n := Packet.fld p 20 4
  let fl := Packet.fld p 24 1
  firstFail
    [(decide (Packet.len p = 0) || !Packet.rsvZero p 25 64 || !Packet.rsvZero p (64 + n) (64 * Packet.len p) || decide (3 < fl ∨ off % 64 ≠ 0 ∨ n % 64 ≠ 0 ∨ (Packet.len p - 1) * 64 < n), St.badParam),
     (s.fw.activation.isSome, St.busy),
     (bit fl 0 && decide (off ≠ 0), St.badParam), (!bit fl 0 && decide (s.fw.stageNext ≠ some off), St.badParam),
     (decide (8 * 2 ^ 20 < off + n), St.badParam)]

/-- The ring of 64,512 entries: full, it loses its oldest sector of 1,024 entries (R458). -/
def putEntry (l : List LogEntry) (e : LogEntry) : List LogEntry := (if 64512 ≤ l.length then l.drop 1024 else l) ++ [e]

/-- The fault-log entries that wait are written: a flash write asked for later comes after them (R366). -/
def State.flushLog (s : State) : State := { s with rel := { s.rel with queue := [], entries := s.rel.queue.foldl putEntry s.rel.entries } }

def fwStageEffect (_ : Nat) (_ : Caller) (p : Sys2Proof.Packet) (s : State) : State × Reply :=
  let off := Packet.fld p 16 4
  let n := Packet.fld p 20 4
  let fl := Packet.fld p 24 1
  let b := s.stageBank
  if n = 0 then (s, .done St.ok Inf.zeroWork 0)
  else
    let s := s.flushLog
    let s := if bit fl 0 then s.setBank b (fun _ => ⟨0, 0, 0, false, []⟩) else s.setBank b (fun x => { x with state := 0, signed := false })
    let s := s.setBank b (fun x => { x with bytes := x.bytes.writeBytes off (Packet.bytes p 64 n) })
    let s := { s with fw := { s.fw with stageNext := some (off + n) } }
    if !bit fl 1 then done0 s 0
    else
      let img := (s.bank b).bytes
      match s.bundleStatus img (off + n) with
      | some st => refuse s st
      | none =>
        let s := s.setBank b (fun x => { x with state := 1, release := bundleRelease img, secVersion := bundleSec img, signed := true })
        done0 { s with fw := { s.fw with stageNext := none } } (bundleRelease img)

def fwStageBody : Body := checked fwStageChecks fwStageEffect

/-- FW_STAGE (R365). -/
def execFwStage (p : Sys2Proof.Packet) (s : State) : Host.Outcome State Fault Refusal := .next (runPacket 0xB00 fwStageBody p s)

/-! ### Deferral (R369) -/

/-- Robot time from which the level has been below E1: 50 ms after the last cause that no longer stands cleared (R435). -/
def State.calmSince (s : State) : Nat := (s.power.causes.map (fun kv => if kv.2.stands then 0 else kv.2.cleared + 50000000)).foldl max 0

/-- End of the 100 ms behind the last emergency; before the first cause there is none to wait out. -/
def State.deferEnd (s : State) : Nat := if s.power.causes.isEmpty then 0 else s.calmSince + 100000000

def State.deferEvent (s : State) : State := s.post ⟨0x61, 6, 1, none, 0, s.power.level⟩

/-- A deferral that has run out: the activation waits for its edge. It is settled before a cause is raised, so that the wait for
the edge counts into no deferral (R369). -/
def State.settleDeferral (s : State) : State :=
  match s.fw.activation with
  | some a =>
    if a.state = 1 ∧ s.power.level = 0 ∧ !s.power.causes.any (fun kv => kv.2.stands) ∧ s.deferEnd ≤ s.clock.now then
      { s with fw := { s.fw with activation := some { a with state := 2, total := a.total + (max a.since s.deferEnd - a.since) } } }
    else s
  | none => s

/-- The level has risen: a pending activation is deferred, or deferred again (R369, R372). -/
def State.deferOnRise (s : State) : State :=
  match s.fw.activation with
  | some a =>
    if a.state = 3 then s
    else if a.state = 2 then State.deferEvent { s with fw := { s.fw with activation := some { a with state := 1, since := s.clock.now } } }
    else s.deferEvent
  | none => s

/-! ### ACTIVATE_FW and FW_STATUS (R367, R368) -/

def activateChecks (_ : Caller) (p : Sys2Proof.Packet) (s : State) : Option Nat :=
  firstFail [(!shortOk p 20, St.badParam), (!s.clock.parked || s.controlActive, St.notParked),
    (!((decide (s.fw.bankA.state = 1) && decide (s.fw.bankA.release = Packet.fld p 16 4)) ||
       (decide (s.fw.bankB.state = 1) && decide (s.fw.bankB.release = Packet.fld p 16 4))), St.notFound),
    (s.fw.activation.isSome, St.busy)]

def activateEffect (id : Nat) (_ : Caller) (p : Sys2Proof.Packet) (s : State) : State × Reply :=
  let a : Activation := ⟨some id, Packet.fld p 16 4, 1, s.clock.now, 0, 0, false⟩
  if 1 ≤ s.power.level ∨ s.clock.now < s.deferEnd then (State.deferEvent { s with fw := { s.fw with activation := some a } }, .later)
  else ({ s with fw := { s.fw with activation := some { a with state := 2 } } }, .later)

def activateBody : Body := checked activateChecks activateEffect

/-- ACTIVATE_FW (R368). -/
def execActivateFw (p : Sys2Proof.Packet) (s : State) : Host.Outcome State Fault Refusal := .next (runPacket 0xB01 activateBody p s)

/-- Activation state code (R367). -/
def State.activationCode (s : State) : Nat := match s.settleDeferral.fw.activation with
  | some a => a.state
  | none => 0

def fwStatusChecks (_ : Caller) (p : Sys2Proof.Packet) (_ : State) : Option Nat :=
  firstFail [(!shortOk p 17 || decide (1 < Packet.fld p 16 1), St.badParam)]

def State.hasBank (s : State) (st : Nat) : Bool := decide (s.fw.bankA.state = st) || decide (s.fw.bankB.state = st)

def State.fwStatus (s : State) (select : Nat) : Nat :=
  if select = 0 then s.fw.activeRelease + 2 ^ 32 * s.activationCode + 2 ^ 34 * b2n (s.hasBank 1) + 2 ^ 35 * b2n (s.hasBank 3)
  else s.bankRelease 1 + 2 ^ 32 * s.bankRelease 3

def fwStatusBody : Body := checked fwStatusChecks (fun _ _ p s => done0 s (s.fwStatus (Packet.fld p 16 1)))

/-- FW_STATUS (R367). -/
def execFwStatus (p : Sys2Proof.Packet) (s : State) : Host.Outcome State Fault Refusal := .next (runPacket 0xB02 fwStatusBody p s)

end Sys2Proof.Machine
end

