-- ==== Sys2Proof/Machine/Reports.lean ====
section
/-! DEFINITION. What the part reports of itself: POWER_READ (R440, R441), ERROR_COUNTS (R457) and FAULT_LOG_EXPORT (R458, R459). -/

namespace Sys2Proof.Machine

/-! ### POWER_READ (R440, R441) -/

def State.capW (s : State) : Nat := bits (s.activeWord 0 0 2) 7 0

/-- Effective cap in W (R425, R436). -/
def State.effectiveCap (s : State) : Nat :=
  if s.power.level = 0 then s.capW else if s.power.level = 1 then min s.capW 60 else 40

/-- Temper's latest measurement exceeds the effective cap, and no excursion is in progress (R425). -/
def State.capExceeded (s : State) : Bool := decide (s.effectiveCap * 1000 < s.power.draw) && s.power.excursion.isNone

/-- Some partition is in Quench (R410). -/
def State.quenching (s : State) : Bool := s.sched.partitions.any (fun kv => decide (kv.2.state = 3))

def State.tempOf (s : State) (r : Role) (g : Nat) : Nat := match s.power.temps.get? g with
  | none => 0x8000
  | some t => toBits 16 (if r = .owner then t else t / 10 * 10)

/-- Hottest memory stack. -/
def State.hottestStack (s : State) (r : Role) : Nat :=
  match sortBy (fun (x y : Nat × Int) => decide (y.2 < x.2)) (s.power.temps.filter (fun kv => decide (16 ≤ kv.1))) |>.head? with
  | none => 0x8000
  | some x => s.tempOf r x.1

def packed (w : Nat) (l : List Nat) : Nat := l.foldr (fun x a => x + 2 ^ w * a) 0

/-- Four rail means in units of 10 mW. -/
def State.railWord (s : State) (l : List Nat) : Nat := packed 16 (l.map (fun i => satNat 16 (s.power.railMean.getD i 0 / 10)))

/-- Tenants see a frozen value while any Quench runs (R441). -/
def State.powerWord (s : State) (r : Role) (select : Nat) : Nat :=
  match select with
  | 0 =>
    if r = .tenant then s.power.tenantMean / 1000 * 1000 + 2 ^ 43 * b2n s.quenching
    else (if r = .owner then s.power.mean10 else s.power.mean10 / 1000 * 1000) + 2 ^ 32 * s.effectiveCap + 2 ^ 40 * s.power.level +
      2 ^ 42 * b2n s.power.excursion.isSome + 2 ^ 44 * b2n s.capExceeded + 2 ^ 48 * satNat 16 (s.power.vin / 10)
  | 1 => packed 16 ((List.range 4).map (s.tempOf r))
  | 2 => packed 4 ((List.range 8).map (fun k => ((s.power.clusters.get? k).getD ClusterPower.reset).ps)) + 2 ^ 32 * s.hottestStack r
  | 3 => s.railWord [0, 1, 2, 3]
  | 4 => s.railWord [4, 5, 6, 7]
  | 5 => s.railWord [8, 9, 10, 11]
  | _ => s.railWord [12, 13, 14]

def powerReadChecks (c : Caller) (p : Sys2Proof.Packet) (_ : State) : Option Nat :=
  let k := Packet.fld p 16 1
  firstFail [(!shortOk p 17 || decide (6 < k), St.badParam),
    (decide (c.role = .tenant ∧ k ≠ 0) || decide (c.role = .operator ∧ 2 < k), St.notPermitted)]

def powerReadBody : Body := checked powerReadChecks (fun _ c p s => done0 s (s.powerWord c.role (Packet.fld p 16 1)))

/-- POWER_READ (R440). -/
def execPowerRead (p : Sys2Proof.Packet) (s : State) : Host.Outcome State Fault Refusal := .next (runPacket 0xD00 powerReadBody p s)

/-! ### ERROR_COUNTS (R457) -/

/-- Bit 17k + n for each core of a list. -/
def coreMap (l : List Nat) : Nat := l.foldl (fun m c => m ||| 2 ^ (17 * (c / 256) + c % 256)) 0

def pairWord (x : Nat × Nat) : List Byte := toLe 4 x.1 ++ toLe 4 x.2

/-- The 128-byte error counts record. -/
def State.countsRecord (s : State) : List Byte :=
  let c := s.rel.counts
  toLe 8 s.frameNo ++ pairWord c.coreStore ++ pairWord c.clusterStore ++ pairWord c.xdStore ++ pairWord c.memStacks ++ toLe 4 c.stackRetries ++
  toLe 4 c.linkReplays ++ pairWord c.pcie ++ toLe 4 c.pairMismatches ++ toLe 2 s.rel.fenced.length ++
  toLe 2 ((s.rel.retired.map (fun kv => kv.2.length)).foldl (· + ·) 0) ++ toLe 4 c.fwRestarts ++ toLe 4 c.selfTests ++
  toLe 17 (coreMap s.rel.fenced) ++ toLe 17 (coreMap s.rel.copied) ++ zeros 22

def errorCountsChecks (c : Caller) (p : Sys2Proof.Packet) (_ : State) : Option Nat :=
  if c.role = .owner then
    firstFail [(decide (Packet.ctxNo p ≠ 0xFFFF), St.badContext), (!shortOk p 16, St.badParam)]
  else firstFail (recordChecks p 64)

def errorCountsEffect (_ : Nat) (c : Caller) (p : Sys2Proof.Packet) (s : State) : State × Reply :=
  if c.role = .owner then (s, .full St.ok 0 0 none [] [s.countsRecord]) else s.putRecord p s.countsRecord

def errorCountsBody : Body := checked errorCountsChecks errorCountsEffect

/-- ERROR_COUNTS (R457). -/
def execErrorCounts (p : Sys2Proof.Packet) (s : State) : Host.Outcome State Fault Refusal := .next (runPacket 0xE01 errorCountsBody p s)

/-! ### FAULT_LOG_EXPORT (R458, R459) -/

/-- A fault-log entry as it stands in the flash. -/
def LogEntry.bytes (e : LogEntry) : List Byte :=
  let b := toLe 4 e.seq ++ toLe 4 e.boot ++ toLe 8 e.time ++ toLe 2 e.code ++ toLe 2 e.source ++ toLe 4 e.release ++ toLe 8 e.detail ++ zeros 28
  b ++ toLe 4 (crc32 b)

/-- What a summary copy holds, as numbers (R458). -/
def Summary.words (x : Summary) : List Nat :=
  [x.count, x.bootCount, x.tripCause, b2n x.unlocked, x.fences.length] ++ x.fences ++ (x.retired.map (fun r => [r.1, r.2.length] ++ r.2)).flatten

/-- The newer valid summary copy, 32 KiB; where its fields lie is not given (R458, R459; log 35). -/
def State.newestSummary (s : State) : List Byte := fixedLen 32768 (Sys2Proof.Config.summaryImage (match s.rel.newest with
  | some x => x.words
  | none => []))

/-- The export (R459). -/
def State.logExport (s : State) : List Byte :=
  let head := toLe 2 1 ++ zeros 2 ++ toLe 4 s.rel.entries.length ++ deviceId ++ toLe 4 s.rel.bootCount ++ zeros 36
  let body := head ++ s.newestSummary ++ (s.rel.entries.map LogEntry.bytes).flatten
  body ++ fixedLen 96 (Sys2Proof.Config.identitySign body)

/-- Messages of at most 65,536 bytes. -/
def messagesOf : Nat → List Byte → List (List Byte)
  | 0, _ => []
  | n + 1, bs => if bs.isEmpty then [] else bs.take 65536 :: messagesOf n (bs.drop 65536)

def faultLogExportEffect (_ : Nat) (_ : Caller) (_ : Sys2Proof.Packet) (s : State) : State × Reply :=
  let bs := s.logExport
  (s.bump.logFault 0xA 0 s.rel.entries.length, .full St.ok 0 bs.length none [] (messagesOf 64 bs))

def faultLogExportBody : Body := checked heartbeatChecks faultLogExportEffect

/-- FAULT_LOG_EXPORT (R459). -/
def execFaultLogExport (p : Sys2Proof.Packet) (s : State) : Host.Outcome State Fault Refusal := .next (runPacket 0xE00 faultLogExportBody p s)

end Sys2Proof.Machine
end

