-- ==== Sys2Proof/Machine/Sessions.lean ====
section
/-! DEFINITION. HELLO and RECLAIM, and TEARDOWN of a function (R68, R87 to R90). -/

namespace Sys2Proof.Machine

/-! ### TEARDOWN (R89) -/

/-- Packets that TEARDOWN of a function stops (R73, R89): those of its queues other than the admin queue, and the Bellows streams
that its packets started (R176). The packet `keep` is the one that orders it. -/
def State.tornFlights (s : State) (fn keep : Nat) : List Flight :=
  s.proto.flights.filter (fun f => decide (f.fn = fn ∧ f.id ≠ keep) && (match f.path with
    | .queue q => decide (32 ≤ q ∨ f.opcode = 0x303)
    | _ => false))

/-- What TEARDOWN does at once (R89): work in flight is stopped, the function's event queues and held completions go, and so do
its swap pools with the pages they hold, for which retired key generations may become FREE (R401). -/
def State.teardownNow (s : State) (fn keep : Nat) : State :=
  let s := ((s.tornFlights fn keep).foldl (fun s f => s.stopOp f.id St.aborted) s).setFunc fn (fun f => { f with held := [] })
  State.settleKeys { s with
           proto := { s.proto with eqs := s.proto.eqs.filter (fun kv => !(decide (kv.2.fn = fn) && kv.2.owner.isNone)) },
           kv := { s.kv with pools := s.kv.pools.filter (fun kv => kv.2.fn ≠ fn),
                             seqs := s.kv.seqs.mapVals (fun _ q => { q with pages := q.pages.mapVals (fun _ g =>
                               if decide (g.state = 2 ∨ g.state = 3) && (match s.kv.pools.get? g.pool with
                                 | some x => decide (x.fn = fn)
                                 | none => false) then { g with lost := true } else g) }) } }

def State.deadQueues (s : State) (fn : Nat) : List Nat := Tab.keysWhere s.proto.queues (fun q c => decide (c.fn = fn ∧ 32 ≤ q))

/-- TEARDOWN of an orphaned function (R89): its queues other than the admin queue go with their unfetched packets, a QUEUE_DESTROY
of one of them completes, and the completions not written yet count as held, the admin queue's among them. DESIGN CHOICE: the admin
queue's own unfetched packets stay in its ring, since the queue is not destroyed (log 93). -/
def State.teardown (s : State) (fn keep : Nat) : State :=
  let dead := s.deadQueues fn
  let s := s.teardownNow fn keep
  let gone := s.finishedOf fn
  let s := { s with proto := { s.proto with finished := s.proto.finished.filter (fun f => !gone.contains f) } }
  let s := (dead.filterMap (fun q => (s.proto.queues.get? q).bind (·.closing))).foldl (fun (s : State) id => match s.flight? id with
    | some f => if f.opcode = 9 then s.finish id St.ok 0 f.result else s
    | none => s) s
  { s with proto := { s.proto with queues := s.proto.queues.filter (fun kv => !dead.contains kv.1) } }

/-- TEARDOWN outside orphan mode (R89): the queues are destroyed as QUEUE_DESTROY does it, so each packet fetched still gets its
completion (R55, R63). -/
def State.teardownLive (s : State) (fn keep : Nat) : State :=
  let s := s.teardownNow fn keep
  (s.deadQueues fn).foldl (fun s q => s.setQueue q (fun c => { c with closing := some (c.closing.getD keep) })) s

/-! ### HELLO (R68) -/

def helloChecks (c : Caller) (p : Sys2Proof.Packet) (s : State) : Option Nat :=
  let hb := Packet.fld p 18 2
  let takeover := bit (Packet.fld p 20 1) 0
  let live := match s.func? c.fn with
    | some f => f.session.isSome
    | none => false
  let orphan := match s.func? c.fn with
    | some f => f.orphan
    | none => false
  firstFail [(!shortOk p 21 || decide (2 ≤ Packet.fld p 20 1) || decide (hb < 10 ∨ 10000 < hb), St.badParam),
    (if takeover then !orphan else live, St.badSession)]

/-- HB_PERIOD_MS runs from the HELLO until the first heartbeat is counted (DESIGN CHOICE, log 105). A HELLO that takes over writes
its completion itself, so it waits for bus mastering (R466). -/
def helloEffect (id : Nat) (c : Caller) (p : Sys2Proof.Packet) (s : State) : State × Reply :=
  match chooseVersion (Packet.fld p 16 1) (Packet.fld p 17 1) with
  | none => (s, .full St.badVersion 0 0 (some 0x23) [] [])
  | some v =>
    let n := s.newNonce c.fn
    let orphan := match s.func? c.fn with
      | some f => f.orphan
      | none => false
    if orphan && !s.canReadRing c.fn then (s, .parkWork)
    else
    let s := if orphan then s.teardown c.fn id else s
    let s := (s.setFunc c.fn (fun f =>
      { f with session := some ⟨n, v % 16, Packet.fld p 18 2, s.clock.now⟩, orphan := false,
               reclaimStatus := none, orphanSkips := 0 })).bump
    if orphan then
      -- the completion precedes the event (R88, R90)
      match s.flight? id with
      | none => (s, .later)
      | some f =>
        let fin : Finished := ⟨id, f.path, 1, p.seq.toNat, Packet.ctxNo p, v, Packet.irq p, St.ok, 0, n, s.frameNo, [], none, []⟩
        let s := { s with proto := { s.proto with flights := s.proto.flights.filter (fun g => g.id ≠ id) } }
        ((s.writeCompletion fin).post (reclaimedEvent c.fn 3), .later)
    else (s, .full St.ok 0 n (some v) [] [])

def helloBody : Body := checked helloChecks helloEffect

/-- HELLO (R68). -/
def execHello (p : Sys2Proof.Packet) (s : State) : Host.Outcome State Fault Refusal := .next (runPacket 1 helloBody p s)

/-! ### RECLAIM (R88, R89) -/

/-- ACTION and NONCE of a RECLAIM, in that order (R88). -/
def reclaimStatusOf (fn : Nat) (p : Sys2Proof.Packet) (s : State) : Option Nat :=
  let nonceOk := match (s.func? fn).bind (·.session) with
    | some x => decide (x.nonce = Packet.fld p 16 8)
    | none => false
  firstFail [(!shortOk p 25 || (decide (Packet.fld p 24 1 ≠ 1) && decide (Packet.fld p 24 1 ≠ 2)), St.badParam), (!nonceOk, St.badSession)]

/-- A held completion goes out with HELD, or waits on when another function's orphan mode keeps its host writes back (R87, R88). -/
def State.writeHeld (s : State) (f : Finished) : State :=
  let g := { f with info := f.info ||| Inf.held }
  if s.windowOpen f then s.writeCompletion g else { s with proto := { s.proto with finished := s.proto.finished ++ [g] } }

/-- An accepted RECLAIM in orphan mode: what R88 lists, in its order. -/
def State.reclaimAccept (s : State) (id fn : Nat) (p : Sys2Proof.Packet) (resume : Bool) : State :=
  let n := s.newNonce fn
  let queued := s.finishedOf fn
  let held := ((s.func? fn).getD Func.reset).held ++ queued
  let losers := Tab.keysWhere s.proto.eqs (fun _ q => decide (q.fn = fn) && q.owner.isNone)
  let s := if resume then { s with proto := { s.proto with finished := s.proto.finished.filter (fun f => !queued.contains f) } }
    else s.teardown fn id
  let s := (s.setFunc fn (fun f => { f with orphan := false, orphanSkips := 0, reclaimStatus := none, held := [], session := f.session.map (fun x =>
    { x with nonce := n, lastBeat := s.clock.now }) })).bump
  let ver := s.verOf p 3
  let s := s.writeCompletion ⟨id, p.path, 3, p.seq.toNat, Packet.ctxNo p, ver, Packet.irq p, St.ok, 0, n, s.frameNo, [], none, []⟩
  let s := s.dropFlight id
  let s := if resume then held.foldl State.writeHeld s else s
  let s := s.closeQueues
  let s := losers.foldl (fun s e => s.reportLost e) s
  s.post (reclaimedEvent fn (if resume then 1 else 2))

/-- TEARDOWN accepted outside orphan mode (R89): the function's queues close, and the RECLAIM completes after the packets they had
in flight, with the new nonce as its RESULT. -/
def State.reclaimLive (s : State) (id fn : Nat) : State :=
  let n := s.newNonce fn
  let s := ((s.teardownLive fn id).setFunc fn (fun f => { f with reclaimStatus := none, session := f.session.map (fun x =>
    { x with lastBeat := s.clock.now }) })).bump
  (s.setFlight id (fun f => { f with running := true, parked := false, result := n })).closeQueues

def reclaimBody : Body := fun id c p s =>
  let f := (s.func? c.fn).getD Func.reset
  match reclaimStatusOf c.fn p s with
  | some st =>
    if f.orphan then ((s.setFunc c.fn (fun f => { f with reclaimStatus := some st })).dropFlight id, .later) else refuse s st
  | none =>
    let resume := decide (Packet.fld p 24 1 = 1)
    if !f.orphan then
      if resume then (s, .done St.ok Inf.zeroWork (match f.session with
        | some x => x.nonce
        | none => 0))
      else (s.reclaimLive id c.fn, .later)
    else if !s.canReadRing c.fn then (s, .parkWork)
    else (s.reclaimAccept id c.fn p resume, .later)

/-- RECLAIM (R88, R89). -/
def execReclaim (p : Sys2Proof.Packet) (s : State) : Host.Outcome State Fault Refusal := .next (runPacket 3 reclaimBody p s)

end Sys2Proof.Machine
end

