-- ==== Sys2Proof/Machine/Settle.lean ====
section
/-! DEFINITION. What an end sets going: operations that complete, objects that waited for them, and packets held by Hearth that
are looked at again (R58, R191, R205, R321, R339); and the steps of swaps, streams, Bellows streams and firings. -/

namespace Sys2Proof.Machine

/-! ### Held packets -/

/-- Body of an opcode of group 00h to 03h. -/
def bodyLow (code : Nat) : Option Body :=
  match code with
  | 0x001 => some helloBody
  | 0x002 => some heartbeatBody
  | 0x003 => some reclaimBody
  | 0x004 => some deviceInfoBody
  | 0x005 => some nopBody
  | 0x006 => some parkBody
  | 0x007 => some unparkBody
  | 0x008 => some queueCreateBody
  | 0x009 => some queueDestroyBody
  | 0x00A => some queueResetBody
  | 0x00B => some eqCreateBody
  | 0x00C => some eqDestroyBody
  | 0x00D => some eventSubscribeBody
  | 0x010 => some configWriteBody
  | 0x011 => some configReadBody
  | 0x012 => some configCommitBody
  | 0x100 => some timeReadBody
  | 0x101 => some statsStreamBody
  | 0x200 => some matmulBody
  | 0x201 => some vectorBody
  | 0x202 => some reduceBody
  | 0x203 => some moveBody
  | 0x300 => some tileMoveBody
  | 0x301 => some regionAllocBody
  | 0x302 => some regionFreeBody
  | 0x303 => some bellowsStartBody
  | 0x304 => some bellowsStopBody
  | _ => none

/-- Body of an opcode of group 04h to 07h. -/
def bodyMid (code : Nat) : Option Body :=
  match code with
  | 0x400 => some attentionBody
  | 0x401 => some backwardBody
  | 0x402 => some ptCreateBody
  | 0x403 => some ptDestroyBody
  | 0x404 => some kvAppendBody
  | 0x405 => some verifyBody
  | 0x406 => some seqPreemptBody
  | 0x407 => some seqResumeBody
  | 0x408 => some poolBody
  | 0x500 => some streamStartBody
  | 0x501 => some streamPauseBody
  | 0x502 => some streamResumeBody
  | 0x503 => some streamEndBody
  | 0x504 => some chunkBody
  | 0x505 => some stateExportBody
  | 0x506 => some stateImportBody
  | 0x507 => some reAnchorBody
  | 0x508 => some stateSwapOutBody
  | 0x600 => some convBody
  | 0x601 => some poolOpBody
  | 0x602 => some cropBody
  | 0x700 => some slotConfigBody
  | 0x701 => some calibWriteBody
  | 0x702 => some gridCreateBody
  | 0x703 => some gridDestroyBody
  | 0x704 => some gridProjectBody
  | 0x705 => some streamHealthBody
  | _ => none

/-- Body of an opcode of group 08h and up. -/
def bodyHigh (code : Nat) : Option Body :=
  match code with
  | 0x800 => some factorBody
  | 0x801 => some triBody
  | 0x802 => some qpSetupBody
  | 0x803 => some qpSolveBody
  | 0x900 => some latticeLoadBody
  | 0x901 => some mapPublishBody
  | 0x902 => some planSearchBody
  | 0x903 => some planAbortBody
  | 0xA00 => some ctxCreateBody
  | 0xA01 => some ctxDestroyBody
  | 0xA02 => some partitionCreateBody
  | 0xA03 => some partitionReleaseBody
  | 0xA04 => some jobArmBody
  | 0xA05 => some jobDisarmBody
  | 0xA06 => some modelRegisterBody
  | 0xA07 => some modelPinBody
  | 0xA08 => some modelUnpinBody
  | 0xA09 => some accountReadBody
  | 0xB00 => some fwStageBody
  | 0xB01 => some activateBody
  | 0xB02 => some fwStatusBody
  | 0xC00 => some keyRotateBody
  | 0xC01 => some retireKeyBody
  | 0xC02 => some keyStatusBody
  | 0xD00 => some powerReadBody
  | 0xE00 => some faultLogExportBody
  | 0xE01 => some errorCountsBody
  | _ => none

def bodyOf (code : Nat) : Option Body := if code < 0x400 then bodyLow code else if code < 0x800 then bodyMid code else bodyHigh code

/-- Look at one held packet again: its checks and its body as things stand now. -/
def State.retryOne (s : State) (id : Nat) : State :=
  match s.flight? id with
  | none => s
  | some f =>
    if f.parked && s.serves f.path f.opcode then
      match bodyOf f.opcode with
      | some b => s.dispatch b id f.opcode f.pkt
      | none => s
    else s

/-- Place of a held packet when held packets are looked at again: those that wait for pages come last, as they asked (R205). -/
def Flight.turn (f : Flight) : Nat := if f.pages then f.asked else 0

/-- Held packets in the order they were fetched, and those that wait for pages in the order they asked (R205; log 36). -/
def State.retryParked (s : State) : State :=
  ((sortBy (fun f g => decide (Flight.turn f < g.turn)) (s.proto.flights.filter (·.parked))).map (·.id)).foldl (fun s id => s.retryOne id) s

/-! ### Ends -/

/-- KV_APPENDs whose work on their core is over (R190). -/
def State.settleAppends (s : State) : State :=
  (s.proto.flights.filter (fun f => f.placed && f.late && decide (f.opcode = 0x404) && !s.busyFor (.flight f.id))).foldl (fun s f =>
    let r := ((s.apply f.writes).unhold (.flight f.id)).appendEnd f
    r.1.finish f.id St.ok (r.2.1 ||| f.info) r.2.2) s

/-- What waits on the windows of a stream that BELLOWS_STOP has ended completes with ABORTED: stream operations here, packets of
firings as the firings go on (R177). -/
def State.settleStops (s : State) : State :=
  if s.tiers.stopped.isEmpty then s
  else
    let t := (Tab.keysWhere s.apps.streams (fun _ x => match x.queue.head? with
      | some o => s.packetStopped o.opcode o.pkt
      | none => false)).foldl (fun s h => s.streamTurn h) s
    { t with tiers := { t.tiers with stopped := [] } }

/-- Everything an end lets go on, once. -/
def State.settle (s : State) : State :=
  s.settlePlaced.settleAppends.settleSearches.settleSeqs.settleStreams.settleFrees.settleBellows.settleGrids.settleKeys.settleJobs
    |>.settleFirings.settleStops.settleLeaving.retryParked

/-! ### Swaps (R206, R208) -/

/-- SWAP_OUT_PAGE (R206, R438): the next resident page of a victim, when a pool can take it. -/
def execSwapOutPage (seq : Nat) (s : State) : Host.Outcome State Fault Refusal :=
  .next (match s.seq? seq with
    | none => s
    | some q => match q.pages.find? (fun x => decide (x.2.state = 1)), s.swapSlot q.ctx with
      | some x, some (n, pool, slot) =>
        if s.hearthUp && !s.sharedIdle q.ctx && decide (q.state = 2) && q.swapStarted then (s.swapOut seq q x.1 x.2 n pool slot).settle else s
      | _, _ => s)

/-- SWAP_IN_PAGE (R208, R209): the next page of a RESUMING sequence; a pool gone meanwhile has taken its pages with it. -/
def execSwapInPage (seq : Nat) (s : State) : Host.Outcome State Fault Refusal :=
  .next (match s.seq? seq with
    | none => s
    | some q => match q.pages.find? (fun x => decide (x.2.state = 3)) with
      | none => s
      | some x =>
        if !s.hearthUp || s.sharedIdle q.ctx || decide (q.state ≠ 4) then s
        else if x.2.lost then (s.resumeFail seq q St.notFound).settle
        else match s.kv.pools.get? x.2.pool with
          | none => (s.resumeFail seq q St.notFound).settle
          | some pool => if s.canWriteHost pool.fn then (s.swapIn seq q x.1 x.2 pool).settle else s)

/-! ### Streams, Bellows streams and firings -/

/-- STREAM_OP_TURN (R222): Hearth's turn, or, for a fired chunk, the sequencer's. -/
def execStreamOpTurn (stream : Nat) (s : State) : Host.Outcome State Fault Refusal :=
  .next (match (s.stream? stream).bind (·.queue.head?) with
    | none => s
    | some o =>
      let fired := match o.owner with
        | .job _ => true
        | _ => false
      if s.running && (fired || s.hearthUp) then (s.streamTurn stream).settle else s)

/-- Work of a class pauses at the level in force (R437, R438). -/
def State.classGated (s : State) (cls : Nat) : Bool :=
  (decide (1 ≤ s.power.applied) && decide (2 ≤ cls)) || (decide (3 ≤ s.power.applied) && decide (cls ≠ 0))

def State.partClass (s : State) (p : Nat) : Nat := match s.sched.partitions.get? p with
  | some q => q.cls
  | none => 3

/-- BELLOWS_TILE_FETCH (R178, R180, R181): stream by the window of position 0, and the position. Every Bellows stands still at E3
(R438). -/
def execBellowsTileFetch (stream pos : Nat) (link : Sys2Proof.MemOutcome) (s : State) : Host.Outcome State Fault Refusal :=
  .next (match s.tiers.bellows.get? stream with
    | none => s
    | some b => match b.positions[pos]? with
      | none => s
      | some q => if !s.running || s.classGated (s.partClass b.part) || decide (3 ≤ s.power.applied) then s else (s.bellowsFetch stream pos b q link).settle)

/-- SAMPLE_READY (R270). -/
def execSampleReady (slot : Nat) (s : State) : Host.Outcome State Fault Refusal := .next (if s.running then (s.readyAndFire slot).settle else s)

/-- TRIG_LATEST_EXPIRE (R348). -/
def execTrigLatestExpire (job : Nat) (s : State) : Host.Outcome State Fault Refusal := .next (if s.running then (s.trigLatest job).settle else s)

/-- CTL_MISS (R350). -/
def execCtlMiss (job : Nat) (s : State) : Host.Outcome State Fault Refusal := .next (if s.running then s.lateFiring job else s)

/-- FIRING_COMPLETE (R343, R349, R353). -/
def execFiringComplete (job : Nat) (s : State) : Host.Outcome State Fault Refusal := .next (if s.running then (s.completeFiring job).settle else s)

end Sys2Proof.Machine
end

