-- ==== Sys2Proof/Machine/Cores.lean ====
section
/-! DEFINITION. The cores at work: issue and retirement of operations (R121, R134, R142 to R144) and of Tongs descriptors
(R139, R140), and what an error does to its operation (R144, R444). -/

namespace Sys2Proof.Machine

/-! ### Errors of operations in progress -/

/-- Slots and descriptors of one operation of an owner leave every core. -/
def State.releaseTag (s : State) (o : Owner) (tag : Nat) : State :=
  (s.cores.filter (fun kv => kv.2.serves o)).foldl (fun s kv => s.putCore kv.1
    (kv.2.drop (fun x => decide (x.owner = o ∧ x.tag = tag)) (fun x => decide (x.owner = o ∧ x.tag = tag)))) s

/-- The writes that one operation has not made yet. -/
def State.tagRanges (s : State) (o : Owner) (tag : Nat) : List Wr :=
  s.unmade (fun x => decide (x.owner = o ∧ x.tag = tag)) (fun x => decide (x.owner = o ∧ x.tag = tag))

/-- An operation in progress ends with a status; its destinations hold partial results (R73, R144). -/
def State.failWork (s : State) (o : Owner) (tag status : Nat) : State :=
  match o with
  | .flight id => s.stopOp id status
  | .stream h => s.failChunk h status
  | .job h =>
    let mine : List (Nat × Wr) := match (s.sched.jobs.get? h).bind (·.firing) with
      | some f => f.writes.filter (fun x => decide (x.1 = tag))
      | none => []
    let s := s.scramble (s.tagRanges o tag ++ mine.map (·.2))
    ((s.setFiring h (fun f => { f with writes := f.writes.filter (fun x => decide (x.1 ≠ tag)), ends := f.ends.filter (fun x => decide (x.1 ≠ tag)) })).releaseTag o tag)
      |>.firingOutcome h status
  | .replacement _ => s.releaseTag o tag

/-- An uncorrectable error in the job store: this firing ends with MEM_UNCORRECTABLE, and so does every later one until the job is
disarmed (R444). It is reported as a contained error is (R445); its SOURCE code and address are not given (log 19). -/
def State.jobStoreLost (s : State) (h tag : Nat) : State :=
  match s.sched.jobs.get? h with
  | none => s
  | some j =>
    let src := Sys2Proof.Config.storeSource 4 h
    let s := (s.post ⟨0x42, 4, 3, some j.ctx, src, Sys2Proof.Config.errorAddress 6 h⟩).logFault 5 src (Sys2Proof.Config.errorAddress 6 h)
    (s.setJob h (fun j => { j with bad := true })).failWork (.job h) tag St.memUncorrectable

/-- An uncorrectable error in the workspace of a channel while it runs on a core: the channel becomes EMPTY (R311). -/
def State.workspaceLost (s : State) (core off : Nat) : State :=
  (Tab.keysWhere s.apps.channels (fun _ c => c.ready && decide (c.workOff ≤ off ∧ off < c.workOff + c.workBytes) && (match s.sched.partitions.get? c.part with
    | some q => decide (q.coreAt c.core = some core)
    | none => false))).foldl (fun s ch => s.emptyChannel ch) s

/-- ECC_CORRECTED in the completion (R74). -/
def State.noteEcc (s : State) (o : Owner) : State :=
  match o with
  | .flight id => s.setFlight id (fun f => { f with info := f.info ||| Inf.eccCorrected })
  | .stream h => s.setStream h (fun x => { x with queue := x.queue.modify 0 (fun y => { y with ecc := true }) })
  | _ => s

/-! ### Issue and retirement (R142, R143) -/

/-- The core's clock does not run for a partition now: it is out of service, its class is gated by the level, the draw or the
cap, or its cluster sleeps (R425, R427, R429, R437, R438, R448). -/
def State.coreStopped (s : State) (core part : Nat) : Bool :=
  s.coreOut core || s.classGated (s.partClass part) || (s.power.overpower && decide (s.partClass part ≠ 0)) || s.power.standby ||
  (match s.power.clusters.get? (core / 256) with
   | some c => decide (c.ps ≠ 0) || (c.capGated && decide (s.partClass part ≠ 0))
   | none => false)

/-- Some range is common to both lists, and one of the two writes it (R143). -/
def rangesClash (a b : List (Nat × Nat × Bool)) : Bool :=
  a.any (fun x => b.any (fun y => decide (x.1 < y.2.1 ∧ y.1 < x.2.1) && (x.2.2 || y.2.2)))

/-- Two operations touch a common range, and one of them writes it (R143). -/
def OpSlot.clashes (a b : OpSlot) : Bool := rangesClash a.ranges b.ranges

def Core.walkersBusy (c : Core) : Nat := (c.walkers.filter Option.isSome).length

/-- Engines an operation uses while it runs. -/
def OpSlot.engines (x : OpSlot) : List Sys2Proof.Engine := x.engine.toList ++ x.also

/-- The slot of the MOVE by Tongs alone that a descriptor belongs to (R142). -/
def Core.loneOf (c : Core) (d : Desc) : Option Nat := c.slots.findIdx? (fun x => x.engine.isNone && decide (x.owner = d.owner ∧ x.tag = d.tag))

/-- The next descriptor of a core, when its turn has come: in ring order, with fewer than 8 in progress; a PUT after its operation
has retired; one with ORDER after every earlier descriptor; none while its MOVE has no slot yet, or while an operation placed
earlier clashes with it (R139, R140, R142, R143). -/
def Core.nextDesc (c : Core) : Option (Nat × Desc) :=
  match c.ring.findIdx? (fun d => !d.started) with
  | none => none
  | some i => match c.ring[i]? with
    | none => none
    | some d =>
      let all := c.slots ++ c.held
      if 8 ≤ i ∨ (d.order ∧ 0 < i) then none
      else if d.outgoing && all.any (fun x => x.engine.isSome && decide (x.owner = d.owner ∧ x.tag = d.tag)) then none
      else if c.held.any (fun x => x.engine.isNone && decide (x.owner = d.owner ∧ x.tag = d.tag)) then none
      else if all.any (fun x => decide (x.tag < d.tag) && rangesClash x.ranges d.ranges) then none
      else some (i, d)

/-- Slot `i` waits for nothing but walkers: its engines are free, no operation and no descriptor placed earlier clashes, and its
operands have come in; that of a MOVE by Tongs alone, when its first descriptor has its turn (R142, R143). -/
def Core.due (c : Core) (i : Nat) : Bool :=
  match c.slots[i]? with
  | none => false
  | some x =>
    !x.issued && (match x.engine with
      | none => (match c.nextDesc with
        | some d => decide (d.2.owner = x.owner ∧ d.2.tag = x.tag)
        | none => false)
      | some _ => !c.slots.any (fun y => y.issued && y.engines.any (fun e => x.engines.contains e)) && !(c.slots.take i).any (fun y => y.clashes x) &&
        !(c.ring ++ c.feed).any (fun d => (decide (d.tag = x.tag) && !d.outgoing) || (decide (d.tag < x.tag) && rangesClash d.ranges x.ranges)))

/-- Too few walkers are free for slot `i` (R134). -/
def Core.short (c : Core) (i : Nat) : Bool := match c.slots[i]? with
  | none => false
  | some x => decide (4 < c.walkersBusy + x.walkers.length)

/-- Slot `i` has its walkers: they are free, and no earlier slot waits for walkers if it needs any (R134). -/
def Core.granted (c : Core) (i : Nat) : Bool :=
  !c.short i && (match c.slots[i]? with
    | none => false
    | some x => x.walkers.isEmpty || !(List.range i).any (fun j => c.due j && c.short j))

/-- Slot `i` may issue (R134, R142). -/
def Core.ready (c : Core) (i : Nat) : Bool := c.due i && c.granted i

/-- Free walkers taken in order. -/
def takeWalkers (e : Option Sys2Proof.Engine) (tag : Nat) :
    List (Option (Option Sys2Proof.Engine × Nat × Walker)) → List Walker → List (Option (Option Sys2Proof.Engine × Nat × Walker))
  | l, [] => l
  | [], _ => []
  | some x :: r, w :: ws => some x :: takeWalkers e tag r (w :: ws)
  | none :: r, w :: ws => some (e, tag, w) :: takeWalkers e tag r ws

/-- Slot `i` issues and takes its walkers. -/
def Core.issue (c : Core) (i : Nat) : Core :=
  { c with slots := c.slots.modify i (fun x => { x with issued := true }),
           walkers := match c.slots[i]? with
             | some x => takeWalkers x.engine x.tag c.walkers x.walkers
             | none => c.walkers }

/-- The oldest operation that an engine of a core may issue. -/
def State.issueSlot (s : State) (core : Nat) (e : Sys2Proof.Engine) : Option Nat :=
  let c := s.core core
  (List.range c.slots.length).find? (fun i => c.ready i && (match c.slots[i]? with
    | some x => decide (x.engine = some e) && !s.coreStopped core x.part
    | none => false))

/-- OPERATION_ISSUE (R142). -/
def execOperationIssue (core : Nat) (engine : Sys2Proof.Engine) (s : State) : Host.Outcome State Fault Refusal :=
  .next (if !s.running then s else match s.issueSlot core engine with
    | none => s
    | some i => s.setCore core ((s.core core).issue i))

/-- Clock of a cluster in kHz. -/
def State.clockOf (s : State) (cluster : Nat) : Nat := max 1 ((s.power.clusters.get? cluster).getD ClusterPower.reset).clock

/-- Engine time of an operation that ran on a core (R38, R358). -/
def State.countEngine (s : State) (core : Nat) (x : OpSlot) : State :=
  let ns := x.cycles * 1000000 / s.clockOf (core / 256)
  let k := x.part * 8 + core / 256
  (s.accPart x.part (fun a => { a with coreTime := a.coreTime + ns })).acc (fun a =>
    { a with clusterTime := a.clusterTime.set k ((a.clusterTime.get? k).getD 0 + ns) })

/-- The operation an engine of a core runs. -/
def State.issuedSlot (s : State) (core : Nat) (e : Sys2Proof.Engine) : Option OpSlot :=
  (s.core core).slots.find? (fun x => x.issued && decide (x.engine = some e))

/-- The matrix buffer after an operation: a half that it leaves nothing in stays as it was. -/
def leaveHalves (new old : List (List Byte)) : List (List Byte) := if new = [] then old else (new.zip old).map (fun x => if x.1 = [] then x.2 else x.1)

/-- An operation leaves its slot: its core-store writes stand, and the matrix buffer holds what it left there (R131). -/
def State.retireSlot (s : State) (core : Nat) (x : OpSlot) : State :=
  let s := s.apply x.writes
  s.putCore core { (s.core core) with slots := (s.core core).slots.erase x, halves := leaveHalves x.halves (s.core core).halves }

/-- Partial results of the operation are still on their way to this core (R152). -/
def State.partialsDue (s : State) (core : Nat) (x : OpSlot) : Bool :=
  s.cores.any (fun kv => (kv.2.ring ++ kv.2.feed).any (fun d => decide (d.tag = x.tag ∧ d.op = 2 ∧ d.rloc = 0 ∧ d.rcore = core)))

/-- What an operation met in its core store, or the word of the job store that holds its packet (R144, R444). -/
def State.opMet (s : State) (core : Nat) (x : OpSlot) (mem : Sys2Proof.MemOutcome) : State × Bool :=
  match mem, x.owner with
  | .jobStore, .job h => (s.jobStoreLost h x.tag, true)
  | .uncorrectable a, _ =>
    let s := s.uncorrectable .core (coreKey core (a % 2097152))
    ((if x.also.isEmpty then s else s.workspaceLost core (a % 2097152)).failWork x.owner x.tag St.memUncorrectable, true)
  | m, _ =>
    let r := s.met .core (fun a => coreKey core (a % 2097152)) m
    (if memFixed m then r.1.noteEcc x.owner else r.1, false)

def State.retireOp (s : State) (core : Nat) (x : OpSlot) (mem : Sys2Proof.MemOutcome) : State :=
  let r := (s.countEngine core x).opMet core x mem
  if r.2 then (r.1.releaseTag x.owner x.tag).settle else (r.1.retireSlot core x).settle

/-- OPERATION_RETIRE (R142, R144): the core that combines partial results retires when all have come (R152). -/
def execOperationRetire (core : Nat) (engine : Sys2Proof.Engine) (mem : Sys2Proof.MemOutcome) (s : State) : Host.Outcome State Fault Refusal :=
  .next (if !s.running then s else match s.issuedSlot core engine with
    | none => s
    | some x => if s.coreStopped core x.part || s.partialsDue core x then s else s.retireOp core x mem)

/-! ### Tongs (R139, R140) -/

/-- The walker that a GATHER or SCATTER sets: one its MOVE holds, or a free one that no earlier operation waits for (R134, R139). -/
def Core.walkerFor (c : Core) (d : Desc) : Option Nat :=
  match c.walkers.findIdx? (fun w => match w with
    | some x => x.1.isNone && decide (x.2.1 = d.tag) && (c.loneOf d).isSome
    | none => false) with
  | some k => some k
  | none =>
    if (List.range c.slots.length).any (fun j => c.due j && c.short j && (match c.slots[j]? with
      | some y => decide (y.tag < d.tag)
      | none => false)) then none
    else c.walkers.findIdx? Option.isNone

/-- The core after its next descriptor has started, when it may: the slot of a MOVE by Tongs alone issues with its first one, and a
GATHER or SCATTER sets its walker (R134, R139, R140, R142). -/
def Core.startDesc (c : Core) : Option Core :=
  match c.nextDesc with
  | none => none
  | some (i, d) =>
    let go : Core → Nat → Core := fun c w => { c with ring := c.ring.modify i (fun d => { d with started := true, walker := w }) }
    let base := match c.loneOf d with
      | none => some c
      | some k => if (c.slots[k]?.map (·.issued)).getD false then some c else if c.granted k then some (c.issue k) else none
    match base, d.walk with
    | none, _ => none
    | some c, none => some (go c 0)
    | some c, some w => (c.walkerFor d).map (fun k => go { c with walkers := c.walkers.set k (some (none, d.tag, w)) } k)

/-- TONGS_DESCRIPTOR_START (R140). -/
def execTongsDescriptorStart (core : Nat) (s : State) : Host.Outcome State Fault Refusal :=
  .next (if !s.running || s.coreStopped core (s.partOfCore core) then s else match (s.core core).startDesc with
    | none => s
    | some c => s.setCore core c)

/-- Byte `i` of writes taken one after the other. -/
def writeKey : List Wr → Nat → Option (Store × Nat)
  | [], _ => none
  | w :: r, i => if i < w.bytes.length then some (w.store, w.addr + i) else writeKey r (i - w.bytes.length)

/-- Store that a descriptor's remote side lies in. -/
def Desc.remoteStore (d : Desc) : Store :=
  if d.rloc = 1 then .region else if d.rloc = 2 then .tier2 else if d.rloc = 3 then .host else if d.rloc = 4 then .xd else .core

/-- Byte `i` of the remote side of a transfer: what a PUT or SCATTER writes there, or where the others read (R139, R154, R269). -/
def State.remoteKey (s : State) (core : Nat) (d : Desc) (i : Nat) : Option (Store × Nat) :=
  if d.outgoing then writeKey d.writes i
  else if d.rloc = 0 then some (.core, coreKey d.rcore ((d.local_ + i) % 2097152))
  else if d.rloc = 1 then some (.region, regionKey (bits d.remote 63 48) (d.remote % 16777216 + i))
  else if d.rloc = 2 then
    if d.frames.isEmpty then ((s.ctxOfCore core).bind (fun c => s.phys? c (d.remote % 2 ^ 48 + i))).map (fun k => (.tier2, k))
    else (d.frames[i / 65536]?).map (fun f => (.tier2, f * 65536 + i % 65536))
  else if d.rloc = 4 then
    let h := bits d.remote 63 48
    ((s.ingest.slots.get? (bits h 14 8)).bind (fun x => (x.ready[h % 256]?).map (fun b => (.xd, xdKey (bits h 14 8) (b.1 * x.cfg.bufBytes + d.remote % 16777216 + i)))))
  else none

/-- Byte `i` of what a descriptor reads: the core store it takes bytes from, or its remote side. -/
def State.readKey (s : State) (core : Nat) (d : Desc) (i : Nat) : Option (Store × Nat) :=
  if d.outgoing then some (.core, coreKey core ((d.local_ + i) % 2097152)) else s.remoteKey core d i

/-- A word that ECC corrected lay in what the descriptor read; which line of it is free (R444, R447). -/
def State.descCorrected (s : State) (core : Nat) (d : Desc) : State :=
  match s.readKey core d (64 * (Sys2Proof.Config.freeNat s.fresh % max 1 (d.length / 64))) with
  | some k => s.corrected k.1 k.2
  | none => s.count (fun c => c.bump d.remoteStore false)

/-- An uncorrectable word at a place of a transfer, or a write there that was lost (R160, R444). -/
def State.descLost (s : State) (k : Option (Store × Nat)) (d : Desc) (burst : Bool) : State :=
  match k with
  | some x => if burst then s.burstLost x.2 else s.uncorrectable x.1 x.2
  | none => s.count (fun c => c.bump d.remoteStore true)

/-- What a descriptor's transfer met, with the byte of it where that was: a transfer on a host link that fails ends with LINK_ERROR,
any other with MEM_UNCORRECTABLE (R144, R160, R444). -/
def State.descMet (s : State) (core : Nat) (d : Desc) (mem : Sys2Proof.MemOutcome) : State × Option Nat :=
  let at_ : Nat → Nat := fun a => a % max 1 d.length
  match mem with
  | .clean => (s, none)
  | .corrected => ((s.descCorrected core d).bump.noteEcc d.owner, none)
  | .retried => if d.rloc = 2 then (s.retried.noteEcc d.owner, none) else (s, none)
  | .replayed n => (if n = 0 then s else (s.replayed n).noteEcc d.owner, none)
  | .uncorrectable a =>
    if d.rloc = 3 && !d.outgoing then (s.linkLost (s.ctxOfCore core) (d.remote + at_ a), some St.linkError)
    else (s.descLost (s.readKey core d (at_ a)) d false, some St.memUncorrectable)
  | .writeFailed a =>
    if !d.outgoing then (s, none)
    else if d.rloc = 3 then (s.linkLost (s.ctxOfCore core) (d.remote + at_ a), some St.linkError)
    else if d.rloc = 2 then (s.descLost (s.remoteKey core d (at_ a)) d true, some St.memUncorrectable)
    else (s, none)
  | .jobStore => match d.owner with
    | .job h => (s.jobStoreLost h d.tag, some St.memUncorrectable)
    | _ => (s, none)
  | .codebook => (s, none)

/-- A descriptor retires: what it writes stands from now on (R140), or its transfer failed and its operation ends. -/
def State.retireDesc (s : State) (core : Nat) (d : Desc) (mem : Sys2Proof.MemOutcome) : State :=
  let r := s.descMet core d mem
  let read : State → State := fun s => match d.window with
    | some w => s.windowRead w.1 w.2.1 w.2.2
    | none => s
  match r.2 with
  | some st => (read ((r.1.failWork d.owner d.tag st).releaseTag d.owner d.tag)).settle
  | none =>
    let s := r.1.apply (d.made core)
    (read (s.putCore core { (s.core core) with ring := (s.core core).ring.tail })).settle

/-- TONGS_DESCRIPTOR_RETIRE (R140, R178): in ring order. -/
def execTongsDescriptorRetire (core : Nat) (mem : Sys2Proof.MemOutcome) (s : State) : Host.Outcome State Fault Refusal :=
  .next (if !s.running || s.coreStopped core (s.partOfCore core) then s else match (s.core core).ring.head? with
    | none => s
    | some d => if d.started then s.retireDesc core d mem else s)

end Sys2Proof.Machine
end

