-- ==== Sys2Proof/Machine/Fence.lean ====
section
/-! DEFINITION. Fences, self-tests, pair mismatches and replacements (R448 to R456), and the writing of the fault log (R458). -/

namespace Sys2Proof.Machine

/-! ### What a fence reaches -/

/-- Everything placed on a core ends with CORE_FAULT (R144, R448). -/
def State.failCore (s : State) (core : Nat) : State :=
  let c := s.core core
  let all : List (Owner × Nat) := ((c.slots ++ c.held).map (fun x => (x.owner, x.tag)) ++ (c.ring ++ c.feed).map (fun d => (d.owner, d.tag))).eraseDups
  (all.foldl (fun s x => s.failWork x.1 x.2 St.coreFault) s).setCore core Core.idle

/-- Streams homed on the core are LOST, channels on it become EMPTY, and lattices with a search core on it are unusable
(R226, R234, R311, R332). -/
def State.loseObjects (s : State) (part pos : Nat) : State :=
  let s := (Tab.keysWhere s.apps.streams (fun _ x => decide (x.home = 0 ∧ x.part = part ∧ x.position = pos))).foldl
    (fun s h => (s.setStream h (fun x => { x with residency := 3 })).dropLost h) s
  let s := (Tab.keysWhere s.apps.channels (fun _ c => c.ready && decide (c.part = part ∧ c.core = pos))).foldl (fun s ch => s.emptyChannel ch) s
  (Tab.keysWhere s.apps.lattices (fun _ l => decide (l.part = part ∧ l.firstCore ≤ pos ∧ pos < l.firstCore + l.ncores))).foldl
    (fun s h => (s.endSearch h (some St.coreFault)).setLattice h (fun l => { l with usable := false })) s

/-- A Bellows stream ends with CORE_FAULT when a core of its partition is fenced in a cluster that it feeds (R176). -/
def State.stopBellows (s : State) (core part : Nat) : State :=
  (Tab.keysWhere s.tiers.bellows (fun _ b => decide (b.part = part) && b.positions.any (fun q => decide (q.cluster = core / 256)))).foldl
    (fun s h => s.endBellows h St.coreFault) s

/-- Their CTX is that of the partition concerned (R64). -/
def fencedEvent (ctx : Option Nat) (core detail : Nat) : Event := ⟨0x40, 4, 2, ctx, core, detail⟩
def exhaustedEvent (ctx : Option Nat) (cluster part : Nat) : Event := ⟨0x41, 4, 2, ctx, cluster, part⟩

/-- Context of a partition. -/
def State.partCtx (s : State) (part : Nat) : Option Nat := (s.sched.partitions.get? part).map (·.ctx)

/-- DETAIL of a fence's entry (R458). -/
def fenceDetail (cause spare : Nat) (copied : Bool) : Nat := cause + 2 ^ 8 * spare + 2 ^ 24 * b2n copied

/-- A core that is fenced while its pair is under test counts as one that fails (R450). -/
def PairTest.fail (t : PairTest) (core : Nat) : PairTest :=
  if (t.primary = core ∨ t.partner = core) ∧ !t.results.any (fun x => decide (x.1 = core)) then { t with results := t.results ++ [(core, false)] } else t

/-- Out of service, and in the summary of the fault log (R453). A spare so lost holds no copied store any more (R457). -/
def State.markFenced (s : State) (core : Nat) : State :=
  State.writeSummary { s with rel := { s.rel with
      fenced := s.rel.fenced ++ [core], fenceList := if s.rel.fenceList.contains core then s.rel.fenceList else s.rel.fenceList ++ [core],
      testing := s.rel.testing.filter (· ≠ core), pairTests := s.rel.pairTests.map (fun t => t.fail core),
      copied := if core % 256 = 16 then s.rel.copied.filter (fun c => decide (c / 256 ≠ core / 256)) else s.rel.copied,
      spareGone := if core % 256 = 16 ∧ !s.rel.spareGone.contains (core / 256) then s.rel.spareGone ++ [core / 256] else s.rel.spareGone } }

/-- A position of a partition stays vacant (R455). -/
def State.vacate (s : State) (part pos : Nat) : State := s.setPart part (fun q => { q with positions := q.positions.set pos none, oneShort := true })

/-- The spare of a cluster can take a place. -/
def State.spareFree (s : State) (k : Nat) : Bool :=
  !s.rel.spareGone.contains k && !s.coreOut (k * 256 + 16) && !s.rel.replacements.has k

/-- Partition and position of a core. -/
def State.placeOf (s : State) (core : Nat) : Option (Nat × Nat) :=
  (s.sched.partitions.find? (fun kv => kv.2.positions.contains (some core))).bind (fun kv => (kv.2.position? core).map (fun i => (kv.1, i)))

/-- A fence without a replacing core: its events and its entry (R452). -/
def State.reportFence (s : State) (core cause : Nat) (short : Option Nat) : State :=
  let ctx := match short with
    | some part => s.partCtx part
    | none => s.ctxOfCore core
  let s := (s.post (fencedEvent ctx core 0xFFFF)).logFault 4 core (fenceDetail cause 0xFFFF false)
  match short with
  | some part => s.post (exhaustedEvent ctx (core / 256) part)
  | none => s

/-- A partition in a state in which a fenced core of it is replaced: ACTIVE or PENDING (R456). -/
def State.replaces (s : State) (part : Nat) : Bool := match s.sched.partitions.get? part with
  | some q => decide (q.state = 1) || decide (q.state = 4)
  | none => false

def spareOf (core : Nat) : Nat := core / 256 * 256 + 16

/-- A replacement begins with the self-test of the spare (R451). -/
def State.beginReplacement (s : State) (core cause part pos : Nat) : State :=
  let r : Replacement := ⟨core, cause, part, pos, spareOf core, 0, false, 0⟩
  { s with rel := { s.rel with testing := s.rel.testing ++ [spareOf core], replacements := s.rel.replacements.set (core / 256) r } }

/-- A fence of a core at a position of a partition. -/
def State.fenceAt (s : State) (core cause part pos : Nat) : State :=
  let s := (s.loseObjects part pos).stopBellows core part
  if !s.replaces part then s.reportFence core cause none
  else if s.spareFree (core / 256) then s.beginReplacement core cause part pos
  else (s.vacate part pos).reportFence core cause (some part)

/-- The position still awaits its spare: the partition is ACTIVE or PENDING and holds the fenced core there (R451, R456). -/
def State.awaits (s : State) (r : Replacement) : Bool := s.replaces r.part && decide (s.placeOf r.core = some (r.part, r.position))

/-- A replacement ends without a spare, which is out of service already (R451, R452, R455). -/
def State.spareLost (s : State) (k : Nat) (r : Replacement) (cause : Nat) : State :=
  let s := { s with rel := { s.rel with replacements := s.rel.replacements.erase k } }
  let s := s.reportFence r.spare cause none
  if s.awaits r then (s.vacate r.part r.position).reportFence r.core r.cause (some r.part) else s.reportFence r.core r.cause none

/-- Fence a core (R448, R451 to R456). -/
def State.fence (s : State) (core cause : Nat) : State :=
  if s.rel.fenced.contains core then s
  else
    let s := (s.failCore core).markFenced core
    match s.placeOf core with
    | some x => s.fenceAt core cause x.1 x.2
    | none => match s.rel.replacements.get? (core / 256) with
      | some r => if r.spare = core then s.spareLost (core / 256) r cause else s.reportFence core cause none
      | none => s.reportFence core cause none

/-- The causes that counted errors show (R448): 03h, 04h; the others are the CCC's own findings. -/
def State.causeHolds (s : State) (core cause : Nat) : Bool :=
  let second := 1000000000
  if cause = 3 then (s.rel.bankErrors.filter (fun x => decide (x.1 = core ∧ s.clock.now ≤ x.2.2 + second))).any (fun x =>
      decide (2 ≤ (s.rel.bankErrors.filter (fun y => decide (y.1 = core ∧ y.2.1 = x.2.1 ∧ s.clock.now ≤ y.2.2 + second))).length))
  else if cause = 4 then decide (64 < (s.rel.coreCorrected.filter (fun x => decide (x.1 = core ∧ s.clock.now ≤ x.2 + second))).length)
  else decide (1 ≤ cause ∧ cause ≤ 6)

def coreExists (core : Nat) : Bool := decide (core / 256 < 8 ∧ core % 256 ≤ 16)

/-! ### Self-tests (R449 to R451) -/

/-- The CCC of a cluster runs, and its clock does too (R438, R456). -/
def State.cccWorks (s : State) (k : Nat) : Bool :=
  !s.procDown (8 + k) && !s.switching &&
  (decide (s.power.applied < 3) || s.sched.partitions.any (fun kv => decide (kv.2.cls = 0) && kv.2.clusters.contains k))

/-- The spare fails its self-test (R451, R452, R455). -/
def State.spareFailed (s : State) (k : Nat) (r : Replacement) : State := (s.markFenced r.spare).spareLost k r 2

/-- Both results of a pair are in (R450). -/
def State.endPairTest (s : State) (t : PairTest) : State :=
  let ok : Nat → Bool := fun c => t.results.any (fun x => decide (x.1 = c) && x.2)
  let s := { s with rel := { s.rel with pairTests := s.rel.pairTests.erase t, testing := s.rel.testing.filter (fun c => decide (c ≠ t.primary ∧ c ≠ t.partner)) } }
  let out := if ok t.primary && ok t.partner then 0 else if ok t.primary || ok t.partner then 1 else 2
  let s := s.logFault 7 t.primary (t.partner + 2 ^ 16 * out)
  if out = 0 then
    let day := 86400000000000
    let l := s.rel.mismatches.filter (fun x => decide (s.clock.now < x.2.2 + day)) ++ [(t.primary, t.partner, s.clock.now)]
    let s := { s with rel := { s.rel with mismatches := l } }
    if (l.filter (fun x => decide (x.1 = t.primary ∧ x.2.1 = t.partner))).length < 3 then s
    else
      let n : Nat → Nat := fun c => (s.rel.coreCorrected.filter (fun x => decide (x.1 = c ∧ s.clock.now < x.2 + day))).length
      s.fence (if n t.primary < n t.partner then t.partner else t.primary) 6
  else
    let s := if ok t.partner then s else s.fence t.partner 2
    if ok t.primary then s else s.fence t.primary 2

/-- Pair tests whose results are both in end. -/
def State.endPairTests (s : State) : State := (s.rel.pairTests.filter (fun t => decide (2 ≤ t.results.length))).foldl (fun s t => s.endPairTest t) s

/-- CORE_FENCE (R448). -/
def execCoreFence (core cause : Nat) (s : State) : Host.Outcome State Fault Refusal :=
  .next (if s.running && coreExists core && s.causeHolds core cause then (s.fence core cause).endPairTests.settle else s)

def State.selfTested (s : State) (core : Nat) (pass : Bool) : State :=
  let k := core / 256
  match s.rel.pairTests.find? (fun t => (decide (t.primary = core) || decide (t.partner = core)) && !t.results.any (fun x => decide (x.1 = core))) with
  | some t =>
    let u := { t with results := t.results ++ [(core, pass)] }
    State.endPairTests { s with rel := { s.rel with pairTests := s.rel.pairTests.map (fun x => if x = t then u else x) } }
  | none => match s.rel.replacements.get? k with
    | some r =>
      if r.spare = core ∧ r.stage = 0 then
        (if pass then { s with rel := { s.rel with testing := s.rel.testing.filter (· ≠ core), replacements := s.rel.replacements.set k { r with stage := 1 } } }
         else s.spareFailed k r)
      else s
    | none => s

/-- The core is a spare whose replacement waits for SEC to write the fence in the summary first (R453). -/
def State.awaitsSummary (s : State) (core : Nat) : Bool := s.rel.summaryDue && (match s.rel.replacements.get? (core / 256) with
  | some r => decide (r.spare = core)
  | none => false)

/-- SELF_TEST_DONE (R449 to R453): of a core in an in-field self-test. -/
def execSelfTestDone (core : Nat) (pass : Bool) (s : State) : Host.Outcome State Fault Refusal :=
  .next (if s.running && s.rel.testing.contains core && s.cccWorks (core / 256) && !s.awaitsSummary core then
      ((s.count (fun c => { c with selfTests := sat32 (c.selfTests + 1) })).selfTested core pass).settle
    else s)

/-! ### Replacement (R451) -/

/-- The store that the copy reads (R451): the partner's for a core of a pair, none while that position is vacant; otherwise the
fenced core's own where its cause allows and it still answers, which is free (log 37). -/
def State.copySource (s : State) (r : Replacement) : Option Nat :=
  match (s.sched.partitions.get? r.part).filter (·.pair) with
  | some q =>
    let half := q.positions.length / 2
    q.coreAt (if r.position < half then r.position + half else r.position - half)
  | none => if r.cause ≠ 3 ∧ r.cause ≠ 4 ∧ bit (Sys2Proof.Config.freeNat s.fresh) 0 then some r.core else none

/-- Lines of a core store known to be poisoned, and as many more as were met (log 38): line numbers in the store. -/
def State.badLines (s : State) (core n : Nat) : List Nat :=
  let known := (s.stores.poison.filter (fun p => decide (p.1 = .core ∧ p.2 / 32768 = core))).map (fun p => p.2 % 32768)
  known ++ (List.range (n - known.length)).map (fun i => Sys2Proof.Config.freeNat (s.fresh + 1 + i) % 32768)

/-- Copy a core store's listed bytes to another core's, its bad lines as zero. -/
def State.copyStore (s : State) (src dst : Nat) (bad : List Nat) : State :=
  let s := s.zeroFill .core (coreKey dst 0) 2097152
  let cells := s.stores.core.filter (fun x => decide (x.1 / 2097152 = src) && !bad.contains (x.1 % 2097152 / 64))
  { s with stores := { s.stores with core := cells.foldl (fun m x => m.write (coreKey dst (x.1 % 2097152)) x.2) s.stores.core } }

/-- SPARE_COPY_DONE (R451): the copy or the zero-fill has ended; the takeover waits for its edge. -/
def execSpareCopyDone (cluster badLines : Nat) (s : State) : Host.Outcome State Fault Refusal :=
  .next (match s.rel.replacements.get? cluster with
    | none => s
    | some r =>
      if !s.running || decide (r.stage ≠ 1) || !s.cccWorks cluster then s
      else
        let src := s.copySource r
        let s := match src with
          | some c =>
            let bad := s.badLines c badLines
            (s.copyStore c r.spare bad).count (fun e => { e with coreStore := (e.coreStore.1, sat32 (e.coreStore.2 + bad.length)) })
          | none => s.zeroFill .core (coreKey r.spare 0) 2097152
        { s with rel := { s.rel with replacements := s.rel.replacements.set cluster { r with stage := 2, copied := src.isSome, dueTime := s.clock.now + 5000 } },
                 fresh := s.fresh + 1 + badLines })

/-- The spare takes the fenced core's position (R12, R451, R452). -/
def State.takeOver (s : State) (k : Nat) (r : Replacement) : State :=
  let s := { s with rel := { s.rel with replacements := s.rel.replacements.erase k } }
  if !s.awaits r then s.reportFence r.core r.cause none
  else
    let s := { (s.setPart r.part (fun q => { q with positions := q.positions.set r.position (some r.spare) })) with
      rel := { s.rel with spareGone := s.rel.spareGone ++ [k], copied := if r.copied then s.rel.copied ++ [r.core] else s.rel.copied } }
    (s.post (fencedEvent (s.partCtx r.part) r.core r.spare)).logFault 4 r.core (fenceDetail r.cause r.spare r.copied)

/-- SPARE_TAKEOVER at an edge, for every replacement that is due, where the CCC and the clock of its cluster run (R451, R456). -/
def State.takeOvers (s : State) : State :=
  s.rel.replacements.foldl (fun s kv => if kv.2.stage = 2 ∧ kv.2.dueTime ≤ s.clock.frameStart ∧ s.cccWorks kv.1 then s.takeOver kv.1 kv.2 else s) s

/-! ### The fault log (R458) -/

/-- FAULT_LOG_WRITE (R458): SEC writes the entry that has waited longest. -/
def execFaultLogWrite (s : State) : Host.Outcome State Fault Refusal :=
  .next (match s.rel.queue with
    | [] => s
    | e :: r => if !s.fw.powered || s.procDown 0 then s else { s with rel := { s.rel with queue := r, entries := putEntry s.rel.entries e } })

end Sys2Proof.Machine
end

