-- ==== Sys2Proof/Machine/Supply.lean ====
section
/-! DEFINITION. The supply, emergency levels, TRIP, the power cap, temperatures, power states and standby (R415 to R442). -/

namespace Sys2Proof.Machine

/-! ### Clusters -/

/-- The cluster holds cores of a control-class partition (R13). -/
def State.controlCluster (s : State) (k : Nat) : Bool :=
  s.sched.partitions.any (fun kv => decide (kv.2.cls = 0) && kv.2.clusters.contains k)

/-- Temper runs (R370, R373, R376). -/
def State.temperUp (s : State) : Bool := s.running && !s.procDown 1 && !s.switching

/-- Clock in kHz under boost and the steps of 62.5 MHz that hold it down; never below 1.0 GHz for a control-class cluster (R13, R425, R433). -/
def clockKhz (control boost : Bool) (steps : Nat) : Nat :=
  let base := if boost then 1250000 else 1000000
  if control then base else max 250000 (base - 62500 * steps)

/-- Set every cluster's clock; the throttle steps prevail over the cap's (R425). -/
def State.retime (s : State) : State :=
  { s with power := { s.power with clusters := s.power.clusters.mapVals (fun k c =>
      { c with clock := clockKhz (s.controlCluster k) c.boost (max c.throttleSteps c.capSteps) }) } }

def State.mapClusters (s : State) (f : Nat → ClusterPower → ClusterPower) : State :=
  State.retime { s with power := { s.power with clusters := s.power.clusters.mapVals f } }

/-- Boost is withdrawn (R425, R433, R436). -/
def State.withdrawBoost (s : State) : State := s.mapClusters (fun _ c => { c with boost := false })

/-- Boost may be taken: BOOST_EN, no level in force, no throttle cause (R13, R423, R433). -/
def State.boostAllowed (s : State) : Bool := bit (s.activeWord 0 0 2) 16 && decide (s.power.applied = 0) && s.power.throttle.isEmpty

/-! ### Levels (R435, R436) -/

def Cause.levelAt (c : Cause) (t : Nat) : Nat := if c.stands || decide (t < c.cleared + 50000000) then c.level else 0

/-- The emergency level at a time (R435). -/
def State.levelAt (s : State) (t : Nat) : Nat := (s.power.causes.map (fun kv => kv.2.levelAt t)).foldl max 0

/-- PWR_ALERT is driven low (R421, R439). -/
def State.pwrAlert (s : State) : Bool := decide (1 ≤ s.power.level) || s.power.tripped

/-- An excursion ends (R426). -/
def State.endExcursion (s : State) : State :=
  match s.power.excursion with
  | none => s
  | some t => { s with power := { s.power with excursion := none, lastExcursionEnd := s.clock.now, lastExcursionLength := s.clock.now - t } }

/-- All that is left of an owner on the cores waits for a slot: it is not placed yet (R85, R142). -/
def State.heldOnly (s : State) (o : Owner) : Bool :=
  s.cores.any (fun kv => kv.2.held.any (fun x => decide (x.owner = o))) && !s.cores.any (fun kv => kv.2.slots.any (fun x => decide (x.owner = o)))

/-- A stream's operation that a level of E1 or above sheds: sent by a packet of class 2 or 3 and not placed yet (R437). -/
def State.shedsOp (s : State) (h : Nat) (o : StreamOp) : Bool :=
  (!o.running || s.heldOnly (.stream h)) &&
  (match o.owner with
   | .flight id => match s.flight? id with
     | some f => s.sheds f.pkt f.opcode
     | none => false
   | _ => false)

/-- Operations not yet placed are shed, and their numbers are given back (R437; log 40). Behind one that runs or that is not
shed, they complete in their turn (R222). -/
def State.shedStream (s : State) (h : Nat) : State :=
  match s.stream? h with
  | none => s
  | some x => match x.queue.findIdx? (s.shedsOp h) with
    | none => s
    | some 0 => (s.releaseOwner (.stream h)).dropFrom h 0 St.shed (s.shedsOp h)
    | some _ => s.setStream h (fun x => { x with queue := x.queue.map (fun o => { o with shed := o.shed || s.shedsOp h o }) })

/-- Packets of classes 2 and 3 that are fetched and not yet placed on cores complete with SHED (R437). -/
def State.shedHeld (s : State) : State :=
  let s := (s.proto.flights.filter (fun f => f.placed && s.sheds f.pkt f.opcode && s.heldOnly (.flight f.id))).foldl
    (fun s f => s.stopOp f.id St.shed) s
  s.apps.streams.keys.foldl (fun s h => s.shedStream h) s

/-- The responses of the level in force: Temper's at E1 and E2, the hardware path's at E3 (R373, R436, R438, R442). -/
def State.respond (s : State) : State :=
  let p := s.power
  let a := if s.temperUp || decide (p.level = 3) || decide (p.applied = 3) then p.level else p.applied
  let s := { s with power := { s.power with applied := a } }
  if a = 0 then s else s.shedHeld.mapClusters (fun _ c => { c with boost := false, capSteps := if 2 ≤ a then 0 else c.capSteps })

/-- The level changes (R435). -/
def State.setLevel (s : State) (new : Nat) : State :=
  let old := s.power.level
  let s := State.post { s with power := { s.power with level := new } } ⟨0x50, 5, 2, none, 0, new⟩
  let s := s.acc (fun a => { a with emergencyPeak := max a.emergencyPeak new })
  let s := if old < new then s.deferOnRise else s
  let s := if 1 ≤ new then s.endExcursion else s
  let s := if new = 3 then s.pauseQuench else s
  s.respond.settle

def State.relevel (s : State) : State :=
  let new := s.levelAt s.clock.now
  if new = s.power.level then s else s.setLevel new

def State.raiseCause (s : State) (key level : Nat) : State :=
  let s := s.settleDeferral
  { s with power := { s.power with causes := s.power.causes.set key ⟨level, true, 0⟩ } }

def State.clearCause (s : State) (key : Nat) : State :=
  { s with power := { s.power with causes := s.power.causes.update key (fun c => if c.stands then { c with stands := false, cleared := s.clock.now } else c) } }

/-- EMERGENCY_HOLD_EXPIRE (R435): the earliest end of a hold that lowers the level. -/
def State.holdEnd (s : State) : Option Nat :=
  let ends := (s.power.causes.filter (fun kv => !kv.2.stands)).map (fun kv => kv.2.cleared + 50000000)
  (sortBy (fun (x y : Nat) => decide (x < y)) (ends.filter (fun t => decide (s.levelAt (max s.clock.now t) < s.power.level)))).head?

def execEmergencyHoldExpire (s : State) : Host.Outcome State Fault Refusal :=
  .next (if !s.running then s else match s.holdEnd with
    | none => s
    | some t => (s.reach t).relevel)

/-! ### Off and TRIP (R419, R420, R439, R473) -/

/-- What the boot flash keeps of the fault log: its entries and the newer summary copy (R458). -/
def Rel.kept (r : Rel) : Rel :=
  let m := (r.newest).getD ⟨0, [], [], 0, 0, false⟩
  { Rel.reset with
    fenceList := m.fences, retired := m.retired, bootCount := m.bootCount, lastTrip := m.tripCause, unlocked := m.unlocked,
    summaryA := r.summaryA, summaryB := r.summaryB, entries := r.entries, nextSeq := r.nextSeq }

/-- Every rail off: what outlives it is the boot flash with its stores, the fuses, the latched TRIP cause, and what lies outside
the part (R22, R363, R458). -/
def State.powerOff (s : State) (tripped : Bool) (cause : Nat) (resetIn : Bool) : State :=
  { State.reset with
    pending := s.pending
    order := s.order
    fw := { Firmware.reset s.fw.bankA s.fw.bankB s.fw.markerB with training := s.fw.training }
    sec := ⟨[], s.sec.fuses⟩
    proto := Proto.reset s.order
    power := { Power.reset s.order with vin := s.power.vin, overSince := s.power.overSince, railsOn := false, tripped := tripped, tripCause := cause, resetIn := resetIn }
    rel := s.rel.kept
    pins := { Pins.reset with links := s.pins.links.mapVals (fun _ (l : HostLink) => ⟨false, l.perst, 0, 0⟩) }
    stores := { Stores.reset with host := s.stores.host, ufs := s.stores.ufs }
    win := { Window.reset with stopIn := s.win.stopIn }
    out := s.out
    fresh := s.fresh }

/-- The TRIP response (R439): 1 supply, 2 thermal, 3 internal link, 4 tag table or commit hardware. -/
def State.tripWith (s : State) (cause : Nat) : State := if s.power.railsOn then s.powerOff true cause false else s

def TripCause.code : Sys2Proof.TripCause → Nat
  | .supply => 1
  | .thermal => 2
  | .internalLink => 3
  | .tagOrCommit => 4

/-- TRIP (R439). -/
def execTrip (cause : Sys2Proof.TripCause) (s : State) : Host.Outcome State Fault Refusal := .next (s.tripWith (TripCause.code cause))

/-- INTERNAL_LINK_FAIL (R444, R445): 16 consecutive failed replays. -/
def execInternalLinkFail (s : State) : Host.Outcome State Fault Refusal := .next (s.tripWith 3)

/-! ### VIN (R415 to R419) -/

/-- A report of VIN: none when it has stayed above 90 V for more than 1 ms (R416). -/
def State.vinReport (s : State) (mv : Nat) : Option State :=
  if mv ≤ 90000 then some { s with power := { s.power with vin := mv, overSince := none } }
  else match s.power.overSince with
    | none => some { s with power := { s.power with vin := mv, overSince := some s.clock.now } }
    | some t => if t + 1000000 < s.clock.now then none else some { s with power := { s.power with vin := mv } }

/-- Raise the causes of a table of key, level and condition that do not stand yet. -/
def State.raiseAll (s : State) (l : List (Nat × Nat × Bool)) : State :=
  (l.foldl (fun (s : State) x => if x.2.2 then s.raiseCause x.1 x.2.1 else s) s).relevel

def State.vinRaise (s : State) : State :=
  let v := s.power.vin
  if s.power.railsOn then s.raiseAll [(0, 1, decide (62000 < v)), (1, 1, decide (v < 34000)), (2, 2, decide (v < 31000))] else s

def State.vinClear (s : State) : State :=
  let v := s.power.vin
  if s.power.railsOn then
    ([(0, decide (v ≤ 61000)), (1, decide (35000 ≤ v)), (2, decide (32000 ≤ v)), (3, decide (29000 ≤ v))].foldl
      (fun (s : State) x => if x.2 then s.clearCause x.1 else s) s).relevel
  else s

/-- VIN_CAUSE_RAISE (R415). -/
def execVinCauseRaise (millivolts : Nat) (s : State) : Host.Outcome State Fault Refusal :=
  match s.vinReport millivolts with
  | none => .fault .beyondRatings
  | some t => .next t.vinRaise

/-- VIN_CAUSE_CLEAR (R415). -/
def execVinCauseClear (millivolts : Nat) (s : State) : Host.Outcome State Fault Refusal :=
  match s.vinReport millivolts with
  | none => .fault .beyondRatings
  | some t => .next t.vinClear

/-- E3_UNDERVOLTAGE (R415): below 28 V for more than 200 us. -/
def execE3Undervoltage (s : State) : Host.Outcome State Fault Refusal :=
  .next (if s.power.railsOn then s.raiseAll [(3, 3, decide (s.power.vin < 28000))] else s)

/-- OVERVOLTAGE_TRIP (R415): above 80 V for more than 10 ms. -/
def execOvervoltageTrip (s : State) : Host.Outcome State Fault Refusal := .next (if 80000 < s.power.vin then s.tripWith 1 else s)

/-- UNDERVOLTAGE_LOCKOUT (R419). -/
def execUndervoltageLockout (s : State) : Host.Outcome State Fault Refusal :=
  .next (if s.power.railsOn && decide (s.power.vin < 24000) then s.powerOff false s.power.tripCause s.power.resetIn else s)

/-- CARRIER_START (R419): VIN has risen above 26 V, after `belowFor` microseconds below 24 V. -/
def execCarrierStart (belowFor : Nat) (s : State) : Host.Outcome State Fault Refusal :=
  .next (if !s.power.railsOn && decide (26000 < s.power.vin) && !s.power.resetIn && (!s.power.tripped || decide (100000 ≤ belowFor))
    then { s with power := { s.power with railsOn := true, tripped := false } } else s)

/-- RAIL_OUT_OF_REGULATION (R420): PWR_GOOD falls. -/
def execRailOutOfRegulation (s : State) : Host.Outcome State Fault Refusal := .next { s with power := { s.power with pwrGood := false } }

/-- MODULE_RESET (R473). -/
def execModuleReset (s : State) : Host.Outcome State Fault Refusal :=
  .next (if s.power.railsOn then s.powerOff false s.power.tripCause true else { s with power := { s.power with resetIn := true } })

/-- RESET_IN_RELEASE (R473): 100 ms later the carrier starts as when VIN rises above 26 V, unless a TRIP still holds the rails off. -/
def execResetInRelease (s : State) : Host.Outcome State Fault Refusal :=
  .next (if s.power.resetIn then
      { s with power := { s.power with resetIn := false, railsOn := decide (26000 < s.power.vin) && !s.power.tripped } }
    else s)

/-! ### Measurement (R422, R440) -/

/-- A mean over windows aligned to whole multiples of their length: the window's start, what was measured in it in mW * ns and for
how many ns, and the last mean published (R440). -/
structure Mean where
  start : Nat
  sum : Nat
  time : Nat
  last : Nat
deriving DecidableEq, Repr

/-- The `d` ns up to `t` are measured at `mw`: each window takes its own part, and the last one that ended is published. -/
def Mean.step (m : Mean) (len t d mw : Nat) : Mean :=
  let stop := m.start + len
  if t < stop then { m with sum := m.sum + mw * d, time := m.time + d }
  else
    let part := stop - (t - d)
    let now := t / len * len
    let rest := min d (t - now)
    { start := now, sum := mw * rest, time := rest,
      last := if stop < now then (if d ≤ rest then m.last else mw) else if m.time + part = 0 then m.last else (m.sum + mw * part) / (m.time + part) }

/-- Energy and means over the `d` ns up to now. -/
def State.measure (s : State) (d mw : Nat) (rails : List Nat) : State :=
  let t := s.clock.now
  let p := s.power
  let m := Mean.step ⟨p.window, p.windowSum, p.windowTime, p.mean10⟩ 10000000 t d mw
  let r : Nat → Mean := fun i => Mean.step ⟨p.railWindow, p.railSum.getD i 0, p.railTime, p.railMean.getD i 0⟩ 1000000 t d (rails.getD i 0)
  let e : Nat → Nat := fun x => x * d / 1000000
  let s := { s with power := { p with
    lastTick := t, window := m.start, windowSum := m.sum, windowTime := m.time, mean10 := m.last, tenantMean := if s.quenching then p.tenantMean else m.last,
    railWindow := (r 0).start, railTime := (r 0).time,
    railSum := (List.range 15).map (fun i => (r i).sum), railMean := (List.range 15).map (fun i => (r i).last) } }
  s.acc (fun a => { a with
    energy := a.energy + e mw, stackEnergy := a.stackEnergy + e (rails.getD 8 0),
    clusterEnergy := (List.range 8).foldl (fun (c : Tab Nat) k => Tab.set c k ((c.get? k).getD 0 + e (rails.getD k 0))) a.clusterEnergy })

/-! ### The cap (R425 to R427) -/

/-- The cluster holds cores of a partition of classes 1 to 3 (R425). -/
def State.gateable (s : State) (k : Nat) : Bool :=
  s.sched.partitions.any (fun kv => decide (kv.2.cls ≠ 0) && kv.2.clusters.contains k)

/-- One action that lowers the draw, in the order of R425. DESIGN CHOICE: step 3 gates one more cluster's cores at each
measurement, in order of number (log 113). -/
def State.capDown (s : State) : State :=
  let cs := s.power.clusters
  if cs.any (fun kv => kv.2.boost) then s.withdrawBoost
  else if s.power.applied < 2 ∧ cs.any (fun kv => !s.controlCluster kv.1 && decide (kv.2.capSteps < 12)) then
    s.mapClusters (fun k c => if s.controlCluster k then c else { c with capSteps := min 12 (c.capSteps + 1) })
  else match cs.find? (fun kv => !kv.2.capGated && s.gateable kv.1) with
    | none => s
    | some kv => s.mapClusters (fun k c => if k = kv.1 then { c with capGated := true } else c)

/-- One action back, when Temper takes it (R13): the last that R425 lists is undone first. -/
def State.capUp (s : State) : State :=
  let cs := s.power.clusters
  if !Sys2Proof.Config.takeBoost s.fresh then s.bump
  else if cs.any (fun kv => kv.2.capGated) then State.bump (s.mapClusters (fun _ c => { c with capGated := false }))
  else if cs.any (fun kv => decide (0 < kv.2.capSteps)) then State.bump (s.mapClusters (fun _ c => { c with capSteps := c.capSteps - 1 }))
  else if s.boostAllowed then State.bump (s.mapClusters (fun _ c => { c with boost := true }))
  else s.bump

/-- An excursion may begin: level none, up to 160 W, and long enough at or below CAP_W since the last one (R426). -/
def State.mayExceed (s : State) : Bool :=
  decide (s.power.level = 0 ∧ s.power.draw ≤ 160000) &&
  (match s.power.belowCapSince with
   | some t => decide (max t s.power.lastExcursionEnd + s.power.lastExcursionLength ≤ s.clock.now)
   | none => false)

/-- Temper's action at a measurement. -/
def State.capControl (s : State) : State :=
  let s := if s.boostAllowed then s else s.withdrawBoost
  let p := s.power
  let may := s.mayExceed
  let s := { s with power := { p with belowCapSince := if p.draw ≤ s.capW * 1000 then (if p.belowCapSince.isSome then p.belowCapSince else some s.clock.now) else none } }
  if p.draw ≤ s.effectiveCap * 1000 then s.endExcursion.capUp
  else match p.excursion with
    | some t => if s.clock.now < t + 2000000000 ∧ p.draw ≤ 160000 then s else s.endExcursion.capDown
    | none =>
      if may && Sys2Proof.Config.takeBoost s.fresh then State.bump { s with power := { s.power with excursion := some s.clock.now } }
      else s.bump.capDown

/-- CAP_CONTROL_TICK (R422, R425): the draw at VIN and the power of the 15 rails over the 100 us that end now. Temper measures
both; DEDUCED: while it is down nothing is measured, and the energy of that time counts nowhere (R18; log 95). -/
def execCapControlTick (milliwatts : Nat) (rails : List Nat) (s : State) : Host.Outcome State Fault Refusal :=
  .next (if !s.running then s
    else
      let t := max s.clock.now (s.power.lastTick + 100000)
      let d := t - s.power.lastTick
      let s := s.reach t
      let m := s.measure d milliwatts rails
      if s.temperUp then State.capControl { m with power := { m.power with draw := milliwatts } }
      else { s with power := { s.power with lastTick := t } })

/-- EXCURSION_END (R426): at most 2 s. -/
def execExcursionEnd (s : State) : Host.Outcome State Fault Refusal :=
  .next (match s.power.excursion with
    | none => s
    | some t => if s.temperUp then (s.reach (t + 2000000000)).endExcursion else s)

/-- OVERPOWER_GATE (R427): the 10 us draw is above 160 W. -/
def execOverpowerGate (milliwatts : Nat) (s : State) : Host.Outcome State Fault Refusal :=
  .next (if s.running && decide (160000 < milliwatts) then { s with power := { s.power with overpower := true } } else s)

/-- OVERPOWER_RELEASE (R427): it has fallen below 150 W. -/
def execOverpowerRelease (milliwatts : Nat) (s : State) : Host.Outcome State Fault Refusal :=
  .next (if s.running && decide (milliwatts < 150000) then { s with power := { s.power with overpower := false } } else s)

/-! ### Temperatures (R432, R433) -/

/-- Thresholds of a group: throttle, second, third and trip, in 0.1 C. -/
def thermalLimits (g : Nat) : Int × Int × Int × Int := if g < 16 then (950, 1020, 1080, 1150) else (880, 950, 1000, 1050)

/-- Clusters that a hot group throttles (R433). -/
def throttles (g k : Nat) : Bool := if g = 0 then decide (k < 4) else if g = 1 then decide (4 ≤ k) else true

/-- The first step of a cause on the clusters of its group, below E3; it adds to what other causes took (R433). -/
def State.throttleStart (s : State) (g : Nat) : State :=
  if s.temperUp && decide (s.power.applied < 3) then s.mapClusters (fun k c =>
      let c := { c with boost := false }
      if throttles g k && !s.controlCluster k then { c with throttleSteps := min 12 (c.throttleSteps + 1), stepAt := s.clock.now } else c)
  else s

/-- The throttle cause of a group at a temperature. -/
def State.throttleAt (s : State) (g : Nat) (t : Int) : State :=
  let l := (thermalLimits g).1
  if s.power.throttle.contains g then
    (if t ≤ l - 30 then { s with power := { s.power with throttle := s.power.throttle.erase g } } else s)
  else if l ≤ t then
    (State.post { s with power := { s.power with throttle := s.power.throttle ++ [g] } } ⟨0x51, 5, 1, none, g, toBits 64 t⟩).throttleStart g
  else s

/-- A cause of a group that stands from `limit` and clears 3 C below it. -/
def State.thermalCause (s : State) (key level : Nat) (limit t : Int) : State :=
  if limit ≤ t then s.raiseCause key level else if t ≤ limit - 30 then s.clearCause key else s

def State.senseGroup (s : State) (g : Nat) (t : Int) : State :=
  let l := thermalLimits g
  let s := State.throttleAt { s with power := { s.power with temps := s.power.temps.set g t } } g t
  (s.thermalCause (32 + 2 * g) 2 l.2.1 t).thermalCause (33 + 2 * g) 3 l.2.2.1 t

/-- THERMAL_SAMPLE (R432): the sensors in the order CD0, CD1, XD0, XD1, then the populated stacks. -/
def execThermalSample (temps : List Int) (s : State) : Host.Outcome State Fault Refusal :=
  .next (if !s.running then s
    else
      let l : List (Nat × Int) := (tempsAt s.order).keys.zip temps
      let s := (l.foldl (fun (s : State) (x : Nat × Int) => s.senseGroup x.1 x.2) s).relevel
      if l.any (fun x => decide ((thermalLimits x.1).2.2.2 ≤ x.2)) then s.tripWith 2 else s)

/-- THROTTLE_STEP (R433): 1 ms after the cluster's last step, one more down, or one up when no cause stands. -/
def execThrottleStep (cluster : Nat) (s : State) : Host.Outcome State Fault Refusal :=
  .next (match s.power.clusters.get? cluster with
    | none => s
    | some c =>
      let hot := s.power.throttle.any (fun g => throttles g cluster) && !s.controlCluster cluster
      if !s.temperUp || decide (3 ≤ s.power.applied) || (if hot then decide (12 ≤ c.throttleSteps) else decide (c.throttleSteps = 0)) then s
      else
        let s := s.reach (c.stepAt + 1000000)
        s.mapClusters (fun k c => if k = cluster then
          { c with throttleSteps := if hot then c.throttleSteps + 1 else c.throttleSteps - 1, stepAt := s.clock.now } else c))

/-! ### Power states (R428 to R431) -/

def psWake (ps : Nat) : Nat := if ps = 1 then 2000 else if ps = 2 then 40000 else if ps = 3 then 400000 else 0

/-- Break-even of a state; that of PS1 is only bounded by 1 us, a free value. -/
def State.psBreakEven (s : State) (ps : Nat) : Nat :=
  if ps = 1 then Sys2Proof.Config.freeNat s.fresh % 1000 else if ps = 2 then 20000 else 818000

/-- limit(k) (R430). DESIGN CHOICE: where a cluster is both, a control-class one and one with a running Bellows stream, the
lower limit holds (log 95). -/
def State.psLimit (s : State) (k : Nat) : Nat :=
  if s.tiers.bellows.any (fun kv => kv.2.positions.any (fun q => decide (q.cluster = k))) then 0
  else if s.controlCluster k then 1 else 3

/-- A cluster has work in progress (R429). -/
def State.clusterBusy (s : State) (k : Nat) : Bool :=
  s.cores.any (fun kv => decide (kv.1 / 256 = k) && !(kv.2.slots.isEmpty && kv.2.held.isEmpty && kv.2.ring.isEmpty && kv.2.feed.isEmpty))

/-- Robot time at which a slot's next sample is predicted by its clock model to reach the pin: a source time one nominal period
after the last (R272, R429). -/
def SlotState.predicted (t : SlotState) : Int :=
  let m := t.model
  w64 (m.source (m.prevSigma + (t.cfg.nomPeriod : Nat)) + m.lat)

/-- Known events of an armed job: the frame edge, or its latest trigger time and the predicted samples of its slots (R348, R429). -/
def State.jobEvents (s : State) (j : Job) : List Nat :=
  if j.trigger = 0 then [s.clock.nextEdge]
  else
    let latest := s.clock.frameStart + j.latestUs * 1000
    (if s.clock.now < latest ∧ j.firedFrame ≠ some s.frameNo then latest else s.clock.nextEdge + j.latestUs * 1000) ::
      (s.ingest.slots.filter (fun kv => bit j.slotBits kv.1 && s.slotOn kv.1 && !kv.2.model.first)).map (fun kv => kv.2.predicted.toNat)

/-- Time to the earliest known event of a cluster: the jobs armed in it, and the wake request that Hearth sends, which comes as the
command's operand (R429). What is placed for the cluster counts as work in progress. -/
def State.tNext (s : State) (k : Nat) (asked : Option Nat) : Option Nat :=
  let here := s.sched.jobs.filter (fun kv => match s.sched.partitions.get? kv.2.part with
    | some q => q.clusters.contains k
    | none => false)
  let times := (here.map (fun kv => s.jobEvents kv.2)).flatten
  (sortBy (fun (x y : Nat) => decide (x < y)) ((times.map (fun t => t - s.clock.now)) ++ asked.toList)).head?

/-- The deepest state the cluster can wake from in time (R429). -/
def State.psChoice (s : State) (k : Nat) (t : Option Nat) : Nat :=
  let top := min (bits (s.activeWord 0 0 3) 7 4) (s.psLimit k)
  let fits : Nat → Bool := fun ps => decide (ps ≤ top) && (match t with
    | none => true
    | some x => decide (10 * (psWake ps + s.psBreakEven ps) ≤ 9 * x))
  if fits 3 then 3 else if fits 2 then 2 else if fits 1 then 1 else 0

/-- POWER_STATE_CHOOSE (R429). A cluster that sleeps too deep for its next event begins to wake now, with the latency of the state
it is in (R428). -/
def execPowerStateChoose (cluster : Nat) (tNext : Option Nat) (s : State) : Host.Outcome State Fault Refusal :=
  .next (if !s.temperUp || s.clusterBusy cluster || s.power.standby then s
    else
      let t := s.tNext cluster tNext
      let ps := s.psChoice cluster t
      State.bump { s with power := { s.power with clusters := s.power.clusters.update cluster (fun c =>
        if ps < c.ps then { c with wakeAt := some s.clock.now }
        else { c with ps := ps, wakeAt := if ps = 0 then none else t.map (fun x => s.clock.now + x - psWake ps) }) } })

/-- POWER_STATE_WAKE (R428, R429): the wake of a cluster ends; it began as scheduled, or now for work that waits. A control-class
cluster needs no Temper to wake (R13, R18). -/
def execPowerStateWake (cluster : Nat) (s : State) : Host.Outcome State Fault Refusal :=
  .next (match s.power.clusters.get? cluster with
    | none => s
    | some c =>
      if !(s.temperUp || s.controlCluster cluster) || s.power.standby || decide (c.ps = 0) then s
      else
        let start := if s.clusterBusy cluster then s.clock.now else c.wakeAt.getD s.clock.now
        let s := s.reach (start + psWake c.ps)
        { s with power := { s.power with clusters := s.power.clusters.set cluster { c with ps := 0, wakeAt := none } } })

/-- The conditions of PS4 (R431). -/
def State.standbyOk (s : State) : Bool :=
  bit (s.activeWord 0 0 3) 0 && s.sched.partitions.all (fun kv => decide (kv.2.state = 0)) &&
  !s.ingest.slots.any (fun kv => decide (kv.2.cfg.place = 1) && s.slotOn kv.1) &&
  !s.proto.queues.any (fun kv => decide (kv.2.head ≠ kv.2.tail)) &&
  decide (s.power.lastActivity + s.activeWord 0 0 4 * 1000000 ≤ s.clock.now)

/-- STANDBY_ENTER (R431). -/
def execStandbyEnter (s : State) : Host.Outcome State Fault Refusal :=
  .next (if s.temperUp && s.hearthUp && !s.power.standby then
      let s := s.reach (s.power.lastActivity + s.activeWord 0 0 4 * 1000000)
      if s.standbyOk then
        { s with power := { s.power with standby := true, clusters := s.power.clusters.mapVals (fun _ c => { c with ps := 3, wakeAt := none }) } }
      else s
    else s)

/-- STANDBY_WAKE (R431): a doorbell, a write of an admin block or a management packet. -/
def execStandbyWake (s : State) : Host.Outcome State Fault Refusal :=
  .next (if s.temperUp && s.power.standby then
      { s with power := { s.power with standby := false, lastActivity := s.clock.now,
                                       clusters := s.power.clusters.mapVals (fun _ c => { c with ps := 0, wakeAt := none }) } }
    else s)

end Sys2Proof.Machine
end

