-- ==== Sys2Proof/Machine/Boot.lean ====
section
/-! DEFINITION. Watchdogs and restarts, the switch to a new release, start-up, the unlock of the test modes and the test port
(R368 to R377, R413, R414, R453, R478). -/

namespace Sys2Proof.Machine

/-! ### Watchdogs (R373 to R375) -/

def Proc.code : Sys2Proof.Proc → Nat
  | .sec => 0
  | .temper => 1
  | .hearth => 2
  | .ccc k => 8 + k

/-- A processor has been started (R376): SEC with XD0, Temper and Hearth at stage 2, the CCCs at stage 3. -/
def State.started (s : State) (code : Nat) : Bool :=
  s.fw.powered && (decide (code = 0) || (decide (code ≤ 2) && decide (2 ≤ s.fw.bootStage)) || (decide (8 ≤ code ∧ code < 16) && decide (3 ≤ s.fw.bootStage)))

def State.setProc (s : State) (code : Nat) (f : Processor → Processor) : State :=
  { s with fw := { s.fw with procs := s.fw.procs.set code (f ((s.fw.procs.get? code).getD Processor.reset)) } }

/-- A session of the management port ends: its streams and event queues go, and nothing of it is answered any more (R72, R394, R480). -/
def State.closeSession (s : State) (x : Nat) : State :=
  { s with
    sec := { s.sec with sessions := s.sec.sessions.erase x }
    proto := { s.proto with
      eqs := s.proto.eqs.filter (fun kv => decide (kv.2.owner ≠ some x))
      flights := s.proto.flights.filter (fun f => f.running || decide (f.path ≠ .owner x))
      finished := s.proto.finished.filter (fun f => decide (f.path ≠ .owner x)) } }

def State.closeSessions (s : State) : State := s.sec.sessions.keys.foldl (fun s x => s.closeSession x) s

/-- What the loss of a processor does beside what every other rule asks of its state (R373, R374, R411). -/
def State.procLost (s : State) (code : Nat) (held : Bool) : State :=
  if code = 0 then s.closeSessions
  else if code = 2 then s
  else if code = 1 ∧ held then State.pauseQuench (s.mapClusters (fun _ c => { c with boost := false, throttleSteps := 0, capSteps := 0, capGated := false }))
  else s.pauseQuench

/-- A checkpoint of a processor that runs (R373). -/
def State.takeCheckpoint (s : State) (code : Nat) : State :=
  if s.procDown code || s.switching || !s.started code then s
  else s.setProc code (fun p => { p with checkpoint := s.clock.now, kept := if code = 2 then s.proto.credits ++ s.proto.lastServed else [] })

/-- Those of Hearth and of the CCCs at a frame edge (R373). -/
def State.edgeCheckpoints (s : State) : State := ((2 :: (List.range 8).map (8 + ·))).foldl (fun s c => s.takeCheckpoint c) s

/-- A processor is restored from its last checkpoint (R373, log 107). -/
def State.restore (s : State) (p : Processor) : State :=
  if p.kept.isEmpty then s else { s with proto := { s.proto with credits := p.kept.take 3, lastServed := p.kept.drop 3 } }

/-- A watchdog expires (R373); the third time within 60 s the processor is held in reset (R374). -/
def State.expire (s : State) (code : Nat) : State :=
  let p := (s.fw.procs.get? code).getD Processor.reset
  let l := p.expiries.filter (fun t => decide (s.clock.now < t + 60000000000)) ++ [s.clock.now]
  let held := decide (3 ≤ l.length)
  let s := (s.restore p).setProc code (fun p => { p with restarting := !held, held := held, expiries := l })
  let s := s.procLost code held
  let s := if held then s else State.post (s.count (fun c => { c with fwRestarts := sat32 (c.fwRestarts + 1) })) ⟨0x62, 6, 2, none, code, 0⟩
  s.logFault 8 code (b2n held)

/-- WATCHDOG_EXPIRE (R373). -/
def execWatchdogExpire (proc : Sys2Proof.Proc) (s : State) : Host.Outcome State Fault Refusal :=
  .next (if s.started (Proc.code proc) && !s.procDown (Proc.code proc) then s.expire (Proc.code proc) else s)

/-- The processor restarts, and is not held in reset. -/
def State.restarting (s : State) (code : Nat) : Bool := match s.fw.procs.get? code with
  | some p => p.restarting && !p.held
  | none => false

def State.procBack (s : State) (code : Nat) : State := s.setProc code (fun p => { p with restarting := false })

/-- SEC runs again and writes a summary that changed meanwhile (R453, R458). -/
def State.dueSummary (s : State) : State := if s.rel.summaryDue then s.writeSummary else s

/-- PROCESSOR_RESTART_DONE (R373): SEC, Temper or a CCC; Hearth's is HEARTH_RESUME. -/
def execProcessorRestartDone (proc : Sys2Proof.Proc) (s : State) : Host.Outcome State Fault Refusal :=
  .next (match proc with
    | .hearth => s
    | .temper => if s.restarting 1 then (s.procBack 1).respond.settle else s
    | .sec => if s.restarting 0 then (s.procBack 0).dueSummary.settle else s
    | .ccc k => if s.restarting (8 + k) then ((s.procBack (8 + k)).refillCluster k).settle else s)

/-- A heartbeat of every function that has a session (R375). -/
def State.beatAll (s : State) : State :=
  { s with proto := { s.proto with funcs := s.proto.funcs.mapVals (fun _ f =>
      { f with session := f.session.map (fun x => { x with lastBeat := s.clock.now }) }) } }

/-- HEARTH_RESUME (R375). -/
def execHearthResume (s : State) : Host.Outcome State Fault Refusal :=
  .next (if s.restarting 2 && !s.switching then (s.procBack 2).beatAll.settle else s)

/-! ### The switch (R369 to R371) -/

/-- A pending activation whose first edge after its request and after its deferral is the one that opened this frame. -/
def State.switchDue (s : State) : Option Activation :=
  match s.settleDeferral.fw.activation with
  | none => none
  | some a => if a.state = 2 ∧ a.since < s.clock.frameStart ∧ s.deferEnd ≤ s.clock.frameStart then some a else none

/-- FW_SWITCH (R370). -/
def execFwSwitch (s : State) : Host.Outcome State Fault Refusal :=
  .next (match s.switchDue with
    | none => s
    | some a => if !s.running then s else State.pauseQuench
        { s.settleDeferral with fw := { s.settleDeferral.fw with activation := some { a with state := 3, switchFrame := s.frameNo } } })

/-- Hearth comes back when its segment runs: until HEARTH_RESUME it fetches nothing (R370). -/
def State.endSwitch (s : State) : State :=
  (List.range 8).foldl (fun s k => s.refillCluster k) (State.setProc { s with fw := { s.fw with activation := none } } 2 (fun p => { p with restarting := true }))

/-- Every measurement matches: the marker moves, the fuses follow, and the activation completes (R371). -/
def State.switchOk (s : State) (a : Activation) : State :=
  let b := s.stageBank
  let v := (s.bank b).secVersion
  let old := s.fw.activeRelease
  let s := (s.setBank (!b) (fun x => { x with state := if x.state = 2 then 1 else x.state })).setBank b (fun x => { x with state := 2 })
  let s := { s with
    fw := { s.fw with markerB := b, activeRelease := a.release }
    sec := { s.sec with fuses := { s.sec.fuses with minSecVersion := max s.sec.fuses.minSecVersion (min v 255) } } }
  let s := s.finishOpt a.flight St.ok 0 (a.release + 2 ^ 32 * (a.switchFrame % 2 ^ 32))
  (((s.endSwitch.post ⟨0x60, 6, 0, none, 0, a.release⟩).logFault 2 0 old).respond).settle

/-- A measurement failed: at the next edge every processor starts on the release that was active before (R371). -/
def State.rollBack (s : State) : State :=
  match s.fw.activation with
  | some a =>
    if a.state = 3 ∧ a.failed then
      let s := s.setBank s.stageBank (fun x => { x with state := 3 })
      ((s.finishOpt a.flight St.badSignature 0 0).endSwitch).respond
    else s
  | none => s

/-- FW_MEASURE (R371). -/
def execFwMeasure (allMatch : Bool) (s : State) : Host.Outcome State Fault Refusal :=
  .next (match s.fw.activation with
    | none => s
    | some a =>
      if !s.running || decide (a.state ≠ 3) || a.failed then s
      else if allMatch then s.switchOk a
      else { s with fw := { s.fw with activation := some { a with failed := true } } })

/-- ACTIVATION_TIMEOUT (R369): deferred for 60 s in total. -/
def execActivationTimeout (s : State) : Host.Outcome State Fault Refusal :=
  .next (match s.fw.activation with
    | none => s
    | some a =>
      let due := max s.clock.now (a.since + (60000000000 - a.total))
      if !s.running || decide (a.state ≠ 1) || (decide (s.power.level = 0) && decide (s.deferEnd ≤ due)) then s
      else (s.reach due).endActivation St.activationTimeout)

/-! ### Start-up (R375 to R377, R453) -/

def State.running0 (s : State) : Bool := s.fw.powered && !s.fw.fatal

/-- XD0 leaves reset with the state of a part just powered; the cores of the fault log's summary never enter service, and
their clusters' spares take their places (R453, R472). -/
def State.powerUp (s : State) (testEn : Bool) : State :=
  let t := s.powerOff false s.power.tripCause false
  { t with
    fw := { t.fw with powered := true, unlockWait := testEn }
    pins := { t.pins with testEn := testEn }
    win := { t.win with stopped := t.win.stopIn }
    power := { t.power with railsOn := true, pwrGood := true }
    rel := Rel.write { t.rel with
      bootCount := t.rel.bootCount + 1, lastTrip := t.power.tripCause, fenced := t.rel.fenceList,
      spareGone := (List.range 8).filter (fun k => t.rel.fenceList.any (fun c => decide (c / 256 = k))) } }

/-- PWR_GOOD_RISE (R376). -/
def execPwrGoodRise (testEn : Bool) (s : State) : Host.Outcome State Fault Refusal :=
  .next (if s.power.railsOn && !s.power.pwrGood then s.powerUp testEn else s)

def State.failBoot (s : State) (reason : Nat) (fatal : Bool) : State :=
  { s with fw := { s.fw with bootFail := reason, fatal := s.fw.fatal || fatal } }

def State.stage (s : State) (n : Nat) : State := { s with fw := { s.fw with bootStage := n } }

/-- A bank passes SEC's checks at start-up: its signature and digests, and its security version (R375, R376). -/
def State.bankPasses (s : State) (b : Bool) : Bool := (s.bank b).signed && decide (s.sec.fuses.minSecVersion ≤ (s.bank b).secVersion)

/-- The start-up entry and, after a TRIP, the entry of its latched cause (R439, R458). -/
def State.logBoot (s : State) (bank : Bool) : State :=
  let s := s.logFault 1 0 (s.fw.bootFail + 2 ^ 8 * b2n bank)
  if s.power.tripCause = 0 then s else State.logFault { s with power := { s.power with tripCause := 0 } } 3 0 s.power.tripCause

/-- Boot a bank: its release runs, and the boot flash leaves the mode of the boot ROM (R375, R465). -/
def State.bootBank (s : State) (bank : Bool) : State :=
  (State.stage { s with fw := { s.fw with activeRelease := (s.bank bank).release }, pins := { s.pins with flashOctal := true } } 2).logBoot bank

/-- Boot the bank that the marker does not name; the boot record stays as it was (log 34). -/
def State.bootOther (s : State) : State := (s.failBoot 2 false).bootBank (!s.fw.markerB)

/-- Core self-test at start-up: the failed cores are fenced, and spares take their places (R376, R377). -/
def State.bootFence (s : State) (core : Nat) : State :=
  if s.rel.fenced.contains core ∨ !coreExists core then s
  else
    let k := core / 256
    let takes := decide (core % 256 ≠ 16) && s.spareFree k
    let s := s.markFenced core
    let s := if takes then { s with rel := { s.rel with spareGone := s.rel.spareGone ++ [k] } } else s
    let spare := if takes then spareOf core else 0xFFFF
    (s.post (fencedEvent none core spare)).logFault 4 core (fenceDetail 1 spare false)

def State.coresLost (s : State) (cores : List Nat) : State :=
  let s := (cores.filter (fun c => decide (c % 256 = 16)) ++ cores.filter (fun c => decide (c % 256 ≠ 16))).foldl (fun s c => s.bootFence c) s
  if (List.range 8).any (fun k => decide (s.inServiceOf k < 16)) then s.failBoot 5 false else s

/-- The robot-time counter is released at 0, and frame edges begin (R22, R376). -/
def State.releaseTime (s : State) : State := { s with clock := { Clock.reset with running := true, parked := s.clock.parked } }

/-- EXTEST, CLAMP or HIGHZ is loaded (R478). -/
def State.pinsHeld (s : State) : Bool := match s.pins.jtag with
  | some .extest => true
  | some .clamp => true
  | some .highz => true
  | _ => false

/-- Stage 1 ends with the checks of the banks; the report may say that the bundle as read from the flash failed them. -/
def State.fromStage1 (s : State) (r : Sys2Proof.BootReport) : State :=
  match r with
  | .ok | .otherBank | .noBank =>
    let other := s.bank (!s.fw.markerB)
    if r = .ok ∧ s.bankPasses s.fw.markerB then s.bootBank s.fw.markerB
    else if r ≠ .noBank ∧ 1 ≤ other.state ∧ other.state ≤ 2 ∧ s.bankPasses (!s.fw.markerB) then s.bootOther
    else (s.failBoot 1 true).logBoot s.fw.markerB
  | _ => s

/-- Stage 2 ramps the rails and releases robot time; then the CCCs start. -/
def State.fromStage2 (s : State) (r : Sys2Proof.BootReport) : State :=
  match r with
  | .ok => if s.clock.running then s.stage 3 else s.releaseTime.respond
  | .railFailed => if s.clock.running then s else s.failBoot 3 true
  | _ => s

/-- Host-ready: UFS is enumerated, in the gear the device trains, and the training store takes the settings of this boot (R363,
R376, R465). -/
def State.hostReady (s : State) : State :=
  State.bump (State.stage { s with
    fw := { s.fw with training := some s.tiers.taps }
    pins := { s.pins with ufsGear := if s.fw.ufsFailed then 0 else 4 + Sys2Proof.Config.freeNat s.fresh % 2 } } 4)

def State.fromStage3 (s : State) (r : Sys2Proof.BootReport) : State :=
  match r with
  | .ok => s.hostReady.settle
  | .stackFailed => s.failBoot 4 true
  | .coresLost l => s.coresLost l
  | .ufsFailed => State.failBoot { s with fw := { s.fw with ufsFailed := true } } 6 false
  | _ => s

def State.fromStage4 (s : State) (r : Sys2Proof.BootReport) : State :=
  match r with
  | .ok => (s.stage 5).settle
  | .netFailed ports => (State.stage { (s.failBoot 7 false) with pins := { s.pins with netDown := ports } } 5).settle
  | _ => s

/-- BOOT_STAGE_ADVANCE (R376, R377). -/
def execBootStageAdvance (report : Sys2Proof.BootReport) (s : State) : Host.Outcome State Fault Refusal :=
  .next (if !s.fw.powered || s.fw.fatal then s
    else match s.fw.bootStage with
      | 1 => if s.fw.unlockWait || s.pinsHeld then s else s.fromStage1 report
      | 2 => s.fromStage2 report
      | 3 => s.fromStage3 report
      | 4 => s.fromStage4 report
      | _ => s)

/-! ### Test modes and the test port (R413, R414, R478) -/

/-- Link-local address formed from a MAC address as a modified EUI-64 (R392). -/
def linkLocal (mac : List Byte) : List Byte :=
  [0xFE, 0x80, 0, 0, 0, 0, 0, 0] ++ [(mac.headD 0) ^^^ 2] ++ (mac.drop 1).take 2 ++ [0xFF, 0xFE] ++ (mac.drop 3).take 3

/-- A handshake comes to the port that SEC serves, and keeps the rules of R392 that hold whatever its client certificate. SEC
answers with its identity certificate. -/
def Handshake.sound (h : Sys2Proof.Handshake) : Bool :=
  h.suiteOk && h.groupOk && h.sigOk && !h.psk && !h.resumption && !h.earlyData

/-- The client addressed the link-local address and TCP port of the management port (R392). -/
def State.addressed (s : State) (h : Sys2Proof.Handshake) : Bool := decide (h.dest = linkLocal s.sec.fuses.mac ∧ h.port = 7960)

/-- What SEC does before it enables a private test mode (R414). -/
def State.unlock (s : State) : State :=
  let s := { s with
    sched := { s.sched with contexts := s.sched.contexts.mapVals (fun _ (c : Context) => { c with gens := c.gens.map (fun (g : KeyGen) => { g with key := [] }) }) }
    sec := { s.sec with fuses := { s.sec.fuses with ownerAnchors := List.replicate 4 (burned 48), fleetRoots := List.replicate 4 (burned 32) } }
    rel := { s.rel with unlocked := true }
    fw := { s.fw with testModes := true, unlockWait := false } }
  s.writeSummary.logFault 9 0 0

/-- TEST_UNLOCK_SESSION (R413, R414). -/
def execTestUnlockSession (hs : Sys2Proof.Handshake) (s : State) : Host.Outcome State Fault Refusal :=
  .next (if !s.fw.powered || !s.fw.unlockWait || decide (s.fw.bootStage ≠ 1) || !s.addressed hs then s
    else if Handshake.sound hs && decide (hs.chainDigest = s.sec.fuses.serviceAnchor ∧ hs.serial = hexText deviceId) then s.unlock
    else s.emit .tlsAlert)

/-- TEST_UNLOCK_TIMEOUT (R413): 60 s without one. -/
def execTestUnlockTimeout (s : State) : Host.Outcome State Fault Refusal :=
  .next (if s.fw.powered then { s with fw := { s.fw with unlockWait := false } } else s)

/-- IDCODE (R478). -/
def idcode (o : Sys2Proof.OrderCode) : Nat :=
  let part := match o with
    | .a4 => 0x9A04
    | .a8 => 0x9A08
    | .d8 => 0x9D08
  Sys2Proof.Config.revision.toNat * 2 ^ 28 + part * 2 ^ 12 + 0x3A5 * 2 + 1

/-- The pin instructions act at boot stage 1 of a part whose TEST_EN was high (R478). -/
def State.pinTest (s : State) : Bool := s.fw.powered && s.pins.testEn && decide (s.fw.bootStage = 1)

def State.loadJtag (s : State) (ir : Option Sys2Proof.JtagInstr) (data : Nat) : State := { s with pins := { s.pins with jtag := ir, jtagData := data } }

/-- Cells of the boundary-scan chain, one for each land of the 1.8 V and 3.3 V banks but the test lands: 288 sensor signals of each
I/O die, 12 of the boot flash, UFS_RST_n and XTAL_IN; 14 control signals but the 6 of the test port (R463, R474, R478; log 114). -/
def scanCells (o : Sys2Proof.OrderCode) : Nat := 288 * ioDies o + 14 + 8

/-- The chain captures the levels at the lands, which come from outside: a free value. -/
def State.capture (s : State) : Nat := Sys2Proof.Config.freeNat s.fresh % 2 ^ scanCells s.order

/-- What the lands of the two banks carry (R478). -/
inductive Lands where
  | functional
  | scan (cells : Nat)
  | highZ
deriving DecidableEq, Repr

/-- EXTEST and CLAMP drive the lands from the update latch, and HIGHZ leaves them undriven (R478). -/
def State.lands (s : State) : Lands := match s.pins.jtag with
  | some .extest => .scan s.pins.scan
  | some .clamp => .scan s.pins.scan
  | some .highz => .highZ
  | _ => .functional

/-- JTAG_INSTRUCTION (R413, R478). SAMPLE/PRELOAD captures the lands and fills the update latch with what the tester shifts in, which
no row of the table carries: a free value. A private instruction in an unlocked part has no described meaning. -/
def execJtagInstruction (ir : Sys2Proof.JtagInstr) (s : State) : Host.Outcome State Fault Refusal :=
  match ir with
  | .priv _ => if s.fw.testModes then .refused .privateTestMode else .next (s.loadJtag none 0)
  | .bypass => .next (s.loadJtag none 0)
  | .idcode => .next (s.loadJtag (some .idcode) (idcode s.order))
  | .samplePreload =>
    let t := (s.loadJtag (some .samplePreload) s.capture).bump
    .next (State.bump { t with pins := { t.pins with scan := t.capture } })
  | .extest => .next (if s.pinTest then (s.loadJtag (some .extest) s.capture).bump else s.loadJtag none 0)
  | .clamp => .next (s.loadJtag (if s.pinTest then some .clamp else none) 0)
  | .highz => .next (s.loadJtag (if s.pinTest then some .highz else none) 0)

end Sys2Proof.Machine
end

