-- ==== Sys2Proof/Machine/Window.lean ====
section
/-! DEFINITION. The register window, the admin blocks, the stop latch and the safety port (R52, R378 to R388), the management
sessions (R392, R393) and the host links (R466, R477). -/

namespace Sys2Proof.Machine

/-! ### The stop latch (R385, R386, R472) -/

def State.safeHbNs (s : State) : Nat := bits (s.activeWord 0 0 0x10) 15 0 * 1000000

/-- Set the latch; a pending CLEAR is cancelled. -/
def State.latchStop (s : State) (request heartbeat : Bool) : State :=
  { s with win := { s.win with stopped := true, clearPending := false, byRequest := s.win.byRequest || request,
                               bySafeHb := s.win.bySafeHb || heartbeat } }

/-- The safety heartbeat is current (R385). -/
def State.safeHbCurrent (s : State) : Bool :=
  decide (s.safeHbNs = 0) || decide (s.clock.now ≤ max s.win.lastSafeHb s.win.safeHbSince + s.safeHbNs)

/-- A write to STOP_CTL (R385): STOP before CLEAR, and nothing without the key. -/
def State.stopCtl (s : State) (v : Nat) : State :=
  if !s.fw.powered || decide (bits v 31 16 ≠ 0x5354) then s
  else if bit v 0 then s.latchStop true false
  else if bit v 1 && s.win.stopped && !s.win.stopIn && s.safeHbCurrent then { s with win := { s.win with clearPending := true } }
  else s

/-- STOP_REQUEST (R385). -/
def execStopRequest (value : Sys2Proof.Word) (s : State) : Host.Outcome State Fault Refusal := .next (s.stopCtl value.toNat)

/-- STOP_CLEAR_REQUEST (R385). -/
def execStopClearRequest (value : Sys2Proof.Word) (s : State) : Host.Outcome State Fault Refusal := .next (s.stopCtl value.toNat)

/-- STOP_IN_ASSERT (R472): whatever the power, firmware or emergency state; before XD0 is powered it is kept as the pin's level. -/
def execStopInAssert (s : State) : Host.Outcome State Fault Refusal :=
  let s := { s with win := { s.win with stopIn := true } }
  .next (if s.fw.powered then s.latchStop false false else s)

/-- STOP_IN_DEASSERT (R385). -/
def execStopInDeassert (s : State) : Host.Outcome State Fault Refusal := .next { s with win := { s.win with stopIn := false } }

/-- The safety port answers: from stage 2, and after a fatal failure (R376, R377). -/
def State.safetyPortUp (s : State) : Bool := s.fw.powered && (decide (2 ≤ s.fw.bootStage) || s.fw.fatal)

def State.safeBeat (s : State) : State := { s with win := { s.win with lastSafeHb := s.clock.now } }

/-- SAFETY_HEARTBEAT (R385). -/
def execSafetyHeartbeat (_value : Sys2Proof.Word) (s : State) : Host.Outcome State Fault Refusal := .next (if s.safetyPortUp then s.safeBeat else s)

/-- SAFETY_HEARTBEAT_LAPSE (R385): more than SAFE_HB_MS after the last one. -/
def execSafetyHeartbeatLapse (s : State) : Host.Outcome State Fault Refusal :=
  .next (if !s.running || decide (s.safeHbNs = 0) then s
    else (s.reach (max s.win.lastSafeHb s.win.safeHbSince + s.safeHbNs + 1)).latchStop false true)

/-! ### The window (R380, R381) -/

def State.unusedSpare (s : State) (k : Nat) : Bool := !s.spareUsed k && !s.coreOut (k * 256 + 16)

/-- The fields of DEV_STATE that follow the snapshot. -/
def State.devStateNow (s : State) : Nat :=
  s.fw.bootStage + 2 ^ 4 * b2n s.clock.parked + 2 ^ 6 * b2n (decide (4 ≤ s.fw.bootStage)) + 2 ^ 7 * b2n (decide (5 ≤ s.fw.bootStage)) +
  2 ^ 10 * s.clock.timeState + 2 ^ 13 * s.activationCode

/-- PF code of HOST_STATE: 0 no session, 1 a session, 2 orphaned. -/
def State.pfCode (s : State) (fn : Nat) : Nat := match s.func? fn with
  | some f => if f.session.isNone then 0 else if f.orphan then 2 else 1
  | none => 0

def State.vfOrphans (s : State) (link : Nat) : Nat :=
  (Tab.keysWhere s.proto.funcs (fun fn f => decide (fn / 16 = link ∧ fn % 16 ≠ 0) && f.orphan)).length

def State.hostStateNow (s : State) : Nat := s.pfCode 0 + 4 * s.pfCode 16 + 2 ^ 16 * s.vfOrphans 0 + 2 ^ 24 * s.vfOrphans 1

def State.coreStateNow (s : State) : Nat :=
  let unused := ((List.range 8).filter s.unusedSpare).length
  s.rel.fenced.length + 2 ^ 8 * unused + 2 ^ 16 * (8 - unused)

/-- PART_p (R380, R410). -/
def State.partWord (s : State) (p : Nat) : Nat := match s.sched.partitions.get? p with
  | none => 0
  | some q =>
    let cores := if q.state = 3 then q.shownCores else q.inService
    q.state + 2 ^ 8 * q.cls + 2 ^ 16 * cores + 2 ^ 24 * b2n q.oneShort + 2 ^ 32 * (if q.state = 3 then 0 else sat32 q.misses)

def deviceWords : List Nat := [0, 1, 2, 3, 4, 0x10]

def State.snapshotNow (s : State) : Snapshot :=
  ⟨s.devStateNow, s.hostStateNow, s.coreStateNow, s.frameNo, sat32 s.win.missTotal, (List.range 16).map s.partWord,
   deviceWords.map (fun o => (o, s.activeWord 0 0 o))⟩

/-- Hearth has been started and runs (R376). -/
def State.windowUp (s : State) : Bool := s.running && decide (2 ≤ s.fw.bootStage) && !s.hearthDown

/-- SNAPSHOT_PUBLISH (R381). -/
def execSnapshotPublish (s : State) : Host.Outcome State Fault Refusal :=
  .next (if s.windowUp then { s with win := { s.win with snap := s.snapshotNow } } else s)

/-- DEV_STATE: the snapshot's fields with the live ones over them (R381). -/
def State.devState (s : State) : Nat :=
  let snap := s.win.snap.devState
  bits snap 4 0 + 2 ^ 5 * b2n s.win.stopped + 2 ^ 6 * bits snap 7 6 + 2 ^ 8 * s.power.level + 2 ^ 10 * bits snap 14 10 +
  2 ^ 15 * b2n (s.fw.procs.any (fun kv => kv.2.held)) + 2 ^ 16 * b2n s.hearthDown

def State.stopStatus (s : State) : Nat :=
  b2n s.win.stopped + 2 * b2n s.win.stopIn + 4 * b2n s.win.byRequest + 8 * b2n s.win.bySafeHb + 16 * b2n s.win.clearPending

/-- A 64-bit value's word. -/
def half64 (v : Nat) (hi : Bool) : Nat := if hi then v / 2 ^ 32 % 2 ^ 32 else v % 2 ^ 32

/-- A 32-bit word of the window as it reads (R380, R381, R388). -/
def State.windowWord (s : State) (off : Nat) : Nat :=
  let hi := decide (off % 8 = 4)
  if off = 0x000 then orderByte s.order + 2 ^ 8 * ioDies s.order + 2 ^ 16 * (stacksOf s.order).length
  else if off = 0x004 then s.fw.activeRelease
  else if off = 0x008 then s.fw.bootFail
  else if off = 0x00C then s.devState
  else if off = 0x010 then s.win.snap.hostState
  else if off = 0x014 then s.win.snap.coreState
  else if off = 0x018 ∨ off = 0x01C then half64 s.win.snap.frame hi
  else if off = 0x020 ∨ off = 0x024 then half64 s.clock.now hi
  else if off = 0x028 then s.win.snap.missTotal
  else if off = 0x04C then s.stopStatus
  else if off = 0x050 then s.win.spiErrors
  else if off = 0x064 then (if s.hearthDown then St.busy else s.win.commitStatus)
  else if off = 0x068 ∨ off = 0x06C then half64 s.win.commitFrame hi
  else if 0x100 ≤ off ∧ off < 0x180 then half64 (s.win.snap.parts.getD ((off - 0x100) / 8) 0) hi
  else if 0x400 ≤ off ∧ off < 0x500 then s.shadowWord 0 0 ((off - 0x400) / 4)
  else if 0x500 ≤ off ∧ off < 0x600 then (Tab.get? s.win.snap.active ((off - 0x500) / 4)).getD (wordReset 0 ((off - 0x500) / 4))
  else 0

/-! ### Writes (R382, R384, R388) -/

/-- A physical function of this order code. -/
def State.isPf (s : State) (fn : Nat) : Bool := decide (fn % 16 = 0 ∧ fn < funcCount s.order)

/-- The safety port may write the shadow words and CTL_COMMIT (R384). -/
def State.portMayConfigure (s : State) : Bool :=
  bit (s.activeWord 0 0 0x10) 16 || !s.proto.funcs.any (fun kv => decide (kv.1 % 16 = 0) && kv.2.session.isSome)

def State.mayConfigure (s : State) (d : Sys2Proof.Door) : Bool := match d with
  | .bar0 fn => s.isPf fn
  | .safetyPort => s.portMayConfigure

/-- A write to DEV_SHADOW_w. -/
def State.writeShadow (s : State) (w v : Nat) : State :=
  if s.windowUp ∧ wordMask 0 w ≠ 0 then s.setShadow 0 0 w (v &&& wordMask 0 w) else s

/-- A write of 1 to CTL_COMMIT, and its outcome (R382). -/
def State.windowCommit (s : State) (v : Nat) : State :=
  if s.windowUp ∧ v = 1 then
    let r := s.commit 0 0
    let ok := decide (r.2.status = 0)
    { r.1 with win := { r.1.win with
        commitStatus := r.2.status + 2 ^ 16 * (if ok then r.2.info else r.2.result),
        commitFrame := if ok then r.2.result else r.1.win.commitFrame } }
  else s

/-- CTL_COMMIT (R382, R384). -/
def execCtlCommit (door : Sys2Proof.Door) (value : Sys2Proof.Word) (s : State) : Host.Outcome State Fault Refusal :=
  .next (if s.mayConfigure door then s.windowCommit value.toNat else s)

/-- A field of an admin block by its offset in the block; a write resets the queue's indices (R52, R379). -/
def Func.writeAdmin (f : Func) (off v : Nat) : Func :=
  match off with
  | 0x00 => { f with sqBase := f.sqBase / 2 ^ 32 * 2 ^ 32 + v }
  | 0x04 => { f with sqBase := f.sqBase % 2 ^ 32 + 2 ^ 32 * v }
  | 0x08 => { f with cqBase := f.cqBase / 2 ^ 32 * 2 ^ 32 + v }
  | 0x0C => { f with cqBase := f.cqBase % 2 ^ 32 + 2 ^ 32 * v }
  | 0x10 => { f with slots := v }
  | 0x14 => { f with msix := v % 65536 }
  | _ => f

/-- Admin blocks accept writes from host-ready on (R376). -/
def State.adminUp (s : State) : Bool := s.running && decide (4 ≤ s.fw.bootStage)

def State.adminWrite (s : State) (fn off v : Nat) : State :=
  if s.adminUp ∧ off ≤ 0x14 ∧ off % 4 = 0 then
    (s.active.setFunc fn (fun f => f.writeAdmin off v)).setQueue fn (fun c => { c with head := 0, tail := 0, cplTail := 0, cplHead := 0 })
  else s

/-- REGISTER_WRITE (R379, R382, R384): a register with no row of its own; any other offset ignores the write. -/
def execRegisterWrite (door : Sys2Proof.Door) (offset : Nat) (value : Sys2Proof.Word) (s : State) : Host.Outcome State Fault Refusal :=
  .next (
    let shadow := decide (0x400 ≤ offset ∧ offset < 0x500 ∧ offset % 4 = 0)
    match door with
    | .safetyPort => if shadow && s.portMayConfigure then s.writeShadow ((offset - 0x400) / 4) value.toNat else s
    | .bar0 fn =>
      if s.isPf fn then
        (if shadow then s.writeShadow ((offset - 0x400) / 4) value.toNat
         else if 0x3000 ≤ offset then s.adminWrite fn (offset - 0x3000) value.toNat else s)
      else s.adminWrite fn offset value.toNat)

/-- ADMIN_QUEUE_ENABLE (R52, R379): ADMIN_CTL with ENABLE = 1; the checks are those of R54 that its fields have. -/
def execAdminQueueEnable (fn : Nat) (s : State) : Host.Outcome State Fault Refusal :=
  .next (match s.func? fn with
    | none => s
    | some f =>
      if !s.adminUp then s
      else if slotsOk f.slots && decide (f.sqBase % 4096 = 0 ∧ f.cqBase % 4096 = 0) && vectorOk f.msix then
        let q : CmdQueue := ⟨fn, f.sqBase, f.cqBase, f.slots, f.msix, none, 0, 256, 0, 0, 0, 0, false, none⟩
        let t := s.active.setFunc fn (fun f => { f with enable := true, setupErr := false })
        { t with proto := { t.proto with queues := t.proto.queues.set fn q } }
      else s.active.setFunc fn (fun f => { f with enable := false, setupErr := true }))

/-- ADMIN_QUEUE_DISABLE (R379). -/
def execAdminQueueDisable (fn : Nat) (s : State) : Host.Outcome State Fault Refusal :=
  .next (if s.adminUp then
      (s.active.setFunc fn (fun f => { f with enable := false })).setQueue fn (fun c => { c with head := 0, tail := 0, cplTail := 0, cplHead := 0 })
    else s)

/-! ### The safety port (R384, R387) -/

/-- The header of a transaction has an error. -/
def spiBadHeader (wire : List Byte) (paused : Bool) : Bool :=
  let cmd := fieldAt wire 0 1
  let addr := fieldAt wire 1 2
  let n := fieldAt wire 3 1
  decide (fieldAt wire 4 2 ≠ crc16 (wire.take 4)) || !paused || decide (cmd ≠ 2 ∧ cmd ≠ 3) || decide (addr % 4 ≠ 0) ||
  decide (n = 0 ∨ 64 < n ∨ 0x1000 < addr + 4 * n)

def State.spiStatus (s : State) (flags : Nat) : Byte := BitVec.ofNat 8 (flags + 16 * b2n s.hearthDown)

def State.countSpi (s : State) : State := { s with win := { s.win with spiErrors := sat32 (s.win.spiErrors + 1) } }

/-- After a header error the HX9 repeats STATUS until chip select rises: recorded once (log 9). -/
def State.spiHeaderError (s : State) : State := s.countSpi.emit (.spi [s.spiStatus 2])

/-- Offsets that hold a register (R380). -/
def windowListed (off : Nat) : Bool :=
  decide (off ≤ 0x28 ∨ (0x40 ≤ off ∧ off ≤ 0x50) ∨ (0x60 ≤ off ∧ off ≤ 0x6C) ∨ (0x100 ≤ off ∧ off < 0x180) ∨ (0x400 ≤ off ∧ off < 0x600))

/-- The safety port may write the word, or it is reserved (R384, R387). -/
def State.spiMay (s : State) (off : Nat) : Bool :=
  !windowListed off || decide (off = 0x44 ∨ off = 0x48) || ((decide (0x400 ≤ off ∧ off < 0x500) || decide (off = 0x60)) && s.portMayConfigure)

def State.spiWord (s : State) (off v : Nat) : State :=
  if off = 0x44 then s.safeBeat
  else if off = 0x48 then s.stopCtl v
  else if off = 0x60 then s.windowCommit v
  else if 0x400 ≤ off ∧ off < 0x500 then s.writeShadow ((off - 0x400) / 4) v
  else s

def State.spiReadOut (s : State) (addr n : Nat) : State :=
  let data := ((List.range n).map (fun i => toLe 4 (s.windowWord (addr + 4 * i)))).flatten ++ [s.spiStatus 1]
  s.emit (.spi (data ++ toLe 2 (crc16 data)))

def State.spiWriteIn (s : State) (addr n : Nat) (wire : List Byte) : State :=
  if fieldAt wire (6 + 4 * n) 2 ≠ crc16 (wire.take (6 + 4 * n)) then s.countSpi.emit (.spi [s.spiStatus 4])
  else if !(List.range n).all (fun i => s.spiMay (addr + 4 * i)) then s.emit (.spi [s.spiStatus 8])
  else
    let t := (List.range n).foldl (fun (s : State) i => s.spiWord (addr + 4 * i) (fieldAt wire (6 + 4 * i) 4)) s
    t.emit (.spi [t.spiStatus 1])

/-- One assertion of chip select: the bytes the controller sent, and whether it paused where R476 asks it to. -/
def State.spiTransaction (s : State) (wire : List Byte) (paused : Bool) : State :=
  let addr := fieldAt wire 1 2
  let n := fieldAt wire 3 1
  if !s.safetyPortUp || decide (wire.length < 6) then s
  else if spiBadHeader wire paused then s.spiHeaderError
  else if fieldAt wire 0 1 = 3 then s.spiReadOut addr n
  else if wire.length < 8 + 4 * n then s
  else s.spiWriteIn addr n wire

/-- SAFETY_SPI_READ (R387). -/
def execSafetySpiRead (wire : List Byte) (paused : Bool) (s : State) : Host.Outcome State Fault Refusal := .next (s.spiTransaction wire paused)

/-- SAFETY_SPI_WRITE (R387). -/
def execSafetySpiWrite (wire : List Byte) (paused : Bool) (s : State) : Host.Outcome State Fault Refusal := .next (s.spiTransaction wire paused)

/-! ### Management sessions (R392, R393) -/

def State.secUp (s : State) : Bool := s.fw.powered && !s.procDown 0 && !s.fw.unlockWait && !s.switching

/-- A chain ends at a nonzero owner anchor that was not burned (R392, R414). -/
def State.anchored (s : State) (d : List Byte) : Bool := s.sec.fuses.ownerAnchors.contains d && !allZero d && !s.rel.unlocked

/-- A session number that nothing of an ended session still carries. -/
def State.freeSession (s : State) : Nat :=
  let used := s.sec.sessions.keys ++ s.proto.flights.filterMap (fun f => match f.path with
    | .owner x => some x
    | _ => none)
  walkFree (used.length + 1) 0 (used.length + 2) used

/-- MGMT_SESSION_OPEN (R392). -/
def execMgmtSessionOpen (hs : Sys2Proof.Handshake) (s : State) : Host.Outcome State Fault Refusal :=
  .next (if !s.secUp || !s.addressed hs then s
    else if Handshake.sound hs && s.anchored hs.chainDigest && decide (s.sec.sessions.length < 2) then
      State.emit { s with sec := { s.sec with sessions := s.sec.sessions.set s.freeSession ⟨hs.chainDigest, 0, none, 0⟩ } }
        (.tlsServer (s.sec.fuses.certSerial ++ s.sec.fuses.certRest))
    else s.emit .tlsAlert)

/-- MGMT_SESSION_CLOSE (R72, R394, R480). -/
def execMgmtSessionClose (session : Nat) (s : State) : Host.Outcome State Fault Refusal := .next (s.closeSession session)

/-- A packet as it stands in its first bytes (R59). -/
def packetOf (path : Sys2Proof.Path) (b : List Byte) : Sys2Proof.Packet :=
  { path := path, ver := BitVec.ofNat 8 (fieldAt b 2 1), flags := BitVec.ofNat 8 (fieldAt b 3 1), seq := BitVec.ofNat 32 (fieldAt b 4 4),
    ctx := BitVec.ofNat 16 (fieldAt b 8 2), len := BitVec.ofNat 8 (fieldAt b 10 1), rsv := BitVec.ofNat 40 (fieldAt b 11 5), body := b.drop 16 }

/-- SEC takes a packet of a session: its length is LEN x 64 (R393); an opcode of no command completes at once. -/
def State.takeOwnerPacket (s : State) (x : Nat) (b : List Byte) : State :=
  let code := fieldAt b 0 2
  let p := packetOf (.owner x) b
  let t := s.active.newFlight p code
  match s.headerStatus p code with
  | some st => if (opRow code).isSome ∧ b.length = Packet.len p * 64 ∧ 0 < b.length then t.1
    else t.1.finishFull t.2 st 0 0 (some (s.verOf p code)) [] []
  | none => if b.length = Packet.len p * 64 ∧ 0 < b.length then t.1 else t.1.finish t.2 St.badParam 0 0

/-- MGMT_MESSAGE (R393): any type but 01h closes the session; with 64 packets in flight nothing more is read. -/
def execMgmtMessage (session type : Nat) (bytes : List Byte) (s : State) : Host.Outcome State Fault Refusal :=
  .next (if !s.secUp || !s.sec.sessions.has session then s
    else if type ≠ 1 then (s.closeSession session).emit .tlsAlert
    else if 64 ≤ (s.proto.flights.filter (fun f => decide (f.path = .owner session))).length +
        (s.proto.finished.filter (fun f => decide (f.path = .owner session))).length then s
    else s.takeOwnerPacket session bytes)

/-! ### Host links (R465, R466, R477) -/

/-- The link is down and the configuration space of its functions reset: bus mastering is off (R466). -/
def State.linkReset (s : State) (link : Nat) (perst : Bool) : State :=
  { s with
    pins := { s.pins with links := s.pins.links.set link ⟨false, perst, 0, 0⟩ }
    proto := { s.proto with funcs := s.proto.funcs.mapVals (fun fn f => if fn / 16 = link then { f with busMaster := false } else f) } }

def State.hostLink (s : State) (link : Nat) : HostLink := (s.pins.links.get? link).getD ⟨false, true, 0, 0⟩

/-- PERST_ASSERT (R466). -/
def execPerstAssert (link : Nat) (s : State) : Host.Outcome State Fault Refusal := .next (if link < ioDies s.order then s.linkReset link false else s)

/-- HOST_LINK_DOWN (R466). -/
def execHostLinkDown (link : Nat) (s : State) : Host.Outcome State Fault Refusal :=
  .next (if link < ioDies s.order then s.linkReset link (s.hostLink link).perst else s)

/-- The link that a partner trains: 8, 4, 2 or 1 lanes at 2.5 to 32 GT/s (R465). -/
def trainedLink (n : Nat) : HostLink := ⟨true, true, [8, 4, 2, 1].getD (n % 4) 8, [25, 50, 80, 160, 320].getD (n / 4 % 5) 320⟩

/-- HOST_LINK_UP (R376, R465, R477): the PHYs are ready in stage 2. A link trains only with its PERST_n high, which has no row of its
own; the width and speed are the partner's. -/
def execHostLinkUp (link : Nat) (s : State) : Host.Outcome State Fault Refusal :=
  .next (if s.running && decide (link < ioDies s.order) then
      State.bump { s with pins := { s.pins with links := s.pins.links.set link (trainedLink (Sys2Proof.Config.freeNat s.fresh)) } }
    else s)

/-- BUS_MASTER_ENABLE (R466): what waited for the function goes on, a queue that closes among it. -/
def execBusMasterEnable (fn : Nat) (s : State) : Host.Outcome State Fault Refusal :=
  .next (if s.running && (s.hostLink (fn / 16)).up then
      let s := s.setFunc fn (fun f => { f with busMaster := true })
      ((Tab.keysWhere s.proto.eqs (fun _ q => decide (q.fn = fn))).foldl (fun (s : State) e => s.reportLost e) s).closeQueues.settle
    else s)

end Sys2Proof.Machine
end

