-- ==== Sys2Proof/Machine/Edge.lean ====
section
/-! DEFINITION. The frame edge: its six actions in their order, and what comes about inside them (R27, R28, R32 to R36, R42, R339,
R340, R346, R348, R358, R385, R386, R451). -/

namespace Sys2Proof.Machine

/-! ### Actions 1 and 2: the statistics (R35, R36, R38, R358) -/

def share (total part whole : Nat) : Nat := if whole = 0 then 0 else total * part / whole

def sumOf (l : List Nat) : Nat := l.foldl (· + ·) 0

/-- Tier-2 bytes of a partition in the ended frame. -/
def FrameAcc.t2Of (a : FrameAcc) (p : Nat) : Nat := match a.parts.get? p with
  | some x => x.t2rd + x.t2wr
  | none => 0

/-- Energy apportioned to a partition (R358). -/
def FrameAcc.energyOf (a : FrameAcc) (p : Nat) : Nat :=
  let time : Nat → Nat → Nat := fun p k => (a.clusterTime.get? (p * 8 + k)).getD 0
  let cores := (List.range 8).map (fun k => share ((a.clusterEnergy.get? k).getD 0) (time p k) (sumOf ((List.range 16).map (fun q => time q k))))
  sumOf cores + share a.stackEnergy (a.t2Of p) (sumOf ((List.range 16).map a.t2Of))

/-- The record of one partition (R38, R410). -/
def State.partRec (s : State) (p : Nat) : PartRec :=
  match s.sched.partitions.get? p with
  | none => ⟨0, 0, 0, false, PartAcc.zero, 0⟩
  | some q =>
    if q.state = 3 then ⟨3, q.cls, q.shownCores, false, PartAcc.zero, 0⟩
    else ⟨q.state, q.cls, q.inService, q.oneShort, (s.stats.acc.parts.get? p).getD PartAcc.zero, s.stats.acc.energyOf p⟩

/-- The entry of the frame that ends at robot time `stop`. -/
def State.frameEntry (s : State) (stop : Nat) : StatsEntry :=
  { frameNo := s.frameNo, start := s.clock.frameStart, stop := stop, timeState := s.clock.timeState, late := decide (128 ≤ s.stats.ring.length),
    rate := s.clock.rate, offset := s.gmOffset, acc := s.stats.acc, parts := (List.range 16).map s.partRec }

def Account.add (a : Account) (r : PartRec) : Account :=
  { a with coreTime := a.coreTime + r.acc.coreTime, t1 := a.t1 + r.acc.t1, t2rd := a.t2rd + r.acc.t2rd, t2wr := a.t2wr + r.acc.t2wr,
           t3 := a.t3 + r.acc.t3, energy := a.energy + r.energy, misses := a.misses + r.acc.misses }

/-- A latched entry joins the totals of the contexts that hold the partitions (R358, R359). -/
def State.addAccounts (s : State) (e : StatsEntry) : State :=
  let mine : Nat → List PartRec := fun c => (Tab.keysWhere s.sched.partitions (fun _ q => decide (q.ctx = c))).filterMap (fun p => e.parts[p]?)
  { s with sched := { s.sched with contexts := s.sched.contexts.mapVals (fun c (x : Context) =>
      { x with acct := (mine c).foldl (fun (a : Account) r => a.add r) { x.acct with frameNo := e.frameNo } }) } }

/-- Action 1, of an edge that ends a frame; action 2, after which tags in use and the level still count (R38). -/
def State.latchFrame (s : State) (stop : Nat) : State :=
  let s := if s.clock.nextFrame = 0 then s
    else
      let e := s.frameEntry stop
      let r := s.stats.ring
      State.addAccounts { s with stats := { s.stats with ring := (if 128 ≤ r.length then r.tail else r) ++ [e] } } e
  let s := s.latchDrops
  { s with
    stats := { s.stats with acc := { FrameAcc.zero with
      emergencyPeak := s.power.level, tagPeakShared := s.tagsUsed false, tagPeakControl := s.tagsUsed true } }
    rel := { s.rel with postedLines := [] } }

/-! ### The frame that opens (R27, R28) -/

/-- A step due and still allowed (R27). -/
def State.stepNow (s : State) : Nat := if s.clock.parked && !s.controlActive then s.clock.step else 0

/-- Open the frame at robot time `t`, stepped if a step is due; a step no longer allowed is slewed (R27, R275). What is measured by
the 100 us takes no part in the step (R440). -/
def State.openFrame (s : State) (t : Nat) : State :=
  let d := s.stepNow
  let c := s.clock
  let s := { s with
    clock := { c with now := c.now + d, frameStart := t + d, nextFrame := c.nextFrame + 1, step := 0,
                      slew := c.slew + ((c.step - d : Nat) : Int) * 1000000000 }
    power := { s.power with lastTick := s.power.lastTick + d } }
  if d = 0 then s else ((s.shiftModels d).acc (fun a => { a with stepped := true })).post (timeEvent 0x14 1 (s.role - 1) d)

/-! ### Action 3: commits (R32 to R34, R304, R385, R442) -/

/-- What the change of one active word brings with it. -/
def State.wordChanged (s : State) (kind id off old new : Nat) : State :=
  if kind = 0 ∧ off = 1 ∧ bits old 31 30 ≠ bits new 31 30 then
    let s := { s with clock := { s.clock with lastSync := none, lockRun := 0 } }
    if bits new 31 30 = 0 then
      State.post { s with clock := { s.clock with timeState := 1, rate := 0, slew := 0, step := 0, nextSync := s.clock.now + s.syncEvery } } (timeEvent 0x11 0 0 0)
    else s.enterFree
  else if kind = 0 ∧ off = 2 then (if s.capW * 1000 < s.power.draw then s.endExcursion else s)
  else if kind = 0 ∧ off = 0x10 ∧ bits old 15 0 ≠ bits new 15 0 then { s with win := { s.win with safeHbSince := s.clock.frameStart } }
  else if kind = 5 ∧ off ≤ 1 then { s with apps := { s.apps with channels := s.apps.channels.update id (fun (c : Channel) => { c with factorOk := false, rho := s.activeWord 5 id 1 }) } }
  else s

/-- COMMIT_APPLY of one word. -/
def State.applyWord (s : State) (kind id : Nat) (ow : Nat × Nat) : State :=
  let old := s.activeWord kind id ow.1
  if old = ow.2 then s else (s.setActive kind id ow.1 ow.2).wordChanged kind id ow.1 old ow.2

/-- COMMIT_APPLY: the commits due at the edge that opens frame `fr`, in the order accepted (R32, R35). -/
def State.applyCommits (s : State) (fr : Nat) : State :=
  let due := s.scopes.pending.filter (fun c => decide (c.frame ≤ fr))
  let old := s.activeWord 0 0 0
  let s := { s with scopes := { s.scopes with pending := s.scopes.pending.filter (fun c => decide (fr < c.frame)) } }
  let s := due.foldl (fun (s : State) (c : Commit) => c.words.foldl (fun (s : State) w => s.applyWord c.scope.kind c.scope.id w) s) s
  s.acc (fun a => { a with commitApplied := !due.isEmpty, cfgChanged := decide (s.activeWord 0 0 0 ≠ old) })

/-- The next edge: the next point of the grid, or, after a change of FRAME_CFG, the earliest one at least 250 us away (R28, R34).
DESIGN CHOICE: at an edge that also steps time, the 250 us count from the time the step reached (log 94). -/
def State.placeEdge (s : State) : State :=
  let f := s.clock.frameStart
  { s with clock := { s.clock with nextEdge := s.gridAfter (if s.stats.acc.cfgChanged then f + 249999 else f) } }

/-! ### Partitions (R339, R340, R407) -/

/-- PARTITION_ACTIVATE and QUENCH_START for one partition. -/
def State.edgePart (s : State) (fr p : Nat) : State :=
  match s.sched.partitions.get? p with
  | none => s
  | some q =>
    if q.state = 4 ∧ q.activeFrame ≤ fr then (s.setPart p (fun q => { q with state := 1 })).postPart p 1
    else if q.state = 2 ∧ q.drained then s.startQuench p fr
    else s

def State.edgeParts (s : State) (fr frameNs : Nat) : State :=
  let s := s.countQuench frameNs
  (s.sched.partitions.keys.foldl (fun s p => s.edgePart fr p) s).nextTier2Part

/-! ### The stop latch (R385, R386) -/

/-- STOP_LATCH_CLEAR, and whether a stop is in force from this edge. -/
def State.edgeStop (s : State) : State :=
  let w := s.win
  let w := if w.clearPending then { w with stopped := false, clearPending := false, byRequest := false, bySafeHb := false } else w
  { s with win := { w with stopActive := w.stopped } }

/-! ### The edge (R35) -/

/-- Actions 1 to 3. -/
def State.edgeFirst (s : State) (t : Nat) : State := (((s.latchFrame t).openFrame t).applyCommits s.clock.nextFrame).placeEdge

/-- Actions 4 to 6. -/
def State.edgeLast (s : State) (fr frameNs : Nat) : State :=
  let s := s.edgeStop
  let s := s.stepPlans fr s.win.stopActive s.stats.acc.cfgChanged
  let s := ((s.edgeParts fr frameNs).takeOvers).armJobs fr
  s.fireEdgeJobs.retime

/-- FRAME_EDGE (R35). -/
def execFrameEdge (s : State) : Host.Outcome State Fault Refusal :=
  .next (if !s.running then s
    else
      let t := s.clock.nextEdge
      let fr := s.clock.nextFrame
      let len := t - s.clock.frameStart
      ((((((s.latestBefore t).lateBefore t).reach t).edgeFirst t).edgeLast fr len).settleDeferral.rollBack.edgeCheckpoints).settle)

end Sys2Proof.Machine
end

