-- ==== Sys2Proof/Machine/Dispatch.lean ====
section
/-! DEFINITION. The meaning of every command, one arm each. -/

namespace Sys2Proof.Machine

def exec (i : Instr) (s : State) : Host.Outcome State Fault Refusal :=
  match i with
  | .hello p => Sys2Proof.Machine.execHello p s
  | .heartbeat p => Sys2Proof.Machine.execHeartbeat p s
  | .reclaim p => Sys2Proof.Machine.execReclaim p s
  | .deviceInfo p => Sys2Proof.Machine.execDeviceInfo p s
  | .nop p => Sys2Proof.Machine.execNop p s
  | .park p => Sys2Proof.Machine.execPark p s
  | .unpark p => Sys2Proof.Machine.execUnpark p s
  | .queueCreate p => Sys2Proof.Machine.execQueueCreate p s
  | .queueDestroy p => Sys2Proof.Machine.execQueueDestroy p s
  | .queueReset p => Sys2Proof.Machine.execQueueReset p s
  | .eqCreate p => Sys2Proof.Machine.execEqCreate p s
  | .eqDestroy p => Sys2Proof.Machine.execEqDestroy p s
  | .eventSubscribe p => Sys2Proof.Machine.execEventSubscribe p s
  | .configWrite p => Sys2Proof.Machine.execConfigWrite p s
  | .configRead p => Sys2Proof.Machine.execConfigRead p s
  | .configCommit p => Sys2Proof.Machine.execConfigCommit p s
  | .timeRead p => Sys2Proof.Machine.execTimeRead p s
  | .statsStream p => Sys2Proof.Machine.execStatsStream p s
  | .matmul p => Sys2Proof.Machine.execMatmul p s
  | .vectorOp p => Sys2Proof.Machine.execVectorOp p s
  | .reduce p => Sys2Proof.Machine.execReduce p s
  | .move p => Sys2Proof.Machine.execMove p s
  | .tileMove p => Sys2Proof.Machine.execTileMove p s
  | .regionAlloc p => Sys2Proof.Machine.execRegionAlloc p s
  | .regionFree p => Sys2Proof.Machine.execRegionFree p s
  | .bellowsStart p => Sys2Proof.Machine.execBellowsStart p s
  | .bellowsStop p => Sys2Proof.Machine.execBellowsStop p s
  | .attention p => Sys2Proof.Machine.execAttention p s
  | .attentionBackward p => Sys2Proof.Machine.execAttentionBackward p s
  | .ptCreate p => Sys2Proof.Machine.execPtCreate p s
  | .ptDestroy p => Sys2Proof.Machine.execPtDestroy p s
  | .kvAppend p => Sys2Proof.Machine.execKvAppend p s
  | .verifyCommit p => Sys2Proof.Machine.execVerifyCommit p s
  | .seqPreempt p => Sys2Proof.Machine.execSeqPreempt p s
  | .seqResume p => Sys2Proof.Machine.execSeqResume p s
  | .swapPoolRegister p => Sys2Proof.Machine.execSwapPoolRegister p s
  | .swapOutPage seq => Sys2Proof.Machine.execSwapOutPage seq s
  | .swapInPage seq => Sys2Proof.Machine.execSwapInPage seq s
  | .streamStart p => Sys2Proof.Machine.execStreamStart p s
  | .streamPause p => Sys2Proof.Machine.execStreamPause p s
  | .streamResume p => Sys2Proof.Machine.execStreamResume p s
  | .streamEnd p => Sys2Proof.Machine.execStreamEnd p s
  | .chunk p => Sys2Proof.Machine.execChunk p s
  | .stateExport p => Sys2Proof.Machine.execStateExport p s
  | .stateImport p => Sys2Proof.Machine.execStateImport p s
  | .reAnchor p => Sys2Proof.Machine.execReAnchor p s
  | .stateSwapOut p => Sys2Proof.Machine.execStateSwapOut p s
  | .streamOpTurn stream => Sys2Proof.Machine.execStreamOpTurn stream s
  | .conv p => Sys2Proof.Machine.execConv p s
  | .pool p => Sys2Proof.Machine.execPool p s
  | .cropResize p => Sys2Proof.Machine.execCropResize p s
  | .slotConfig p => Sys2Proof.Machine.execSlotConfig p s
  | .calibWrite p => Sys2Proof.Machine.execCalibWrite p s
  | .gridCreate p => Sys2Proof.Machine.execGridCreate p s
  | .gridDestroy p => Sys2Proof.Machine.execGridDestroy p s
  | .gridProject p => Sys2Proof.Machine.execGridProject p s
  | .streamHealth p => Sys2Proof.Machine.execStreamHealth p s
  | .factor p => Sys2Proof.Machine.execFactor p s
  | .triSolve p => Sys2Proof.Machine.execTriSolve p s
  | .qpSetup p => Sys2Proof.Machine.execQpSetup p s
  | .qpSolve p => Sys2Proof.Machine.execQpSolve p s
  | .latticeLoad p => Sys2Proof.Machine.execLatticeLoad p s
  | .mapPublish p => Sys2Proof.Machine.execMapPublish p s
  | .planSearch p => Sys2Proof.Machine.execPlanSearch p s
  | .planAbort p => Sys2Proof.Machine.execPlanAbort p s
  | .ctxCreate p => Sys2Proof.Machine.execCtxCreate p s
  | .ctxDestroy p => Sys2Proof.Machine.execCtxDestroy p s
  | .partitionCreate p => Sys2Proof.Machine.execPartitionCreate p s
  | .partitionRelease p => Sys2Proof.Machine.execPartitionRelease p s
  | .jobArm p => Sys2Proof.Machine.execJobArm p s
  | .jobDisarm p => Sys2Proof.Machine.execJobDisarm p s
  | .modelRegister p => Sys2Proof.Machine.execModelRegister p s
  | .modelPin p => Sys2Proof.Machine.execModelPin p s
  | .modelUnpin p => Sys2Proof.Machine.execModelUnpin p s
  | .accountRead p => Sys2Proof.Machine.execAccountRead p s
  | .fwStage p => Sys2Proof.Machine.execFwStage p s
  | .activateFw p => Sys2Proof.Machine.execActivateFw p s
  | .fwStatus p => Sys2Proof.Machine.execFwStatus p s
  | .keyRotate p => Sys2Proof.Machine.execKeyRotate p s
  | .retireKey p => Sys2Proof.Machine.execRetireKey p s
  | .keyStatus p => Sys2Proof.Machine.execKeyStatus p s
  | .powerRead p => Sys2Proof.Machine.execPowerRead p s
  | .faultLogExport p => Sys2Proof.Machine.execFaultLogExport p s
  | .errorCounts p => Sys2Proof.Machine.execErrorCounts p s
  | .sqTail fn q value => Sys2Proof.Machine.execSqTail fn q value s
  | .cqHead fn q value => Sys2Proof.Machine.execCqHead fn q value s
  | .eqHead fn e value => Sys2Proof.Machine.execEqHead fn e value s
  | .packetFetch => Sys2Proof.Machine.execPacketFetch s
  | .completionWrite => Sys2Proof.Machine.execCompletionWrite s
  | .orphanEntered fn => Sys2Proof.Machine.execOrphanEntered fn s
  | .frameEdge => Sys2Proof.Machine.execFrameEdge s
  | .quenchEnd part => Sys2Proof.Machine.execQuenchEnd part s
  | .statsPublish => Sys2Proof.Machine.execStatsPublish s
  | .statsPageSend session => Sys2Proof.Machine.execStatsPageSend session s
  | .snapshotPublish => Sys2Proof.Machine.execSnapshotPublish s
  | .trigLatestExpire job => Sys2Proof.Machine.execTrigLatestExpire job s
  | .firingComplete job => Sys2Proof.Machine.execFiringComplete job s
  | .ctlMiss job => Sys2Proof.Machine.execCtlMiss job s
  | .sync port offset interval => Sys2Proof.Machine.execSync port offset interval s
  | .announce port => Sys2Proof.Machine.execAnnounce port s
  | .pdelayReq port reqId => Sys2Proof.Machine.execPdelayReq port reqId s
  | .pdelayResp port t1 t2 t3 t4 => Sys2Proof.Machine.execPdelayResp port t1 t2 t3 t4 s
  | .gmSyncTransmit => Sys2Proof.Machine.execGmSyncTransmit s
  | .timeHoldover => Sys2Proof.Machine.execTimeHoldover s
  | .timeFree => Sys2Proof.Machine.execTimeFree s
  | .csi2FrameStart die port vc frameNo => Sys2Proof.Machine.execCsi2FrameStart die port vc frameNo s
  | .csi2LongPacket die port vc dt link payload => Sys2Proof.Machine.execCsi2LongPacket die port vc dt link payload s
  | .csi2FrameEnd die port vc frameNo => Sys2Proof.Machine.execCsi2FrameEnd die port vc frameNo s
  | .tdmFrameSync die port bclks words => Sys2Proof.Machine.execTdmFrameSync die port bclks words s
  | .spiPeriodicStart slot => Sys2Proof.Machine.execSpiPeriodicStart slot s
  | .spiTransactionEnd slot payload => Sys2Proof.Machine.execSpiTransactionEnd slot payload s
  | .gpioEdge die line rising => Sys2Proof.Machine.execGpioEdge die line rising s
  | .ethFrame port mac vlan fcsOk payload => Sys2Proof.Machine.execEthFrame port mac vlan fcsOk payload s
  | .sampleReady slot => Sys2Proof.Machine.execSampleReady slot s
  | .ingressT2Write slot => Sys2Proof.Machine.execIngressT2Write slot s
  | .maintenanceSlot stack margin scrub => Sys2Proof.Machine.execMaintenanceSlot stack margin scrub s
  | .bellowsTileFetch stream pos link => Sys2Proof.Machine.execBellowsTileFetch stream pos link s
  | .operationIssue core engine => Sys2Proof.Machine.execOperationIssue core engine s
  | .operationRetire core engine mem => Sys2Proof.Machine.execOperationRetire core engine mem s
  | .tongsDescriptorStart core => Sys2Proof.Machine.execTongsDescriptorStart core s
  | .tongsDescriptorRetire core mem => Sys2Proof.Machine.execTongsDescriptorRetire core mem s
  | .watchdogExpire proc => Sys2Proof.Machine.execWatchdogExpire proc s
  | .hearthResume => Sys2Proof.Machine.execHearthResume s
  | .fwSwitch => Sys2Proof.Machine.execFwSwitch s
  | .fwMeasure allMatch => Sys2Proof.Machine.execFwMeasure allMatch s
  | .activationTimeout => Sys2Proof.Machine.execActivationTimeout s
  | .pwrGoodRise testEn => Sys2Proof.Machine.execPwrGoodRise testEn s
  | .bootStageAdvance report => Sys2Proof.Machine.execBootStageAdvance report s
  | .testUnlockSession hs => Sys2Proof.Machine.execTestUnlockSession hs s
  | .testUnlockTimeout => Sys2Proof.Machine.execTestUnlockTimeout s
  | .jtagInstruction ir => Sys2Proof.Machine.execJtagInstruction ir s
  | .mgmtSessionOpen hs => Sys2Proof.Machine.execMgmtSessionOpen hs s
  | .mgmtSessionClose session => Sys2Proof.Machine.execMgmtSessionClose session s
  | .mgmtMessage session type bytes => Sys2Proof.Machine.execMgmtMessage session type bytes s
  | .hostHeartbeat fn value => Sys2Proof.Machine.execHostHeartbeat fn value s
  | .safetyHeartbeat value => Sys2Proof.Machine.execSafetyHeartbeat value s
  | .safetyHeartbeatLapse => Sys2Proof.Machine.execSafetyHeartbeatLapse s
  | .stopRequest value => Sys2Proof.Machine.execStopRequest value s
  | .stopClearRequest value => Sys2Proof.Machine.execStopClearRequest value s
  | .stopInAssert => Sys2Proof.Machine.execStopInAssert s
  | .ctlCommit door value => Sys2Proof.Machine.execCtlCommit door value s
  | .adminQueueEnable fn => Sys2Proof.Machine.execAdminQueueEnable fn s
  | .adminQueueDisable fn => Sys2Proof.Machine.execAdminQueueDisable fn s
  | .registerWrite door offset value => Sys2Proof.Machine.execRegisterWrite door offset value s
  | .safetySpiRead wire paused => Sys2Proof.Machine.execSafetySpiRead wire paused s
  | .safetySpiWrite wire paused => Sys2Proof.Machine.execSafetySpiWrite wire paused s
  | .perstAssert link => Sys2Proof.Machine.execPerstAssert link s
  | .hostLinkDown link => Sys2Proof.Machine.execHostLinkDown link s
  | .busMasterEnable fn => Sys2Proof.Machine.execBusMasterEnable fn s
  | .moduleReset => Sys2Proof.Machine.execModuleReset s
  | .vinCauseRaise millivolts => Sys2Proof.Machine.execVinCauseRaise millivolts s
  | .vinCauseClear millivolts => Sys2Proof.Machine.execVinCauseClear millivolts s
  | .e3Undervoltage => Sys2Proof.Machine.execE3Undervoltage s
  | .overvoltageTrip => Sys2Proof.Machine.execOvervoltageTrip s
  | .undervoltageLockout => Sys2Proof.Machine.execUndervoltageLockout s
  | .carrierStart belowFor => Sys2Proof.Machine.execCarrierStart belowFor s
  | .emergencyHoldExpire => Sys2Proof.Machine.execEmergencyHoldExpire s
  | .trip cause => Sys2Proof.Machine.execTrip cause s
  | .capControlTick milliwatts rails => Sys2Proof.Machine.execCapControlTick milliwatts rails s
  | .excursionEnd => Sys2Proof.Machine.execExcursionEnd s
  | .overpowerGate milliwatts => Sys2Proof.Machine.execOverpowerGate milliwatts s
  | .thermalSample temps => Sys2Proof.Machine.execThermalSample temps s
  | .throttleStep cluster => Sys2Proof.Machine.execThrottleStep cluster s
  | .powerStateChoose cluster tNext => Sys2Proof.Machine.execPowerStateChoose cluster tNext s
  | .powerStateWake cluster => Sys2Proof.Machine.execPowerStateWake cluster s
  | .standbyEnter => Sys2Proof.Machine.execStandbyEnter s
  | .standbyWake => Sys2Proof.Machine.execStandbyWake s
  | .coreFence core cause => Sys2Proof.Machine.execCoreFence core cause s
  | .selfTestDone core pass => Sys2Proof.Machine.execSelfTestDone core pass s
  | .spareCopyDone cluster badLines => Sys2Proof.Machine.execSpareCopyDone cluster badLines s
  | .internalLinkFail => Sys2Proof.Machine.execInternalLinkFail s
  | .faultLogWrite => Sys2Proof.Machine.execFaultLogWrite s
  | .stopInDeassert => Sys2Proof.Machine.execStopInDeassert s
  | .resetInRelease => Sys2Proof.Machine.execResetInRelease s
  | .railOutOfRegulation => Sys2Proof.Machine.execRailOutOfRegulation s
  | .overpowerRelease milliwatts => Sys2Proof.Machine.execOverpowerRelease milliwatts s
  | .processorRestartDone proc => Sys2Proof.Machine.execProcessorRestartDone proc s
  | .hostLinkUp link => Sys2Proof.Machine.execHostLinkUp link s
  | .quenchTier2PartEnd => Sys2Proof.Machine.execQuenchTier2PartEnd s
  | .modelLoadDone model => Sys2Proof.Machine.execModelLoadDone model s

end Sys2Proof.Machine
end

