-- ==== Sys2Proof/Safety.lean ====
section
/-! DEFINITION. The terms the statements use: when a step answers, when a packet's command is taken, how it ends, and what a
state keeps. -/

namespace Sys2Proof.Machine

/-- The step from a state answers a next state. -/
def State.Steps (s : State) : Prop := ∃ t, step s = .next t

/-- The command of packet `p` acts now: the opcode is served, PACKET_FETCH took it as flight `f`, no earlier packet of its path
holds it, its header passes the checks of R61, no emergency level sheds it, and `c` sent it. -/
def State.takes (s : State) (p : Sys2Proof.Packet) (code : Nat) (f : Flight) (c : Caller) : Bool :=
  s.serves p.path code && decide (s.fetched p code = some f) && !s.fenced p f.id &&
  (s.turnAway p code).isNone && decide (s.caller p.path = some c)

/-- Flight `f` completes with a status, in the state that its effect left; VER is as R62 gives it. -/
def State.ends (s : State) (f : Flight) (ver status info result : Nat) : State := s.finishFull f.id status info result (some ver) [] []

/-- Flight `f` completes with OK. -/
def State.okWith (s : State) (f : Flight) (ver result : Nat) : State := s.ends f ver St.ok 0 result

/-- Flight `f` is accepted and completes later. -/
def State.accepts (s : State) (f : Flight) : State := s.setFlight f.id (fun g => { g with running := true, parked := false })

/-- The bytes of a packet with an opcode, as host software writes them to a ring or the owner sends them (R59). -/
def packetBytes (code : Nat) (p : Sys2Proof.Packet) : List Byte :=
  toLe 2 code ++ [p.ver, p.flags] ++ toLe 4 p.seq.toNat ++ toLe 2 p.ctx.toNat ++ [p.len] ++ toLe 5 p.rsv.toNat ++ p.body

/-- Every byte memory is in its canonical form: addresses strictly rising, no listed byte zero. -/
def Stores.wf (m : Stores) : Bool := Mem.wf m.core && Mem.wf m.region && Mem.wf m.tier2 && Mem.wf m.xd && Mem.wf m.host && Mem.wf m.ufs

/-- A word of a scope's active copy once the commits due at the edge that opens frame `fr` have been applied in the order accepted (R32). -/
def State.wordAt (s : State) (fr kind id off : Nat) : Nat :=
  match (((s.scopes.pending.filter (fun c => decide (c.frame ≤ fr ∧ c.scope = ⟨kind, id⟩))).flatMap (·.words)).filter (fun w => decide (w.1 = off))).getLast? with
  | some w => w.2
  | none => s.activeWord kind id off

/-- The rate and the slew limit keep robot time moving, and so will the commits that wait (R22, R27, R30). -/
def State.paced (s : State) : Prop :=
  -100000000 ≤ s.clock.rate ∧ s.clock.rate ≤ 100000000 ∧ bits (s.activeWord 0 0 1) 7 0 ≤ 200 ∧
    ∀ c ∈ s.scopes.pending, c.scope = ⟨0, 0⟩ → ∀ w ∈ c.words, w.1 = 1 → bits w.2 7 0 ≤ 200

/-- No packet is in flight, and no stream, Bellows, job, search, swap, destroy or release waits for anything (log 36). -/
def State.nothingWaits (s : State) : Bool :=
  s.proto.flights.isEmpty && s.apps.streams.isEmpty && s.tiers.bellows.isEmpty && s.tiers.stopped.isEmpty &&
  s.sched.jobs.all (fun kv => kv.2.disarm.isNone && kv.2.firing.isNone) && s.apps.lattices.all (fun kv => kv.2.search.isNone) &&
  s.kv.seqs.all (fun kv => decide (kv.2.state ≠ 2)) && s.tiers.regions.all (fun kv => kv.2.freeing.isNone) && s.tiers.allocs.all (fun a => a.freeing.isNone) &&
  s.ingest.grids.all (fun kv => kv.2.destroy.isNone) && s.sched.partitions.all (fun kv => decide (kv.2.state ≠ 2)) &&
  s.sched.contexts.all (fun kv => kv.2.destroy.isNone && kv.2.gens.all (fun g => decide (g.state ≠ 2)))

/-- A linear tensor of rank 1 or 2 in the core store. -/
def coreTensor (fmt off d0 d1 pitch : Nat) : TDesc := ⟨off, fmt, 0, 1, if d1 = 1 then 1 else 2, d0, d1, 1, 1, 0, if d1 = 1 then 0 else pitch, 0, 0, 0⟩

/-- The little-endian number of `n` bytes of a core's store. -/
def State.coreLe (s : State) (core off n : Nat) : Nat := leNat ((List.range n).map (fun i => s.stores.core.read (coreKey core (off + i))))

/-- The packet's operation runs on the one core at position 0 of its partition, with nothing uncorrectable in any store, and with every
core-store write of earlier operations made. -/
def onOneCore (s : State) (p : Sys2Proof.Packet) (n : Nat) (q : Partition) (core : Nat) : Prop :=
  Packet.ctxNo p ≠ 0xFFFF ∧ s.partOf (Packet.ctxNo p) = some (n, q) ∧ q.state = 1 ∧ q.positions[0]? = some (some core) ∧ s.coreHeld q.cls core = false ∧
    s.stores.poison = [] ∧ s.awaited = [] ∧ Packet.fld p 16 1 = 0 ∧ Packet.fld p 17 1 = 1 ∧ Packet.fld p 18 1 = 0 ∧ Packet.fld p 26 2 = 0 ∧ arithOk (Packet.fld p 19 1) = true

/-- The compute packets whose operation the cores run, with their opcodes and operations. -/
def computeCommands : List ((Sys2Proof.Packet → Sys2Proof.Instr) × Nat × Compute) :=
  [(.matmul, 0x200, compMatmul), (.vectorOp, 0x201, compVector), (.reduce, 0x202, compReduce), (.move, 0x203, compMove), (.conv, 0x600, compConv),
   (.pool, 0x601, compPool), (.cropResize, 0x602, compCrop), (.factor, 0x800, compFactor), (.triSolve, 0x801, compTri), (.qpSetup, 0x802, compQpSetup),
   (.qpSolve, 0x803, compQpSolve)]

/-- The unscaled formats and the MX element formats of R92 and R94. -/
def floatFormats : List Fmt := [fp64, fp32, bf16, e4m3, e5m2, e2m3, e3m2, e2m1]

end Sys2Proof.Machine
end

