-- ==== Sys2Proof/Laws/Packets.lean ====
section
/-! SUPPORT. What a packet's command does, said once: its body's answer, or the status its checks give. -/

namespace Sys2Proof.Machine

/-- A packet that is taken runs its body, and the body's answer is recorded for its flight. -/
theorem runPacket_takes (code : Nat) (body : Body) (p : Sys2Proof.Packet) (s : State) (f : Flight) (c : Caller)
    (h : s.takes p code f c = true) :
    runPacket code body p s = (body f.id c p s).1.settleReply f.id (s.verOf p code) (body f.id c p s).2 := by
  simp only [State.takes, Bool.and_eq_true, Bool.not_eq_true', decide_eq_true_eq, Option.isNone_iff_eq_none] at h
  obtain ⟨⟨⟨⟨h1, h3⟩, h4⟩, h5⟩, h6⟩ := h
  simp [runPacket, h1, h3, h4, State.dispatch, h5, h6]

theorem checked_pass (checks : Caller → Sys2Proof.Packet → State → Option Nat)
    (effect : Nat → Caller → Sys2Proof.Packet → State → State × Reply) (id : Nat) (c : Caller) (p : Sys2Proof.Packet) (s : State)
    (h : checks c p s = none) : checked checks effect id c p s = effect id c p s := by simp [checked, h]

theorem checked_fail (checks : Caller → Sys2Proof.Packet → State → Option Nat)
    (effect : Nat → Caller → Sys2Proof.Packet → State → State × Reply) (id : Nat) (c : Caller) (p : Sys2Proof.Packet) (s : State) (st : Nat)
    (h : checks c p s = some st) : checked checks effect id c p s = refuse s st := by simp [checked, h]

/-- A packet that is taken and whose body's checks pass has the body's effect. -/
theorem runPacket_effect (code : Nat) (checks : Caller → Sys2Proof.Packet → State → Option Nat)
    (effect : Nat → Caller → Sys2Proof.Packet → State → State × Reply) (p : Sys2Proof.Packet) (s : State) (f : Flight) (c : Caller)
    (h : s.takes p code f c = true) (hc : checks c p s = none) :
    runPacket code (checked checks effect) p s =
      (effect f.id c p s).1.settleReply f.id (s.verOf p code) (effect f.id c p s).2 := by
  rw [runPacket_takes _ _ _ _ _ _ h, checked_pass _ _ _ _ _ _ hc]

/-- A packet that is taken and whose body's checks fail completes with that status, and nothing else changes. -/
theorem runPacket_fails (code : Nat) (checks : Caller → Sys2Proof.Packet → State → Option Nat)
    (effect : Nat → Caller → Sys2Proof.Packet → State → State × Reply) (p : Sys2Proof.Packet) (s : State) (f : Flight) (c : Caller) (st : Nat)
    (h : s.takes p code f c = true) (hc : checks c p s = some st) :
    runPacket code (checked checks effect) p s = s.ends f (s.verOf p code) st 0 0 := by
  rw [runPacket_takes _ _ _ _ _ _ h, checked_fail _ _ _ _ _ _ _ hc]; rfl

/-- No check of a list fails exactly when each of them passes. -/
theorem firstFail_none : ∀ (l : List (Bool × Nat)), firstFail l = none ↔ ∀ x ∈ l, x.1 = false
  | [] => by simp [firstFail]
  | (b, st) :: r => by cases b <;> simp [firstFail, firstFail_none r]

/-- Checks that follow one another all pass exactly when each part passes. -/
theorem orElse_none {α : Type} (o : Option α) (g : Unit → Option α) : o.orElse g = none ↔ o = none ∧ g () = none := by
  cases o <;> simp [Option.orElse]

end Sys2Proof.Machine
end

