-- ==== Sys2Proof/Laws/Tab.lean ====
section
/-! SUPPORT. Tables and byte memories: what a read finds after a write, and that every operation keeps the canonical form. -/

namespace Sys2Proof.Machine

variable {α : Type}

/-! ### Reads after writes -/

@[simp] theorem Tab.get?_nil (i : Nat) : Tab.get? ([] : Tab α) i = none := rfl

@[simp] theorem Tab.get?_set_self (t : Tab α) (i : Nat) (v : α) : (t.set i v).get? i = some v := by
  induction t with
  | nil => simp [Tab.set, Tab.get?]
  | cons a r ih =>
    obtain ⟨k, w⟩ := a
    unfold Tab.set
    split
    · simp [Tab.get?]
    · split
      · simp [Tab.get?]
      · simp [Tab.get?, *]

theorem Tab.get?_set_ne (t : Tab α) (i j : Nat) (v : α) (h : j ≠ i) : (t.set i v).get? j = t.get? j := by
  induction t with
  | nil => simp [Tab.set, Tab.get?, h]
  | cons a r ih =>
    obtain ⟨k, w⟩ := a
    unfold Tab.set
    split
    · simp [Tab.get?, h]
    · split
      · rename_i _ hk; subst hk; simp [Tab.get?, h]
      · simp [Tab.get?, ih]

theorem Tab.erase_cons (k : Nat) (w : α) (r : Tab α) (i : Nat) :
    Tab.erase ((k, w) :: r) i = if k = i then Tab.erase r i else (k, w) :: Tab.erase r i := by
  by_cases h : k = i <;> simp [Tab.erase, h]

theorem Tab.get?_erase_ne (t : Tab α) (i j : Nat) (h : j ≠ i) : (t.erase i).get? j = t.get? j := by
  induction t with
  | nil => rfl
  | cons a r ih =>
    obtain ⟨k, w⟩ := a
    rw [Tab.erase_cons]
    split
    · rename_i hk; subst hk; simp [Tab.get?, h, ih]
    · simp [Tab.get?, ih]

@[simp] theorem Tab.get?_erase_self (t : Tab α) (i : Nat) : (t.erase i).get? i = none := by
  induction t with
  | nil => rfl
  | cons a r ih =>
    obtain ⟨k, w⟩ := a
    rw [Tab.erase_cons]
    split
    · exact ih
    · rename_i hk; simp [Tab.get?, ih, Ne.symm hk]

theorem Tab.get?_mapVals (t : Tab α) (f : Nat → α → α) (i : Nat) : (t.mapVals f).get? i = (t.get? i).map (f i) := by
  induction t with
  | nil => rfl
  | cons a r ih =>
    obtain ⟨k, w⟩ := a
    simp only [Tab.mapVals] at ih
    by_cases hk : i = k
    · subst hk; simp [Tab.mapVals, Tab.get?]
    · simp [Tab.mapVals, Tab.get?, hk, ih]

/-! ### The canonical form of a table -/

/-- Every key of a table lies above `b`. -/
def Tab.above (b : Nat) (t : Tab α) : Prop := ∀ kv ∈ t, b < kv.1

theorem Tab.wf_cons (a : Nat × α) (r : Tab α) : Tab.wf (a :: r) = true ↔ Tab.above a.1 r ∧ Tab.wf r = true := by
  induction r generalizing a with
  | nil => simp [Tab.wf, Tab.above]
  | cons b r ih =>
    simp only [Tab.wf, Bool.and_eq_true, decide_eq_true_eq]
    constructor
    · rintro ⟨h1, h2⟩
      refine ⟨?_, h2⟩
      have hb := ((ih b).1 h2).1
      intro kv hm
      rcases List.mem_cons.1 hm with rfl | hm
      · exact h1
      · exact Nat.lt_trans h1 (hb kv hm)
    · rintro ⟨h1, h2⟩
      exact ⟨h1 b (List.mem_cons_self ..), h2⟩

theorem Tab.mem_set {t : Tab α} {i : Nat} {v : α} {kv : Nat × α} (h : kv ∈ t.set i v) : kv = (i, v) ∨ kv ∈ t := by
  induction t with
  | nil => simp [Tab.set] at h; exact Or.inl h
  | cons a r ih =>
    obtain ⟨k, w⟩ := a
    unfold Tab.set at h
    split at h
    · rcases List.mem_cons.1 h with h | h
      · exact Or.inl h
      · exact Or.inr h
    · split at h
      · rcases List.mem_cons.1 h with h | h
        · exact Or.inl h
        · exact Or.inr (List.mem_cons_of_mem _ h)
      · rcases List.mem_cons.1 h with h | h
        · exact Or.inr (by rw [h]; exact List.mem_cons_self ..)
        · rcases ih h with h | h
          · exact Or.inl h
          · exact Or.inr (List.mem_cons_of_mem _ h)

theorem Tab.wf_set (t : Tab α) (i : Nat) (v : α) (h : Tab.wf t = true) : Tab.wf (t.set i v) = true := by
  induction t with
  | nil => rfl
  | cons a r ih =>
    obtain ⟨k, w⟩ := a
    have hr := (Tab.wf_cons _ _).1 h
    unfold Tab.set
    split
    · rename_i hik
      refine (Tab.wf_cons _ _).2 ⟨?_, h⟩
      intro kv hm
      rcases List.mem_cons.1 hm with rfl | hm
      · exact hik
      · exact Nat.lt_trans hik (hr.1 kv hm)
    · split
      · rename_i _ hk
        subst hk
        exact (Tab.wf_cons _ _).2 hr
      · rename_i h1 h2
        refine (Tab.wf_cons _ _).2 ⟨?_, ih hr.2⟩
        intro kv hm
        rcases Tab.mem_set hm with rfl | hm
        · simp only; omega
        · exact hr.1 kv hm

theorem Tab.wf_filter (t : Tab α) (f : Nat × α → Bool) (h : Tab.wf t = true) : Tab.wf (t.filter f) = true := by
  induction t with
  | nil => rfl
  | cons a r ih =>
    have hr := (Tab.wf_cons _ _).1 h
    by_cases hf : f a
    · rw [List.filter_cons_of_pos hf]
      refine (Tab.wf_cons _ _).2 ⟨?_, ih hr.2⟩
      intro kv hm
      exact hr.1 kv (List.mem_filter.1 hm).1
    · rw [List.filter_cons_of_neg hf]; exact ih hr.2

/-! ### Byte memories -/

theorem Mem.wf_iff (m : Mem) : Mem.wf m = true ↔ Tab.wf m = true ∧ ∀ c ∈ m, c.2 ≠ 0 := by
  simp [Mem.wf]

theorem Mem.wf_write (m : Mem) (a : Nat) (b : Byte) (h : Mem.wf m = true) : Mem.wf (m.write a b) = true := by
  rw [Mem.wf_iff] at h ⊢
  unfold Mem.write
  split
  · exact ⟨Tab.wf_filter _ _ h.1, fun c hc => h.2 c (List.mem_filter.1 hc).1⟩
  · rename_i hb
    refine ⟨Tab.wf_set _ _ _ h.1, fun c hc => ?_⟩
    rcases Tab.mem_set hc with rfl | hc
    · exact hb
    · exact h.2 c hc

theorem Mem.wf_writeBytes (m : Mem) (a : Nat) (bs : List Byte) (h : Mem.wf m = true) : Mem.wf (m.writeBytes a bs) = true := by
  induction bs generalizing m a with
  | nil => exact h
  | cons b r ih => exact ih _ _ (Mem.wf_write _ _ _ h)

theorem Mem.wf_filter (m : Mem) (f : Host.Cell → Bool) (h : Mem.wf m = true) : Mem.wf (m.filter f) = true := by
  rw [Mem.wf_iff] at h ⊢
  exact ⟨Tab.wf_filter _ _ h.1, fun c hc => h.2 c (List.mem_filter.1 hc).1⟩

theorem Mem.wf_zero (m : Mem) (a n : Nat) (h : Mem.wf m = true) : Mem.wf (m.zero a n) = true := Mem.wf_filter _ _ h

@[simp] theorem Mem.read_write_self (m : Mem) (a : Nat) (b : Byte) : (m.write a b).read a = b := by
  unfold Mem.write Mem.read
  split
  · rename_i h; simp [h]
  · simp

theorem Mem.read_write_ne (m : Mem) (a c : Nat) (b : Byte) (h : c ≠ a) : (m.write a b).read c = m.read c := by
  unfold Mem.write Mem.read
  split
  · rw [Tab.get?_erase_ne _ _ _ h]
  · rw [Tab.get?_set_ne _ _ _ _ h]

theorem Mem.read_writeBytes_out (m : Mem) (a c : Nat) (bs : List Byte) (h : c < a ∨ a + bs.length ≤ c) :
    (m.writeBytes a bs).read c = m.read c := by
  induction bs generalizing m a with
  | nil => rfl
  | cons b r ih =>
    simp only [List.length_cons] at h
    rw [Mem.writeBytes, ih _ _ (by omega), Mem.read_write_ne _ _ _ _ (by omega)]

theorem Mem.read_writeBytes_in (m : Mem) (a i : Nat) (bs : List Byte) (h : i < bs.length) :
    (m.writeBytes a bs).read (a + i) = bs.getD i 0 := by
  induction bs generalizing m a i with
  | nil => simp at h
  | cons b r ih =>
    rw [Mem.writeBytes]
    cases i with
    | zero => rw [Nat.add_zero, Mem.read_writeBytes_out _ _ _ _ (by omega)]; simp
    | succ i =>
      have := ih (m.write a b) (a + 1) i (by simpa using h)
      rw [show a + (i + 1) = a + 1 + i by omega, this]; simp

/-! ### The stores -/

theorem Stores.wf_write (m : Stores) (w : Wr) (h : m.wf = true) : (m.write w).wf = true := by
  simp only [Stores.wf, Bool.and_eq_true] at h ⊢
  obtain ⟨⟨⟨⟨⟨h1, h2⟩, h3⟩, h4⟩, h5⟩, h6⟩ := h
  unfold Stores.write
  split <;> simp only [h1, h2, h3, h4, h5, h6, Mem.wf_writeBytes, and_self]

theorem Stores.wf_heal (m : Stores) (w : Wr) (h : m.wf = true) : (m.heal w).wf = true := h

/-- Applying writes keeps every memory canonical. -/
theorem State.apply_wf (s : State) (ws : List Wr) (h : s.stores.wf = true) : (s.apply ws).stores.wf = true := by
  unfold State.apply
  simp only
  generalize s.stores = m at h
  induction ws generalizing m with
  | nil => exact h
  | cons w r ih => exact ih _ (Stores.wf_heal _ _ (Stores.wf_write _ _ h))

/-- A zero-fill keeps every memory canonical. -/
theorem State.zeroFill_wf (s : State) (st : Store) (addr n : Nat) (h : s.stores.wf = true) : (s.zeroFill st addr n).stores.wf = true := by
  simp only [Stores.wf, Bool.and_eq_true] at h
  obtain ⟨⟨⟨⟨⟨h1, h2⟩, h3⟩, h4⟩, h5⟩, h6⟩ := h
  cases st <;> simp [State.zeroFill, Stores.wf, h1, h2, h3, h4, h5, h6, Mem.wf_zero]

end Sys2Proof.Machine
end

