-- ==== Sys2Proof/WellFormed.lean ====
section
/-! DEFINITION. Commands whose operands the part can be given: the packet's length is LEN x 64 bytes (R59), and every number names
something the largest order code has (R1, R12, R45, R48, R56, R259, R260, R469, R470). -/

namespace Sys2Proof

def Path.wf : Path → Bool
  | .queue q => decide (q < 4096)
  | .owner _ => true
  | .job h => decide (h < 256)

/-- LEN is at least 1, and the body is what LEN leaves after the header (R59). -/
def Packet.wf (p : Packet) : Bool := p.path.wf && decide (1 ≤ p.len.toNat) && decide (16 + p.body.length = p.len.toNat * 64)

def Proc.wf : Proc → Bool
  | .ccc k => decide (k < 8)
  | _ => true

/-- A SHA-384 digest and a DEVICE_ID (R391, R392). -/
def Handshake.wf (h : Handshake) : Bool := decide (h.chainDigest.length = 48) && decide (h.serial.length = 16)

def fnOk (fn : Nat) : Bool := decide (fn < 32)

def slotOk (slot : Nat) : Bool := decide (slot < 96)

def clusterOk (k : Nat) : Bool := decide (k < 8)

/-- Cores are numbered cluster x 256 + core, 0 to 16 in a cluster (R12, R65). -/
def coreOk (c : Nat) : Bool := decide (c / 256 < 8) && decide (c % 256 ≤ 16)

def csiOk (die port vc : Nat) : Bool := decide (die < 2) && decide (port < 12) && decide (vc < 16)

def Door.wf : Door → Bool
  | .bar0 fn => fnOk fn
  | .safetyPort => true

/-- The packet of a command that is one. -/
def Instr.packet? : Instr → Option Packet
  | .hello p => some p
  | .heartbeat p => some p
  | .reclaim p => some p
  | .deviceInfo p => some p
  | .nop p => some p
  | .park p => some p
  | .unpark p => some p
  | .queueCreate p => some p
  | .queueDestroy p => some p
  | .queueReset p => some p
  | .eqCreate p => some p
  | .eqDestroy p => some p
  | .eventSubscribe p => some p
  | .configWrite p => some p
  | .configRead p => some p
  | .configCommit p => some p
  | .timeRead p => some p
  | .statsStream p => some p
  | .matmul p => some p
  | .vectorOp p => some p
  | .reduce p => some p
  | .move p => some p
  | .tileMove p => some p
  | .regionAlloc p => some p
  | .regionFree p => some p
  | .bellowsStart p => some p
  | .bellowsStop p => some p
  | .attention p => some p
  | .attentionBackward p => some p
  | .ptCreate p => some p
  | .ptDestroy p => some p
  | .kvAppend p => some p
  | .verifyCommit p => some p
  | .seqPreempt p => some p
  | .seqResume p => some p
  | .swapPoolRegister p => some p
  | .swapOutPage _ => none
  | .swapInPage _ => none
  | .streamStart p => some p
  | .streamPause p => some p
  | .streamResume p => some p
  | .streamEnd p => some p
  | .chunk p => some p
  | .stateExport p => some p
  | .stateImport p => some p
  | .reAnchor p => some p
  | .stateSwapOut p => some p
  | .streamOpTurn _ => none
  | .conv p => some p
  | .pool p => some p
  | .cropResize p => some p
  | .slotConfig p => some p
  | .calibWrite p => some p
  | .gridCreate p => some p
  | .gridDestroy p => some p
  | .gridProject p => some p
  | .streamHealth p => some p
  | .factor p => some p
  | .triSolve p => some p
  | .qpSetup p => some p
  | .qpSolve p => some p
  | .latticeLoad p => some p
  | .mapPublish p => some p
  | .planSearch p => some p
  | .planAbort p => some p
  | .ctxCreate p => some p
  | .ctxDestroy p => some p
  | .partitionCreate p => some p
  | .partitionRelease p => some p
  | .jobArm p => some p
  | .jobDisarm p => some p
  | .modelRegister p => some p
  | .modelPin p => some p
  | .modelUnpin p => some p
  | .accountRead p => some p
  | .fwStage p => some p
  | .activateFw p => some p
  | .fwStatus p => some p
  | .keyRotate p => some p
  | .retireKey p => some p
  | .keyStatus p => some p
  | .powerRead p => some p
  | .faultLogExport p => some p
  | .errorCounts p => some p
  | .sqTail _ _ _ => none
  | .cqHead _ _ _ => none
  | .eqHead _ _ _ => none
  | .packetFetch => none
  | .completionWrite => none
  | .orphanEntered _ => none
  | .frameEdge => none
  | .quenchEnd _ => none
  | .statsPublish => none
  | .statsPageSend _ => none
  | .snapshotPublish => none
  | .trigLatestExpire _ => none
  | .firingComplete _ => none
  | .ctlMiss _ => none
  | .sync _ _ _ => none
  | .announce _ => none
  | .pdelayReq _ _ => none
  | .pdelayResp _ _ _ _ _ => none
  | .gmSyncTransmit => none
  | .timeHoldover => none
  | .timeFree => none
  | .csi2FrameStart _ _ _ _ => none
  | .csi2LongPacket _ _ _ _ _ _ => none
  | .csi2FrameEnd _ _ _ _ => none
  | .tdmFrameSync _ _ _ _ => none
  | .spiPeriodicStart _ => none
  | .spiTransactionEnd _ _ => none
  | .gpioEdge _ _ _ => none
  | .ethFrame _ _ _ _ _ => none
  | .sampleReady _ => none
  | .ingressT2Write _ => none
  | .maintenanceSlot _ _ _ => none
  | .bellowsTileFetch _ _ _ => none
  | .operationIssue _ _ => none
  | .operationRetire _ _ _ => none
  | .tongsDescriptorStart _ => none
  | .tongsDescriptorRetire _ _ => none
  | .watchdogExpire _ => none
  | .hearthResume => none
  | .fwSwitch => none
  | .fwMeasure _ => none
  | .activationTimeout => none
  | .pwrGoodRise _ => none
  | .bootStageAdvance _ => none
  | .testUnlockSession _ => none
  | .testUnlockTimeout => none
  | .jtagInstruction _ => none
  | .mgmtSessionOpen _ => none
  | .mgmtSessionClose _ => none
  | .mgmtMessage _ _ _ => none
  | .hostHeartbeat _ _ => none
  | .safetyHeartbeat _ => none
  | .safetyHeartbeatLapse => none
  | .stopRequest _ => none
  | .stopClearRequest _ => none
  | .stopInAssert => none
  | .ctlCommit _ _ => none
  | .adminQueueEnable _ => none
  | .adminQueueDisable _ => none
  | .registerWrite _ _ _ => none
  | .safetySpiRead _ _ => none
  | .safetySpiWrite _ _ => none
  | .perstAssert _ => none
  | .hostLinkDown _ => none
  | .busMasterEnable _ => none
  | .moduleReset => none
  | .vinCauseRaise _ => none
  | .vinCauseClear _ => none
  | .e3Undervoltage => none
  | .overvoltageTrip => none
  | .undervoltageLockout => none
  | .carrierStart _ => none
  | .emergencyHoldExpire => none
  | .trip _ => none
  | .capControlTick _ _ => none
  | .excursionEnd => none
  | .overpowerGate _ => none
  | .thermalSample _ => none
  | .throttleStep _ => none
  | .powerStateChoose _ _ => none
  | .powerStateWake _ => none
  | .standbyEnter => none
  | .standbyWake => none
  | .coreFence _ _ => none
  | .selfTestDone _ _ => none
  | .spareCopyDone _ _ => none
  | .internalLinkFail => none
  | .faultLogWrite => none
  | .stopInDeassert => none
  | .resetInRelease => none
  | .railOutOfRegulation => none
  | .overpowerRelease _ => none
  | .processorRestartDone _ => none
  | .hostLinkUp _ => none
  | .quenchTier2PartEnd => none
  | .modelLoadDone _ => none

def Instr.wf : Instr → Bool
  | .hello p => p.wf
  | .heartbeat p => p.wf
  | .reclaim p => p.wf
  | .deviceInfo p => p.wf
  | .nop p => p.wf
  | .park p => p.wf
  | .unpark p => p.wf
  | .queueCreate p => p.wf
  | .queueDestroy p => p.wf
  | .queueReset p => p.wf
  | .eqCreate p => p.wf
  | .eqDestroy p => p.wf
  | .eventSubscribe p => p.wf
  | .configWrite p => p.wf
  | .configRead p => p.wf
  | .configCommit p => p.wf
  | .timeRead p => p.wf
  | .statsStream p => p.wf
  | .matmul p => p.wf
  | .vectorOp p => p.wf
  | .reduce p => p.wf
  | .move p => p.wf
  | .tileMove p => p.wf
  | .regionAlloc p => p.wf
  | .regionFree p => p.wf
  | .bellowsStart p => p.wf
  | .bellowsStop p => p.wf
  | .attention p => p.wf
  | .attentionBackward p => p.wf
  | .ptCreate p => p.wf
  | .ptDestroy p => p.wf
  | .kvAppend p => p.wf
  | .verifyCommit p => p.wf
  | .seqPreempt p => p.wf
  | .seqResume p => p.wf
  | .swapPoolRegister p => p.wf
  | .swapOutPage _ => true
  | .swapInPage _ => true
  | .streamStart p => p.wf
  | .streamPause p => p.wf
  | .streamResume p => p.wf
  | .streamEnd p => p.wf
  | .chunk p => p.wf
  | .stateExport p => p.wf
  | .stateImport p => p.wf
  | .reAnchor p => p.wf
  | .stateSwapOut p => p.wf
  | .streamOpTurn _ => true
  | .conv p => p.wf
  | .pool p => p.wf
  | .cropResize p => p.wf
  | .slotConfig p => p.wf
  | .calibWrite p => p.wf
  | .gridCreate p => p.wf
  | .gridDestroy p => p.wf
  | .gridProject p => p.wf
  | .streamHealth p => p.wf
  | .factor p => p.wf
  | .triSolve p => p.wf
  | .qpSetup p => p.wf
  | .qpSolve p => p.wf
  | .latticeLoad p => p.wf
  | .mapPublish p => p.wf
  | .planSearch p => p.wf
  | .planAbort p => p.wf
  | .ctxCreate p => p.wf
  | .ctxDestroy p => p.wf
  | .partitionCreate p => p.wf
  | .partitionRelease p => p.wf
  | .jobArm p => p.wf
  | .jobDisarm p => p.wf
  | .modelRegister p => p.wf
  | .modelPin p => p.wf
  | .modelUnpin p => p.wf
  | .accountRead p => p.wf
  | .fwStage p => p.wf
  | .activateFw p => p.wf
  | .fwStatus p => p.wf
  | .keyRotate p => p.wf
  | .retireKey p => p.wf
  | .keyStatus p => p.wf
  | .powerRead p => p.wf
  | .faultLogExport p => p.wf
  | .errorCounts p => p.wf
  | .sqTail fn q _ => fnOk fn && decide (q < 4096)
  | .cqHead fn q _ => fnOk fn && decide (q < 4096)
  | .eqHead fn e _ => fnOk fn && decide (e < 64)
  | .packetFetch => true
  | .completionWrite => true
  | .orphanEntered fn => fnOk fn
  | .frameEdge => true
  | .quenchEnd part => decide (part < 16)
  | .statsPublish => true
  | .statsPageSend _ => true
  | .snapshotPublish => true
  | .trigLatestExpire job => decide (job < 256)
  | .firingComplete job => decide (job < 256)
  | .ctlMiss job => decide (job < 256)
  | .sync port _ _ => decide (port < 2)
  | .announce port => decide (port < 2)
  | .pdelayReq port _ => decide (port < 2)
  | .pdelayResp port _ _ _ _ => decide (port < 2)
  | .gmSyncTransmit => true
  | .timeHoldover => true
  | .timeFree => true
  | .csi2FrameStart die port vc frame => csiOk die port vc && decide (frame.number < 65536 ∧ 1 ≤ frame.lanes ∧ frame.lanes ≤ (if frame.dphy then 4 else 3))
  | .csi2LongPacket die port vc dt _ _ => csiOk die port vc && decide (dt < 64)
  | .csi2FrameEnd die port vc frame => csiOk die port vc && decide (frame.number < 65536 ∧ 1 ≤ frame.lanes ∧ frame.lanes ≤ (if frame.dphy then 4 else 3))
  | .tdmFrameSync die port _ words => decide (die < 2) && decide (port < 8) && decide (words.length ≤ 16)
  | .spiPeriodicStart slot => slotOk slot
  | .spiTransactionEnd slot _ => slotOk slot
  | .gpioEdge die line _ => decide (die < 2) && decide (line < 24)
  | .ethFrame port mac vlan _ _ => decide (port < 2) && decide (mac < 2 ^ 48) && decide (vlan < 4096 ∨ vlan = 0xFFFF)
  | .sampleReady slot => slotOk slot
  | .ingressT2Write slot => slotOk slot
  | .maintenanceSlot stack _ _ => decide (stack < 8)
  | .bellowsTileFetch _ _ _ => true
  | .operationIssue core _ => coreOk core
  | .operationRetire core _ _ => coreOk core
  | .tongsDescriptorStart core => coreOk core
  | .tongsDescriptorRetire core _ => coreOk core
  | .watchdogExpire proc => proc.wf
  | .hearthResume => true
  | .fwSwitch => true
  | .fwMeasure _ => true
  | .activationTimeout => true
  | .pwrGoodRise _ => true
  | .bootStageAdvance _ => true
  | .testUnlockSession hs => hs.wf
  | .testUnlockTimeout => true
  | .jtagInstruction _ => true
  | .mgmtSessionOpen hs => hs.wf
  | .mgmtSessionClose _ => true
  | .mgmtMessage _ type bytes => decide (type < 256) && decide (bytes.length < 2 ^ 24)
  | .hostHeartbeat fn _ => fnOk fn
  | .safetyHeartbeat _ => true
  | .safetyHeartbeatLapse => true
  | .stopRequest _ => true
  | .stopClearRequest _ => true
  | .stopInAssert => true
  | .ctlCommit door _ => door.wf
  | .adminQueueEnable fn => fnOk fn
  | .adminQueueDisable fn => fnOk fn
  | .registerWrite door offset _ => door.wf && decide (offset < 16384) && decide (offset % 4 = 0)
  | .safetySpiRead wire _ => decide (wire.length ≤ 264)
  | .safetySpiWrite wire _ => decide (wire.length ≤ 264)
  | .perstAssert link => decide (link < 2)
  | .hostLinkDown link => decide (link < 2)
  | .busMasterEnable fn => fnOk fn
  | .moduleReset => true
  | .vinCauseRaise _ => true
  | .vinCauseClear _ => true
  | .e3Undervoltage => true
  | .overvoltageTrip => true
  | .undervoltageLockout => true
  | .carrierStart _ => true
  | .emergencyHoldExpire => true
  | .trip _ => true
  | .capControlTick _ rails => decide (rails.length = 15)
  | .excursionEnd => true
  | .overpowerGate _ => true
  | .thermalSample temps => decide (temps.length ≤ 12)
  | .throttleStep cluster => clusterOk cluster
  | .powerStateChoose cluster _ => clusterOk cluster
  | .powerStateWake cluster => clusterOk cluster
  | .standbyEnter => true
  | .standbyWake => true
  | .coreFence core cause => coreOk core && decide (cause < 256)
  | .selfTestDone core _ => coreOk core
  | .spareCopyDone cluster badLines => clusterOk cluster && decide (badLines ≤ 32768)
  | .internalLinkFail => true
  | .faultLogWrite => true
  | .stopInDeassert => true
  | .resetInRelease => true
  | .railOutOfRegulation => true
  | .overpowerRelease _ => true
  | .processorRestartDone proc => proc.wf
  | .hostLinkUp link => decide (link < 2)
  | .quenchTier2PartEnd => true
  | .modelLoadDone model => decide (model < 64)

end Sys2Proof
end

