-- ==== Sys2Proof/Certificates/Slice0/Obligations.lean ====
section
/-! DEFINITION. The statements for the provers. -/

section

open Sys2Proof Sys2Proof.Machine

/-! ### The step -/

/-- A step takes the command at the front of the queue and runs it with the queue's rest. -/
def Obligations.StepRunsFront : Prop :=
  ∀ (c : Instr) (rest : List Instr) (s : State), s.pending = c :: rest → step s = exec c { s with pending := rest }

/-- With no command waiting, a step is one 8 ns tick of the robot-time counter (R22, R27): while it runs, it moves by 8 ns, by the rate's share of them
and by the part of an outstanding offset that the slew limit allows, counted in 2^-32 ns, and never stands still while the rate lies within 1 part in
10 either way and SLEW_PPM is at most 200; before the counter is released it stands. The tick changes nothing else, and the event records buffered for
a management session, if SEC works, go out on it (logs 2 and 104). -/
def Obligations.IdleStepTicks : Prop :=
  ∀ s : State, s.pending = [] → step s = .next s.idle ∧
    ((s.clock.running = false ∨ s.fw.powered = false) → s.tick = s) ∧
    (s.clock.running = true → s.fw.powered = true →
      let part := max (-((bits s.timeCfg 7 0 : Int) * 8000)) (min ((bits s.timeCfg 7 0 : Int) * 8000) s.clock.slew)
      { s.tick with clock := { s.tick.clock with now := s.clock.now, frac := s.clock.frac, slew := s.clock.slew } } = s ∧
      s.tick.clock.slew = s.clock.slew - part ∧
      (-100000000 ≤ s.clock.rate → bits s.timeCfg 7 0 ≤ 200 →
        s.clock.now < s.tick.clock.now ∧ s.tick.clock.frac < 2 ^ 32 ∧
        (s.tick.clock.now : Int) * 2 ^ 32 + s.tick.clock.frac =
          s.clock.now * 2 ^ 32 + s.clock.frac + (8000000000 + s.clock.rate * 8 + part) * 2 ^ 32 / 1000000000)) ∧
    { s.idle with proto := { s.idle.proto with eqs := s.proto.eqs }, out := s.out } = s.tick ∧
    (∀ k q x, s.proto.eqs = [(k, q)] → q.owner = some x → q.dropped = 0 → s.procDown 0 = false → s.fw.powered = true →
      s.idle = { s.tick with proto := { s.proto with eqs := [(k, { q with buffer := [] })] }, out := s.out ++ q.buffer.map (fun r => .mgmt x 3 r) }) ∧
    (s.procDown 0 = true ∨ (∀ kv ∈ s.proto.eqs, kv.2.owner = none) → s.idle = s.tick)

/-- Every command of the block answers a next state, whatever the state, but for two: a report of VIN beyond the limits of R416 faults, and a private
test-port instruction in a part whose test modes are unlocked is refused. -/
def Obligations.OnlyTwoCommandsStop : Prop :=
  ∀ (c : Instr) (s : State), (∃ t : State, exec c s = .next t) ∨
    ((∃ mv, (c = .vinCauseRaise mv ∨ c = .vinCauseClear mv) ∧ 90000 < mv) ∧ exec c s = .fault .beyondRatings) ∨
    ((∃ code, c = .jtagInstruction (.priv code)) ∧ s.fw.testModes = true ∧ exec c s = .refused .privateTestMode)

/-! ### Packets: what every one of them has in common (R57 to R64) -/

/-- A packet whose header fails a check of R61 completes with that status and RESULT 0; but for its own flight, the completion and the frame's counters,
nothing changes. What a packet waits for: an earlier packet of its path that is not dispatched yet, since packets are dispatched in ring order, or,
with FENCE, one not completed (R58), or a processor that is down: the state stays as it is. What waits is looked at again after every event; where
nothing waits, that changes nothing (log 36). A completion in the queue of completions (R62): status, INFO, SEQ, opcode, CTX and RESULT are those of
the flight that ends (INFO says also that a sequence's tail was discarded, R206), which leaves the packets in flight; no other flight, and nothing
outside the protocol engine and the frame's counters, changes. -/
def Obligations.PacketsWaitAndComplete : Prop :=
  (∀ (code st : Nat) (body : Body) (p : Packet) (s : State) (f : Flight), s.serves p.path code = true →
    s.fetched p code = some f → s.fenced p f.id = false → s.turnAway p code = some st →
    runPacket code body p s = s.ends f (s.verOf p code) st 0 0) ∧
  ((∀ (code : Nat) (body : Body) (p : Packet) (s : State) (f : Flight), s.fetched p code = some f →
    (s.serves p.path code = false → runPacket code body p s = s) ∧
    ((∃ g ∈ s.proto.flights, g.path = p.path ∧ g.id < f.id ∧ (Packet.fence p = true ∨ g.undispatched = true)) → runPacket code body p s = s)) ∧
  (∀ s : State, s.nothingWaits = true → s.settle = s)) ∧
  (∀ (s : State) (f : Flight) (ver st info result : Nat), s.flight? f.id = some f →
    let t := s.ends f ver st info result
    (∃ fin, t.proto.finished = s.proto.finished ++ [fin] ∧ fin.flight = f.id ∧ fin.path = f.path ∧ fin.status = st ∧ fin.info = info ||| s.tailNote f.opcode f.pkt ∧
      fin.irq = Packet.irq f.pkt ∧ fin.hostWrites = [] ∧ fin.messages = [] ∧ fin.opcode = f.opcode ∧ fin.seq = f.pkt.seq.toNat ∧ fin.ctx = f.pkt.ctx.toNat ∧ fin.ver = ver ∧ fin.result = result % 2 ^ 64 ∧
      fin.frame = s.frameNo) ∧
    t.proto.flights = s.proto.flights.filter (fun g => decide (g.id ≠ f.id)) ∧
    { t with proto := { t.proto with finished := s.proto.finished, flights := s.proto.flights }, stats := s.stats } = s)

/-- The entry that COMPLETION_WRITE sends holds each field of R62 little-endian at its offset. An event record holds each field of R64 little-endian at
its offset. -/
def Obligations.CompletionAndEventLayout : Prop :=
  (∀ (f : Finished) (qid phase head : Nat),
    let b := completionBytes f qid phase head
    b.length = 32 ∧ fieldAt b 0 2 = f.status % 2 ^ 16 ∧ fieldAt b 2 2 = f.info % 2 ^ 16 ∧ fieldAt b 4 4 = f.seq % 2 ^ 32 ∧
    fieldAt b 8 2 = qid % 2 ^ 16 ∧ fieldAt b 10 2 = f.opcode % 2 ^ 16 ∧ fieldAt b 12 2 = f.ctx % 2 ^ 16 ∧ fieldAt b 14 1 = f.ver % 2 ^ 8 ∧
    fieldAt b 15 1 = phase % 2 ^ 8 ∧ fieldAt b 16 4 = head % 2 ^ 32 ∧ fieldAt b 20 4 = f.frame % 2 ^ 32 ∧ fieldAt b 24 8 = f.result % 2 ^ 64) ∧
  (∀ (e : Event) (phase seq time : Nat),
    let b := eventBytes e phase seq time
    b.length = 32 ∧ fieldAt b 0 2 = e.code % 2 ^ 16 ∧ fieldAt b 2 1 = 2 ^ e.category % 2 ^ 8 ∧ fieldAt b 3 1 = e.severity % 2 ^ 8 ∧
    fieldAt b 4 2 = (e.ctx.getD 0xFFFF) % 2 ^ 16 ∧ fieldAt b 7 1 = phase % 2 ^ 8 ∧ fieldAt b 8 4 = seq % 2 ^ 32 ∧
    fieldAt b 12 4 = e.source % 2 ^ 32 ∧ fieldAt b 16 8 = time % 2 ^ 64 ∧ fieldAt b 24 8 = e.detail % 2 ^ 64)

/-- A packet written to a ring at the consumer index is read back from it bit for bit, wherever the ring wraps: every field of the header of R59 and every
byte after it, with the opcode before them. A packet the owner sends on a management session is read bit for bit as it was framed, with its opcode
(R59, R393). -/
def Obligations.PacketsRoundTrip : Prop :=
  (∀ (s : State) (q code : Nat) (c : CmdQueue) (p : Packet), p.wf = true → p.path = .queue q → code < 2 ^ 16 → p.len.toNat ≤ c.slots →
    (∀ i, i < 64 * p.len.toNat →
      s.stores.host.read (hostKey c.fn (c.base + (64 * (c.head % c.slots) + i) % (64 * c.slots))) = (packetBytes code p).getD i 0) →
    s.ringPacket q c = (code, p)) ∧
  (∀ (x code : Nat) (p : Packet), p.path = .owner x → code < 2 ^ 16 →
    packetOf p.path (packetBytes code p) = p ∧ fieldAt (packetBytes code p) 0 2 = code)

/-! ### Sessions, queues and event queues (R50 to R57, R67 to R90) -/

/-- HELLO, HEARTBEAT, DEVICE_INFO, NOP, PARK and UNPARK, taken and with their checks passed, complete with OK and the effect of R68, R72, R77 and R76 (a
HEARTBEAT was counted as it was fetched, R86): HELLO on a function that is not orphaned opens a session of the version chosen, with a new nonce in
RESULT. A new session nonce is neither zero nor the one it replaces (R68, R89). Says that exec answers a next state, under conditions on the state and
the operands alone, for: hello (HELLO), heartbeat (HEARTBEAT), deviceInfo (DEVICE_INFO), nop (NOP), park (PARK), unpark (UNPARK). -/
def Obligations.SessionCommandsComplete : Prop :=
  (∀ (p : Packet) (s : State) (f : Flight) (c : Caller),
    (∀ v, s.takes p 1 f c = true → helloChecks c p s = none → chooseVersion (Packet.fld p 16 1) (Packet.fld p 17 1) = some v →
      (∀ g, s.func? c.fn = some g → g.orphan = false) →
      exec (.hello p) s = .next (((s.setFunc c.fn (fun g => { g with session := some ⟨s.newNonce c.fn, v % 16, Packet.fld p 18 2, s.clock.now⟩, orphan := false, reclaimStatus := none, orphanSkips := 0 })).bump).okWith f v (s.newNonce c.fn))) ∧
    (s.takes p 2 f c = true → shortOk p 16 = true → exec (.heartbeat p) s = .next (s.okWith f (s.verOf p 2) 0)) ∧
    (s.takes p 4 f c = true → shortOk p 16 = true → exec (.deviceInfo p) s = .next (s.okWith f (s.verOf p 4) s.deviceInfo)) ∧
    (s.takes p 5 f c = true → shortOk p 16 = true → exec (.nop p) s = .next (s.okWith f (s.verOf p 5) 0)) ∧
    (s.takes p 6 f c = true → shortOk p 16 = true →
      exec (.park p) s = .next (State.okWith { s with clock := { s.clock with parked := true } } f (s.verOf p 6) 1)) ∧
    (s.takes p 7 f c = true → shortOk p 16 = true → s.fw.activation = none →
      exec (.unpark p) s = .next (State.okWith { s with clock := { s.clock with parked := false } } f (s.verOf p 7) 0))) ∧
  (∀ (s : State) (fn : Nat), s.newNonce fn ≠ 0 ∧ s.newNonce fn ≠ s.nonceOf fn)

/-- QUEUE_CREATE, QUEUE_RESET, EQ_CREATE, EQ_DESTROY and EVENT_SUBSCRIBE complete with OK: a queue or event queue of the packet's own rings, class and
binding stands under the number in RESULT; an event queue begins with a zero category mask; a reset queue is not halted, and its consumer index and
tail are the start index (R53, R55, R56, R77). QUEUE_DESTROY of another queue with nothing of it in flight frees the queue at once and completes with
the count of packets and slots left unfetched (R55), which it reads from the ring, so that a link without bus mastering makes it wait (R466); while
something of it is in flight the queue only stops being fetched. A queue that its own packet destroys goes when that completion has been written. Says
that exec answers a next state, under conditions on the state and the operands alone, for: queueCreate (QUEUE_CREATE), queueDestroy (QUEUE_DESTROY),
queueReset (QUEUE_RESET), eqCreate (EQ_CREATE), eqDestroy (EQ_DESTROY), eventSubscribe (EVENT_SUBSCRIBE). -/
def Obligations.QueueCommandsComplete : Prop :=
  (∀ (p : Packet) (s : State) (f : Flight) (c : Caller),
    (s.takes p 8 f c = true → queueCreateChecks c p s = none →
      ∃ (q : Nat) (v : CmdQueue), (Packet.fld p 36 2 ≠ 0xFFFF → q = Packet.fld p 36 2) ∧ 32 ≤ q ∧
        v = ⟨c.fn, Packet.fld p 16 8, Packet.fld p 24 8, Packet.fld p 32 4, Packet.fld p 38 2,
          if Packet.fld p 40 2 = 0xFFFF then none else some (Packet.fld p 40 2), Packet.fld p 42 1, Packet.fld p 44 2, 0, 0, 0, 0, false, none⟩ ∧
        exec (.queueCreate p) s = .next (State.okWith { s.bump with proto := { s.proto with queues := s.proto.queues.set q v } } f (s.verOf p 8) q)) ∧
    (s.takes p 0xA f c = true → queueResetChecks c p s = none →
      exec (.queueReset p) s = .next ((s.setQueue (Packet.fld p 16 2) (fun q => { q with halted := false, head := Packet.fld p 20 4, tail := Packet.fld p 20 4 })).okWith f (s.verOf p 0xA) 0)) ∧
    (s.takes p 0xB f c = true → eqCreateChecks c p s = none →
      ∃ (e : Nat) (v : EventQueue), (Packet.fld p 28 2 ≠ 0xFFFF → e = Packet.fld p 28 2) ∧
        v = ⟨c.fn, c.session, Packet.fld p 16 8, Packet.fld p 24 4, if c.role = .owner then 0xFFFF else Packet.fld p 30 2,
          if c.role = .owner ∨ Packet.fld p 32 2 = 0xFFFF then none else some (Packet.fld p 32 2), Packet.fld p 34 1, 0, 0, 0, 0, 0, 0, []⟩ ∧
        exec (.eqCreate p) s = .next (State.okWith { s.bump with proto := { s.proto with eqs := s.proto.eqs.set e v } } f (s.verOf p 0xB) e)) ∧
    (∀ q, s.takes p 0xC f c = true → eqDestroyChecks c p s = none → s.proto.eqs.get? (Packet.fld p 16 2) = some q →
      exec (.eqDestroy p) s = .next (State.okWith { s with proto := { s.proto with eqs := s.proto.eqs.erase (Packet.fld p 16 2) } } f (s.verOf p 0xC) q.dropped)) ∧
    (∀ q, s.takes p 0xD f c = true → eventSubscribeChecks c p s = none → s.proto.eqs.get? (Packet.fld p 16 2) = some q →
      exec (.eventSubscribe p) s = .next (State.okWith { s with proto := { s.proto with eqs := s.proto.eqs.set (Packet.fld p 16 2) { q with mask := Packet.fld p 18 1, minSeverity := Packet.fld p 19 1 } } } f (s.verOf p 0xD) 0))) ∧
  (∀ (p : Packet) (s : State) (f : Flight) (c : Caller) (q : CmdQueue), s.takes p 9 f c = true → queueDestroyChecks c p s = none →
    s.proto.queues.get? (Packet.fld p 16 2) = some q → q.closing = none → s.flight? f.id = some f →
    let n := Packet.fld p 16 2
    let closing := s.proto.queues.set n { q with closing := some f.id }
    (f.path ≠ .queue n → s.queueBusy n f.id = false → q.left = 0 ∨ s.canReadRing q.fn = true →
      ∃ t fin, exec (.queueDestroy p) s = .next t ∧ t.proto.queues = closing.erase n ∧
        t.proto.finished = s.proto.finished ++ [fin] ∧ fin.flight = f.id ∧ fin.status = St.ok ∧
        fin.result = (s.unfetched q q.left q.head + 2 ^ 32 * q.left) % 2 ^ 64) ∧
    (f.path = .queue n → s.queueBusy n f.id = false → q.left = 0 ∨ s.canReadRing q.fn = true →
      ∃ t fin, exec (.queueDestroy p) s = .next t ∧ t.proto.queues = closing ∧ t.proto.finished = s.proto.finished ++ [fin] ∧ fin.flight = f.id ∧
        fin.status = St.ok ∧ fin.result = (s.unfetched q q.left q.head + 2 ^ 32 * q.left) % 2 ^ 64) ∧
    (s.queueBusy n f.id = true ∨ (q.left ≠ 0 ∧ s.canReadRing q.fn = false) →
      ∃ t : State, exec (.queueDestroy p) s = .next t ∧ t.proto.queues = closing ∧ t.proto.finished = s.proto.finished))

/-- The doorbells of a queue's own function: a producer index within the ring is taken over, one beyond it halts the queue; a consumer index not past what
was written is taken over, another halts the queue; an event ring's index frees its records (R50, R67). A doorbell of another function, or of a queue
that does not exist, changes nothing. A halted queue keeps its consumer index, and QUEUE_HALTED with BAD_FRAMING and that index is posted (R50, R60);
a second fault of a halted queue posts nothing. Says that exec answers a next state, under conditions on the state and the operands alone, for: sqTail
(SQ_TAIL), cqHead (CQ_HEAD), eqHead (EQ_HEAD). -/
def Obligations.DoorbellsAndHalts : Prop :=
  (∀ (fn q : Nat) (v : Sys2Proof.Word) (s : State),
    (∀ c, s.proto.queues.get? q = some c → c.fn = fn →
      ((v.toNat + 2 ^ 32 - c.head) % 2 ^ 32 ≤ c.slots → exec (.sqTail fn q v) s = .next (s.active.setQueue q (fun c => { c with tail := v.toNat }))) ∧
      (c.slots < (v.toNat + 2 ^ 32 - c.head) % 2 ^ 32 → exec (.sqTail fn q v) s = .next (s.active.haltQueue q)) ∧
      ((v.toNat + 2 ^ 32 - c.cplHead) % 2 ^ 32 ≤ (c.cplTail + 2 ^ 32 - c.cplHead) % 2 ^ 32 → exec (.cqHead fn q v) s = .next (s.active.setQueue q (fun c => { c with cplHead := v.toNat }))) ∧
      ((c.cplTail + 2 ^ 32 - c.cplHead) % 2 ^ 32 < (v.toNat + 2 ^ 32 - c.cplHead) % 2 ^ 32 → exec (.cqHead fn q v) s = .next (s.active.haltQueue q))) ∧
    (∀ e, s.proto.eqs.get? q = some e → e.fn = fn → e.owner = none → (v.toNat + 2 ^ 32 - e.head) % 2 ^ 32 ≤ (e.tail + 2 ^ 32 - e.head) % 2 ^ 32 →
      exec (.eqHead fn q v) s = .next (State.reportLost { s.active with proto := { s.proto with eqs := s.proto.eqs.set q { e with head := v.toNat } } } q)) ∧
    ((∀ c, s.proto.queues.get? q = some c → c.fn ≠ fn) → exec (.sqTail fn q v) s = .next s ∧ exec (.cqHead fn q v) s = .next s) ∧
    ((∀ e, s.proto.eqs.get? q = some e → e.fn ≠ fn) → exec (.eqHead fn q v) s = .next s)) ∧
  (∀ (s : State) (q : Nat) (c : CmdQueue), s.proto.queues.get? q = some c →
    (c.halted = true → s.haltQueue q = s) ∧
    (c.halted = false → s.haltQueue q = (s.setQueue q (fun c => { c with halted := true })).post ⟨1, 0, 2, c.bindCtx, q, 6 + 2 ^ 32 * c.head⟩))

/-! ### Commit scopes (R32, R78 to R81) -/

/-- CONFIG_WRITE with at least one word puts the packet's words into the shadow copy of its scope at once, and completes with OK; every other word of
every shadow copy, and every word of every active copy but the live word RWL of a slot, stays (R79). CONFIG_READ delivers the words of the view it
names, little-endian: to the host buffer of the packet's function before the completion, or to the owner as a message after it (R79). CONFIG_COMMIT of
a snapshot that passes every check and differs from the copy due: it waits for the edge of R32 in the commit hardware, the count of accepted commits
grows, and RESULT is the frame at which it takes effect (R32, R80). Says that exec answers a next state, under conditions on the state and the
operands alone, for: configWrite (CONFIG_WRITE), configRead (CONFIG_READ), configCommit (CONFIG_COMMIT). -/
def Obligations.ConfigurationCommands : Prop :=
  (∀ (p : Packet) (s : State) (f : Flight) (c : Caller), s.takes p 0x10 f c = true → configWriteChecks c p s = none → Packet.fld p 22 2 ≠ 0 →
    ∃ u : State, exec (.configWrite p) s = .next (u.okWith f (s.verOf p 0x10) 0) ∧
      (∀ i, i < Packet.fld p 22 2 → u.shadowWord (Packet.fld p 16 1) (Packet.fld p 18 2) (Packet.fld p 20 2 + i) = Packet.fld p (32 + 4 * i) 4) ∧
      (∀ kind id off, id < 256 → off < 4096 → ¬(kind = Packet.fld p 16 1 ∧ id = Packet.fld p 18 2 ∧ Packet.fld p 20 2 ≤ off ∧
        off < Packet.fld p 20 2 + Packet.fld p 22 2) → u.shadowWord kind id off = s.shadowWord kind id off) ∧
      (∀ kind id off, id < 256 → off < 4096 → ¬(kind = 3 ∧ off = 4) → u.activeWord kind id off = s.activeWord kind id off) ∧
      u.scopes.pending = s.scopes.pending ∧ { u with scopes := s.scopes, ingest := s.ingest } = s) ∧
  (∀ (p : Packet) (s : State) (f : Flight) (c : Caller), s.takes p 0x11 f c = true → configReadChecks c p s = none → Packet.fld p 22 2 ≠ 0 →
    let bytes := ((List.range (Packet.fld p 22 2)).map (fun i => toLe 4 ((if Packet.fld p 17 1 = 0 then s.shadowWord else s.activeWord)
      (Packet.fld p 16 1) (Packet.fld p 18 2) (Packet.fld p 20 2 + i)))).flatten
    (c.role ≠ .owner → exec (.configRead p) s =
      .next (s.finishFull f.id St.ok 0 0 (some (s.verOf p 0x11)) [(hostKey c.fn (Packet.fld p 24 8), bytes)] [])) ∧
    (c.role = .owner → exec (.configRead p) s = .next (s.finishFull f.id St.ok 0 0 (some (s.verOf p 0x11)) [] [bytes]))) ∧
  (∀ (p : Packet) (s : State) (f : Flight) (c : Caller),
    let kind := Packet.fld p 16 1
    let id := Packet.fld p 18 2
    s.takes p 0x12 f c = true → configCommitChecks c p s = none → s.commitCheck kind id = ⟨St.ok, 0, s.dueFrame⟩ →
    ∃ u : State, exec (.configCommit p) s = .next (u.okWith f (s.verOf p 0x12) s.dueFrame) ∧
      u.scopes.pending = s.scopes.pending ++ [⟨⟨kind, id⟩, s.dueFrame, (commitWords kind).map (fun o => (o, s.shadowWord kind id o))⟩] ∧
      u.scopes.active = s.scopes.active ∧ u.scopes.shadow = s.scopes.shadow ∧
      u.stats.acc.commitsAccepted = s.stats.acc.commitsAccepted + 1 ∧ { u with scopes := s.scopes, stats := s.stats } = s)

/-- The outcome of a commit, check by check in the order of R80, against the copy as the commits already accepted will leave it. A rejected commit changes
no scope and is counted; one with ZERO_WORK changes nothing at all (R80). A commit takes effect at the first frame edge at least 5 us after it is
accepted (R32). -/
def Obligations.CommitOutcome : Prop :=
  (∀ (s : State) (kind id : Nat),
    let w := s.shadowWord kind id
    (∀ o, rangeCheck kind w = some o → s.commitCheck kind id = ⟨St.badParam, 0, o⟩) ∧
    (rangeCheck kind w = none →
      (∀ o, s.pairCheck kind id w = some o → s.commitCheck kind id = ⟨St.configMismatch, 0, o⟩) ∧
      (s.pairCheck kind id w = none →
        (∀ o, kind = 0 → s.deviceParked w = some o → s.commitCheck kind id = ⟨St.notParked, 0, o⟩) ∧
        ((kind = 0 → s.deviceParked w = none) →
          ((∀ o ∈ commitWords kind, w o = s.dueWord kind id o) → ∃ r, s.commitCheck kind id = ⟨St.ok, Inf.zeroWork, r⟩ ∧
            ((∀ x ∈ s.scopes.pending, x.scope ≠ ⟨kind, id⟩) → r = s.frameNo) ∧
            (∀ l x m, s.scopes.pending = l ++ [x] ++ m → x.scope = ⟨kind, id⟩ → (∀ y ∈ m, y.scope ≠ ⟨kind, id⟩) → r = x.frame)) ∧
          ((∃ o ∈ commitWords kind, w o ≠ s.dueWord kind id o) →
            (32 ≤ s.scopes.pending.length → s.commitCheck kind id = ⟨St.noResource, 0, 0⟩) ∧
            (s.scopes.pending.length < 32 → s.commitCheck kind id = ⟨St.ok, 0, s.dueFrame⟩)))))) ∧
  (∀ (s : State) (kind id : Nat),
    ((s.commitCheck kind id).status ≠ St.ok → (s.commit kind id).1.scopes = s.scopes ∧
      (s.commit kind id).1.stats.acc.commitsRejected = s.stats.acc.commitsRejected + 1 ∧ { (s.commit kind id).1 with stats := s.stats } = s) ∧
    ((s.commitCheck kind id).status = St.ok → (s.commitCheck kind id).info = Inf.zeroWork → (s.commit kind id).1 = s)) ∧
  (∀ s : State, (s.clock.now + 5000 ≤ s.clock.nextEdge → s.dueFrame = s.clock.nextFrame) ∧
    (s.clock.nextEdge < s.clock.now + 5000 → s.dueFrame = s.clock.nextFrame + 1))

/-- FRAME_EDGE applies the commits due at the frame it opens and no other, of every kind of scope: each word of an active copy is then as the last of the
due commits that carries it has it, in the order they were accepted, and as it was where none does; no commit that stays pending is due, and none is
added (R32, R35). The words of the device scope hold in the next state itself; those of another scope do unless an object that ended at this edge took
its scope back to the reset values. A change of ROLE leaves the discipline to begin anew (R26), and a change of SIGMA or RHO makes the factor of a
queue pair's channel stale (R304). -/
def Obligations.CommitsApplyAtTheirEdge : Prop :=
  ∀ (s : State), (∀ c ∈ s.scopes.pending, c.scope.id < 256 ∧ ∀ w ∈ c.words, w.1 < 4096) →
    (s.running = true → ∃ t : State, exec .frameEdge s = .next t ∧
      (∀ c ∈ t.scopes.pending, c ∈ s.scopes.pending ∧ s.clock.nextFrame < c.frame) ∧
      (∀ off, off < 4096 → t.activeWord 0 0 off = s.wordAt s.clock.nextFrame 0 0 off) ∧
      (∀ kind id off, id < 256 → off < 4096 → t.activeWord kind id off = s.wordAt s.clock.nextFrame kind id off ∨ t.activeWord kind id off = wordReset kind off)) ∧
    (∀ fr, (s.applyCommits fr).scopes.pending = s.scopes.pending.filter (fun c => decide (fr < c.frame)) ∧
      (∀ kind id off, id < 256 → off < 4096 → (s.applyCommits fr).activeWord kind id off = s.wordAt fr kind id off) ∧
      ((s.applyCommits fr).stats.acc.commitApplied = true ↔ ∃ c ∈ s.scopes.pending, c.frame ≤ fr) ∧
      ((s.applyCommits fr).stats.acc.cfgChanged = true ↔ s.wordAt fr 0 0 0 ≠ s.activeWord 0 0 0)) ∧
    (∀ v, bits (s.activeWord 0 0 1) 31 30 ≠ bits v 31 30 →
      let t := s.applyWord 0 0 (1, v)
      t.clock.lastSync = none ∧ t.clock.lockRun = 0 ∧ t.clock.slew = 0 ∧ t.clock.step = 0 ∧ t.clock.timeState = (if bits v 31 30 = 0 then 1 else 0) ∧
        (bits v 31 30 = 0 → t.clock.rate = 0)) ∧
    (∀ id off v ch, off ≤ 1 → s.activeWord 5 id off ≠ v → s.apps.channels.get? id = some ch →
      (s.applyWord 5 id (off, v)).apps.channels.get? id = some { ch with factorOk := false, rho := (s.applyWord 5 id (off, v)).activeWord 5 id 1 })

/-- FRAME_CFG (R29): its reset value is a period of 1,000 us at phase 0; a commit is refused with BAD_PARAM at word 0 exactly when PERIOD_US is not from
250 to 4,000, and, with every range right, with CONFIG_MISMATCH at word 0 exactly when PHASE_US is not less than PERIOD_US; its reserved bits take no
write. -/
def Obligations.FrameConfigurationWord : Prop :=
  (wordReset 0 0 = 0x3E8 ∧ State.reset.activeWord 0 0 0 = 0x3E8 ∧ State.reset.shadowWord 0 0 0 = 0x3E8 ∧ State.reset.period = 1000000 ∧
    State.reset.phase = 0) ∧
  (∀ w : Nat → Nat, deviceRange w = some 0 ↔ (bits (w 0) 12 0 < 250 ∨ 4000 < bits (w 0) 12 0)) ∧
  (∀ w : Nat → Nat, devicePairs w = some 0 ↔ bits (w 0) 12 0 ≤ bits (w 0) 28 16) ∧
  (∀ v : Nat, wordsOk 0 0 [v] = true ↔ v < 2 ^ 32 ∧ bits v 31 29 = 0 ∧ bits v 15 13 = 0)

/-! ### Time (R22 to R44) -/

/-- The next frame edge after a robot time is the first point of the active grid strictly after it (R28). FRAME_EDGE closes the frame at the time its edge
was placed: its counters join the latch ring as one entry, the oldest giving way when 128 wait (LATE_PUBLISH then), the next frame opens with its
number one higher, from that time or from as much later as a correction steps robot time forward while PARKED is declared, its counters begin from
zero at action 2 of the edge, and the edge after it is placed on the grid that is active from now on (R27, R28, R34 to R36). After a change of
FRAME_CFG at an edge, the next edge lies on the new grid at least 250 us after that edge, and none of its points between is an edge; the transition
frame is at most P + 249 us long (R34). Says that exec answers a next state, under conditions on the state and the operands alone, for: frameEdge
(FRAME_EDGE). -/
def Obligations.FrameEdges : Prop :=
  (∀ (s : State) (t : Nat), 0 < s.period → t < s.gridAfter t ∧ s.gridAfter t ≤ t + s.period ∧
    (s.phase ≤ s.gridAfter t → (s.gridAfter t - s.phase) % s.period = 0) ∧
    (s.gridAfter t < s.phase → (s.phase - s.gridAfter t) % s.period = 0)) ∧
  (∀ s : State, s.running = true → ∃ t : State, exec .frameEdge s = .next t ∧ t.clock.nextFrame = s.clock.nextFrame + 1 ∧ t.clock.frameStart ≤ t.clock.now ∧
    (∃ d, t.clock.frameStart = s.clock.nextEdge + d ∧ (d ≠ 0 → d = s.clock.step ∧ s.clock.parked = true ∧ s.controlActive = false) ∧
      (s.clock.parked = true → s.controlActive = false → d = s.clock.step)) ∧
    t.clock.nextEdge = t.gridAfter (if t.activeWord 0 0 0 ≠ s.activeWord 0 0 0 then t.clock.frameStart + 249999 else t.clock.frameStart) ∧
    (s.clock.nextFrame = 0 → t.stats.ring = s.stats.ring) ∧
    (s.clock.nextFrame ≠ 0 → ∃ e, t.stats.ring = (if 128 ≤ s.stats.ring.length then s.stats.ring.tail else s.stats.ring) ++ [e] ∧
      e.frameNo = s.frameNo ∧ e.start = s.clock.frameStart ∧ e.stop = s.clock.nextEdge ∧ e.late = decide (128 ≤ s.stats.ring.length)) ∧
    (∃ u : State, t = ((u.edgeLast s.clock.nextFrame (s.clock.nextEdge - s.clock.frameStart)).settleDeferral.rollBack.edgeCheckpoints).settle ∧
      u.stats.acc.parts = [] ∧ u.stats.acc.misses = 0 ∧ u.stats.acc.commitsAccepted = 0 ∧ u.stats.acc.commitsRejected = 0 ∧
      u.clock.nextFrame = t.clock.nextFrame ∧ u.clock.frameStart = t.clock.frameStart ∧ u.clock.nextEdge = t.clock.nextEdge)) ∧
  (∀ s : State, s.stats.acc.cfgChanged = true → s.clock.frameStart % 1000 = 0 → 0 < s.period →
    let e := s.placeEdge.clock.nextEdge
    s.clock.frameStart + 250000 ≤ e ∧ e ≤ s.clock.frameStart + s.period + 249000 ∧
    (s.phase ≤ e → (e - s.phase) % s.period = 0) ∧ (e < s.phase → (s.phase - e) % s.period = 0) ∧
    (∀ g, s.clock.frameStart + 250000 ≤ g → (s.phase ≤ g → (g - s.phase) % s.period = 0) → (g < s.phase → (s.phase - g) % s.period = 0) → e ≤ g))

/-- The time states as Sync messages come (R26): the first Sync accepted on the named port enters LOCKING; sixteen consecutive ones with an offset below 1
us enter LOCKED with its event; LOCKED stays while Sync comes; a Sync on any other port, or on one whose link is down, changes nothing. Robot time is
corrected by a forward step only of whole microseconds, only at or above the threshold, while PARKED is declared and no control-class partition is
active; the rest of the offset is slewed (R27). Loss of Sync (R26): three sync intervals after the last one, LOCKING and LOCKED give way to HOLDOVER,
or straight to FREE when more than HOLDOVER_S has then passed; HOLDOVER gives way to FREE once it has; in another state the event changes nothing.
Each entry posts its event and leaves robot time to the crystal: no slew and no step is outstanding. The rest of gPTP (R25, R376, R377): Announce
changes nothing, a peer-delay request is answered on its port in every role, a peer-delay response records half of the round trip less the turnaround,
and the grandmaster sends Sync, Follow_Up and Announce on both ports: from control-ready, and on the ports whose links are up. Says that exec answers
a next state, under conditions on the state and the operands alone, for: sync (SYNC), announce (ANNOUNCE), pdelayReq (PDELAY_REQ), pdelayResp
(PDELAY_RESP), gmSyncTransmit (GM_SYNC_TRANSMIT), timeHoldover (TIME_HOLDOVER), timeFree (TIME_FREE). -/
def Obligations.TimeStates : Prop :=
  (∀ (s : State) (port interval : Nat) (offset : Int),
    (s.role ≠ port + 1 ∨ s.portUp port = false → exec (.sync port offset interval) s = .next s) ∧
    (s.portUp port = true → s.role = port + 1 → ∃ u : State, { u with clock := s.clock, fresh := s.fresh } = s ∧ u.clock.lastSync = some s.clock.now ∧
      u.clock.syncInterval = interval ∧ u.clock.offset = offset ∧
      (s.clock.timeState ≠ 2 → s.clock.timeState ≠ 3 → u.clock.timeState = 2 ∧ u.clock.lockRun = (if -1000 < offset ∧ offset < 1000 then 1 else 0) ∧
        exec (.sync port offset interval) s = .next u) ∧
      (s.clock.timeState = 2 ∨ s.clock.timeState = 3 → u.clock.lockRun = (if -1000 < offset ∧ offset < 1000 then s.clock.lockRun + 1 else 0)) ∧
      (s.clock.timeState = 2 → (offset ≤ -1000 ∨ 1000 ≤ offset ∨ s.clock.lockRun < 15) → u.clock.timeState = 2 ∧ exec (.sync port offset interval) s = .next u) ∧
      (s.clock.timeState = 2 → -1000 < offset → offset < 1000 → 15 ≤ s.clock.lockRun → u.clock.timeState = 3 ∧
        exec (.sync port offset interval) s = .next (u.post ⟨0x12, 1, 0, none, port, toBits 64 offset⟩)) ∧
      (s.clock.timeState = 3 → u.clock.timeState = 3 ∧ exec (.sync port offset interval) s = .next u))) ∧
  (∀ (s : State) (port interval : Nat) (offset : Int), s.portUp port = true → s.role = port + 1 →
    ∃ t : State, exec (.sync port offset interval) s = .next t ∧ t.clock.now = s.clock.now ∧ t.clock.step % 1000 = 0 ∧
      t.clock.slew + t.clock.step * 1000000000 = offset * 1000000000 ∧
      (t.clock.step ≠ 0 → ((bits s.timeCfg 15 8 * 1000000 : Nat) : Int) ≤ offset ∧ 0 < offset ∧ s.clock.parked = true ∧ s.controlActive = false ∧
        offset - t.clock.step < 1000) ∧
      (0 < bits s.timeCfg 15 8 → ((bits s.timeCfg 15 8 * 1000000 : Nat) : Int) ≤ offset → s.clock.parked = true → s.controlActive = false →
        (t.clock.step : Int) = offset / 1000 * 1000)) ∧
  (∀ (s : State),
    (s.clock.timeState ≠ 2 → s.clock.timeState ≠ 3 → exec .timeHoldover s = .next s) ∧ (s.clock.timeState ≠ 4 → exec .timeFree s = .next s) ∧
    ∀ last, s.clock.lastSync = some last →
    (s.clock.timeState = 2 ∨ s.clock.timeState = 3 →
      (3 * s.clock.syncInterval ≤ bits s.timeCfg 23 16 * 1000000000 → exec .timeHoldover s = .next (State.post { s with clock := { s.clock with
        now := max s.clock.now (last + 3 * s.clock.syncInterval), lockRun := 0, timeState := 4, slew := 0, step := 0 } } ⟨0x13, 1, 1, none, s.role - 1, 0⟩)) ∧
      (bits s.timeCfg 23 16 * 1000000000 < 3 * s.clock.syncInterval → exec .timeHoldover s = .next (State.post { s with clock := { s.clock with
        now := max s.clock.now (last + 3 * s.clock.syncInterval), lockRun := 0, timeState := 0, slew := 0, step := 0 } } ⟨0x10, 1, 1, none, 0, 0⟩))) ∧
    (s.clock.timeState = 4 → exec .timeFree s = .next (State.post { s with clock := { s.clock with
        now := max s.clock.now (last + bits s.timeCfg 23 16 * 1000000000 + 1), timeState := 0, slew := 0, step := 0 } } ⟨0x10, 1, 1, none, 0, 0⟩))) ∧
  (∀ (s : State) (port reqId : Nat) (t1 t2 t3 t4 : Int),
    exec (.announce port) s = .next s ∧
    (s.portUp port = false → exec (.pdelayReq port reqId) s = .next s ∧ exec (.pdelayResp port t1 t2 t3 t4) s = .next s) ∧
    (s.portUp port = true →
      exec (.pdelayReq port reqId) s = .next { s with out := s.out ++ [.pdelayResp port reqId] } ∧
      (∃ t : State, exec (.pdelayResp port t1 t2 t3 t4) s = .next t ∧ t.clock.peerDelay.get? port = some (((t4 - t1) - (t3 - t2)) / 2) ∧
        (∀ q, q ≠ port → t.clock.peerDelay.get? q = s.clock.peerDelay.get? q) ∧ { t with clock := { t.clock with peerDelay := s.clock.peerDelay } } = s)) ∧
    (s.controlReady = true → s.role = 0 → exec .gmSyncTransmit s = .next { s with
        clock := { s.clock with now := max s.clock.now s.clock.nextSync, nextSync := s.clock.nextSync + s.syncEvery },
        out := s.out ++ (([(0, "Sync"), (0, "Follow_Up"), (0, "Announce"), (1, "Sync"), (1, "Follow_Up"), (1, "Announce")] : List (Nat × String)).filter
          (fun m => s.portUp m.1)).map (fun m => .gptp m.1 m.2) }) ∧
    (s.controlReady = false ∨ s.role ≠ 0 → exec .gmSyncTransmit s = .next s))

/-- TIME_READ (R44): RESULT is the robot time at its fetch, the frame number, the time of the edge that opened the frame, or the discipline word; a tenant
reads the edge's time for the robot time and a zero offset, and the offset is zero in FREE and GRANDMASTER (R38); SELECT above 3 is BAD_PARAM. Says
that exec answers a next state, under conditions on the state and the operands alone, for: timeRead (TIME_READ). -/
def Obligations.TimeReadResult : Prop :=
  ∀ (p : Packet) (s : State) (f : Flight) (c : Caller), s.takes p 0x100 f c = true →
    (shortOk p 17 = false ∨ 3 < Packet.fld p 16 1 → exec (.timeRead p) s = .next (s.ends f (s.verOf p 0x100) St.badParam 0 0)) ∧
    (shortOk p 17 = true →
      (Packet.fld p 16 1 = 0 → s.flight? f.id = some f → exec (.timeRead p) s = .next (s.okWith f (s.verOf p 0x100) (if c.role = .tenant then s.clock.frameStart else f.fetchTime))) ∧
      (Packet.fld p 16 1 = 1 → exec (.timeRead p) s = .next (s.okWith f (s.verOf p 0x100) s.frameNo)) ∧
      (Packet.fld p 16 1 = 2 → exec (.timeRead p) s = .next (s.okWith f (s.verOf p 0x100) s.clock.frameStart)) ∧
      (Packet.fld p 16 1 = 3 → exec (.timeRead p) s = .next (s.okWith f (s.verOf p 0x100) (s.clock.timeState + 2 ^ 8 * bits (s.activeWord 0 0 1) 31 30 +
        2 ^ 16 * (if c.role = .tenant then 0 else toBits 32 (satSigned 32 (if s.clock.timeState ≤ 1 then 0 else s.clock.offset)))))))

/-- STATS_PUBLISH drains the oldest latched entry into the buffer that does not hold the newer page, 50 us after the page before it while later entries
wait, and gives it to each session whose decimation selects its frame, with its time of publication (R37, R480); STATS_STREAM sets a session's
decimation, and STATS_PAGE_SEND sends its waiting page as one message of TYPE 05h in the owner view, with that entry's own time of publication (R480).
The statistics page (R38): each field of its header and of a partition's record little-endian at its offset, the reserved bytes zero; both energies
are in millijoules rounded down, with ENERGY_COARSE set, in the operator view, and in microjoules in the owner view (R37). Says that exec answers a
next state, under conditions on the state and the operands alone, for: statsStream (STATS_STREAM), statsPublish (STATS_PUBLISH), statsPageSend
(STATS_PAGE_SEND). -/
def Obligations.Statistics : Prop :=
  (∀ (s : State),
    (∀ e r, s.hearthUp = true → s.stats.ring = e :: r → ∃ t : State, exec .statsPublish s = .next t ∧ t.stats.ring = r ∧ s.clock.now ≤ t.clock.now ∧
      s.fw.lastPublish < t.clock.now ∧ t.fw.lastPublish = t.clock.now ∧ t.stats.acc = s.stats.acc ∧
      (r ≠ [] → s.fw.lastPublish + 50000 ≤ t.clock.now) ∧
      (∀ x y, s.sec.sessions.get? x = some y → t.sec.sessions.get? x = some (if y.decimate ≠ 0 ∧ e.frameNo % y.decimate = 0 then { y with unsent := some e, unsentAt := t.clock.now } else y)) ∧
      (s.stats.newerB = true → t.stats.pageA = e.page false t.clock.now ∧ t.stats.pageB = s.stats.pageB ∧ t.stats.newerB = false) ∧
      (s.stats.newerB = false → t.stats.pageB = e.page false t.clock.now ∧ t.stats.pageA = s.stats.pageA ∧ t.stats.newerB = true)) ∧
    (∀ (p : Packet) (f : Flight) (c : Caller) (x : Nat) (y : OwnerSession), s.takes p 0x101 f c = true → shortOk p 18 = true → c.session = some x → s.sec.sessions.get? x = some y →
      exec (.statsStream p) s = .next (State.ends { s with sec := { s.sec with sessions := s.sec.sessions.set x { y with decimate := Packet.fld p 16 2, unsent := if Packet.fld p 16 2 = 0 then none else y.unsent } } }
        f (s.verOf p 0x101) St.ok (if Packet.fld p 16 2 = 0 ∧ y.decimate = 0 then Inf.zeroWork else 0) 0)) ∧
    (∀ (x : Nat) (y : OwnerSession) (e : StatsEntry), s.sec.sessions.get? x = some y → y.unsent = some e → s.procDown 0 = false →
      exec (.statsPageSend x) s =
        .next { s with out := s.out ++ [.mgmt x 5 (e.page true y.unsentAt)], sec := { s.sec with sessions := s.sec.sessions.set x { y with unsent := none } } })) ∧
  (∀ (e : StatsEntry) (owner : Bool) (publish : Nat),
    let b := e.page owner publish
    fieldAt b 0 8 = e.frameNo % 2 ^ 64 ∧ fieldAt b 8 8 = e.start % 2 ^ 64 ∧ fieldAt b 16 8 = e.stop % 2 ^ 64 ∧ fieldAt b 24 8 = publish % 2 ^ 64 ∧
    fieldAt b 32 2 = e.timeState % 2 ^ 16 ∧ bit (fieldAt b 34 2) 4 = !owner ∧ bit (fieldAt b 34 2) 3 = e.late ∧ bit (fieldAt b 34 2) 2 = e.acc.stepped ∧
    bit (fieldAt b 34 2) 1 = e.acc.cfgChanged ∧ bit (fieldAt b 34 2) 0 = e.acc.commitApplied ∧
    fieldAt b 48 4 = e.acc.commitsAccepted % 2 ^ 32 ∧ fieldAt b 52 4 = e.acc.commitsRejected % 2 ^ 32 ∧
    fieldAt b 56 2 = e.acc.tagPeakShared % 2 ^ 16 ∧ fieldAt b 58 2 = e.acc.tagPeakControl % 2 ^ 16 ∧ fieldAt b 62 2 = e.acc.misses % 2 ^ 16 ∧
    fieldAt b 64 8 = (if owner then e.acc.energy else e.acc.energy / 1000) % 2 ^ 64 ∧
    fieldAt b 36 4 = toBits 32 e.rate ∧ fieldAt b 40 8 = toBits 64 e.offset ∧ fieldAt b 60 2 = e.acc.emergencyPeak % 2 ^ 16 ∧
    (e.parts.length = 16 → b.length = 4096) ∧ (∀ i, 72 ≤ i → i < 128 → b.getD i 0 = 0) ∧
    (∀ i r, e.parts[i]? = some r →
      let o := 128 + 128 * i
      let ctl := r.cls = 0 ∧ r.state ≠ 0
      fieldAt b o 1 = r.state % 256 ∧ fieldAt b (o + 1) 1 = r.cls % 256 ∧ fieldAt b (o + 2) 1 = r.cores % 256 ∧ fieldAt b (o + 3) 1 = b2n r.oneShort ∧
      fieldAt b (o + 4) 4 = r.acc.dispatched % 2 ^ 32 ∧ fieldAt b (o + 8) 4 = r.acc.completed % 2 ^ 32 ∧ fieldAt b (o + 12) 4 = r.acc.misses % 2 ^ 32 ∧
      fieldAt b (o + 16) 8 = r.acc.coreTime % 2 ^ 64 ∧ fieldAt b (o + 24) 8 = r.acc.t1 % 2 ^ 64 ∧ fieldAt b (o + 32) 8 = r.acc.t2rd % 2 ^ 64 ∧
      fieldAt b (o + 40) 8 = r.acc.t2wr % 2 ^ 64 ∧ fieldAt b (o + 48) 8 = r.acc.t3 % 2 ^ 64 ∧ fieldAt b (o + 56) 8 = (if owner then r.energy else r.energy / 1000) % 2 ^ 64 ∧
      fieldAt b (o + 64) 4 = (if ctl then r.acc.latMax % 2 ^ 32 else 0) ∧ fieldAt b (o + 68) 4 = (if ctl then toBits 32 (r.acc.slackMin.getD 0) else 0) ∧
      (∀ k, o + 72 ≤ k → k < o + 128 → b.getD k 0 = 0)))

/-! ### The host interface (R50 to R63, R84 to R87, R376 to R395, R466) -/

/-- Hearth takes packets first from class 0, then from the admin queues, then from classes 1 to 3 by credits of 16, 4 and 1 that are renewed when no class
with a packet has one left, in each group round robin after the queue last served, and passes over a queue that is halted, disabled, closing or held
by a bound: MAX_INFLIGHT, its completion ring, its tags, an orphaned function, an emergency level or a stop (R57, R85 to R87, R386, R437).
PACKET_FETCH from the queue that is next: a LEN of zero, or greater than the ring's entry count, halts the queue, with its consumer index left on the
offending slot (R60); otherwise the index moves past the packet and, but for one skipped in orphan mode, the packet becomes the newest flight. A
HEARTBEAT that passes its checks counts as it is fetched (R86), and no other packet does. It does nothing while no queue is next, or while Hearth does
not run. Says that exec answers a next state, under conditions on the state and the operands alone, for: packetFetch (PACKET_FETCH). -/
def Obligations.PacketsAreFetched : Prop :=
  (∀ (s : State),
    (∀ q, s.nextIn 0 = some q → s.chooseQueue = some (q, s.proto.credits)) ∧
    (∀ q, s.nextIn 0 = none → s.nextIn 4 = some q → s.chooseQueue = some (q, s.proto.credits)) ∧
    (∀ q cr, s.nextIn 0 = none → s.nextIn 4 = none → s.chooseQueue = some (q, cr) →
      let old := if [1, 2, 3].any (fun h => (s.nextIn h).isSome && decide (0 < s.proto.credits.getD (h - 1) 0)) then s.proto.credits else [16, 4, 1]
      ∃ g, (g = 1 ∨ g = 2 ∨ g = 3) ∧ s.nextIn g = some q ∧ 0 < old.getD (g - 1) 0 ∧ cr = old.set (g - 1) (old.getD (g - 1) 0 - 1) ∧
        (∀ h, 1 ≤ h → h < g → s.nextIn h = none ∨ old.getD (h - 1) 0 = 0)) ∧
    (∀ g q, s.nextIn g = some q → (∃ c, (q, c) ∈ s.proto.queues ∧ fetchGroup q c = g ∧ s.fetchable q c = true) ∧
      ((∃ kv ∈ s.proto.queues, fetchGroup kv.1 kv.2 = g ∧ s.fetchable kv.1 kv.2 = true ∧ s.proto.lastServed.getD g 0 < kv.1) → s.proto.lastServed.getD g 0 < q)) ∧
    (∀ q c, s.fetchable q c = true → c.halted = false ∧ c.closing = none ∧ s.inflight q + s.heldOf q c.fn < c.maxInflight ∧
      s.inflight q + s.heldOf q c.fn + (c.cplTail + 2 ^ 32 - c.cplHead) % 2 ^ 32 < c.slots ∧ 0 < c.left ∧
      s.canReadRing c.fn = true ∧ ((∀ f, s.func? c.fn = some f → f.orphan = true) → q < 32 ∨ c.cls = 0) ∧
      (s.win.stopActive = true → q < 32 ∨ c.cls = 0) ∧
      (32 ≤ q → c.cls = 0 → s.tagsUsed true < 512) ∧
      (tagless (s.ringPacket q c).1 = false → (q < 32 ∨ c.cls ≠ 0) → s.tagsUsed false < 15872) ∧
      (tagless (s.ringPacket q c).1 = false → 32 ≤ q → 2 ≤ c.cls → s.power.applied = 0))) ∧
  (∀ (s : State) (q : Nat) (cr : List Nat) (c : CmdQueue), s.hearthUp = true → s.power.standby = false →
    (s.chooseQueue = none → exec .packetFetch s = .next s) ∧
    (s.chooseQueue = some (q, cr) → s.proto.queues.get? q = some c →
      let code := (s.ringPacket q c).1
      let p := (s.ringPacket q c).2
      ((p.len.toNat = 0 ∨ c.slots < p.len.toNat) → ∃ t : State, exec .packetFetch s = .next t ∧
        (∃ c', t.proto.queues.get? q = some c' ∧ c'.halted = true ∧ c'.head = c.head) ∧ t.proto.flights = s.proto.flights ∧ t.proto.finished = s.proto.finished) ∧
      (0 < p.len.toNat → p.len.toNat ≤ c.slots → (opRow code).isSome = true → s.orphanSkip p code = false → ∃ (t : State) (f : Flight), exec .packetFetch s = .next t ∧
        t.proto.flights = s.proto.flights ++ [f] ∧ f.id = s.proto.nextFlight ∧ f.opcode = code ∧ f.pkt = p ∧ f.path = .queue q ∧ f.running = false ∧ f.parked = false ∧ f.fetchTime = s.clock.now ∧
        (code ≠ 2 → t.proto.funcs = s.proto.funcs) ∧
        (∀ g x, code = 2 → s.turnAway p 2 = none → shortOk p 16 = true → s.func? c.fn = some g → g.session = some x →
          t.func? c.fn = some { g with session := some { x with lastBeat := s.clock.now } }) ∧
        t.proto.queues.get? q = some { c with head := (c.head + p.len.toNat) % 2 ^ 32 } ∧
        (∀ k, k ≠ q → t.proto.queues.get? k = s.proto.queues.get? k) ∧ t.proto.finished = s.proto.finished) ∧
      (0 < p.len.toNat → p.len.toNat ≤ c.slots → (opRow code).isSome = false → s.orphanSkip p code = false → (∀ g ∈ s.proto.flights, g.id < s.proto.nextFlight) →
        ∃ (t : State) (fin : Finished), exec .packetFetch s = .next t ∧ t.proto.finished = s.proto.finished ++ [fin] ∧ fin.flight = s.proto.nextFlight ∧
          (fin.status = St.badOpcode ∨ fin.status = St.badVersion) ∧ fin.result = 0 ∧ fin.path = .queue q)))

/-- COMPLETION_WRITE of a host queue's completion whose function is not orphaned, when nothing keeps its host writes back: after the operation's own host
writes, the 32 bytes of R62 go to the producer's entry with its PHASE (R51), the producer index moves on, and the vector is raised for IRQ or a status
that is not OK; of host memory nothing else changes, and no other memory at all (R58, R63). With the completion of a RECLAIM that tore its function
down, the new nonce comes into force (R89). A completion of a management session goes out on it, with its messages. COMPLETION_WRITE does nothing
while no completion can go out. A completion of an orphaned function is held, in order, and nothing is written to its host memory; a completion of a
function that may not master the bus waits, one whose host writes another function's orphan mode keeps back waits, and one behind an earlier
completion of its queue waits for it (R58, R84, R87, R466). Says that exec answers a next state, under conditions on the state and the operands alone,
for: completionWrite (COMPLETION_WRITE). -/
def Obligations.CompletionsAreWritten : Prop :=
  (∀ (s : State) (f : Finished) (rest : List Finished), s.proto.finished = f :: rest → (∀ g ∈ rest, g.flight ≠ f.flight) →
    (∀ kv ∈ s.proto.queues, kv.2.closing = none) → (∀ g ∈ s.proto.flights, g.opcode = 3 → g.running = false) →
    (∀ (q : Nat) (c : CmdQueue) (x : Func), f.path = .queue q → s.proto.queues.get? q = some c → s.func? c.fn = some x → x.orphan = false → x.busMaster = true →
      s.hearthDown = false → s.windowOpen f = true →
      let u := s.apply (f.hostWrites.map (fun w => ⟨.host, w.1, w.2⟩))
      let at_ := hostKey c.fn (c.cplBase + 32 * (c.cplTail % c.slots))
      let bytes := completionBytes f q (if c.slots = 0 then 1 else 1 - (c.cplTail / c.slots) % 2) c.head
      (¬(f.opcode = 3 ∧ f.status = St.ok ∧ f.info = 0) → ∃ t : State, exec .completionWrite s = .next t ∧ t.proto.finished = rest ∧ t.proto.flights = s.proto.flights ∧
        t.proto.queues.get? q = some { c with cplTail := (c.cplTail + 1) % 2 ^ 32 } ∧ (∀ k, k ≠ q → t.proto.queues.get? k = s.proto.queues.get? k) ∧
        (∀ i, i < 32 → t.stores.host.read (at_ + i) = bytes.getD i 0) ∧
        (∀ a, a < at_ ∨ at_ + 32 ≤ a → t.stores.host.read a = u.stores.host.read a) ∧
        t.stores.core = s.stores.core ∧ t.stores.region = s.stores.region ∧ t.stores.tier2 = s.stores.tier2 ∧ t.stores.xd = s.stores.xd ∧ t.stores.ufs = s.stores.ufs ∧
        t.out = (if (f.irq = true ∨ f.status ≠ 0) ∧ c.msix ≠ 0xFFFF then s.out ++ [.msix c.fn c.msix] else s.out) ∧
        t.proto.funcs = s.proto.funcs ∧ t.sched = s.sched ∧ t.tiers = s.tiers ∧ t.cores = s.cores ∧ t.scopes = s.scopes ∧ t.clock = s.clock) ∧
      (f.opcode = 3 → f.status = St.ok → f.info = 0 → ∃ t : State, exec .completionWrite s = .next t ∧ t.proto.finished = rest ∧
        t.func? c.fn = some { x with session := x.session.map (fun y => { y with nonce := f.result }) })) ∧
    (∀ x, f.path = .owner x → s.sec.sessions.has x = true → s.procDown 0 = false →
      exec .completionWrite s = .next { s with proto := { s.proto with finished := rest }, out := s.out ++ [.mgmt x 2 (completionBytes f 0xFFFF 1 0)] ++ f.messages.map (fun m => .mgmt x 4 m) }) ∧
    ((∀ g ∈ f :: rest, s.completable g = false) → exec .completionWrite s = .next s)) ∧
  (∀ (s : State) (q : Nat) (f : Finished) (rest : List Finished) (c : CmdQueue) (x : Func), s.proto.finished = f :: rest →
    f.path = .queue q → s.proto.queues.get? q = some c → s.func? c.fn = some x → s.hearthDown = false →
    (x.orphan = true → ∃ t : State, exec .completionWrite s = .next t ∧ t.func? c.fn = some { x with held := x.held ++ [f] } ∧ t.stores = s.stores ∧
      t.out = s.out ∧ t.proto.finished = rest.filter (fun g => decide (g.flight ≠ f.flight)) ∧ t.proto.queues = s.proto.queues) ∧
    (x.orphan = false → x.busMaster = false ∨ s.windowOpen f = false → rest = [] → exec .completionWrite s = .next s) ∧
    (∀ g ∈ rest, g.path = f.path → s.completable g = true → g.flight = f.flight))

/-- Heartbeats and orphan mode (R86, R87): HOST_HEARTBEAT of a physical function counts now; a function whose last counted heartbeat lies more than
HB_PERIOD_MS before a frame edge is orphaned, and then ORPHAN_ENTERED is posted; a later one is not, nor any while Hearth is down (the model's reading
of R375, log 41). An admin packet of an orphaned function, other than RECLAIM and HELLO, is skipped as it is fetched: the consumer index moves past
it, it is counted, and there is no flight and no completion (R87). A HEARTBEAT still counts (R86). HELLO with TAKEOVER on an orphaned function, and an
accepted RECLAIM on one, complete at once on a link that masters the bus, and wait on another (R466): the function leaves orphan mode with a new
session nonce, and with TAKEOVER or TEARDOWN none of its created queues is left (R68, R88, R89). A RECLAIM with RESUME on a function that is not
orphaned completes with ZERO_WORK and the nonce that stands (R88); one with TEARDOWN closes its created queues, stands as accepted, and completes with
the new nonce once none of them is left (R89). A refused HELLO completes with its status; a RECLAIM refused on an orphaned function leaves its status
in RECLAIM_STATUS and completes nothing, and one refused on another function completes with it. Says that exec answers a next state, under conditions
on the state and the operands alone, for: reclaim (RECLAIM), orphanEntered (ORPHAN_ENTERED), hostHeartbeat (HOST_HEARTBEAT). -/
def Obligations.OrphanMode : Prop :=
  (∀ (s : State) (fn : Nat) (v : Sys2Proof.Word) (g : Func) (x : Session), s.func? fn = some g → g.session = some x →
    (fn % 16 = 0 → exec (.hostHeartbeat fn v) s = .next { s with proto := { s.proto with funcs := s.proto.funcs.set fn { g with session := some { x with lastBeat := s.clock.now } } } }) ∧
    (fn % 16 ≠ 0 → exec (.hostHeartbeat fn v) s = .next s) ∧
    (g.orphan = false → s.hearthDown = false → x.lastBeat + x.periodMs * 1000000 < s.clock.frameStart →
      exec (.orphanEntered fn) s = .next (State.post { s with proto := { s.proto with funcs := s.proto.funcs.set fn { g with orphan := true } } } ⟨3, 0, 2, none, fn, x.lastBeat⟩)) ∧
    (s.clock.frameStart ≤ x.lastBeat + x.periodMs * 1000000 ∨ s.hearthDown = true ∨ g.orphan = true → exec (.orphanEntered fn) s = .next s)) ∧
  (∀ (s : State) (q : Nat) (cr : List Nat) (c : CmdQueue) (g : Func), s.hearthUp = true → s.power.standby = false → s.chooseQueue = some (q, cr) →
    s.proto.queues.get? q = some c → q < 32 → s.func? c.fn = some g → g.orphan = true →
    let code := (s.ringPacket q c).1
    let p := (s.ringPacket q c).2
    0 < p.len.toNat → p.len.toNat ≤ c.slots → code ≠ 1 → code ≠ 3 →
    ∃ t : State, exec .packetFetch s = .next t ∧ t.proto.finished = s.proto.finished ∧ t.proto.flights = s.proto.flights ∧ t.stores = s.stores ∧
      t.proto.queues.get? q = some { c with head := (c.head + p.len.toNat) % 2 ^ 32 } ∧
      (∃ g', t.func? c.fn = some g' ∧ g'.orphan = true ∧ g'.orphanSkips = g.orphanSkips + 1 ∧
        (code ≠ 2 → g' = { g with orphanSkips := g.orphanSkips + 1 }) ∧
        (∀ x, code = 2 → s.turnAway p 2 = none → shortOk p 16 = true → g.session = some x → g'.session = some { x with lastBeat := s.clock.now }))) ∧
  (∀ (p : Packet) (s : State) (f : Flight) (c : Caller) (g : Func), s.func? c.fn = some g →
    let waits := s.setFlight f.id (fun x => { x with parked := true, pages := false, held := false, words := s.settings x, deadline := s.flightDeadline x })
    (∀ v, g.orphan = true → s.takes p 1 f c = true → helloChecks c p s = none → chooseVersion (Packet.fld p 16 1) (Packet.fld p 17 1) = some v →
      (g.busMaster = false → exec (.hello p) s = .next waits) ∧
      (g.busMaster = true → ∃ t : State, exec (.hello p) s = .next t ∧
        (∃ g', t.func? c.fn = some g' ∧ g'.orphan = false ∧ g'.session = some ⟨s.newNonce c.fn, v % 16, Packet.fld p 18 2, s.clock.now⟩) ∧
        (∀ kv ∈ t.proto.queues, kv.2.fn = c.fn → kv.1 < 32) ∧ t.flight? f.id = none)) ∧
    (∀ st, s.takes p 1 f c = true → helloChecks c p s = some st → exec (.hello p) s = .next (s.ends f (s.verOf p 1) st 0 0)) ∧
    (s.takes p 3 f c = true → reclaimStatusOf c.fn p s = none → g.orphan = false → Packet.fld p 24 1 = 1 →
      exec (.reclaim p) s = .next (s.ends f (s.verOf p 3) St.ok Inf.zeroWork (s.nonceOf c.fn))) ∧
    (s.takes p 3 f c = true → reclaimStatusOf c.fn p s = none → g.orphan = true → g.busMaster = false → exec (.reclaim p) s = .next waits) ∧
    (s.takes p 3 f c = true → reclaimStatusOf c.fn p s = none → g.orphan = true → g.busMaster = true →
      ∃ t : State, exec (.reclaim p) s = .next t ∧ (∃ g', t.func? c.fn = some g' ∧ g'.orphan = false ∧ g'.held = [] ∧ g'.reclaimStatus = none ∧
          g'.session = g.session.map (fun x => { x with nonce := s.newNonce c.fn, lastBeat := s.clock.now })) ∧
        (Packet.fld p 24 1 = 2 → ∀ kv ∈ t.proto.queues, kv.2.fn = c.fn → kv.1 < 32) ∧ t.flight? f.id = none) ∧
    (s.takes p 3 f c = true → reclaimStatusOf c.fn p s = none → g.orphan = false → Packet.fld p 24 1 = 2 →
      ∃ t : State, exec (.reclaim p) s = .next t ∧ (∃ g', t.func? c.fn = some g' ∧ g'.orphan = false ∧ g'.held = [] ∧ g'.reclaimStatus = none ∧
          g'.session = g.session.map (fun x => { x with lastBeat := s.clock.now })) ∧
        (∀ q x, t.proto.queues.get? q = some x → x.fn = c.fn → 32 ≤ q → x.closing.isSome = true) ∧
        ((s.teardownNow c.fn f.id).flight? f.id = some f → (∀ kv ∈ t.proto.queues, kv.2.fn = f.fn → kv.2.closing = none) →
          t.flight? f.id = none ∧ ∃ fin ∈ t.proto.finished, fin.flight = f.id ∧ fin.opcode = 3 ∧ fin.status = St.ok ∧ fin.info = 0 ∧ fin.result = s.newNonce c.fn % 2 ^ 64)) ∧
    (∀ st, s.takes p 3 f c = true → reclaimStatusOf c.fn p s = some st →
      (g.orphan = true → exec (.reclaim p) s = .next ((s.setFunc c.fn (fun x => { x with reclaimStatus := some st })).dropFlight f.id)) ∧
      (g.orphan = false → exec (.reclaim p) s = .next (s.ends f (s.verOf p 3) st 0 0))))

/-- ADMIN_CTL (R52, R379): ENABLE = 1 checks the block's fields; on success the admin queue stands with both indices zero and MAX_INFLIGHT 256, on failure
SETUP_ERR is set and the queue stays disabled; ENABLE = 0 stops fetching. REGISTER_WRITE (R379, R382, R384): a PF, or the safety port where R384
allows it, writes a shadow word of the device scope, whose reserved bits take nothing; a function writes the fields of its admin block, which resets
that queue's indices; a write its path does not allow is ignored. CTL_COMMIT (R382): a commit of the device scope whose outcome stands in
COMMIT_STATUS and COMMIT_FRAME; a rejected one leaves COMMIT_FRAME. A door that may not configure commits nothing (R384). SNAPSHOT_PUBLISH copies
every snapshot register as one unit, with SNAP_FRAME the frame of the latest edge, while Hearth runs (R381). Says that exec answers a next state,
under conditions on the state and the operands alone, for: ctlCommit (CTL_COMMIT), adminQueueEnable (ADMIN_QUEUE_ENABLE), adminQueueDisable
(ADMIN_QUEUE_DISABLE), registerWrite (REGISTER_WRITE), snapshotPublish (SNAPSHOT_PUBLISH). -/
def Obligations.RegisterWindow : Prop :=
  (∀ (s : State) (fn : Nat) (f : Func), s.func? fn = some f → s.running = true → 4 ≤ s.fw.bootStage →
    ((slotsOk f.slots = true ∧ f.sqBase % 4096 = 0 ∧ f.cqBase % 4096 = 0 ∧ vectorOk f.msix = true → ∃ t : State, exec (.adminQueueEnable fn) s = .next t ∧
        t.proto.queues.get? fn = some ⟨fn, f.sqBase, f.cqBase, f.slots, f.msix, none, 0, 256, 0, 0, 0, 0, false, none⟩ ∧
        t.func? fn = some { f with enable := true, setupErr := false } ∧ (∀ k, k ≠ fn → t.proto.queues.get? k = s.proto.queues.get? k) ∧
        { t with proto := s.proto, power := s.power } = s) ∧
      (¬(slotsOk f.slots = true ∧ f.sqBase % 4096 = 0 ∧ f.cqBase % 4096 = 0 ∧ vectorOk f.msix = true) → ∃ t : State, exec (.adminQueueEnable fn) s = .next t ∧
        t.func? fn = some { f with enable := false, setupErr := true } ∧ t.proto.queues = s.proto.queues)) ∧
    (∃ t : State, exec (.adminQueueDisable fn) s = .next t ∧ t.func? fn = some { f with enable := false } ∧
      (∀ c, t.proto.queues.get? fn = some c → t.fetchable fn c = true → 32 ≤ fn ∨ fn ≠ c.fn))) ∧
  (∀ (s : State) (v : Sys2Proof.Word),
    (∀ (d : Sys2Proof.Door) (w : Nat), w < 64 → s.mayConfigure d = true → s.windowUp = true →
      ∃ t : State, exec (.registerWrite d (0x400 + 4 * w) v) s = .next t ∧
        (wordMask 0 w ≠ 0 → t.shadowWord 0 0 w = v.toNat &&& wordMask 0 w) ∧ (∀ k, k < 64 → k ≠ w → t.shadowWord 0 0 k = s.shadowWord 0 0 k) ∧
        { t with scopes := s.scopes } = s ∧ t.scopes.active = s.scopes.active ∧ t.scopes.pending = s.scopes.pending) ∧
    (∀ off, s.portMayConfigure = false → exec (.registerWrite .safetyPort off v) s = .next s) ∧
    (∀ off, off < 0x400 ∨ 0x500 ≤ off → exec (.registerWrite .safetyPort off v) s = .next s) ∧
    (∀ (fn off : Nat) (f : Func) (c : CmdQueue), s.isPf fn = true → off ≤ 0x14 → off % 4 = 0 → s.running = true → 4 ≤ s.fw.bootStage →
      s.func? fn = some f → s.proto.queues.get? fn = some c →
      ∃ t : State, exec (.registerWrite (.bar0 fn) (0x3000 + off) v) s = .next t ∧ t.func? fn = some (f.writeAdmin off v.toNat) ∧
        t.proto.queues.get? fn = some { c with head := 0, tail := 0, cplTail := 0, cplHead := 0 } ∧ t.scopes = s.scopes)) ∧
  (∀ (s : State) (d : Sys2Proof.Door),
    (s.mayConfigure d = false → exec (.ctlCommit d 1) s = .next s) ∧
    (s.mayConfigure d = true → s.windowUp = true →
      ((s.commitCheck 0 0).status = St.ok → ∃ t : State, exec (.ctlCommit d 1) s = .next t ∧ t.win.commitStatus = 2 ^ 16 * (s.commitCheck 0 0).info ∧
        t.win.commitFrame = (s.commitCheck 0 0).result ∧ t.scopes = (s.commit 0 0).1.scopes) ∧
      ((s.commitCheck 0 0).status ≠ St.ok → ∃ t : State, exec (.ctlCommit d 1) s = .next t ∧
        t.win.commitStatus = (s.commitCheck 0 0).status + 2 ^ 16 * (s.commitCheck 0 0).result ∧ t.win.commitFrame = s.win.commitFrame ∧ t.scopes = s.scopes)) ∧
    (s.windowUp = true → ∃ t : State, exec .snapshotPublish s = .next t ∧ t.win.snap.frame = s.clock.nextFrame - 1 ∧
      t.win.snap.devState = s.devStateNow ∧ t.win.snap.hostState = s.hostStateNow ∧ t.win.snap.coreState = s.coreStateNow ∧
      (∀ i, i < 16 → t.win.snap.parts[i]? = some (s.partWord i)) ∧ { t with win := s.win } = s) ∧
    (s.windowUp = false → exec .snapshotPublish s = .next s))

/-- The stop latch (R385): its three setting causes, each of which cancels a pending CLEAR; the key; when a CLEAR is honoured; that an honoured CLEAR
clears the latch at the next frame edge; and STOP_STATUS as it reads. Says that exec answers a next state, under conditions on the state and the
operands alone, for: safetyHeartbeat (SAFETY_HEARTBEAT), safetyHeartbeatLapse (SAFETY_HEARTBEAT_LAPSE), stopRequest (STOP_REQUEST), stopClearRequest
(STOP_CLEAR_REQUEST), stopInAssert (STOP_IN_ASSERT), stopInDeassert (STOP_IN_DEASSERT). -/
def Obligations.StopLatch : Prop :=
  ∀ (s : State) (v : Sys2Proof.Word), s.fw.powered = true →
    let key := bits v.toNat 31 16 = 0x5354
    (¬key → exec (.stopRequest v) s = .next s ∧ exec (.stopClearRequest v) s = .next s) ∧
    (key → bit v.toNat 0 = true → exec (.stopRequest v) s = .next { s with win := { s.win with stopped := true, clearPending := false, byRequest := true } } ∧
      exec (.stopClearRequest v) s = exec (.stopRequest v) s) ∧
    (exec .stopInAssert s = .next { s with win := { s.win with stopIn := true, stopped := true, clearPending := false } }) ∧
    (exec .stopInDeassert s = .next { s with win := { s.win with stopIn := false } }) ∧
    (s.clock.running = true → s.safeHbNs ≠ 0 → exec .safetyHeartbeatLapse s = .next { s with
      clock := { s.clock with now := max s.clock.now (max s.win.lastSafeHb s.win.safeHbSince + s.safeHbNs + 1) },
      win := { s.win with stopped := true, clearPending := false, bySafeHb := true } }) ∧
    (s.safeHbNs = 0 → exec .safetyHeartbeatLapse s = .next s) ∧
    (key → bit v.toNat 0 = false → bit v.toNat 1 = true →
      (s.win.stopped = true ∧ s.win.stopIn = false ∧ (s.safeHbNs = 0 ∨ s.clock.now ≤ max s.win.lastSafeHb s.win.safeHbSince + s.safeHbNs) →
        exec (.stopClearRequest v) s = .next { s with win := { s.win with clearPending := true } }) ∧
      (s.win.stopIn = true ∨ (s.safeHbNs ≠ 0 ∧ max s.win.lastSafeHb s.win.safeHbSince + s.safeHbNs < s.clock.now) → exec (.stopClearRequest v) s = .next s)) ∧
    (2 ≤ s.fw.bootStage → exec (.safetyHeartbeat v) s = .next { s with win := { s.win with lastSafeHb := s.clock.now } }) ∧
    (s.win.clearPending = true → s.edgeStop = { s with win := { s.win with stopped := false, clearPending := false, byRequest := false, bySafeHb := false, stopActive := false } }) ∧
    (s.win.clearPending = false → s.edgeStop = { s with win := { s.win with stopActive := s.win.stopped } }) ∧
    (∀ old new, bits old 15 0 ≠ bits new 15 0 → s.wordChanged 0 0 0x10 old new = { s with win := { s.win with safeHbSince := s.clock.frameStart } }) ∧
    (bit (s.windowWord 0x4C) 0 = s.win.stopped ∧ bit (s.windowWord 0x4C) 1 = s.win.stopIn ∧ bit (s.windowWord 0x4C) 2 = s.win.byRequest ∧
      bit (s.windowWord 0x4C) 3 = s.win.bySafeHb ∧ bit (s.windowWord 0x4C) 4 = s.win.clearPending ∧ s.windowWord 0x4C < 32)

/-- The safety port's transactions (R387): which headers are in error, the words, STATUS and CRC of a read, a write that is taken, one with a bad data
CRC, one that R384 refuses, and one ended early. CRC-16 of R387 on the check string "123456789" and on the empty string. Says that exec answers a next
state, under conditions on the state and the operands alone, for: safetySpiRead (SAFETY_SPI_READ), safetySpiWrite (SAFETY_SPI_WRITE). -/
def Obligations.SafetyPort : Prop :=
  (∀ (s : State) (wire : List Byte) (paused : Bool), s.fw.powered = true → 2 ≤ s.fw.bootStage → 6 ≤ wire.length →
    let cmd := fieldAt wire 0 1
    let addr := fieldAt wire 1 2
    let n := fieldAt wire 3 1
    let down := 16 * b2n s.hearthDown
    let bad := fieldAt wire 4 2 ≠ crc16 (wire.take 4) ∨ paused = false ∨ (cmd ≠ 2 ∧ cmd ≠ 3) ∨ addr % 4 ≠ 0 ∨ n = 0 ∨ 64 < n ∨ 0x1000 < addr + 4 * n
    let counted := { s.win with spiErrors := min (s.win.spiErrors + 1) (2 ^ 32 - 1) }
    exec (.safetySpiRead wire paused) s = exec (.safetySpiWrite wire paused) s ∧
    (bad → exec (.safetySpiRead wire paused) s = .next { s with win := counted, out := s.out ++ [.spi [BitVec.ofNat 8 (2 + down)]] }) ∧
    (¬bad → cmd = 3 → exec (.safetySpiRead wire paused) s =
      .next { s with out := s.out ++ [.spi (((List.range n).map (fun i => toLe 4 (s.windowWord (addr + 4 * i)))).flatten ++ [BitVec.ofNat 8 (1 + down)] ++
        toLe 2 (crc16 (((List.range n).map (fun i => toLe 4 (s.windowWord (addr + 4 * i)))).flatten ++ [BitVec.ofNat 8 (1 + down)])))] }) ∧
    (¬bad → cmd = 2 →
      (wire.length < 8 + 4 * n → exec (.safetySpiWrite wire paused) s = .next s) ∧
      (8 + 4 * n ≤ wire.length →
        (fieldAt wire (6 + 4 * n) 2 ≠ crc16 (wire.take (6 + 4 * n)) →
          exec (.safetySpiWrite wire paused) s = .next { s with win := counted, out := s.out ++ [.spi [BitVec.ofNat 8 (4 + down)]] }) ∧
        (fieldAt wire (6 + 4 * n) 2 = crc16 (wire.take (6 + 4 * n)) →
          ((∃ i, i < n ∧ s.spiMay (addr + 4 * i) = false) → exec (.safetySpiWrite wire paused) s = .next { s with out := s.out ++ [.spi [BitVec.ofNat 8 (8 + down)]] }) ∧
          ((∀ i, i < n → s.spiMay (addr + 4 * i) = true) →
            let t := (List.range n).foldl (fun s i => s.spiWord (addr + 4 * i) (fieldAt wire (6 + 4 * i) 4)) s
            exec (.safetySpiWrite wire paused) s = .next (t.emit (.spi [BitVec.ofNat 8 (1 + 16 * b2n t.hearthDown)]))))))) ∧
  (crc16 [0x31, 0x32, 0x33, 0x34, 0x35, 0x36, 0x37, 0x38, 0x39] = 0x29B1 ∧ crc16 [] = 0xFFFF)

/-- MGMT_SESSION_OPEN (R390 to R392): a handshake that comes to the link-local address of the fused MAC address and to port 7960, and meets every rule
while fewer than two sessions exist, opens one, SEC answering with its identity certificate; any other that comes there is answered with a TLS alert
and opens none; one that comes elsewhere meets nothing. MGMT_SESSION_CLOSE ends a session, its event queues and its packets not yet running.
MGMT_MESSAGE (R393): a message of any type but 01h closes the session with an alert; with 64 packets in flight nothing more is read; a packet of a row
of the opcode table, framed by its LEN, becomes a flight, and with a wrong length or an opcode of no row it completes at once. Says that exec answers
a next state, under conditions on the state and the operands alone, for: mgmtSessionOpen (MGMT_SESSION_OPEN), mgmtSessionClose (MGMT_SESSION_CLOSE),
mgmtMessage (MGMT_MESSAGE). -/
def Obligations.ManagementPort : Prop :=
  (∀ (s : State) (h : Sys2Proof.Handshake) (x : Nat),
    let mac := s.sec.fuses.mac
    let here := h.port = 7960 ∧ h.dest = [0xFE, 0x80, 0, 0, 0, 0, 0, 0, mac.headD 0 ^^^ 2] ++ (mac.drop 1).take 2 ++ [0xFF, 0xFE] ++ (mac.drop 3).take 3
    (s.secUp = true → here →
      let good := h.suiteOk = true ∧ h.groupOk = true ∧ h.sigOk = true ∧ h.psk = false ∧ h.resumption = false ∧ h.earlyData = false ∧
        h.chainDigest ∈ s.sec.fuses.ownerAnchors ∧ (∃ b ∈ h.chainDigest, b ≠ 0) ∧ s.rel.unlocked = false ∧ s.sec.sessions.length < 2
      (good → ∃ (n : Nat), s.sec.sessions.has n = false ∧
        exec (.mgmtSessionOpen h) s = .next { s with sec := { s.sec with sessions := s.sec.sessions.set n ⟨h.chainDigest, 0, none, 0⟩ }, out := s.out ++ [.tlsServer (s.sec.fuses.certSerial ++ s.sec.fuses.certRest)] }) ∧
      (¬good → exec (.mgmtSessionOpen h) s = .next { s with out := s.out ++ [.tlsAlert] })) ∧
    (s.secUp = false ∨ ¬here → exec (.mgmtSessionOpen h) s = .next s) ∧
    (∃ t : State, exec (.mgmtSessionClose x) s = .next t ∧ t.sec.sessions.has x = false ∧ (∀ y, y ≠ x → t.sec.sessions.get? y = s.sec.sessions.get? y) ∧
      (∀ kv, kv ∈ t.proto.eqs ↔ kv ∈ s.proto.eqs ∧ kv.2.owner ≠ some x) ∧ (∀ f, f ∈ t.proto.finished ↔ f ∈ s.proto.finished ∧ f.path ≠ .owner x) ∧
      (∀ f, f ∈ t.proto.flights ↔ f ∈ s.proto.flights ∧ (f.running = true ∨ f.path ≠ .owner x)) ∧ { t with sec := s.sec, proto := s.proto } = s)) ∧
  (∀ (s : State) (x type : Nat) (b : List Byte), s.secUp = true → s.sec.sessions.has x = true →
    let p := packetOf (.owner x) b
    let code := fieldAt b 0 2
    let busy := (s.proto.flights.filter (fun f => decide (f.path = .owner x))).length + (s.proto.finished.filter (fun f => decide (f.path = .owner x))).length
    (type ≠ 1 → exec (.mgmtMessage x type b) s = .next ((s.closeSession x).emit .tlsAlert)) ∧
    (type = 1 → 64 ≤ busy → exec (.mgmtMessage x type b) s = .next s) ∧
    (type = 1 → busy < 64 →
      ((opRow code).isSome = true → b.length = p.len.toNat * 64 → 0 < b.length →
        ∃ (t : State) (f : Flight), exec (.mgmtMessage x type b) s = .next t ∧ t.proto.flights = s.proto.flights ++ [f] ∧ f.id = s.proto.nextFlight ∧ f.pkt = p ∧
          f.opcode = code ∧ f.path = .owner x ∧ f.running = false ∧ f.parked = false ∧ t.proto.finished = s.proto.finished) ∧
      ((opRow code).isSome = false ∨ b.length ≠ p.len.toNat * 64 →
        (∀ g ∈ s.proto.flights, g.id < s.proto.nextFlight) → ∃ (t : State) (fin : Finished), exec (.mgmtMessage x type b) s = .next t ∧
          t.proto.flights = s.proto.flights ∧ t.proto.finished = s.proto.finished ++ [fin] ∧ fin.status ≠ St.ok ∧ fin.path = .owner x)))

/-- Host links (R465, R466, R477): PERST or loss of a link takes bus mastering from its functions and ends no queue, context, partition or session; the
link trains again with one to eight lanes at 2.5 to 32 GT/s, without bus mastering; BUS_MASTER_ENABLE on a link that is up gives it back, and what
waited goes on. A link of an I/O die the part lacks does nothing. Says that exec answers a next state, under conditions on the state and the operands
alone, for: perstAssert (PERST_ASSERT), hostLinkDown (HOST_LINK_DOWN), hostLinkUp (HOST_LINK_UP), busMasterEnable (BUS_MASTER_ENABLE). -/
def Obligations.HostLinks : Prop :=
  ∀ (s : State) (link : Nat),
    (link < ioDies s.order → ∀ c, (c = .perstAssert link ∨ c = .hostLinkDown link) → ∃ t : State, exec c s = .next t ∧
      t.pins.links.get? link = some ⟨false, decide (c = .hostLinkDown link) && (s.hostLink link).perst, 0, 0⟩ ∧
      (∀ fn f, t.func? fn = some f → fn / 16 = link → f.busMaster = false) ∧
      (∀ fn f, s.func? fn = some f → ∃ g, t.func? fn = some g ∧ g.session = f.session ∧ g.orphan = f.orphan ∧ g.enable = f.enable ∧ g.held = f.held ∧
        (fn / 16 ≠ link → g = f)) ∧
      t.proto.queues = s.proto.queues ∧ t.proto.flights = s.proto.flights ∧ t.sched = s.sched ∧ t.stores = s.stores ∧ t.cores = s.cores) ∧
    (link < ioDies s.order → s.running = true → ∃ l : HostLink, l.up = true ∧ l.perst = true ∧ l.width ∈ [1, 2, 4, 8] ∧ l.speed ∈ [25, 50, 80, 160, 320] ∧
      exec (.hostLinkUp link) s = .next { s.bump with pins := { s.pins with links := s.pins.links.set link l } }) ∧
    (∀ fn f, fn / 16 = link → s.running = true → (s.hostLink link).up = true → s.func? fn = some f →
      ∃ u : State, exec (.busMasterEnable fn) s = .next u.settle ∧ u.func? fn = some { f with busMaster := true } ∧ u.sched = s.sched ∧ u.cores = s.cores) ∧
    (∀ fn, fn / 16 = link → (s.hostLink link).up = false → exec (.busMasterEnable fn) s = .next s) ∧
    (ioDies s.order ≤ link → exec (.perstAssert link) s = .next s ∧ exec (.hostLinkDown link) s = .next s ∧ exec (.hostLinkUp link) s = .next s)

/-! ### Numbers (R91 to R123) -/

/-- The exact magnitude of a code of a format, as a rational. -/
def Sys2Proof.Machine.Fmt.magnitude (f : Fmt) (code : Nat) : ℚ :=
  if code / 2 ^ f.mb = 0 then (code : ℚ) * (2 : ℚ) ^ f.qmin
  else ((2 ^ f.mb + code % 2 ^ f.mb : Nat) : ℚ) * (2 : ℚ) ^ (f.qmin + (code / 2 ^ f.mb : Nat) - 1)

/-- Rounding is correct (R111 to R113): to nearest even no code of the format lies nearer than the one chosen, and of two as near the even one is chosen;
toward zero the largest magnitude not above the value is chosen; stochastic rounding chooses the next larger exactly when the share of the step lies
above the random number by R113's q > r. A conversion is exact whenever the value is representable in the destination (R117): under every ROUND and
SAT, and with no summary bit, every code of a finite value is written as itself. The HX9 writes only the canonical NaN of each format (R115), and
every FP32 operation with a NaN gives NaN. -/
def Obligations.RoundingIsCorrect : Prop :=
  (∀ f ∈ floatFormats, ∀ (m : Nat) (e : Int),
    let x : ℚ := (m : ℚ) * (2 : ℚ) ^ e
    (∀ c', |f.magnitude (f.roundCode .rne m e) - x| ≤ |f.magnitude c' - x| ∧
      (|f.magnitude c' - x| = |f.magnitude (f.roundCode .rne m e) - x| → c' = f.roundCode .rne m e ∨ f.roundCode .rne m e % 2 = 0)) ∧
    (f.magnitude (f.roundCode .rtz m e) ≤ x ∧ x < f.magnitude (f.roundCode .rtz m e + 1)) ∧
    (∀ r, f.roundCode (.sr r) m e = f.roundCode .rtz m e +
      (if (r : ℤ) < ⌊(x - f.magnitude (f.roundCode .rtz m e)) / (f.magnitude (f.roundCode .rtz m e + 1) - f.magnitude (f.roundCode .rtz m e)) * 2 ^ 16⌋ then 1 else 0))) ∧
  (∀ f ∈ floatFormats, ∀ (code : Nat) (mode : RMode) (sat : Bool), code < 2 ^ f.width → (f.decode code).isFin = true →
    f.encode mode sat (f.decode code) = (code, 0)) ∧
  ((∀ (mode : RMode) (sat : Bool), (fp64.encode mode sat .nan).1 = 0x7FF8000000000000 ∧ (fp32.encode mode sat .nan).1 = 0x7FC00000 ∧
    (bf16.encode mode sat .nan).1 = 0x7FC0 ∧ (e4m3.encode mode sat .nan).1 = 0x7F ∧ (e5m2.encode mode sat .nan).1 = 0x7F) ∧
  (∀ x : Fv, Fv.add .nan x = .nan ∧ Fv.add x .nan = .nan ∧ Fv.mul .nan x = .nan ∧ Fv.mul x .nan = .nan ∧ Fv.max .nan x = .nan ∧ Fv.max x .nan = .nan ∧
    Fv.min .nan x = .nan ∧ Fv.min x .nan = .nan ∧ Fv.div .nan x = .nan ∧ Fv.div x .nan = .nan) ∧
  (∀ (fmt : Nat) (ar : Arith) (first : Nat) (xs : List Fv), Fv.nan ∈ xs → (mxForm fmt ar first xs).1 = 255 ∧ ∀ c ∈ (mxForm fmt ar first xs).2.1, c = 0))

/-- Overflow (R114): a value beyond the largest finite one, and an infinity, are written by the table, with SATURATED for every largest finite value so
written, under RTZ always for a finite value, and for a larger value that another mode rounds down to it. -/
def Obligations.OverflowIsWrittenByTheTable : Prop :=
  ∀ f ∈ [fp32, bf16, e5m2, e4m3], ∀ (mode : RMode) (neg : Bool),
    let largest := f.signBit neg + f.maxCode
    let open_ := if f = e4m3 then (0x7F, fNanOut) else (f.signBit neg + (2 ^ f.eb - 1) * 2 ^ f.mb, fInfOut)
    (∀ (m : Nat) (e : Int), mode ≠ .rtz → f.maxCode < f.roundCode mode m e →
      f.encode mode true (.fin neg m e) = (largest, fSat) ∧ f.encode mode false (.fin neg m e) = open_) ∧
    (∀ (m : Nat) (e : Int) (sat : Bool), f.magnitude f.maxCode < (m : ℚ) * (2 : ℚ) ^ e → f.encode .rtz sat (.fin neg m e) = (largest, fSat)) ∧
    (∀ (m : Nat) (e : Int) (sat : Bool), f.magnitude f.maxCode < (m : ℚ) * (2 : ℚ) ^ e → f.roundCode mode m e = f.maxCode →
      f.encode mode sat (.fin neg m e) = (largest, fSat)) ∧
    f.encode mode true (.inf neg) = (largest, fSat) ∧ f.encode mode false (.inf neg) = open_

/-- E8M0 scales (R93): codes 00h to FEh stand for 2^(code - 127), and FFh for NaN, with which every element of its block reads as NaN. MXINT8 elements
(R95): q stands for q x 2^-6, the code 80h is read as -2.0, and the HX9 never writes that code. Elements of an MX block always saturate (R118): from
finite values no element becomes an infinity or a NaN, and the scale is never FFh. -/
def Obligations.ScalesAndMxElements : Prop :=
  ((∀ code, code < 255 → scaleValue code = .fin false 1 ((code : Int) - 127)) ∧ scaleValue 255 = .nan ∧
  (∀ (t : TDesc) (kind : Nat) (rd : Reader) (i0 i1 i2 i3 : Nat), isMx t.fmt = true → (t.code kind rd i0 i1 i2 i3).2 = 255 → t.value kind rd i0 i1 i2 i3 = .nan)) ∧
  ((∀ code, code < 256 → ∃ neg m, elemValue 9 code = .fin neg m (-6) ∧ (if neg then -(m : Int) else m) = (if code < 128 then (code : Int) else (code : Int) - 256)) ∧
  elemValue 9 0x80 = .fin true 128 (-6) ∧
  (∀ (ar : Arith) (first : Nat) (xs : List Fv), ∀ c ∈ (mxForm 9 ar first xs).2.1, c < 256 ∧ c ≠ 0x80)) ∧
  (∀ (fmt : Nat) (ar : Arith) (first : Nat) (xs : List Fv), isMx fmt = true → (∀ x ∈ xs, x.isFin = true ∧ ∀ neg m e, x = .fin neg m e → fp32.roundCode .rtz m e ≤ fp32.maxCode) →
    (mxForm fmt ar first xs).1 < 255 ∧ ∀ c ∈ (mxForm fmt ar first xs).2.1, (elemValue fmt c).isFin = true)

/-! ### The cores (R106, R107, R124 to R153) -/

/-- MATMUL, VECTOR_OP, REDUCE, MOVE, CONV, POOL, CROP_RESIZE, FACTOR, TRI_SOLVE, QP_SETUP and QP_SOLVE, and GRID_PROJECT, whose checks pass on a running
partition with its cores in service: the operation's slots and descriptors stand on its cores and carry its core-store writes, of the operands as
every earlier operation leaves them (R143), and the packet completes, when they have retired, with the operation's status, INFO and RESULT; a solve
with a deadline ends no earlier than that time (R41). RESULT of a compute packet (R149). Says that exec answers a next state, under conditions on the
state and the operands alone, for: matmul (MATMUL), vectorOp (VECTOR_OP), reduce (REDUCE), move (MOVE), conv (CONV), pool (POOL), cropResize
(CROP_RESIZE), factor (FACTOR), triSolve (TRI_SOLVE), qpSetup (QP_SETUP), qpSolve (QP_SOLVE), gridProject (GRID_PROJECT). -/
def Obligations.ComputeIsPlaced : Prop :=
  (∀ (p : Packet) (s : State) (f : Flight) (c : Caller) (n : Nat) (q : Partition) (x : Work), Packet.ctxNo p ≠ 0xFFFF →
    s.partOf (Packet.ctxNo p) = some (n, q) → q.state = 1 →
    let w := x.dealt
    let t := s.begin_ (.flight f.id) n w
    let placed : Reply := match w.ends with
      | some d => .cut d w.status w.info w.result w.later w.host
      | none => .placed w.status w.info w.result w.later w.host
    s.coreWaits q w = false → w.slots ≠ [] ∨ w.descs ≠ [] →
    (∀ y ∈ computeCommands, s.takes p y.2.1 f c = true → y.2.2 (.flight f.id) (Packet.ctxNo p) n q p s.ahead = .run x →
      exec (y.1 p) s = .next (t.settleReply f.id (s.verOf p y.2.1) placed)) ∧
    (s.takes p 0x704 f c = true → compGrid (.flight f.id) (Packet.ctxNo p) n q p s.ahead = .run x → w.ends = none →
      exec (.gridProject p) s = .next ((t.countUpdate (Packet.fld p 16 1)).settleReply f.id (s.verOf p 0x704) placed)) ∧
    (∀ y ∈ w.slots, { y.2 with tag := s.fresh } ∈ (t.core y.1).slots ++ (t.core y.1).held) ∧
    (∀ y ∈ w.descs, { y.2 with tag := s.fresh } ∈ (t.core y.1).ring ++ (t.core y.1).feed) ∧
    (∀ y ∈ x.slots, y.2.engine.isSome = true → ∀ z ∈ x.core, z.onCore y.1 = true → ∃ v ∈ w.slots, v.1 = y.1 ∧ z ∈ v.2.writes) ∧
    ((∀ z ∈ x.core, ∃ y ∈ x.slots, y.2.engine.isSome = true ∧ z.onCore y.1 = true) → x.met = none → t.stores = s.stores) ∧
    ((t.stats.acc.parts.get? n).getD PartAcc.zero).dispatched = ((s.stats.acc.parts.get? n).getD PartAcc.zero).dispatched + 1) ∧
  (∀ exc cores cycles : Nat, bits (computeResult exc cores cycles) 15 0 = exc % 2 ^ 16 ∧ bits (computeResult exc cores cycles) 23 16 = cores % 256 ∧
    bits (computeResult exc cores cycles) 31 24 = 0 ∧ bits (computeResult exc cores cycles) 63 32 = min cycles 0xFFFFFFFF)

/-- VECTOR_OP ADD, SUB, MUL, MAX and MIN on FP32 rows of one core's store: element i of the result is the exact function of elements i of the sources,
rounded once as ARITH says; no other byte of any memory changes (R107, R112, R128). The packet's command writes nothing yet: the results stand for the
operations after it (R143), and in the store once the slot that carries them has retired (R140, R142). MOVE between two linear tensors of one unscaled
format in one core's store copies their bytes, and no other byte of any memory changes (R117, R148). The copy is the Tongs' alone: it holds one slot
that takes no engine (R142), and its descriptors carry the bytes, which stand when they have retired (R140). -/
def Obligations.RowsOnOneCore : Prop :=
  (∀ (p : Packet) (s : State) (f : Flight) (c : Caller) (n core len a b d : Nat) (q : Partition), s.takes p 0x201 f c = true → onOneCore s p n q core →
    p.len = 4 → Packet.rsvZero p 224 256 = true → Packet.desc p 32 = coreTensor 0 a len 1 0 → Packet.desc p 80 = coreTensor 0 b len 1 0 →
    Packet.desc p 176 = coreTensor 0 d len 1 0 → 0 < len → a % 64 = 0 → b % 64 = 0 → d % 64 = 0 → a + 4 * len ≤ 2 ^ 21 → b + 4 * len ≤ 2 ^ 21 → d + 4 * len ≤ 2 ^ 21 →
    a < 2 ^ 21 → b < 2 ^ 21 → d < 2 ^ 21 →
    ∀ op : Fv → Fv → Fv, (Packet.fld p 24 2 = 1 ∧ op = Fv.add ∨ Packet.fld p 24 2 = 2 ∧ op = Fv.sub ∨ Packet.fld p 24 2 = 3 ∧ op = Fv.mul ∨
        Packet.fld p 24 2 = 6 ∧ op = Fv.max ∨ Packet.fld p 24 2 = 7 ∧ op = Fv.min) →
      let ar := Arith.of (Packet.fld p 19 1) (Packet.fld p 20 4)
      ∃ t : State, exec (.vectorOp p) s = .next t ∧ t.stores = s.stores ∧ (∃ x ∈ (t.core core).slots ++ (t.core core).held, x.owner = .flight f.id ∧ x.engine = some .vector ∧
          x.writes.foldl (fun m w => (m.write w).heal w) s.stores = t.ahead.stores) ∧
        (∀ i, i < len → t.ahead.coreLe core (d + 4 * i) 4 = (fp32.encode (ar.mode i) ar.sat (op (f32 (s.coreLe core (a + 4 * i) 4)) (f32 (s.coreLe core (b + 4 * i) 4)))).1) ∧
        (∀ k, k < coreKey core d ∨ coreKey core d + 4 * len ≤ k → t.ahead.stores.core.read k = s.stores.core.read k) ∧
        t.ahead.stores.region = s.stores.region ∧ t.ahead.stores.tier2 = s.stores.tier2 ∧ t.ahead.stores.xd = s.stores.xd ∧ t.ahead.stores.host = s.stores.host ∧
        t.ahead.stores.ufs = s.stores.ufs) ∧
  (∀ (p : Packet) (s : State) (f : Flight) (c : Caller) (n core len fmt a d : Nat) (q : Partition), s.takes p 0x203 f c = true → onOneCore s p n q core →
    p.len = 2 → Packet.fld p 24 2 = 0 → fmt ≤ 3 → Packet.desc p 32 = coreTensor fmt a len 1 0 → Packet.desc p 80 = coreTensor fmt d len 1 0 →
    0 < len → a % 64 = 0 → d % 64 = 0 → a + len * elemBits fmt / 8 ≤ 2 ^ 21 → d + len * elemBits fmt / 8 ≤ 2 ^ 21 →
    ∃ t : State, exec (.move p) s = .next t ∧ t.stores = s.stores ∧ (∃ d ∈ (t.core core).ring ++ (t.core core).feed, d.owner = .flight f.id) ∧
      (∃ x ∈ (t.core core).slots ++ (t.core core).held, x.owner = .flight f.id ∧ x.engine = none) ∧
      (∀ x ∈ (t.core core).slots ++ (t.core core).held, x ∈ (s.core core).slots ++ (s.core core).held ∨ (x.owner = .flight f.id ∧ x.engine = none ∧ x.writes = [])) ∧
      (∀ i, i < len * elemBits fmt / 8 → t.ahead.stores.core.read (coreKey core (d + i)) = s.stores.core.read (coreKey core (a + i))) ∧
      (∀ x, x < coreKey core d ∨ coreKey core d + len * elemBits fmt / 8 ≤ x → t.ahead.stores.core.read x = s.stores.core.read x) ∧
      t.ahead.stores.region = s.stores.region ∧ t.ahead.stores.tier2 = s.stores.tier2 ∧ t.ahead.stores.xd = s.stores.xd ∧ t.ahead.stores.host = s.stores.host ∧
      t.ahead.stores.ufs = s.stores.ufs)

/-- MATMUL of two BF16 matrices in one core's store into FP32: each element accumulates, in FP32 to nearest even, the exactly summed products of groups of
16 along K in ascending order, the last one filled with +0 (R97), and is converted once as ARITH says; no other byte of any memory changes (R106,
R112). The results stand for the operations after it, and in the store once its slot has retired. The exact sum of a tensor-engine group does not
depend on the order of the products (R106). The order in which partials are combined (R152): one partial stands for itself, and a first run of 2^k of
them is combined before it meets the rest. -/
def Obligations.MatmulOnOneCore : Prop :=
  (∀ (p : Packet) (s : State) (f : Flight) (c : Caller) (n core rows cols k a b d : Nat) (q : Partition), s.takes p 0x200 f c = true → onOneCore s p n q core →
    p.len = 3 → Packet.rsvZero p 176 192 = true → Packet.fld p 24 2 = 0 → Packet.desc p 32 = coreTensor 1 a k rows (2 * k) →
    Packet.desc p 80 = coreTensor 1 b cols k (2 * cols) → Packet.desc p 128 = coreTensor 0 d cols rows (4 * cols) →
    0 < rows → 0 < cols → 0 < k → a % 64 = 0 → b % 64 = 0 → d % 64 = 0 → a + 2 * k * rows ≤ 2 ^ 21 → b + 2 * k * cols ≤ 2 ^ 21 → d + 4 * cols * rows ≤ 2 ^ 21 →
    let ar := Arith.of (Packet.fld p 19 1) (Packet.fld p 20 4)
    let product : Nat → Nat → Nat → Fv := fun i j x => (bf16.decode (s.coreLe core (a + 2 * (k * i + x)) 2)).mul (bf16.decode (s.coreLe core (b + 2 * (cols * x + j)) 2))
    let group : Nat → Nat → Nat → Fv := fun i j g => 
      let sum := ((List.range (min k (16 * g + 16) - (16 * g + 1))).map (fun x => product i j (16 * g + 1 + x))).foldl Fv.add (product i j (16 * g))
      r32 (if 16 * g + 16 ≤ k then sum else sum.add .zero)
    let element : Nat → Nat → Fv := fun i j => (List.range ((k + 15) / 16)).foldl (fun acc g => fadd acc (group i j g)) Fv.zero
    ∃ t : State, exec (.matmul p) s = .next t ∧ t.stores = s.stores ∧ (∃ x ∈ (t.core core).slots ++ (t.core core).held, x.owner = .flight f.id ∧ x.engine = some .tensor ∧
        x.writes.foldl (fun m w => (m.write w).heal w) s.stores = t.ahead.stores) ∧
      (∀ i j, i < rows → j < cols → t.ahead.coreLe core (d + 4 * (cols * i + j)) 4 = (fp32.encode (ar.mode (cols * i + j)) ar.sat (element i j)).1) ∧
      (∀ x, x < coreKey core d ∨ coreKey core d + 4 * cols * rows ≤ x → t.ahead.stores.core.read x = s.stores.core.read x) ∧
      t.ahead.stores.region = s.stores.region ∧ t.ahead.stores.tier2 = s.stores.tier2 ∧ t.ahead.stores.xd = s.stores.xd ∧ t.ahead.stores.host = s.stores.host ∧
      t.ahead.stores.ufs = s.stores.ufs) ∧
  (∀ (x y : Fv) (l k : List Fv), (x :: l).Perm (y :: k) → r32 (l.foldl Fv.add x) = r32 (k.foldl Fv.add y)) ∧
  ((∀ x, treeSum [x] = x) ∧
  (∀ (k : Nat) (a b : List Fv), a.length = 2 ^ k → b ≠ [] → b.length ≤ 2 ^ k → treeSum (a ++ b) = fadd (treeSum a) (treeSum b)))

/-- A core takes operations and descriptors in order, at most 8 in its slots and 64 in its ring; the rest wait behind them (R85, R139, R142). When
something has gone from it, every operation of an engine keeps its slot, the slot of a MOVE by Tongs alone goes with its last descriptor, and what
waits fills the free places in order, when something issues to the core (R18): the CCC of its cluster, or the sequencer of a control-class partition.
OPERATION_ISSUE (R134, R142, R143): the oldest operation that an engine may issue is issued and takes its walkers; one may issue only while its
engines are free, a solve also holding those of its factorisation (R300), enough of the four walkers are free and no earlier slot waits for walkers it
needs, no operation or descriptor placed before it touches a range of its own that either of them writes, and its operands have come in. With none, or
while the core's clock is stopped, nothing changes. Says that exec answers a next state, under conditions on the state and the operands alone, for:
operationIssue (OPERATION_ISSUE). -/
def Obligations.CoresPlaceAndIssue : Prop :=
  ((∀ (c : Core) (o : OpSlot) (d : Desc), c.slots.length ≤ 8 → c.ring.length ≤ 64 →
    (c.place o).slots ++ (c.place o).held = c.slots ++ c.held ++ [o] ∧ (c.place o).slots.length ≤ 8 ∧ (c.place o).ring = c.ring ∧
    (c.queueDesc d).ring ++ (c.queueDesc d).feed = c.ring ++ c.feed ++ [d] ∧ (c.queueDesc d).ring.length ≤ 64 ∧ (c.queueDesc d).slots = c.slots ∧
    c.refill.slots ++ c.refill.held = c.slotsKept ++ c.held ∧ c.refill.ring ++ c.refill.feed = c.ring ++ c.feed ∧ c.refill.slots.length ≤ 8 ∧ c.refill.ring.length ≤ 64 ∧
    (c.refill.held ≠ [] → c.refill.slots.length = 8) ∧ (c.refill.feed ≠ [] → c.refill.ring.length = 64) ∧
    c.slotsKept.Sublist c.slots ∧ (∀ x ∈ c.slots, x ∈ c.slotsKept ↔ x.engine ≠ none ∨ ∃ y ∈ c.ring ++ c.feed, y.owner = x.owner ∧ y.tag = x.tag)) ∧
  (∀ (s : State) (core : Nat) (c : Core), (s.putCore core c).core core = (if s.feeds core then c.refill else c.tidy) ∧
    c.tidy.slots = c.slotsKept ∧ c.tidy.held = c.held ∧ c.tidy.ring = c.ring ∧ c.tidy.feed = c.feed ∧
    (s.feeds core = true ↔ s.cccDown (core / 256) = false ∨ ∃ q, s.sched.partitions.get? (s.partOfCore core) = some q ∧ q.cls = 0))) ∧
  (∀ (s : State) (core : Nat) (e : Sys2Proof.Engine), s.running = true →
    (∀ i, s.issueSlot core e = some i →
      exec (.operationIssue core e) s = .next (s.setCore core ((s.core core).issue i)) ∧
      ((s.core core).issue i).slots = (s.core core).slots.modify i (fun x => { x with issued := true }) ∧
      ∃ x, (s.core core).slots[i]? = some x ∧ x.engine = some e ∧ x.issued = false ∧ s.coreStopped core x.part = false ∧
        (∀ y ∈ (s.core core).slots, y.issued = true → ∀ a ∈ y.engines, a ∉ x.engines) ∧ (s.core core).walkersBusy + x.walkers.length ≤ 4 ∧
        ((s.core core).walkers.length = 4 → ((s.core core).issue i).walkersBusy = (s.core core).walkersBusy + x.walkers.length) ∧
        (x.walkers ≠ [] → ∀ j, j < i → (s.core core).due j = true → (s.core core).short j = false) ∧
        (∀ d ∈ (s.core core).ring ++ (s.core core).feed, d.tag < x.tag → rangesClash d.ranges x.ranges = false) ∧
        (∀ y ∈ (s.core core).slots.take i, ∀ a ∈ y.ranges, ∀ b ∈ x.ranges, a.1 < b.2.1 → b.1 < a.2.1 → a.2.2 = false ∧ b.2.2 = false) ∧
        (∀ d ∈ (s.core core).ring ++ (s.core core).feed, d.tag = x.tag → d.op = 2 ∨ d.op = 5)) ∧
    (s.issueSlot core e = none → exec (.operationIssue core e) s = .next s))

/-- OPERATION_RETIRE (R142, R144): the engine's operation leaves its slot, its core-store writes stand, and its engine time is counted (R38); the core
that combines partial results waits for them (R152); an uncorrectable operand ends its operation with MEM_UNCORRECTABLE instead.
TONGS_DESCRIPTOR_START and TONGS_DESCRIPTOR_RETIRE (R139, R140): descriptors start in ring order, at most eight at once, a PUT not before its
operation has retired, one of a MOVE by Tongs alone with its slot issued, a GATHER or SCATTER with a walker set to its walk, and none while an earlier
operation's range clashes with its own (R143), and retire in ring order, what they write standing from then on. An operation completes when its last
slot and descriptor have retired, and a solve cut by its deadline no earlier than that time (R41): its writes to tier 1 and tier 2 become visible
(R16, R140), the buffers it held are given up, and its completion joins the others. Says that exec answers a next state, under conditions on the state
and the operands alone, for: operationRetire (OPERATION_RETIRE), tongsDescriptorStart (TONGS_DESCRIPTOR_START), tongsDescriptorRetire
(TONGS_DESCRIPTOR_RETIRE). -/
def Obligations.CoresRetire : Prop :=
  (∀ (s : State) (core : Nat) (e : Sys2Proof.Engine), s.running = true →
    (∀ x, s.issuedSlot core e = some x → s.partialsDue core x = true → exec (.operationRetire core e .clean) s = .next s) ∧
    (∀ x, s.issuedSlot core e = some x → s.coreStopped core x.part = false → s.partialsDue core x = false →
      (exec (.operationRetire core e .clean) s = .next (((s.countEngine core x).retireSlot core x).settle) ∧
        ((s.countEngine core x).retireSlot core x).stores = x.writes.foldl (fun m w => (m.write w).heal w) s.stores ∧
        ((s.countEngine core x).stats.acc.parts.get? x.part).map (·.coreTime) =
          some (((s.stats.acc.parts.get? x.part).getD PartAcc.zero).coreTime + x.cycles * 1000000 / s.clockOf (core / 256))) ∧
      (∀ a, x.also = [] →
        let u := (((s.countEngine core x).uncorrectable .core (coreKey core (a % 2097152))).failWork x.owner x.tag St.memUncorrectable).releaseTag x.owner x.tag
        exec (.operationRetire core e (.uncorrectable a)) s = .next u.settle ∧
        (∀ id g, x.owner = .flight id → s.flight? id = some g → s.searchOf id = none → u.flight? id = none ∧ ∃ fin ∈ u.proto.finished, fin.flight = id ∧ fin.status = St.memUncorrectable))) ∧
    (s.coreStopped core (s.partOfCore core) = false →
      (∀ c, (s.core core).startDesc = some c → exec (.tongsDescriptorStart core) s = .next (s.setCore core c) ∧
        ∃ i d w, (s.core core).ring[i]? = some d ∧ d.started = false ∧ c.ring = (s.core core).ring.modify i (fun d => { d with started := true, walker := w }) ∧
          c.held = (s.core core).held ∧ c.feed = (s.core core).feed ∧
          i < 8 ∧ (∀ d ∈ (s.core core).ring.take i, d.started = true) ∧
          (d.order = true → i = 0) ∧
          (d.op = 2 ∨ d.op = 5 → ∀ x ∈ (s.core core).slots ++ (s.core core).held, x.engine ≠ none → ¬(x.owner = d.owner ∧ x.tag = d.tag)) ∧
          (∀ x ∈ (s.core core).held, x.engine = none → ¬(x.owner = d.owner ∧ x.tag = d.tag)) ∧
          (∀ k x, (s.core core).loneOf d = some k → c.slots[k]? = some x → x.issued = true ∧ x.owner = d.owner ∧ x.tag = d.tag) ∧
          (∀ v, d.walk = some v → c.walkers[w]? = some (some (none, d.tag, v))) ∧
          (∀ x ∈ (s.core core).slots ++ (s.core core).held, x.tag < d.tag → rangesClash x.ranges d.ranges = false)) ∧
      ((s.core core).startDesc = none → exec (.tongsDescriptorStart core) s = .next s) ∧
      (∀ d r, (s.core core).ring = d :: r → d.started = true →
        let u := (s.apply (d.made core)).putCore core { s.core core with ring := r }
        (d.window = none → exec (.tongsDescriptorRetire core .clean) s = .next u.settle) ∧
        (∀ w, d.window = some w → exec (.tongsDescriptorRetire core .clean) s = .next (u.windowRead w.1 w.2.1 w.2.2).settle)) ∧
      (∀ d r, (s.core core).ring = d :: r → d.started = false → exec (.tongsDescriptorRetire core .clean) s = .next s))) ∧
  (∀ (s : State) (f : Flight), s.proto.flights.filter (fun f => f.placed && !f.late && !s.busyFor (.flight f.id)) = [f] →
    let u := match f.deadline with
      | some d => s.reach d
      | none => s
    s.settlePlaced = ((u.apply f.writes).unhold (.flight f.id)).finishFull f.id f.status f.info f.result none f.hostWrites [])

/-! ### Memory tiers (R154 to R180) -/

/-- REGION_ALLOC, taken and with its checks passed, makes a region of whole 64 KiB granules that reads as zero, a window of host memory behind the host
link of the context's function (R334), or an allocation of tier-2 pages at a free place of the context's space, and answers its handle or address
(R158, R162, R171). REGION_FREE of a region or window that no packet at work names, and of an allocation whose pages none names: the region is gone
and reads as zero, the allocation and its pages are gone, and the packet completes with OK (R264, R446). Says that exec answers a next state, under
conditions on the state and the operands alone, for: regionAlloc (REGION_ALLOC), regionFree (REGION_FREE). -/
def Obligations.RegionsAndAllocations : Prop :=
  (∀ (p : Packet) (s : State) (f : Flight) (c : Caller), s.takes p 0x301 f c = true → regionAllocChecks c p s = none → 0 < Packet.fld p 24 8 →
    let n := Packet.ctxNo p
    let g := ceilDiv (Packet.fld p 24 8) 65536
    (Packet.fld p 16 1 = 1 ∨ Packet.fld p 16 1 = 3 → (∃ h, h < 4096 ∧ s.tiers.regions.get? h = none) →
      (Packet.fld p 16 1 = 1 → s.granules (Packet.fld p 17 1) none + g ≤ 176 ∧
        ∀ x, s.partOf n = some x → s.granules (Packet.fld p 17 1) (some n) + g ≤ x.2.regionCeil) →
      (Packet.fld p 16 1 = 3 → (s.tiers.regions.filter (fun kv => kv.2.window && decide (kv.2.ctx = n))).length < 16) →
      ∃ (h : Nat) (r : Region), h < 4096 ∧ s.tiers.regions.get? h = none ∧
        r = (if Packet.fld p 16 1 = 1 then ⟨n, false, Packet.fld p 17 1, g * 65536, bit (Packet.fld p 19 1) 0, 0, c.fn, none⟩
             else ⟨n, true, 0, Packet.fld p 24 8, false, Packet.fld p 32 8, s.ctxFn n c.fn, none⟩) ∧
        exec (.regionAlloc p) s = .next ((State.zeroFill { s.bump with tiers := { s.tiers with regions := s.tiers.regions.set h r } }
          .region (regionKey h 0) 16777216).okWith f (s.verOf p 0x301) h)) ∧
    (Packet.fld p 16 1 = 2 → s.underCeiling n g = true → s.pagesAhead f.id = false → s.t2Room (halvesOf (Packet.fld p 18 1) g) Halves.zero = true → s.placesFor n g ≠ [] →
      ∃ (base : Nat) (t : State), base ∈ s.placesFor n g ∧ t.tiers.allocs = s.tiers.allocs ++ [⟨n, base, g, Packet.fld p 18 1, none⟩] ∧
        t.stores = s.stores ∧ t.tiers.regions = s.tiers.regions ∧ (∀ m, m ≠ n → t.tiers.pages.get? m = s.tiers.pages.get? m) ∧ t.proto = s.proto ∧
        exec (.regionAlloc p) s = .next (t.okWith f (s.verOf p 0x301) (base * 65536)))) ∧
  (∀ (p : Packet) (s : State) (f : Flight) (c : Caller), s.takes p 0x302 f c = true → regionFreeChecks c p s = none → (∀ g ∈ s.proto.flights, g.id = f.id → g = f) →
    (∀ kv ∈ s.tiers.regions, kv.2.freeing = none) → (∀ a ∈ s.tiers.allocs, a.freeing = none) → Tab.wf s.tiers.regions = true → (∀ kv ∈ s.sched.models, kv.2.flight = none) →
    let h := Packet.fld p 24 8
    (Packet.fld p 16 1 ≠ 2 → s.inWork.any (fun x => decide (x.1 ≠ 0x302) && namesHandle x.1 x.2 h) = false → ∃ (t : State) (fin : Finished), exec (.regionFree p) s = .next t ∧
      t.tiers.regions.get? h = none ∧ (∀ k, k ≠ h → t.tiers.regions.get? k = s.tiers.regions.get? k) ∧
      (∀ i, i < 2 ^ 24 → t.stores.region.read (regionKey h i) = 0) ∧ (∀ a, a < regionKey h 0 ∨ regionKey (h + 1) 0 ≤ a → t.stores.region.read a = s.stores.region.read a) ∧
      t.stores.core = s.stores.core ∧ t.stores.tier2 = s.stores.tier2 ∧ t.stores.host = s.stores.host ∧
      t.proto.finished = s.proto.finished ++ [fin] ∧ fin.flight = f.id ∧ fin.status = St.ok ∧ fin.result = 0) ∧
    (∀ a, Packet.fld p 16 1 = 2 → s.allocAt (Packet.ctxNo p) h = some a → a.inWork s = false → ∃ (t : State) (fin : Finished), exec (.regionFree p) s = .next t ∧
      t.tiers.allocs = s.tiers.allocs.filter (fun x => ¬(x.ctx = Packet.ctxNo p ∧ x.base = h / 65536)) ∧
      (∀ v g, t.page? (Packet.ctxNo p) v = some g → g.base ≠ h / 65536) ∧ (∀ m, m ≠ Packet.ctxNo p → t.tiers.pages.get? m = s.tiers.pages.get? m) ∧
      t.stores.region = s.stores.region ∧ t.stores.core = s.stores.core ∧ t.stores.host = s.stores.host ∧
      t.proto.finished = s.proto.finished ++ [fin] ∧ fin.flight = f.id ∧ fin.status = St.ok ∧ fin.result = 0))

/-- A plain TILE_MOVE between two regions of the context, or between a region and the core store, which no earlier operation on the core and no window
keeps waiting (R143, R178), at a level below E3 or for a control-class partition (R438), copies COUNT tiles of TILE_BYTES at their pitches, and
answers the count; no other byte of any memory changes (R172). A weight copy goes to a core store or a weight region only (R16), and ranges that
overlap are BAD_PARAM. BELLOWS_START with REPEAT above zero, while the processors of its clusters run, begins a stream of the schedule's layers, each
window one position in pass 1, and stays in flight; BELLOWS_STOP with no packet waiting on its windows ends it: the stream's own flight completes with
ABORTED and its passes and layers, then the BELLOWS_STOP with OK; a packet that waits on its windows ends with ABORTED (R175 to R177).
BELLOWS_TILE_FETCH of a tile that is not packed, with its place EMPTY and its bytes readable: the tile's bytes stand in the window's slot of its
layer, the position moves to its next entry, and its consumers' reads are awaited; no other memory changes (R178). MAINTENANCE_SLOT moves the stack's
delay tap by at most one step, and only once in a frame (R170), whatever its scrub met; an error that the scrub met is corrected or poisons a line of
its frame that lies on that stack (R444, R447). Nothing is maintained in standby (R428), and no stream fetches at level E3 (R438). Says that exec
answers a next state, under conditions on the state and the operands alone, for: tileMove (TILE_MOVE), bellowsStart (BELLOWS_START), bellowsStop
(BELLOWS_STOP), bellowsTileFetch (BELLOWS_TILE_FETCH), maintenanceSlot (MAINTENANCE_SLOT). -/
def Obligations.TilesAndSchedules : Prop :=
  (∀ (p : Packet) (s : State) (f : Flight) (c : Caller) (x d : Side) (core : Nat), s.takes p 0x300 f c = true → tileMoveChecks c p s = none → Packet.fld p 35 1 = 0 →
    s.stores.poison = [] → (Packet.fld p 32 1 = 0 ∨ Packet.fld p 32 1 = 1) → (Packet.fld p 33 1 = 0 ∨ Packet.fld p 33 1 = 1) →
    (Packet.fld p 32 1 = 0 ∨ Packet.fld p 33 1 = 0 → moveCore s (Packet.ctxNo p) p = some core ∧ ∀ y, s.partOf (Packet.ctxNo p) = some y → y.2.state = 1 ∧ s.coreHeld y.2.cls core = false) →
    let n := Packet.fld p 36 4
    let count := Packet.fld p 40 4
    let sp := Packet.fld p 44 4
    let dp := Packet.fld p 48 4
    s.moveSide (Packet.ctxNo p) ((moveCore s (Packet.ctxNo p) p).getD 0) (Packet.fld p 32 1) (Packet.fld p 16 8) ⟨count, sp, n⟩ false = .ok x →
    s.moveSide (Packet.ctxNo p) ((moveCore s (Packet.ctxNo p) p).getD 0) (Packet.fld p 33 1) (Packet.fld p 24 8) ⟨count, dp, n⟩ true = .ok d →
    (s.sidesMeet x d (Tiles.span ⟨count, sp, n⟩) (Tiles.span ⟨count, dp, n⟩) = true ∨ (x.readOnly = true ∧ d.loc ≠ 0 ∧ d.weight = false) →
      exec (.tileMove p) s = .next (s.ends f (s.verOf p 0x300) St.badParam 0 0)) ∧
    (s.sidesMeet x d (Tiles.span ⟨count, sp, n⟩) (Tiles.span ⟨count, dp, n⟩) = false → (x.readOnly = true → d.loc = 0 ∨ d.weight = true) →
    (s.power.applied < 3 ∨ ∃ y, s.partOf (Packet.ctxNo p) = some y ∧ y.2.cls = 0) → (x.loc = 1 → Tiles.any ⟨count, sp, n⟩ x.base (s.windowLacks x.handle) = false) →
    s.tilesAfter core x ⟨count, sp, n⟩ false = false → s.tilesAfter core d ⟨count, dp, n⟩ true = false →
    0 < n → 0 < count → (n ≤ dp ∨ count = 1) →
    let src := fun k => if x.loc = 0 then s.stores.core.read (coreKey core (x.base + k)) else s.stores.region.read (regionKey x.handle (x.base + k))
    let at_ := if d.loc = 0 then coreKey core d.base else regionKey d.handle d.base
    let before := if d.loc = 0 then s.stores.core else s.stores.region
    ∃ t : State, exec (.tileMove p) s = .next (t.okWith f (s.verOf p 0x300) count) ∧
      (let after := if d.loc = 0 then t.stores.core else t.stores.region
       (∀ i j, i < count → j < n → after.read (at_ + i * dp + j) = src (i * sp + j)) ∧
       (∀ a, (∀ i j, i < count → j < n → a ≠ at_ + i * dp + j) → after.read a = before.read a)) ∧
      (d.loc = 0 → t.stores.region = s.stores.region) ∧ (d.loc ≠ 0 → t.stores.core = s.stores.core) ∧
      t.stores.tier2 = s.stores.tier2 ∧ t.stores.xd = s.stores.xd ∧ t.stores.host = s.stores.host ∧ t.stores.ufs = s.stores.ufs)) ∧
  (∀ (p : Packet) (s : State) (f : Flight) (c : Caller),
    (∀ x, s.takes p 0x303 f c = true → bellowsStartChecks c p s = none → s.partOf (Packet.ctxNo p) = some x → 0 < Packet.fld p 36 4 → x.2.state = 1 →
      (x.2.cls = 0 ∨ ∀ k ∈ x.2.clusters, s.procDown (8 + k) = false) →
      ∃ (t : State) (b : Bellows), exec (.bellowsStart p) s = .next t ∧ t.tiers.bellows = s.tiers.bellows.set (bellowsWindow p 0) b ∧
        b.ctx = Packet.ctxNo p ∧ b.part = x.1 ∧ b.flight = f.id ∧ b.sched = Packet.fld p 16 8 ∧ b.image = Packet.fld p 24 8 ∧ b.k = Packet.fld p 32 1 ∧
        b.repeat_ = Packet.fld p 36 4 ∧ b.positions.map (fun q => (q.window, q.cluster, q.pass, q.entry, q.tiles)) =
          (List.range (Packet.fld p 33 1)).map (fun i => (bellowsWindow p i, x.2.clusters.getD i 0, 1, 0, [])) ∧
        t.proto.finished = s.proto.finished ∧ t.stores = s.stores ∧ t.tiers.regions = s.tiers.regions) ∧
    (∀ b, s.takes p 0x304 f c = true → bellowsStopChecks c p s = none → s.tiers.bellows.get? (Packet.fld p 16 2) = some b →
      (∀ g ∈ s.proto.flights, g.parked = false) →
      exec (.bellowsStop p) s = .next ((State.finish { s with tiers := { s.tiers with bellows := s.tiers.bellows.erase (Packet.fld p 16 2), stopped := s.tiers.stopped ++ b.positions } } b.flight St.aborted (if b.ecc then Inf.eccCorrected else 0) (b.result s)).okWith f
        (s.verOf p 0x304) 0)) ∧
    (∀ b, s.takes p 0x304 f c = true → bellowsStopChecks c p s = none → s.tiers.bellows.get? (Packet.fld p 16 2) = some b →
      ∃ t : State, exec (.bellowsStop p) s = .next t ∧ t.tiers.bellows.get? (Packet.fld p 16 2) = none ∧
        (∀ g ∈ s.proto.flights, g.parked = true → g.pages = false → g.id ≠ f.id → s.readsLacking (b.positions.map (·.window)) g.opcode g.pkt = true →
          ∃ fin ∈ t.proto.finished, fin.flight = g.id ∧ fin.status = St.aborted ∧ fin.result = 0))) ∧
  (∀ (s : State), s.running = true →
    (∀ (stream i : Nat) (b : Bellows) (q : BellowsPos), s.tiers.bellows.get? stream = some b → b.positions[i]? = some q → s.classGated (s.partClass b.part) = false → s.power.applied < 3 →
      s.t2Barred b.ctx = false → s.stores.poison = [] → (q.pass ≤ b.repeat_ ∨ b.repeat_ = 0xFFFFFFFF) → q.tiles = [] → 0 < (b.head s).counts.getD i 0 →
      let e := (b.head s).entry (s.t2Reader b.ctx b.sched) i q.entry
      let g := (q.pass - 1) * b.layers + e.layer
      let dst := g % b.k * q.slotSize + (((((List.range q.entry).map ((b.head s).entry (s.t2Reader b.ctx b.sched) i)).filter (fun x => decide (x.layer = e.layer))).map (·.out4k)).foldl (· + ·) 0) * 4096
      e.decode = false → e.layer < b.layers → dst + e.out4k * 4096 ≤ (g % b.k + 1) * q.slotSize → 0 < e.srcBytes → e.srcBytes ≤ e.out4k * 4096 → s.t2Mapped b.ctx (b.image + e.src) e.srcBytes = true → s.t2Evicted b.ctx (b.image + e.src) e.srcBytes = false →
      ∃ t : State, exec (.bellowsTileFetch stream i .clean) s = .next t.settle ∧
        (∀ k, k < e.srcBytes → t.stores.region.read (regionKey q.window dst + k) = (s.t2Read b.ctx (b.image + e.src) e.srcBytes).getD k 0) ∧
        (∀ a, a < regionKey q.window dst ∨ regionKey q.window dst + e.srcBytes ≤ a → t.stores.region.read a = s.stores.region.read a) ∧
        t.stores.core = s.stores.core ∧ t.stores.tier2 = s.stores.tier2 ∧
        t.tiers.bellows.get? stream = some { b with positions := b.positions.modify i (fun q =>
          { q.next ((b.head s).counts.getD i 0) with tiles := [⟨dst, e.out4k * 4096, e.consumers, g, true⟩] }) }) ∧
    (∀ (stack : Nat) (margin : Int), (stacksOf s.order).contains stack = true → s.power.standby = false → ∃ t : State, exec (.maintenanceSlot stack margin .none) s = .next t ∧
      (∀ fr, exec (.maintenanceSlot stack margin (.corrected fr)) s = .next ((t.count (fun c => c.bump .tier2 false)).frameCorrects stack fr) ∧
        exec (.maintenanceSlot stack margin (.uncorrectable fr)) s = .next (t.uncorrectable .tier2 (t.lineOn stack fr)) ∧
        (t.lineOn stack fr / 65536 = fr) ∧ ((∃ i, i < 16 ∧ t.stackOf (fr * 65536 + 4096 * i) = stack) → t.stackOf (t.lineOn stack fr) = stack)) ∧
      (let old := (s.tiers.taps.get? stack).getD 0
       let new := (t.tiers.taps.get? stack).getD 0
       (new - old ≤ 1 ∧ old - new ≤ 1) ∧ (s.tiers.trained.get? stack = some s.frameNo → t = s) ∧
       (s.tiers.trained.get? stack ≠ some s.frameNo → t.tiers.trained.get? stack = some s.frameNo ∧ (margin < 0 → new = old - 1) ∧ (margin = 0 → new = old) ∧ (0 < margin → new = old + 1))) ∧
      { t with tiers := { t.tiers with taps := s.tiers.taps, trained := s.tiers.trained } } = s) ∧
    (∀ (stack : Nat) (margin : Int) (r : Sys2Proof.ScrubResult), s.power.standby = true → exec (.maintenanceSlot stack margin r) s = .next s) ∧
    (∀ (stream i : Nat) (m : Sys2Proof.MemOutcome), 3 ≤ s.power.applied → exec (.bellowsTileFetch stream i m) s = .next s))

/-! ### Sequences and their pages (R181 to R212) -/

/-- PT_CREATE makes an empty ACTIVE sequence of the packet's shape and answers its handle and tokens per page; PT_DESTROY frees its pages, which read as
zero, and the sequence; SWAP_POOL_REGISTER makes a pool of free slots under the number in RESULT (R183, R203, R211). VERIFY_COMMIT of MODE 0 moves the
accepted entries from the tail to the committed length, drops the rest, answers their count, and frees the pages wholly above, and of MODE 1 it
accepts the longest agreeing run of drafts besides KEEP_BASE and answers the next token; SEQ_PREEMPT of an idle ACTIVE sequence discards its tail and,
with no page left to swap, leaves it PREEMPTED; SEQ_RESUME of a PREEMPTED sequence with nothing swapped leaves it ACTIVE (R193, R206 to R208). Says
that exec answers a next state, under conditions on the state and the operands alone, for: ptCreate (PT_CREATE), ptDestroy (PT_DESTROY), verifyCommit
(VERIFY_COMMIT), seqPreempt (SEQ_PREEMPT), seqResume (SEQ_RESUME), swapPoolRegister (SWAP_POOL_REGISTER). -/
def Obligations.Sequences : Prop :=
  (∀ (p : Packet) (s : State) (f : Flight) (c : Caller),
    (s.takes p 0x402 f c = true → ptCreateChecks c p s = none → 0 < Packet.fld p 24 4 → (∃ h, h < 4096 ∧ s.kv.seqs.get? h = none) →
      ∃ (t : State) (h : Nat) (q : Seq), h < 4096 ∧ s.kv.seqs.get? h = none ∧ t.kv.seqs.get? h = some q ∧ (∀ k, k ≠ h → t.kv.seqs.get? k = s.kv.seqs.get? k) ∧
        q.ctx = Packet.ctxNo p ∧ q.layers = Packet.fld p 16 2 ∧ q.kvHeads = Packet.fld p 18 1 ∧ q.fmt = Packet.fld p 19 1 ∧ q.headDim = Packet.fld p 20 2 ∧
        q.byHead = decide (Packet.fld p 22 1 = 1) ∧ q.prio = Packet.fld p 23 1 ∧ q.maxTokens = Packet.fld p 24 4 ∧ q.swappable = decide (Packet.fld p 28 1 = 1) ∧
        q.state = 1 ∧ q.committed = 0 ∧ q.tail = 0 ∧ q.pages = [] ∧ t.stores = s.stores ∧ t.tiers = s.tiers ∧ t.proto = s.proto ∧
        exec (.ptCreate p) s = .next (t.okWith f (s.verOf p 0x402) (h + 65536 * q.tokens))) ∧
    (∀ q, s.takes p 0x403 f c = true → ptDestroyChecks c p s = none → s.seq? (Packet.fld p 16 2) = some q → q.preemptFlight = none → q.resumeFlight = none →
      s.destroyWaits f.id (Packet.fld p 16 2) = false →
      ∃ t : State, exec (.ptDestroy p) s = .next (t.ends f (s.verOf p 0x403) St.ok q.info 0) ∧ t.kv.seqs = s.kv.seqs.erase (Packet.fld p 16 2) ∧ t.proto = s.proto ∧
        (∀ kv ∈ q.pages, kv.2.state ≠ 2 → ∀ i, i < 65536 → t.stores.tier2.read (kv.2.frame * 65536 + i) = 0) ∧
        t.stores.core = s.stores.core ∧ t.stores.region = s.stores.region ∧ t.stores.host = s.stores.host ∧ t.tiers.pages = s.tiers.pages) ∧
    (s.takes p 0x408 f c = true → poolChecks c p s = none → 0 < Packet.fld p 32 4 → (Packet.fld p 36 1 = 0xFF → ∃ k, k < 8 ∧ s.kv.pools.get? k = none) →
      ∃ k, (Packet.fld p 36 1 ≠ 0xFF → k = Packet.fld p 36 1) ∧ k < 8 ∧ s.kv.pools.get? k = none ∧
        exec (.swapPoolRegister p) s = .next (State.okWith { s.bump with kv := { s.kv with pools := s.kv.pools.set k ⟨c.fn, Packet.fld p 16 8, Packet.fld p 24 8, Packet.fld p 32 4, []⟩ } } f (s.verOf p 0x408) k))) ∧
  (∀ (p : Packet) (s : State) (f : Flight) (c : Caller) (q : Seq), s.seq? (Packet.fld p 16 2) = some q → (∀ g ∈ s.proto.flights, g.id = f.id → g = f) →
    (∀ g ∈ s.proto.flights, g ≠ f → kvSeqOf g.opcode g.pkt ≠ some (Packet.fld p 16 2)) →
    let h := Packet.fld p 16 2
    let a := Packet.fld p 20 4
    (s.takes p 0x405 f c = true → verifyChecks c p s = none → Packet.fld p 18 1 = 0 → a ≤ q.tail → q.state = 1 → 0 < q.tail →
      ∃ (t : State) (q' : Seq), exec (.verifyCommit p) s = .next (t.ends f (s.verOf p 0x405) St.ok q.info (a % 256 + 256 * (a % 256))) ∧ t.seq? h = some q' ∧
        q'.committed = q.committed + a ∧ q'.tail = 0 ∧ q'.state = 1 ∧ (∀ kv ∈ q'.pages, kv ∈ q.pages ∧ q.firstPos kv.1 < q.committed + a) ∧
        (∀ k, k ≠ h → t.seq? k = s.seq? k) ∧ t.stores.core = s.stores.core ∧ t.stores.region = s.stores.region ∧ t.stores.host = s.stores.host) ∧
    (∀ n part x y core, s.takes p 0x405 f c = true → verifyChecks c p s = none → Packet.fld p 18 1 = 1 → q.state = 1 → 0 < q.tail → 0 < Packet.fld p 25 1 →
      Packet.fld p 19 1 + Packet.fld p 25 1 ≤ q.tail → s.partOf q.ctx = some (n, part) → part.state = 1 → s.stores.poison = [] →
      let at_ := decide ((Packet.desc p 32).loc = 0 ∨ (Packet.desc p 80).loc = 0)
      (at_ = true → Packet.fld p 24 1 < part.inService ∧ s.coreHeld part.cls core = false) → (if at_ then part.coreAt (Packet.fld p 24 1) else some 0) = some core →
      s.ahead.src q.ctx n part 1 (Packet.desc p 32) = .ok x → s.ahead.src q.ctx n part 1 (Packet.desc p 80) = .ok y →
      s.srcFits q.ctx n part [1, 3] x [core] = true → s.srcFits q.ctx n part [1, 3] y [core] = true →
      s.windowWaits (Packet.desc p 32) (s.windowSpan (Packet.desc p 32)) = false → s.windowWaits (Packet.desc p 80) (s.windowSpan (Packet.desc p 80)) = false →
      let drafts := (List.range (Packet.fld p 25 1)).map (fun i => x.at_ Arith.rne 1 core i 0 0 0)
      let targets := (List.range (Packet.fld p 25 1 + 1)).map (fun i => y.at_ Arith.rne 1 core i 0 0 0)
      let kept := Packet.fld p 19 1 + agree drafts targets
      exec (.verifyCommit p) s = .next (((s.useSeq h).commitTail h kept).ends f (s.verOf p 0x405) St.ok q.info
        (agree drafts targets + 256 * kept + 2 ^ 32 * tokenOf (targets.getD (agree drafts targets) .nan)))) ∧
    (s.takes p 0x406 f c = true → seqOpChecks c p s = none → q.swappable = true → q.state = 1 → (∀ kv ∈ q.pages, kv.2.state = 1 → q.committed ≤ q.firstPos kv.1) → q.swapStarted = false →
      ∃ (t : State) (q' : Seq) (fin : Finished), exec (.seqPreempt p) s = .next t ∧ t.seq? h = some q' ∧ q'.state = 3 ∧ q'.tail = 0 ∧ q'.committed = q.committed ∧
        q'.tailDiscarded = (q.tailDiscarded || decide (q.tail ≠ 0)) ∧ (∀ k, k ≠ h → t.seq? k = s.seq? k) ∧
        t.proto.finished = s.proto.finished ++ [fin] ∧ fin.flight = f.id ∧ fin.status = St.ok ∧ fin.info = q'.info) ∧
    (s.takes p 0x407 f c = true → seqOpChecks c p s = none → q.state = 3 → (∀ kv ∈ q.pages, kv.2.lost = false ∧ kv.2.state ≠ 2) → s.underCeiling q.ctx 0 = true →
      ∃ (t : State) (q' : Seq), exec (.seqResume p) s = .next (t.ends f (s.verOf p 0x407) St.ok q.info 0) ∧ t.seq? h = some q' ∧ q'.state = 1 ∧ q'.tailDiscarded = false ∧
        q'.committed = q.committed ∧ q'.pages = q.pages ∧ (∀ k, k ≠ h → t.seq? k = s.seq? k) ∧ t.stores = s.stores))

/-- KV_APPEND whose pages can be had, ATTENTION and ATTENTION_BACKWARD, whose operands can be used on a running partition, run on their cores: the packet
stays in flight with its slots and descriptors on the cores, which carry its writes, of the operands as every earlier operation leaves them (R143,
R189, R190, R194, R202). With nothing to append, no query or no key they complete with ZERO_WORK (R212). Says that exec answers a next state, under
conditions on the state and the operands alone, for: kvAppend (KV_APPEND), attention (ATTENTION), attentionBackward (ATTENTION_BACKWARD). -/
def Obligations.SequenceWorkIsPlaced : Prop :=
  ∀ (p : Packet) (s : State) (f : Flight) (c : Caller) (q : Seq) (n : Nat) (part : Partition), s.seq? (Packet.fld p 16 2) = some q → s.partOf (Packet.ctxNo p) = some (n, part) →
    s.flight? f.id = some f → q.state = 1 → part.state = 1 → s.t2Refused n part = false → s.seqWaits f.id (Packet.fld p 16 2) false = false → s.stores.poison = [] →
    (∀ ko vo core, s.takes p 0x404 f c = true → kvAppendChecks c p s = none → Packet.fld p 18 2 < q.layers → (Packet.desc p 32).d0 = q.headDim → (Packet.desc p 32).d2 = q.kvHeads →
      Packet.fld p 30 1 < part.inService → part.coreAt (Packet.fld p 30 1) = some core →
      appendPosition q (bit (Packet.fld p 28 1) 0) (Packet.fld p 20 4) (Packet.desc p 32).d1 = none →
      s.ahead.src (Packet.ctxNo p) n part 1 (Packet.desc p 32) = .ok ko → s.ahead.src (Packet.ctxNo p) n part 1 (Packet.desc p 80) = .ok vo →
      ((Packet.desc p 32).isEmpty = true → exec (.kvAppend p) s = .next (s.ends f (s.verOf p 0x404) St.ok (Inf.zeroWork ||| q.info) q.ct)) ∧
      ((Packet.desc p 32).isEmpty = false → s.coreHeld part.cls core = false →
        s.srcFits (Packet.ctxNo p) n part [1, 3] ko [core] = true → s.srcFits (Packet.ctxNo p) n part [1, 3] vo [core] = true →
        s.windowWaits (Packet.desc p 32) (s.windowSpan (Packet.desc p 32)) = false → s.windowWaits (Packet.desc p 80) (s.windowSpan (Packet.desc p 80)) = false →
        (let miss := q.missing (Packet.fld p 18 2) (Packet.fld p 20 4) (Packet.desc p 32).d1
         ∀ u, s.underCeiling q.ctx miss.length = true → s.provide f.id q.prio (some (Packet.fld p 16 2)) (sumHalves (miss.map (fun x => halvesOf x.2 1))) = .ready u →
          exec (.kvAppend p) s = .next (let r := ((u.addKvPages (Packet.fld p 16 2) miss).useSeq (Packet.fld p 16 2)).appendWork f.id (Packet.ctxNo p) n core (Packet.fld p 16 2) p ko vo
            r.1.settleReply f.id (s.verOf p 0x404) r.2)) ∧
        (q.missing (Packet.fld p 18 2) (Packet.fld p 20 4) (Packet.desc p 32).d1 = [] → s.underCeiling q.ctx 0 = true →
          ∃ (t : State) (g : Flight) (q' : Seq), exec (.kvAppend p) s = .next t ∧ t.flight? f.id = some g ∧ g.running = true ∧ g.placed = true ∧ g.late = true ∧
            t.seq? (Packet.fld p 16 2) = some q' ∧ q'.pages = q.pages ∧
            (∃ x ∈ (t.core core).slots ++ (t.core core).held, x.owner = .flight f.id ∧ x.engine = some .vector) ∧
            (∀ w ∈ (q'.kvWrites false (Packet.fld p 18 2) (Packet.fld p 20 4) ko core (Arith.of (Packet.fld p 29 1) 0)).1 ++
                (q'.kvWrites true (Packet.fld p 18 2) (Packet.fld p 20 4) vo core (Arith.of (Packet.fld p 29 1) 0)).1,
              ∃ d ∈ (t.core core).ring ++ (t.core core).feed, d.owner = .flight f.id ∧ w ∈ d.writes) ∧
            t.stores = s.stores ∧ t.proto.finished = s.proto.finished))) ∧
    (∀ qo reg, s.takes p 0x400 f c = true → attentionChecks c p s = none → attentionFits p q part = true →
      ((Att.of p q).kvEnd ≠ 0 → (Att.of p q).ksplit ≤ (Att.of p q).pages) → s.ahead.src (Packet.ctxNo p) n part 1 (Packet.desc p 80) = .ok qo →
      s.destOk (Packet.ctxNo p) n part (Packet.desc p 128) ((Packet.desc p 128).extent (tileKindOf (Packet.desc p 128).fmt)) = none →
      s.scratchRegion (Packet.ctxNo p) (Packet.fld p 64 2) = .ok reg →
      (bit (Packet.fld p 22 1) 1 = true → s.t2Writable (Packet.ctxNo p) (Packet.fld p 56 8) (Att.of p q).recordBytes = true) →
      ((Att.of p q).qTokens = 0 ∨ (Att.of p q).kvEnd = 0 →
        exec (.attention p) s = .next ((s.useSeq (Packet.fld p 16 2)).ends f (s.verOf p 0x400) St.ok (Inf.zeroWork ||| q.info) (2 ^ 32 * (Att.of p q).kvEnd))) ∧
      (∀ cores w, 0 < (Att.of p q).qTokens → 0 < (Att.of p q).kvEnd →
        part.cores (Packet.fld p 20 1) (q.kvHeads * (Att.of p q).ksplit) = some cores → s.srcFits (Packet.ctxNo p) n part [1] qo cores = true → cores.any (s.coreHeld part.cls) = false →
        s.windowWaits qo.desc (s.windowSpan qo.desc) = false →
        (Att.of p q).work s f.id (Packet.ctxNo p) n (Packet.fld p 16 2) cores qo (Packet.desc p 128) ⟨Packet.fld p 44 4, Packet.fld p 48 8, reg⟩
          (if bit (Packet.fld p 22 1) 1 then some (Packet.fld p 56 8) else none) = .ok w →
        exec (.attention p) s = .next (((s.useSeq (Packet.fld p 16 2)).begin_ (.flight f.id) n w.dealt).settleReply f.id (s.verOf p 0x400) (.placed w.status w.info w.result w.dealt.later w.host)))) ∧
    (∀ go qo reg, s.takes p 0x401 f c = true → backwardChecks c p s = none →
      let rd := s.t2Reader (Packet.ctxNo p) (Packet.fld p 32 8)
      let a := recAtt rd q (Arith.of (Packet.fld p 21 1) (Packet.fld p 24 4))
      let ok := fun o => s.destOk (Packet.ctxNo p) n part (Packet.desc p o) ((Packet.desc p o).extent (tileKindOf (Packet.desc p o).fmt))
      s.t2Mapped (Packet.ctxNo p) (Packet.fld p 32 8) 64 = true → backwardFits p q part a rd = true → s.t2Mapped (Packet.ctxNo p) (Packet.fld p 32 8) a.recordBytes = true →
      s.ahead.src (Packet.ctxNo p) n part 1 (Packet.desc p 64) = .ok go → s.ahead.src (Packet.ctxNo p) n part 1 (Packet.desc p 112) = .ok qo → ok 160 = none → ok 208 = none → ok 256 = none →
      s.scratchRegion (Packet.ctxNo p) (Packet.fld p 48 2) = .ok reg →
      (a.rows = 0 ∨ a.kvEnd = 0 → exec (.attentionBackward p) s = .next ((s.useSeq (Packet.fld p 16 2)).ends f (s.verOf p 0x401) St.ok (Inf.zeroWork ||| q.info) 0)) ∧
      (∀ cores w, 0 < a.rows → 0 < a.kvEnd → part.cores (Packet.fld p 20 1) q.kvHeads = some cores →
        s.srcFits (Packet.ctxNo p) n part [1] go cores = true → s.srcFits (Packet.ctxNo p) n part [1] qo cores = true → cores.any (s.coreHeld part.cls) = false →
        s.windowWaits go.desc (s.windowSpan go.desc) = false → s.windowWaits qo.desc (s.windowSpan qo.desc) = false →
        a.backwardWork s f.id (Packet.ctxNo p) n (Packet.fld p 32 8) rd cores go qo (Packet.desc p 160) (Packet.desc p 208) (Packet.desc p 256) ⟨Packet.fld p 28 4, Packet.fld p 40 8, reg⟩ = .ok w →
        exec (.attentionBackward p) s = .next (((s.useSeq (Packet.fld p 16 2)).begin_ (.flight f.id) n w.dealt).settleReply f.id (s.verOf p 0x401) (.placed w.status w.info w.result w.dealt.later w.host))))

/-- SWAP_OUT_PAGE moves a page of a victim to its pool's slot, encrypted under the context's generation with the next swap number, with its record beside
it, and frees its frame; SWAP_IN_PAGE brings a page back whose record authenticates, and ends the resume with LINK_ERROR where it does not; decryption
undoes encryption (R204, R206, R208, R209, R399). Says that exec answers a next state, under conditions on the state and the operands alone, for:
swapOutPage (SWAP_OUT_PAGE), swapInPage (SWAP_IN_PAGE). -/
def Obligations.PagesSwapOutAndIn : Prop :=
  (∀ key iv bs, gcmXor key iv (gcmXor key iv bs) = bs) ∧
  ∀ (s : State) (h key : Nat) (q : Seq) (g : KvPage) (n : Nat) (x : Pool) (c : Context), s.seq? h = some q → s.hearthUp = true → s.sharedIdle q.ctx = false → s.ctx? q.ctx = some c →
    (∀ slot, q.state = 2 → q.swapStarted = true → q.pages.find? (fun y => decide (y.2.state = 1)) = some (key, g) → s.swapSlot q.ctx = some (n, x, slot) →
      let k := s.genKey q.ctx c.current
      let iv := gcmIv c.swapNo q.ctx c.current
      let page := s.stores.tier2.readBytes (g.frame * 65536) 65536
      let aad := pageTail h q key c.swapNo c.current
      let rec_ := fixedLen 16 (Sys2Proof.Config.gcmTag k iv aad (gcmXor k iv page)) ++ aad
      let dataAt := hostKey x.fn (x.dataBase + slot * 65536)
      let recAt := hostKey x.fn (x.recBase + slot * 32)
      ∃ u : State, exec (.swapOutPage h) s = .next u.settle ∧ (∀ i, i < rec_.length → u.stores.host.read (recAt + i) = rec_.getD i 0) ∧
        (∀ i, i < 65536 → (dataAt + i < recAt ∨ recAt + rec_.length ≤ dataAt + i) → u.stores.host.read (dataAt + i) = (gcmXor k iv page).getD i 0) ∧
        (∀ i, i < 65536 → u.stores.tier2.read (g.frame * 65536 + i) = 0) ∧
        (∃ q', u.seq? h = some q' ∧ q'.pages.get? key = some ⟨2, 0, g.home, c.current, n, slot, c.swapNo, false⟩) ∧
        (∃ c', u.ctx? q.ctx = some c' ∧ c'.swapNo = c.swapNo + 1) ∧ u.stores.core = s.stores.core ∧ u.stores.region = s.stores.region) ∧
    (q.state = 4 → q.pages.find? (fun y => decide (y.2.state = 3)) = some (key, g) → g.lost = false → s.kv.pools.get? g.pool = some x → s.canWriteHost x.fn = true →
      (∃ y, c.gens[g.gen]? = some y ∧ y.state = 1) →
      let k := s.genKey q.ctx g.gen
      let iv := gcmIv g.swapNo q.ctx g.gen
      let ct := s.stores.host.readBytes (hostKey x.fn (x.dataBase + g.slot * 65536)) 65536
      let aad := pageTail h q key g.swapNo g.gen
      let good := decide ((s.stores.host.readBytes (hostKey x.fn (x.recBase + g.slot * 32)) 32).drop 16 = aad) &&
        decide ((s.stores.host.readBytes (hostKey x.fn (x.recBase + g.slot * 32)) 32).take 16 = fixedLen 16 (Sys2Proof.Config.gcmTag k iv aad ct))
      (good = true → ∃ (u : State) (q' : Seq), exec (.swapInPage h) s = .next u.settle ∧ (∀ i, i < 65536 → u.stores.tier2.read (g.frame * 65536 + i) = (gcmXor k iv ct).getD i 0) ∧
        (∀ a, a < g.frame * 65536 ∨ g.frame * 65536 + 65536 ≤ a → u.stores.tier2.read a = s.stores.tier2.read a) ∧ u.stores.host = s.stores.host ∧
        u.seq? h = some q' ∧ q'.pages.get? key = some { g with state := 1, gen := 0, pool := 0, slot := 0 } ∧ q'.committed = q.committed) ∧
      (good = false → exec (.swapInPage h) s = .next ((s.resumeFail h q St.linkError).settle)))

/-! ### Streams (R213 to R240) -/

/-- STREAM_START with readable parameters makes a stream whose record stands at its home, and answers its handle and the record's bytes; STATE_IMPORT does
the same from a blob that opens to a record of a legal header (R219, R220, R236). STREAM_PAUSE, STREAM_RESUME, STREAM_END and STATE_SWAP_OUT of a
stream with nothing queued complete at once: the stream is paused, runs again, is gone, or lies in its swap area, and RESULT reports it (R221, R227,
R232). Says that exec answers a next state, under conditions on the state and the operands alone, for: streamStart (STREAM_START), streamPause
(STREAM_PAUSE), streamResume (STREAM_RESUME), streamEnd (STREAM_END), stateImport (STATE_IMPORT), stateSwapOut (STATE_SWAP_OUT). -/
def Obligations.Streams : Prop :=
  (∀ (p : Packet) (s : State) (f : Flight) (c : Caller), (∃ h, h < 2048 ∧ s.stream? h = none) →
    (∀ a b, s.takes p 0x500 f c = true → streamStartChecks c p s = none →
      let x := startStream p s
      let core := (s.homeCore x).getD 0
      let par := if x.kind = 1 then a.1.take (2 * x.channels) ++ (a.1.take x.channels).map (fun w => code32 (fsub (f32 w) .one)) else a.1
      let st := if bit (Packet.fld p 17 1) 2 then List.replicate (x.statePlanes * x.channels) 0 else b.1
      s.homeState x = 1 → (x.home = 0 → (s.homeCore x).isSome = true ∧ s.coreOut core = false) → s.stores.poison = [] →
      s.windowWaits (Packet.desc p 64) ((Packet.desc p 64).extent 1) = false → s.windowWaits (Packet.desc p 112) ((Packet.desc p 112).extent 1) = false →
      s.vecWords (Packet.ctxNo p) core (Packet.desc p 64) = .ok a → s.vecWords (Packet.ctxNo p) core (Packet.desc p 112) = .ok b →
      (x.comp = true → compOk (a.1.take x.channels) = true) →
      ∃ (t : State) (h : Nat), h < 2048 ∧ s.stream? h = none ∧ t.stream? h = some x ∧ (∀ k, k ≠ h → t.stream? k = s.stream? k) ∧
        t.stores = (s.apply (s.recordWr x false (x.record par st (List.replicate x.channels 0)))).stores ∧ t.proto = s.proto ∧ t.tiers = s.tiers ∧
        exec (.streamStart p) s = .next (t.okWith f (s.verOf p 0x500) (h + 2 ^ 32 * x.recordBytes))) ∧
    (∀ d r, s.takes p 0x506 f c = true → stateImportChecks c p s = none → s.moveSide (Packet.ctxNo p) 0 (Packet.fld p 16 1) (Packet.fld p 24 8) ⟨1, 240, 240⟩ false = .ok d → s.sideReady d = true →
      let n := leNat (s.sideRead (Packet.ctxNo p) 0 d 4 4)
      let x := importStream p s r
      n ≤ 262144 → d.base + 240 + n ≤ d.limit → s.openBlob f.id (Packet.ctxNo p) (s.sideRead (Packet.ctxNo p) 0 d 0 (240 + n)) = some r → importOk x r = true → s.homeCheck x = none →
      s.homeState x = 1 → (x.home = 0 → (s.homeCore x).isSome = true ∧ s.coreOut ((s.homeCore x).getD 0) = false) →
      ∃ (t : State) (h : Nat), h < 2048 ∧ s.stream? h = none ∧ t.stream? h = some x ∧ (∀ k, k ≠ h → t.stream? k = s.stream? k) ∧
        t.stores = (s.apply (s.recordWr x false (x.header ++ r.drop 128))).stores ∧ exec (.stateImport p) s = .next (t.okWith f (s.verOf p 0x506) h))) ∧
  (∀ (p : Packet) (s : State) (f : Flight) (c : Caller) (x : Stream), (∀ g ∈ s.proto.flights, g.id = f.id → g = f) → s.stream? (Packet.fld p 16 2) = some x →
    x.queue = [] → x.pauseFlight = none → x.swapOut = none →
    let h := Packet.fld p 16 2
    let ended := fun (t : State) (r : Nat) => ∃ fin, t.proto.finished = s.proto.finished ++ [fin] ∧ fin.flight = f.id ∧ fin.status = St.ok ∧ fin.info = 0 ∧ fin.result = r % 2 ^ 64
    (s.takes p 0x501 f c = true → streamOpChecks 18 0 true c p s = none → x.paused = false →
      ∃ t : State, exec (.streamPause p) s = .next t ∧ t.apps.streams = s.apps.streams.set h { x with paused := true } ∧ ended t (x.residency + 256 + 2 ^ 32 * x.nextCseq) ∧ t.stores = s.stores) ∧
    (s.takes p 0x502 f c = true → streamOpChecks 18 0 false c p s = none → x.paused = true →
      ∃ t : State, exec (.streamResume p) s = .next t ∧ t.apps.streams = s.apps.streams.set h { x with paused := false } ∧ ended t (x.residency + 2 ^ 32 * x.nextCseq) ∧ t.stores = s.stores) ∧
    (s.takes p 0x503 f c = true → streamOpChecks 19 1 true c p s = none →
      ∃ t : State, exec (.streamEnd p) s = .next t ∧ t.apps.streams = s.apps.streams.erase h ∧ ended t x.result ∧ t.stores = s.stores) ∧
    (s.takes p 0x508 f c = true → streamOpChecks 19 3 true c p s = none → x.residency = 0 ∨ x.residency = 1 → x.home ≠ 2 →
      let y := if bit (Packet.fld p 18 1) 1 then { x with home := 2, residency := 0 } else { x with residency := 2 }
      ∃ t : State, exec (.stateSwapOut p) s = .next t ∧ t.stream? h = some y ∧ (∀ k, k ≠ h → t.stream? k = s.stream? k) ∧ ended t y.result ∧
        t.stores = (s.apply (s.recordWr x true (s.ahead.recordRead x false))).stores))

/-- CHUNK, STATE_EXPORT and RE_ANCHOR with the stream's next number join its queue in order, and the number after it is next; another number completes
with BAD_CHUNK_SEQ and changes nothing of the stream; a 65th waits (R222), and on a stream that an armed job feeds one after a RE_ANCHOR (R231; model
choice, log 101). A stream that is LOST takes a RE_ANCHOR only (R226). STREAM_OP_TURN: the oldest queued operation runs, alone: a chunk of no steps
ends at once; a chunk whose operands can be used runs on its core; a STATE_EXPORT writes the sealed record and answers its length; a RE_ANCHOR writes
a record of the anchor's state at its STEP. An ended chunk has added STEPS to STEP and 1 to VERSION (R222, R224, R235). Says that exec answers a next
state, under conditions on the state and the operands alone, for: chunk (CHUNK), stateExport (STATE_EXPORT), reAnchor (RE_ANCHOR), streamOpTurn
(STREAM_OP_TURN). -/
def Obligations.StreamOperations : Prop :=
  (∀ (p : Packet) (s : State) (f : Flight) (c : Caller) (x : Stream), s.stream? (Packet.fld p 16 2) = some x →
    let h := Packet.fld p 16 2
    ∀ y ∈ [((Instr.chunk : Packet → Instr), 0x504, chunkChecks), (Instr.stateExport, 0x505, stateExportChecks), (Instr.reAnchor, 0x507, reAnchorChecks)],
      s.takes p y.2.1 f c = true → y.2.2 c p s = none →
      (x.residency = 3 → y.2.1 ≠ 0x507 → exec (y.1 p) s = .next (s.ends f (s.verOf p y.2.1) St.coreFault 0 0)) ∧
      (x.residency ≠ 3 ∨ y.2.1 = 0x507 →
      (Packet.fld p 20 4 = x.nextCseq → x.queue.length < 64 → (s.fed h = true → ∀ o ∈ x.queue, o.opcode ≠ 0x507) → ∃ t : State, exec (y.1 p) s = .next t ∧ t.proto.finished = s.proto.finished ∧ t.stores = s.stores ∧
        t.apps.streams = s.apps.streams.set h { x with nextCseq := (x.nextCseq + 1) % 2 ^ 32, queue := x.queue ++ [⟨.flight f.id, y.2.1, Packet.fld p 20 4, p, false, false, false, [], 0, 0, false⟩] }) ∧
      (Packet.fld p 20 4 ≠ x.nextCseq → exec (y.1 p) s = .next (s.ends f (s.verOf p y.2.1) St.badChunkSeq 0 0)) ∧
      (Packet.fld p 20 4 = x.nextCseq → 64 ≤ x.queue.length ∨ (s.fed h = true ∧ ∃ o ∈ x.queue, o.opcode = 0x507) →
        exec (y.1 p) s = .next (s.setFlight f.id (fun f => { f with parked := true, pages := false, held := true }))))) ∧
  (∀ (s : State) (h : Nat) (x : Stream) (o : StreamOp) (rest : List StreamOp), s.stream? h = some x → x.queue = o :: rest → x.paused = false →
    (o.running = false → x.swapOut = none → s.running = true → s.hearthUp = true →
      (o.opcode = 0x504 → x.residency < 2 → Packet.fld o.pkt 24 2 = 0 → exec (.streamOpTurn h) s = .next ((s.popOp h o St.ok (Inf.zeroWork ||| o.info) (2 ^ 32 * (x.version % 2 ^ 32))).settle)) ∧
      (∀ q core i, o.opcode = 0x504 → x.residency < 2 → (∃ id, o.owner = .flight id) → 0 < Packet.fld o.pkt 24 2 → s.chunkRefs x.ctx o.pkt = none → s.partOf x.ctx = some q → s.chunkCore x o.pkt = some core →
        q.2.state = 1 → s.coreHeld q.2.cls core = false → s.ahead.chunkIn x o.pkt core = some i → chunkMeets o.pkt i.exts = false →
        (∀ k ∈ [32, 128, 176], let t := Packet.desc o.pkt k; t.unused = false → s.windowStopped t (s.windowSpan t) = false ∧ s.windowWaits t (s.windowSpan t) = false) → x.agrees (s.ahead.recordRead x false) = true → s.stores.poison = [] →
        ∃ (u : State) (y : Stream) (o' : StreamOp), exec (.streamOpTurn h) s = .next u.settle ∧ u.stream? h = some y ∧ y.queue = o' :: rest ∧ o'.running = true ∧
          y.step = x.step ∧ y.version = x.version ∧ bits o'.result 63 32 = (x.version + 1) % 2 ^ 32 ∧
          (x.home = 0 → x.homeAddr < 2097152 → ∀ z ∈ s.recordWr x false (runChunk x (s.ahead.recordRead x false) i.ins (Packet.fld o.pkt 24 2)).1,
            ∃ v ∈ (u.core core).slots ++ (u.core core).held, v.owner = .stream h ∧ v.engine = some .vector ∧ z ∈ v.writes)) ∧
      (∀ st, o.opcode = 0x507 → x.residency ≠ 2 → (x.residency = 3 ∨ Packet.fld o.pkt 24 8 = x.step) → (x.home = 0 → (s.homeCore x).isSome = true) → s.anchorWaits x = false →
        s.windowStopped (Packet.desc o.pkt 32) ((Packet.desc o.pkt 32).extent 1) = false → s.windowWaits (Packet.desc o.pkt 32) ((Packet.desc o.pkt 32).extent 1) = false →
        s.vecWords x.ctx ((s.homeCore x).getD 0) (Packet.desc o.pkt 32) = .ok st → s.stores.poison = [] →
        let y := { x with step := Packet.fld o.pkt 24 8, version := (x.version + 1) % 2 ^ 64 }
        ∃ u : State, exec (.streamOpTurn h) s = .next ((u.popOp h o St.ok o.info 0).settle) ∧ u.stream? h = some { y with residency := 0 } ∧
          u.stores = (s.apply (s.recordWr x false (y.record ((List.range (x.paramPlanes * x.channels)).map (recWord (s.ahead.recordRead x false) 128)) st.1 (List.replicate x.channels 0)))).stores) ∧
      (∀ d, o.opcode = 0x505 → x.residency ≠ 3 → s.moveSide x.ctx 0 (Packet.fld o.pkt 24 1) (Packet.fld o.pkt 32 8) ⟨1, 240 + x.recordBytes, 240 + x.recordBytes⟩ true = .ok d → s.sideReady d = true →
        s.procDown 0 = false → s.stores.poison = [] → ∃ u : State, exec (.streamOpTurn h) s = .next ((u.popOp h o St.ok 0 (240 + x.recordBytes)).settle) ∧
          (let w := s.sideWrite x.ctx 0 d 0 (sealBlob s.exportRoot (freeBytes s.fresh 12) x.ctx x.step x.version (s.ahead.recordRead x (decide (x.residency = 2))))
           u.stores = (((s.apply w.1).apply (w.2.map (fun y => ⟨.host, y.1, y.2⟩))).stores)) ∧ u.apps = s.apps ∧ u.proto = s.proto)) ∧
    (o.running = true → s.busyFor (.stream h) = false → ∃ y, (s.endChunk h).stream? h = some y ∧ y.queue = rest ∧ y.step = (x.step + Packet.fld o.pkt 24 2) % 2 ^ 64 ∧
      y.version = (x.version + 1) % 2 ^ 64 ∧ (s.endChunk h).stores = (s.apply o.later).stores))

/-! ### Sensors (R258 to R290) -/

/-- SLOT_CONFIG of a legal interface with room for its ring (in the I/O-die store, or in one writable allocation of tier 2) frees the slot's old ring and
gives it NBUF empty buffers and a new clock model; with no interface it frees the slot; RESULT gives the view handle and the buffer's bytes.
CALIB_WRITE stages a context's tier-2 words in the slot's shadow; STREAM_HEALTH writes the slots' status records (R263, R264, R278, R287). GRID_CREATE
makes a grid of the packet's shape under a free number, with its scope at the packet's CELL, origin, MIN_Z and MAX_AGE; GRID_DESTROY of one no
projection runs on frees it, and its scope goes back to reset (R78, R279, R287). Says that exec answers a next state, under conditions on the state
and the operands alone, for: slotConfig (SLOT_CONFIG), calibWrite (CALIB_WRITE), gridCreate (GRID_CREATE), gridDestroy (GRID_DESTROY), streamHealth
(STREAM_HEALTH). -/
def Obligations.SlotsAndGrids : Prop :=
  (∀ (p : Packet) (s : State) (f : Flight) (c : Caller),
    (s.takes p 0x700 f c = true → slotConfigChecks c p s = none →
      let k := Packet.fld p 16 1
      let x := slotOf p
      let view := (0x8000 + 256 * k) * 2 ^ 32
      (x.iface = 0 → ∃ t : State, exec (.slotConfig p) s = .next (t.okWith f (s.verOf p 0x700) view) ∧ t.slot? k = none ∧ (∀ j, j ≠ k → t.slot? j = s.slot? j)) ∧
      (x.iface ≠ 0 → (x.place = 0 ∧ s.ringUsed (k / 48) k + x.granules ≤ ringSpace (k / 48) ∨ x.place = 1 ∧ (let v := s.dropSlot k
          v.t2Freeing x.ringCtx x.ringAddr x.ringBytes = false ∧ v.t2Mapped x.ringCtx x.ringAddr x.ringBytes = true ∧ v.t2One x.ringCtx x.ringAddr x.ringBytes = true ∧
          v.t2Writable x.ringCtx x.ringAddr x.ringBytes = true)) → ∃ (t : State) (y : SlotState),
        exec (.slotConfig p) s = .next (t.okWith f (s.verOf p 0x700) (view + x.bufBytes)) ∧ t.slot? k = some y ∧ (∀ j, j ≠ k → t.slot? j = s.slot? j) ∧
        y.cfg = x ∧ y.bufs = List.replicate x.nbuf ⟨0, 0, [], 0, 0, 0⟩ ∧ y.filling = none ∧ y.waiting = [] ∧ y.nextSeq = 0 ∧ y.model = ClockModel.reset ∧ y.drops = [0, 0, 0, 0, 0] ∧ y.totalDrops = s.dropTotal k ∧
        t.stores.core = s.stores.core ∧ t.stores.region = s.stores.region ∧ t.stores.tier2 = s.stores.tier2)) ∧
    (s.takes p 0x701 f c = true → calibWriteChecks c p s = none → 0 < Packet.fld p 20 2 →
      ∃ u : State, exec (.calibWrite p) s = .next (u.okWith f (s.verOf p 0x701) 0) ∧
        (∀ i, i < Packet.fld p 20 2 → u.shadowWord 3 (Packet.fld p 16 1) (Packet.fld p 18 2 + i) = leNat (s.t2Read (Packet.ctxNo p) (Packet.fld p 24 8 + 4 * i) 4)) ∧
        (∀ kind id off, id < 256 → off < 4096 → ¬(kind = 3 ∧ id = Packet.fld p 16 1 ∧ Packet.fld p 18 2 ≤ off ∧ off < Packet.fld p 18 2 + Packet.fld p 20 2) →
          u.shadowWord kind id off = s.shadowWord kind id off) ∧ u.stores = s.stores) ∧
    (∀ d, s.takes p 0x705 f c = true → streamHealthChecks c p s = none → s.moveSide (Packet.ctxNo p) 0 (Packet.fld p 18 1) (Packet.fld p 24 8) ⟨1, 64 * Packet.fld p 17 1, 64 * Packet.fld p 17 1⟩ true = .ok d →
      s.sideReady d = true → 0 < Packet.fld p 17 1 →
      let w := s.sideWrite (Packet.ctxNo p) 0 d 0 (((List.range (Packet.fld p 17 1)).map (fun i => s.healthRecord (Packet.fld p 16 1 + i))).flatten)
      exec (.streamHealth p) s = .next ((s.apply w.1).finishFull f.id St.ok 0 0 (some (s.verOf p 0x705)) w.2 []))) ∧
  (∀ (p : Packet) (s : State) (f : Flight) (c : Caller),
    (s.takes p 0x702 f c = true → gridCreateChecks c p s = none → (if Packet.fld p 16 1 = 255 then ∃ g, g < 4 ∧ s.grid? g = none else s.grid? (Packet.fld p 16 1) = none) →
      ∃ (t : State) (g : Nat), g < 4 ∧ (Packet.fld p 16 1 ≠ 255 → g = Packet.fld p 16 1) ∧ s.grid? g = none ∧
        exec (.gridCreate p) s = .next (t.okWith f (s.verOf p 0x702) g) ∧
        t.grid? g = some ⟨Packet.ctxNo p, Packet.fld p 17 1, Packet.fld p 18 2, Packet.fld p 20 2, Packet.fld p 22 2, Packet.fld p 24 2, Packet.fld p 48 8, Packet.fld p 56 8, 0, none, []⟩ ∧
        (∀ k, k ≠ g → t.grid? k = s.grid? k) ∧ (∀ i, i < 5 → t.activeWord 4 g i = Packet.fld p (28 + 4 * i) 4) ∧ t.activeWord 4 g 5 = Packet.fld p 64 1 ∧ t.stores = s.stores) ∧
    (s.takes p 0x703 f c = true → gridDestroyChecks c p s = none → s.projecting (Packet.fld p 16 1) = false →
      ∃ t : State, exec (.gridDestroy p) s = .next (t.okWith f (s.verOf p 0x703) 0) ∧ t.grid? (Packet.fld p 16 1) = none ∧ (∀ k, k ≠ Packet.fld p 16 1 → t.grid? k = s.grid? k) ∧
        (∀ i, i < 6 → t.activeWord 4 (Packet.fld p 16 1) i = wordReset 4 i) ∧ t.stores = s.stores))

/-- A sample starts: it takes the slot's next number, the time of the pin in 8 ns steps, and the oldest buffer that is not being filled, held or the
newest READY one; with none it is dropped and counted. From control-ready on, CSI2_FRAME_START (csi2FrameStart) starts one, whatever its header's
outcome, ends a sample still open as INCOMPLETE, and classifies a link that is not classified yet; one that comes on another kind of link or number of
lanes spoils its sample; SPI_PERIODIC_START (spiPeriodicStart) starts one at its multiple of the period unless a transaction is under way; a GPIO edge
(gpioEdge) one of a GPIO slot, complete at once, and one of each SPI slot its rising line triggers; an Ethernet frame (ethFrame) one that holds the
converted vector and the payload, or is dropped for want of a buffer, a bad FCS or a short payload. What no slot takes changes nothing (R259, R260,
R262, R263, R266, R267, R468, R470). Says that exec answers a next state, under conditions on the state and the operands alone, for: csi2FrameStart
(CSI2_FRAME_START), spiPeriodicStart (SPI_PERIODIC_START), gpioEdge (GPIO_EDGE), ethFrame (ETH_FRAME). -/
def Obligations.SamplesStart : Prop :=
  (∀ (s : State) (k pin fno : Nat) (raw : Option Nat) (t : SlotState), s.slot? k = some t → ∃ t', (s.startSample k pin fno raw).slot? k = some t' ∧
    t'.nextSeq = (t.nextSeq + 1) % 2 ^ 32 ∧ t'.lastPin = pin / 8 * 8 ∧ t'.waiting = t.waiting ∧ (∀ j, j ≠ k → (s.startSample k pin fno raw).slot? j = s.slot? j) ∧
    (s.startSample k pin fno raw).stores = s.stores ∧
    t'.filling = some ⟨t.takeBuf, pin / 8 * 8, t.nextSeq, 0, 0, [], raw, false, none, false, fno, 0, t.model.received + 1, []⟩ ∧
    (∀ b x, t.takeBuf = some b → t.bufs[b]? = some x → x.state ≠ 1 ∧ x.holds = [] ∧ t'.bufs = t.bufs.modify b (fun y => { y with state := 1, order := t.orderCount + 1 }) ∧
      t'.drops = t.drops ∧ t'.totalDrops = t.totalDrops) ∧
    (t.takeBuf = none → t'.bufs = t.bufs ∧ t'.drops = t.drops.modify 0 (fun n => (n + 1) % 2 ^ 32) ∧ t'.totalDrops = t.totalDrops + 1)) ∧
  (∀ (s : State) (k : Nat) (t : SlotState), s.slot? k = some t → s.controlReady = true → s.slotOn k = true →
    let kept := fun (l : List Filling) => l.filter (fun (y : Filling) => y.buf.isSome)
    let fresh := fun (b : Option Nat) (pin : Nat) (fifo : List (Nat × List Byte)) (raw : Option Nat) (fno stop : Nat) =>
      (⟨b, pin, t.nextSeq, 0, 0, fifo, raw, false, none, false, fno, stop, t.model.received + 1, []⟩ : Filling)
    (∀ die port vc n link dphy lanes, s.csiSlot die port vc = some (k, t) →
      let frame : FramePacket := ⟨n, link, dphy, lanes⟩
      let first := s.ingest.csiPorts.get? (12 * die + port) = none
      let same := ∀ c, s.ingest.csiPorts.get? (12 * die + port) = some c → c = ⟨dphy, lanes⟩
      (t.filling = none → ∃ (u : State) (t' : SlotState), exec (.csi2FrameStart die port vc frame) s = .next u ∧ u.slot? k = some t' ∧ u.stores = s.stores ∧ t'.waiting = t.waiting ∧
        t'.nextSeq = (t.nextSeq + 1) % 2 ^ 32 ∧ t'.fsNo = (if link = .bad then t.fsNo else n) ∧ (∀ j, j ≠ k → u.slot? j = s.slot? j) ∧
        t'.filling = some { fresh t.takeBuf (s.clock.now / 8 * 8) [] (if t.cfg.srcKind = 1 ∧ link ≠ .bad then some (n % 65536) else none) n 0 with corrected := decide (link = .headerCorrected), bad := if link = .bad then some 3 else (t'.filling.bind (·.bad)) } ∧
        (link ≠ .bad → same → t'.filling.bind (·.bad) = none) ∧ (link ≠ .bad → ¬same → t'.filling.bind (·.bad) = some 2) ∧
        (first → u.ingest.csiPorts.get? (12 * die + port) = some ⟨dphy, lanes⟩) ∧ (¬first → u.ingest.csiPorts = s.ingest.csiPorts)) ∧
      (∀ f b, t.filling = some f → f.buf = some b → f.bad = none → t.drops.length = 5 → ∃ (u : State) (t' : SlotState),
        exec (.csi2FrameStart die port vc frame) s = .next u ∧ u.slot? k = some t' ∧ kept t'.waiting = kept t.waiting ∧ t'.nextSeq = (t.nextSeq + 1) % 2 ^ 32 ∧
        t'.filling.map (·.seq) = some t.nextSeq ∧ t'.drops.getD 2 0 = (t.drops.getD 2 0 + 1) % 2 ^ 32)) ∧
    (t.cfg.iface = 3 → t.cfg.trig = 255 →
      let due := t.nextStart s.clock.now
      let v := (s.reach due).setSlot k (fun y => { y with nextDue := due + max 1 t.cfg.nomPeriod })
      (t.nextDue % max 1 t.cfg.nomPeriod = 0 → due % max 1 t.cfg.nomPeriod = 0) ∧
      exec (.spiPeriodicStart k) s = .next (if t.filling.isSome then v else (v.startSample k due 0 none).emit (.sensorSpi k (t.cfg.spiCmd.take t.cfg.spiCmdLen)))) ∧
    (∀ line rising, Tab.wf s.ingest.slots = true → k / 48 < ioDies s.order → ∃ u : State, exec (.gpioEdge (k / 48) line rising) s = .next u ∧
      u.ingest.gpioStamp.get? (k / 48 * 24 + line) = some (s.clock.now / 8 * 8) ∧ u.stores.xd = s.stores.xd ∧ u.stores.tier2 = s.stores.tier2 ∧
      (t.cfg.iface = 4 → t.cfg.port = line → bit t.cfg.sub (if rising then 0 else 1) = true → ∃ t', u.slot? k = some t' ∧ t'.filling = none ∧
        (∀ b, t.takeBuf = some b → t'.waiting = t.waiting ++ [fresh (some b) (s.clock.now / 8 * 8) [] none 0 s.clock.now]) ∧
        (t.takeBuf = none → kept t'.waiting = kept t.waiting ∧ t'.drops = t.drops.modify 0 (fun n => (n + 1) % 2 ^ 32))) ∧
      (t.cfg.iface = 3 → t.cfg.trig = line → rising = true → t.filling = none → ∃ t', u.slot? k = some t' ∧ t'.waiting = t.waiting ∧
        t'.filling = some (fresh t.takeBuf (s.clock.now / 8 * 8) [] none 0 0))) ∧
    (∀ port mac vlan fcs payload, s.portUp port = true → s.ingest.slots.find? (fun kv => decide (kv.2.cfg.iface = 5 ∧ kv.2.cfg.port = port ∧ kv.2.cfg.mac = mac ∧ kv.2.cfg.vlan = vlan)) = some (k, t) →
      ∃ (u : State) (t' : SlotState), exec (.ethFrame port mac vlan fcs payload) s = .next u ∧ u.slot? k = some t' ∧ t'.filling = none ∧
        (t.takeBuf = none ∨ fcs = false ∨ payload.length < t.cfg.w → kept t'.waiting = kept t.waiting ∧
          t'.drops = t.drops.modify (if t.takeBuf = none then 0 else if fcs then 2 else 3) (fun n => (n + 1) % 2 ^ 32)) ∧
        (∀ b, t.takeBuf = some b → fcs = true → t.cfg.w ≤ payload.length → t.cfg.place ≤ 1 → s.vecLen k ≤ 256 →
          let bs := payload.take t.cfg.w
          let vec := ((List.range (s.vecLen k)).map (fun e => toLe 4 (code32 (s.vecEntry k e bs)))).flatten
          (t.cfg.place = 0 → t'.waiting = t.waiting ++ [fresh (some b) (s.clock.now / 8 * 8) [] (t.cfg.stampIn bs) 0 s.clock.now] ∧
            (∀ i, i < vec.length → u.stores.xd.read (xdKey k (b * t.cfg.bufBytes + 64 + i)) = vec.getD i 0) ∧
            (∀ i, i < t.cfg.w → u.stores.xd.read (xdKey k (b * t.cfg.bufBytes + 1088 + i)) = payload.getD i 0) ∧
            u.stores.core = s.stores.core ∧ u.stores.region = s.stores.region ∧ u.stores.tier2 = s.stores.tier2) ∧
          (t.cfg.place = 1 → Tab.wf s.ingest.slots = true → t.filling = none → s.fifoBytes (k / 48) + vec.length + bs.length ≤ 1048576 →
            t'.waiting = t.waiting ++ [fresh (some b) (s.clock.now / 8 * 8) ((if vec = [] then [] else [(64, vec)]) ++ [(1088, bs)]) (t.cfg.stampIn bs) 0 s.clock.now] ∧
            u.stores.xd = s.stores.xd ∧ u.stores.tier2 = s.stores.tier2)))) ∧
  (∀ (s : State) (die port vc dt : Nat) (frame : FramePacket) (link : LinkCheck) (payload : List Byte), s.csiSlot die port vc = none →
    exec (.csi2FrameStart die port vc frame) s = .next s ∧ exec (.csi2FrameEnd die port vc frame) s = .next s ∧ exec (.csi2LongPacket die port vc dt link payload) s = .next s) ∧
  (∀ (s : State) (port mac vlan : Nat) (fcs : Bool) (payload : List Byte),
    s.ingest.slots.find? (fun kv => decide (kv.2.cfg.iface = 5 ∧ kv.2.cfg.port = port ∧ kv.2.cfg.mac = mac ∧ kv.2.cfg.vlan = vlan)) = none →
    exec (.ethFrame port mac vlan fcs payload) s = .next s)

/-- A sample fills: a CSI-2 line (csi2LongPacket) becomes its pixels' elements, less the black level, times the gain, in the slot's format, and the first
embedded-data line its source stamp; a TDM frame (tdmFrameSync) its channels' elements; an SPI transaction (spiTransactionEnd) its converted vector
and its bytes. They go to the ring in the I/O-die store, or to the landing FIFO of a tier-2 slot. A complete sample (the Frame End of csi2FrameEnd
after H lines, the H-th TDM frame, the SPI transaction's end) waits to become READY with the time of its end; one with a bad Frame End or one on
another link than was classified, too few lines or a frame of another length is dropped and counted (R260 to R262, R264, R267, R268, R277, R468,
R469). SAMPLE_READY: the oldest complete sample's buffer becomes READY behind a header of its number, slot and stamps, and input-ready is raised;
INGRESS_T2_WRITE first empties a tier-2 slot's landing FIFO (R268, R270). Latest trigger times of armed jobs that lie before come first (R348);
dropped samples behind it have then had their turn in the clock model (R272). Says that exec answers a next state, under conditions on the state and
the operands alone, for: csi2LongPacket (CSI2_LONG_PACKET), csi2FrameEnd (CSI2_FRAME_END), tdmFrameSync (TDM_FRAME_SYNC), spiTransactionEnd
(SPI_TRANSACTION_END), sampleReady (SAMPLE_READY), ingressT2Write (INGRESS_T2_WRITE). -/
def Obligations.SamplesFillAndBecomeReady : Prop :=
  (∀ (s : State) (k b : Nat) (t : SlotState) (f : Filling), s.slot? k = some t → t.filling = some f → f.buf = some b → f.bad = none → t.cfg.place ≤ 1 →
    let room := fun (n : Nat) => t.cfg.place = 1 → Tab.wf s.ingest.slots = true ∧ s.fifoBytes (k / 48) + n ≤ 1048576
    let others := fun (u : State) => u.stores.core = s.stores.core ∧ u.stores.region = s.stores.region ∧ u.stores.tier2 = s.stores.tier2 ∧ u.stores.host = s.stores.host
    let lands := fun (u : State) (g : Filling) (off : Nat) (bs : List Byte) =>
      (t.cfg.place = 0 → g.fifo = f.fifo ∧ ∀ i, i < bs.length → u.stores.xd.read (xdKey k (b * t.cfg.bufBytes + off + i)) = bs.getD i 0) ∧
      (t.cfg.place = 1 → (off, bs) ∈ g.fifo ∧ u.stores.xd = s.stores.xd)
    let fills := fun (u : State) (g : Filling) => ∃ t', u.slot? k = some t' ∧ t'.filling = some g ∧ t'.waiting = t.waiting
    let waits := fun (u : State) (g : Filling) => ∃ t', u.slot? k = some t' ∧ t'.filling = none ∧ t'.waiting = t.waiting ++ [{ g with endTime := s.clock.now }]
    let drops := fun (u : State) (r : Nat) => ∃ t', u.slot? k = some t' ∧ t'.filling = none ∧ t'.waiting.filter (fun y => y.buf.isSome) = t.waiting.filter (fun y => y.buf.isSome) ∧
      t'.drops = t.drops.modify r (fun n => (n + 1) % 2 ^ 32)
    let eb := fmtBytes t.cfg.fmt
    (∀ die port vc link payload, s.csiSlot die port vc = some (k, t) → (t.cfg.fmt ≤ 2 ∨ t.cfg.fmt = 4) → (csiChannels t.cfg.dt).isSome = true →
      payload.length = csiLineBytes t.cfg.dt t.cfg.w → f.lines < t.cfg.h → 0 < t.cfg.w →
      let ch := (csiChannels t.cfg.dt).getD 1
      let n := payload.length * t.cfg.w * (ch * eb + (if t.cfg.fmt = 4 then 1 else 0)) / max 1 (csiLineBytes t.cfg.dt t.cfg.w)
      let code := fun i => csiPixel t.cfg.dt (fun y => (payload.getD y 0).toNat) i
      let px := fun i => ingestPixel t.cfg.fmt ((code i).map (fun (v : Nat) => fmul (Fv.ofInt ((v : Int) - (bits (s.activeWord 3 k 2) 15 0 : Nat))) (f32 (s.activeWord 3 k 3))))
      64 + f.size + n ≤ t.cfg.bufBytes → room n → ∃ u : State, exec (.csi2LongPacket die port vc t.cfg.dt link payload) s = .next u ∧ others u ∧
        (link = .bad → u.stores = s.stores ∧ fills u { f with bad := some 3 }) ∧
        (link ≠ .bad → ∃ g, fills u g ∧ g = { f with lines := f.lines + 1, size := f.size + n, corrected := f.corrected || decide (link = .headerCorrected), fifo := g.fifo } ∧
          lands u g (64 + f.lines * t.cfg.w * ch * eb) ((List.range t.cfg.w).map (fun i => (px i).1)).flatten ∧
          (t.cfg.fmt = 4 → lands u g (64 + t.cfg.w * t.cfg.h * ch + f.lines * t.cfg.w) ((List.range t.cfg.w).map (fun i => (px i).2)).flatten) ∧
          (t.cfg.fmt = 0 → t.cfg.place = 0 → ∀ i j, i < t.cfg.w → j < ch →
            leNat ((List.range 4).map (fun y => u.stores.xd.read (xdKey k (b * t.cfg.bufBytes + 64 + ((f.lines * t.cfg.w + i) * ch + j) * 4 + y)))) =
              (fp32.encode .rne true (fmul (Fv.ofInt (((code i).getD j 0 : Nat) - (bits (s.activeWord 3 k 2) 15 0 : Nat) : Int)) (f32 (s.activeWord 3 k 3)))).1))) ∧
    (∀ die port vc link payload, s.csiSlot die port vc = some (k, t) → link ≠ .bad →
      let n := payload.length * t.cfg.w * ((csiChannels t.cfg.dt).getD 1 * eb + (if t.cfg.fmt = 4 then 1 else 0)) / max 1 (csiLineBytes t.cfg.dt t.cfg.w)
      t.cfg.dt ≠ 0x12 → t.cfg.bufBytes < 64 + f.size + n ∨ payload.length ≠ csiLineBytes t.cfg.dt t.cfg.w ∨ t.cfg.h ≤ f.lines →
      ∃ u : State, exec (.csi2LongPacket die port vc t.cfg.dt link payload) s = .next u ∧ u.stores = s.stores ∧
        fills u { f with lines := f.lines + 1, size := f.size + n, corrected := f.corrected || decide (link = .headerCorrected),
                         bad := some (if t.cfg.bufBytes < 64 + f.size + n then 1 else 2) }) ∧
    (∀ die port vc link payload, s.csiSlot die port vc = some (k, t) →
      (f.embedded = false → ∃ u : State, exec (.csi2LongPacket die port vc 0x12 link payload) s = .next u ∧ u.stores = s.stores ∧
        fills u { f with embedded := true, raw := if link ≠ .bad ∧ (t.cfg.srcKind = 2 ∨ t.cfg.srcKind = 3) then t.cfg.stampIn payload else f.raw,
                         corrected := f.corrected || decide (link = .headerCorrected), bad := if link = .bad then some 3 else none }) ∧
      (∀ dt, dt ≠ t.cfg.dt → dt ≠ 0x12 ∨ f.embedded = true → exec (.csi2LongPacket die port vc dt link payload) s = .next s)) ∧
    (∀ die port vc n link dphy lanes, s.csiSlot die port vc = some (k, t) → ∃ (u : State) (t' : SlotState), exec (.csi2FrameEnd die port vc ⟨n, link, dphy, lanes⟩) s = .next u ∧
      let same := ∀ c, s.ingest.csiPorts.get? (12 * die + port) = some c → c = ⟨dphy, lanes⟩
      u.slot? k = some t' ∧ t'.feNo = (if link = .bad then t.feNo else n) ∧
      (f.lines = t.cfg.h → link ≠ .bad → same → waits u { f with corrected := f.corrected || decide (link = .headerCorrected) } ∧ u.stores = s.stores) ∧
      (f.lines ≠ t.cfg.h ∨ link = .bad ∨ ¬same → drops u (if link = .bad then 3 else 2))) ∧
    (∀ port bclks words, Tab.wf s.ingest.slots = true → s.controlReady = true → t.cfg.iface = 2 → t.cfg.port = port → t.cfg.fmt ≤ 1 →
      (∀ kv ∈ s.ingest.slots, kv.1 ≠ k → kv.2.cfg.iface ≠ 2 ∨ kv.2.cfg.port ≠ port ∨ kv.1 / 48 ≠ k / 48) → room (t.cfg.w * eb) →
      let wire := f.wire ++ t.cfg.wireBytes words
      let row := (List.range t.cfg.w).map (fun i => (Fv.ofInt (signedOf t.cfg.dt (words.getD (t.cfg.sub + i) 0))).scale2 (1 - (t.cfg.dt : Int)))
      ∃ u : State, exec (.tdmFrameSync (k / 48) port bclks words) s = .next u ∧
        (2 ≤ t.tdmSeen → t.tdmLen ≠ some bclks → drops u 2) ∧
        (t.tdmSeen < 2 ∨ t.tdmLen = some bclks → ∃ g, g = { f with lines := f.lines + 1, wire := wire, raw := t.cfg.stampIn wire, fifo := g.fifo } ∧
          (if f.lines + 1 = t.cfg.h then waits u g else fills u g) ∧ others u ∧ lands u g (64 + f.lines * t.cfg.w * eb) (ingestPixel t.cfg.fmt row).1 ∧
          (t.cfg.fmt = 0 → t.cfg.place = 0 → ∀ i, i < t.cfg.w →
            leNat ((List.range 4).map (fun y => u.stores.xd.read (xdKey k (b * t.cfg.bufBytes + 64 + (f.lines * t.cfg.w + i) * 4 + y)))) =
              (fp32.encode .rne true (row.getD i .zero)).1))) ∧
    (∀ payload, t.cfg.iface = 3 → s.vecLen k ≤ 256 → room (4 * s.vecLen k + t.cfg.w) →
      let bs := (payload ++ zeros t.cfg.w).take t.cfg.w
      let vec := ((List.range (s.vecLen k)).map (fun e => toLe 4 (code32 (s.vecEntry k e bs)))).flatten
      ∃ (u : State) (g : Filling), exec (.spiTransactionEnd k payload) s = .next u ∧ g = { f with raw := t.cfg.stampIn bs, fifo := g.fifo } ∧ waits u g ∧ others u ∧
        (vec ≠ [] → lands u g 64 vec) ∧ lands u g 1088 bs)) ∧
  (∀ (s : State) (k : Nat), s.running = true →
    let v := s.latestBefore (s.clock.now / 8 * 8)
    ((∀ kv ∈ s.sched.jobs, kv.2.trigger = 1 ∨ kv.2.trigger = 2 → s.clock.now / 8 * 8 ≤ s.clock.frameStart + kv.2.latestUs * 1000) → v = s) ∧
    (∀ t f rest b, v.slot? k = some t → t.waiting = f :: rest → f.buf = some b → f.fifo = [] → b < t.bufs.length → ∃ (u : State) (t' : SlotState), v.sampleReady k = (u, true) ∧
      exec (.sampleReady k) s = .next ((u.inputReady k).settle) ∧ u.slot? k = some t' ∧ t'.waiting = rest.dropWhile (fun y => y.buf.isNone) ∧
      (∃ x, t'.bufs[b]? = some x ∧ x.state = 2 ∧ x.sampleSeq = f.seq ∧ x.endTime = f.endTime) ∧
      (t.cfg.place = 0 → let h := fun off n => leNat ((List.range n).map (fun y => u.stores.xd.read (xdKey k (b * t.cfg.bufBytes + off + y))))
       h 0 4 = f.seq % 2 ^ 32 ∧ h 4 1 = k % 256 ∧ h 8 8 = f.pin % 2 ^ 64 ∧ h 32 8 = f.endTime % 2 ^ 64 ∧ h 40 4 = t.cfg.dataBytes % 2 ^ 32 ∧ u.stores.tier2 = v.stores.tier2) ∧
      (t.cfg.place ≠ 0 → u.stores.xd = v.stores.xd) ∧ u.stores.core = v.stores.core ∧ u.stores.region = v.stores.region) ∧
    (∀ t, s.slot? k = some t → s.power.applied < 3 → ∃ (u : State) (t' : SlotState), exec (.ingressT2Write k) s = .next u ∧ u.slot? k = some t' ∧ t'.waiting = t.waiting.map (fun f => { f with fifo := [] }) ∧
      t'.filling = t.filling.map (fun f => { f with fifo := [] }) ∧ t'.bufs = t.bufs ∧ u.proto = s.proto ∧ u.stores.core = s.stores.core ∧ u.stores.region = s.stores.region ∧
      (t.filling = none → t.waiting = [] → u.stores = s.stores)))

/-! ### Contexts, partitions, models and keys (R334 to R362, R396 to R411) -/

/-- CTX_CREATE makes a context with one ACTIVE page-key generation under the number in RESULT; PARTITION_CREATE makes a PENDING partition of the cores its
masks name, in their order, and answers its number and the frame whose edge makes it ACTIVE (R334, R336, R338, R339). Says that exec answers a next
state, under conditions on the state and the operands alone, for: ctxCreate (CTX_CREATE), partitionCreate (PARTITION_CREATE). -/
def Obligations.ContextsAndPartitionsBegin : Prop :=
  ∀ (p : Packet) (s : State) (f : Flight) (c : Caller),
    (s.takes p 0xA00 f c = true → ctxCreateChecks c p s = none → (∃ n, n < 256 ∧ s.ctx? n = none) →
      ∃ (t : State) (n : Nat) (x : Context), n < 256 ∧ (Packet.fld p 16 2 ≠ 0xFFFF → n = Packet.fld p 16 2) ∧ s.ctx? n = none ∧
        exec (.ctxCreate p) s = .next (t.okWith f (s.verOf p 0xA00) n) ∧ t.ctx? n = some x ∧ (∀ k, k ≠ n → t.ctx? k = s.ctx? k) ∧
        x.fn = Packet.fld p 18 1 ∧ x.gens.map (fun g => (g.state, decide (g.key.length = 32))) = [(1, true), (0, false), (0, false), (0, false)] ∧ x.current = 0 ∧ x.destroy = none ∧
        t.stores = s.stores ∧ t.proto = s.proto ∧ t.sched.partitions = s.sched.partitions) ∧
    (s.takes p 0xA02 f c = true → partitionCreateChecks c p s = none → (∃ n, n < 16 ∧ s.sched.partitions.get? n = none) →
      ∃ (t : State) (n : Nat) (q : Partition), n < 16 ∧ (Packet.fld p 16 1 ≠ 0xFF → n = Packet.fld p 16 1) ∧ s.sched.partitions.get? n = none ∧
        exec (.partitionCreate p) s = .next (t.okWith f (s.verOf p 0xA02) (n + 2 ^ 32 * (s.dueFrame % 2 ^ 32))) ∧ t.sched.partitions.get? n = some q ∧
        (∀ k, k ≠ n → t.sched.partitions.get? k = s.sched.partitions.get? k) ∧ q.state = 4 ∧ q.ctx = Packet.ctxNo p ∧ q.cls = Packet.fld p 17 1 ∧ q.activeFrame = s.dueFrame ∧
        q.positions = (namedCores p).map some ∧ q.qpMask = Packet.fld p 19 1 ∧ q.regionCeil = Packet.fld p 20 2 ∧ q.t2CeilGib = Packet.fld p 22 2 ∧
        (Packet.fld p 17 1 ≠ 0 → t.fw = s.fw) ∧ t.tiers = s.tiers ∧ t.kv = s.kv)

/-- PARTITION_RELEASE of an ACTIVE partition drains it and completes only when it is FREE; QUENCH_END of one whose edges have been counted frees it and
completes the release with the frame; QUENCH_TIER2_PART_END ends the tier-2 part under way at its time, by when it has written zeros, as far as its
time and its slots went, to the pages of a leaving context and to the scratch range, and to nothing else; while Quench is held it does nothing (R340,
R406 to R408, R411). CTX_DESTROY of a context that owns nothing frees its number at once; its scope goes back to reset (R335). Says that exec answers
a next state, under conditions on the state and the operands alone, for: ctxDestroy (CTX_DESTROY), partitionRelease (PARTITION_RELEASE), quenchEnd
(QUENCH_END), quenchTier2PartEnd (QUENCH_TIER2_PART_END). -/
def Obligations.ContextsAndPartitionsEnd : Prop :=
  (∀ (s : State),
    (∀ (p : Packet) (f : Flight) (c : Caller) (q : Partition), s.takes p 0xA03 f c = true → partitionReleaseChecks c p s = none → s.sched.partitions.get? (Packet.fld p 16 1) = some q →
      (∀ kv ∈ s.tiers.bellows, kv.2.part ≠ Packet.fld p 16 1) → (∀ kv ∈ s.apps.lattices, kv.2.part ≠ Packet.fld p 16 1) → (∀ g ∈ s.proto.flights, g.opcode ≠ 0x802 ∧ g.opcode ≠ 0x803) →
      (∀ kv ∈ s.apps.streams, kv.2.ctx ≠ q.ctx) → q.qpMask = 0 →
      ∃ (t : State) (q' : Partition), exec (.partitionRelease p) s = .next t ∧ t.sched.partitions.get? (Packet.fld p 16 1) = some q' ∧ q'.state = 2 ∧ q'.release = some f.id ∧ q'.ctx = q.ctx ∧
        q'.positions = q.positions ∧ (∀ k, k ≠ Packet.fld p 16 1 → t.sched.partitions.get? k = s.sched.partitions.get? k) ∧ t.proto.finished = s.proto.finished ∧
        t.stores.core = s.stores.core ∧ t.stores.region = s.stores.region ∧ t.stores.tier2 = s.stores.tier2) ∧
    (∀ (n : Nat) (q : Partition), s.sched.partitions.get? n = some q →
      (q.state = 3 → q.quenchStarted = true → q.quenchEdges = 0 →
        let u := State.postPart (State.resetScope { s with sched := { s.sched with partitions := s.sched.partitions.erase n } } 1 n) n 0
        exec (.quenchEnd n) s = .next ((u.finishOpt q.release St.ok 0 u.frameNo).settleLeaving)) ∧
      (q.state ≠ 3 ∨ q.quenchStarted = false ∨ 0 < q.quenchEdges → exec (.quenchEnd n) s = .next s)) ∧
    (∀ kv, s.sched.partitions.find? (fun kv => decide (kv.2.state = 3) && kv.2.tier2End.isSome) = some kv → s.quenchHeld kv.2 = false →
      ∃ t : State, exec .quenchTier2PartEnd s = .next t ∧ (∃ q, t.sched.partitions.get? kv.1 = some q ∧ q.tier2End = none) ∧
        t.clock.now = max s.clock.now (kv.2.tier2End.getD 0) ∧ t.proto = s.proto ∧ t.stores.core = s.stores.core ∧ t.stores.region = s.stores.region ∧ t.stores.host = s.stores.host ∧
        (let mine := if kv.2.ofDestroy then s.framesOf kv.2.ctx else []
         (∀ a, a / 65536 ∉ mine → a / 65536 ≠ s.scratchFrame → t.stores.tier2.read a = s.stores.tier2.read a) ∧
         (16 * mine.length ≤ s.tier2PartUs kv.2 * s.quenchSlots.length * (stacksOf s.order).length →
           ∀ fr ∈ mine ++ [s.scratchFrame], ∀ i, i < 65536 → t.stores.tier2.read (fr * 65536 + i) = 0))) ∧
    (∀ kv, s.sched.partitions.find? (fun kv => decide (kv.2.state = 3) && kv.2.tier2End.isSome) = some kv → s.quenchHeld kv.2 = true → exec .quenchTier2PartEnd s = .next s) ∧
    (s.sched.partitions.find? (fun kv => decide (kv.2.state = 3) && kv.2.tier2End.isSome) = none → exec .quenchTier2PartEnd s = .next s)) ∧
  (∀ (p : Packet) (s : State) (f : Flight) (c : Caller), s.takes p 0xA01 f c = true → ctxDestroyChecks c p s = none → (∀ g ∈ s.proto.flights, g.id = f.id → g = f) →
    let n := Packet.fld p 16 2
    Tab.wf s.sched.contexts = true → (∀ kv ∈ s.apps.streams, kv.2.ctx ≠ n) → (∀ kv ∈ s.kv.seqs, kv.2.ctx ≠ n) → (∀ kv ∈ s.ingest.grids, kv.2.ctx ≠ n) → (∀ kv ∈ s.apps.lattices, kv.2.ctx ≠ n) →
    (∀ kv ∈ s.apps.maps, kv.2.ctx ≠ n) → (∀ kv ∈ s.proto.queues, kv.2.bindCtx ≠ some n ∧ kv.2.closing = none) → s.partOf n = none → (∀ a ∈ s.tiers.allocs, a.ctx ≠ n) →
    (∀ kv ∈ s.tiers.regions, kv.2.ctx ≠ n) → (∀ g ∈ s.proto.flights, g.opcode = 3 → g.running = false) →
    ∃ (t : State) (fin : Finished), exec (.ctxDestroy p) s = .next t ∧ t.ctx? n = none ∧ (∀ k, k ≠ n → t.ctx? k = s.ctx? k) ∧
      t.proto.finished = s.proto.finished ++ [fin] ∧ fin.flight = f.id ∧ fin.status = St.ok ∧ (∀ off, off < 4096 → t.activeWord 2 n off = wordReset 2 off) ∧
      t.stores = s.stores ∧ t.tiers.pages = s.tiers.pages ∧ t.proto.queues = s.proto.queues)

/-- KEY_ROTATE makes the lowest FREE generation ACTIVE and current with a new key; RETIRE_KEY erases the key of a generation that is not current: FREE
where no swapped page is under it, and RETIRED with FORCE; the current one is KEY_IN_USE, and a RETIRED one is left with ZERO_WORK; KEY_STATUS and
ACCOUNT_READ write one record to tier 2 or a window (R359, R360, R400 to R402). Says that exec answers a next state, under conditions on the state and
the operands alone, for: keyRotate (KEY_ROTATE), retireKey (RETIRE_KEY), keyStatus (KEY_STATUS), accountRead (ACCOUNT_READ). -/
def Obligations.KeysAndRecords : Prop :=
  ∀ (p : Packet) (s : State) (f : Flight) (c : Caller) (x : Context), s.ctx? (Packet.ctxNo p) = some x →
    (∀ g, s.takes p 0xC00 f c = true → keyRotateChecks c p s = none → x.gens.findIdx? (fun g => decide (g.state = 0)) = some g →
      ∃ (t : State) (y : Context), exec (.keyRotate p) s = .next (t.okWith f (s.verOf p 0xC00) g) ∧ t.ctx? (Packet.ctxNo p) = some y ∧ y.current = g ∧
        (∃ k : KeyGen, y.gens = x.gens.set g k ∧ k.state = 1 ∧ k.key.length = 32) ∧ y.swapNo = x.swapNo ∧ t.stores = s.stores ∧ t.proto = s.proto) ∧
    (s.takes p 0xC01 f c = true → retireKeyChecks c p s = none →
      let g := Packet.fld p 16 1
      let n := s.genCount (Packet.ctxNo p) g
      let st := (x.gens.getD g ⟨0, []⟩).state
      (st = 0 → exec (.retireKey p) s = .next (s.ends f (s.verOf p 0xC01) St.notFound 0 0)) ∧
      (st ≠ 0 → x.current = g → exec (.retireKey p) s = .next (s.ends f (s.verOf p 0xC01) St.keyInUse 0 (0xFFFFFFFF + 2 ^ 32 * n))) ∧
      (st = 2 → x.current ≠ g → exec (.retireKey p) s = .next (s.ends f (s.verOf p 0xC01) St.ok Inf.zeroWork (2 ^ 32 * n))) ∧
      (st = 1 → x.current ≠ g → (n = 0 ∨ bit (Packet.fld p 17 1) 0 = true) → ∃ (t : State) (y : Context),
        exec (.retireKey p) s = .next (t.okWith f (s.verOf p 0xC01) (2 ^ 32 * n)) ∧ t.ctx? (Packet.ctxNo p) = some y ∧ y.gens = x.gens.set g ⟨if n = 0 then 0 else 2, []⟩ ∧ y.current = x.current) ∧
      (st = 1 → x.current ≠ g → n ≠ 0 → bit (Packet.fld p 17 1) 0 = false → exec (.retireKey p) s = .next (s.ends f (s.verOf p 0xC01) St.keyInUse 0 (2 ^ 32 * n)))) ∧
    (∀ d, s.sideReady d = true →
      let wr := fun (bs : List Byte) => s.sideWrite (Packet.ctxNo p) 0 d 0 bs
      (s.takes p 0xC02 f c = true → keyStatusChecks c p s = none →
        let bs := s.keyRecord (Packet.ctxNo p) x
        s.moveSide (Packet.ctxNo p) 0 (Packet.fld p 16 1) (Packet.fld p 24 8) ⟨1, bs.length, bs.length⟩ true = .ok d →
        exec (.keyStatus p) s = .next ((s.apply (wr bs).1).finishFull f.id St.ok 0 0 (some (s.verOf p 0xC02)) (wr bs).2 [])) ∧
      (s.takes p 0xA09 f c = true → accountReadChecks c p s = none →
        let bs := s.accountRecord x.acct c.role
        s.moveSide (Packet.ctxNo p) 0 (Packet.fld p 16 1) (Packet.fld p 24 8) ⟨1, bs.length, bs.length⟩ true = .ok d →
        exec (.accountRead p) s = .next ((s.apply (wr bs).1).finishFull f.id St.ok 0 0 (some (s.verOf p 0xA09)) (wr bs).2 [])))

/-- MODEL_REGISTER allocates read-only pages and leaves the model LOADING; MODEL_LOAD_DONE of a good image places it, RESIDENT, and completes the
registration; MODEL_PIN of a RESIDENT model pins it, MODEL_UNPIN unpins it (R355, R356, R398). Says that exec answers a next state, under conditions
on the state and the operands alone, for: modelRegister (MODEL_REGISTER), modelPin (MODEL_PIN), modelUnpin (MODEL_UNPIN), modelLoadDone
(MODEL_LOAD_DONE). -/
def Obligations.ModelsLoadAndPin : Prop :=
  ∀ (s : State),
    (∀ (p : Packet) (f : Flight) (c : Caller), s.takes p 0xA06 f c = true → modelRegisterChecks c p s = none →
      let n := Packet.fld p 32 8 / 65536
      s.underCeiling (Packet.ctxNo p) n = true → s.pagesAhead f.id = false → s.t2Room (halvesOf (Packet.fld p 17 1) n) Halves.zero = true → s.placesFor (Packet.ctxNo p) n ≠ [] →
      (∃ h, h < 64 ∧ s.sched.models.get? h = none) →
      ∃ (t : State) (h : Nat) (m : Model), exec (.modelRegister p) s = .next t ∧ h < 64 ∧ s.sched.models.get? h = none ∧ t.sched.models.get? h = some m ∧
        (∀ k, k ≠ h → t.sched.models.get? k = s.sched.models.get? k) ∧ m.ctx = Packet.ctxNo p ∧ m.state = 0 ∧ m.bytes = Packet.fld p 32 8 ∧ m.home = Packet.fld p 17 1 ∧
        m.srcKind = Packet.fld p 16 1 ∧ m.src = Packet.fld p 24 8 ∧ m.flight = some f.id ∧ m.pinned = false ∧ m.base ∈ s.placesFor (Packet.ctxNo p) n ∧
        t.tiers.allocs = s.tiers.allocs ++ [⟨Packet.ctxNo p, m.base, n, Packet.fld p 17 1, none⟩] ∧ t.proto.finished = s.proto.finished ∧ t.stores = s.stores) ∧
    (∀ (h id : Nat) (m : Model) (f : Flight), s.hearthUp = true → s.sched.models.get? h = some m → m.state = 0 → s.sourceReady m = true → s.sharedIdle m.ctx = false → m.flight = some id → s.flight? id = some f →
      (f.opcode = 0xA06 → (m.signers = [] ∨ signedBy m.signers (s.imageBytes m) = true) ∧ imageOk (s.imageBytes m) = true) →
      ∃ (t : State) (fin : Finished), exec (.modelLoadDone h) s = .next t ∧ t.stores = (s.placeImage m (s.imageBytes m)).stores ∧
        t.sched.models.get? h = some { m with state := 1, lastUse := s.clock.now, flight := none, pinned := m.pinned || m.wantPin, wantPin := false } ∧
        t.proto.finished = s.proto.finished ++ [fin] ∧ fin.flight = id ∧ fin.status = St.ok ∧ fin.result = f.result % 2 ^ 64) ∧
    (∀ (p : Packet) (f : Flight) (c : Caller) (m : Model), s.sched.models.get? (Packet.fld p 16 2) = some m →
      (s.takes p 0xA07 f c = true → modelPinChecks c p s = none → m.state = 1 → exec (.modelPin p) s = .next (State.okWith { s with sched := { s.sched with models := s.sched.models.set (Packet.fld p 16 2) { m with pinned := m.pinned || bit (Packet.fld p 18 1) 0, lastUse := s.clock.now } } } f (s.verOf p 0xA07) 0)) ∧
      (s.takes p 0xA08 f c = true → modelUnpinChecks c p s = none → m.pinned = true → exec (.modelUnpin p) s = .next (State.okWith { s with sched := { s.sched with models := s.sched.models.set (Packet.fld p 16 2) { m with pinned := false } } } f (s.verOf p 0xA08) 0)))

/-! ### Plans and jobs (R302 to R333, R342 to R353) -/

/-- LATTICE_LOAD of a good image on a running partition loads the lattice with an EMPTY plan and a zeroed plan region, and answers its handle and largest
share; MAP_PUBLISH of a new map makes epoch 0; PLAN_ABORT with no search running ends nothing; a PLAN_SEARCH whose conditions hold runs on the
lattice's cores, pinned to the map's newest epoch (R316, R318, R322, R331). Says that exec answers a next state, under conditions on the state and the
operands alone, for: latticeLoad (LATTICE_LOAD), mapPublish (MAP_PUBLISH), planSearch (PLAN_SEARCH), planAbort (PLAN_ABORT). -/
def Obligations.PlanningCommands : Prop :=
  ∀ (p : Packet) (s : State) (f : Flight) (c : Caller),
    (∀ n q cores, s.takes p 0x900 f c = true → Packet.ctxNo p ≠ 0xFFFF → latFields p = true → s.partOf (Packet.ctxNo p) = some (n, q) → q.state = 1 →
      let l := latticeOf p n (s.t2Reader (Packet.ctxNo p) (Packet.fld p 16 8))
      s.latStatus p n q (s.t2Reader (Packet.ctxNo p) (Packet.fld p 16 8)) = none → q.cores l.firstCore l.ncores = some cores → cores.any (s.coreHeld q.cls) = false →
      (∃ h, h < 65536 ∧ s.apps.lattices.get? h = none) → ∃ (t : State) (h : Nat), h < 65536 ∧ s.apps.lattices.get? h = none ∧ t.lattice? h = some l ∧ (∀ k, k ≠ h → t.lattice? k = s.lattice? k) ∧
        l.pstate = 0 ∧ l.search = none ∧ l.usable = true ∧
        exec (.latticeLoad p) s = .next (t.okWith f (s.verOf p 0x900) (h + 2 ^ 32 * ((List.range l.ncores).map (shareBytes l.classes l.prims l.ncores)).foldl max 0)) ∧
        (∀ i, l.header.length ≤ i → i < 4096 + 3 * l.bufBytes → t.stores.region.read (regionKey l.region i) = 0) ∧
        (∀ i, i < l.header.length → t.stores.region.read (regionKey l.region i) = l.header.getD i 0) ∧ t.stores.tier2 = s.stores.tier2 ∧ t.stores.host = s.stores.host) ∧
    (s.takes p 0x901 f c = true → mapPublishChecks c p s = none → s.apps.maps.get? (Packet.fld p 16 1) = none →
      ∃ t : State, exec (.mapPublish p) s = .next (t.okWith f (s.verOf p 0x901) (2 ^ 32 * 0xFFFFFFFF)) ∧
        t.apps.maps = s.apps.maps.set (Packet.fld p 16 1) { publishedMap p with epochs := [⟨0, Packet.fld p 40 8⟩], next := 1 } ∧ t.stores = s.stores ∧
        (∀ v g, v ∈ pageSpan (Packet.fld p 40 8) (publishedMap p).epochBytes → t.page? (Packet.ctxNo p) v = some g → g.readOnly = true)) ∧
    (∀ l, s.takes p 0x903 f c = true → planAbortChecks c p s = none → s.lattice? (Packet.fld p 16 2) = some l → l.search = none →
      exec (.planAbort p) s = .next ((s.setLattice (Packet.fld p 16 2) (fun l => { l with holdNext := l.holdNext || bit (Packet.fld p 18 1) 0, unloadNext := bit (Packet.fld p 18 1) 1 })).ends f
        (s.verOf p 0x903) St.ok (if Packet.fld p 18 1 = 0 then Inf.zeroWork else 0) 0)) ∧
    (∀ n q l m (cores : List Nat) e, s.takes p 0x902 f c = true → Packet.ctxNo p ≠ 0xFFFF → searchFields p = true → s.partOf (Packet.ctxNo p) = some (n, q) → q.state = 1 →
      s.ahead.searchStatus p n q = none → s.lattice? (Packet.fld p 16 2) = some l → s.apps.maps.get? (Packet.fld p 18 1) = some m → m.epochs.getLast? = some e →
      l.search = none → s.unitBusy l.cluster = false → q.cores l.firstCore l.ncores = some cores → cores ≠ [] → cores.any (s.coreHeld q.cls) = false →
      s.windowWaits (Packet.desc p 96) ((Packet.desc p 96).extent 1) = false → s.ahead.poisonHit (Packet.ctxNo p) (cores.getD 0 0) (Packet.desc p 96) ((Packet.desc p 96).extent 1) = none → reachedAt (s.dueBy (.flight f.id) (Packet.fld p 24 8)) s.clock.now = false → s.flight? f.id = some f →
      ∃ (t : State) (g : Flight) (l' : Lattice) (x : Search), exec (.planSearch p) s = .next t ∧ t.flight? f.id = some g ∧ g.running = true ∧ g.placed = true ∧
        t.lattice? (Packet.fld p 16 2) = some l' ∧ l'.search = some x ∧ x.flight = f.id ∧ x.epoch = e.number ∧ x.map = Packet.fld p 18 1 ∧ x.commit = none ∧
        t.proto.finished = s.proto.finished ∧ t.stores.region = s.stores.region ∧ t.stores.tier2 = s.stores.tier2 ∧
        (∀ (j core : Nat), cores[j]? = some core → ∃ o ∈ (t.core core).slots ++ (t.core core).held, o.owner = .flight f.id))

/-- From control-ready on, JOB_ARM (jobArm) whose image passes the checks of R345 stores the job, to be armed at the edge at least 5 us away; that edge
arms it and completes the packet with the handle and the frame; one that comes before control-ready waits, which is the model's choice (log 112).
JOB_DISARM (jobDisarm) marks the job for the next edge, and once no firing of it is in progress there it is gone and the packet completes. A firing
that is late is a miss (CTL_MISS, ctlMiss): known once, counted, and posted with its frame; a firing's record has the layout of R349 (R344, R346,
R347, R349, R350, R376). FIRING_COMPLETE (firingComplete) of a firing whose packets have all started and ended: what it wrote becomes visible, the
packets' statuses count in the order they were placed, its record is written at its number's place, the job is idle again, a miss is counted, the
cores of a pair that disagrees go to self-test, and then the jobs it precedes fire, with PRED_FAILED unless its status is OK; before that, the command
changes nothing but what was ready to go on. TRIG_LATEST_EXPIRE (trigLatestExpire) fires a live job that has not fired in the frame, with LATE_INPUT,
at LATEST_US after the frame's start, and only such a one (R343, R348 to R350, R353). Says that exec answers a next state, under conditions on the
state and the operands alone, for: jobArm (JOB_ARM), jobDisarm (JOB_DISARM), trigLatestExpire (TRIG_LATEST_EXPIRE), firingComplete (FIRING_COMPLETE),
ctlMiss (CTL_MISS). -/
def Obligations.JobsAndFirings : Prop :=
  (∀ (s : State),
    (∀ (p : Packet) (f : Flight) (c : Caller) (n : Nat) (q : Partition), s.takes p 0xA04 f c = true → 5 ≤ s.fw.bootStage → jobArmChecks c p s = none → s.partOf (Packet.ctxNo p) = some (n, q) →
      (∃ k, k < 64 ∧ s.sched.jobs.get? k = none) →
      let h := JobHead.of (s.jobImage p)
      ∃ (t : State) (k : Nat) (j : Job), exec (.jobArm p) s = .next t ∧ k < 64 ∧ s.sched.jobs.get? k = none ∧ t.sched.jobs = s.sched.jobs.set k j ∧ j.part = n ∧ j.ctx = Packet.ctxNo p ∧
        j.wcet = h.wcet ∧ j.cycles = h.cycles ∧ j.coreMask = h.coreMask ∧ j.qpUse = h.qpUse ∧ j.trigger = Packet.fld p 24 1 ∧ j.latestUs = Packet.fld p 28 2 ∧ j.slotBits = Packet.fld p 32 12 ∧
        j.pred = Packet.fld p 26 2 ∧ j.armFrame = s.dueFrame ∧ j.armFlight = some f.id ∧ j.firing = none ∧ j.firingNo = 0 ∧ j.bad = false ∧ t.proto.finished = s.proto.finished ∧ t.stores = s.stores) ∧
    (∀ (p : Packet) (f : Flight) (c : Caller), s.takes p 0xA04 f c = true → s.fw.bootStage < 5 → s.flight? f.id = some f →
      ∃ (t : State) (g : Flight), exec (.jobArm p) s = .next t ∧ t.flight? f.id = some g ∧ g.parked = true ∧ g.held = false ∧ g.pages = false ∧ t.sched = s.sched ∧
        t.proto.finished = s.proto.finished ∧ t.stores = s.stores) ∧
    (∀ (k id fr : Nat) (j : Job) (f : Flight), s.sched.jobs.get? k = some j → j.armFlight = some id → s.flight? id = some f → Tab.wf s.sched.jobs = true →
      (∀ kv ∈ s.sched.jobs, kv.2.armFlight = some id → kv.1 = k) →
      (fr < j.armFrame → (s.armJobs fr).sched.jobs.get? k = some j) ∧
      (j.armFrame ≤ fr → (s.armJobs fr).sched.jobs.get? k = some { j with armFlight := none } ∧ (s.armJobs fr).flight? id = none ∧
        ∃ fin ∈ (s.armJobs fr).proto.finished, fin.flight = id ∧ fin.status = St.ok ∧ fin.result = (k + 2 ^ 32 * (fr % 2 ^ 32)) % 2 ^ 64)) ∧
    (∀ (p : Packet) (f : Flight) (c : Caller) (j : Job), s.takes p 0xA05 f c = true → jobDisarmChecks c p s = none → s.sched.jobs.get? (Packet.fld p 16 1) = some j →
      ∃ t : State, exec (.jobDisarm p) s = .next t ∧ t.sched.jobs = s.sched.jobs.set (Packet.fld p 16 1) { j with disarm := some f.id, disarmFrame := s.clock.nextFrame } ∧
        t.proto.finished = s.proto.finished ∧ t.stores = s.stores) ∧
    (∀ (k id : Nat) (j : Job) (f : Flight), s.sched.jobs.get? k = some j → j.disarm = some id → s.flight? id = some f → Tab.wf s.sched.jobs = true →
      (∀ kv ∈ s.sched.jobs, kv.2.disarm = some id → kv.1 = k) →
      (j.disarmFrame ≤ s.frameNo → j.firing = none → s.settleJobs.sched.jobs.get? k = none ∧ ∃ fin ∈ s.settleJobs.proto.finished, fin.flight = id ∧ fin.status = St.ok) ∧
      (s.frameNo < j.disarmFrame ∨ j.firing ≠ none → s.settleJobs.sched.jobs.get? k = some j)) ∧
    (∀ (h : Nat) (j : Job), s.sched.jobs.get? h = some j → s.running = true →
      (j.firing = none → exec (.ctlMiss h) s = .next s) ∧
      (∀ g, j.firing = some g → g.missKnown = true → exec (.ctlMiss h) s = .next s) ∧
      (∀ g, j.firing = some g → g.missKnown = false → ∃ v : State, exec (.ctlMiss h) s = .next (v.post ⟨0x30, 3, 2, some j.ctx, j.part, g.frame⟩) ∧
        v.clock.now = max s.clock.now (g.trigger + j.wcet + 12001) ∧ v.sched.jobs.get? h = some { j with firing := some { g with missKnown := true, rflags := g.rflags ||| rfMiss } } ∧
        v.win.missTotal = s.win.missTotal + 1 ∧ v.stats.acc.misses = s.stats.acc.misses + 1 ∧
        (∀ q, s.sched.partitions.get? j.part = some q → v.sched.partitions.get? j.part = some { q with misses := q.misses + 1 }) ∧ v.stores = s.stores ∧ v.proto = s.proto)) ∧
    (∀ (frame trigger dispatch done status rflags exc no : Nat) (slack : Int), let b := firingRecord frame trigger dispatch done status rflags exc slack no
      b.length = 64 ∧ fieldAt b 0 8 = frame % 2 ^ 64 ∧ fieldAt b 8 8 = trigger % 2 ^ 64 ∧ fieldAt b 16 8 = dispatch % 2 ^ 64 ∧ fieldAt b 24 8 = done % 2 ^ 64 ∧
      fieldAt b 32 2 = status % 2 ^ 16 ∧ fieldAt b 34 2 = rflags % 2 ^ 16 ∧ fieldAt b 36 2 = exc % 2 ^ 16 ∧ fieldAt b 40 4 = toBits 32 slack ∧ fieldAt b 44 4 = no % 2 ^ 32)) ∧
  ((∀ (s : State) (h : Nat) (j : Job) (q : Partition) (g : Firing), s.sched.jobs.get? h = some j → s.sched.partitions.get? j.part = some q → s.running = true → j.firing = some g →
    (g.next < j.packets.length ∨ s.firingBusy h = true → exec (.firingComplete h) s = .next s.settle) ∧
    (j.packets.length ≤ g.next → s.firingBusy h = false →
      let done := max s.clock.now (max g.dispatch g.until_)
      let bad := s.badPairs j q
      let status := if bad = [] then (g.ends.foldl (fun (x : Firing) e => x.outcome j.packets.length e.2) g).status else St.coreFault
      let flags := if bad = [] then g.rflags else g.rflags ||| rfMismatch
      let miss := decide (g.trigger + j.wcet + 12000 < done) || decide (status = St.coreFault ∨ status = St.memUncorrectable)
      let at_ := regionKey j.recRegion (j.recOff + 64 * ((j.firingNo + 1) % 16))
      let bytes := firingRecord g.frame g.trigger g.dispatch done status (if miss then flags ||| rfMiss else flags) g.exc (((j.wcet + 12000 : Nat) : Int) - ((done - g.dispatch : Nat) : Int)) (j.firingNo + 1)
      ∃ (u : State) (j' : Job),
        exec (.firingComplete h) s = .next (((s.successors h).foldl (fun v k => v.fireJob k done (if status = 0 then 0 else rfPredFailed)) u).settle) ∧
        u.sched.jobs.get? h = some j' ∧ j'.firing = none ∧ j'.firingNo = j.firingNo + 1 ∧ (∀ k, k ≠ h → u.sched.jobs.get? k = s.sched.jobs.get? k) ∧ u.clock.now = done ∧
        (∀ i, i < 64 → u.stores.region.read (at_ + i) = bytes.getD i 0) ∧
        (∀ a, a < at_ ∨ at_ + 64 ≤ a → u.stores.region.read a = (s.apply (g.writes.map (·.2))).stores.region.read a) ∧
        u.stores.core = (s.apply (g.writes.map (·.2))).stores.core ∧ u.stores.tier2 = (s.apply (g.writes.map (·.2))).stores.tier2 ∧
        u.rel.testing = s.rel.testing ++ (bad.map (fun x => [x.1, x.2])).flatten ∧
        u.win.missTotal = s.win.missTotal + (if miss && !g.missKnown then 1 else 0))) ∧
  (∀ (s : State) (h : Nat) (j : Job), s.sched.jobs.get? h = some j → s.running = true →
    ((j.trigger = 1 ∨ j.trigger = 2) → j.live s.frameNo = true → j.firedFrame ≠ some s.frameNo →
      exec (.trigLatestExpire h) s = .next (((s.reach (s.clock.frameStart + j.latestUs * 1000)).fireJob h (s.clock.frameStart + j.latestUs * 1000) rfLate).settle)) ∧
    (¬(j.trigger = 1 ∨ j.trigger = 2) ∨ j.live s.frameNo = false ∨ j.firedFrame = some s.frameNo → exec (.trigLatestExpire h) s = .next s.settle)))

/-! ### Firmware, start-up, security and reports (R363 to R378, R412 to R414, R440, R457 to R459, R478) -/

/-- FW_STAGE of a chunk that is not the last writes it to the staging bank at its offset, after the fault-log entries that wait for the flash; the last
chunk of a bundle that passes its checks makes the bank STAGED; ACTIVATE_FW of a staged release on a parked part waits for its edge, deferred in an
emergency and for 100 ms after it; FW_STATUS answers the release that runs, the activation's state and what the banks hold (R365 to R368). Says that
exec answers a next state, under conditions on the state and the operands alone, for: fwStage (FW_STAGE), activateFw (ACTIVATE_FW), fwStatus
(FW_STATUS). -/
def Obligations.FirmwareCommands : Prop :=
  ∀ (p : Packet) (s : State) (f : Flight) (c : Caller),
    (s.takes p 0xB00 f c = true → fwStageChecks c p s = none → 0 < Packet.fld p 20 4 → bit (Packet.fld p 24 1) 1 = false →
      let old := if bit (Packet.fld p 24 1) 0 then (⟨0, 0, 0, false, []⟩ : Bank) else s.bank s.stageBank
      ∃ t : State, exec (.fwStage p) s = .next (t.okWith f (s.verOf p 0xB00) 0) ∧ t.bank s.stageBank = { old with state := 0, signed := false, bytes := old.bytes.writeBytes (Packet.fld p 16 4) (Packet.bytes p 64 (Packet.fld p 20 4)) } ∧
        t.bank (!s.stageBank) = s.bank (!s.stageBank) ∧ t.fw.stageNext = some (Packet.fld p 16 4 + Packet.fld p 20 4) ∧ t.fw.activeRelease = s.fw.activeRelease ∧ t.stores = s.stores ∧
        t.rel.queue = [] ∧ t.rel.entries = s.rel.queue.foldl putEntry s.rel.entries) ∧
    (s.takes p 0xB00 f c = true → fwStageChecks c p s = none → 0 < Packet.fld p 20 4 → bit (Packet.fld p 24 1) 1 = true →
      let old := if bit (Packet.fld p 24 1) 0 then (⟨0, 0, 0, false, []⟩ : Bank) else s.bank s.stageBank
      let img := old.bytes.writeBytes (Packet.fld p 16 4) (Packet.bytes p 64 (Packet.fld p 20 4))
      s.bundleStatus img (Packet.fld p 16 4 + Packet.fld p 20 4) = none →
      ∃ t : State, exec (.fwStage p) s = .next (t.okWith f (s.verOf p 0xB00) (bundleRelease img)) ∧ t.bank s.stageBank = ⟨1, bundleRelease img, bundleSec img, true, img⟩ ∧
        t.bank (!s.stageBank) = s.bank (!s.stageBank) ∧ t.fw.stageNext = none) ∧
    (s.takes p 0xB01 f c = true → activateChecks c p s = none → s.power.level = 0 → s.deferEnd ≤ s.clock.now →
      ∃ t : State, exec (.activateFw p) s = .next t ∧ t.fw.activation = some ⟨some f.id, Packet.fld p 16 4, 2, s.clock.now, 0, 0, false⟩ ∧ t.proto.finished = s.proto.finished ∧ t.stores = s.stores) ∧
    (s.takes p 0xB01 f c = true → activateChecks c p s = none → (0 < s.power.level ∨ s.clock.now < s.deferEnd) →
      ∃ t : State, exec (.activateFw p) s = .next t ∧ t.fw.activation = some ⟨some f.id, Packet.fld p 16 4, 1, s.clock.now, 0, 0, false⟩ ∧ t.proto.finished = s.proto.finished) ∧
    (s.takes p 0xB02 f c = true → fwStatusChecks c p s = none →
      exec (.fwStatus p) s = .next (s.okWith f (s.verOf p 0xB02) (if Packet.fld p 16 1 = 0 then s.fw.activeRelease + 2 ^ 32 * s.activationCode + 2 ^ 34 * b2n (s.hasBank 1) + 2 ^ 35 * b2n (s.hasBank 3)
        else s.bankRelease 1 + 2 ^ 32 * s.bankRelease 3)))

/-- FW_SWITCH begins the switch of an activation that is due; FW_MEASURE with every measurement matching makes the staged release the one that runs, moves
the marker and raises the least security version, and completes the activation; a failed one waits for the next edge with the old release;
ACTIVATION_TIMEOUT ends one deferred for 60 s in all (R369 to R371). The expiry of a started processor's watchdog restarts it, and the third within 60
s holds it in reset; a restarted processor is back with PROCESSOR_RESTART_DONE (SEC then writes a summary that is due, and a CCC hands on what it
held), and Hearth with HEARTH_RESUME, which counts a heartbeat for every session (R373 to R375). Says that exec answers a next state, under conditions
on the state and the operands alone, for: watchdogExpire (WATCHDOG_EXPIRE), hearthResume (HEARTH_RESUME), fwSwitch (FW_SWITCH), fwMeasure
(FW_MEASURE), activationTimeout (ACTIVATION_TIMEOUT), processorRestartDone (PROCESSOR_RESTART_DONE). -/
def Obligations.FirmwareSwitchesAndRestarts : Prop :=
  (∀ (s : State) (a : Activation), s.running = true →
    (s.switchDue = some a → ∃ t : State, exec .fwSwitch s = .next t ∧ t.fw.activation = some { a with state := 3, switchFrame := s.frameNo } ∧ t.fw.activeRelease = s.fw.activeRelease ∧
      t.stores = s.stores ∧ t.proto = s.proto) ∧
    (s.switchDue = none → exec .fwSwitch s = .next s) ∧
    (s.fw.activation = some a → a.state = 3 → a.failed = false →
      (∃ u : State, exec (.fwMeasure true) s = .next u.settle ∧ u.fw.activeRelease = a.release ∧ u.fw.markerB = s.stageBank ∧ (u.bank s.stageBank).state = 2 ∧ (u.bank (!s.stageBank)).state ≠ 2 ∧
        u.sec.fuses.minSecVersion = max s.sec.fuses.minSecVersion (min (s.bank s.stageBank).secVersion 255) ∧ u.fw.activation = none ∧ u.procDown 2 = true) ∧
      exec (.fwMeasure false) s = .next { s with fw := { s.fw with activation := some { a with failed := true } } }) ∧
    (s.fw.activation = some a → a.state = 1 → (0 < s.power.level ∨ max s.clock.now (a.since + (60000000000 - a.total)) < s.deferEnd) →
      exec .activationTimeout s = .next ((s.reach (max s.clock.now (a.since + (60000000000 - a.total)))).endActivation St.activationTimeout)) ∧
    (∀ u id, a.state ≠ 3 → s.fw.activation = some a → a.flight = some id → (∃ g, s.flight? id = some g) → ∃ fin, (s.endActivation u).proto.finished = s.proto.finished ++ [fin] ∧ fin.flight = id ∧
      fin.status = u ∧ (s.endActivation u).fw.activation = none)) ∧
  (∀ (s : State),
    (∀ pr, s.started (Proc.code pr) = true → s.procDown (Proc.code pr) = false → ∃ (t : State) (x : Processor), exec (.watchdogExpire pr) s = .next t ∧
      t.fw.procs.get? (Proc.code pr) = some x ∧
      (let n := ((((s.fw.procs.get? (Proc.code pr)).getD Processor.reset).expiries).filter (fun e => decide (s.clock.now < e + 60000000000))).length + 1
       x.held = decide (3 ≤ n) ∧ x.restarting = decide (n < 3) ∧ t.rel.counts.fwRestarts = (if n < 3 then sat32 (s.rel.counts.fwRestarts + 1) else s.rel.counts.fwRestarts)) ∧
      (∀ k, k ≠ Proc.code pr → t.fw.procs.get? k = s.fw.procs.get? k)) ∧
    (∀ pr, s.started (Proc.code pr) = false ∨ s.procDown (Proc.code pr) = true → exec (.watchdogExpire pr) s = .next s) ∧
    (∀ code, (s.procBack code).fw.procs.get? code = some { (s.fw.procs.get? code).getD Processor.reset with restarting := false } ∧
      (∀ k, k ≠ code → (s.procBack code).fw.procs.get? k = s.fw.procs.get? k) ∧ (s.procBack code).cores = s.cores ∧ (s.procBack code).rel = s.rel ∧ (s.procBack code).proto = s.proto) ∧
    (∀ k, s.restarting (8 + k) = true → exec (.processorRestartDone (.ccc k)) s = .next (((s.procBack (8 + k)).refillCluster k).settle)) ∧
    (s.restarting 0 = true → exec (.processorRestartDone .sec) s = .next ((s.procBack 0).dueSummary.settle)) ∧
    (s.restarting 1 = true → exec (.processorRestartDone .temper) s = .next ((s.procBack 1).respond.settle)) ∧
    (∀ pr, s.restarting (Proc.code pr) = false → exec (.processorRestartDone pr) s = .next s) ∧
    (s.restarting 2 = true → s.switching = false → exec .hearthResume s = .next ((s.procBack 2).beatAll.settle)) ∧
    (∀ fn g x, s.func? fn = some g → g.session = some x → ∃ g', s.beatAll.func? fn = some g' ∧ g'.session = some { x with lastBeat := s.clock.now }))

/-- PWR_GOOD_RISE powers the part up at boot stage 1, its boot count one more than the newest summary's and that summary's fence list out of service; the
stages then advance one by one: stage 1 boots the marked bank, or the other where the marked one fails SEC's checks, or ends the start-up; stage 2
first releases the robot-time counter at zero; host-ready keeps the settings of memory training; ports of the robot network that fail stay down (R22,
R363, R375 to R377, R453, R458, R465). A sound handshake with the service certificate, sent to the management port's address, unlocks the test modes,
and only after every page key is erased and the owner anchors and fleet roots are burned; another handshake there is answered with an alert and
changes nothing, and one sent elsewhere is not seen. BYPASS, IDCODE and SAMPLE act on any part, the other pin instructions only at stage 1 with
TEST_EN, and a private instruction of a locked part is BYPASS; EXTEST and CLAMP drive the lands from the chain's latch (R392, R413, R414, R478). Says
that exec answers a next state, under conditions on the state and the operands alone, for: pwrGoodRise (PWR_GOOD_RISE), bootStageAdvance
(BOOT_STAGE_ADVANCE), testUnlockSession (TEST_UNLOCK_SESSION), testUnlockTimeout (TEST_UNLOCK_TIMEOUT), jtagInstruction (JTAG_INSTRUCTION). -/
def Obligations.StartUpAndTestPort : Prop :=
  (∀ (s : State),
    (∀ te, s.power.railsOn = true → s.power.pwrGood = false → ∃ t : State, exec (.pwrGoodRise te) s = .next t ∧ t.fw.powered = true ∧ t.fw.bootStage = 1 ∧ t.power.pwrGood = true ∧
      t.fw.unlockWait = te ∧ t.clock.running = false ∧ t.rel.bootCount = ((s.rel.newest.map (·.bootCount)).getD 0) + 1 ∧ t.rel.fenced = (s.rel.newest.map (·.fences)).getD [] ∧
      t.rel.retired = (s.rel.newest.map (·.retired)).getD [] ∧ t.rel.entries = s.rel.entries ∧ t.rel.newest.map (·.bootCount) = some t.rel.bootCount ∧
      t.fw.bankA = s.fw.bankA ∧ t.fw.bankB = s.fw.bankB ∧ t.fw.markerB = s.fw.markerB ∧ t.fw.training = s.fw.training ∧
      t.sec.fuses = s.sec.fuses ∧ t.stores.core = [] ∧ t.stores.region = [] ∧ t.stores.tier2 = [] ∧ t.stores.xd = [] ∧ t.stores.host = s.stores.host ∧ t.stores.ufs = s.stores.ufs) ∧
    (s.fw.powered = true → s.fw.fatal = false →
      (∀ r, s.fw.bootStage = 1 → s.fw.unlockWait = true ∨ s.pinsHeld = true → exec (.bootStageAdvance r) s = .next s) ∧
      (s.fw.bootStage = 1 → s.fw.unlockWait = false → s.pinsHeld = false →
        let m := s.fw.markerB
        let other := s.bankPasses (!m) && decide ((s.bank (!m)).state = 1 ∨ (s.bank (!m)).state = 2)
        let boots := fun (r : BootReport) (b : Bool) (reason : Nat) => ∃ t : State, exec (.bootStageAdvance r) s = .next t ∧ t.fw.bootStage = 2 ∧
          t.fw.activeRelease = (s.bank b).release ∧ t.fw.bootFail = reason ∧ t.fw.fatal = false ∧ t.pins.flashOctal = true ∧ t.fw.markerB = m
        let ends := fun (r : BootReport) => ∃ t : State, exec (.bootStageAdvance r) s = .next t ∧ t.fw.fatal = true ∧ t.fw.bootFail = 1 ∧ t.fw.bootStage = 1
        (s.bankPasses m = true → boots .ok m s.fw.bootFail) ∧ (s.bankPasses m = false → other = true → boots .ok (!m) 2) ∧
        (s.bankPasses m = false → other = false → ends .ok) ∧ (other = true → boots .otherBank (!m) 2) ∧ (other = false → ends .otherBank) ∧ ends .noBank) ∧
      (s.fw.bootStage = 2 → s.clock.running = false → ∃ t : State, exec (.bootStageAdvance .ok) s = .next t ∧ t.clock.running = true ∧ t.clock.now = 0 ∧ t.fw.bootStage = 2) ∧
      (s.fw.bootStage = 2 → s.clock.running = true → exec (.bootStageAdvance .ok) s = .next { s with fw := { s.fw with bootStage := 3 } }) ∧
      (s.fw.bootStage = 2 → s.clock.running = false → exec (.bootStageAdvance .railFailed) s = .next { s with fw := { s.fw with bootFail := 3, fatal := true } }) ∧
      (s.fw.bootStage = 3 → (∃ u : State, exec (.bootStageAdvance .ok) s = .next u.settle ∧ u.fw.bootStage = 4 ∧ u.fw.training = some s.tiers.taps ∧
          (s.fw.ufsFailed = true → u.pins.ufsGear = 0) ∧ (s.fw.ufsFailed = false → u.pins.ufsGear = 4 ∨ u.pins.ufsGear = 5) ∧ u.stores = s.stores ∧ u.proto = s.proto) ∧
        exec (.bootStageAdvance .stackFailed) s = .next { s with fw := { s.fw with bootFail := 4, fatal := true } } ∧
        exec (.bootStageAdvance .ufsFailed) s = .next { s with fw := { s.fw with ufsFailed := true, bootFail := 6 } }) ∧
      (s.fw.bootStage = 4 → exec (.bootStageAdvance .ok) s = .next (State.settle { s with fw := { s.fw with bootStage := 5 } }) ∧
        (∀ ports, exec (.bootStageAdvance (.netFailed ports)) s = .next (State.settle { s with fw := { s.fw with bootStage := 5, bootFail := 7 }, pins := { s.pins with netDown := ports } })))) ∧
    (s.fw.powered = true → exec .testUnlockTimeout s = .next { s with fw := { s.fw with unlockWait := false } })) ∧
  (∀ (s : State),
    (∀ hs, s.fw.powered = true → s.fw.unlockWait = true → s.fw.bootStage = 1 →
      let service := hs.chainDigest = s.sec.fuses.serviceAnchor ∧ hs.serial = hexText deviceId
      (s.addressed hs = true → Handshake.sound hs = true → service → ∃ t : State, exec (.testUnlockSession hs) s = .next t ∧
        t.fw.testModes = true ∧ t.fw.unlockWait = false ∧ t.rel.unlocked = true ∧ (∀ n x, t.ctx? n = some x → ∀ g ∈ x.gens, g.key = []) ∧
        t.sec.fuses.ownerAnchors = List.replicate 4 (burned 48) ∧ t.sec.fuses.fleetRoots = List.replicate 4 (burned 32)) ∧
      (s.addressed hs = true → ¬(Handshake.sound hs = true ∧ service) → exec (.testUnlockSession hs) s = .next (s.emit .tlsAlert)) ∧
      (s.addressed hs = false → exec (.testUnlockSession hs) s = .next s)) ∧
    exec (.jtagInstruction .bypass) s = .next { s with pins := { s.pins with jtag := none, jtagData := 0 } } ∧
    exec (.jtagInstruction .idcode) s = .next { s with pins := { s.pins with jtag := some .idcode, jtagData := idcode s.order } } ∧
    (∃ t : State, exec (.jtagInstruction .samplePreload) s = .next t ∧ t.pins.jtag = some .samplePreload ∧ t.pins.jtagData < 2 ^ scanCells s.order ∧ t.pins.scan < 2 ^ scanCells s.order ∧
      t.lands = .functional ∧ t.stores = s.stores ∧ t.proto = s.proto ∧ t.fw = s.fw) ∧
    (let pinTest := s.fw.powered && s.pins.testEn && decide (s.fw.bootStage = 1)
     (pinTest = true → (∃ t : State, exec (.jtagInstruction .extest) s = .next t ∧ t.pins.jtag = some .extest ∧ t.pins.jtagData < 2 ^ scanCells s.order ∧ t.pins.scan = s.pins.scan ∧
        t.lands = .scan s.pins.scan ∧ t.stores = s.stores ∧ t.fw = s.fw) ∧
        exec (.jtagInstruction .clamp) s = .next { s with pins := { s.pins with jtag := some .clamp, jtagData := 0 } } ∧
        exec (.jtagInstruction .highz) s = .next { s with pins := { s.pins with jtag := some .highz, jtagData := 0 } }) ∧
     (pinTest = false → ∀ i ∈ [Sys2Proof.JtagInstr.extest, .clamp, .highz], exec (.jtagInstruction i) s = .next { s with pins := { s.pins with jtag := none, jtagData := 0 } })) ∧
    (s.pins.jtag = some .clamp → s.lands = .scan s.pins.scan) ∧ (s.pins.jtag = some .highz → s.lands = .highZ) ∧ (s.pins.jtag = none → s.lands = .functional) ∧
    (∀ code, s.fw.testModes = false → exec (.jtagInstruction (.priv code)) s = .next { s with pins := { s.pins with jtag := none, jtagData := 0 } }))

/-- POWER_READ answers the word its SELECT names, as its caller may see it; ERROR_COUNTS sends the owner the record as a message and writes it to tier 2
or a window for an operator; FAULT_LOG_EXPORT sends the signed log to the owner and enters itself in it (R440, R441, R457, R459). Says that exec
answers a next state, under conditions on the state and the operands alone, for: powerRead (POWER_READ), faultLogExport (FAULT_LOG_EXPORT),
errorCounts (ERROR_COUNTS). -/
def Obligations.ReportsAreAnswered : Prop :=
  ∀ (p : Packet) (s : State) (f : Flight) (c : Caller),
    (s.takes p 0xD00 f c = true → powerReadChecks c p s = none → exec (.powerRead p) s = .next (s.okWith f (s.verOf p 0xD00) (s.powerWord c.role (Packet.fld p 16 1)))) ∧
    (s.takes p 0xE01 f c = true → errorCountsChecks c p s = none → c.role = .owner → exec (.errorCounts p) s = .next (s.finishFull f.id St.ok 0 0 (some (s.verOf p 0xE01)) [] [s.countsRecord])) ∧
    (s.takes p 0xE01 f c = true → errorCountsChecks c p s = none → c.role ≠ .owner → ∀ d,
      s.moveSide (Packet.ctxNo p) 0 (Packet.fld p 16 1) (Packet.fld p 24 8) ⟨1, s.countsRecord.length, s.countsRecord.length⟩ true = .ok d → s.sideReady d = true →
      let w := s.sideWrite (Packet.ctxNo p) 0 d 0 s.countsRecord
      exec (.errorCounts p) s = .next ((s.apply w.1).finishFull f.id St.ok 0 0 (some (s.verOf p 0xE01)) w.2 [])) ∧
    (s.takes p 0xE00 f c = true → shortOk p 16 = true →
      let t := s.bump.logFault 0xA 0 s.rel.entries.length
      exec (.faultLogExport p) s = .next (t.finishFull f.id St.ok 0 s.logExport.length (some (s.verOf p 0xE00)) [] (messagesOf 64 s.logExport)) ∧
      t.stores = s.stores ∧ t.proto = s.proto ∧ t.rel.entries = s.rel.entries ∧
      ((∀ x ∈ s.rel.lastOf, ¬(x.1 = 0xA ∧ x.2.1 = 0 ∧ s.clock.now < x.2.2 + 10 ^ 9)) →
        t.rel.queue = s.rel.queue ++ [⟨s.rel.nextSeq, s.rel.bootCount, s.clock.now, 0xA, 0, s.fw.activeRelease, s.rel.entries.length⟩]))

/-! ### Supply, power, faults and reset (R12, R13, R22, R415 to R458, R472) -/

/-- MODULE_RESET, a TRIP, a supply above 80 V, a lockout below 24 V and a failed internal link take every rail off: the volatile memories and the state
behind them are gone; the boot flash with its banks, the memory-training store and the fault log, the fuses and what lies outside the part stay, what
the newer copy of the log's summary says holds again, and a TRIP's cause is latched; the carrier starts the rails again above 26 V, after 100 ms below
24 V where a TRIP held them off, and behind RESET_IN (R415, R419, R420, R439, R444, R473). A report of VIN raises the causes whose thresholds it
passes, and clears those it has come back from; below 28 V an E3 cause stands. The level is at once the highest of the causes that stand or have
cleared less than 50 ms before, and a hold that expires lowers it (R415, R435). Says that exec answers a next state, under conditions on the state and
the operands alone, for: moduleReset (MODULE_RESET), vinCauseRaise (VIN_CAUSE_RAISE), vinCauseClear (VIN_CAUSE_CLEAR), e3Undervoltage
(E3_UNDERVOLTAGE), overvoltageTrip (OVERVOLTAGE_TRIP), undervoltageLockout (UNDERVOLTAGE_LOCKOUT), carrierStart (CARRIER_START), emergencyHoldExpire
(EMERGENCY_HOLD_EXPIRE), trip (TRIP), internalLinkFail (INTERNAL_LINK_FAIL), resetInRelease (RESET_IN_RELEASE), railOutOfRegulation
(RAIL_OUT_OF_REGULATION). -/
def Obligations.SupplyAndLevels : Prop :=
  (∀ (s : State),
    let off := fun (t : State) => t.power.railsOn = false ∧ t.power.pwrGood = false ∧ t.clock.running = false ∧ t.fw.powered = false ∧ t.sched.partitions = [] ∧ t.proto.flights = [] ∧
      t.stores.core = [] ∧ t.stores.region = [] ∧ t.stores.tier2 = [] ∧ t.stores.xd = [] ∧ t.fw.bankA = s.fw.bankA ∧ t.fw.bankB = s.fw.bankB ∧ t.fw.markerB = s.fw.markerB ∧
      t.sec.fuses = s.sec.fuses ∧ t.fw.training = s.fw.training ∧ t.rel.entries = s.rel.entries ∧ t.rel.summaryA = s.rel.summaryA ∧ t.rel.summaryB = s.rel.summaryB ∧ t.rel.queue = [] ∧
      t.rel.bootCount = (s.rel.newest.map (·.bootCount)).getD 0 ∧ t.rel.fenceList = (s.rel.newest.map (·.fences)).getD [] ∧ t.rel.retired = (s.rel.newest.map (·.retired)).getD [] ∧
      t.stores.host = s.stores.host ∧ t.stores.ufs = s.stores.ufs ∧ t.out = s.out
    (s.power.railsOn = true →
      (∃ t : State, exec .moduleReset s = .next t ∧ off t ∧ t.power.tripped = false ∧ t.power.tripCause = s.power.tripCause ∧ t.power.resetIn = true) ∧
      (∀ x ∈ [(Sys2Proof.TripCause.supply, 1), (.thermal, 2), (.internalLink, 3), (.tagOrCommit, 4)], ∃ t : State, exec (.trip x.1) s = .next t ∧ off t ∧ t.power.tripped = true ∧ t.power.tripCause = x.2) ∧
      (∃ t : State, exec .internalLinkFail s = .next t ∧ off t ∧ t.power.tripped = true ∧ t.power.tripCause = 3) ∧
      (80000 < s.power.vin → ∃ t : State, exec .overvoltageTrip s = .next t ∧ off t ∧ t.power.tripped = true ∧ t.power.tripCause = 1) ∧
      (s.power.vin < 24000 → ∃ t : State, exec .undervoltageLockout s = .next t ∧ off t ∧ t.power.tripped = false ∧ t.power.tripCause = s.power.tripCause)) ∧
    (∀ us, s.power.railsOn = false → 26000 < s.power.vin → s.power.resetIn = false → (s.power.tripped = false ∨ 100000 ≤ us) →
      exec (.carrierStart us) s = .next { s with power := { s.power with railsOn := true, tripped := false } }) ∧
    (∀ us, s.power.tripped = true → us < 100000 → exec (.carrierStart us) s = .next s) ∧
    (s.power.resetIn = true → exec .resetInRelease s = .next { s with power := { s.power with resetIn := false, railsOn := decide (26000 < s.power.vin) && !s.power.tripped } }) ∧
    exec .railOutOfRegulation s = .next { s with power := { s.power with pwrGood := false } }) ∧
  (∀ (s : State), s.power.railsOn = true →
    let then_ := fun (c : Instr) (u : State) => (∃ t : State, exec c s = .next t ∧ (t = u ∨ t = u.settle)) ∧ u.power.level = u.levelAt u.clock.now
    (∀ mv, mv ≤ 90000 → ∃ u : State, then_ (.vinCauseRaise mv) u ∧ u.power.vin = mv ∧ u.clock = s.clock ∧
      (∀ k l, (k, l, decide (62000 < mv)) = (0, 1, true) ∨ (k, l, decide (mv < 34000)) = (1, 1, true) ∨ (k, l, decide (mv < 31000)) = (2, 2, true) → u.power.causes.get? k = some ⟨l, true, 0⟩) ∧
      (34000 ≤ mv → mv ≤ 62000 → u.power.causes = s.power.causes)) ∧
    (∀ mv, mv ≤ 90000 → ∃ u : State, then_ (.vinCauseClear mv) u ∧ u.power.vin = mv ∧ u.clock = s.clock ∧
      (∀ k c, s.power.causes.get? k = some c → c.stands = true → (k = 0 ∧ mv ≤ 61000) ∨ (k = 1 ∧ 35000 ≤ mv) ∨ (k = 2 ∧ 32000 ≤ mv) ∨ (k = 3 ∧ 29000 ≤ mv) →
        u.power.causes.get? k = some { c with stands := false, cleared := s.clock.now })) ∧
    (s.power.vin < 28000 → ∃ u : State, then_ .e3Undervoltage u ∧ u.power.causes.get? 3 = some ⟨3, true, 0⟩ ∧ 3 ≤ u.power.level) ∧
    (∀ t, s.running = true → s.holdEnd = some t → ∃ u : State, then_ .emergencyHoldExpire u ∧ u.power.causes = s.power.causes ∧ u.clock.now = max s.clock.now t ∧ u.power.level < s.power.level))

/-- CAP_CONTROL_TICK counts the energy of the time since the last tick, and above the cap, with no boost left and no excursion, holds every cluster but a
control-class one a step of 62.5 MHz lower, or, where no such step is left, gates the cores of classes 1 to 3 of one more cluster, on which nothing
then runs (which cluster is the model's choice, log 113); EXCURSION_END ends one after 2 s; OVERPOWER_GATE and OVERPOWER_RELEASE act above 160 W and
below 150 W; THERMAL_SAMPLE with CD0 hot begins the first step of its clusters, and THROTTLE_STEP goes on (R13, R422, R425 to R427, R432, R433). Says
that exec answers a next state, under conditions on the state and the operands alone, for: capControlTick (CAP_CONTROL_TICK), excursionEnd
(EXCURSION_END), overpowerGate (OVERPOWER_GATE), overpowerRelease (OVERPOWER_RELEASE), thermalSample (THERMAL_SAMPLE), throttleStep (THROTTLE_STEP). -/
def Obligations.CapAndTemperature : Prop :=
  ∀ (s : State), s.running = true → s.temperUp = true →
    (∀ mw rails, 160000 < mw → s.effectiveCap * 1000 < mw → s.power.excursion = none → s.power.applied < 2 → (∀ kv ∈ s.power.clusters, kv.2.boost = false) →
      (∃ kv ∈ s.power.clusters, s.controlCluster kv.1 = false ∧ kv.2.capSteps < 12) → ∃ t : State, exec (.capControlTick mw rails) s = .next t ∧
        t.clock.now = max s.clock.now (s.power.lastTick + 100000) ∧ t.power.draw = mw ∧ t.power.lastTick = t.clock.now ∧
        t.stats.acc.energy = s.stats.acc.energy + mw * (t.clock.now - s.power.lastTick) / 1000000 ∧
        (∀ k c, s.power.clusters.get? k = some c → t.power.clusters.get? k = some { c with capSteps := if s.controlCluster k then c.capSteps else min 12 (c.capSteps + 1), clock := clockKhz (s.controlCluster k) false (max c.throttleSteps (if s.controlCluster k then c.capSteps else min 12 (c.capSteps + 1))) })) ∧
    (∀ mw rails, 160000 < mw → s.effectiveCap * 1000 < mw → s.power.excursion = none → (∀ kv ∈ s.power.clusters, kv.2.boost = false) →
      (2 ≤ s.power.applied ∨ ∀ kv ∈ s.power.clusters, s.controlCluster kv.1 = true ∨ 12 ≤ kv.2.capSteps) → (∃ kv ∈ s.power.clusters, kv.2.capGated = false ∧ s.gateable kv.1 = true) →
      ∃ (t : State) (k : Nat), exec (.capControlTick mw rails) s = .next t ∧ s.gateable k = true ∧ (∃ kv ∈ s.power.clusters, kv.1 = k ∧ kv.2.capGated = false) ∧
        t.power.clusters.map (fun kv => (kv.1, kv.2.capGated, kv.2.capSteps)) = s.power.clusters.map (fun kv => (kv.1, kv.2.capGated || decide (kv.1 = k), kv.2.capSteps))) ∧
    (∀ core part c, s.power.clusters.get? (core / 256) = some c → c.capGated = true → s.partClass part ≠ 0 → s.coreStopped core part = true) ∧
    (∀ b n, 1000000 = clockKhz true false n ∧ 250000 ≤ clockKhz false b n ∧ clockKhz false b n ≤ 1250000) ∧
    (∀ t0, s.power.excursion = some t0 → ∃ t : State, exec .excursionEnd s = .next t ∧ t.clock.now = max s.clock.now (t0 + 2000000000) ∧ t.power.excursion = none ∧
      t.power.lastExcursionEnd = t.clock.now ∧ t.power.lastExcursionLength = t.clock.now - t0) ∧
    (∀ mw, (160000 < mw → exec (.overpowerGate mw) s = .next { s with power := { s.power with overpower := true } }) ∧ (mw ≤ 160000 → exec (.overpowerGate mw) s = .next s) ∧
      (mw < 150000 → exec (.overpowerRelease mw) s = .next { s with power := { s.power with overpower := false } }) ∧ (150000 ≤ mw → exec (.overpowerRelease mw) s = .next s)) ∧
    (∀ (t0 : Int) (rest : List Int), s.power.causes = [] → s.power.level = 0 → s.power.applied < 3 → s.power.throttle = [] → 950 ≤ t0 → t0 < 1020 → (∀ t ∈ rest, t < 880) →
      ∃ t : State, exec (.thermalSample (t0 :: rest)) s = .next t ∧ t.power.throttle = [0] ∧ t.power.temps.get? 0 = some t0 ∧ t.power.level = 0 ∧
        (∀ k c, s.power.clusters.get? k = some c → ∃ c', t.power.clusters.get? k = some c' ∧ c'.boost = false ∧
          c'.throttleSteps = if k < 4 ∧ s.controlCluster k = false then min 12 (c.throttleSteps + 1) else c.throttleSteps)) ∧
    (∀ k c, s.power.clusters.get? k = some c → s.power.applied < 3 →
      let hot := s.power.throttle.any (fun g => throttles g k) && !s.controlCluster k
      (if hot then c.throttleSteps < 12 else 0 < c.throttleSteps) → ∃ (t : State) (c' : ClusterPower), exec (.throttleStep k) s = .next t ∧ t.clock.now = max s.clock.now (c.stepAt + 1000000) ∧
        t.power.clusters.get? k = some c' ∧ c'.throttleSteps = (if hot then c.throttleSteps + 1 else c.throttleSteps - 1) ∧ c'.stepAt = t.clock.now)

/-- POWER_STATE_CHOOSE puts an idle cluster in the deepest state allowed that it can wake from before its earliest known event, which no event of a job
armed in it and no wake request precedes; a cluster that sleeps deeper begins to wake. POWER_STATE_WAKE takes it out after its wake latency, a
control-class cluster's without Temper too; STANDBY_ENTER and STANDBY_WAKE change the part's standby (R428 to R431). Says that exec answers a next
state, under conditions on the state and the operands alone, for: powerStateChoose (POWER_STATE_CHOOSE), powerStateWake (POWER_STATE_WAKE),
standbyEnter (STANDBY_ENTER), standbyWake (STANDBY_WAKE). -/
def Obligations.PowerStates : Prop :=
  ∀ (s : State),
    (∀ k t c, s.temperUp = true → s.clusterBusy k = false → s.power.standby = false → s.power.clusters.get? k = some c → ∃ (u : State) (c' : ClusterPower), exec (.powerStateChoose k t) s = .next u ∧
      u.power.clusters.get? k = some c' ∧ c'.ps = max c.ps (s.psChoice k (s.tNext k t)) ∧ c'.clock = c.clock ∧ (s.psChoice k (s.tNext k t) < c.ps → c'.wakeAt = some s.clock.now) ∧
      (∀ x, 0 < c'.ps → c'.ps = s.psChoice k (s.tNext k t) → s.tNext k t = some x → c'.wakeAt = some (s.clock.now + x - psWake c'.ps)) ∧
      (∀ j, j ≠ k → u.power.clusters.get? j = s.power.clusters.get? j) ∧ u.clock = s.clock) ∧
    (∀ k t, let ps := s.psChoice k t
      ps ≤ bits (s.activeWord 0 0 3) 7 4 ∧ ps ≤ s.psLimit k ∧ ps ≤ 3 ∧ (∀ x, t = some x → 0 < ps → 10 * (psWake ps + s.psBreakEven ps) ≤ 9 * x) ∧
      (∀ q, ps < q → q ≤ 3 → q ≤ bits (s.activeWord 0 0 3) 7 4 → q ≤ s.psLimit k → ∃ x, t = some x ∧ 9 * x < 10 * (psWake q + s.psBreakEven q))) ∧
    (∀ k asked, (∀ kv ∈ s.sched.jobs, ∀ q, s.sched.partitions.get? kv.2.part = some q → q.clusters.contains k = true → ∀ e ∈ s.jobEvents kv.2, ∃ x, s.tNext k asked = some x ∧ x ≤ e - s.clock.now) ∧
      (∀ a, asked = some a → ∃ x, s.tNext k asked = some x ∧ x ≤ a) ∧ (s.sched.jobs = [] → s.tNext k none = none)) ∧
    (∀ j : Job, (j.trigger = 0 → s.jobEvents j = [s.clock.nextEdge]) ∧
      (j.trigger ≠ 0 → s.clock.now < s.clock.frameStart + j.latestUs * 1000 → j.firedFrame ≠ some s.frameNo → s.clock.frameStart + j.latestUs * 1000 ∈ s.jobEvents j) ∧
      (∀ i t, j.trigger ≠ 0 → (i, t) ∈ s.ingest.slots → bit j.slotBits i = true → s.slotOn i = true → t.model.first = false → t.predicted.toNat ∈ s.jobEvents j)) ∧
    (∀ k c, s.power.clusters.get? k = some c → (s.temperUp = true ∨ s.controlCluster k = true) → s.power.standby = false → 0 < c.ps → ∃ u : State, exec (.powerStateWake k) s = .next u ∧
      u.power.clusters.get? k = some { c with ps := 0, wakeAt := none } ∧
      u.clock.now = max s.clock.now ((if s.clusterBusy k then s.clock.now else c.wakeAt.getD s.clock.now) + (if c.ps = 1 then 2000 else if c.ps = 2 then 40000 else if c.ps = 3 then 400000 else 0))) ∧
    (s.temperUp = true → s.hearthUp = true → s.power.standby = false → (s.reach (s.power.lastActivity + s.activeWord 0 0 4 * 1000000)).standbyOk = true → ∃ u : State, exec .standbyEnter s = .next u ∧
      u.power.standby = true ∧ (∀ k c, s.power.clusters.get? k = some c → u.power.clusters.get? k = some { c with ps := 3, wakeAt := none }) ∧ u.stores = s.stores) ∧
    (s.temperUp = true → s.power.standby = true → ∃ u : State, exec .standbyWake s = .next u ∧ u.power.standby = false ∧ u.power.lastActivity = s.clock.now ∧
      (∀ k c, s.power.clusters.get? k = some c → u.power.clusters.get? k = some { c with ps := 0, wakeAt := none }) ∧ u.stores = s.stores)

/-- CORE_FENCE of an idle core of no partition takes it out of service for good; of an idle core of an ACTIVE partition with its cluster's spare free, the
spare's self-test begins; one that passes, which waits until SEC has written the fence in the summary, is followed by the copy, which SPARE_COPY_DONE
ends, and at an edge that is due, where the cluster's CCC works, the takeover puts the spare in the fenced core's position; the copy of a core of a
pair reads its partner's store and no other. SEC writes the older copy of the summary, which becomes the newer; FAULT_LOG_WRITE writes the entry that
has waited longest (R448, R451, R453, R456, R458). Says that exec answers a next state, under conditions on the state and the operands alone, for:
coreFence (CORE_FENCE), selfTestDone (SELF_TEST_DONE), spareCopyDone (SPARE_COPY_DONE), faultLogWrite (FAULT_LOG_WRITE). -/
def Obligations.CoresAreFencedAndReplaced : Prop :=
  ∀ (s : State), s.running = true →
    (∀ core cause, coreExists core = true → s.causeHolds core cause = true → s.rel.fenced.contains core = false → s.core core = Core.idle → s.rel.replacements.get? (core / 256) = none →
      (∀ t ∈ s.rel.pairTests, t.results.length < 2 ∧ t.primary ≠ core ∧ t.partner ≠ core) →
      (s.placeOf core = none → ∃ u : State, exec (.coreFence core cause) s = .next u.settle ∧ u.rel.fenced = s.rel.fenced ++ [core] ∧ u.rel.fenceList.contains core = true ∧ u.rel.replacements = s.rel.replacements ∧
        u.proto.finished = s.proto.finished ∧ u.sched = s.sched) ∧
      (∀ part pos, s.placeOf core = some (part, pos) → s.replaces part = true → core % 256 ≠ 16 → s.spareFree (core / 256) = true →
        (∀ kv ∈ s.apps.streams, ¬(kv.2.home = 0 ∧ kv.2.part = part ∧ kv.2.position = pos)) → (∀ kv ∈ s.apps.channels, kv.2.part ≠ part) → (∀ kv ∈ s.apps.lattices, kv.2.part ≠ part) →
        ∃ u : State, exec (.coreFence core cause) s = .next u.settle ∧ u.rel.fenced = s.rel.fenced ++ [core] ∧ u.rel.testing.contains (core / 256 * 256 + 16) = true ∧
          u.rel.replacements.get? (core / 256) = some ⟨core, cause, part, pos, core / 256 * 256 + 16, 0, false, 0⟩)) ∧
    (∀ k r, s.rel.replacements.get? k = some r →
      (r.stage = 0 → r.spare / 256 = k → s.rel.testing.contains r.spare = true → s.cccWorks k = true → s.rel.pairTests = [] → s.rel.summaryDue = false → ∃ u : State, exec (.selfTestDone r.spare true) s = .next u.settle ∧
        u.rel.replacements.get? k = some { r with stage := 1 } ∧ u.rel.testing.contains r.spare = false ∧ u.rel.counts.selfTests = sat32 (s.rel.counts.selfTests + 1)) ∧
      (r.spare / 256 = k → s.rel.summaryDue = true → exec (.selfTestDone r.spare true) s = .next s) ∧
      (r.stage = 1 → s.cccWorks k = true → ∃ (u : State) (r' : Replacement), exec (.spareCopyDone k 0) s = .next u ∧ u.rel.replacements.get? k = some r' ∧ r'.stage = 2 ∧ r'.dueTime = s.clock.now + 5000 ∧
        r'.core = r.core ∧ r'.spare = r.spare ∧
        (s.copySource r = none → r'.copied = false ∧ ∀ i, i < 2097152 → u.stores.core.read (coreKey r.spare i) = 0) ∧
        (∀ c, s.copySource r = some c → c ≠ r.spare → s.stores.poison = [] → s.stores.wf = true → r'.copied = true ∧ ∀ i, i < 2097152 → u.stores.core.read (coreKey r.spare i) = s.stores.core.read (coreKey c i))) ∧
      (s.awaits r = true → ∃ q, (s.takeOver k r).sched.partitions.get? r.part = some q ∧ q.positions[r.position]? = some (some r.spare) ∧ (s.takeOver k r).rel.replacements.get? k = none) ∧
      (∀ q, s.sched.partitions.get? r.part = some q → q.pair = true → s.copySource r = q.coreAt (if r.position < q.positions.length / 2 then r.position + q.positions.length / 2 else r.position - q.positions.length / 2)) ∧
      (∀ q, s.sched.partitions.get? r.part = some q → q.pair = false → r.cause = 3 ∨ r.cause = 4 → s.copySource r = none) ∧
      (s.rel.replacements = [(k, r)] → r.stage = 2 → r.dueTime ≤ s.clock.frameStart → s.cccWorks k = true → s.takeOvers = s.takeOver k r)) ∧
    ((∀ kv ∈ s.rel.replacements, kv.2.stage ≠ 2 ∨ s.clock.frameStart < kv.2.dueTime ∨ s.cccWorks kv.1 = false) → s.takeOvers = s) ∧
    (s.fw.powered = true → s.procDown 0 = false → ∃ m : Summary, s.writeSummary.rel.newest = some m ∧ m.fences = s.rel.fenceList ∧ m.bootCount = s.rel.bootCount ∧ m.tripCause = s.rel.lastTrip ∧
      m.unlocked = s.rel.unlocked ∧ (∀ st f, ((s.rel.retired.get? st).getD []).contains f = true → ((m.retired.get? st).getD []).contains f = true) ∧ s.writeSummary.rel.summaryDue = false) ∧
    (s.procDown 0 = true → s.writeSummary.rel.summaryA = s.rel.summaryA ∧ s.writeSummary.rel.summaryB = s.rel.summaryB ∧ s.writeSummary.rel.summaryDue = true) ∧
    (∀ e l, s.rel.queue = e :: l → s.fw.powered = true → s.procDown 0 = false → exec .faultLogWrite s = .next { s with rel := { s.rel with queue := l, entries := (if 64512 ≤ s.rel.entries.length then s.rel.entries.drop 1024 else s.rel.entries) ++ [e] } })

/-- What reset leaves, as the spec states it: robot time stopped at 0 with a period of 1 ms, no function owned, no partition, no context, all memory zero
and canonical, the configuration words at their reset values, and the part parked (R22, R29, R30, R76, R383, R423, R453). -/
def Obligations.ResetState : Prop :=
  let s := State.reset
  s.pending = [] ∧ s.clock.running = false ∧ s.clock.now = 0 ∧ s.clock.parked = true ∧ s.clock.nextFrame = 0 ∧
  s.activeWord 0 0 0 = 0x3E8 ∧ s.activeWord 0 0 1 = 0x180A0164 ∧ s.activeWord 0 0 2 = 0x1005F ∧ s.activeWord 0 0 3 = 0x30 ∧ s.activeWord 0 0 4 = 0x3E8 ∧
  (∀ kind id off, s.shadowWord kind id off = s.activeWord kind id off) ∧ s.sched.contexts = [] ∧ s.sched.partitions = [] ∧ s.sched.jobs = [] ∧ s.proto.flights = [] ∧ s.proto.queues = [] ∧
  (∀ core, s.core core = Core.idle) ∧ s.stores.wf = true ∧ (∀ a, s.stores.core.read a = 0 ∧ s.stores.region.read a = 0 ∧ s.stores.tier2.read a = 0 ∧ s.stores.xd.read a = 0) ∧ s.power.level = 0

/-- Every step keeps the premise under which a tick moves robot time on: the rate within 10^8 and SLEW_PPM at most 200, in the word that stands and in
those that wait; the part has it at reset (R22, R27, R30). -/
def Obligations.StepKeepsTheRateBounded : Prop :=
  State.reset.paced ∧ ∀ (s t : State), s.paced → step s = .next t → t.paced

/-- Every byte memory keeps its canonical form through every step, whatever the command and whatever the state: addresses strictly rising and no byte
listed that reads as an unlisted one does. -/
def Obligations.StepKeepsMemoriesCanonical : Prop :=
  ∀ (s t : State), s.stores.wf = true → step s = .next t → t.stores.wf = true

end
end

