-- ==== Sys2Proof/Laws/Bytes.lean ====
section
/-! SUPPORT. Lengths of the byte strings that records are built from. -/

namespace Sys2Proof.Machine

@[simp] theorem length_toLe (n v : Nat) : (toLe n v).length = n := by
  induction n generalizing v with
  | zero => rfl
  | succ n ih => simp [toLe, ih]

@[simp] theorem length_zeros (n : Nat) : (zeros n).length = n := by simp [zeros]

@[simp] theorem length_fixedLen (n : Nat) (l : List Byte) : (fixedLen n l).length = n := by simp [fixedLen]

@[simp] theorem length_deviceId : deviceId.length = 16 := by simp [deviceId, signerId, keyDigest]

/-- The record of KEY_STATUS has the 256 bytes of R402. -/
theorem length_keyRecord (s : State) (c : Nat) (x : Context) : (s.keyRecord c x).length = 256 := by
  simp only [State.keyRecord, List.length_append, length_toLe, length_zeros, length_deviceId, identityKey, length_fixedLen, List.length_flatten, List.map_map]
  simp [List.range_succ]

end Sys2Proof.Machine
end

