-- ==== Sys2Proof/Laws/State.lean ====
section
/-! SUPPORT. What each named update of the state leaves alone, a field at a time, and what it sets. -/

namespace Sys2Proof.Machine

/-! ### State.bump -/

@[simp] theorem State.bump_fresh (s : State) : (State.bump s).fresh = s.fresh + 0x10000000000 := rfl
@[simp] theorem State.bump_pending (s : State) : (State.bump s).pending = s.pending := rfl
@[simp] theorem State.bump_order (s : State) : (State.bump s).order = s.order := rfl
@[simp] theorem State.bump_clock (s : State) : (State.bump s).clock = s.clock := rfl
@[simp] theorem State.bump_stats (s : State) : (State.bump s).stats = s.stats := rfl
@[simp] theorem State.bump_scopes (s : State) : (State.bump s).scopes = s.scopes := rfl
@[simp] theorem State.bump_proto (s : State) : (State.bump s).proto = s.proto := rfl
@[simp] theorem State.bump_sched (s : State) : (State.bump s).sched = s.sched := rfl
@[simp] theorem State.bump_fw (s : State) : (State.bump s).fw = s.fw := rfl
@[simp] theorem State.bump_win (s : State) : (State.bump s).win = s.win := rfl
@[simp] theorem State.bump_sec (s : State) : (State.bump s).sec = s.sec := rfl
@[simp] theorem State.bump_power (s : State) : (State.bump s).power = s.power := rfl
@[simp] theorem State.bump_rel (s : State) : (State.bump s).rel = s.rel := rfl
@[simp] theorem State.bump_pins (s : State) : (State.bump s).pins = s.pins := rfl
@[simp] theorem State.bump_stores (s : State) : (State.bump s).stores = s.stores := rfl
@[simp] theorem State.bump_tiers (s : State) : (State.bump s).tiers = s.tiers := rfl
@[simp] theorem State.bump_cores (s : State) : (State.bump s).cores = s.cores := rfl
@[simp] theorem State.bump_kv (s : State) : (State.bump s).kv = s.kv := rfl
@[simp] theorem State.bump_ingest (s : State) : (State.bump s).ingest = s.ingest := rfl
@[simp] theorem State.bump_apps (s : State) : (State.bump s).apps = s.apps := rfl
@[simp] theorem State.bump_out (s : State) : (State.bump s).out = s.out := rfl

/-! ### State.reach -/

@[simp] theorem State.reach_clock (s : State) (t : Nat) : (State.reach s t).clock = { s.clock with now := max s.clock.now t } := rfl
@[simp] theorem State.reach_pending (s : State) (t : Nat) : (State.reach s t).pending = s.pending := rfl
@[simp] theorem State.reach_order (s : State) (t : Nat) : (State.reach s t).order = s.order := rfl
@[simp] theorem State.reach_stats (s : State) (t : Nat) : (State.reach s t).stats = s.stats := rfl
@[simp] theorem State.reach_scopes (s : State) (t : Nat) : (State.reach s t).scopes = s.scopes := rfl
@[simp] theorem State.reach_proto (s : State) (t : Nat) : (State.reach s t).proto = s.proto := rfl
@[simp] theorem State.reach_sched (s : State) (t : Nat) : (State.reach s t).sched = s.sched := rfl
@[simp] theorem State.reach_fw (s : State) (t : Nat) : (State.reach s t).fw = s.fw := rfl
@[simp] theorem State.reach_win (s : State) (t : Nat) : (State.reach s t).win = s.win := rfl
@[simp] theorem State.reach_sec (s : State) (t : Nat) : (State.reach s t).sec = s.sec := rfl
@[simp] theorem State.reach_power (s : State) (t : Nat) : (State.reach s t).power = s.power := rfl
@[simp] theorem State.reach_rel (s : State) (t : Nat) : (State.reach s t).rel = s.rel := rfl
@[simp] theorem State.reach_pins (s : State) (t : Nat) : (State.reach s t).pins = s.pins := rfl
@[simp] theorem State.reach_stores (s : State) (t : Nat) : (State.reach s t).stores = s.stores := rfl
@[simp] theorem State.reach_tiers (s : State) (t : Nat) : (State.reach s t).tiers = s.tiers := rfl
@[simp] theorem State.reach_cores (s : State) (t : Nat) : (State.reach s t).cores = s.cores := rfl
@[simp] theorem State.reach_kv (s : State) (t : Nat) : (State.reach s t).kv = s.kv := rfl
@[simp] theorem State.reach_ingest (s : State) (t : Nat) : (State.reach s t).ingest = s.ingest := rfl
@[simp] theorem State.reach_apps (s : State) (t : Nat) : (State.reach s t).apps = s.apps := rfl
@[simp] theorem State.reach_out (s : State) (t : Nat) : (State.reach s t).out = s.out := rfl
@[simp] theorem State.reach_fresh (s : State) (t : Nat) : (State.reach s t).fresh = s.fresh := rfl

/-! ### State.setShadow -/

@[simp] theorem State.setShadow_scopes (s : State) (kind id off v : Nat) : (State.setShadow s kind id off v).scopes = { s.scopes with shadow := s.scopes.shadow.set (scopeKey kind id off) v } := rfl
@[simp] theorem State.setShadow_pending (s : State) (kind id off v : Nat) : (State.setShadow s kind id off v).pending = s.pending := rfl
@[simp] theorem State.setShadow_order (s : State) (kind id off v : Nat) : (State.setShadow s kind id off v).order = s.order := rfl
@[simp] theorem State.setShadow_clock (s : State) (kind id off v : Nat) : (State.setShadow s kind id off v).clock = s.clock := rfl
@[simp] theorem State.setShadow_stats (s : State) (kind id off v : Nat) : (State.setShadow s kind id off v).stats = s.stats := rfl
@[simp] theorem State.setShadow_proto (s : State) (kind id off v : Nat) : (State.setShadow s kind id off v).proto = s.proto := rfl
@[simp] theorem State.setShadow_sched (s : State) (kind id off v : Nat) : (State.setShadow s kind id off v).sched = s.sched := rfl
@[simp] theorem State.setShadow_fw (s : State) (kind id off v : Nat) : (State.setShadow s kind id off v).fw = s.fw := rfl
@[simp] theorem State.setShadow_win (s : State) (kind id off v : Nat) : (State.setShadow s kind id off v).win = s.win := rfl
@[simp] theorem State.setShadow_sec (s : State) (kind id off v : Nat) : (State.setShadow s kind id off v).sec = s.sec := rfl
@[simp] theorem State.setShadow_power (s : State) (kind id off v : Nat) : (State.setShadow s kind id off v).power = s.power := rfl
@[simp] theorem State.setShadow_rel (s : State) (kind id off v : Nat) : (State.setShadow s kind id off v).rel = s.rel := rfl
@[simp] theorem State.setShadow_pins (s : State) (kind id off v : Nat) : (State.setShadow s kind id off v).pins = s.pins := rfl
@[simp] theorem State.setShadow_stores (s : State) (kind id off v : Nat) : (State.setShadow s kind id off v).stores = s.stores := rfl
@[simp] theorem State.setShadow_tiers (s : State) (kind id off v : Nat) : (State.setShadow s kind id off v).tiers = s.tiers := rfl
@[simp] theorem State.setShadow_cores (s : State) (kind id off v : Nat) : (State.setShadow s kind id off v).cores = s.cores := rfl
@[simp] theorem State.setShadow_kv (s : State) (kind id off v : Nat) : (State.setShadow s kind id off v).kv = s.kv := rfl
@[simp] theorem State.setShadow_ingest (s : State) (kind id off v : Nat) : (State.setShadow s kind id off v).ingest = s.ingest := rfl
@[simp] theorem State.setShadow_apps (s : State) (kind id off v : Nat) : (State.setShadow s kind id off v).apps = s.apps := rfl
@[simp] theorem State.setShadow_out (s : State) (kind id off v : Nat) : (State.setShadow s kind id off v).out = s.out := rfl
@[simp] theorem State.setShadow_fresh (s : State) (kind id off v : Nat) : (State.setShadow s kind id off v).fresh = s.fresh := rfl

/-! ### State.setActive -/

@[simp] theorem State.setActive_scopes (s : State) (kind id off v : Nat) : (State.setActive s kind id off v).scopes = { s.scopes with active := s.scopes.active.set (scopeKey kind id off) v } := rfl
@[simp] theorem State.setActive_pending (s : State) (kind id off v : Nat) : (State.setActive s kind id off v).pending = s.pending := rfl
@[simp] theorem State.setActive_order (s : State) (kind id off v : Nat) : (State.setActive s kind id off v).order = s.order := rfl
@[simp] theorem State.setActive_clock (s : State) (kind id off v : Nat) : (State.setActive s kind id off v).clock = s.clock := rfl
@[simp] theorem State.setActive_stats (s : State) (kind id off v : Nat) : (State.setActive s kind id off v).stats = s.stats := rfl
@[simp] theorem State.setActive_proto (s : State) (kind id off v : Nat) : (State.setActive s kind id off v).proto = s.proto := rfl
@[simp] theorem State.setActive_sched (s : State) (kind id off v : Nat) : (State.setActive s kind id off v).sched = s.sched := rfl
@[simp] theorem State.setActive_fw (s : State) (kind id off v : Nat) : (State.setActive s kind id off v).fw = s.fw := rfl
@[simp] theorem State.setActive_win (s : State) (kind id off v : Nat) : (State.setActive s kind id off v).win = s.win := rfl
@[simp] theorem State.setActive_sec (s : State) (kind id off v : Nat) : (State.setActive s kind id off v).sec = s.sec := rfl
@[simp] theorem State.setActive_power (s : State) (kind id off v : Nat) : (State.setActive s kind id off v).power = s.power := rfl
@[simp] theorem State.setActive_rel (s : State) (kind id off v : Nat) : (State.setActive s kind id off v).rel = s.rel := rfl
@[simp] theorem State.setActive_pins (s : State) (kind id off v : Nat) : (State.setActive s kind id off v).pins = s.pins := rfl
@[simp] theorem State.setActive_stores (s : State) (kind id off v : Nat) : (State.setActive s kind id off v).stores = s.stores := rfl
@[simp] theorem State.setActive_tiers (s : State) (kind id off v : Nat) : (State.setActive s kind id off v).tiers = s.tiers := rfl
@[simp] theorem State.setActive_cores (s : State) (kind id off v : Nat) : (State.setActive s kind id off v).cores = s.cores := rfl
@[simp] theorem State.setActive_kv (s : State) (kind id off v : Nat) : (State.setActive s kind id off v).kv = s.kv := rfl
@[simp] theorem State.setActive_ingest (s : State) (kind id off v : Nat) : (State.setActive s kind id off v).ingest = s.ingest := rfl
@[simp] theorem State.setActive_apps (s : State) (kind id off v : Nat) : (State.setActive s kind id off v).apps = s.apps := rfl
@[simp] theorem State.setActive_out (s : State) (kind id off v : Nat) : (State.setActive s kind id off v).out = s.out := rfl
@[simp] theorem State.setActive_fresh (s : State) (kind id off v : Nat) : (State.setActive s kind id off v).fresh = s.fresh := rfl

/-! ### State.resetScope -/

@[simp] theorem State.resetScope_pending (s : State) (kind id : Nat) : (State.resetScope s kind id).pending = s.pending := rfl
@[simp] theorem State.resetScope_order (s : State) (kind id : Nat) : (State.resetScope s kind id).order = s.order := rfl
@[simp] theorem State.resetScope_clock (s : State) (kind id : Nat) : (State.resetScope s kind id).clock = s.clock := rfl
@[simp] theorem State.resetScope_stats (s : State) (kind id : Nat) : (State.resetScope s kind id).stats = s.stats := rfl
@[simp] theorem State.resetScope_proto (s : State) (kind id : Nat) : (State.resetScope s kind id).proto = s.proto := rfl
@[simp] theorem State.resetScope_sched (s : State) (kind id : Nat) : (State.resetScope s kind id).sched = s.sched := rfl
@[simp] theorem State.resetScope_fw (s : State) (kind id : Nat) : (State.resetScope s kind id).fw = s.fw := rfl
@[simp] theorem State.resetScope_win (s : State) (kind id : Nat) : (State.resetScope s kind id).win = s.win := rfl
@[simp] theorem State.resetScope_sec (s : State) (kind id : Nat) : (State.resetScope s kind id).sec = s.sec := rfl
@[simp] theorem State.resetScope_power (s : State) (kind id : Nat) : (State.resetScope s kind id).power = s.power := rfl
@[simp] theorem State.resetScope_rel (s : State) (kind id : Nat) : (State.resetScope s kind id).rel = s.rel := rfl
@[simp] theorem State.resetScope_pins (s : State) (kind id : Nat) : (State.resetScope s kind id).pins = s.pins := rfl
@[simp] theorem State.resetScope_stores (s : State) (kind id : Nat) : (State.resetScope s kind id).stores = s.stores := rfl
@[simp] theorem State.resetScope_tiers (s : State) (kind id : Nat) : (State.resetScope s kind id).tiers = s.tiers := rfl
@[simp] theorem State.resetScope_cores (s : State) (kind id : Nat) : (State.resetScope s kind id).cores = s.cores := rfl
@[simp] theorem State.resetScope_kv (s : State) (kind id : Nat) : (State.resetScope s kind id).kv = s.kv := rfl
@[simp] theorem State.resetScope_ingest (s : State) (kind id : Nat) : (State.resetScope s kind id).ingest = s.ingest := rfl
@[simp] theorem State.resetScope_apps (s : State) (kind id : Nat) : (State.resetScope s kind id).apps = s.apps := rfl
@[simp] theorem State.resetScope_out (s : State) (kind id : Nat) : (State.resetScope s kind id).out = s.out := rfl
@[simp] theorem State.resetScope_fresh (s : State) (kind id : Nat) : (State.resetScope s kind id).fresh = s.fresh := rfl

/-! ### State.setFunc -/

@[simp] theorem State.setFunc_proto (s : State) (fn : Nat) (f : Func → Func) : (State.setFunc s fn f).proto = { s.proto with funcs := s.proto.funcs.update fn f } := rfl
@[simp] theorem State.setFunc_pending (s : State) (fn : Nat) (f : Func → Func) : (State.setFunc s fn f).pending = s.pending := rfl
@[simp] theorem State.setFunc_order (s : State) (fn : Nat) (f : Func → Func) : (State.setFunc s fn f).order = s.order := rfl
@[simp] theorem State.setFunc_clock (s : State) (fn : Nat) (f : Func → Func) : (State.setFunc s fn f).clock = s.clock := rfl
@[simp] theorem State.setFunc_stats (s : State) (fn : Nat) (f : Func → Func) : (State.setFunc s fn f).stats = s.stats := rfl
@[simp] theorem State.setFunc_scopes (s : State) (fn : Nat) (f : Func → Func) : (State.setFunc s fn f).scopes = s.scopes := rfl
@[simp] theorem State.setFunc_sched (s : State) (fn : Nat) (f : Func → Func) : (State.setFunc s fn f).sched = s.sched := rfl
@[simp] theorem State.setFunc_fw (s : State) (fn : Nat) (f : Func → Func) : (State.setFunc s fn f).fw = s.fw := rfl
@[simp] theorem State.setFunc_win (s : State) (fn : Nat) (f : Func → Func) : (State.setFunc s fn f).win = s.win := rfl
@[simp] theorem State.setFunc_sec (s : State) (fn : Nat) (f : Func → Func) : (State.setFunc s fn f).sec = s.sec := rfl
@[simp] theorem State.setFunc_power (s : State) (fn : Nat) (f : Func → Func) : (State.setFunc s fn f).power = s.power := rfl
@[simp] theorem State.setFunc_rel (s : State) (fn : Nat) (f : Func → Func) : (State.setFunc s fn f).rel = s.rel := rfl
@[simp] theorem State.setFunc_pins (s : State) (fn : Nat) (f : Func → Func) : (State.setFunc s fn f).pins = s.pins := rfl
@[simp] theorem State.setFunc_stores (s : State) (fn : Nat) (f : Func → Func) : (State.setFunc s fn f).stores = s.stores := rfl
@[simp] theorem State.setFunc_tiers (s : State) (fn : Nat) (f : Func → Func) : (State.setFunc s fn f).tiers = s.tiers := rfl
@[simp] theorem State.setFunc_cores (s : State) (fn : Nat) (f : Func → Func) : (State.setFunc s fn f).cores = s.cores := rfl
@[simp] theorem State.setFunc_kv (s : State) (fn : Nat) (f : Func → Func) : (State.setFunc s fn f).kv = s.kv := rfl
@[simp] theorem State.setFunc_ingest (s : State) (fn : Nat) (f : Func → Func) : (State.setFunc s fn f).ingest = s.ingest := rfl
@[simp] theorem State.setFunc_apps (s : State) (fn : Nat) (f : Func → Func) : (State.setFunc s fn f).apps = s.apps := rfl
@[simp] theorem State.setFunc_out (s : State) (fn : Nat) (f : Func → Func) : (State.setFunc s fn f).out = s.out := rfl
@[simp] theorem State.setFunc_fresh (s : State) (fn : Nat) (f : Func → Func) : (State.setFunc s fn f).fresh = s.fresh := rfl

/-! ### State.setQueue -/

@[simp] theorem State.setQueue_proto (s : State) (q : Nat) (f : CmdQueue → CmdQueue) : (State.setQueue s q f).proto = { s.proto with queues := s.proto.queues.update q f } := rfl
@[simp] theorem State.setQueue_pending (s : State) (q : Nat) (f : CmdQueue → CmdQueue) : (State.setQueue s q f).pending = s.pending := rfl
@[simp] theorem State.setQueue_order (s : State) (q : Nat) (f : CmdQueue → CmdQueue) : (State.setQueue s q f).order = s.order := rfl
@[simp] theorem State.setQueue_clock (s : State) (q : Nat) (f : CmdQueue → CmdQueue) : (State.setQueue s q f).clock = s.clock := rfl
@[simp] theorem State.setQueue_stats (s : State) (q : Nat) (f : CmdQueue → CmdQueue) : (State.setQueue s q f).stats = s.stats := rfl
@[simp] theorem State.setQueue_scopes (s : State) (q : Nat) (f : CmdQueue → CmdQueue) : (State.setQueue s q f).scopes = s.scopes := rfl
@[simp] theorem State.setQueue_sched (s : State) (q : Nat) (f : CmdQueue → CmdQueue) : (State.setQueue s q f).sched = s.sched := rfl
@[simp] theorem State.setQueue_fw (s : State) (q : Nat) (f : CmdQueue → CmdQueue) : (State.setQueue s q f).fw = s.fw := rfl
@[simp] theorem State.setQueue_win (s : State) (q : Nat) (f : CmdQueue → CmdQueue) : (State.setQueue s q f).win = s.win := rfl
@[simp] theorem State.setQueue_sec (s : State) (q : Nat) (f : CmdQueue → CmdQueue) : (State.setQueue s q f).sec = s.sec := rfl
@[simp] theorem State.setQueue_power (s : State) (q : Nat) (f : CmdQueue → CmdQueue) : (State.setQueue s q f).power = s.power := rfl
@[simp] theorem State.setQueue_rel (s : State) (q : Nat) (f : CmdQueue → CmdQueue) : (State.setQueue s q f).rel = s.rel := rfl
@[simp] theorem State.setQueue_pins (s : State) (q : Nat) (f : CmdQueue → CmdQueue) : (State.setQueue s q f).pins = s.pins := rfl
@[simp] theorem State.setQueue_stores (s : State) (q : Nat) (f : CmdQueue → CmdQueue) : (State.setQueue s q f).stores = s.stores := rfl
@[simp] theorem State.setQueue_tiers (s : State) (q : Nat) (f : CmdQueue → CmdQueue) : (State.setQueue s q f).tiers = s.tiers := rfl
@[simp] theorem State.setQueue_cores (s : State) (q : Nat) (f : CmdQueue → CmdQueue) : (State.setQueue s q f).cores = s.cores := rfl
@[simp] theorem State.setQueue_kv (s : State) (q : Nat) (f : CmdQueue → CmdQueue) : (State.setQueue s q f).kv = s.kv := rfl
@[simp] theorem State.setQueue_ingest (s : State) (q : Nat) (f : CmdQueue → CmdQueue) : (State.setQueue s q f).ingest = s.ingest := rfl
@[simp] theorem State.setQueue_apps (s : State) (q : Nat) (f : CmdQueue → CmdQueue) : (State.setQueue s q f).apps = s.apps := rfl
@[simp] theorem State.setQueue_out (s : State) (q : Nat) (f : CmdQueue → CmdQueue) : (State.setQueue s q f).out = s.out := rfl
@[simp] theorem State.setQueue_fresh (s : State) (q : Nat) (f : CmdQueue → CmdQueue) : (State.setQueue s q f).fresh = s.fresh := rfl

/-! ### State.emit -/

@[simp] theorem State.emit_out (s : State) (o : Output) : (State.emit s o).out = s.out ++ [o] := rfl
@[simp] theorem State.emit_pending (s : State) (o : Output) : (State.emit s o).pending = s.pending := rfl
@[simp] theorem State.emit_order (s : State) (o : Output) : (State.emit s o).order = s.order := rfl
@[simp] theorem State.emit_clock (s : State) (o : Output) : (State.emit s o).clock = s.clock := rfl
@[simp] theorem State.emit_stats (s : State) (o : Output) : (State.emit s o).stats = s.stats := rfl
@[simp] theorem State.emit_scopes (s : State) (o : Output) : (State.emit s o).scopes = s.scopes := rfl
@[simp] theorem State.emit_proto (s : State) (o : Output) : (State.emit s o).proto = s.proto := rfl
@[simp] theorem State.emit_sched (s : State) (o : Output) : (State.emit s o).sched = s.sched := rfl
@[simp] theorem State.emit_fw (s : State) (o : Output) : (State.emit s o).fw = s.fw := rfl
@[simp] theorem State.emit_win (s : State) (o : Output) : (State.emit s o).win = s.win := rfl
@[simp] theorem State.emit_sec (s : State) (o : Output) : (State.emit s o).sec = s.sec := rfl
@[simp] theorem State.emit_power (s : State) (o : Output) : (State.emit s o).power = s.power := rfl
@[simp] theorem State.emit_rel (s : State) (o : Output) : (State.emit s o).rel = s.rel := rfl
@[simp] theorem State.emit_pins (s : State) (o : Output) : (State.emit s o).pins = s.pins := rfl
@[simp] theorem State.emit_stores (s : State) (o : Output) : (State.emit s o).stores = s.stores := rfl
@[simp] theorem State.emit_tiers (s : State) (o : Output) : (State.emit s o).tiers = s.tiers := rfl
@[simp] theorem State.emit_cores (s : State) (o : Output) : (State.emit s o).cores = s.cores := rfl
@[simp] theorem State.emit_kv (s : State) (o : Output) : (State.emit s o).kv = s.kv := rfl
@[simp] theorem State.emit_ingest (s : State) (o : Output) : (State.emit s o).ingest = s.ingest := rfl
@[simp] theorem State.emit_apps (s : State) (o : Output) : (State.emit s o).apps = s.apps := rfl
@[simp] theorem State.emit_fresh (s : State) (o : Output) : (State.emit s o).fresh = s.fresh := rfl

/-! ### State.setFlight -/

@[simp] theorem State.setFlight_proto (s : State) (id : Nat) (g : Flight → Flight) : (State.setFlight s id g).proto = { s.proto with flights := s.proto.flights.map (fun f => if f.id = id then g f else f) } := rfl
@[simp] theorem State.setFlight_pending (s : State) (id : Nat) (g : Flight → Flight) : (State.setFlight s id g).pending = s.pending := rfl
@[simp] theorem State.setFlight_order (s : State) (id : Nat) (g : Flight → Flight) : (State.setFlight s id g).order = s.order := rfl
@[simp] theorem State.setFlight_clock (s : State) (id : Nat) (g : Flight → Flight) : (State.setFlight s id g).clock = s.clock := rfl
@[simp] theorem State.setFlight_stats (s : State) (id : Nat) (g : Flight → Flight) : (State.setFlight s id g).stats = s.stats := rfl
@[simp] theorem State.setFlight_scopes (s : State) (id : Nat) (g : Flight → Flight) : (State.setFlight s id g).scopes = s.scopes := rfl
@[simp] theorem State.setFlight_sched (s : State) (id : Nat) (g : Flight → Flight) : (State.setFlight s id g).sched = s.sched := rfl
@[simp] theorem State.setFlight_fw (s : State) (id : Nat) (g : Flight → Flight) : (State.setFlight s id g).fw = s.fw := rfl
@[simp] theorem State.setFlight_win (s : State) (id : Nat) (g : Flight → Flight) : (State.setFlight s id g).win = s.win := rfl
@[simp] theorem State.setFlight_sec (s : State) (id : Nat) (g : Flight → Flight) : (State.setFlight s id g).sec = s.sec := rfl
@[simp] theorem State.setFlight_power (s : State) (id : Nat) (g : Flight → Flight) : (State.setFlight s id g).power = s.power := rfl
@[simp] theorem State.setFlight_rel (s : State) (id : Nat) (g : Flight → Flight) : (State.setFlight s id g).rel = s.rel := rfl
@[simp] theorem State.setFlight_pins (s : State) (id : Nat) (g : Flight → Flight) : (State.setFlight s id g).pins = s.pins := rfl
@[simp] theorem State.setFlight_stores (s : State) (id : Nat) (g : Flight → Flight) : (State.setFlight s id g).stores = s.stores := rfl
@[simp] theorem State.setFlight_tiers (s : State) (id : Nat) (g : Flight → Flight) : (State.setFlight s id g).tiers = s.tiers := rfl
@[simp] theorem State.setFlight_cores (s : State) (id : Nat) (g : Flight → Flight) : (State.setFlight s id g).cores = s.cores := rfl
@[simp] theorem State.setFlight_kv (s : State) (id : Nat) (g : Flight → Flight) : (State.setFlight s id g).kv = s.kv := rfl
@[simp] theorem State.setFlight_ingest (s : State) (id : Nat) (g : Flight → Flight) : (State.setFlight s id g).ingest = s.ingest := rfl
@[simp] theorem State.setFlight_apps (s : State) (id : Nat) (g : Flight → Flight) : (State.setFlight s id g).apps = s.apps := rfl
@[simp] theorem State.setFlight_out (s : State) (id : Nat) (g : Flight → Flight) : (State.setFlight s id g).out = s.out := rfl
@[simp] theorem State.setFlight_fresh (s : State) (id : Nat) (g : Flight → Flight) : (State.setFlight s id g).fresh = s.fresh := rfl

/-! ### State.count -/

@[simp] theorem State.count_rel (s : State) (g : ErrCounts → ErrCounts) : (State.count s g).rel = { s.rel with counts := g s.rel.counts } := rfl
@[simp] theorem State.count_pending (s : State) (g : ErrCounts → ErrCounts) : (State.count s g).pending = s.pending := rfl
@[simp] theorem State.count_order (s : State) (g : ErrCounts → ErrCounts) : (State.count s g).order = s.order := rfl
@[simp] theorem State.count_clock (s : State) (g : ErrCounts → ErrCounts) : (State.count s g).clock = s.clock := rfl
@[simp] theorem State.count_stats (s : State) (g : ErrCounts → ErrCounts) : (State.count s g).stats = s.stats := rfl
@[simp] theorem State.count_scopes (s : State) (g : ErrCounts → ErrCounts) : (State.count s g).scopes = s.scopes := rfl
@[simp] theorem State.count_proto (s : State) (g : ErrCounts → ErrCounts) : (State.count s g).proto = s.proto := rfl
@[simp] theorem State.count_sched (s : State) (g : ErrCounts → ErrCounts) : (State.count s g).sched = s.sched := rfl
@[simp] theorem State.count_fw (s : State) (g : ErrCounts → ErrCounts) : (State.count s g).fw = s.fw := rfl
@[simp] theorem State.count_win (s : State) (g : ErrCounts → ErrCounts) : (State.count s g).win = s.win := rfl
@[simp] theorem State.count_sec (s : State) (g : ErrCounts → ErrCounts) : (State.count s g).sec = s.sec := rfl
@[simp] theorem State.count_power (s : State) (g : ErrCounts → ErrCounts) : (State.count s g).power = s.power := rfl
@[simp] theorem State.count_pins (s : State) (g : ErrCounts → ErrCounts) : (State.count s g).pins = s.pins := rfl
@[simp] theorem State.count_stores (s : State) (g : ErrCounts → ErrCounts) : (State.count s g).stores = s.stores := rfl
@[simp] theorem State.count_tiers (s : State) (g : ErrCounts → ErrCounts) : (State.count s g).tiers = s.tiers := rfl
@[simp] theorem State.count_cores (s : State) (g : ErrCounts → ErrCounts) : (State.count s g).cores = s.cores := rfl
@[simp] theorem State.count_kv (s : State) (g : ErrCounts → ErrCounts) : (State.count s g).kv = s.kv := rfl
@[simp] theorem State.count_ingest (s : State) (g : ErrCounts → ErrCounts) : (State.count s g).ingest = s.ingest := rfl
@[simp] theorem State.count_apps (s : State) (g : ErrCounts → ErrCounts) : (State.count s g).apps = s.apps := rfl
@[simp] theorem State.count_out (s : State) (g : ErrCounts → ErrCounts) : (State.count s g).out = s.out := rfl
@[simp] theorem State.count_fresh (s : State) (g : ErrCounts → ErrCounts) : (State.count s g).fresh = s.fresh := rfl

/-! ### State.acc -/

@[simp] theorem State.acc_stats (s : State) (g : FrameAcc → FrameAcc) : (State.acc s g).stats = { s.stats with acc := g s.stats.acc } := rfl
@[simp] theorem State.acc_pending (s : State) (g : FrameAcc → FrameAcc) : (State.acc s g).pending = s.pending := rfl
@[simp] theorem State.acc_order (s : State) (g : FrameAcc → FrameAcc) : (State.acc s g).order = s.order := rfl
@[simp] theorem State.acc_clock (s : State) (g : FrameAcc → FrameAcc) : (State.acc s g).clock = s.clock := rfl
@[simp] theorem State.acc_scopes (s : State) (g : FrameAcc → FrameAcc) : (State.acc s g).scopes = s.scopes := rfl
@[simp] theorem State.acc_proto (s : State) (g : FrameAcc → FrameAcc) : (State.acc s g).proto = s.proto := rfl
@[simp] theorem State.acc_sched (s : State) (g : FrameAcc → FrameAcc) : (State.acc s g).sched = s.sched := rfl
@[simp] theorem State.acc_fw (s : State) (g : FrameAcc → FrameAcc) : (State.acc s g).fw = s.fw := rfl
@[simp] theorem State.acc_win (s : State) (g : FrameAcc → FrameAcc) : (State.acc s g).win = s.win := rfl
@[simp] theorem State.acc_sec (s : State) (g : FrameAcc → FrameAcc) : (State.acc s g).sec = s.sec := rfl
@[simp] theorem State.acc_power (s : State) (g : FrameAcc → FrameAcc) : (State.acc s g).power = s.power := rfl
@[simp] theorem State.acc_rel (s : State) (g : FrameAcc → FrameAcc) : (State.acc s g).rel = s.rel := rfl
@[simp] theorem State.acc_pins (s : State) (g : FrameAcc → FrameAcc) : (State.acc s g).pins = s.pins := rfl
@[simp] theorem State.acc_stores (s : State) (g : FrameAcc → FrameAcc) : (State.acc s g).stores = s.stores := rfl
@[simp] theorem State.acc_tiers (s : State) (g : FrameAcc → FrameAcc) : (State.acc s g).tiers = s.tiers := rfl
@[simp] theorem State.acc_cores (s : State) (g : FrameAcc → FrameAcc) : (State.acc s g).cores = s.cores := rfl
@[simp] theorem State.acc_kv (s : State) (g : FrameAcc → FrameAcc) : (State.acc s g).kv = s.kv := rfl
@[simp] theorem State.acc_ingest (s : State) (g : FrameAcc → FrameAcc) : (State.acc s g).ingest = s.ingest := rfl
@[simp] theorem State.acc_apps (s : State) (g : FrameAcc → FrameAcc) : (State.acc s g).apps = s.apps := rfl
@[simp] theorem State.acc_out (s : State) (g : FrameAcc → FrameAcc) : (State.acc s g).out = s.out := rfl
@[simp] theorem State.acc_fresh (s : State) (g : FrameAcc → FrameAcc) : (State.acc s g).fresh = s.fresh := rfl

/-! ### State.accPart -/

@[simp] theorem State.accPart_pending (s : State) (p : Nat) (g : PartAcc → PartAcc) : (State.accPart s p g).pending = s.pending := rfl
@[simp] theorem State.accPart_order (s : State) (p : Nat) (g : PartAcc → PartAcc) : (State.accPart s p g).order = s.order := rfl
@[simp] theorem State.accPart_clock (s : State) (p : Nat) (g : PartAcc → PartAcc) : (State.accPart s p g).clock = s.clock := rfl
@[simp] theorem State.accPart_scopes (s : State) (p : Nat) (g : PartAcc → PartAcc) : (State.accPart s p g).scopes = s.scopes := rfl
@[simp] theorem State.accPart_proto (s : State) (p : Nat) (g : PartAcc → PartAcc) : (State.accPart s p g).proto = s.proto := rfl
@[simp] theorem State.accPart_sched (s : State) (p : Nat) (g : PartAcc → PartAcc) : (State.accPart s p g).sched = s.sched := rfl
@[simp] theorem State.accPart_fw (s : State) (p : Nat) (g : PartAcc → PartAcc) : (State.accPart s p g).fw = s.fw := rfl
@[simp] theorem State.accPart_win (s : State) (p : Nat) (g : PartAcc → PartAcc) : (State.accPart s p g).win = s.win := rfl
@[simp] theorem State.accPart_sec (s : State) (p : Nat) (g : PartAcc → PartAcc) : (State.accPart s p g).sec = s.sec := rfl
@[simp] theorem State.accPart_power (s : State) (p : Nat) (g : PartAcc → PartAcc) : (State.accPart s p g).power = s.power := rfl
@[simp] theorem State.accPart_rel (s : State) (p : Nat) (g : PartAcc → PartAcc) : (State.accPart s p g).rel = s.rel := rfl
@[simp] theorem State.accPart_pins (s : State) (p : Nat) (g : PartAcc → PartAcc) : (State.accPart s p g).pins = s.pins := rfl
@[simp] theorem State.accPart_stores (s : State) (p : Nat) (g : PartAcc → PartAcc) : (State.accPart s p g).stores = s.stores := rfl
@[simp] theorem State.accPart_tiers (s : State) (p : Nat) (g : PartAcc → PartAcc) : (State.accPart s p g).tiers = s.tiers := rfl
@[simp] theorem State.accPart_cores (s : State) (p : Nat) (g : PartAcc → PartAcc) : (State.accPart s p g).cores = s.cores := rfl
@[simp] theorem State.accPart_kv (s : State) (p : Nat) (g : PartAcc → PartAcc) : (State.accPart s p g).kv = s.kv := rfl
@[simp] theorem State.accPart_ingest (s : State) (p : Nat) (g : PartAcc → PartAcc) : (State.accPart s p g).ingest = s.ingest := rfl
@[simp] theorem State.accPart_apps (s : State) (p : Nat) (g : PartAcc → PartAcc) : (State.accPart s p g).apps = s.apps := rfl
@[simp] theorem State.accPart_out (s : State) (p : Nat) (g : PartAcc → PartAcc) : (State.accPart s p g).out = s.out := rfl
@[simp] theorem State.accPart_fresh (s : State) (p : Nat) (g : PartAcc → PartAcc) : (State.accPart s p g).fresh = s.fresh := rfl

/-! ### State.setCore -/

@[simp] theorem State.setCore_pending (s : State) (c : Nat) (v : Core) : (State.setCore s c v).pending = s.pending := rfl
@[simp] theorem State.setCore_order (s : State) (c : Nat) (v : Core) : (State.setCore s c v).order = s.order := rfl
@[simp] theorem State.setCore_clock (s : State) (c : Nat) (v : Core) : (State.setCore s c v).clock = s.clock := rfl
@[simp] theorem State.setCore_stats (s : State) (c : Nat) (v : Core) : (State.setCore s c v).stats = s.stats := rfl
@[simp] theorem State.setCore_scopes (s : State) (c : Nat) (v : Core) : (State.setCore s c v).scopes = s.scopes := rfl
@[simp] theorem State.setCore_proto (s : State) (c : Nat) (v : Core) : (State.setCore s c v).proto = s.proto := rfl
@[simp] theorem State.setCore_sched (s : State) (c : Nat) (v : Core) : (State.setCore s c v).sched = s.sched := rfl
@[simp] theorem State.setCore_fw (s : State) (c : Nat) (v : Core) : (State.setCore s c v).fw = s.fw := rfl
@[simp] theorem State.setCore_win (s : State) (c : Nat) (v : Core) : (State.setCore s c v).win = s.win := rfl
@[simp] theorem State.setCore_sec (s : State) (c : Nat) (v : Core) : (State.setCore s c v).sec = s.sec := rfl
@[simp] theorem State.setCore_power (s : State) (c : Nat) (v : Core) : (State.setCore s c v).power = s.power := rfl
@[simp] theorem State.setCore_rel (s : State) (c : Nat) (v : Core) : (State.setCore s c v).rel = s.rel := rfl
@[simp] theorem State.setCore_pins (s : State) (c : Nat) (v : Core) : (State.setCore s c v).pins = s.pins := rfl
@[simp] theorem State.setCore_stores (s : State) (c : Nat) (v : Core) : (State.setCore s c v).stores = s.stores := rfl
@[simp] theorem State.setCore_tiers (s : State) (c : Nat) (v : Core) : (State.setCore s c v).tiers = s.tiers := rfl
@[simp] theorem State.setCore_kv (s : State) (c : Nat) (v : Core) : (State.setCore s c v).kv = s.kv := rfl
@[simp] theorem State.setCore_ingest (s : State) (c : Nat) (v : Core) : (State.setCore s c v).ingest = s.ingest := rfl
@[simp] theorem State.setCore_apps (s : State) (c : Nat) (v : Core) : (State.setCore s c v).apps = s.apps := rfl
@[simp] theorem State.setCore_out (s : State) (c : Nat) (v : Core) : (State.setCore s c v).out = s.out := rfl
@[simp] theorem State.setCore_fresh (s : State) (c : Nat) (v : Core) : (State.setCore s c v).fresh = s.fresh := rfl

/-! ### State.setSeq -/

@[simp] theorem State.setSeq_kv (s : State) (h : Nat) (f : Seq → Seq) : (State.setSeq s h f).kv = { s.kv with seqs := s.kv.seqs.update h f } := rfl
@[simp] theorem State.setSeq_pending (s : State) (h : Nat) (f : Seq → Seq) : (State.setSeq s h f).pending = s.pending := rfl
@[simp] theorem State.setSeq_order (s : State) (h : Nat) (f : Seq → Seq) : (State.setSeq s h f).order = s.order := rfl
@[simp] theorem State.setSeq_clock (s : State) (h : Nat) (f : Seq → Seq) : (State.setSeq s h f).clock = s.clock := rfl
@[simp] theorem State.setSeq_stats (s : State) (h : Nat) (f : Seq → Seq) : (State.setSeq s h f).stats = s.stats := rfl
@[simp] theorem State.setSeq_scopes (s : State) (h : Nat) (f : Seq → Seq) : (State.setSeq s h f).scopes = s.scopes := rfl
@[simp] theorem State.setSeq_proto (s : State) (h : Nat) (f : Seq → Seq) : (State.setSeq s h f).proto = s.proto := rfl
@[simp] theorem State.setSeq_sched (s : State) (h : Nat) (f : Seq → Seq) : (State.setSeq s h f).sched = s.sched := rfl
@[simp] theorem State.setSeq_fw (s : State) (h : Nat) (f : Seq → Seq) : (State.setSeq s h f).fw = s.fw := rfl
@[simp] theorem State.setSeq_win (s : State) (h : Nat) (f : Seq → Seq) : (State.setSeq s h f).win = s.win := rfl
@[simp] theorem State.setSeq_sec (s : State) (h : Nat) (f : Seq → Seq) : (State.setSeq s h f).sec = s.sec := rfl
@[simp] theorem State.setSeq_power (s : State) (h : Nat) (f : Seq → Seq) : (State.setSeq s h f).power = s.power := rfl
@[simp] theorem State.setSeq_rel (s : State) (h : Nat) (f : Seq → Seq) : (State.setSeq s h f).rel = s.rel := rfl
@[simp] theorem State.setSeq_pins (s : State) (h : Nat) (f : Seq → Seq) : (State.setSeq s h f).pins = s.pins := rfl
@[simp] theorem State.setSeq_stores (s : State) (h : Nat) (f : Seq → Seq) : (State.setSeq s h f).stores = s.stores := rfl
@[simp] theorem State.setSeq_tiers (s : State) (h : Nat) (f : Seq → Seq) : (State.setSeq s h f).tiers = s.tiers := rfl
@[simp] theorem State.setSeq_cores (s : State) (h : Nat) (f : Seq → Seq) : (State.setSeq s h f).cores = s.cores := rfl
@[simp] theorem State.setSeq_ingest (s : State) (h : Nat) (f : Seq → Seq) : (State.setSeq s h f).ingest = s.ingest := rfl
@[simp] theorem State.setSeq_apps (s : State) (h : Nat) (f : Seq → Seq) : (State.setSeq s h f).apps = s.apps := rfl
@[simp] theorem State.setSeq_out (s : State) (h : Nat) (f : Seq → Seq) : (State.setSeq s h f).out = s.out := rfl
@[simp] theorem State.setSeq_fresh (s : State) (h : Nat) (f : Seq → Seq) : (State.setSeq s h f).fresh = s.fresh := rfl

/-! ### State.useSeq -/

@[simp] theorem State.useSeq_pending (s : State) (h : Nat) : (State.useSeq s h).pending = s.pending := rfl
@[simp] theorem State.useSeq_order (s : State) (h : Nat) : (State.useSeq s h).order = s.order := rfl
@[simp] theorem State.useSeq_clock (s : State) (h : Nat) : (State.useSeq s h).clock = s.clock := rfl
@[simp] theorem State.useSeq_stats (s : State) (h : Nat) : (State.useSeq s h).stats = s.stats := rfl
@[simp] theorem State.useSeq_scopes (s : State) (h : Nat) : (State.useSeq s h).scopes = s.scopes := rfl
@[simp] theorem State.useSeq_proto (s : State) (h : Nat) : (State.useSeq s h).proto = s.proto := rfl
@[simp] theorem State.useSeq_fw (s : State) (h : Nat) : (State.useSeq s h).fw = s.fw := rfl
@[simp] theorem State.useSeq_win (s : State) (h : Nat) : (State.useSeq s h).win = s.win := rfl
@[simp] theorem State.useSeq_sec (s : State) (h : Nat) : (State.useSeq s h).sec = s.sec := rfl
@[simp] theorem State.useSeq_power (s : State) (h : Nat) : (State.useSeq s h).power = s.power := rfl
@[simp] theorem State.useSeq_rel (s : State) (h : Nat) : (State.useSeq s h).rel = s.rel := rfl
@[simp] theorem State.useSeq_pins (s : State) (h : Nat) : (State.useSeq s h).pins = s.pins := rfl
@[simp] theorem State.useSeq_stores (s : State) (h : Nat) : (State.useSeq s h).stores = s.stores := rfl
@[simp] theorem State.useSeq_tiers (s : State) (h : Nat) : (State.useSeq s h).tiers = s.tiers := rfl
@[simp] theorem State.useSeq_cores (s : State) (h : Nat) : (State.useSeq s h).cores = s.cores := rfl
@[simp] theorem State.useSeq_ingest (s : State) (h : Nat) : (State.useSeq s h).ingest = s.ingest := rfl
@[simp] theorem State.useSeq_apps (s : State) (h : Nat) : (State.useSeq s h).apps = s.apps := rfl
@[simp] theorem State.useSeq_out (s : State) (h : Nat) : (State.useSeq s h).out = s.out := rfl
@[simp] theorem State.useSeq_fresh (s : State) (h : Nat) : (State.useSeq s h).fresh = s.fresh := rfl

/-! ### State.setStream -/

@[simp] theorem State.setStream_apps (s : State) (h : Nat) (f : Stream → Stream) : (State.setStream s h f).apps = { s.apps with streams := s.apps.streams.update h f } := rfl
@[simp] theorem State.setStream_pending (s : State) (h : Nat) (f : Stream → Stream) : (State.setStream s h f).pending = s.pending := rfl
@[simp] theorem State.setStream_order (s : State) (h : Nat) (f : Stream → Stream) : (State.setStream s h f).order = s.order := rfl
@[simp] theorem State.setStream_clock (s : State) (h : Nat) (f : Stream → Stream) : (State.setStream s h f).clock = s.clock := rfl
@[simp] theorem State.setStream_stats (s : State) (h : Nat) (f : Stream → Stream) : (State.setStream s h f).stats = s.stats := rfl
@[simp] theorem State.setStream_scopes (s : State) (h : Nat) (f : Stream → Stream) : (State.setStream s h f).scopes = s.scopes := rfl
@[simp] theorem State.setStream_proto (s : State) (h : Nat) (f : Stream → Stream) : (State.setStream s h f).proto = s.proto := rfl
@[simp] theorem State.setStream_sched (s : State) (h : Nat) (f : Stream → Stream) : (State.setStream s h f).sched = s.sched := rfl
@[simp] theorem State.setStream_fw (s : State) (h : Nat) (f : Stream → Stream) : (State.setStream s h f).fw = s.fw := rfl
@[simp] theorem State.setStream_win (s : State) (h : Nat) (f : Stream → Stream) : (State.setStream s h f).win = s.win := rfl
@[simp] theorem State.setStream_sec (s : State) (h : Nat) (f : Stream → Stream) : (State.setStream s h f).sec = s.sec := rfl
@[simp] theorem State.setStream_power (s : State) (h : Nat) (f : Stream → Stream) : (State.setStream s h f).power = s.power := rfl
@[simp] theorem State.setStream_rel (s : State) (h : Nat) (f : Stream → Stream) : (State.setStream s h f).rel = s.rel := rfl
@[simp] theorem State.setStream_pins (s : State) (h : Nat) (f : Stream → Stream) : (State.setStream s h f).pins = s.pins := rfl
@[simp] theorem State.setStream_stores (s : State) (h : Nat) (f : Stream → Stream) : (State.setStream s h f).stores = s.stores := rfl
@[simp] theorem State.setStream_tiers (s : State) (h : Nat) (f : Stream → Stream) : (State.setStream s h f).tiers = s.tiers := rfl
@[simp] theorem State.setStream_cores (s : State) (h : Nat) (f : Stream → Stream) : (State.setStream s h f).cores = s.cores := rfl
@[simp] theorem State.setStream_kv (s : State) (h : Nat) (f : Stream → Stream) : (State.setStream s h f).kv = s.kv := rfl
@[simp] theorem State.setStream_ingest (s : State) (h : Nat) (f : Stream → Stream) : (State.setStream s h f).ingest = s.ingest := rfl
@[simp] theorem State.setStream_out (s : State) (h : Nat) (f : Stream → Stream) : (State.setStream s h f).out = s.out := rfl
@[simp] theorem State.setStream_fresh (s : State) (h : Nat) (f : Stream → Stream) : (State.setStream s h f).fresh = s.fresh := rfl

/-! ### State.setCtx -/

@[simp] theorem State.setCtx_pending (s : State) (c : Nat) (f : Context → Context) : (State.setCtx s c f).pending = s.pending := rfl
@[simp] theorem State.setCtx_order (s : State) (c : Nat) (f : Context → Context) : (State.setCtx s c f).order = s.order := rfl
@[simp] theorem State.setCtx_clock (s : State) (c : Nat) (f : Context → Context) : (State.setCtx s c f).clock = s.clock := rfl
@[simp] theorem State.setCtx_stats (s : State) (c : Nat) (f : Context → Context) : (State.setCtx s c f).stats = s.stats := rfl
@[simp] theorem State.setCtx_scopes (s : State) (c : Nat) (f : Context → Context) : (State.setCtx s c f).scopes = s.scopes := rfl
@[simp] theorem State.setCtx_proto (s : State) (c : Nat) (f : Context → Context) : (State.setCtx s c f).proto = s.proto := rfl
@[simp] theorem State.setCtx_fw (s : State) (c : Nat) (f : Context → Context) : (State.setCtx s c f).fw = s.fw := rfl
@[simp] theorem State.setCtx_win (s : State) (c : Nat) (f : Context → Context) : (State.setCtx s c f).win = s.win := rfl
@[simp] theorem State.setCtx_sec (s : State) (c : Nat) (f : Context → Context) : (State.setCtx s c f).sec = s.sec := rfl
@[simp] theorem State.setCtx_power (s : State) (c : Nat) (f : Context → Context) : (State.setCtx s c f).power = s.power := rfl
@[simp] theorem State.setCtx_rel (s : State) (c : Nat) (f : Context → Context) : (State.setCtx s c f).rel = s.rel := rfl
@[simp] theorem State.setCtx_pins (s : State) (c : Nat) (f : Context → Context) : (State.setCtx s c f).pins = s.pins := rfl
@[simp] theorem State.setCtx_stores (s : State) (c : Nat) (f : Context → Context) : (State.setCtx s c f).stores = s.stores := rfl
@[simp] theorem State.setCtx_tiers (s : State) (c : Nat) (f : Context → Context) : (State.setCtx s c f).tiers = s.tiers := rfl
@[simp] theorem State.setCtx_cores (s : State) (c : Nat) (f : Context → Context) : (State.setCtx s c f).cores = s.cores := rfl
@[simp] theorem State.setCtx_kv (s : State) (c : Nat) (f : Context → Context) : (State.setCtx s c f).kv = s.kv := rfl
@[simp] theorem State.setCtx_ingest (s : State) (c : Nat) (f : Context → Context) : (State.setCtx s c f).ingest = s.ingest := rfl
@[simp] theorem State.setCtx_apps (s : State) (c : Nat) (f : Context → Context) : (State.setCtx s c f).apps = s.apps := rfl
@[simp] theorem State.setCtx_out (s : State) (c : Nat) (f : Context → Context) : (State.setCtx s c f).out = s.out := rfl
@[simp] theorem State.setCtx_fresh (s : State) (c : Nat) (f : Context → Context) : (State.setCtx s c f).fresh = s.fresh := rfl

/-! ### State.setPart -/

@[simp] theorem State.setPart_pending (s : State) (p : Nat) (f : Partition → Partition) : (State.setPart s p f).pending = s.pending := rfl
@[simp] theorem State.setPart_order (s : State) (p : Nat) (f : Partition → Partition) : (State.setPart s p f).order = s.order := rfl
@[simp] theorem State.setPart_clock (s : State) (p : Nat) (f : Partition → Partition) : (State.setPart s p f).clock = s.clock := rfl
@[simp] theorem State.setPart_stats (s : State) (p : Nat) (f : Partition → Partition) : (State.setPart s p f).stats = s.stats := rfl
@[simp] theorem State.setPart_scopes (s : State) (p : Nat) (f : Partition → Partition) : (State.setPart s p f).scopes = s.scopes := rfl
@[simp] theorem State.setPart_proto (s : State) (p : Nat) (f : Partition → Partition) : (State.setPart s p f).proto = s.proto := rfl
@[simp] theorem State.setPart_fw (s : State) (p : Nat) (f : Partition → Partition) : (State.setPart s p f).fw = s.fw := rfl
@[simp] theorem State.setPart_win (s : State) (p : Nat) (f : Partition → Partition) : (State.setPart s p f).win = s.win := rfl
@[simp] theorem State.setPart_sec (s : State) (p : Nat) (f : Partition → Partition) : (State.setPart s p f).sec = s.sec := rfl
@[simp] theorem State.setPart_power (s : State) (p : Nat) (f : Partition → Partition) : (State.setPart s p f).power = s.power := rfl
@[simp] theorem State.setPart_rel (s : State) (p : Nat) (f : Partition → Partition) : (State.setPart s p f).rel = s.rel := rfl
@[simp] theorem State.setPart_pins (s : State) (p : Nat) (f : Partition → Partition) : (State.setPart s p f).pins = s.pins := rfl
@[simp] theorem State.setPart_stores (s : State) (p : Nat) (f : Partition → Partition) : (State.setPart s p f).stores = s.stores := rfl
@[simp] theorem State.setPart_tiers (s : State) (p : Nat) (f : Partition → Partition) : (State.setPart s p f).tiers = s.tiers := rfl
@[simp] theorem State.setPart_cores (s : State) (p : Nat) (f : Partition → Partition) : (State.setPart s p f).cores = s.cores := rfl
@[simp] theorem State.setPart_kv (s : State) (p : Nat) (f : Partition → Partition) : (State.setPart s p f).kv = s.kv := rfl
@[simp] theorem State.setPart_ingest (s : State) (p : Nat) (f : Partition → Partition) : (State.setPart s p f).ingest = s.ingest := rfl
@[simp] theorem State.setPart_apps (s : State) (p : Nat) (f : Partition → Partition) : (State.setPart s p f).apps = s.apps := rfl
@[simp] theorem State.setPart_out (s : State) (p : Nat) (f : Partition → Partition) : (State.setPart s p f).out = s.out := rfl
@[simp] theorem State.setPart_fresh (s : State) (p : Nat) (f : Partition → Partition) : (State.setPart s p f).fresh = s.fresh := rfl

/-! ### State.onCrystal -/

@[simp] theorem State.onCrystal_clock (s : State) (t : Nat) : (State.onCrystal s t).clock = { s.clock with timeState := t, slew := 0, step := 0 } := rfl
@[simp] theorem State.onCrystal_pending (s : State) (t : Nat) : (State.onCrystal s t).pending = s.pending := rfl
@[simp] theorem State.onCrystal_order (s : State) (t : Nat) : (State.onCrystal s t).order = s.order := rfl
@[simp] theorem State.onCrystal_stats (s : State) (t : Nat) : (State.onCrystal s t).stats = s.stats := rfl
@[simp] theorem State.onCrystal_scopes (s : State) (t : Nat) : (State.onCrystal s t).scopes = s.scopes := rfl
@[simp] theorem State.onCrystal_proto (s : State) (t : Nat) : (State.onCrystal s t).proto = s.proto := rfl
@[simp] theorem State.onCrystal_sched (s : State) (t : Nat) : (State.onCrystal s t).sched = s.sched := rfl
@[simp] theorem State.onCrystal_fw (s : State) (t : Nat) : (State.onCrystal s t).fw = s.fw := rfl
@[simp] theorem State.onCrystal_win (s : State) (t : Nat) : (State.onCrystal s t).win = s.win := rfl
@[simp] theorem State.onCrystal_sec (s : State) (t : Nat) : (State.onCrystal s t).sec = s.sec := rfl
@[simp] theorem State.onCrystal_power (s : State) (t : Nat) : (State.onCrystal s t).power = s.power := rfl
@[simp] theorem State.onCrystal_rel (s : State) (t : Nat) : (State.onCrystal s t).rel = s.rel := rfl
@[simp] theorem State.onCrystal_pins (s : State) (t : Nat) : (State.onCrystal s t).pins = s.pins := rfl
@[simp] theorem State.onCrystal_stores (s : State) (t : Nat) : (State.onCrystal s t).stores = s.stores := rfl
@[simp] theorem State.onCrystal_tiers (s : State) (t : Nat) : (State.onCrystal s t).tiers = s.tiers := rfl
@[simp] theorem State.onCrystal_cores (s : State) (t : Nat) : (State.onCrystal s t).cores = s.cores := rfl
@[simp] theorem State.onCrystal_kv (s : State) (t : Nat) : (State.onCrystal s t).kv = s.kv := rfl
@[simp] theorem State.onCrystal_ingest (s : State) (t : Nat) : (State.onCrystal s t).ingest = s.ingest := rfl
@[simp] theorem State.onCrystal_apps (s : State) (t : Nat) : (State.onCrystal s t).apps = s.apps := rfl
@[simp] theorem State.onCrystal_out (s : State) (t : Nat) : (State.onCrystal s t).out = s.out := rfl
@[simp] theorem State.onCrystal_fresh (s : State) (t : Nat) : (State.onCrystal s t).fresh = s.fresh := rfl

/-! ### State.setSlot -/

@[simp] theorem State.setSlot_ingest (s : State) (k : Nat) (f : SlotState → SlotState) : (State.setSlot s k f).ingest = { s.ingest with slots := s.ingest.slots.update k f } := rfl
@[simp] theorem State.setSlot_pending (s : State) (k : Nat) (f : SlotState → SlotState) : (State.setSlot s k f).pending = s.pending := rfl
@[simp] theorem State.setSlot_order (s : State) (k : Nat) (f : SlotState → SlotState) : (State.setSlot s k f).order = s.order := rfl
@[simp] theorem State.setSlot_clock (s : State) (k : Nat) (f : SlotState → SlotState) : (State.setSlot s k f).clock = s.clock := rfl
@[simp] theorem State.setSlot_stats (s : State) (k : Nat) (f : SlotState → SlotState) : (State.setSlot s k f).stats = s.stats := rfl
@[simp] theorem State.setSlot_scopes (s : State) (k : Nat) (f : SlotState → SlotState) : (State.setSlot s k f).scopes = s.scopes := rfl
@[simp] theorem State.setSlot_proto (s : State) (k : Nat) (f : SlotState → SlotState) : (State.setSlot s k f).proto = s.proto := rfl
@[simp] theorem State.setSlot_sched (s : State) (k : Nat) (f : SlotState → SlotState) : (State.setSlot s k f).sched = s.sched := rfl
@[simp] theorem State.setSlot_fw (s : State) (k : Nat) (f : SlotState → SlotState) : (State.setSlot s k f).fw = s.fw := rfl
@[simp] theorem State.setSlot_win (s : State) (k : Nat) (f : SlotState → SlotState) : (State.setSlot s k f).win = s.win := rfl
@[simp] theorem State.setSlot_sec (s : State) (k : Nat) (f : SlotState → SlotState) : (State.setSlot s k f).sec = s.sec := rfl
@[simp] theorem State.setSlot_power (s : State) (k : Nat) (f : SlotState → SlotState) : (State.setSlot s k f).power = s.power := rfl
@[simp] theorem State.setSlot_rel (s : State) (k : Nat) (f : SlotState → SlotState) : (State.setSlot s k f).rel = s.rel := rfl
@[simp] theorem State.setSlot_pins (s : State) (k : Nat) (f : SlotState → SlotState) : (State.setSlot s k f).pins = s.pins := rfl
@[simp] theorem State.setSlot_stores (s : State) (k : Nat) (f : SlotState → SlotState) : (State.setSlot s k f).stores = s.stores := rfl
@[simp] theorem State.setSlot_tiers (s : State) (k : Nat) (f : SlotState → SlotState) : (State.setSlot s k f).tiers = s.tiers := rfl
@[simp] theorem State.setSlot_cores (s : State) (k : Nat) (f : SlotState → SlotState) : (State.setSlot s k f).cores = s.cores := rfl
@[simp] theorem State.setSlot_kv (s : State) (k : Nat) (f : SlotState → SlotState) : (State.setSlot s k f).kv = s.kv := rfl
@[simp] theorem State.setSlot_apps (s : State) (k : Nat) (f : SlotState → SlotState) : (State.setSlot s k f).apps = s.apps := rfl
@[simp] theorem State.setSlot_out (s : State) (k : Nat) (f : SlotState → SlotState) : (State.setSlot s k f).out = s.out := rfl
@[simp] theorem State.setSlot_fresh (s : State) (k : Nat) (f : SlotState → SlotState) : (State.setSlot s k f).fresh = s.fresh := rfl

/-! ### State.setFilling -/

@[simp] theorem State.setFilling_pending (s : State) (k : Nat) (g : Filling → Filling) : (State.setFilling s k g).pending = s.pending := rfl
@[simp] theorem State.setFilling_order (s : State) (k : Nat) (g : Filling → Filling) : (State.setFilling s k g).order = s.order := rfl
@[simp] theorem State.setFilling_clock (s : State) (k : Nat) (g : Filling → Filling) : (State.setFilling s k g).clock = s.clock := rfl
@[simp] theorem State.setFilling_stats (s : State) (k : Nat) (g : Filling → Filling) : (State.setFilling s k g).stats = s.stats := rfl
@[simp] theorem State.setFilling_scopes (s : State) (k : Nat) (g : Filling → Filling) : (State.setFilling s k g).scopes = s.scopes := rfl
@[simp] theorem State.setFilling_proto (s : State) (k : Nat) (g : Filling → Filling) : (State.setFilling s k g).proto = s.proto := rfl
@[simp] theorem State.setFilling_sched (s : State) (k : Nat) (g : Filling → Filling) : (State.setFilling s k g).sched = s.sched := rfl
@[simp] theorem State.setFilling_fw (s : State) (k : Nat) (g : Filling → Filling) : (State.setFilling s k g).fw = s.fw := rfl
@[simp] theorem State.setFilling_win (s : State) (k : Nat) (g : Filling → Filling) : (State.setFilling s k g).win = s.win := rfl
@[simp] theorem State.setFilling_sec (s : State) (k : Nat) (g : Filling → Filling) : (State.setFilling s k g).sec = s.sec := rfl
@[simp] theorem State.setFilling_power (s : State) (k : Nat) (g : Filling → Filling) : (State.setFilling s k g).power = s.power := rfl
@[simp] theorem State.setFilling_rel (s : State) (k : Nat) (g : Filling → Filling) : (State.setFilling s k g).rel = s.rel := rfl
@[simp] theorem State.setFilling_pins (s : State) (k : Nat) (g : Filling → Filling) : (State.setFilling s k g).pins = s.pins := rfl
@[simp] theorem State.setFilling_stores (s : State) (k : Nat) (g : Filling → Filling) : (State.setFilling s k g).stores = s.stores := rfl
@[simp] theorem State.setFilling_tiers (s : State) (k : Nat) (g : Filling → Filling) : (State.setFilling s k g).tiers = s.tiers := rfl
@[simp] theorem State.setFilling_cores (s : State) (k : Nat) (g : Filling → Filling) : (State.setFilling s k g).cores = s.cores := rfl
@[simp] theorem State.setFilling_kv (s : State) (k : Nat) (g : Filling → Filling) : (State.setFilling s k g).kv = s.kv := rfl
@[simp] theorem State.setFilling_apps (s : State) (k : Nat) (g : Filling → Filling) : (State.setFilling s k g).apps = s.apps := rfl
@[simp] theorem State.setFilling_out (s : State) (k : Nat) (g : Filling → Filling) : (State.setFilling s k g).out = s.out := rfl
@[simp] theorem State.setFilling_fresh (s : State) (k : Nat) (g : Filling → Filling) : (State.setFilling s k g).fresh = s.fresh := rfl

/-! ### State.setGrid -/

@[simp] theorem State.setGrid_ingest (s : State) (g : Nat) (f : Grid → Grid) : (State.setGrid s g f).ingest = { s.ingest with grids := s.ingest.grids.update g f } := rfl
@[simp] theorem State.setGrid_pending (s : State) (g : Nat) (f : Grid → Grid) : (State.setGrid s g f).pending = s.pending := rfl
@[simp] theorem State.setGrid_order (s : State) (g : Nat) (f : Grid → Grid) : (State.setGrid s g f).order = s.order := rfl
@[simp] theorem State.setGrid_clock (s : State) (g : Nat) (f : Grid → Grid) : (State.setGrid s g f).clock = s.clock := rfl
@[simp] theorem State.setGrid_stats (s : State) (g : Nat) (f : Grid → Grid) : (State.setGrid s g f).stats = s.stats := rfl
@[simp] theorem State.setGrid_scopes (s : State) (g : Nat) (f : Grid → Grid) : (State.setGrid s g f).scopes = s.scopes := rfl
@[simp] theorem State.setGrid_proto (s : State) (g : Nat) (f : Grid → Grid) : (State.setGrid s g f).proto = s.proto := rfl
@[simp] theorem State.setGrid_sched (s : State) (g : Nat) (f : Grid → Grid) : (State.setGrid s g f).sched = s.sched := rfl
@[simp] theorem State.setGrid_fw (s : State) (g : Nat) (f : Grid → Grid) : (State.setGrid s g f).fw = s.fw := rfl
@[simp] theorem State.setGrid_win (s : State) (g : Nat) (f : Grid → Grid) : (State.setGrid s g f).win = s.win := rfl
@[simp] theorem State.setGrid_sec (s : State) (g : Nat) (f : Grid → Grid) : (State.setGrid s g f).sec = s.sec := rfl
@[simp] theorem State.setGrid_power (s : State) (g : Nat) (f : Grid → Grid) : (State.setGrid s g f).power = s.power := rfl
@[simp] theorem State.setGrid_rel (s : State) (g : Nat) (f : Grid → Grid) : (State.setGrid s g f).rel = s.rel := rfl
@[simp] theorem State.setGrid_pins (s : State) (g : Nat) (f : Grid → Grid) : (State.setGrid s g f).pins = s.pins := rfl
@[simp] theorem State.setGrid_stores (s : State) (g : Nat) (f : Grid → Grid) : (State.setGrid s g f).stores = s.stores := rfl
@[simp] theorem State.setGrid_tiers (s : State) (g : Nat) (f : Grid → Grid) : (State.setGrid s g f).tiers = s.tiers := rfl
@[simp] theorem State.setGrid_cores (s : State) (g : Nat) (f : Grid → Grid) : (State.setGrid s g f).cores = s.cores := rfl
@[simp] theorem State.setGrid_kv (s : State) (g : Nat) (f : Grid → Grid) : (State.setGrid s g f).kv = s.kv := rfl
@[simp] theorem State.setGrid_apps (s : State) (g : Nat) (f : Grid → Grid) : (State.setGrid s g f).apps = s.apps := rfl
@[simp] theorem State.setGrid_out (s : State) (g : Nat) (f : Grid → Grid) : (State.setGrid s g f).out = s.out := rfl
@[simp] theorem State.setGrid_fresh (s : State) (g : Nat) (f : Grid → Grid) : (State.setGrid s g f).fresh = s.fresh := rfl

/-! ### State.setLattice -/

@[simp] theorem State.setLattice_apps (s : State) (h : Nat) (f : Lattice → Lattice) : (State.setLattice s h f).apps = { s.apps with lattices := s.apps.lattices.update h f } := rfl
@[simp] theorem State.setLattice_pending (s : State) (h : Nat) (f : Lattice → Lattice) : (State.setLattice s h f).pending = s.pending := rfl
@[simp] theorem State.setLattice_order (s : State) (h : Nat) (f : Lattice → Lattice) : (State.setLattice s h f).order = s.order := rfl
@[simp] theorem State.setLattice_clock (s : State) (h : Nat) (f : Lattice → Lattice) : (State.setLattice s h f).clock = s.clock := rfl
@[simp] theorem State.setLattice_stats (s : State) (h : Nat) (f : Lattice → Lattice) : (State.setLattice s h f).stats = s.stats := rfl
@[simp] theorem State.setLattice_scopes (s : State) (h : Nat) (f : Lattice → Lattice) : (State.setLattice s h f).scopes = s.scopes := rfl
@[simp] theorem State.setLattice_proto (s : State) (h : Nat) (f : Lattice → Lattice) : (State.setLattice s h f).proto = s.proto := rfl
@[simp] theorem State.setLattice_sched (s : State) (h : Nat) (f : Lattice → Lattice) : (State.setLattice s h f).sched = s.sched := rfl
@[simp] theorem State.setLattice_fw (s : State) (h : Nat) (f : Lattice → Lattice) : (State.setLattice s h f).fw = s.fw := rfl
@[simp] theorem State.setLattice_win (s : State) (h : Nat) (f : Lattice → Lattice) : (State.setLattice s h f).win = s.win := rfl
@[simp] theorem State.setLattice_sec (s : State) (h : Nat) (f : Lattice → Lattice) : (State.setLattice s h f).sec = s.sec := rfl
@[simp] theorem State.setLattice_power (s : State) (h : Nat) (f : Lattice → Lattice) : (State.setLattice s h f).power = s.power := rfl
@[simp] theorem State.setLattice_rel (s : State) (h : Nat) (f : Lattice → Lattice) : (State.setLattice s h f).rel = s.rel := rfl
@[simp] theorem State.setLattice_pins (s : State) (h : Nat) (f : Lattice → Lattice) : (State.setLattice s h f).pins = s.pins := rfl
@[simp] theorem State.setLattice_stores (s : State) (h : Nat) (f : Lattice → Lattice) : (State.setLattice s h f).stores = s.stores := rfl
@[simp] theorem State.setLattice_tiers (s : State) (h : Nat) (f : Lattice → Lattice) : (State.setLattice s h f).tiers = s.tiers := rfl
@[simp] theorem State.setLattice_cores (s : State) (h : Nat) (f : Lattice → Lattice) : (State.setLattice s h f).cores = s.cores := rfl
@[simp] theorem State.setLattice_kv (s : State) (h : Nat) (f : Lattice → Lattice) : (State.setLattice s h f).kv = s.kv := rfl
@[simp] theorem State.setLattice_ingest (s : State) (h : Nat) (f : Lattice → Lattice) : (State.setLattice s h f).ingest = s.ingest := rfl
@[simp] theorem State.setLattice_out (s : State) (h : Nat) (f : Lattice → Lattice) : (State.setLattice s h f).out = s.out := rfl
@[simp] theorem State.setLattice_fresh (s : State) (h : Nat) (f : Lattice → Lattice) : (State.setLattice s h f).fresh = s.fresh := rfl

/-! ### State.setJob -/

@[simp] theorem State.setJob_sched (s : State) (h : Nat) (f : Job → Job) : (State.setJob s h f).sched = { s.sched with jobs := s.sched.jobs.update h f } := rfl
@[simp] theorem State.setJob_pending (s : State) (h : Nat) (f : Job → Job) : (State.setJob s h f).pending = s.pending := rfl
@[simp] theorem State.setJob_order (s : State) (h : Nat) (f : Job → Job) : (State.setJob s h f).order = s.order := rfl
@[simp] theorem State.setJob_clock (s : State) (h : Nat) (f : Job → Job) : (State.setJob s h f).clock = s.clock := rfl
@[simp] theorem State.setJob_stats (s : State) (h : Nat) (f : Job → Job) : (State.setJob s h f).stats = s.stats := rfl
@[simp] theorem State.setJob_scopes (s : State) (h : Nat) (f : Job → Job) : (State.setJob s h f).scopes = s.scopes := rfl
@[simp] theorem State.setJob_proto (s : State) (h : Nat) (f : Job → Job) : (State.setJob s h f).proto = s.proto := rfl
@[simp] theorem State.setJob_fw (s : State) (h : Nat) (f : Job → Job) : (State.setJob s h f).fw = s.fw := rfl
@[simp] theorem State.setJob_win (s : State) (h : Nat) (f : Job → Job) : (State.setJob s h f).win = s.win := rfl
@[simp] theorem State.setJob_sec (s : State) (h : Nat) (f : Job → Job) : (State.setJob s h f).sec = s.sec := rfl
@[simp] theorem State.setJob_power (s : State) (h : Nat) (f : Job → Job) : (State.setJob s h f).power = s.power := rfl
@[simp] theorem State.setJob_rel (s : State) (h : Nat) (f : Job → Job) : (State.setJob s h f).rel = s.rel := rfl
@[simp] theorem State.setJob_pins (s : State) (h : Nat) (f : Job → Job) : (State.setJob s h f).pins = s.pins := rfl
@[simp] theorem State.setJob_stores (s : State) (h : Nat) (f : Job → Job) : (State.setJob s h f).stores = s.stores := rfl
@[simp] theorem State.setJob_tiers (s : State) (h : Nat) (f : Job → Job) : (State.setJob s h f).tiers = s.tiers := rfl
@[simp] theorem State.setJob_cores (s : State) (h : Nat) (f : Job → Job) : (State.setJob s h f).cores = s.cores := rfl
@[simp] theorem State.setJob_kv (s : State) (h : Nat) (f : Job → Job) : (State.setJob s h f).kv = s.kv := rfl
@[simp] theorem State.setJob_ingest (s : State) (h : Nat) (f : Job → Job) : (State.setJob s h f).ingest = s.ingest := rfl
@[simp] theorem State.setJob_apps (s : State) (h : Nat) (f : Job → Job) : (State.setJob s h f).apps = s.apps := rfl
@[simp] theorem State.setJob_out (s : State) (h : Nat) (f : Job → Job) : (State.setJob s h f).out = s.out := rfl
@[simp] theorem State.setJob_fresh (s : State) (h : Nat) (f : Job → Job) : (State.setJob s h f).fresh = s.fresh := rfl

/-! ### State.setFiring -/

@[simp] theorem State.setFiring_pending (s : State) (h : Nat) (f : Firing → Firing) : (State.setFiring s h f).pending = s.pending := rfl
@[simp] theorem State.setFiring_order (s : State) (h : Nat) (f : Firing → Firing) : (State.setFiring s h f).order = s.order := rfl
@[simp] theorem State.setFiring_clock (s : State) (h : Nat) (f : Firing → Firing) : (State.setFiring s h f).clock = s.clock := rfl
@[simp] theorem State.setFiring_stats (s : State) (h : Nat) (f : Firing → Firing) : (State.setFiring s h f).stats = s.stats := rfl
@[simp] theorem State.setFiring_scopes (s : State) (h : Nat) (f : Firing → Firing) : (State.setFiring s h f).scopes = s.scopes := rfl
@[simp] theorem State.setFiring_proto (s : State) (h : Nat) (f : Firing → Firing) : (State.setFiring s h f).proto = s.proto := rfl
@[simp] theorem State.setFiring_fw (s : State) (h : Nat) (f : Firing → Firing) : (State.setFiring s h f).fw = s.fw := rfl
@[simp] theorem State.setFiring_win (s : State) (h : Nat) (f : Firing → Firing) : (State.setFiring s h f).win = s.win := rfl
@[simp] theorem State.setFiring_sec (s : State) (h : Nat) (f : Firing → Firing) : (State.setFiring s h f).sec = s.sec := rfl
@[simp] theorem State.setFiring_power (s : State) (h : Nat) (f : Firing → Firing) : (State.setFiring s h f).power = s.power := rfl
@[simp] theorem State.setFiring_rel (s : State) (h : Nat) (f : Firing → Firing) : (State.setFiring s h f).rel = s.rel := rfl
@[simp] theorem State.setFiring_pins (s : State) (h : Nat) (f : Firing → Firing) : (State.setFiring s h f).pins = s.pins := rfl
@[simp] theorem State.setFiring_stores (s : State) (h : Nat) (f : Firing → Firing) : (State.setFiring s h f).stores = s.stores := rfl
@[simp] theorem State.setFiring_tiers (s : State) (h : Nat) (f : Firing → Firing) : (State.setFiring s h f).tiers = s.tiers := rfl
@[simp] theorem State.setFiring_cores (s : State) (h : Nat) (f : Firing → Firing) : (State.setFiring s h f).cores = s.cores := rfl
@[simp] theorem State.setFiring_kv (s : State) (h : Nat) (f : Firing → Firing) : (State.setFiring s h f).kv = s.kv := rfl
@[simp] theorem State.setFiring_ingest (s : State) (h : Nat) (f : Firing → Firing) : (State.setFiring s h f).ingest = s.ingest := rfl
@[simp] theorem State.setFiring_apps (s : State) (h : Nat) (f : Firing → Firing) : (State.setFiring s h f).apps = s.apps := rfl
@[simp] theorem State.setFiring_out (s : State) (h : Nat) (f : Firing → Firing) : (State.setFiring s h f).out = s.out := rfl
@[simp] theorem State.setFiring_fresh (s : State) (h : Nat) (f : Firing → Firing) : (State.setFiring s h f).fresh = s.fresh := rfl

/-! ### State.setBank -/

@[simp] theorem State.setBank_pending (s : State) (b : Bool) (f : Bank → Bank) : (State.setBank s b f).pending = s.pending := rfl
@[simp] theorem State.setBank_order (s : State) (b : Bool) (f : Bank → Bank) : (State.setBank s b f).order = s.order := rfl
@[simp] theorem State.setBank_clock (s : State) (b : Bool) (f : Bank → Bank) : (State.setBank s b f).clock = s.clock := rfl
@[simp] theorem State.setBank_stats (s : State) (b : Bool) (f : Bank → Bank) : (State.setBank s b f).stats = s.stats := rfl
@[simp] theorem State.setBank_scopes (s : State) (b : Bool) (f : Bank → Bank) : (State.setBank s b f).scopes = s.scopes := rfl
@[simp] theorem State.setBank_proto (s : State) (b : Bool) (f : Bank → Bank) : (State.setBank s b f).proto = s.proto := rfl
@[simp] theorem State.setBank_sched (s : State) (b : Bool) (f : Bank → Bank) : (State.setBank s b f).sched = s.sched := rfl
@[simp] theorem State.setBank_win (s : State) (b : Bool) (f : Bank → Bank) : (State.setBank s b f).win = s.win := rfl
@[simp] theorem State.setBank_sec (s : State) (b : Bool) (f : Bank → Bank) : (State.setBank s b f).sec = s.sec := rfl
@[simp] theorem State.setBank_power (s : State) (b : Bool) (f : Bank → Bank) : (State.setBank s b f).power = s.power := rfl
@[simp] theorem State.setBank_rel (s : State) (b : Bool) (f : Bank → Bank) : (State.setBank s b f).rel = s.rel := rfl
@[simp] theorem State.setBank_pins (s : State) (b : Bool) (f : Bank → Bank) : (State.setBank s b f).pins = s.pins := rfl
@[simp] theorem State.setBank_stores (s : State) (b : Bool) (f : Bank → Bank) : (State.setBank s b f).stores = s.stores := rfl
@[simp] theorem State.setBank_tiers (s : State) (b : Bool) (f : Bank → Bank) : (State.setBank s b f).tiers = s.tiers := rfl
@[simp] theorem State.setBank_cores (s : State) (b : Bool) (f : Bank → Bank) : (State.setBank s b f).cores = s.cores := rfl
@[simp] theorem State.setBank_kv (s : State) (b : Bool) (f : Bank → Bank) : (State.setBank s b f).kv = s.kv := rfl
@[simp] theorem State.setBank_ingest (s : State) (b : Bool) (f : Bank → Bank) : (State.setBank s b f).ingest = s.ingest := rfl
@[simp] theorem State.setBank_apps (s : State) (b : Bool) (f : Bank → Bank) : (State.setBank s b f).apps = s.apps := rfl
@[simp] theorem State.setBank_out (s : State) (b : Bool) (f : Bank → Bank) : (State.setBank s b f).out = s.out := rfl
@[simp] theorem State.setBank_fresh (s : State) (b : Bool) (f : Bank → Bank) : (State.setBank s b f).fresh = s.fresh := rfl

/-! ### State.setProc -/

@[simp] theorem State.setProc_pending (s : State) (code : Nat) (f : Processor → Processor) : (State.setProc s code f).pending = s.pending := rfl
@[simp] theorem State.setProc_order (s : State) (code : Nat) (f : Processor → Processor) : (State.setProc s code f).order = s.order := rfl
@[simp] theorem State.setProc_clock (s : State) (code : Nat) (f : Processor → Processor) : (State.setProc s code f).clock = s.clock := rfl
@[simp] theorem State.setProc_stats (s : State) (code : Nat) (f : Processor → Processor) : (State.setProc s code f).stats = s.stats := rfl
@[simp] theorem State.setProc_scopes (s : State) (code : Nat) (f : Processor → Processor) : (State.setProc s code f).scopes = s.scopes := rfl
@[simp] theorem State.setProc_proto (s : State) (code : Nat) (f : Processor → Processor) : (State.setProc s code f).proto = s.proto := rfl
@[simp] theorem State.setProc_sched (s : State) (code : Nat) (f : Processor → Processor) : (State.setProc s code f).sched = s.sched := rfl
@[simp] theorem State.setProc_win (s : State) (code : Nat) (f : Processor → Processor) : (State.setProc s code f).win = s.win := rfl
@[simp] theorem State.setProc_sec (s : State) (code : Nat) (f : Processor → Processor) : (State.setProc s code f).sec = s.sec := rfl
@[simp] theorem State.setProc_power (s : State) (code : Nat) (f : Processor → Processor) : (State.setProc s code f).power = s.power := rfl
@[simp] theorem State.setProc_rel (s : State) (code : Nat) (f : Processor → Processor) : (State.setProc s code f).rel = s.rel := rfl
@[simp] theorem State.setProc_pins (s : State) (code : Nat) (f : Processor → Processor) : (State.setProc s code f).pins = s.pins := rfl
@[simp] theorem State.setProc_stores (s : State) (code : Nat) (f : Processor → Processor) : (State.setProc s code f).stores = s.stores := rfl
@[simp] theorem State.setProc_tiers (s : State) (code : Nat) (f : Processor → Processor) : (State.setProc s code f).tiers = s.tiers := rfl
@[simp] theorem State.setProc_cores (s : State) (code : Nat) (f : Processor → Processor) : (State.setProc s code f).cores = s.cores := rfl
@[simp] theorem State.setProc_kv (s : State) (code : Nat) (f : Processor → Processor) : (State.setProc s code f).kv = s.kv := rfl
@[simp] theorem State.setProc_ingest (s : State) (code : Nat) (f : Processor → Processor) : (State.setProc s code f).ingest = s.ingest := rfl
@[simp] theorem State.setProc_apps (s : State) (code : Nat) (f : Processor → Processor) : (State.setProc s code f).apps = s.apps := rfl
@[simp] theorem State.setProc_out (s : State) (code : Nat) (f : Processor → Processor) : (State.setProc s code f).out = s.out := rfl
@[simp] theorem State.setProc_fresh (s : State) (code : Nat) (f : Processor → Processor) : (State.setProc s code f).fresh = s.fresh := rfl

/-! ### State.apply -/

@[simp] theorem State.apply_stores (s : State) (ws : List Wr) : (State.apply s ws).stores = ws.foldl (fun m w => (m.write w).heal w) s.stores := rfl
@[simp] theorem State.apply_pending (s : State) (ws : List Wr) : (State.apply s ws).pending = s.pending := rfl
@[simp] theorem State.apply_order (s : State) (ws : List Wr) : (State.apply s ws).order = s.order := rfl
@[simp] theorem State.apply_clock (s : State) (ws : List Wr) : (State.apply s ws).clock = s.clock := rfl
@[simp] theorem State.apply_stats (s : State) (ws : List Wr) : (State.apply s ws).stats = s.stats := rfl
@[simp] theorem State.apply_scopes (s : State) (ws : List Wr) : (State.apply s ws).scopes = s.scopes := rfl
@[simp] theorem State.apply_proto (s : State) (ws : List Wr) : (State.apply s ws).proto = s.proto := rfl
@[simp] theorem State.apply_sched (s : State) (ws : List Wr) : (State.apply s ws).sched = s.sched := rfl
@[simp] theorem State.apply_fw (s : State) (ws : List Wr) : (State.apply s ws).fw = s.fw := rfl
@[simp] theorem State.apply_win (s : State) (ws : List Wr) : (State.apply s ws).win = s.win := rfl
@[simp] theorem State.apply_sec (s : State) (ws : List Wr) : (State.apply s ws).sec = s.sec := rfl
@[simp] theorem State.apply_power (s : State) (ws : List Wr) : (State.apply s ws).power = s.power := rfl
@[simp] theorem State.apply_rel (s : State) (ws : List Wr) : (State.apply s ws).rel = s.rel := rfl
@[simp] theorem State.apply_pins (s : State) (ws : List Wr) : (State.apply s ws).pins = s.pins := rfl
@[simp] theorem State.apply_tiers (s : State) (ws : List Wr) : (State.apply s ws).tiers = s.tiers := rfl
@[simp] theorem State.apply_cores (s : State) (ws : List Wr) : (State.apply s ws).cores = s.cores := rfl
@[simp] theorem State.apply_kv (s : State) (ws : List Wr) : (State.apply s ws).kv = s.kv := rfl
@[simp] theorem State.apply_ingest (s : State) (ws : List Wr) : (State.apply s ws).ingest = s.ingest := rfl
@[simp] theorem State.apply_apps (s : State) (ws : List Wr) : (State.apply s ws).apps = s.apps := rfl
@[simp] theorem State.apply_out (s : State) (ws : List Wr) : (State.apply s ws).out = s.out := rfl
@[simp] theorem State.apply_fresh (s : State) (ws : List Wr) : (State.apply s ws).fresh = s.fresh := rfl

/-! ### State.zeroFill -/

@[simp] theorem State.zeroFill_pending (s : State) (st : Store) (addr n : Nat) : (State.zeroFill s st addr n).pending = s.pending := rfl
@[simp] theorem State.zeroFill_order (s : State) (st : Store) (addr n : Nat) : (State.zeroFill s st addr n).order = s.order := rfl
@[simp] theorem State.zeroFill_clock (s : State) (st : Store) (addr n : Nat) : (State.zeroFill s st addr n).clock = s.clock := rfl
@[simp] theorem State.zeroFill_stats (s : State) (st : Store) (addr n : Nat) : (State.zeroFill s st addr n).stats = s.stats := rfl
@[simp] theorem State.zeroFill_scopes (s : State) (st : Store) (addr n : Nat) : (State.zeroFill s st addr n).scopes = s.scopes := rfl
@[simp] theorem State.zeroFill_proto (s : State) (st : Store) (addr n : Nat) : (State.zeroFill s st addr n).proto = s.proto := rfl
@[simp] theorem State.zeroFill_sched (s : State) (st : Store) (addr n : Nat) : (State.zeroFill s st addr n).sched = s.sched := rfl
@[simp] theorem State.zeroFill_fw (s : State) (st : Store) (addr n : Nat) : (State.zeroFill s st addr n).fw = s.fw := rfl
@[simp] theorem State.zeroFill_win (s : State) (st : Store) (addr n : Nat) : (State.zeroFill s st addr n).win = s.win := rfl
@[simp] theorem State.zeroFill_sec (s : State) (st : Store) (addr n : Nat) : (State.zeroFill s st addr n).sec = s.sec := rfl
@[simp] theorem State.zeroFill_power (s : State) (st : Store) (addr n : Nat) : (State.zeroFill s st addr n).power = s.power := rfl
@[simp] theorem State.zeroFill_rel (s : State) (st : Store) (addr n : Nat) : (State.zeroFill s st addr n).rel = s.rel := rfl
@[simp] theorem State.zeroFill_pins (s : State) (st : Store) (addr n : Nat) : (State.zeroFill s st addr n).pins = s.pins := rfl
@[simp] theorem State.zeroFill_tiers (s : State) (st : Store) (addr n : Nat) : (State.zeroFill s st addr n).tiers = s.tiers := rfl
@[simp] theorem State.zeroFill_cores (s : State) (st : Store) (addr n : Nat) : (State.zeroFill s st addr n).cores = s.cores := rfl
@[simp] theorem State.zeroFill_kv (s : State) (st : Store) (addr n : Nat) : (State.zeroFill s st addr n).kv = s.kv := rfl
@[simp] theorem State.zeroFill_ingest (s : State) (st : Store) (addr n : Nat) : (State.zeroFill s st addr n).ingest = s.ingest := rfl
@[simp] theorem State.zeroFill_apps (s : State) (st : Store) (addr n : Nat) : (State.zeroFill s st addr n).apps = s.apps := rfl
@[simp] theorem State.zeroFill_out (s : State) (st : Store) (addr n : Nat) : (State.zeroFill s st addr n).out = s.out := rfl
@[simp] theorem State.zeroFill_fresh (s : State) (st : Store) (addr n : Nat) : (State.zeroFill s st addr n).fresh = s.fresh := rfl

/-! ### State.setPos -/

@[simp] theorem State.setPos_pending (s : State) (key i : Nat) (g : BellowsPos → BellowsPos) : (State.setPos s key i g).pending = s.pending := rfl
@[simp] theorem State.setPos_order (s : State) (key i : Nat) (g : BellowsPos → BellowsPos) : (State.setPos s key i g).order = s.order := rfl
@[simp] theorem State.setPos_clock (s : State) (key i : Nat) (g : BellowsPos → BellowsPos) : (State.setPos s key i g).clock = s.clock := rfl
@[simp] theorem State.setPos_stats (s : State) (key i : Nat) (g : BellowsPos → BellowsPos) : (State.setPos s key i g).stats = s.stats := rfl
@[simp] theorem State.setPos_scopes (s : State) (key i : Nat) (g : BellowsPos → BellowsPos) : (State.setPos s key i g).scopes = s.scopes := rfl
@[simp] theorem State.setPos_proto (s : State) (key i : Nat) (g : BellowsPos → BellowsPos) : (State.setPos s key i g).proto = s.proto := rfl
@[simp] theorem State.setPos_sched (s : State) (key i : Nat) (g : BellowsPos → BellowsPos) : (State.setPos s key i g).sched = s.sched := rfl
@[simp] theorem State.setPos_fw (s : State) (key i : Nat) (g : BellowsPos → BellowsPos) : (State.setPos s key i g).fw = s.fw := rfl
@[simp] theorem State.setPos_win (s : State) (key i : Nat) (g : BellowsPos → BellowsPos) : (State.setPos s key i g).win = s.win := rfl
@[simp] theorem State.setPos_sec (s : State) (key i : Nat) (g : BellowsPos → BellowsPos) : (State.setPos s key i g).sec = s.sec := rfl
@[simp] theorem State.setPos_power (s : State) (key i : Nat) (g : BellowsPos → BellowsPos) : (State.setPos s key i g).power = s.power := rfl
@[simp] theorem State.setPos_rel (s : State) (key i : Nat) (g : BellowsPos → BellowsPos) : (State.setPos s key i g).rel = s.rel := rfl
@[simp] theorem State.setPos_pins (s : State) (key i : Nat) (g : BellowsPos → BellowsPos) : (State.setPos s key i g).pins = s.pins := rfl
@[simp] theorem State.setPos_stores (s : State) (key i : Nat) (g : BellowsPos → BellowsPos) : (State.setPos s key i g).stores = s.stores := rfl
@[simp] theorem State.setPos_cores (s : State) (key i : Nat) (g : BellowsPos → BellowsPos) : (State.setPos s key i g).cores = s.cores := rfl
@[simp] theorem State.setPos_kv (s : State) (key i : Nat) (g : BellowsPos → BellowsPos) : (State.setPos s key i g).kv = s.kv := rfl
@[simp] theorem State.setPos_ingest (s : State) (key i : Nat) (g : BellowsPos → BellowsPos) : (State.setPos s key i g).ingest = s.ingest := rfl
@[simp] theorem State.setPos_apps (s : State) (key i : Nat) (g : BellowsPos → BellowsPos) : (State.setPos s key i g).apps = s.apps := rfl
@[simp] theorem State.setPos_out (s : State) (key i : Nat) (g : BellowsPos → BellowsPos) : (State.setPos s key i g).out = s.out := rfl
@[simp] theorem State.setPos_fresh (s : State) (key i : Nat) (g : BellowsPos → BellowsPos) : (State.setPos s key i g).fresh = s.fresh := rfl

/-! ### State.placeImage -/

@[simp] theorem State.placeImage_pending (s : State) (m : Model) (img : List Byte) : (State.placeImage s m img).pending = s.pending := rfl
@[simp] theorem State.placeImage_order (s : State) (m : Model) (img : List Byte) : (State.placeImage s m img).order = s.order := rfl
@[simp] theorem State.placeImage_clock (s : State) (m : Model) (img : List Byte) : (State.placeImage s m img).clock = s.clock := rfl
@[simp] theorem State.placeImage_stats (s : State) (m : Model) (img : List Byte) : (State.placeImage s m img).stats = s.stats := rfl
@[simp] theorem State.placeImage_scopes (s : State) (m : Model) (img : List Byte) : (State.placeImage s m img).scopes = s.scopes := rfl
@[simp] theorem State.placeImage_proto (s : State) (m : Model) (img : List Byte) : (State.placeImage s m img).proto = s.proto := rfl
@[simp] theorem State.placeImage_sched (s : State) (m : Model) (img : List Byte) : (State.placeImage s m img).sched = s.sched := rfl
@[simp] theorem State.placeImage_fw (s : State) (m : Model) (img : List Byte) : (State.placeImage s m img).fw = s.fw := rfl
@[simp] theorem State.placeImage_win (s : State) (m : Model) (img : List Byte) : (State.placeImage s m img).win = s.win := rfl
@[simp] theorem State.placeImage_sec (s : State) (m : Model) (img : List Byte) : (State.placeImage s m img).sec = s.sec := rfl
@[simp] theorem State.placeImage_power (s : State) (m : Model) (img : List Byte) : (State.placeImage s m img).power = s.power := rfl
@[simp] theorem State.placeImage_rel (s : State) (m : Model) (img : List Byte) : (State.placeImage s m img).rel = s.rel := rfl
@[simp] theorem State.placeImage_pins (s : State) (m : Model) (img : List Byte) : (State.placeImage s m img).pins = s.pins := rfl
@[simp] theorem State.placeImage_tiers (s : State) (m : Model) (img : List Byte) : (State.placeImage s m img).tiers = s.tiers := rfl
@[simp] theorem State.placeImage_cores (s : State) (m : Model) (img : List Byte) : (State.placeImage s m img).cores = s.cores := rfl
@[simp] theorem State.placeImage_kv (s : State) (m : Model) (img : List Byte) : (State.placeImage s m img).kv = s.kv := rfl
@[simp] theorem State.placeImage_ingest (s : State) (m : Model) (img : List Byte) : (State.placeImage s m img).ingest = s.ingest := rfl
@[simp] theorem State.placeImage_apps (s : State) (m : Model) (img : List Byte) : (State.placeImage s m img).apps = s.apps := rfl
@[simp] theorem State.placeImage_out (s : State) (m : Model) (img : List Byte) : (State.placeImage s m img).out = s.out := rfl
@[simp] theorem State.placeImage_fresh (s : State) (m : Model) (img : List Byte) : (State.placeImage s m img).fresh = s.fresh := rfl

/-! ### State.countSpi -/

@[simp] theorem State.countSpi_win (s : State) : (State.countSpi s).win = { s.win with spiErrors := sat32 (s.win.spiErrors + 1) } := rfl
@[simp] theorem State.countSpi_pending (s : State) : (State.countSpi s).pending = s.pending := rfl
@[simp] theorem State.countSpi_order (s : State) : (State.countSpi s).order = s.order := rfl
@[simp] theorem State.countSpi_clock (s : State) : (State.countSpi s).clock = s.clock := rfl
@[simp] theorem State.countSpi_stats (s : State) : (State.countSpi s).stats = s.stats := rfl
@[simp] theorem State.countSpi_scopes (s : State) : (State.countSpi s).scopes = s.scopes := rfl
@[simp] theorem State.countSpi_proto (s : State) : (State.countSpi s).proto = s.proto := rfl
@[simp] theorem State.countSpi_sched (s : State) : (State.countSpi s).sched = s.sched := rfl
@[simp] theorem State.countSpi_fw (s : State) : (State.countSpi s).fw = s.fw := rfl
@[simp] theorem State.countSpi_sec (s : State) : (State.countSpi s).sec = s.sec := rfl
@[simp] theorem State.countSpi_power (s : State) : (State.countSpi s).power = s.power := rfl
@[simp] theorem State.countSpi_rel (s : State) : (State.countSpi s).rel = s.rel := rfl
@[simp] theorem State.countSpi_pins (s : State) : (State.countSpi s).pins = s.pins := rfl
@[simp] theorem State.countSpi_stores (s : State) : (State.countSpi s).stores = s.stores := rfl
@[simp] theorem State.countSpi_tiers (s : State) : (State.countSpi s).tiers = s.tiers := rfl
@[simp] theorem State.countSpi_cores (s : State) : (State.countSpi s).cores = s.cores := rfl
@[simp] theorem State.countSpi_kv (s : State) : (State.countSpi s).kv = s.kv := rfl
@[simp] theorem State.countSpi_ingest (s : State) : (State.countSpi s).ingest = s.ingest := rfl
@[simp] theorem State.countSpi_apps (s : State) : (State.countSpi s).apps = s.apps := rfl
@[simp] theorem State.countSpi_out (s : State) : (State.countSpi s).out = s.out := rfl
@[simp] theorem State.countSpi_fresh (s : State) : (State.countSpi s).fresh = s.fresh := rfl

end Sys2Proof.Machine
end

