-- ==== Sys2Proof/Laws/Ops.lean ====
section
/-! SUPPORT. What each shared operation can do, said once: completions, events, host writes, and what it leaves alone. -/

namespace Sys2Proof.Machine

/-- A property that every pass of a fold keeps holds at its end. -/
theorem foldl_keeps {α β : Type} (P : β → Prop) (f : β → α → β) (l : List α) (b : β) (h0 : P b) (hs : ∀ b a, P b → P (f b a)) : P (l.foldl f b) := by
  induction l generalizing b with
  | nil => exact h0
  | cons a r ih => exact ih _ (hs _ _ h0)

/-! ### Events -/

/-- Only event queues, what left the part, and host memory differ, and no memory loses its canonical form. -/
def State.EventsOnly (s t : State) : Prop :=
  t = { s with proto := { s.proto with eqs := t.proto.eqs }, stores := t.stores, out := t.out } ∧ (s.stores.wf = true → t.stores.wf = true)

theorem State.EventsOnly.refl (s : State) : s.EventsOnly s := ⟨rfl, id⟩

theorem State.EventsOnly.trans {s t u : State} (h : s.EventsOnly t) (g : t.EventsOnly u) : s.EventsOnly u := by
  refine ⟨?_, fun w => g.2 (h.2 w)⟩
  have e := g.1
  rw [h.1] at e
  exact e

theorem State.apply_events (s : State) (ws : List Wr) : s.EventsOnly (s.apply ws) := ⟨rfl, s.apply_wf ws⟩

theorem State.emit_events (s : State) (o : Output) : s.EventsOnly (s.emit o) := ⟨rfl, id⟩

theorem State.raise_events (s : State) (fn v : Nat) : s.EventsOnly (s.raise fn v) := by
  unfold State.raise
  split
  · exact .refl s
  · exact s.emit_events _

theorem State.writeRecord_events (s : State) (eq : Nat) (q : EventQueue) (e : Event) : s.EventsOnly (s.writeRecord eq q e) := by
  unfold State.writeRecord
  split
  · exact ⟨rfl, id⟩
  · simp only
    have h : s.EventsOnly { s with proto := { s.proto with eqs := s.proto.eqs.set eq { q with eqSeq := (q.eqSeq + 1) % 2 ^ 32, tail := (q.tail + 1) % 2 ^ 32 } } } := ⟨rfl, id⟩
    split
    · exact (h.trans (State.apply_events _ _)).trans (State.raise_events _ _ _)
    · exact h.trans (State.apply_events _ _)

theorem State.reportLost_events (s : State) (eq : Nat) : s.EventsOnly (s.reportLost eq) := by
  unfold State.reportLost
  split
  · exact .refl s
  · split
    · exact s.writeRecord_events _ _ _
    · exact .refl s

theorem State.deliver_events (s : State) (eq : Nat) (e : Event) : s.EventsOnly (s.deliver eq e) := by
  unfold State.deliver
  simp only
  split
  · exact s.reportLost_events eq
  · split
    · exact (s.reportLost_events eq).trans (State.writeRecord_events _ _ _ _)
    · exact (s.reportLost_events eq).trans ⟨rfl, id⟩

/-- Posting an event changes event queues, interrupts and host memory alone (R65 to R67). -/
theorem State.post_events (s : State) (e : Event) : s.EventsOnly (s.post e) :=
  foldl_keeps s.EventsOnly _ _ _ (.refl s) (fun b kv h => h.trans (b.deliver_events kv.1 e))

/-! ### Completions -/

/-- Ending a flight that is not there does nothing. -/
theorem State.finishFull_gone (s : State) (id st info res : Nat) (v : Option Nat) (hw : List (Nat × List Byte)) (ms : List (List Byte)) (h : s.flight? id = none) :
    s.finishFull id st info res v hw ms = s := by simp [State.finishFull, h]

/-- Ending a flight takes it out, queues one completion with its outcome, and changes nothing else but the frame's counters (R58, R62). -/
theorem State.finishFull_ends (s : State) (id st info res : Nat) (v : Option Nat) (hw : List (Nat × List Byte)) (ms : List (List Byte)) (f : Flight) (h : s.flight? id = some f) :
    ∃ (fin : Finished) (a : Stats), s.finishFull id st info res v hw ms = { s with
      proto := { s.proto with flights := s.proto.flights.filter (fun g => g.id ≠ id), finished := s.proto.finished ++ [fin] }, stats := a } ∧
      fin.flight = id ∧ fin.path = f.path ∧ fin.opcode = f.opcode ∧ fin.seq = f.pkt.seq.toNat ∧ fin.status = st ∧ fin.info = info ||| s.tailNote f.opcode f.pkt ∧ fin.result = res % 2 ^ 64 ∧
      fin.hostWrites = hw ∧ fin.messages = ms := by
  unfold State.finishFull
  rw [h]
  simp only
  split
  · exact ⟨_, _, rfl, rfl, rfl, rfl, rfl, rfl, rfl, rfl, rfl, rfl⟩
  · exact ⟨_, s.stats, rfl, rfl, rfl, rfl, rfl, rfl, rfl, rfl, rfl, rfl⟩

/-- Only flights, completions and the frame's counters differ. -/
def State.FlightsOnly (s t : State) : Prop :=
  t = { s with proto := { s.proto with flights := t.proto.flights, finished := t.proto.finished }, stats := t.stats }

theorem State.finishFull_flights (s : State) (id st info res : Nat) (v : Option Nat) (hw : List (Nat × List Byte)) (ms : List (List Byte)) :
    s.FlightsOnly (s.finishFull id st info res v hw ms) := by
  rcases h : s.flight? id with _ | f
  · rw [s.finishFull_gone _ _ _ _ _ _ _ h]; rfl
  · obtain ⟨fin, a, e, -⟩ := s.finishFull_ends id st info res v hw ms f h
    rw [e]; rfl

theorem State.finishOpt_flights (s : State) (o : Option Nat) (st info res : Nat) : s.FlightsOnly (s.finishOpt o st info res) := by
  cases o
  · rfl
  · exact s.finishFull_flights _ _ _ _ _ _ _

/-- Whatever a body answered, recording it changes flights, completions and counters alone. -/
theorem State.settleReply_flights (s : State) (id ver : Nat) (r : Reply) : s.FlightsOnly (s.settleReply id ver r) := by
  cases r <;> first | rfl | exact s.finishFull_flights _ _ _ _ _ _ _

theorem State.settleReply_stores (s : State) (id ver : Nat) (r : Reply) : (s.settleReply id ver r).stores = s.stores := by
  rw [s.settleReply_flights id ver r]

theorem State.finishOpt_stores (s : State) (o : Option Nat) (st info res : Nat) : (s.finishOpt o st info res).stores = s.stores := by
  rw [s.finishOpt_flights o st info res]

theorem State.post_stores_wf (s : State) (e : Event) (h : s.stores.wf = true) : (s.post e).stores.wf = true := (s.post_events e).2 h

/-- A completion written to a ring keeps every memory canonical. -/
theorem State.writeCompletion_wf (s : State) (f : Finished) (h : s.stores.wf = true) : (s.writeCompletion f).stores.wf = true := by
  have hr : ∀ (t : State) fn v, (t.raise fn v).stores = t.stores := by
    intro t fn v; unfold State.raise; split <;> rfl
  unfold State.writeCompletion
  split
  · split
    · exact foldl_keeps (fun t : State => t.stores.wf = true) _ _ _ h (fun _ _ g => g)
    · exact h
  · exact h
  · split
    · exact h
    · simp only
      split
      · rw [hr]; exact State.apply_wf _ _ (State.apply_wf _ _ h)
      · exact State.apply_wf _ _ (State.apply_wf _ _ h)

/-! ### Packets -/

/-- What a property of the state must survive for the taking of a packet to keep it. -/
structure KeptByTaking (P : State → Prop) : Prop where
  flights : ∀ t u : State, t.FlightsOnly u → P t → P u
  func : ∀ (t : State) fn g, P t → P (t.setFunc fn g)
  queue : ∀ (t : State) q g, P t → P (t.active.setQueue q g)
  serve : ∀ (t : State) q c cr, P t → P (t.serve q c cr)
  flight : ∀ (t : State) p code, P t → P (t.newFlight p code).1

theorem State.take_keeps (P : State → Prop) (k : KeptByTaking P) (s : State) (c : CmdQueue) (code : Nat) (p : Sys2Proof.Packet) (h : P s) :
    P (s.take c code p).1 := by
  have hb : P (s.beatAtFetch c.fn p code) := by
    unfold State.beatAtFetch
    split
    · exact k.func _ _ _ h
    · exact h
  unfold State.take
  simp only
  split
  · exact k.func _ _ _ hb
  · exact k.flight _ _ _ hb

theorem State.handed_keeps (P : State → Prop) (k : KeptByTaking P) (s : State) (code : Nat) (p : Sys2Proof.Packet) (r : State × Option Nat)
    (e : s.handed code p = some r) (h : P s) : P r.1 := by
  unfold State.handed at e
  split at e
  · cases e
  · split at e
    · cases e
    · cases e; exact k.flight _ _ _ h
  · split at e
    · cases e
    · split at e
      · cases e
      · split at e
        · cases e
        · split at e
          · cases e
          · cases e; exact State.take_keeps P k _ _ _ _ (k.queue _ _ _ (k.serve _ _ _ _ h))

/-- A body that keeps a property of the state, with its answer recorded, keeps it under the whole of a packet's command. -/
theorem runPacket_keeps (P : State → Prop) (code : Nat) (body : Body) (p : Sys2Proof.Packet) (s : State) (h0 : P s)
    (k : KeptByTaking P) (hb : ∀ id c t, P t → P (body id c p t).1) : P (runPacket code body p s) := by
  have hd : ∀ (t : State) id, P t → P (t.dispatch body id code p) := by
    intro t id ht
    unfold State.dispatch
    split
    · exact k.flights _ _ (State.finishFull_flights ..) ht
    · exact ht
    · exact k.flights _ _ (State.settleReply_flights ..) (hb _ _ _ ht)
  unfold runPacket
  split
  · exact h0
  · split
    · split
      · exact h0
      · exact hd _ _ h0
    · split
      · exact h0
      · rename_i e; exact State.handed_keeps P k s code p _ e h0
      · rename_i e
        have := State.handed_keeps P k s code p _ e h0
        split
        · exact this
        · exact hd _ _ this

end Sys2Proof.Machine
end

