-- ==== Sys2Proof/Laws/PerInstr.lean ====
section
/-! SUPPORT. Per command: a well-formed packet fills whole slots of 64 bytes, its header of 16 bytes included (R59). -/

namespace Sys2Proof.Laws.Framing

/-- A packet's bytes are LEN slots of 64 (R59). -/
def Statement (i : Sys2Proof.Instr) : Prop :=
  i.wf = true → ∀ p, i.packet? = some p → 1 ≤ p.len.toNat ∧ 16 + p.body.length = p.len.toNat * 64

theorem of_wf (p q : Sys2Proof.Packet) (h : p.wf = true) (e : some p = some q) : 1 ≤ q.len.toNat ∧ 16 + q.body.length = q.len.toNat * 64 := by
  cases e
  simp only [Sys2Proof.Packet.wf, Bool.and_eq_true, decide_eq_true_eq] at h
  exact ⟨h.1.2, h.2⟩

theorem hello (p : Sys2Proof.Packet) : Statement (.hello p) := fun h q e => of_wf p q h e

theorem heartbeat (p : Sys2Proof.Packet) : Statement (.heartbeat p) := fun h q e => of_wf p q h e

theorem reclaim (p : Sys2Proof.Packet) : Statement (.reclaim p) := fun h q e => of_wf p q h e

theorem deviceInfo (p : Sys2Proof.Packet) : Statement (.deviceInfo p) := fun h q e => of_wf p q h e

theorem nop (p : Sys2Proof.Packet) : Statement (.nop p) := fun h q e => of_wf p q h e

theorem park (p : Sys2Proof.Packet) : Statement (.park p) := fun h q e => of_wf p q h e

theorem unpark (p : Sys2Proof.Packet) : Statement (.unpark p) := fun h q e => of_wf p q h e

theorem queueCreate (p : Sys2Proof.Packet) : Statement (.queueCreate p) := fun h q e => of_wf p q h e

theorem queueDestroy (p : Sys2Proof.Packet) : Statement (.queueDestroy p) := fun h q e => of_wf p q h e

theorem queueReset (p : Sys2Proof.Packet) : Statement (.queueReset p) := fun h q e => of_wf p q h e

theorem eqCreate (p : Sys2Proof.Packet) : Statement (.eqCreate p) := fun h q e => of_wf p q h e

theorem eqDestroy (p : Sys2Proof.Packet) : Statement (.eqDestroy p) := fun h q e => of_wf p q h e

theorem eventSubscribe (p : Sys2Proof.Packet) : Statement (.eventSubscribe p) := fun h q e => of_wf p q h e

theorem configWrite (p : Sys2Proof.Packet) : Statement (.configWrite p) := fun h q e => of_wf p q h e

theorem configRead (p : Sys2Proof.Packet) : Statement (.configRead p) := fun h q e => of_wf p q h e

theorem configCommit (p : Sys2Proof.Packet) : Statement (.configCommit p) := fun h q e => of_wf p q h e

theorem timeRead (p : Sys2Proof.Packet) : Statement (.timeRead p) := fun h q e => of_wf p q h e

theorem statsStream (p : Sys2Proof.Packet) : Statement (.statsStream p) := fun h q e => of_wf p q h e

theorem matmul (p : Sys2Proof.Packet) : Statement (.matmul p) := fun h q e => of_wf p q h e

theorem vectorOp (p : Sys2Proof.Packet) : Statement (.vectorOp p) := fun h q e => of_wf p q h e

theorem reduce (p : Sys2Proof.Packet) : Statement (.reduce p) := fun h q e => of_wf p q h e

theorem move (p : Sys2Proof.Packet) : Statement (.move p) := fun h q e => of_wf p q h e

theorem tileMove (p : Sys2Proof.Packet) : Statement (.tileMove p) := fun h q e => of_wf p q h e

theorem regionAlloc (p : Sys2Proof.Packet) : Statement (.regionAlloc p) := fun h q e => of_wf p q h e

theorem regionFree (p : Sys2Proof.Packet) : Statement (.regionFree p) := fun h q e => of_wf p q h e

theorem bellowsStart (p : Sys2Proof.Packet) : Statement (.bellowsStart p) := fun h q e => of_wf p q h e

theorem bellowsStop (p : Sys2Proof.Packet) : Statement (.bellowsStop p) := fun h q e => of_wf p q h e

theorem attention (p : Sys2Proof.Packet) : Statement (.attention p) := fun h q e => of_wf p q h e

theorem attentionBackward (p : Sys2Proof.Packet) : Statement (.attentionBackward p) := fun h q e => of_wf p q h e

theorem ptCreate (p : Sys2Proof.Packet) : Statement (.ptCreate p) := fun h q e => of_wf p q h e

theorem ptDestroy (p : Sys2Proof.Packet) : Statement (.ptDestroy p) := fun h q e => of_wf p q h e

theorem kvAppend (p : Sys2Proof.Packet) : Statement (.kvAppend p) := fun h q e => of_wf p q h e

theorem verifyCommit (p : Sys2Proof.Packet) : Statement (.verifyCommit p) := fun h q e => of_wf p q h e

theorem seqPreempt (p : Sys2Proof.Packet) : Statement (.seqPreempt p) := fun h q e => of_wf p q h e

theorem seqResume (p : Sys2Proof.Packet) : Statement (.seqResume p) := fun h q e => of_wf p q h e

theorem swapPoolRegister (p : Sys2Proof.Packet) : Statement (.swapPoolRegister p) := fun h q e => of_wf p q h e

theorem swapOutPage (seq_ : Nat) : Statement (.swapOutPage seq_) := fun _ _ e => nomatch e

theorem swapInPage (seq_ : Nat) : Statement (.swapInPage seq_) := fun _ _ e => nomatch e

theorem streamStart (p : Sys2Proof.Packet) : Statement (.streamStart p) := fun h q e => of_wf p q h e

theorem streamPause (p : Sys2Proof.Packet) : Statement (.streamPause p) := fun h q e => of_wf p q h e

theorem streamResume (p : Sys2Proof.Packet) : Statement (.streamResume p) := fun h q e => of_wf p q h e

theorem streamEnd (p : Sys2Proof.Packet) : Statement (.streamEnd p) := fun h q e => of_wf p q h e

theorem chunk (p : Sys2Proof.Packet) : Statement (.chunk p) := fun h q e => of_wf p q h e

theorem stateExport (p : Sys2Proof.Packet) : Statement (.stateExport p) := fun h q e => of_wf p q h e

theorem stateImport (p : Sys2Proof.Packet) : Statement (.stateImport p) := fun h q e => of_wf p q h e

theorem reAnchor (p : Sys2Proof.Packet) : Statement (.reAnchor p) := fun h q e => of_wf p q h e

theorem stateSwapOut (p : Sys2Proof.Packet) : Statement (.stateSwapOut p) := fun h q e => of_wf p q h e

theorem streamOpTurn (stream_ : Nat) : Statement (.streamOpTurn stream_) := fun _ _ e => nomatch e

theorem conv (p : Sys2Proof.Packet) : Statement (.conv p) := fun h q e => of_wf p q h e

theorem pool (p : Sys2Proof.Packet) : Statement (.pool p) := fun h q e => of_wf p q h e

theorem cropResize (p : Sys2Proof.Packet) : Statement (.cropResize p) := fun h q e => of_wf p q h e

theorem slotConfig (p : Sys2Proof.Packet) : Statement (.slotConfig p) := fun h q e => of_wf p q h e

theorem calibWrite (p : Sys2Proof.Packet) : Statement (.calibWrite p) := fun h q e => of_wf p q h e

theorem gridCreate (p : Sys2Proof.Packet) : Statement (.gridCreate p) := fun h q e => of_wf p q h e

theorem gridDestroy (p : Sys2Proof.Packet) : Statement (.gridDestroy p) := fun h q e => of_wf p q h e

theorem gridProject (p : Sys2Proof.Packet) : Statement (.gridProject p) := fun h q e => of_wf p q h e

theorem streamHealth (p : Sys2Proof.Packet) : Statement (.streamHealth p) := fun h q e => of_wf p q h e

theorem factor (p : Sys2Proof.Packet) : Statement (.factor p) := fun h q e => of_wf p q h e

theorem triSolve (p : Sys2Proof.Packet) : Statement (.triSolve p) := fun h q e => of_wf p q h e

theorem qpSetup (p : Sys2Proof.Packet) : Statement (.qpSetup p) := fun h q e => of_wf p q h e

theorem qpSolve (p : Sys2Proof.Packet) : Statement (.qpSolve p) := fun h q e => of_wf p q h e

theorem latticeLoad (p : Sys2Proof.Packet) : Statement (.latticeLoad p) := fun h q e => of_wf p q h e

theorem mapPublish (p : Sys2Proof.Packet) : Statement (.mapPublish p) := fun h q e => of_wf p q h e

theorem planSearch (p : Sys2Proof.Packet) : Statement (.planSearch p) := fun h q e => of_wf p q h e

theorem planAbort (p : Sys2Proof.Packet) : Statement (.planAbort p) := fun h q e => of_wf p q h e

theorem ctxCreate (p : Sys2Proof.Packet) : Statement (.ctxCreate p) := fun h q e => of_wf p q h e

theorem ctxDestroy (p : Sys2Proof.Packet) : Statement (.ctxDestroy p) := fun h q e => of_wf p q h e

theorem partitionCreate (p : Sys2Proof.Packet) : Statement (.partitionCreate p) := fun h q e => of_wf p q h e

theorem partitionRelease (p : Sys2Proof.Packet) : Statement (.partitionRelease p) := fun h q e => of_wf p q h e

theorem jobArm (p : Sys2Proof.Packet) : Statement (.jobArm p) := fun h q e => of_wf p q h e

theorem jobDisarm (p : Sys2Proof.Packet) : Statement (.jobDisarm p) := fun h q e => of_wf p q h e

theorem modelRegister (p : Sys2Proof.Packet) : Statement (.modelRegister p) := fun h q e => of_wf p q h e

theorem modelPin (p : Sys2Proof.Packet) : Statement (.modelPin p) := fun h q e => of_wf p q h e

theorem modelUnpin (p : Sys2Proof.Packet) : Statement (.modelUnpin p) := fun h q e => of_wf p q h e

theorem accountRead (p : Sys2Proof.Packet) : Statement (.accountRead p) := fun h q e => of_wf p q h e

theorem fwStage (p : Sys2Proof.Packet) : Statement (.fwStage p) := fun h q e => of_wf p q h e

theorem activateFw (p : Sys2Proof.Packet) : Statement (.activateFw p) := fun h q e => of_wf p q h e

theorem fwStatus (p : Sys2Proof.Packet) : Statement (.fwStatus p) := fun h q e => of_wf p q h e

theorem keyRotate (p : Sys2Proof.Packet) : Statement (.keyRotate p) := fun h q e => of_wf p q h e

theorem retireKey (p : Sys2Proof.Packet) : Statement (.retireKey p) := fun h q e => of_wf p q h e

theorem keyStatus (p : Sys2Proof.Packet) : Statement (.keyStatus p) := fun h q e => of_wf p q h e

theorem powerRead (p : Sys2Proof.Packet) : Statement (.powerRead p) := fun h q e => of_wf p q h e

theorem faultLogExport (p : Sys2Proof.Packet) : Statement (.faultLogExport p) := fun h q e => of_wf p q h e

theorem errorCounts (p : Sys2Proof.Packet) : Statement (.errorCounts p) := fun h q e => of_wf p q h e

theorem sqTail (fn_ : Nat) (q_ : Nat) (value_ : Sys2Proof.Word) : Statement (.sqTail fn_ q_ value_) := fun _ _ e => nomatch e

theorem cqHead (fn_ : Nat) (q_ : Nat) (value_ : Sys2Proof.Word) : Statement (.cqHead fn_ q_ value_) := fun _ _ e => nomatch e

theorem eqHead (fn_ : Nat) (e_ : Nat) (value_ : Sys2Proof.Word) : Statement (.eqHead fn_ e_ value_) := fun _ _ e => nomatch e

theorem packetFetch : Statement (.packetFetch) := fun _ _ e => nomatch e

theorem completionWrite : Statement (.completionWrite) := fun _ _ e => nomatch e

theorem orphanEntered (fn_ : Nat) : Statement (.orphanEntered fn_) := fun _ _ e => nomatch e

theorem frameEdge : Statement (.frameEdge) := fun _ _ e => nomatch e

theorem quenchEnd (part_ : Nat) : Statement (.quenchEnd part_) := fun _ _ e => nomatch e

theorem statsPublish : Statement (.statsPublish) := fun _ _ e => nomatch e

theorem statsPageSend (session_ : Nat) : Statement (.statsPageSend session_) := fun _ _ e => nomatch e

theorem snapshotPublish : Statement (.snapshotPublish) := fun _ _ e => nomatch e

theorem trigLatestExpire (job_ : Nat) : Statement (.trigLatestExpire job_) := fun _ _ e => nomatch e

theorem firingComplete (job_ : Nat) : Statement (.firingComplete job_) := fun _ _ e => nomatch e

theorem ctlMiss (job_ : Nat) : Statement (.ctlMiss job_) := fun _ _ e => nomatch e

theorem sync (port_ : Nat) (offset_ : Int) (interval_ : Nat) : Statement (.sync port_ offset_ interval_) := fun _ _ e => nomatch e

theorem announce (port_ : Nat) : Statement (.announce port_) := fun _ _ e => nomatch e

theorem pdelayReq (port_ : Nat) (reqId_ : Nat) : Statement (.pdelayReq port_ reqId_) := fun _ _ e => nomatch e

theorem pdelayResp (port_ : Nat) (t1_ : Int) (t2_ : Int) (t3_ : Int) (t4_ : Int) : Statement (.pdelayResp port_ t1_ t2_ t3_ t4_) := fun _ _ e => nomatch e

theorem gmSyncTransmit : Statement (.gmSyncTransmit) := fun _ _ e => nomatch e

theorem timeHoldover : Statement (.timeHoldover) := fun _ _ e => nomatch e

theorem timeFree : Statement (.timeFree) := fun _ _ e => nomatch e

theorem csi2FrameStart (die_ : Nat) (port_ : Nat) (vc_ : Nat) (frame_ : FramePacket) : Statement (.csi2FrameStart die_ port_ vc_ frame_) := fun _ _ e => nomatch e

theorem csi2LongPacket (die_ : Nat) (port_ : Nat) (vc_ : Nat) (dt_ : Nat) (link_ : Sys2Proof.LinkCheck) (payload_ : List Sys2Proof.Byte) : Statement (.csi2LongPacket die_ port_ vc_ dt_ link_ payload_) := fun _ _ e => nomatch e

theorem csi2FrameEnd (die_ : Nat) (port_ : Nat) (vc_ : Nat) (frame_ : FramePacket) : Statement (.csi2FrameEnd die_ port_ vc_ frame_) := fun _ _ e => nomatch e

theorem tdmFrameSync (die_ : Nat) (port_ : Nat) (bclks_ : Nat) (words_ : List Nat) : Statement (.tdmFrameSync die_ port_ bclks_ words_) := fun _ _ e => nomatch e

theorem spiPeriodicStart (slot_ : Nat) : Statement (.spiPeriodicStart slot_) := fun _ _ e => nomatch e

theorem spiTransactionEnd (slot_ : Nat) (payload_ : List Sys2Proof.Byte) : Statement (.spiTransactionEnd slot_ payload_) := fun _ _ e => nomatch e

theorem gpioEdge (die_ : Nat) (line_ : Nat) (rising_ : Bool) : Statement (.gpioEdge die_ line_ rising_) := fun _ _ e => nomatch e

theorem ethFrame (port_ : Nat) (mac_ : Nat) (vlan_ : Nat) (fcsOk_ : Bool) (payload_ : List Sys2Proof.Byte) : Statement (.ethFrame port_ mac_ vlan_ fcsOk_ payload_) := fun _ _ e => nomatch e

theorem sampleReady (slot_ : Nat) : Statement (.sampleReady slot_) := fun _ _ e => nomatch e

theorem ingressT2Write (slot_ : Nat) : Statement (.ingressT2Write slot_) := fun _ _ e => nomatch e

theorem maintenanceSlot (stack_ : Nat) (margin_ : Int) (scrub_ : Sys2Proof.ScrubResult) : Statement (.maintenanceSlot stack_ margin_ scrub_) := fun _ _ e => nomatch e

theorem bellowsTileFetch (stream_ : Nat) (pos_ : Nat) (link_ : Sys2Proof.MemOutcome) : Statement (.bellowsTileFetch stream_ pos_ link_) := fun _ _ e => nomatch e

theorem operationIssue (core_ : Nat) (engine_ : Sys2Proof.Engine) : Statement (.operationIssue core_ engine_) := fun _ _ e => nomatch e

theorem operationRetire (core_ : Nat) (engine_ : Sys2Proof.Engine) (mem_ : Sys2Proof.MemOutcome) : Statement (.operationRetire core_ engine_ mem_) := fun _ _ e => nomatch e

theorem tongsDescriptorStart (core_ : Nat) : Statement (.tongsDescriptorStart core_) := fun _ _ e => nomatch e

theorem tongsDescriptorRetire (core_ : Nat) (mem_ : Sys2Proof.MemOutcome) : Statement (.tongsDescriptorRetire core_ mem_) := fun _ _ e => nomatch e

theorem watchdogExpire (proc_ : Sys2Proof.Proc) : Statement (.watchdogExpire proc_) := fun _ _ e => nomatch e

theorem hearthResume : Statement (.hearthResume) := fun _ _ e => nomatch e

theorem fwSwitch : Statement (.fwSwitch) := fun _ _ e => nomatch e

theorem fwMeasure (allMatch_ : Bool) : Statement (.fwMeasure allMatch_) := fun _ _ e => nomatch e

theorem activationTimeout : Statement (.activationTimeout) := fun _ _ e => nomatch e

theorem pwrGoodRise (testEn_ : Bool) : Statement (.pwrGoodRise testEn_) := fun _ _ e => nomatch e

theorem bootStageAdvance (report_ : Sys2Proof.BootReport) : Statement (.bootStageAdvance report_) := fun _ _ e => nomatch e

theorem testUnlockSession (hs_ : Sys2Proof.Handshake) : Statement (.testUnlockSession hs_) := fun _ _ e => nomatch e

theorem testUnlockTimeout : Statement (.testUnlockTimeout) := fun _ _ e => nomatch e

theorem jtagInstruction (ir_ : Sys2Proof.JtagInstr) : Statement (.jtagInstruction ir_) := fun _ _ e => nomatch e

theorem mgmtSessionOpen (hs_ : Sys2Proof.Handshake) : Statement (.mgmtSessionOpen hs_) := fun _ _ e => nomatch e

theorem mgmtSessionClose (session_ : Nat) : Statement (.mgmtSessionClose session_) := fun _ _ e => nomatch e

theorem mgmtMessage (session_ : Nat) (type_ : Nat) (bytes_ : List Sys2Proof.Byte) : Statement (.mgmtMessage session_ type_ bytes_) := fun _ _ e => nomatch e

theorem hostHeartbeat (fn_ : Nat) (value_ : Sys2Proof.Word) : Statement (.hostHeartbeat fn_ value_) := fun _ _ e => nomatch e

theorem safetyHeartbeat (value_ : Sys2Proof.Word) : Statement (.safetyHeartbeat value_) := fun _ _ e => nomatch e

theorem safetyHeartbeatLapse : Statement (.safetyHeartbeatLapse) := fun _ _ e => nomatch e

theorem stopRequest (value_ : Sys2Proof.Word) : Statement (.stopRequest value_) := fun _ _ e => nomatch e

theorem stopClearRequest (value_ : Sys2Proof.Word) : Statement (.stopClearRequest value_) := fun _ _ e => nomatch e

theorem stopInAssert : Statement (.stopInAssert) := fun _ _ e => nomatch e

theorem ctlCommit (door_ : Sys2Proof.Door) (value_ : Sys2Proof.Word) : Statement (.ctlCommit door_ value_) := fun _ _ e => nomatch e

theorem adminQueueEnable (fn_ : Nat) : Statement (.adminQueueEnable fn_) := fun _ _ e => nomatch e

theorem adminQueueDisable (fn_ : Nat) : Statement (.adminQueueDisable fn_) := fun _ _ e => nomatch e

theorem registerWrite (door_ : Sys2Proof.Door) (offset_ : Nat) (value_ : Sys2Proof.Word) : Statement (.registerWrite door_ offset_ value_) := fun _ _ e => nomatch e

theorem safetySpiRead (wire_ : List Sys2Proof.Byte) (paused_ : Bool) : Statement (.safetySpiRead wire_ paused_) := fun _ _ e => nomatch e

theorem safetySpiWrite (wire_ : List Sys2Proof.Byte) (paused_ : Bool) : Statement (.safetySpiWrite wire_ paused_) := fun _ _ e => nomatch e

theorem perstAssert (link_ : Nat) : Statement (.perstAssert link_) := fun _ _ e => nomatch e

theorem hostLinkDown (link_ : Nat) : Statement (.hostLinkDown link_) := fun _ _ e => nomatch e

theorem busMasterEnable (fn_ : Nat) : Statement (.busMasterEnable fn_) := fun _ _ e => nomatch e

theorem moduleReset : Statement (.moduleReset) := fun _ _ e => nomatch e

theorem vinCauseRaise (millivolts_ : Nat) : Statement (.vinCauseRaise millivolts_) := fun _ _ e => nomatch e

theorem vinCauseClear (millivolts_ : Nat) : Statement (.vinCauseClear millivolts_) := fun _ _ e => nomatch e

theorem e3Undervoltage : Statement (.e3Undervoltage) := fun _ _ e => nomatch e

theorem overvoltageTrip : Statement (.overvoltageTrip) := fun _ _ e => nomatch e

theorem undervoltageLockout : Statement (.undervoltageLockout) := fun _ _ e => nomatch e

theorem carrierStart (belowFor_ : Nat) : Statement (.carrierStart belowFor_) := fun _ _ e => nomatch e

theorem emergencyHoldExpire : Statement (.emergencyHoldExpire) := fun _ _ e => nomatch e

theorem trip (cause_ : Sys2Proof.TripCause) : Statement (.trip cause_) := fun _ _ e => nomatch e

theorem capControlTick (milliwatts_ : Nat) (rails_ : List Nat) : Statement (.capControlTick milliwatts_ rails_) := fun _ _ e => nomatch e

theorem excursionEnd : Statement (.excursionEnd) := fun _ _ e => nomatch e

theorem overpowerGate (milliwatts_ : Nat) : Statement (.overpowerGate milliwatts_) := fun _ _ e => nomatch e

theorem thermalSample (temps_ : List Int) : Statement (.thermalSample temps_) := fun _ _ e => nomatch e

theorem throttleStep (cluster_ : Nat) : Statement (.throttleStep cluster_) := fun _ _ e => nomatch e

theorem powerStateChoose (cluster_ : Nat) (tNext_ : Option Nat) : Statement (.powerStateChoose cluster_ tNext_) := fun _ _ e => nomatch e

theorem powerStateWake (cluster_ : Nat) : Statement (.powerStateWake cluster_) := fun _ _ e => nomatch e

theorem standbyEnter : Statement (.standbyEnter) := fun _ _ e => nomatch e

theorem standbyWake : Statement (.standbyWake) := fun _ _ e => nomatch e

theorem coreFence (core_ : Nat) (cause_ : Nat) : Statement (.coreFence core_ cause_) := fun _ _ e => nomatch e

theorem selfTestDone (core_ : Nat) (pass_ : Bool) : Statement (.selfTestDone core_ pass_) := fun _ _ e => nomatch e

theorem spareCopyDone (cluster_ : Nat) (badLines_ : Nat) : Statement (.spareCopyDone cluster_ badLines_) := fun _ _ e => nomatch e

theorem internalLinkFail : Statement (.internalLinkFail) := fun _ _ e => nomatch e

theorem faultLogWrite : Statement (.faultLogWrite) := fun _ _ e => nomatch e

theorem stopInDeassert : Statement (.stopInDeassert) := fun _ _ e => nomatch e

theorem resetInRelease : Statement (.resetInRelease) := fun _ _ e => nomatch e

theorem railOutOfRegulation : Statement (.railOutOfRegulation) := fun _ _ e => nomatch e

theorem overpowerRelease (milliwatts_ : Nat) : Statement (.overpowerRelease milliwatts_) := fun _ _ e => nomatch e

theorem processorRestartDone (proc_ : Sys2Proof.Proc) : Statement (.processorRestartDone proc_) := fun _ _ e => nomatch e

theorem hostLinkUp (link_ : Nat) : Statement (.hostLinkUp link_) := fun _ _ e => nomatch e

theorem quenchTier2PartEnd : Statement (.quenchTier2PartEnd) := fun _ _ e => nomatch e

theorem modelLoadDone (model_ : Nat) : Statement (.modelLoadDone model_) := fun _ _ e => nomatch e

end Sys2Proof.Laws.Framing
end

