-- ==== Sys2Proof/Laws/Placement.lean ====
section
/-! SUPPORT. What placing an operation can do, said once: the stores that a new operation observes, who carries the writes, and what
placement leaves alone. -/

namespace Sys2Proof.Machine

/-! ### The stores as a new operation observes them (R143) -/

@[simp] theorem State.ahead_clock (s : State) : s.ahead.clock = s.clock := rfl
@[simp] theorem State.ahead_scopes (s : State) : s.ahead.scopes = s.scopes := rfl
@[simp] theorem State.ahead_proto (s : State) : s.ahead.proto = s.proto := rfl
@[simp] theorem State.ahead_sched (s : State) : s.ahead.sched = s.sched := rfl
@[simp] theorem State.ahead_fw (s : State) : s.ahead.fw = s.fw := rfl
@[simp] theorem State.ahead_win (s : State) : s.ahead.win = s.win := rfl
@[simp] theorem State.ahead_power (s : State) : s.ahead.power = s.power := rfl
@[simp] theorem State.ahead_rel (s : State) : s.ahead.rel = s.rel := rfl
@[simp] theorem State.ahead_tiers (s : State) : s.ahead.tiers = s.tiers := rfl
@[simp] theorem State.ahead_cores (s : State) : s.ahead.cores = s.cores := rfl
@[simp] theorem State.ahead_kv (s : State) : s.ahead.kv = s.kv := rfl
@[simp] theorem State.ahead_ingest (s : State) : s.ahead.ingest = s.ingest := rfl
@[simp] theorem State.ahead_apps (s : State) : s.ahead.apps = s.apps := rfl
@[simp] theorem State.ahead_fresh (s : State) : s.ahead.fresh = s.fresh := rfl

/-- Only the stores differ. -/
theorem State.ahead_eq (s : State) : s.ahead = { s with stores := s.ahead.stores } := rfl

/-- With no write awaited a new operation observes the stores as they stand. -/
theorem State.ahead_idle (s : State) (h : s.awaited = []) : s.ahead = s := by
  unfold State.ahead
  rw [h]
  rfl

theorem State.ahead_wf (s : State) (h : s.stores.wf = true) : s.ahead.stores.wf = true := s.apply_wf _ h

theorem mem_insertTag (x y : Nat × Wr) : ∀ l, y ∈ insertTag x l → y = x ∨ y ∈ l
  | [], h => by simpa [insertTag] using h
  | z :: r, h => by
    unfold insertTag at h
    split at h
    · simpa using h
    · rcases List.mem_cons.mp h with h | h
      · exact .inr (by simp [h])
      · exact (mem_insertTag x y r h).imp_right (List.mem_cons_of_mem z)

/-- Writes that go to core stores leave every other memory alone. -/
theorem Stores.coreWrites_keep (ws : List Wr) (h : ∀ w ∈ ws, w.store = .core) (m : Stores) :
    let n := ws.foldl (fun m w => (m.write w).heal w) m
    n.region = m.region ∧ n.tier2 = m.tier2 ∧ n.xd = m.xd ∧ n.host = m.host ∧ n.ufs = m.ufs := by
  induction ws generalizing m with
  | nil => exact ⟨rfl, rfl, rfl, rfl, rfl⟩
  | cons w r ih =>
    have k := ih (fun x hx => h x (List.mem_cons_of_mem w hx)) ((m.write w).heal w)
    have hw := h w (List.mem_cons_self ..)
    simpa [Stores.write, Stores.heal, hw] using k

/-- What is awaited is core-store writes, so nothing else differs. -/
theorem State.ahead_others (s : State) : s.ahead.stores.region = s.stores.region ∧ s.ahead.stores.tier2 = s.stores.tier2 ∧
    s.ahead.stores.xd = s.stores.xd ∧ s.ahead.stores.host = s.stores.host ∧ s.ahead.stores.ufs = s.stores.ufs := by
  refine Stores.coreWrites_keep _ (fun w hw => ?_) s.stores
  obtain ⟨x, hx, rfl⟩ := List.mem_map.mp hw
  have all : ∀ (l k : List (Nat × Wr)), (∀ y ∈ k, y.2.store = .core) → (∀ y ∈ l, y.2.store = .core) →
      ∀ y ∈ l.foldl (fun a z => insertTag z a) k, y.2.store = .core := by
    intro l
    induction l with
    | nil => exact fun k hk _ => hk
    | cons z r ih =>
      refine fun k hk hl => ih _ (fun y hy => ?_) (fun y hy => hl y (List.mem_cons_of_mem z hy))
      rcases mem_insertTag z y k hy with rfl | hy
      · exact hl _ (List.mem_cons_self ..)
      · exact hk y hy
  exact all _ [] (by simp) (fun y hy => by simpa [State.awaited] using (List.mem_filter.mp hy).2) x hx

/-! ### Who carries the writes (R140, R142) -/

@[simp] theorem Work.dealt_status (w : Work) : w.dealt.status = w.status := rfl
@[simp] theorem Work.dealt_info (w : Work) : w.dealt.info = w.info := rfl
@[simp] theorem Work.dealt_result (w : Work) : w.dealt.result = w.result := rfl
@[simp] theorem Work.dealt_exc (w : Work) : w.dealt.exc = w.exc := rfl
@[simp] theorem Work.dealt_host (w : Work) : w.dealt.host = w.host := rfl
@[simp] theorem Work.dealt_holds (w : Work) : w.dealt.holds = w.holds := rfl
@[simp] theorem Work.dealt_traffic (w : Work) : w.dealt.traffic = w.traffic := rfl
@[simp] theorem Work.dealt_ends (w : Work) : w.dealt.ends = w.ends := rfl
@[simp] theorem Work.dealt_chan (w : Work) : w.dealt.chan = w.chan := rfl
@[simp] theorem Work.dealt_met (w : Work) : w.dealt.met = w.met := rfl

/-- What stands at once is only what no engine's slot and no descriptor carries; the slot of a MOVE that the Tongs make carries nothing. -/
theorem Work.dealt_core (w : Work) : ∀ z ∈ w.dealt.core, z ∈ w.core ∧ ∀ x ∈ w.slots, x.2.engine.isSome → z.onCore x.1 = false := by
  intro z hz
  obtain ⟨hm, hn⟩ := List.mem_filter.mp hz
  refine ⟨hm, fun x hx he => ?_⟩
  have h : x.1 ∈ ((w.slots.filter (fun x => x.2.engine.isSome)).map (·.1)).eraseDups :=
    List.mem_eraseDups.mpr (List.mem_map_of_mem (List.mem_filter.mpr ⟨hx, he⟩))
  simp only [List.any_append, Bool.not_eq_true', Bool.or_eq_false_iff, List.any_eq_false] at hn
  simpa using hn.1 x.1 h

end Sys2Proof.Machine
end

