-- ==== Sys2Proof/Machine/Domains.lean ====
section
/-! DEFINITION. The clock domains of an order code, and those held clock-gated (R17). -/

namespace Sys2Proof.Machine

/-- A clock domain, by the block it clocks: cores as cluster * 256 + core, clusters, stacks and dies by their numbers. -/
inductive ClockDomain where
  | core (n : Nat)
  /-- Cluster store, Bellows and cluster fabric. -/
  | cluster (k : Nat)
  | ccc (k : Nat)
  | sequencer (k : Nat)
  | searchUnit (k : Nat)
  | swage (k : Nat)
  | stackPort (n : Nat)
  | dieFabric (cd : Nat)
  | dieLink (cd : Nat)
  /-- Link endpoint of a compute die toward an I/O die. -/
  | towardIo (cd xd : Nat)
  | receiver (slot : Nat)
  | pcieController (xd : Nat)
  | pciePhy (xd : Nat)
  | ioFabric (xd : Nat)
  | ioStore (xd : Nat)
  /-- Link endpoint of an I/O die toward a compute die. -/
  | towardCompute (xd cd : Nat)
  | pageEngine (xd : Nat)
  | powerMonitors (xd : Nat)
  | robotPort (port : Nat)
  | managementPort
  | ufs
  | bootFlash
  | safetyPort
  | sec
  | temper
  | hearth
  | robotTime
  | powerStage
  | testPort
  | fuseStore
  | referenceClock
deriving DecidableEq, Repr

/-- The 96 domains of a compute die. -/
def computeDomains (cd : Nat) : List ClockDomain :=
  let ks := (List.range 4).map (4 * cd + ·)
  (ks.map (fun k => (List.range 17).map (fun n => ClockDomain.core (k * 256 + n)))).flatten ++
  (ks.map (fun k => [ClockDomain.cluster k, .ccc k, .sequencer k, .searchUnit k, .swage k])).flatten ++
  (List.range 4).map (fun n => ClockDomain.stackPort (4 * cd + n)) ++ [.dieFabric cd, .dieLink cd, .towardIo cd 0, .towardIo cd 1]

/-- The 56 domains of an I/O die. -/
def ioDomains (xd : Nat) : List ClockDomain :=
  (List.range 48).map (fun n => ClockDomain.receiver (48 * xd + n)) ++
  [.pcieController xd, .pciePhy xd, .ioFabric xd, .ioStore xd, .towardCompute xd 0, .towardCompute xd 1, .pageEngine xd, .powerMonitors xd]

/-- The 14 domains that XD0 alone has. -/
def xd0Domains : List ClockDomain :=
  [.robotPort 0, .robotPort 1, .managementPort, .ufs, .bootFlash, .safetyPort, .sec, .temper, .hearth, .robotTime, .powerStage, .testPort,
   .fuseStore, .referenceClock]

/-- Every clock domain of an order code. -/
def clockDomains (o : Sys2Proof.OrderCode) : List ClockDomain :=
  computeDomains 0 ++ computeDomains 1 ++ ((List.range (ioDies o)).map ioDomains).flatten ++ xd0Domains

/-- The domain exists, but its block is absent or unpopulated. -/
def ClockDomain.absent (o : Sys2Proof.OrderCode) : ClockDomain → Bool
  | .stackPort n => !(stacksOf o).contains n
  | .towardIo _ xd => decide (ioDies o ≤ xd)
  | _ => false

/-- Power state of a cluster. -/
def State.psOf (s : State) (k : Nat) : Nat := match s.power.clusters.get? k with
  | some c => c.ps
  | none => 0

/-- E3 has stopped the domains of a cluster: it serves no control-class partition (R438). -/
def State.clusterStopped (s : State) (k : Nat) : Bool := decide (3 ≤ s.power.applied) && !s.controlCluster k

/-- The domain is clock-gated: its block is absent, its core is stopped, its cluster sleeps or is stopped at E3, where every Swage
stops, or the module stands by (R17, R427 to R431, R438). In PS2 the cluster store, CCC and frame sequencer stay on (R428). -/
def State.domainGated (s : State) (d : ClockDomain) : Bool :=
  d.absent s.order || (match d with
    | .core n => s.coreStopped n (s.partOfCore n) || s.clusterStopped (n / 256)
    | .cluster k | .ccc k | .sequencer k => decide (s.psOf k = 1 ∨ s.psOf k = 3) || s.clusterStopped k
    | .searchUnit k => decide (s.psOf k ≠ 0) || s.clusterStopped k
    | .swage k => decide (s.psOf k ≠ 0 ∨ 3 ≤ s.power.applied)
    | .stackPort _ | .dieFabric _ | .dieLink _ | .towardIo _ _ => s.power.standby
    | _ => false)

end Sys2Proof.Machine
end

