-- ==== Sys2Proof/Tests/Slice0.lean ====
section
/-! SUPPORT. Witnesses that the hypotheses of every statement can be met, ill-formed commands that WellFormed refuses, and a few
small tests whose results come from the spec. -/

namespace Sys2Proof.Tests

open Sys2Proof.Machine

set_option Elab.async false

/-- A packet body of 48 bytes with fields given as offset, size and value. -/
def body (fs : List (Nat × Nat × Nat)) : List Byte :=
  fs.foldl (fun l f => l.take (f.1 - 16) ++ toLe f.2.1 f.2.2 ++ l.drop (f.1 - 16 + f.2.1)) (List.replicate 48 0)

def pk (q ctx : Nat) (fs : List (Nat × Nat × Nat)) : Packet := ⟨.queue q, 0x23, 0, 1, BitVec.ofNat 16 ctx, 1, 0, body fs⟩

def own (fs : List (Nat × Nat × Nat)) : Packet := ⟨.owner 0, 0x23, 0, 1, 0xFFFF, 1, 0, body fs⟩

def adm : CmdQueue := ⟨0, 0x1000, 0x2000, 16, 0, none, 1, 256, 0, 0, 0, 0, false, none⟩

def usr : CmdQueue := ⟨0, 0x4000, 0x5000, 16, 0, some 1, 1, 8, 0, 0, 0, 0, false, none⟩

/-- A part in operation: function 0 has a session, an admin queue and queue 32 of context 1, which has the ACTIVE partition 0 of core 0. -/
def up : State :=
  { State.reset with
    clock := { Clock.reset with running := true, now := 5200000, nextFrame := 6, frameStart := 5000000, nextEdge := 6000000 }
    fw := { Firmware.reset deliveredBank ⟨0, 0, 0, false, []⟩ false with powered := true, bootStage := 5 }
    power := { Power.reset .d8 with pwrGood := true }
    proto := { Proto.reset .d8 with
      funcs := (Tab.set (funcsAt .d8) 0 { Func.reset with busMaster := true, enable := true, session := some ⟨7, 3, 0, 5000000⟩ })
      queues := [(0, adm), (32, usr)], eqs := [(0, ⟨0, none, 0x6000, 16, 0, none, 3, 0xFF, 0, 0, 0, 0, 0, []⟩)] }
    sec := { State.reset.sec with sessions := [(0, ⟨[], 0, none, 0⟩)] }
    order := .d8 }

def fl (p : Packet) (code : Nat) : Flight :=
  { id := 1, path := p.path, fn := 0, opcode := code, pkt := p, tagged := true, control := false, running := false, parked := false, pages := false, asked := 0, held := false, placed := false, late := false,
    fetchTime := 5100000, dispatchTime := 0, deadline := none, status := 0, info := 0, result := 0, writes := [], hostWrites := [] }

/-- With the packet fetched. -/
def ask (s : State) (p : Packet) (code : Nat) : State := { s with proto := { s.proto with flights := [fl p code], nextFlight := 2 } }

def opr : Caller := ⟨.operator, 0, none⟩

/-! ### Witnesses: for each statement, states and operands that meet the hypotheses of its clauses -/

/-- Packet `p` of opcode `code` is taken from caller `c`, and its checks pass. -/
def goes (s : State) (p : Packet) (code : Nat) (c : Caller) (checks : Caller → Packet → State → Option Nat) : Bool :=
  (ask s p code).takes p code (fl p code) c && (checks c p (ask s p code)).isNone

def noChecks (_ : Caller) (_ : Packet) (_ : State) : Option Nat := none

theorem witness_StepRunsFront : ({ up with pending := [.frameEdge] } : State).pending = .frameEdge :: [] := rfl

/-- An event queue of management session 0 with a record in its buffer. -/
def bufferUp : State := { up with proto := { up.proto with eqs := [(1, ⟨0, some 0, 0, 16, 0xFFFF, none, 3, 0xFF, 0, 0, 0, 0, 0, [[1]]⟩)] } }

theorem witness_IdleStepTicks : up.pending = [] ∧ State.reset.pending = [] ∧ State.reset.clock.running = false ∧
    (up.clock.running = true ∧ up.fw.powered = true ∧ (-100000000 : Int) ≤ up.clock.rate ∧ bits up.timeCfg 7 0 ≤ 200) ∧
    (∃ q, bufferUp.proto.eqs = [(1, q)] ∧ q.owner = some 0 ∧ q.dropped = 0) ∧ bufferUp.procDown 0 = false ∧ (∀ kv ∈ up.proto.eqs, kv.2.owner = none) ∧
    up.tick.clock.now = up.clock.now + 8 :=
  ⟨rfl, rfl, rfl, by decide, ⟨_, rfl, rfl, rfl⟩, by decide, by decide, by decide +kernel⟩

theorem witness_OnlyTwoCommandsStop :
    exec (.vinCauseRaise 90001) { up with power := { up.power with overSince := some 0 } } = .fault .beyondRatings ∧
    exec (.jtagInstruction (.priv 9)) { up with fw := { up.fw with testModes := true } } = .refused .privateTestMode := ⟨rfl, rfl⟩

/-- A NOP with a reserved flag set. -/
def nopBad : Packet := { pk 0 0xFFFF [] with flags := 4 }

/-- A NOP with FENCE behind another packet of its queue. -/
def nopFence : Packet := { pk 0 0xFFFF [] with flags := 1 }

def fencedUp : State := { up with proto := { up.proto with flights := [{ fl (pk 0 0xFFFF []) 6 with id := 0, running := true }, fl nopFence 5], nextFlight := 2 } }

theorem witness_PacketsWaitAndComplete :
    ((ask up nopBad 5).serves nopBad.path 5 = true ∧ (ask up nopBad 5).fetched nopBad 5 = some (fl nopBad 5) ∧
      (ask up nopBad 5).fenced nopBad 1 = false ∧ (ask up nopBad 5).turnAway nopBad 5 = some St.badParam) ∧
    (ask { up with power := { up.power with standby := true } } nopFence 5).serves nopFence.path 5 = false ∧
    (fencedUp.fetched nopFence 5 = some (fl nopFence 5) ∧ Packet.fence nopFence = true ∧
      ∃ g ∈ fencedUp.proto.flights, g.path = nopFence.path ∧ g.id < 1) ∧ ({ fl (pk 0 0xFFFF []) 6 with id := 0 } : Flight).undispatched = true ∧
    (ask up nopBad 5).flight? (fl nopBad 5).id = some (fl nopBad 5) ∧ up.nothingWaits = true := by decide

/-- A packet of two slots. -/
def twoSlots : Packet := { pk 32 1 [(16, 8, 0x1122334455667788)] with len := 2, body := (pk 32 1 [(16, 8, 0x1122334455667788)]).body ++ List.replicate 64 0xAB }

/-- It lies in the last slot of queue 32's ring and in the first. -/
def ringUp : State := { up with
  proto := { up.proto with queues := [(0, adm), (32, { usr with head := 15, tail := 17 })] }
  stores := { Stores.reset with host := Mem.writeBytes (Mem.writeBytes [] (hostKey 0 (0x4000 + 960)) ((packetBytes 0x200 twoSlots).take 64)) (hostKey 0 0x4000) ((packetBytes 0x200 twoSlots).drop 64) } }

theorem witness_PacketsRoundTrip :
    (twoSlots.wf = true ∧ twoSlots.path = .queue 32 ∧ twoSlots.len.toNat ≤ usr.slots ∧
      ∀ i, i < 64 * twoSlots.len.toNat → ringUp.stores.host.read (hostKey 0 (usr.base + (64 * (15 % 16) + i) % (64 * 16))) = (packetBytes 0x200 twoSlots).getD i 0) ∧
    (own []).path = .owner 0 := by decide +kernel

/-- Function 0 without a session. -/
def newUp : State := { up with proto := { up.proto with funcs := Tab.set (funcsAt .d8) 0 { Func.reset with busMaster := true, enable := true } } }

theorem witness_SessionCommandsComplete :
    (goes newUp (pk 0 0xFFFF [(16, 1, 0x20), (17, 1, 0x2F), (18, 2, 10)]) 1 opr helloChecks = true ∧ chooseVersion 0x20 0x2F = some 0x23 ∧
      newUp.func? 0 = some { Func.reset with busMaster := true, enable := true }) ∧
    (∀ code ∈ [2, 4, 5, 6, 7], goes up (pk 0 0xFFFF []) code opr noChecks = true) ∧ shortOk (pk 0 0xFFFF []) 16 = true ∧ up.fw.activation = none := by decide +kernel

/-- Queue 33 of function 0, with nothing in flight. -/
def moreUp : State := { up with proto := { up.proto with queues := [(0, adm), (32, usr), (33, { usr with halted := true })] } }

theorem witness_QueueCommandsComplete :
    goes up (pk 0 0xFFFF [(16, 8, 0x8000), (24, 8, 0x9000), (32, 4, 16), (36, 2, 32 + 1), (38, 2, 0xFFFF), (40, 2, 0xFFFF), (42, 1, 1), (44, 2, 1)]) 8 opr queueCreateChecks = true ∧
    goes up (pk 0 0xFFFF [(16, 8, 0x8000), (24, 8, 0x9000), (32, 4, 65536), (36, 2, 4095), (38, 2, 127), (40, 2, 0xFFFF), (42, 1, 3), (44, 2, 256)]) 8 opr queueCreateChecks = true ∧
    goes moreUp (pk 0 0xFFFF [(16, 2, 33), (20, 4, 0)]) 0xA opr queueResetChecks = true ∧
    goes up (pk 0 0xFFFF [(16, 8, 0x8000), (24, 4, 16), (28, 2, 63), (30, 2, 0xFFFF), (32, 2, 0xFFFF)]) 0xB opr eqCreateChecks = true ∧
    (goes up (pk 0 0xFFFF [(16, 2, 0)]) 0xC opr eqDestroyChecks = true ∧ up.proto.eqs.has 0 = true) ∧
    goes up (pk 0 0xFFFF [(16, 2, 0), (18, 1, 0xFF), (19, 1, 3)]) 0xD opr eventSubscribeChecks = true ∧
    (goes moreUp (pk 0 0xFFFF [(16, 2, 33)]) 9 opr queueDestroyChecks = true ∧ (ask moreUp (pk 0 0xFFFF [(16, 2, 33)]) 9).queueBusy 33 1 = false ∧
      moreUp.proto.queues.get? 33 = some { usr with halted := true }) ∧
    (let p := pk 0 0xFFFF [(16, 2, 33)]
     let s : State := { moreUp with proto := { moreUp.proto with flights := [{ fl (pk 33 1 []) 5 with id := 0 }, fl p 9], nextFlight := 2 } }
     s.takes p 9 (fl p 9) opr = true ∧ queueDestroyChecks opr p s = none ∧ s.queueBusy 33 1 = true ∧ s.flight? 1 = some (fl p 9)) ∧
    (let p := pk 33 0xFFFF [(16, 2, 33)]
     let s := ask { moreUp with proto := { moreUp.proto with queues := [(33, { usr with bindCtx := none, tail := 3 })] } } p 9
     s.takes p 9 (fl p 9) opr = true ∧ queueDestroyChecks opr p s = none ∧ (fl p 9).path = .queue 33 ∧ s.queueBusy 33 1 = false ∧ s.canReadRing 0 = true) ∧
    (let p := pk 0 0xFFFF [(16, 2, 33)]
     let s : State := ask { moreUp with proto := { moreUp.proto with queues := [(0, adm), (33, { usr with tail := 3 })], funcs := Tab.set (funcsAt .d8) 0 { Func.reset with enable := true, session := some ⟨7, 3, 0, 0⟩ } } } p 9
     s.takes p 9 (fl p 9) opr = true ∧ queueDestroyChecks opr p s = none ∧ (∃ q, s.proto.queues.get? 33 = some q ∧ q.left = 3 ∧ q.closing = none) ∧ s.canReadRing 0 = false) := by decide +kernel

theorem witness_DoorbellsAndHalts :
    up.proto.queues.get? 32 = some usr ∧ usr.fn = 0 ∧
    ((16#32).toNat + 2 ^ 32 - usr.head) % 2 ^ 32 ≤ usr.slots ∧ usr.slots < ((17#32).toNat + 2 ^ 32 - usr.head) % 2 ^ 32 ∧
    ((0#32).toNat + 2 ^ 32 - usr.cplHead) % 2 ^ 32 ≤ (usr.cplTail + 2 ^ 32 - usr.cplHead) % 2 ^ 32 ∧
    (usr.cplTail + 2 ^ 32 - usr.cplHead) % 2 ^ 32 < ((1#32).toNat + 2 ^ 32 - usr.cplHead) % 2 ^ 32 ∧
    (∃ e, up.proto.eqs.get? 0 = some e ∧ e.fn = 0 ∧ e.owner = none ∧ ((0#32).toNat + 2 ^ 32 - e.head) % 2 ^ 32 ≤ (e.tail + 2 ^ 32 - e.head) % 2 ^ 32) ∧
    (up.proto.queues.get? 34 = none ∧ up.proto.eqs.get? 1 = none) ∧ (moreUp.proto.queues.get? 33 = some { usr with halted := true }) :=
  ⟨rfl, rfl, by decide, by decide, by decide, by decide, ⟨_, rfl, rfl, rfl, by decide⟩, by decide, rfl⟩

/-- `up` with a word of a shadow copy. -/
def shad (s : State) (kind id off v : Nat) : State := { s with scopes := { s.scopes with shadow := s.scopes.shadow.set (scopeKey kind id off) v } }

def cfgW : Packet := pk 0 0xFFFF [(16, 1, 0), (18, 2, 0), (20, 2, 0), (22, 2, 2), (32, 4, 0x010007D0), (36, 4, 0x180A0165)]

theorem witness_ConfigurationCommands :
    (goes up cfgW 0x10 opr configWriteChecks = true ∧ Packet.fld cfgW 22 2 = 2) ∧
    goes up (pk 0 0xFFFF [(16, 1, 0), (17, 1, 1), (18, 2, 0), (20, 2, 0x3F), (22, 2, 1), (24, 8, 0x7001)]) 0x11 opr configReadChecks = true ∧
    goes up (own [(16, 1, 0), (17, 1, 0), (18, 2, 0), (20, 2, 0), (22, 2, 64)]) 0x11 ⟨.owner, 0, some 0⟩ configReadChecks = true ∧
    (goes (shad up 0 0 2 40) (pk 0 0xFFFF [(16, 1, 0), (18, 2, 0)]) 0x12 opr configCommitChecks = true ∧
      (ask (shad up 0 0 2 40) (pk 0 0xFFFF [(16, 1, 0), (18, 2, 0)]) 0x12).commitCheck 0 0 = ⟨St.ok, 0, (shad up 0 0 2 40).dueFrame⟩) := by decide +kernel

/-- A commit of CAP_W 40 that waits for frame 6, and one of 41 after it. -/
def waitUp : State := { up with scopes := { up.scopes with pending := [⟨⟨0, 0⟩, 6, (commitWords 0).map (fun o => (o, (shad up 0 0 2 40).shadowWord 0 0 o))⟩] } }

theorem witness_CommitOutcome :
    rangeCheck 0 ((shad up 0 0 0 249).shadowWord 0 0) = some 0 ∧
    (rangeCheck 0 ((shad up 0 0 0 (250 + 2 ^ 16 * 250)).shadowWord 0 0) = none ∧ (shad up 0 0 0 (250 + 2 ^ 16 * 250)).pairCheck 0 0 ((shad up 0 0 0 (250 + 2 ^ 16 * 250)).shadowWord 0 0) = some 0) ∧
    (let s := shad { up with clock := { up.clock with parked := false } } 0 0 0 4000
     rangeCheck 0 (s.shadowWord 0 0) = none ∧ s.pairCheck 0 0 (s.shadowWord 0 0) = none ∧ s.deviceParked (s.shadowWord 0 0) = some 0) ∧
    (rangeCheck 0 (up.shadowWord 0 0) = none ∧ up.pairCheck 0 0 (up.shadowWord 0 0) = none ∧ up.deviceParked (up.shadowWord 0 0) = none ∧
      ∀ o ∈ commitWords 0, up.shadowWord 0 0 o = up.dueWord 0 0 o) ∧
    (let s := shad waitUp 0 0 2 40
     rangeCheck 0 (s.shadowWord 0 0) = none ∧ s.pairCheck 0 0 (s.shadowWord 0 0) = none ∧ s.deviceParked (s.shadowWord 0 0) = none ∧
      ∀ o ∈ commitWords 0, s.shadowWord 0 0 o = s.dueWord 0 0 o) ∧
    (let s := shad waitUp 0 0 2 41
     rangeCheck 0 (s.shadowWord 0 0) = none ∧ s.pairCheck 0 0 (s.shadowWord 0 0) = none ∧ s.deviceParked (s.shadowWord 0 0) = none ∧
      (∃ o ∈ commitWords 0, s.shadowWord 0 0 o ≠ s.dueWord 0 0 o) ∧ s.scopes.pending.length < 32) ∧
    (let s : State := { shad up 0 0 2 40 with scopes := { (shad up 0 0 2 40).scopes with pending := List.replicate 32 ⟨⟨3, 0⟩, 6, []⟩ } }
     rangeCheck 0 (s.shadowWord 0 0) = none ∧ (∃ o ∈ commitWords 0, s.shadowWord 0 0 o ≠ s.dueWord 0 0 o) ∧ 32 ≤ s.scopes.pending.length) ∧
    (up.clock.now + 5000 ≤ up.clock.nextEdge ∧ ({ up.clock with now := 5995001 } : Clock).nextEdge < ({ up.clock with now := 5995001 } : Clock).now + 5000) := by decide +kernel

/-- Two commits of the device scope due at one edge, the later with another CAP_W, and one of a QP channel's scope. -/
def twiceUp : State := { waitUp with scopes := { waitUp.scopes with pending := waitUp.scopes.pending ++ [⟨⟨0, 0⟩, 6, [(2, 41)]⟩, ⟨⟨5, 3⟩, 7, [(0, 1)]⟩] } }

theorem witness_CommitsApplyAtTheirEdge :
    (∀ c ∈ twiceUp.scopes.pending, c.scope.id < 256 ∧ ∀ w ∈ c.words, w.1 < 4096) ∧ twiceUp.running = true ∧
    (∃ c ∈ twiceUp.scopes.pending, c.frame ≤ twiceUp.clock.nextFrame) ∧ twiceUp.wordAt 6 0 0 2 = 41 ∧ twiceUp.wordAt 5 0 0 2 = twiceUp.activeWord 0 0 2 ∧
    bits (up.activeWord 0 0 1) 31 30 ≠ bits 0x580A0164 31 30 ∧
    (let s : State := { up with apps := { up.apps with channels := [(3, Channel.empty)] } }
     s.activeWord 5 3 1 ≠ 7 ∧ (s.apps.channels.get? 3).isSome = true) := by decide +kernel

theorem witness_FrameEdges :
    0 < up.period ∧ up.running = true ∧ (up.clock.nextFrame ≠ 0) ∧ ({ up.clock with nextFrame := 0 } : Clock).nextFrame = 0 ∧
    (let s : State := { up with stats := { up.stats with acc := { up.stats.acc with cfgChanged := true } } }
     s.stats.acc.cfgChanged = true ∧ s.clock.frameStart % 1000 = 0 ∧ 0 < s.period) := by decide +kernel

/-- A time client on port 0 that threshold 10 ms lets step. -/
def client : State := { up with scopes := { up.scopes with active := [(scopeKey 0 0 1, 0x580A0A64)] } }

def clientIn (st run : Nat) : State := { client with clock := { client.clock with timeState := st, lockRun := run, lastSync := some 5100000 } }

theorem witness_TimeStates :
    (client.role ≠ 1 + 1) ∧ (client.portUp 0 = true ∧ client.role = 0 + 1) ∧ ({ client with pins := { client.pins with netDown := [0] } } : State).portUp 0 = false ∧ client.controlReady = true ∧ client.clock.timeState = 1 ∧
    ((clientIn 2 15).clock.timeState = 2 ∧ (15 : Nat) ≤ (clientIn 2 15).clock.lockRun) ∧ (clientIn 2 14).clock.lockRun < 15 ∧ (clientIn 3 16).clock.timeState = 3 ∧
    (0 < bits client.timeCfg 15 8 ∧ ((bits client.timeCfg 15 8 * 1000000 : Nat) : Int) ≤ 10000000 ∧ client.clock.parked = true ∧ client.controlActive = false) ∧
    ((clientIn 3 0).clock.lastSync = some 5100000 ∧ 3 * (clientIn 3 0).clock.syncInterval ≤ bits (clientIn 3 0).timeCfg 23 16 * 1000000000) ∧
    (bits (clientIn 3 0).timeCfg 23 16 * 1000000000 < 3 * ({ (clientIn 3 0).clock with syncInterval := 4000000000 } : Clock).syncInterval) ∧
    (clientIn 4 0).clock.timeState = 4 ∧ up.role = 0 ∧ client.role ≠ 0 := by decide +kernel

theorem witness_TimeReadResult :
    (∀ n ∈ [0, 1, 2, 3, 4], goes up (pk 0 0xFFFF [(16, 1, n)]) 0x100 opr noChecks = true) ∧
    goes up (pk 0 0xFFFF [(16, 1, 0), (17, 1, 1)]) 0x100 opr noChecks = true ∧ shortOk (pk 0 0xFFFF [(16, 1, 0), (17, 1, 1)]) 17 = false ∧
    shortOk (pk 0 0xFFFF [(16, 1, 3)]) 17 = true := by decide +kernel

/-- The entry of frame 4. -/
def entry4 : StatsEntry := ⟨4, 4000000, 5000000, 1, false, 0, 0, FrameAcc.zero, []⟩

theorem witness_Statistics :
    (let s : State := { up with stats := { up.stats with ring := [entry4], newerB := false } }
     s.hearthUp = true ∧ s.stats.ring = entry4 :: [] ∧ s.stats.newerB = false) ∧ [entry4, entry4] = entry4 :: [entry4] ∧ up.stats.newerB = true ∧
    (let p := own [(16, 2, 100)]
     (ask up p 0x101).takes p 0x101 (fl p 0x101) ⟨.owner, 0, some 0⟩ = true ∧ shortOk p 18 = true ∧ up.sec.sessions.get? 0 = some ⟨[], 0, none, 0⟩) ∧
    (let s : State := { up with sec := { up.sec with sessions := [(0, ⟨[], 1, some entry4, 5100000⟩)] } }
     s.sec.sessions.get? 0 = some ⟨[], 1, some entry4, 5100000⟩ ∧ s.procDown 0 = false) ∧
    (∃ r, ({ entry4 with parts := [⟨1, 0, 1, false, PartAcc.zero, 0⟩] } : StatsEntry).parts[0]? = some r ∧ r.cls = 0 ∧ r.state ≠ 0) :=
  ⟨by decide +kernel, by decide, by decide, by decide +kernel, by decide +kernel, ⟨_, rfl, by decide⟩⟩

/-- Packets at the start of the rings of queues 0 and 32. -/
def fed (queues : Tab CmdQueue) (code : Nat) (p : Packet) : State := { up with
  proto := { up.proto with queues := queues }
  stores := { Stores.reset with host := Mem.writeBytes (Mem.writeBytes [] (hostKey 0 0x4000) (packetBytes code p)) (hostKey 0 0x1000) (packetBytes 5 (pk 0 0xFFFF [])) } }

def nop1 : Packet := pk 32 1 []

/-- A completion of queue 32. -/
def fin32 : Finished := ⟨1, .queue 32, 5, 1, 1, 0x23, true, 0, 0, 0, 5, [], none, []⟩

def finUp (orphan master : Bool) (c : CmdQueue) : State := { up with proto := { up.proto with
  queues := [(0, adm), (32, c)], finished := [fin32],
  funcs := Tab.set (funcsAt .d8) 0 { Func.reset with busMaster := master, enable := true, orphan := orphan, session := some ⟨7, 3, 10, 0⟩ } } }

/-- A packet waits in the admin queue of function 0. -/
def admUp (orphan : Bool) (code : Nat) : State := { finUp orphan true usr with
  proto := { (finUp orphan true usr).proto with queues := [(0, { adm with tail := 1 }), (32, usr)], finished := [] }
  stores := { Stores.reset with host := Mem.writeBytes [] (hostKey 0 0x1000) (packetBytes code (pk 0 0xFFFF [])) } }

theorem witness_PacketsAreFetched :
    ((fed [(0, { adm with tail := 1 }), (32, { usr with tail := 1, cls := 0 })] 5 nop1).nextIn 0 = some 32) ∧
    (let s := fed [(0, { adm with tail := 1 }), (32, { usr with tail := 1 })] 5 nop1
     s.nextIn 0 = none ∧ s.nextIn 4 = some 0 ∧ s.hearthUp = true ∧ s.power.standby = false) ∧
    (let s := fed [(0, adm), (32, { usr with tail := 1 })] 5 nop1
     s.nextIn 0 = none ∧ s.nextIn 4 = none ∧ s.nextIn 1 = some 32 ∧ (s.chooseQueue.map (·.1)) = some 32 ∧ s.proto.queues.get? 32 = some { usr with tail := 1 } ∧
       s.fetchable 32 { usr with tail := 1 } = true ∧ s.orphanSkip (s.ringPacket 32 usr).2 5 = false ∧ (s.ringPacket 32 usr).2.len.toNat = 1 ∧ (opRow (s.ringPacket 32 usr).1).isSome = true) ∧
    (let s := admUp false 2
     (s.chooseQueue.map (·.1)) = some 0 ∧ (s.ringPacket 0 adm).1 = 2 ∧ s.orphanSkip (s.ringPacket 0 adm).2 2 = false ∧ s.turnAway (s.ringPacket 0 adm).2 2 = none ∧
       shortOk (s.ringPacket 0 adm).2 16 = true ∧ ((s.func? 0).bind (·.session)).isSome = true) ∧
    (up.chooseQueue = none ∧ up.hearthUp = true) ∧
    (let s := fed [(0, adm), (32, { usr with tail := 1 })] 5 { nop1 with len := 0 }
     (s.chooseQueue.map (·.1)) = some 32 ∧ (s.ringPacket 32 usr).2.len.toNat = 0) ∧
    (let s := fed [(0, adm), (32, { usr with tail := 1 })] 5 { nop1 with len := 17 }
     (s.chooseQueue.map (·.1)) = some 32 ∧ usr.slots < (s.ringPacket 32 usr).2.len.toNat) ∧
    (let s := fed [(0, adm), (32, { usr with tail := 1 })] 0xFFFF nop1
     (s.chooseQueue.map (·.1)) = some 32 ∧ (opRow (s.ringPacket 32 usr).1).isSome = false ∧ s.orphanSkip (s.ringPacket 32 usr).2 0xFFFF = false) := by decide +kernel

theorem witness_CompletionsAreWritten :
    (let s := finUp false true { usr with cplTail := 15 }
     s.proto.finished = [fin32] ∧ fin32.path = .queue 32 ∧ s.proto.queues.get? 32 = some { usr with cplTail := 15 } ∧ (s.func? 0).map (fun x => (x.orphan, x.busMaster)) = some (false, true) ∧
       s.hearthDown = false ∧ s.windowOpen fin32 = true ∧ s.proto.flights = [] ∧ ∀ kv ∈ s.proto.queues, kv.2.closing = none) ∧
    (let f : Finished := { fin32 with opcode := 3, path := .queue 0 }
     f.opcode = 3 ∧ f.status = St.ok ∧ f.info = 0 ∧ up.windowOpen f = true ∧ up.proto.queues.get? 0 = some adm) ∧
    (let f : Finished := { fin32 with path := .owner 0, messages := [[1]] }
     f.path = .owner 0 ∧ up.sec.sessions.has 0 = true ∧ up.procDown 0 = false) ∧
    (let f : Finished := { fin32 with hostWrites := [(0, [1])], window := some 1 }
     let s := { finUp false true usr with proto := { (finUp false true usr).proto with finished := [f], funcs := Tab.set (finUp false true usr).proto.funcs 1 { Func.reset with orphan := true } } }
     s.windowOpen f = false ∧ ∀ g ∈ [f], s.completable g = false) ∧
    ((finUp true true usr).func? 0).map (·.orphan) = some true ∧ ((finUp false false usr).func? 0).map (fun x => (x.orphan, x.busMaster)) = some (false, false) := by decide +kernel

theorem witness_OrphanMode :
    (let s := finUp false true usr
     (∃ g x, s.func? 0 = some g ∧ g.session = some x ∧ g.orphan = false ∧ s.hearthDown = false ∧ x.lastBeat + x.periodMs * 1000000 < ({ s.clock with frameStart := 10000001 } : Clock).frameStart ∧
       s.clock.frameStart ≤ x.lastBeat + x.periodMs * 1000000)) ∧
    ((1 : Nat) % 16 ≠ 0) ∧
    (∀ code ∈ [2, 5], let s := admUp true code
     s.hearthUp = true ∧ s.power.standby = false ∧ (s.chooseQueue.map (·.1)) = some 0 ∧ s.proto.queues.get? 0 = some { adm with tail := 1 } ∧ (s.func? 0).map (·.orphan) = some true ∧
       (s.ringPacket 0 adm).1 = code ∧ (s.ringPacket 0 adm).2.len.toNat = 1 ∧ s.turnAway (s.ringPacket 0 adm).2 code = none ∧ shortOk (s.ringPacket 0 adm).2 16 = true ∧
       ((s.func? 0).bind (·.session)).isSome = true) ∧
    (∀ o ∈ [true, false], goes (finUp o true usr) (pk 0 0xFFFF [(16, 8, 7), (24, 1, 2)]) 3 opr (fun c p s => reclaimStatusOf c.fn p s) = true ∧
      (let p := pk 0 0xFFFF [(16, 8, 8), (24, 1, 1)]
       (ask (finUp o true usr) p 3).takes p 3 (fl p 3) opr = true ∧ (reclaimStatusOf 0 p (ask (finUp o true usr) p 3)).isSome = true)) ∧
    goes (finUp false true usr) (pk 0 0xFFFF [(16, 8, 7), (24, 1, 1)]) 3 opr (fun c p s => reclaimStatusOf c.fn p s) = true ∧
    (let p := pk 0 0xFFFF [(16, 1, 0x20), (17, 1, 0x20), (18, 2, 10000)]
     (ask (finUp true true usr) p 1).takes p 1 (fl p 1) opr = true ∧ helloChecks opr p (ask (finUp true true usr) p 1) = some St.badSession) ∧
    (let s := finUp true true usr
     goes s (pk 0 0xFFFF [(16, 1, 0x20), (17, 1, 0x20), (18, 2, 10000), (20, 1, 1)]) 1 opr helloChecks = true ∧ chooseVersion 0x20 0x20 = some 0x20) ∧
    (let s := finUp true false usr
     goes s (pk 0 0xFFFF [(16, 1, 0x20), (17, 1, 0x20), (18, 2, 10000), (20, 1, 1)]) 1 opr helloChecks = true ∧
       goes s (pk 0 0xFFFF [(16, 8, 7), (24, 1, 2)]) 3 opr (fun c p s => reclaimStatusOf c.fn p s) = true) ∧
    (let p := pk 0 0xFFFF [(16, 8, 7), (24, 1, 2)]
     let s := ask { finUp false true usr with proto := { (finUp false true usr).proto with queues := [(0, adm)] } } p 3
     (s.teardownNow 0 1).flight? 1 = some (fl p 3)) ∧
    (∀ a ∈ [1, 2], goes (finUp true true usr) (pk 0 0xFFFF [(16, 8, 7), (24, 1, a)]) 3 opr (fun c p s => reclaimStatusOf c.fn p s) = true) :=
  ⟨⟨_, _, rfl, rfl, by decide +kernel⟩, by decide +kernel⟩

theorem witness_RegisterWindow :
    ((up.func? 0).isSome = true ∧ up.running = true ∧ 4 ≤ up.fw.bootStage ∧ slotsOk 16 = true ∧ slotsOk 65536 = true ∧ vectorOk 0xFFFF = true ∧ slotsOk 0 = false) ∧
    (up.mayConfigure (.bar0 0) = true ∧ up.windowUp = true ∧ up.isPf 0 = true ∧ up.proto.queues.get? 0 = some adm) ∧ up.mayConfigure .safetyPort = false ∧
    (up.mayConfigure (.bar0 1) = false) ∧ up.portMayConfigure = false ∧
    (up.commitCheck 0 0).status = St.ok ∧ ((shad up 0 0 0 249).commitCheck 0 0).status ≠ St.ok ∧ (shad up 0 0 0 249).windowUp = true ∧ State.reset.windowUp = false := by decide +kernel

theorem witness_StopLatch :
    let s : State := { shad up 0 0 0x10 10 with scopes := { up.scopes with active := [(scopeKey 0 0 0x10, 10)] }, win := { up.win with stopped := true, stopIn := false } }
    up.fw.powered = true ∧ bits (0x53540001#32).toNat 31 16 = 0x5354 ∧ bit (0x53540001#32).toNat 0 = true ∧ bit (0x53540002#32).toNat 0 = false ∧ bit (0x53540002#32).toNat 1 = true ∧
    bits (0x53530001#32).toNat 31 16 ≠ 0x5354 ∧ up.safeHbNs = 0 ∧ s.safeHbNs = 10000000 ∧ s.clock.running = true ∧ 2 ≤ s.fw.bootStage ∧
    (s.win.stopped = true ∧ s.win.stopIn = false ∧ s.clock.now ≤ max s.win.lastSafeHb s.win.safeHbSince + s.safeHbNs) ∧
    (max s.win.lastSafeHb s.win.safeHbSince + s.safeHbNs < ({ s.clock with now := 10000001 } : Clock).now) ∧ up.win.stopIn = true ∧ bits 10 15 0 ≠ bits 11 15 0 := by decide +kernel

/-- A header with its CRC, and a write's data with theirs. -/
def spiHead (cmd addr n : Nat) : List Byte := let h : List Byte := toLe 1 cmd ++ toLe 2 addr ++ toLe 1 n; h ++ toLe 2 (crc16 h)

def spiWrite (addr n : Nat) : List Byte := let h := spiHead 2 addr n ++ List.replicate (4 * n) 0; h ++ toLe 2 (crc16 h)

theorem witness_SafetyPort :
    up.fw.powered = true ∧ 2 ≤ up.fw.bootStage ∧
    (6 ≤ (spiHead 3 0 64).length ∧ fieldAt (spiHead 3 0 64) 4 2 = crc16 ((spiHead 3 0 64).take 4)) ∧ (0x1000 < 0xF04 + 4 * 64) ∧
    fieldAt [3, 0, 0, 1, 0, 0] 4 2 ≠ crc16 ([3, 0, 0, 1, 0, 0].take 4) ∧
    ((spiHead 2 0x48 1).length < 8 + 4 * 1) ∧ (8 + 4 * 1 ≤ (spiWrite 0x48 1).length ∧ fieldAt (spiWrite 0x48 1) 10 2 = crc16 ((spiWrite 0x48 1).take 10)) ∧
    (fieldAt (spiHead 2 0x48 1 ++ [0, 0, 0, 0, 0, 0]) 10 2 ≠ crc16 ((spiHead 2 0x48 1 ++ [0, 0, 0, 0, 0, 0]).take 10)) ∧
    up.spiMay 0x48 = true ∧ up.spiMay 0x400 = false := by decide +kernel

/-- A handshake that meets every rule, to the link-local address of the MAC address 02-00-00-00-00-01. -/
def goodHs : Handshake :=
  ⟨[0xFE, 0x80, 0, 0, 0, 0, 0, 0, 0, 0, 0, 0xFF, 0xFE, 0, 0, 1], 7960, true, true, true, false, false, false, List.replicate 48 1, List.replicate 16 1⟩

def fusedUp : State := { up with sec := ⟨[], { State.reset.sec.fuses with mac := [2, 0, 0, 0, 0, 1], ownerAnchors := [List.replicate 48 1] }⟩ }

theorem witness_ManagementPort :
    (let s := fusedUp
     let mac := s.sec.fuses.mac
     s.secUp = true ∧ goodHs.port = 7960 ∧ goodHs.dest = [0xFE, 0x80, 0, 0, 0, 0, 0, 0, mac.headD 0 ^^^ 2] ++ (mac.drop 1).take 2 ++ [0xFF, 0xFE] ++ (mac.drop 3).take 3 ∧
     goodHs.chainDigest ∈ s.sec.fuses.ownerAnchors ∧ (∃ b ∈ goodHs.chainDigest, b ≠ 0) ∧ s.rel.unlocked = false ∧ s.sec.sessions.length < 2) ∧
    (up.secUp = true ∧ ({ goodHs with resumption := true } : Handshake).resumption ≠ false ∧ ({ goodHs with port := 443 } : Handshake).port ≠ 7960 ∧ up.sec.sessions.has 0 = true) ∧
    ((opRow (fieldAt (packetBytes 0x100 (own [])) 0 2)).isSome = true ∧ (packetBytes 0x100 (own [])).length = (packetOf (.owner 0) (packetBytes 0x100 (own []))).len.toNat * 64) ∧
    (opRow (fieldAt (packetBytes 0xFFFF (own [])) 0 2)).isSome = false ∧
    (let s : State := { up with proto := { up.proto with flights := List.replicate 64 (fl (own []) 0x100) } }
     64 ≤ (s.proto.flights.filter (fun f => decide (f.path = .owner 0))).length) := by decide +kernel

theorem witness_HostLinks : 0 < ioDies up.order ∧ 1 < ioDies up.order ∧ up.running = true ∧
    (let s : State := { up with pins := { up.pins with links := [(0, ⟨true, true, 8, 320⟩)] } }
     (s.hostLink 0).up = true ∧ (s.func? 15).isSome = true) ∧ (up.hostLink 0).up = false ∧ ioDies .a4 ≤ 1 := by decide +kernel

/-- A packet of `len` slots, as `pk`. -/
def big (q ctx len : Nat) (fs : List (Nat × Nat × Nat)) : Packet :=
  { pk q ctx [] with len := BitVec.ofNat 8 len, body := fs.foldl (fun l f => l.take (f.1 - 16) ++ toLe f.2.1 f.2.2 ++ l.drop (f.1 - 16 + f.2.1)) (List.replicate (64 * len - 16) 0) }

/-- A tensor descriptor as fields of a packet at an offset. -/
def td (off : Nat) (t : TDesc) : List (Nat × Nat × Nat) :=
  [(off, 8, t.addr), (off + 8, 1, t.fmt), (off + 9, 1, t.loc), (off + 10, 1, t.layout), (off + 11, 1, t.rank), (off + 12, 4, t.d0), (off + 16, 4, t.d1), (off + 20, 4, t.d2),
   (off + 24, 4, t.d3), (off + 28, 4, t.tileK), (off + 32, 4, t.s1), (off + 36, 4, t.s2), (off + 40, 4, t.s3), (off + 44, 4, t.splane)]

def part0 : Partition := ⟨1, 1, 1, false, 0, 1024, 1, [some 0], 0, 0, false, false, none, false, 1, false, 0, none, false⟩

def ctx1 : Context := ⟨0, [⟨1, []⟩, ⟨0, []⟩, ⟨0, []⟩, ⟨0, []⟩], 0, 1, Account.zero, none⟩

/-- Context 1 runs on the ACTIVE partition 0, of core 0. -/
def run1 : State := { up with sched := { up.sched with contexts := [(1, ctx1)], partitions := [(0, part0)] } }

def ten : Caller := ⟨.tenant, 0, none⟩

/-- The compute operation of a packet of queue 32 runs on core 0. -/
def runs (s : State) (p : Packet) (code : Nat) (f : Compute) : Bool :=
  (ask s p code).takes p code (fl p code) ten && decide ((ask s p code).partOf 1 = some (0, part0)) &&
  (match f (.flight 1) 1 0 part0 p (ask s p code).ahead with
   | .run x => (!x.dealt.slots.isEmpty || !x.dealt.descs.isEmpty) && x.ends.isNone && x.met.isNone && !(ask s p code).coreWaits part0 x.dealt
   | _ => false)

def vecP (func : Nat) : Packet := big 32 1 4 ([(17, 1, 1), (24, 2, func)] ++ td 32 (coreTensor 0 0 2 1 0) ++ td 80 (coreTensor 0 64 2 1 0) ++ td 176 (coreTensor 0 0x1FFFC0 2 1 0))
def matP : Packet := big 32 1 3 ([(17, 1, 1)] ++ td 32 (coreTensor 1 0 16 2 32) ++ td 80 (coreTensor 1 64 2 16 4) ++ td 128 (coreTensor 0 128 2 2 8))
def movP : Packet := big 32 1 2 ([(17, 1, 1)] ++ td 32 (coreTensor 3 0 64 1 0) ++ td 80 (coreTensor 3 0x1FFFC0 64 1 0))

theorem witness_RoundingIsCorrect :
    fp32 ∈ floatFormats ∧ e2m1 ∈ floatFormats ∧ fp32.roundCode .rne 1 0 = 0x3F800000 ∧ fp32.roundCode .rne (2 ^ 24 + 1) 0 = 0x4B800000 ∧ fp32.roundCode .rtz (2 ^ 25 - 1) 0 = 0x4BFFFFFF ∧
    (0xFF7FFFFF < 2 ^ fp32.width ∧ (fp32.decode 0xFF7FFFFF).isFin = true) := by decide +kernel

theorem witness_OverflowIsWrittenByTheTable :
    fp32.maxCode < fp32.roundCode .rne (2 ^ 25 - 1) 103 ∧ ¬(fp32.maxCode < fp32.roundCode .rne (2 ^ 24 - 1) 104) ∧ e4m3.maxCode < e4m3.roundCode .rne 480 0 ∧
    e4m3.encode .rtz false (.fin true 449 0) = (0xFE, fSat) := by decide +kernel

theorem witness_ScalesAndMxElements :
    isMx 4 = true ∧ (TDesc.code ⟨0, 4, 0, 1, 1, 32, 1, 1, 1, 0, 0, 0, 0, 0⟩ 0 (fun _ => 0) 0 0 0 0).2 ≠ 255 ∧ Fv.isFin (.fin true 3 (-2)) = true ∧
    fp32.roundCode .rtz (2 ^ 24 - 1) 104 ≤ fp32.maxCode := by decide +kernel

def movC : Packet := big 32 1 2 ([(17, 1, 1)] ++ td 32 (coreTensor 0 0 2 1 0) ++ td 80 (coreTensor 1 64 2 1 0))

theorem witness_ComputeIsPlaced : runs run1 matP 0x200 compMatmul = true ∧ runs run1 (vecP 1) 0x201 compVector = true ∧ runs run1 movC 0x203 compMove = true ∧
    runs run1 movP 0x203 compMove = true := by decide +kernel

theorem witness_RowsOnOneCore :
    (∀ func ∈ [1, 2, 3, 6, 7], let s := ask run1 (vecP func) 0x201
      s.takes (vecP func) 0x201 (fl (vecP func) 0x201) ten = true ∧ Packet.rsvZero (vecP func) 224 256 = true ∧ Packet.fld (vecP func) 24 2 = func) ∧
    (Packet.desc (vecP 1) 32 = coreTensor 0 0 2 1 0 ∧ Packet.desc (vecP 1) 80 = coreTensor 0 64 2 1 0 ∧ Packet.desc (vecP 1) 176 = coreTensor 0 0x1FFFC0 2 1 0) ∧
    (Packet.ctxNo movP ≠ 0xFFFF ∧ run1.partOf 1 = some (0, part0) ∧ part0.state = 1 ∧ part0.positions[0]? = some (some 0) ∧ run1.coreHeld part0.cls 0 = false ∧
      run1.stores.poison = [] ∧ run1.awaited = [] ∧ Packet.fld movP 16 1 = 0 ∧ Packet.fld movP 17 1 = 1 ∧ Packet.fld movP 18 1 = 0 ∧ Packet.fld movP 26 2 = 0 ∧ arithOk (Packet.fld movP 19 1) = true) ∧
    ((ask run1 movP 0x203).takes movP 0x203 (fl movP 0x203) ten = true ∧ Packet.desc movP 32 = coreTensor 3 0 64 1 0 ∧ 0x1FFFC0 + 64 * elemBits 3 / 8 ≤ 2 ^ 21) := by decide +kernel

theorem witness_MatmulOnOneCore :
    ((ask run1 matP 0x200).takes matP 0x200 (fl matP 0x200) ten = true ∧ Packet.rsvZero matP 176 192 = true ∧ Packet.fld matP 24 2 = 0 ∧
      Packet.desc matP 32 = coreTensor 1 0 16 2 (2 * 16) ∧ Packet.desc matP 80 = coreTensor 1 64 2 16 (2 * 2) ∧ Packet.desc matP 128 = coreTensor 0 128 2 2 (4 * 2)) ∧
    ([Fv.zero, Fv.nan].Perm [Fv.nan, Fv.zero]) ∧ ([Fv.zero, Fv.zero].length = 2 ^ 1 ∧ [Fv.zero].length ≤ 2 ^ 1) := by
  refine ⟨by decide +kernel, List.Perm.swap _ _ _, by decide⟩

def aWalk : Walker := ⟨0, 0, 0, 4, 4, 3, 0, [⟨2, 1, 0, 4⟩]⟩
def opOf (tag : Nat) (issued : Bool) : OpSlot := ⟨.flight 1, some .vector, [aWalk, aWalk], issued, 100, [(0, 64, true)], 0, tag, [⟨.core, coreKey 0 0, [1]⟩], [], []⟩
def descOf (tag : Nat) (started : Bool) : Desc := { owner := .flight 1, op := 1, order := false, rloc := 0, length := 64, started := started, window := none, tag := tag }

/-- A core with these slots and this ring. -/
def cor (slots : List OpSlot) (ring : List Desc) : Core := { Core.idle with slots := slots, ring := ring }

def coreUp (c : Core) : State := { run1 with cores := [(0, c)] }

/-- The slot of a MOVE by Tongs alone. -/
def loneOf (tag : Nat) (issued : Bool) : OpSlot := ⟨.flight 1, none, [aWalk], issued, 0, [], 0, tag, [], [], []⟩

theorem witness_CoresPlaceAndIssue :
    ((List.replicate 8 (opOf 1 false)).length ≤ 8 ∧ (List.replicate 64 (descOf 1 false)).length ≤ 64) ∧
    (run1.running = true ∧ (coreUp (cor [opOf 1 false] [])).issueSlot 0 .vector = some 0 ∧ (coreUp (cor [opOf 1 true, opOf 2 false] [])).issueSlot 0 .vector = none) ∧
    ((cor [loneOf 1 true] []).slotsKept = [] ∧ (cor [loneOf 1 true] [descOf 1 true]).slotsKept = [loneOf 1 true]) ∧
    (run1.feeds 0 = true ∧ run1.cccDown 0 = false ∧
      (let s : State := { run1 with fw := { run1.fw with procs := [(8, ⟨true, false, [], 0, []⟩)] } }
       s.cccDown 0 = true ∧ s.feeds 0 = false)) ∧
    (coreUp (cor [{ opOf 1 false with engine := some .solve, also := [.vector] }, opOf 1 true] [])).issueSlot 0 .solve = none := by decide +kernel

theorem witness_CoresRetire :
    (run1.running = true ∧ (coreUp (cor [opOf 1 true] [])).issuedSlot 0 .vector = some (opOf 1 true) ∧ (coreUp (cor [opOf 1 true] [])).coreStopped 0 0 = false ∧ (coreUp (cor [opOf 1 true] [])).partialsDue 0 (opOf 1 true) = false ∧
      (coreUp (cor [opOf 1 true] [{ descOf 1 true with op := 2, rcore := 0 }])).partialsDue 0 (opOf 1 true) = true ∧ (coreUp (cor [opOf 1 true] [])).issuedSlot 0 .solve = none ∧ (opOf 1 true).also = []) ∧
    ((Core.startDesc (cor [loneOf 1 false] [descOf 1 false])).isSome = true ∧ (Core.startDesc (cor [loneOf 1 false] [{ descOf 1 false with op := 4, walk := some aWalk }])).isSome = true ∧
      Core.startDesc (cor [opOf 0 false] [{ descOf 1 false with ranges := [(32, 96, true)] }]) = none ∧ Core.startDesc (cor [opOf 1 false] [{ descOf 1 false with op := 2 }]) = none) ∧
    ((coreUp (cor [] [descOf 1 false])).coreStopped 0 ((coreUp (cor [] [descOf 1 false])).partOfCore 0) = false ∧
      (Core.startDesc (cor [] [descOf 1 true, descOf 1 false])).isSome = true ∧ (descOf 1 false).started = false ∧ (descOf 1 true).window = none ∧
      ({ descOf 1 true with window := some (0x4000, 0, 63) }).window = some (0x4000, 0, 63) ∧ (coreUp (cor [] [descOf 1 true])).core 0 = (cor [] [descOf 1 true])) ∧
    (let f : Flight := { fl movP 0x203 with placed := true, running := true }
     let s : State := { run1 with proto := { run1.proto with flights := [f] } }
     s.proto.flights.filter (fun f => f.placed && !f.late && !s.busyFor (.flight f.id)) = [f] ∧ f.deadline = none) := by decide +kernel

def schedBytes : List Byte :=
  toLe 2 1 ++ toLe 2 1 ++ toLe 4 1 ++ toLe 4 1 ++ toLe 4 0 ++ toLe 4 0 ++ toLe 4 1 ++ List.replicate 104 0 ++ toLe 6 0 ++ toLe 2 0 ++ toLe 4 64 ++ [1, 1, 0, 0]

/-- `run1` with two pages of tier 2, regions 5 and 6, and a schedule of one layer and one tile at 1000h. -/
def mem1 : State := { run1 with
  tiers := { run1.tiers with
    pages := [(1, [(0, ⟨0, 0, false, false, 0⟩), (1, ⟨1, 0, false, false, 0⟩)])]
    allocs := [⟨1, 0, 2, 0, none⟩]
    regions := [(5, ⟨1, false, 0, 131072, true, 0, 0, none⟩), (6, ⟨1, false, 0, 65536, false, 0, 0, none⟩)] }
  stores := { run1.stores with tier2 := Mem.writeBytes [] 0x1000 schedBytes } }

theorem witness_RegionsAndAllocations :
    (let p := pk 32 1 [(16, 1, 1), (24, 8, 65537)]
     let s := ask mem1 p 0x301
     goes mem1 p 0x301 ten regionAllocChecks = true ∧ s.tiers.regions.get? 4095 = none ∧ s.granules 0 none + 2 ≤ 176 ∧ s.granules 0 (some 1) + 2 ≤ part0.regionCeil) ∧
    (let p := pk 32 1 [(16, 1, 3), (24, 8, 4096), (32, 8, 0x8000)]
     goes mem1 p 0x301 ten regionAllocChecks = true ∧ (mem1.tiers.regions.filter (fun kv => kv.2.window && decide (kv.2.ctx = 1))).length < 16) ∧
    (let p := pk 32 1 [(16, 1, 2), (18, 1, 2), (24, 8, 65536)]
     let s := ask mem1 p 0x301
     goes mem1 p 0x301 ten regionAllocChecks = true ∧ s.underCeiling 1 1 = true ∧ s.pagesAhead 1 = false ∧ s.t2Room (halvesOf 2 1) Halves.zero = true ∧ s.placesFor 1 1 ≠ []) ∧
    (let p := pk 32 1 [(16, 1, 1), (24, 8, 6)]
     let s := ask mem1 p 0x302
     goes mem1 p 0x302 ten regionFreeChecks = true ∧ s.inWork.any (fun x => decide (x.1 ≠ 0x302) && namesHandle x.1 x.2 6) = false ∧ (∀ kv ∈ s.tiers.regions, kv.2.freeing = none) ∧
       (∀ a ∈ s.tiers.allocs, a.freeing = none) ∧ Tab.wf s.tiers.regions = true ∧ (∀ kv ∈ s.sched.models, kv.2.flight = none)) ∧
    (let p := pk 32 1 [(16, 1, 2), (24, 8, 0)]
     let s := ask mem1 p 0x302
     goes mem1 p 0x302 ten regionFreeChecks = true ∧ s.allocAt 1 0 = some ⟨1, 0, 2, 0, none⟩ ∧ (⟨1, 0, 2, 0, none⟩ : Alloc).inWork s = false) := by decide +kernel

def tileP : Packet := pk 32 1 [(16, 8, 64), (24, 8, 6 * 2 ^ 48 + 65408), (32, 1, 0), (33, 1, 1), (36, 4, 64), (40, 4, 2), (44, 4, 128), (48, 4, 64)]

/-- A copy of the weight region 5 into the core store. -/
def loadP : Packet := pk 32 1 [(16, 8, 5 * 2 ^ 48), (24, 8, 0), (32, 1, 1), (33, 1, 0), (36, 4, 64), (40, 4, 2), (44, 4, 64), (48, 4, 64)]

def bellP : Packet := pk 32 1 ([(16, 8, 0x1000), (24, 8, 0x2000), (32, 1, 8), (33, 1, 1), (36, 4, 1), (40, 2, 5)] ++ (List.range 7).map (fun i => (42 + 2 * i, 2, 0xFFFF)))

def bell1 : Bellows := ⟨1, 0, 7, 0x1000, 0x2000, 8, 1, 1, [⟨0, 0, 5, 16384, 1, 0, []⟩], false⟩

def bellUp : State := { mem1 with tiers := { mem1.tiers with bellows := [(5, bell1)] } }

theorem witness_TilesAndSchedules :
    (let s := ask mem1 tileP 0x300
     s.takes tileP 0x300 (fl tileP 0x300) ten = true ∧ tileMoveChecks ten tileP s = none ∧ Packet.fld tileP 35 1 = 0 ∧ s.stores.poison = [] ∧ moveCore s 1 tileP = some 0 ∧
      s.coreHeld part0.cls 0 = false ∧ s.partOf 1 = some (0, part0) ∧ part0.state = 1 ∧ (match s.moveSide 1 0 0 64 ⟨2, 128, 64⟩ false, s.moveSide 1 0 1 (6 * 2 ^ 48 + 65408) ⟨2, 64, 64⟩ true with
        | .ok x, .ok d => decide (x.loc = 0 ∧ d.loc = 1 ∧ x.readOnly = false) && !s.tilesAfter 0 x ⟨2, 128, 64⟩ false && !s.tilesAfter 0 d ⟨2, 64, 64⟩ true
        | _, _ => false) = true) ∧
    (let s := ask mem1 loadP 0x300
     s.takes loadP 0x300 (fl loadP 0x300) ten = true ∧ tileMoveChecks ten loadP s = none ∧ moveCore s 1 loadP = some 0 ∧ (match s.moveSide 1 0 1 (5 * 2 ^ 48) ⟨2, 64, 64⟩ false, s.moveSide 1 0 0 0 ⟨2, 64, 64⟩ true with
        | .ok x, .ok d => decide (x.loc = 1 ∧ x.readOnly = true ∧ d.loc = 0) && !Tiles.any ⟨2, 64, 64⟩ x.base (s.windowLacks x.handle) && !s.tilesAfter 0 x ⟨2, 64, 64⟩ false &&
            !s.tilesAfter 0 d ⟨2, 64, 64⟩ true
        | _, _ => false) = true) ∧
    (let p : Packet := { loadP with body := (loadP.body.take 8) ++ toLe 8 (6 * 2 ^ 48) ++ (loadP.body.drop 16).set 1 1 }
     let s := ask mem1 p 0x300
     s.takes p 0x300 (fl p 0x300) ten = true ∧ tileMoveChecks ten p s = none ∧ (match s.moveSide 1 0 1 (5 * 2 ^ 48) ⟨2, 64, 64⟩ false, s.moveSide 1 0 1 (6 * 2 ^ 48) ⟨2, 64, 64⟩ true with
        | .ok x, .ok d => decide (x.readOnly = true ∧ d.loc ≠ 0 ∧ d.weight = false)
        | _, _ => false) = true ∧ mem1.power.applied < 3) ∧
    (let s := ask mem1 bellP 0x303
     s.takes bellP 0x303 (fl bellP 0x303) ten = true ∧ bellowsStartChecks ten bellP s = none ∧ s.partOf 1 = some (0, part0) ∧ part0.state = 1 ∧ 0 < Packet.fld bellP 36 4 ∧ s.procDown (8 + 0) = false) ∧
    (let p := pk 32 1 [(16, 2, 5)]
     goes bellUp p 0x304 ten bellowsStopChecks = true ∧ bellUp.tiers.bellows.get? 5 = some bell1 ∧ ∀ g ∈ (ask bellUp p 0x304).proto.flights, g.parked = false) ∧
    (bellUp.running = true ∧ bellUp.classGated (bellUp.partClass 0) = false ∧ 0 < (bell1.head bellUp).counts.getD 0 0 ∧
      (let e := (bell1.head bellUp).entry (bellUp.t2Reader 1 0x1000) 0 0
       e.decode = false ∧ e.layer < bell1.layers ∧ e.out4k * 4096 ≤ 16384 ∧ e.srcBytes ≤ e.out4k * 4096 ∧ bellUp.t2Mapped 1 (0x2000 + e.src) e.srcBytes = true)) ∧
    (bellUp.power.applied < 3 ∧ bellUp.t2Barred 1 = false ∧ ({ bellUp with power := { bellUp.power with applied := 3, standby := true } } : State).power.standby = true) ∧
    (let p := pk 32 1 [(16, 2, 5)]
     let w : Flight := { fl loadP 0x300 with id := 0, parked := true, dispatchTime := 5150000, pkt := pk 32 1 [(16, 8, 5 * 2 ^ 48), (24, 8, 6 * 2 ^ 48), (32, 1, 1), (33, 1, 1), (36, 4, 64), (40, 4, 2), (44, 4, 64), (48, 4, 64)] }
     let s : State := { bellUp with proto := { bellUp.proto with flights := [w, fl p 0x304], nextFlight := 2 } }
     s.takes p 0x304 (fl p 0x304) ten = true ∧ bellowsStopChecks ten p s = none ∧ w.parked = true ∧ w.pages = false ∧ s.readsLacking (bell1.positions.map (·.window)) w.opcode w.pkt = true) ∧
    (stacksOf mem1.order).contains 7 = true ∧ mem1.tiers.trained.get? 7 ≠ some mem1.frameNo ∧
    ({ mem1 with tiers := { mem1.tiers with trained := [(7, 5)] } } : State).tiers.trained.get? 7 = some mem1.frameNo := by decide +kernel

/-- A sequence of one layer and one head of 64 BF16 values, with one page in frame 10. -/
def seq1 : Seq := ⟨1, 1, 1, 1, 64, false, 3, 100, true, 1, 0, 0, [(0, ⟨1, 10, 1, 0, 0, 0, 0, false⟩)], false, none, none, false, 0⟩

def kvUp (q : Seq) : State := { mem1 with kv := ⟨[(7, q)], []⟩ }

/-- An operand that the work before it leaves readable. -/
def reads (s : State) (p : Packet) (off : Nat) : Bool := match s.ahead.src 1 0 part0 1 (Packet.desc p off) with
  | .ok o => s.srcFits 1 0 part0 [1, 3] o [0] && !s.windowWaits (Packet.desc p off) (s.windowSpan (Packet.desc p off))
  | .error _ => false

theorem witness_Sequences :
    (let p := pk 32 1 [(16, 2, 1024), (18, 1, 1), (19, 1, 1), (20, 2, 64), (22, 1, 0), (23, 1, 15), (24, 4, 1), (28, 1, 1)]
     goes mem1 p 0x402 ten ptCreateChecks = true ∧ 0 < Packet.fld p 24 4 ∧ mem1.kv.seqs.get? 0 = none) ∧
    (let p := pk 32 1 [(16, 2, 7)]
     goes (kvUp seq1) p 0x403 ten ptDestroyChecks = true ∧ (kvUp seq1).seq? 7 = some seq1 ∧ (ask (kvUp seq1) p 0x403).destroyWaits 1 7 = false ∧ seq1.preemptFlight = none ∧ seq1.resumeFlight = none) ∧
    (let p := pk 0 0xFFFF [(16, 8, 0x100000), (24, 8, 0x200000), (32, 4, 16), (36, 1, 7)]
     goes up p 0x408 opr poolChecks = true ∧ 0 < Packet.fld p 32 4 ∧ up.kv.pools.get? 7 = none) ∧
    (let p := big 32 1 2 [(16, 2, 7), (18, 1, 0), (20, 4, 2)]
     let q := { seq1 with committed := 3, tail := 2 }
     let s := ask (kvUp q) p 0x405
     goes (kvUp q) p 0x405 ten verifyChecks = true ∧ s.seq? 7 = some q ∧ (2 : Nat) ≤ q.tail ∧ (∀ g ∈ s.proto.flights, g.id = 1 → g = fl p 0x405) ∧ (∀ g ∈ s.proto.flights, g ≠ fl p 0x405 → kvSeqOf g.opcode g.pkt ≠ some 7)) ∧
    (let p := big 32 1 2 ([(16, 2, 7), (18, 1, 1), (19, 1, 1), (25, 1, 2)] ++ td 32 (coreTensor 0 0 2 1 0) ++ td 80 (coreTensor 0 64 3 1 0))
     let q := { seq1 with committed := 3, tail := 3 }
     let s := ask (kvUp q) p 0x405
     goes (kvUp q) p 0x405 ten verifyChecks = true ∧ s.seq? 7 = some q ∧ s.partOf 1 = some (0, part0) ∧ part0.inService = 1 ∧ s.coreHeld part0.cls 0 = false ∧
      part0.coreAt 0 = some 0 ∧ reads s p 32 = true ∧ reads s p 80 = true) ∧
    (let p := pk 0 0xFFFF [(16, 2, 7)]
     let q := { seq1 with tail := 1 }
     goes (kvUp q) p 0x406 opr seqOpChecks = true ∧ (∀ kv ∈ q.pages, kv.2.state = 1 → q.committed ≤ q.firstPos kv.1) ∧ q.swappable = true ∧ q.swapStarted = false) ∧
    (let p := pk 0 0xFFFF [(16, 2, 7)]
     let q := { seq1 with state := 3, pages := [] }
     let s := ask (kvUp q) p 0x407
     goes (kvUp q) p 0x407 opr seqOpChecks = true ∧ (∀ kv ∈ q.pages, kv.2.lost = false ∧ kv.2.state ≠ 2) ∧ s.underCeiling 1 0 = true) := by decide +kernel

def t3 (off d0 d1 d2 : Nat) (fmt s1 : Nat) : TDesc := ⟨off, fmt, 0, 1, 3, d0, d1, d2, 1, 0, s1, s1 * d1, 0, 0⟩

def appendP : Packet := big 32 1 2 ([(16, 2, 7), (20, 4, 0)] ++ td 32 (t3 0 64 1 1 1 128) ++ td 80 (t3 128 64 1 1 1 128))

/-- One of no tokens. -/
def noneP : Packet := big 32 1 2 ([(16, 2, 7), (20, 4, 0)] ++ td 32 (t3 0 64 0 1 1 128) ++ td 80 (t3 128 64 0 1 1 128))

def attP : Packet := big 32 1 3 ([(16, 2, 7), (21, 1, 1), (23, 1, 1), (28, 4, 0xFFFFFFFF), (32, 4, 0x3E000000), (37, 1, 1), (38, 2, 1), (48, 8, 2 ^ 64 - 1), (64, 2, 0xFFFF)] ++
  td 80 (t3 0x180000 64 1 1 1 128) ++ td 128 (t3 0x180080 64 1 1 0 256))

/-- Its record lies at 0 of tier 2. -/
def backP : Packet := big 32 1 5 ([(16, 2, 7), (32, 8, 0), (40, 8, 2 ^ 64 - 1), (48, 2, 0xFFFF)] ++ td 64 (t3 0x180000 64 1 1 1 128) ++ td 112 (t3 0x180080 64 1 1 1 128) ++
  td 160 (t3 0x180100 64 1 1 0 256) ++ td 208 (t3 0x180200 64 1 1 0 256) ++ td 256 (t3 0x180300 64 1 1 0 256))

def attUp : State :=
  let q := { seq1 with committed := 1 }
  { kvUp q with stores := { (kvUp q).stores with tier2 := Mem.writeBytes [] 0 ((Att.of attP q).header 7) } }

theorem witness_SequenceWorkIsPlaced :
    (let s := ask (kvUp seq1) appendP 0x404
     s.takes appendP 0x404 (fl appendP 0x404) ten = true ∧ kvAppendChecks ten appendP s = none ∧ s.seq? 7 = some seq1 ∧ s.partOf 1 = some (0, part0) ∧ s.t2Refused 0 part0 = false ∧
      s.seqWaits 1 7 false = false ∧ (Packet.desc appendP 32).d0 = seq1.headDim ∧ (Packet.desc appendP 32).d2 = seq1.kvHeads ∧ part0.coreAt 0 = some 0 ∧ s.coreHeld part0.cls 0 = false ∧
      appendPosition seq1 false 0 1 = none ∧ reads s appendP 32 = true ∧ reads s appendP 80 = true ∧ seq1.missing 0 0 1 = [] ∧ s.underCeiling 1 0 = true ∧ (Packet.desc appendP 32).isEmpty = false ∧
      s.scratchRegion 1 0xFFFF = .ok none) ∧
    (let s := ask (kvUp seq1) noneP 0x404
     s.takes noneP 0x404 (fl noneP 0x404) ten = true ∧ kvAppendChecks ten noneP s = none ∧ (Packet.desc noneP 32).isEmpty = true ∧ appendPosition seq1 false 0 0 = none ∧
      (s.ahead.src 1 0 part0 1 (Packet.desc noneP 32)).isOk = true ∧ (s.ahead.src 1 0 part0 1 (Packet.desc noneP 80)).isOk = true) ∧
    (let q := { seq1 with committed := 1 }
     let s := ask attUp attP 0x400
     s.takes attP 0x400 (fl attP 0x400) ten = true ∧ attentionChecks ten attP s = none ∧ attentionFits attP q part0 = true ∧ attentionFits attP seq1 part0 = true ∧ (Att.of attP seq1).kvEnd = 0 ∧ (Att.of attP seq1).ksplit ≤ 1 ∧ reads s attP 80 = true ∧
      s.destOk 1 0 part0 (Packet.desc attP 128) ((Packet.desc attP 128).extent (tileKindOf (Packet.desc attP 128).fmt)) = none ∧ part0.cores 0 (q.kvHeads * (Att.of attP q).ksplit) = some [0] ∧
      (match s.ahead.src 1 0 part0 1 (Packet.desc attP 80) with
       | .ok o => ((Att.of attP q).work s 1 1 0 7 [0] o (Packet.desc attP 128) ⟨0, 2 ^ 64 - 1, none⟩ none).isOk
       | .error _ => false) = true) ∧
    (let q := { seq1 with committed := 1 }
     let s := ask attUp backP 0x401
     let rd := s.t2Reader 1 0
     let a := recAtt rd q (Arith.of 0 0)
     s.takes backP 0x401 (fl backP 0x401) ten = true ∧ backwardChecks ten backP s = none ∧ s.t2Mapped 1 0 64 = true ∧ backwardFits backP q part0 a rd = true ∧ s.t2Mapped 1 0 a.recordBytes = true ∧
      reads s backP 64 = true ∧ reads s backP 112 = true ∧ (∀ o ∈ [160, 208, 256], s.destOk 1 0 part0 (Packet.desc backP o) ((Packet.desc backP o).extent (tileKindOf (Packet.desc backP o).fmt)) = none) ∧
      0 < a.rows ∧ 0 < a.kvEnd ∧
      (match s.ahead.src 1 0 part0 1 (Packet.desc backP 64), s.ahead.src 1 0 part0 1 (Packet.desc backP 112) with
       | .ok x, .ok y => (a.backwardWork s 1 1 0 0 rd [0] x y (Packet.desc backP 160) (Packet.desc backP 208) (Packet.desc backP 256) ⟨0, 2 ^ 64 - 1, none⟩).isOk
       | _, _ => false) = true) := by
  refine ⟨?_, ?_, ?_, ?_⟩ <;> decide +kernel

def pool1 : Pool := ⟨0, 0x100000, 0x200000, 1, []⟩

def outUp : State := { kvUp { seq1 with state := 2, swapStarted := true } with kv := ⟨[(7, { seq1 with state := 2, swapStarted := true })], [(0, pool1)]⟩ }

def page3 : KvPage := ⟨3, 11, 1, 0, 0, 0, 5, false⟩

def inUp (s : State) : State := { s with kv := ⟨[(7, { seq1 with state := 4, pages := [(0, page3)] })], [(0, { pool1 with used := [0] })]⟩ }

theorem pickFree_one (f : Nat) : pickFree f 1 [] = some 0 := by
  have h : Sys2Proof.Config.pick f % 1 = 0 := Nat.mod_one _
  unfold pickFree
  rw [if_neg (by decide), h]
  rfl

theorem witness_PagesSwapOutAndIn :
    (outUp.seq? 7 = some { seq1 with state := 2, swapStarted := true } ∧ outUp.hearthUp = true ∧ outUp.sharedIdle 1 = false ∧ outUp.ctx? 1 = some ctx1 ∧ outUp.swapSlot 1 = some (0, pool1, 0)) ∧
    (let s := inUp mem1
     s.seq? 7 = some { seq1 with state := 4, pages := [(0, page3)] } ∧ s.kv.pools.get? 0 = some { pool1 with used := [0] } ∧ s.canWriteHost 0 = true ∧ ctx1.gens[0]? = some ⟨1, []⟩ ∧
       (s.stores.host.readBytes (hostKey 0 0x200000) 32).drop 16 ≠ pageTail 7 { seq1 with state := 4, pages := [(0, page3)] } 0 5 0) := by
  refine ⟨⟨by decide +kernel, by decide +kernel, by decide +kernel, by decide +kernel, ?_⟩, by decide +kernel⟩
  have h : outUp.kv.pools.find? (fun kv => decide ((outUp.ctx? 1).map (fun c => c.fn / 16) = some (kv.2.fn / 16)) && outUp.canWriteHost kv.2.fn && decide (kv.2.used.length < kv.2.slots)) = some (0, pool1) := by decide +kernel
  rw [State.swapSlot, h]
  exact congrArg (Option.map (fun k => (0, pool1, k))) (pickFree_one outUp.fresh)

/-- A page whose record authenticates: its bytes are all zero, and its tag is what the primitive gives. -/
theorem witness_PagesSwapIn (tag : List Byte)
    (h : tag = fixedLen 16 (Sys2Proof.Config.gcmTag [] (gcmIv 5 1 0) (pageTail 7 { seq1 with state := 4, pages := [(0, page3)] } 0 5 0) (zeros 65536))) :
    ((tag ++ pageTail 7 { seq1 with state := 4, pages := [(0, page3)] } 0 5 0).take 16 = tag) ∧
      (tag ++ pageTail 7 { seq1 with state := 4, pages := [(0, page3)] } 0 5 0).drop 16 = pageTail 7 { seq1 with state := 4, pages := [(0, page3)] } 0 5 0 := by
  have hl : tag.length = 16 := by rw [h]; exact length_fixedLen _ _
  exact ⟨by rw [← hl, List.take_left], by rw [← hl, List.drop_left]⟩

def strP : Packet := big 32 1 3 ([(16, 1, 1), (17, 1, 4), (20, 4, 16), (24, 1, 0), (32, 8, 0x10000), (40, 8, 0x4000), (48, 8, 5)] ++ td 64 (coreTensor 0 0 48 1 0))

/-- The stream it makes. -/
def str1 : Stream := startStream strP (ask mem1 strP 0x500)

def strUp (x : Stream) : State := { mem1 with
  apps := { mem1.apps with streams := [(9, x)] }
  stores := { mem1.stores with core := Mem.writeBytes [] (coreKey 0 0x10000) (x.record (List.replicate 48 0x3F000000) (List.replicate 16 0) []) } }

def impP : Packet := big 32 1 2 [(16, 1, 2), (17, 1, 0), (24, 8, 0), (32, 8, 0x20000), (40, 8, 0x6000)]

def impUp : State := { mem1 with stores := { mem1.stores with tier2 := Mem.writeBytes [] 4 (toLe 4 str1.recordBytes) } }

/-- STATE_IMPORT: what openBlob answers rests on the signature primitive; the other hypotheses meet at the record of `str1`. -/
theorem witness_Streams :
    (let s := ask mem1 strP 0x500
     s.takes strP 0x500 (fl strP 0x500) ten = true ∧ streamStartChecks ten strP s = none ∧ s.homeState str1 = 1 ∧ s.homeCore str1 = some 0 ∧ s.coreOut 0 = false ∧
      (match s.vecWords 1 0 (Packet.desc strP 64), s.vecWords 1 0 (Packet.desc strP 112) with
       | .ok a, .ok b => decide (a.1.length = 48) && b.1.isEmpty
       | _, _ => false) = true ∧ s.stream? 0 = none) ∧
    (let s := ask impUp impP 0x506
     let r := str1.record (List.replicate 48 0x3F000000) (List.replicate 16 0) []
     s.takes impP 0x506 (fl impP 0x506) ten = true ∧ stateImportChecks ten impP s = none ∧ importOk (importStream impP s r) r = true ∧ s.homeCheck (importStream impP s r) = none ∧
      (match s.moveSide 1 0 2 0 ⟨1, 240, 240⟩ false with
       | .ok d => s.sideReady d && decide (leNat (s.sideRead 1 0 d 4 4) = str1.recordBytes ∧ d.base + 240 + str1.recordBytes ≤ d.limit)
       | .error _ => false) = true ∧ str1.recordBytes ≤ 262144) ∧
    (goes (strUp str1) (pk 32 1 [(16, 2, 9)]) 0x501 ten (streamOpChecks 18 0 true) = true ∧ str1.queue = [] ∧ str1.paused = false ∧ str1.pauseFlight = none ∧ str1.swapOut = none) ∧
    (goes (strUp { str1 with paused := true }) (pk 32 1 [(16, 2, 9)]) 0x502 ten (streamOpChecks 18 0 false) = true) ∧
    (goes (strUp str1) (pk 32 1 [(16, 2, 9), (18, 1, 1)]) 0x503 ten (streamOpChecks 19 1 true) = true) ∧
    (goes (strUp str1) (pk 32 1 [(16, 2, 9), (18, 1, 3)]) 0x508 ten (streamOpChecks 19 3 true) = true ∧ str1.residency = 0 ∧ str1.home ≠ 2) := by decide +kernel

def chunkP (cseq steps : Nat) : Packet := big 32 1 4 ([(16, 2, 9), (20, 4, cseq), (24, 2, steps)] ++ td 32 (coreTensor 0 0 16 steps 64) ++ td 80 (coreTensor 0 0x1000 16 steps 64))

def exportP : Packet := pk 32 1 [(16, 2, 9), (24, 1, 2), (32, 8, 0x8000)]

def anchorP : Packet := big 32 1 2 ([(16, 2, 9), (24, 8, 5)] ++ td 32 (coreTensor 0 0 16 1 0))

/-- An armed job that holds a CHUNK of stream 9. -/
def feedJob : Job :=
  ⟨0, 1, 100, 100, 0, 1, 0, 320, [⟨0x504, chunkP 0 2⟩], 0, false, 0xFFFF, 0, 0, 0xFFFF, 0, 4, none, none, 0, 0, none, 0, none, none, false⟩

def op9 (p : Packet) (code : Nat) : StreamOp := ⟨.flight 1, code, 0, p, false, false, false, [], 0, 0, false⟩

theorem witness_StreamOperations :
    (goes (strUp str1) (chunkP 0 2) 0x504 ten chunkChecks = true ∧ goes (strUp str1) exportP 0x505 ten stateExportChecks = true ∧ goes (strUp str1) anchorP 0x507 ten reAnchorChecks = true ∧
      str1.nextCseq = 0 ∧ str1.residency ≠ 3 ∧ goes (strUp str1) (chunkP 1 2) 0x504 ten chunkChecks = true ∧ 64 ≤ (List.replicate 64 (op9 (chunkP 0 2) 0x504)).length) ∧
    (let x := { str1 with queue := [op9 (chunkP 0 0) 0x504] }
     (strUp x).stream? 9 = some x ∧ (strUp x).running = true ∧ (strUp x).hearthUp = true ∧ Packet.fld (chunkP 0 0) 24 2 = 0 ∧ x.residency < 2) ∧
    (let x := { str1 with queue := [op9 (chunkP 0 2) 0x504] }
     let s := strUp x
     let p := chunkP 0 2
     0 < Packet.fld p 24 2 ∧ s.chunkRefs 1 p = none ∧ s.partOf 1 = some (0, part0) ∧ s.chunkCore x p = some 0 ∧ s.coreHeld part0.cls 0 = false ∧
      x.agrees (s.ahead.recordRead x false) = true ∧
      (match s.ahead.chunkIn x p 0 with
       | some i => !chunkMeets p i.exts
       | none => false) = true ∧
      (∀ k ∈ [32, 128, 176], let t := Packet.desc p k; t.unused = false → s.windowStopped t (s.windowSpan t) = false ∧ s.windowWaits t (s.windowSpan t) = false) ∧ x.home = 0 ∧ x.homeAddr < 2097152) ∧
    (let x := { str1 with queue := [op9 anchorP 0x507], nextCseq := 1 }
     let s : State := { strUp x with sched := { (strUp x).sched with jobs := [(2, feedJob)] } }
     s.fed 9 = true ∧ ({ str1 with residency := 3 } : Stream).residency = 3) ∧
    (let x := { str1 with queue := [op9 anchorP 0x507] }
     let s := strUp x
     let p := anchorP
     Packet.fld p 24 8 = x.step ∧ s.homeCore x = some 0 ∧ s.anchorWaits x = false ∧ s.windowStopped (Packet.desc p 32) ((Packet.desc p 32).extent 1) = false ∧
      s.windowWaits (Packet.desc p 32) ((Packet.desc p 32).extent 1) = false ∧ (s.vecWords 1 0 (Packet.desc p 32)).isOk = true) ∧
    (let x := { str1 with queue := [op9 exportP 0x505] }
     let s := strUp x
     (match s.moveSide 1 0 2 0x8000 ⟨1, 240 + x.recordBytes, 240 + x.recordBytes⟩ true with
      | .ok d => s.sideReady d
      | .error _ => false) = true ∧ s.procDown 0 = false ∧ s.stores.poison = []) ∧
    (strUp { str1 with queue := [{ op9 (chunkP 0 2) 0x504 with running := true }] }).busyFor (.stream 9) = false := by decide +kernel

/-- SLOT_CONFIG of a CSI-2 slot of RAW8 lines, 4 by 2. -/
def slotP : Packet := big 0 1 2 [(16, 1, 3), (17, 1, 1), (18, 1, 2), (20, 1, 0x2A), (24, 1, 2), (28, 2, 4), (30, 2, 2), (32, 4, 1000000), (44, 2, 1)]

/-- Slot 3 with a configuration, ENABLE set. -/
def slotUp (c : Slot) (f : Option Filling) : State := { mem1 with
  scopes := { mem1.scopes with active := [(scopeKey 3 3 3, 0x3F800000), (scopeKey 3 3 4, 1)] }
  ingest := { mem1.ingest with slots := [(3, ⟨{ c with bufBytes := 4096, granules := 1 }, [⟨0, 0, [], 0, 0, 0⟩, ⟨0, 0, [], 0, 0, 0⟩], f, [], ClockModel.reset, 0, 0, 0, [0, 0, 0, 0, 0], [0, 0, 0, 0, 0, 0], 0, 0, [], some 64, 2, 0, 0, 0⟩)] } }

def csiC : Slot := slotOf slotP
def spiC : Slot := { csiC with iface := 3, port := 0, dt := 0, w := 6, h := 0, trig := 255, spiCmdLen := 1, spiCmd := [0x80], spiDiv := 9 }
def gpioC : Slot := { csiC with iface := 4, port := 5, sub := 1, dt := 0, w := 0, h := 0 }
def tdmC : Slot := { csiC with iface := 2, port := 1, sub := 0, dt := 16, w := 2, h := 4 }
def ethC : Slot := { csiC with iface := 5, port := 0, sub := 0, dt := 0, w := 4, h := 0, mac := 0x112233445566, vlan := 0xFFFF }

def fill0 : Filling := ⟨some 0, 5200000, 0, 0, 0, [], none, false, none, false, 0, 0, 1, []⟩

/-- The same with its ring at 10000h of tier 2. -/
def slotT2P : Packet := big 0 1 2 [(16, 1, 3), (17, 1, 1), (18, 1, 2), (20, 1, 0x2A), (23, 1, 1), (24, 1, 2), (28, 2, 4), (30, 2, 2), (32, 4, 1000000), (44, 2, 1), (64, 8, 0x10000)]

def gridP : Packet := big 32 1 2 [(16, 1, 255), (17, 1, 2), (18, 2, 4), (20, 2, 8), (22, 2, 8), (24, 2, 8), (28, 4, 0x3D800000), (48, 8, 0), (56, 8, 0x10000), (64, 1, 8)]

theorem witness_SlotsAndGrids :
    (let s := ask mem1 slotP 0x700
     goes mem1 slotP 0x700 opr slotConfigChecks = true ∧ (slotOf slotP).iface ≠ 0 ∧ (slotOf slotP).place = 0 ∧ s.ringUsed 0 3 + (slotOf slotP).granules ≤ ringSpace 0) ∧
    (let v := (ask mem1 slotT2P 0x700).dropSlot 3
     let x := slotOf slotT2P
     goes mem1 slotT2P 0x700 opr slotConfigChecks = true ∧ x.iface ≠ 0 ∧ x.place = 1 ∧ v.t2Freeing x.ringCtx x.ringAddr x.ringBytes = false ∧
      v.t2Mapped x.ringCtx x.ringAddr x.ringBytes = true ∧ v.t2One x.ringCtx x.ringAddr x.ringBytes = true ∧ v.t2Writable x.ringCtx x.ringAddr x.ringBytes = true) ∧
    (let p := big 0 1 2 [(16, 1, 3), (17, 1, 0)]
     goes mem1 p 0x700 opr slotConfigChecks = true ∧ (slotOf p).iface = 0) ∧
    (let p := pk 0 1 [(16, 1, 3), (18, 2, 2), (20, 2, 2), (24, 8, 0x4000)]
     goes mem1 p 0x701 opr calibWriteChecks = true ∧ 0 < Packet.fld p 20 2) ∧
    (let p := pk 32 1 [(16, 1, 3), (17, 1, 2), (18, 1, 2), (24, 8, 0x4000)]
     goes mem1 p 0x705 ten streamHealthChecks = true ∧ (match (ask mem1 p 0x705).moveSide 1 0 2 0x4000 ⟨1, 128, 128⟩ true with
      | .ok d => (ask mem1 p 0x705).sideReady d
      | .error _ => false) = true ∧ 0 < Packet.fld p 17 1) ∧
    (goes mem1 gridP 0x702 ten gridCreateChecks = true ∧ Packet.fld gridP 16 1 = 255 ∧ (ask mem1 gridP 0x702).grid? 3 = none) ∧
    (let p := pk 32 1 [(16, 1, 3)]
     let s : State := { mem1 with ingest := { mem1.ingest with grids := [(3, ⟨1, 2, 4, 8, 8, 8, 0, 0x10000, 0, none, []⟩)] } }
     goes s p 0x703 ten gridDestroyChecks = true ∧ (ask s p 0x703).projecting 3 = false) := by decide +kernel

theorem witness_SamplesMeetNoSlot :
    (slotUp csiC none).csiSlot 0 3 0 = none ∧ (slotUp csiC none).ingest.slots.find? (fun kv => decide (kv.2.cfg.iface = 5 ∧ kv.2.cfg.port = 0 ∧ kv.2.cfg.mac = 1 ∧ kv.2.cfg.vlan = 0)) = none ∧
    (slotUp csiC (some fill0)).csiSlot 0 2 0 ≠ none ∧ ((slotUp csiC (some fill0)).slot? 3).map (·.drops.length) = some 5 ∧
    ((slotUp { ethC with place := 1 } none).fifoBytes 0 + 0 + 4 ≤ 1048576 ∧ (slotUp ethC none).vecLen 3 ≤ 256) := by decide +kernel

theorem witness_SamplesStart :
    (∀ c ∈ [csiC, spiC, gpioC, ethC], let s := slotUp c none
      s.slotOn 3 = true ∧ s.controlReady = true ∧ s.portUp 0 = true ∧ s.ingest.csiPorts.get? 3 = none ∧ 3 / 48 < ioDies s.order ∧ Tab.wf s.ingest.slots = true ∧ (match s.slot? 3 with
        | some t => decide (t.takeBuf = some 0 ∧ t.filling = none ∧ t.bufs[0]? = some ⟨0, 0, [], 0, 0, 0⟩ ∧ t.cfg.place = 0)
        | none => false) = true) ∧
    ((slotUp csiC none).csiSlot 0 2 0).isSome = true ∧ (spiC.iface = 3 ∧ spiC.trig = 255) ∧ (gpioC.iface = 4 ∧ gpioC.port = 5 ∧ bit gpioC.sub 0 = true) ∧
    (ethC.iface = 5 ∧ ethC.port = 0 ∧ ethC.mac = 0x112233445566 ∧ ethC.vlan = 0xFFFF ∧ ethC.w ≤ (List.replicate 4 (7 : Byte)).length) ∧
    (let s : State := { slotUp csiC none with ingest := { (slotUp csiC none).ingest with csiPorts := [(3, ⟨true, 4⟩)] } }
     s.ingest.csiPorts.get? 3 = some ⟨true, 4⟩ ∧ (⟨true, 4⟩ : PortClass) ≠ ⟨true, 2⟩) ∧
    (let t : SlotState := ⟨csiC, [⟨1, 1, [], 0, 0, 0⟩], none, [], ClockModel.reset, 0, 0, 0, [0, 0, 0, 0, 0], [0, 0, 0, 0, 0, 0], 0, 0, [], none, 0, 0, 0, 0⟩
     t.takeBuf = none) := by decide +kernel

theorem witness_SamplesFillAndBecomeReady :
    (let t := ((slotUp csiC (some fill0)).slot? 3)
     t.isSome = true ∧ fill0.buf = some 0 ∧ fill0.bad = none ∧ csiC.place = 0 ∧ ((slotUp csiC (some fill0)).csiSlot 0 2 0).isSome = true ∧ csiC.iface = 1 ∧ csiC.fmt = 0 ∧
       (csiChannels csiC.dt).isSome = true ∧ csiC.dt ≠ 0x12 ∧ (List.replicate 4 (9 : Byte)).length = csiLineBytes csiC.dt csiC.w ∧ fill0.lines < csiC.h ∧ 0 < csiC.w ∧
       64 + fill0.size + 4 * 4 * 1 * 4 / max 1 (csiLineBytes csiC.dt csiC.w) ≤ 4096) ∧
    ({ fill0 with lines := 2 } : Filling).lines = csiC.h ∧
    (let s := slotUp tdmC (some fill0)
     Tab.wf s.ingest.slots = true ∧ s.controlReady = true ∧ tdmC.iface = 2 ∧ tdmC.port = 1 ∧ tdmC.fmt = 0 ∧ fill0.lines + 1 < tdmC.h ∧ (∀ kv ∈ s.ingest.slots, kv.1 = 3) ∧
       (match s.slot? 3 with
        | some t => decide (2 ≤ t.tdmSeen ∧ t.tdmLen = some 64)
        | none => false) = true) ∧
    (∀ place ∈ [0, 1], let s := slotUp { spiC with place := place } (some fill0)
      spiC.iface = 3 ∧ s.vecLen 3 ≤ 256 ∧ Tab.wf s.ingest.slots = true ∧ s.fifoBytes 0 + (4 * s.vecLen 3 + spiC.w) ≤ 1048576 ∧ (s.slot? 3).isSome = true) ∧
    ((List.replicate 3 (9 : Byte)).length ≠ csiLineBytes csiC.dt csiC.w ∧ ({ fill0 with lines := 2 } : Filling).lines = csiC.h ∧ fill0.embedded = false ∧ (0x2B ≠ csiC.dt ∧ 0x2B ≠ 0x12) ∧
      fill0.lines ≠ csiC.h) ∧
    (let s := slotUp tdmC (some { fill0 with lines := 3 })
     fill0.lines + 3 + 1 = tdmC.h ∧ (match s.slot? 3 with
        | some t => decide (2 ≤ t.tdmSeen ∧ t.tdmLen ≠ some 60)
        | none => false) = true) ∧
    (let s := slotUp csiC none
     s.running = true ∧ s.power.applied < 3 ∧ s.sched.jobs = [] ∧ ([⟨none, 0, 0, 0, 0, [], none, false, none, false, 0, 0, 1, []⟩].dropWhile (fun (y : Filling) => y.buf.isNone) = []) ∧ (match s.slot? 3 with
      | some t => decide (t.filling = none ∧ ({ t with waiting := [{ fill0 with lines := 2 }] } : SlotState).waiting = { fill0 with lines := 2 } :: [] ∧ fill0.fifo = [] ∧ 0 < t.bufs.length)
      | none => false) = true) := by decide +kernel

/-- A projection of one align entry, of slot 3 and its vector of two values. -/
def projP : Packet := big 32 1 2 ([(16, 1, 3), (18, 1, 1), (21, 1, 1), (24, 8, 5200000), (32, 8, 0x4000), (64, 1, 3), (65, 1, 1)] ++ td 72 (coreTensor 0 0x2000 2 1 0))

theorem witness_ProjectionIsPlaced :
    (let s := slotUp spiC none
     let s : State := { s with scopes := { s.scopes with active := [(scopeKey 3 3 3, 0x3F800000), (scopeKey 3 3 4, 1), (scopeKey 3 3 5, 2)] },
                               ingest := { s.ingest with grids := [(3, ⟨1, 2, 4, 8, 8, 8, 0, 0x10000, 0, none, []⟩)] } }
     runs s projP 0x704 compGrid) = true := by decide +kernel

/-- `mem1` with another context that has no partition, and a model in each of the first two states. -/
def two : State := { mem1 with sched := { mem1.sched with
  contexts := [(1, ctx1), (2, ctx1)]
  models := [(0, ⟨1, 0, 8, 65536, 0, 1, 0, 0, false, 0, some 1, true, []⟩), (1, ⟨1, 1, 9, 65536, 0, 1, 0, 0, true, 0, none, false, []⟩)] } }

theorem witness_ContextsAndPartitionsBegin :
    (goes two (pk 0 0xFFFF [(16, 2, 0xFFFF), (18, 1, 0)]) 0xA00 opr ctxCreateChecks = true ∧ two.ctx? 255 = none) ∧
    (let p := pk 0 2 [(16, 1, 0xFF), (17, 1, 1), (20, 2, 4), (22, 2, 1), (36, 4, 3)]
     goes two p 0xA02 opr partitionCreateChecks = true ∧ two.sched.partitions.get? 15 = none ∧ Packet.fld p 17 1 ≠ 0) := by decide +kernel

/-- Partition 0 in Quench, with edges to count, or a tier-2 part under way. -/
def quenchUp (edges : Nat) (t2 : Option Nat) : State := { run1 with sched := { run1.sched with
  partitions := [(0, { part0 with state := 3, quenchStarted := true, quenchEdges := edges, tier2End := t2 })] } }

theorem witness_ContextsAndPartitionsEnd :
    (let p := pk 0 0xFFFF [(16, 1, 0)]
     let s := ask run1 p 0xA03
     goes run1 p 0xA03 opr partitionReleaseChecks = true ∧ s.sched.partitions.get? 0 = some part0 ∧ s.tiers.bellows = [] ∧ s.apps.lattices = [] ∧
       (∀ g ∈ s.proto.flights, g.opcode ≠ 0x802 ∧ g.opcode ≠ 0x803) ∧ s.apps.streams = [] ∧ part0.qpMask = 0) ∧
    ((quenchUp 0 none).sched.partitions.get? 0 = some { part0 with state := 3, quenchStarted := true, quenchEdges := 0, tier2End := none }) ∧
    ((quenchUp 1 none).sched.partitions.get? 0 = some { part0 with state := 3, quenchStarted := true, quenchEdges := 1, tier2End := none }) ∧
    (let s := quenchUp 1 (some 6000000)
     s.sched.partitions.find? (fun kv => decide (kv.2.state = 3) && kv.2.tier2End.isSome) = some (0, { part0 with state := 3, quenchStarted := true, quenchEdges := 1, tier2End := some 6000000 }) ∧
       s.quenchHeld { part0 with state := 3, quenchStarted := true, quenchEdges := 1, tier2End := some 6000000 } = false ∧ ({ s with tiers := mem1.tiers } : State).framesOf 1 ≠ [] ∧ s.quenchSlots ≠ [] ∧
       ({ s with power := { s.power with level := 3 } } : State).quenchHeld { part0 with state := 3, quenchStarted := true, quenchEdges := 1, tier2End := some 6000000 } = true) ∧
    run1.sched.partitions.find? (fun kv => decide (kv.2.state = 3) && kv.2.tier2End.isSome) = none ∧
    (let p := pk 0 0xFFFF [(16, 2, 2)]
     let s := ask two p 0xA01
     goes two p 0xA01 opr ctxDestroyChecks = true ∧ (∀ g ∈ s.proto.flights, g = fl p 0xA01) ∧ Tab.wf s.sched.contexts = true ∧ s.apps.streams = [] ∧ s.kv.seqs = [] ∧ s.ingest.grids = [] ∧
       s.apps.lattices = [] ∧ s.apps.maps = [] ∧ (∀ kv ∈ s.proto.queues, kv.2.bindCtx ≠ some 2 ∧ kv.2.closing = none) ∧ s.partOf 2 = none ∧ (∀ a ∈ s.tiers.allocs, a.ctx ≠ 2) ∧
       (∀ kv ∈ s.tiers.regions, kv.2.ctx ≠ 2)) := by decide +kernel

/-- Context 1 with two generations, and page 0 of sequence 5 swapped out under generation 1. -/
def keysUp (swapped : Bool) : State := { mem1 with
  sched := { mem1.sched with contexts := [(1, { ctx1 with gens := [⟨1, []⟩, ⟨1, []⟩, ⟨0, []⟩, ⟨0, []⟩] })] }
  kv := { mem1.kv with seqs := if swapped then [(5, { seq1 with pages := [(0, ⟨3, 11, 1, 1, 0, 0, 5, false⟩)] })] else [] } }

/-- Generation 1 is RETIRED. -/
def retiredUp : State := { mem1 with sched := { mem1.sched with contexts := [(1, { ctx1 with gens := [⟨1, []⟩, ⟨2, []⟩, ⟨0, []⟩, ⟨0, []⟩] })] } }

/-- With `length_keyRecord`: the records of KEY_STATUS and ACCOUNT_READ have their place. -/
theorem witness_KeysAndRecords :
    (goes (keysUp false) (pk 32 1 []) 0xC00 ten keyRotateChecks = true ∧
      ([⟨1, []⟩, ⟨1, []⟩, ⟨0, []⟩, ⟨0, []⟩] : List KeyGen).findIdx? (fun g => decide (g.state = 0)) = some 2) ∧
    (∀ g ∈ [0, 1, 2], ∀ force ∈ [0, 1], ∀ b ∈ [true, false], goes (keysUp b) (pk 32 1 [(16, 1, g), (17, 1, force)]) 0xC01 ten retireKeyChecks = true) ∧
    ((keysUp true).genCount 1 1 = 1 ∧ (keysUp false).genCount 1 1 = 0) ∧
    (let p := pk 32 1 [(16, 1, 2), (24, 8, 0x4000)]
     (∀ code ∈ [0xC02, 0xA09], (ask mem1 p code).takes p code (fl p code) ten = true) ∧ keyStatusChecks ten p (ask mem1 p 0xC02) = none ∧ accountReadChecks ten p (ask mem1 p 0xA09) = none ∧ Packet.fld p 16 1 = 2 ∧
       (∀ n ∈ [256, (mem1.accountRecord ctx1.acct .tenant).length], (match mem1.moveSide 1 0 2 0x4000 ⟨1, n, n⟩ true with
        | .ok d => mem1.sideReady d
        | .error _ => false) = true)) ∧
    (let s := retiredUp
     goes s (pk 32 1 [(16, 1, 1)]) 0xC01 ten retireKeyChecks = true ∧ (s.ctx? 1).map (fun x => ((x.gens.getD 1 ⟨0, []⟩).state, x.current)) = some (2, 0)) := by decide +kernel

/-- MODEL_LOAD_DONE with the flight of a MODEL_PIN (the other form rests on the image's objects, which are an opaque of Config). -/
theorem witness_ModelsLoadAndPin :
    (let p := pk 0 1 [(16, 1, 1), (17, 1, 2), (24, 8, 0), (32, 8, 65536)]
     let s := ask two p 0xA06
     goes two p 0xA06 opr modelRegisterChecks = true ∧ s.underCeiling 1 1 = true ∧ s.pagesAhead 1 = false ∧ s.t2Room (halvesOf 2 1) Halves.zero = true ∧ s.placesFor 1 1 ≠ [] ∧
       s.sched.models.get? 63 = none) ∧
    (let p := pk 0 1 [(16, 2, 0), (18, 1, 1)]
     let s := ask two p 0xA07
     s.hearthUp = true ∧ (match s.sched.models.get? 0 with
       | some m => decide (m.state = 0 ∧ m.flight = some 1) && s.sourceReady m && !s.sharedIdle m.ctx
       | none => false) = true ∧ s.flight? 1 = some (fl p 0xA07) ∧ (fl p 0xA07).opcode ≠ 0xA06) ∧
    (let p := pk 0 1 [(16, 2, 1), (18, 1, 1)]
     goes two p 0xA07 opr modelPinChecks = true ∧ goes two (pk 0 1 [(16, 2, 1)]) 0xA08 opr modelUnpinChecks = true ∧ (match two.sched.models.get? 1 with
       | some m => decide (m.state = 1) && m.pinned
       | none => false) = true) := by decide +kernel

/-- A lattice of three dimensions, one class and one primitive, without voxels. -/
def latBytes : List Byte :=
  toLe 2 1 ++ [3, 1] ++ toLe 2 1 ++ [0xFF, 0] ++ toLe 4 0 ++ toLe 4 352 ++ ((List.replicate 3 (toLe 2 0 ++ toLe 2 9 ++ zeros 4)).flatten) ++ zeros 40 ++ zeros 32 ++
    toLe 4 0 ++ toLe 4 256 ++ toLe 4 320 ++ toLe 4 256 ++ zeros 128 ++ (toLe 2 0 ++ toLe 2 1 ++ zeros 12) ++ zeros 48 ++ (zeros 4 ++ toLe 4 0x3F800000 ++ toLe 2 1 ++ zeros 22)

def latUp : State := { mem1 with stores := { mem1.stores with tier2 := Mem.writeBytes mem1.stores.tier2 0x2000 latBytes } }

def latP : Packet := pk 32 1 [(16, 8, 0x2000), (24, 1, 0), (25, 1, 0), (26, 1, 1), (28, 4, 0x8000), (32, 4, 4096), (36, 2, 6), (38, 2, 0xFFFF), (40, 2, 16)]

def lat1 : Lattice := latticeOf latP 0 (latUp.t2Reader 1 0x2000)

def mapP : Packet := pk 32 1 [(16, 1, 2), (18, 2, 1), (20, 1, 1), (21, 1, 1), (22, 1, 1), (24, 4, 0x3D800000), (40, 8, 0x10000)]

/-- The lattice loaded and the map published, with limits of 1.0 in core 0's store. -/
def planUp : State := { latUp with
  tiers := { latUp.tiers with regions := latUp.tiers.regions ++ [(7, ⟨1, false, 0, 65536, false, 0, 0, none⟩)] }
  apps := { latUp.apps with lattices := [(9, lat1)], maps := [(2, { publishedMap mapP with epochs := [⟨0, 0x10000⟩], next := 1 })] }
  stores := { latUp.stores with core := Mem.writeBytes [] (coreKey 0 0x400) ((List.replicate 48 (toLe 4 0x3F800000)).flatten) } }

def searchP : Packet := big 32 1 3 ([(16, 2, 9), (18, 1, 2), (48, 2, 3), (64, 2, 7), (68, 4, 0x8000), (72, 4, 4096), (80, 8, 0x4000)] ++ td 96 (coreTensor 0 0x400 6 3 64))

theorem witness_PlanningCommands :
    (let s := ask latUp latP 0x900
     s.takes latP 0x900 (fl latP 0x900) ten = true ∧ latFields latP = true ∧ s.partOf 1 = some (0, part0) ∧ part0.state = 1 ∧ s.latStatus latP 0 part0 (s.t2Reader 1 0x2000) = none ∧
       part0.cores lat1.firstCore lat1.ncores = some [0] ∧ s.coreHeld part0.cls 0 = false ∧ s.apps.lattices.get? 65535 = none) ∧
    (goes latUp mapP 0x901 ten mapPublishChecks = true ∧ latUp.apps.maps.get? 2 = none) ∧
    (∀ fl ∈ [0, 1, 2, 3], goes planUp (pk 32 1 [(16, 2, 9), (18, 1, fl)]) 0x903 ten planAbortChecks = true) ∧ (planUp.lattice? 9 = some lat1 ∧ lat1.search = none) ∧
    (let s := ask planUp searchP 0x902
     s.takes searchP 0x902 (fl searchP 0x902) ten = true ∧ searchFields searchP = true ∧ s.partOf 1 = some (0, part0) ∧ s.ahead.searchStatus searchP 0 part0 = none ∧ s.ahead.poisonHit 1 0 (Packet.desc searchP 96) ((Packet.desc searchP 96).extent 1) = none ∧ s.unitBusy lat1.cluster = false ∧
       part0.cores lat1.firstCore lat1.ncores = some [0] ∧ s.coreHeld part0.cls 0 = false ∧ s.windowWaits (Packet.desc searchP 96) ((Packet.desc searchP 96).extent 1) = false ∧
       reachedAt (s.dueBy (.flight 1) (Packet.fld searchP 24 8)) s.clock.now = false ∧ s.flight? 1 = some (fl searchP 0x902)) := by decide +kernel

/-- A job image of one TILE_MOVE. -/
def jobBytes : List Byte :=
  let b := packetBytes 0x300 tileP
  toLe 2 1 ++ [1, 0] ++ toLe 4 (64 + b.length) ++ toLe 4 10000 ++ toLe 4 1000 ++ toLe 8 0 ++ toLe 2 1 ++ [0, 0] ++ toLe 4 (crc32 b) ++ zeros 32 ++ b

/-- The control partition of core 0. -/
def ctlPart : Partition := { part0 with cls := 0 }

def ctlUp (js : Tab Job) : State := { mem1 with
  sched := { mem1.sched with partitions := [(0, ctlPart)], jobs := js }
  stores := { mem1.stores with tier2 := Mem.writeBytes mem1.stores.tier2 0x2000 jobBytes } }

def armP : Packet := pk 0 1 [(16, 8, 0x2000), (24, 1, 0), (48, 2, 6), (52, 4, 0x100)]

/-- The armed job, with a trigger and a firing. -/
def job1 (trig : Nat) (g : Option Firing) : Job := ⟨0, 1, 10000, 1000, 0, 1, 0, 128, [], trig, false, 0, 100, 8, 6, 0x100, 4, none, none, 0, 6, none, 0, g, none, false⟩

def firing1 : Firing := ⟨5, 5000000, 5001000, 0, 0, 0, false, 0, 0, [], []⟩

theorem witness_JobsAndFirings :
    (let s := ask (ctlUp []) armP 0xA04
     goes (ctlUp []) armP 0xA04 opr jobArmChecks = true ∧ s.partOf 1 = some (0, ctlPart) ∧ s.sched.jobs.get? 63 = none ∧ 5 ≤ s.fw.bootStage) ∧
    (let s := ask { ctlUp [] with fw := { (ctlUp []).fw with bootStage := 4 } } armP 0xA04
     s.takes armP 0xA04 (fl armP 0xA04) opr = true ∧ s.fw.bootStage < 5 ∧ s.flight? 1 = some (fl armP 0xA04)) ∧
    (let p := pk 0 1 [(16, 1, 7)]
     goes (ctlUp [(7, job1 0 none)]) p 0xA05 opr jobDisarmChecks = true ∧ (ctlUp [(7, job1 0 none)]).sched.jobs.get? 7 = some (job1 0 none)) ∧
    (∀ b ∈ [true, false], let s := ctlUp [(7, job1 0 (some { firing1 with missKnown := b }))]
      s.running = true ∧ s.sched.jobs.get? 7 = some (job1 0 (some { firing1 with missKnown := b })) ∧ s.sched.partitions.get? 0 = some ctlPart ∧
        (job1 0 (some firing1)).packets.length ≤ firing1.next ∧ s.firingBusy 7 = false ∧ s.successors 7 = [] ∧ (job1 0 none).pair = false) ∧
    ((job1 1 none).live (ctlUp []).frameNo = true ∧ (job1 1 none).firedFrame ≠ some (ctlUp []).frameNo) := by decide +kernel

/-- The edge clauses: the job waits for the edge that arms it, or for the one that ends it, or its firing is under way. -/
theorem witness_JobsAtTheEdge :
    (let j := { job1 0 none with armFlight := some 1 }
     let s := ask (ctlUp [(7, j)]) armP 0xA04
     s.sched.jobs.get? 7 = some j ∧ s.flight? 1 = some (fl armP 0xA04) ∧ Tab.wf s.sched.jobs = true ∧ (∀ kv ∈ s.sched.jobs, kv.2.armFlight = some 1 → kv.1 = 7)) ∧
    (∀ g ∈ [none, some firing1], let p := pk 0 1 [(16, 1, 7)]
     let j := { job1 0 g with disarm := some 1, disarmFrame := 0 }
     let s := ask (ctlUp [(7, j)]) p 0xA05
     s.sched.jobs.get? 7 = some j ∧ s.flight? 1 = some (fl p 0xA05) ∧ Tab.wf s.sched.jobs = true ∧ (∀ kv ∈ s.sched.jobs, kv.2.disarm = some 1 → kv.1 = 7) ∧ j.disarmFrame ≤ s.frameNo) ∧
    ((job1 0 none).live (ctlUp []).frameNo = true ∧ ({ job1 1 none with firedFrame := some (ctlUp []).frameNo } : Job).firedFrame = some (ctlUp []).frameNo) ∧
    (ctlUp [(7, { job1 0 (some firing1) with packets := [⟨0x300, tileP⟩] })]).firingBusy 7 = false := by decide +kernel

/-- Bank A runs release 5; bank B holds release 6, staged; an activation stands or not. -/
def fwUp (a : Option Activation) : State := { up with fw := { up.fw with
  bankA := ⟨2, 5, 1, true, []⟩, bankB := ⟨1, 6, 2, true, []⟩, activeRelease := 5, activation := a, stageNext := some 64 } }

def act (st since : Nat) : Activation := ⟨some 1, 6, st, since, 0, 0, false⟩

/-- FW_STAGE: that a bundle passes its checks rests on the signature primitive. -/
theorem witness_FirmwareCommands :
    (let p := { big 0 0xFFFF 2 [(16, 4, 64), (20, 4, 64), (64, 8, 1)] with path := .owner 0 }
     goes (fwUp none) p 0xB00 ⟨.owner, 0, some 0⟩ fwStageChecks = true ∧ 0 < Packet.fld p 20 4 ∧ bit (Packet.fld p 24 1) 1 = false) ∧
    (let p := { big 0 0xFFFF 2 [(16, 4, 64), (20, 4, 64), (24, 1, 2)] with path := .owner 0 }
     goes (fwUp none) p 0xB00 ⟨.owner, 0, some 0⟩ fwStageChecks = true ∧ 0 < Packet.fld p 20 4 ∧ bit (Packet.fld p 24 1) 1 = true) ∧
    (let p := pk 0 0xFFFF [(16, 4, 6)]
     goes (fwUp none) p 0xB01 opr activateChecks = true ∧ (fwUp none).power.level = 0 ∧ (fwUp none).deferEnd ≤ (fwUp none).clock.now) ∧
    (let p := pk 0 0xFFFF [(16, 4, 6)]
     let s : State := { fwUp none with power := { up.power with level := 1 } }
     goes s p 0xB01 opr activateChecks = true ∧ 0 < s.power.level) ∧
    (∀ k ∈ [0, 1], goes (fwUp none) (pk 0 0xFFFF [(16, 1, k)]) 0xB02 opr fwStatusChecks = true) := by decide +kernel

/-- At start-up stage `n`. -/
def bootUp (n : Nat) (wait : Bool) : State := { State.reset with fw := { (Firmware.reset deliveredBank ⟨0, 0, 0, false, []⟩ false) with powered := true, bootStage := n, unlockWait := wait } }

theorem witness_FirmwareSwitchesAndRestarts :
    (up.running = true ∧ (fwUp (some (act 2 4000000))).switchDue = some (act 2 4000000) ∧ (fwUp none).switchDue = none) ∧
    ((fwUp (some (act 3 4000000))).fw.activation = some (act 3 4000000) ∧ (act 3 4000000).failed = false) ∧
    (let s : State := { fwUp (some (act 1 4000000)) with power := { up.power with level := 1 } }
     s.fw.activation = some (act 1 4000000) ∧ 0 < s.power.level) ∧
    (let s := ask (fwUp (some (act 2 4000000))) (pk 0 0xFFFF []) 0xB01
     s.fw.activation = some (act 2 4000000) ∧ (act 2 4000000).flight = some 1 ∧ (s.flight? 1).isSome = true) ∧
    (∀ pr ∈ [Proc.sec, .temper, .hearth, .ccc 7], up.procDown (Proc.code pr) = false ∧ up.started (Proc.code pr) = true ∧ (bootUp 1 false).started (Proc.code .hearth) = false) ∧
    (let s : State := { up with fw := { up.fw with procs := [(0, { Processor.reset with restarting := true }), (2, { Processor.reset with restarting := true }), (15, { Processor.reset with restarting := true })] } }
     s.restarting (8 + 7) = true ∧ s.restarting 0 = true ∧ s.restarting 2 = true ∧ s.switching = false ∧ s.restarting (Proc.code .temper) = false) ∧
    (({ up with fw := { up.fw with procs := [(1, { Processor.reset with restarting := true })] } } : State).restarting 1 = true) ∧
    (match up.func? 0 with
     | some g => g.session.isSome
     | none => false) = true := by decide +kernel

/-- That a bank passes SEC's checks rests on the bundle and signature primitives; that one fails them is shown. The serial of a service
certificate is the device's number, an opaque constant: any handshake of that serial meets the first form's hypotheses. -/
theorem witness_StartUpAndTestPort :
    (let s : State := { State.reset with power := { State.reset.power with railsOn := true } }
     s.power.railsOn = true ∧ s.power.pwrGood = false) ∧
    (∀ n ∈ [1, 2, 3, 4], ∀ w ∈ [true, false], (bootUp n w).fw.powered = true ∧ (bootUp n w).fw.fatal = false ∧ (bootUp n w).fw.bootStage = n ∧ (bootUp n w).fw.unlockWait = w ∧ (bootUp n w).pinsHeld = false) ∧
    ((bootUp 2 false).clock.running = false ∧ ({ bootUp 2 false with clock := up.clock } : State).clock.running = true) ∧
    ((bootUp 1 false).bankPasses true = false) ∧
    ((bootUp 3 false).fw.ufsFailed = false ∧ ({ (bootUp 3 false).fw with ufsFailed := true } : Firmware).ufsFailed = true) ∧
    (let s : State := { bootUp 1 true with sec := fusedUp.sec }
     (∀ serial, Handshake.sound { goodHs with serial := serial } = true ∧ s.addressed { goodHs with serial := serial } = true) ∧
       (∃ d, d = s.sec.fuses.serviceAnchor ∧ ({ goodHs with chainDigest := d } : Handshake).chainDigest = s.sec.fuses.serviceAnchor) ∧
       Handshake.sound { goodHs with psk := true } = false ∧ s.addressed { goodHs with dest := [] } = false) ∧
    up.fw.testModes = false ∧ (let s : State := { bootUp 1 false with pins := { State.reset.pins with testEn := true, jtag := some .clamp } }
      (s.fw.powered && s.pins.testEn && decide (s.fw.bootStage = 1)) = true ∧ s.pins.jtag = some .clamp) ∧ (up.fw.powered && up.pins.testEn && decide (up.fw.bootStage = 1)) = false := by
  refine ⟨by decide +kernel, by decide +kernel, by decide +kernel, by decide +kernel, by decide +kernel, ⟨fun _ => ⟨rfl, rfl⟩, ⟨_, rfl, rfl⟩, by decide +kernel, by decide +kernel⟩, by decide +kernel, by decide +kernel, by decide +kernel⟩

theorem witness_ReportsAreAnswered :
    (∀ k ∈ [0, 1, 2], goes up (pk 0 0xFFFF [(16, 1, k)]) 0xD00 opr powerReadChecks = true) ∧ goes up (own [(16, 1, 6)]) 0xD00 ⟨.owner, 0, some 0⟩ powerReadChecks = true ∧
    goes up (own []) 0xE01 ⟨.owner, 0, some 0⟩ errorCountsChecks = true ∧
    (let p := pk 0 1 [(16, 1, 2), (24, 8, 0x4000)]
     goes mem1 p 0xE01 opr errorCountsChecks = true ∧ (match mem1.moveSide 1 0 2 0x4000 ⟨1, mem1.countsRecord.length, mem1.countsRecord.length⟩ true with
        | .ok d => mem1.sideReady d
        | .error _ => false) = true) ∧
    (goes up (own []) 0xE00 ⟨.owner, 0, some 0⟩ noChecks = true ∧ shortOk (own []) 16 = true) := by decide +kernel

/-- `up` with a supply of `mv`, its rails on, and what else. -/
def volts (mv : Nat) (on trip : Bool) : State := { up with power := { up.power with vin := mv, railsOn := on, tripped := trip } }

theorem witness_SupplyAndLevels :
    ((volts 48000 true false).power.railsOn = true ∧ 80000 < (volts 80001 true false).power.vin ∧ (volts 23999 true false).power.vin < 24000) ∧
    ((volts 26001 false false).power.railsOn = false ∧ 26000 < (volts 26001 false false).power.vin ∧ up.power.resetIn = false ∧ (volts 26001 false true).power.tripped = true) ∧
    ({ up.power with resetIn := true } : Power).resetIn = true ∧ (volts 27999 true false).power.vin < 28000 ∧
    (let s : State := { up with power := { up.power with railsOn := true, level := 1, causes := [(0, ⟨1, false, 5100000⟩)] } }
     s.running = true ∧ s.power.railsOn = true ∧ s.holdEnd = some 55100000) ∧
    (let s : State := { up with power := { up.power with railsOn := true, causes := [(0, ⟨1, true, 0⟩), (1, ⟨1, true, 0⟩), (2, ⟨2, true, 0⟩), (3, ⟨3, true, 0⟩)] } }
     ∀ x ∈ [(0, 61000), (1, 35000), (2, 32000), (3, 29000)], (match s.power.causes.get? x.1 with
       | some c => c.stands
       | none => false) = true ∧ x.2 ≤ 90000) := by decide +kernel

/-- `run1` with every step of the clocks below 1 GHz taken to meet the cap. -/
def capUp : State := { run1 with power := { run1.power with clusters := run1.power.clusters.mapVals (fun _ (c : ClusterPower) => { c with capSteps := 12 }) } }

theorem witness_CapAndTemperature :
    (capUp.running = true ∧ capUp.temperUp = true ∧ (∀ kv ∈ capUp.power.clusters, 12 ≤ kv.2.capSteps ∧ kv.2.boost = false) ∧ capUp.power.excursion = none ∧ capUp.effectiveCap * 1000 < 160001 ∧
      (∃ kv ∈ capUp.power.clusters, kv.2.capGated = false ∧ capUp.gateable kv.1 = true) ∧ capUp.partClass 0 ≠ 0) ∧ up.power.applied < 3 ∧
    (up.running = true ∧ up.temperUp = true ∧ up.effectiveCap * 1000 < 160001 ∧ up.power.excursion = none ∧ up.power.applied < 2 ∧ (∀ kv ∈ up.power.clusters, kv.2.boost = false) ∧
      (∃ kv ∈ up.power.clusters, up.controlCluster kv.1 = false ∧ kv.2.capSteps < 12)) ∧
    ({ up.power with excursion := some 5000000 } : Power).excursion = some 5000000 ∧ (up.power.causes = [] ∧ up.power.level = 0 ∧ up.power.throttle = []) ∧
    (let s : State := { up with power := { up.power with throttle := [0] } }
     (match s.power.clusters.get? 3 with
      | some c => decide (c.throttleSteps < 12 ∧ throttles 0 3 = true)
      | none => false) = true ∧ s.controlCluster 3 = false) ∧
    (let s : State := { up with power := { up.power with clusters := up.power.clusters.mapVals (fun _ (c : ClusterPower) => { c with throttleSteps := 1 }) } }
     (match s.power.clusters.get? 3 with
      | some c => decide (0 < c.throttleSteps)
      | none => false) = true) := by decide +kernel

theorem witness_PowerStates :
    (up.temperUp = true ∧ up.clusterBusy 3 = false ∧ up.power.standby = false ∧ (up.power.clusters.get? 3).isSome = true) ∧
    (let s : State := { up with power := { up.power with clusters := up.power.clusters.mapVals (fun _ (c : ClusterPower) => { c with ps := 2 }) } }
     (match s.power.clusters.get? 3 with
      | some c => decide (0 < c.ps)
      | none => false) = true ∧ ({ s with scopes := { s.scopes with active := [(scopeKey 0 0 3, 0)] } } : State).psChoice 3 none < 2 ∧ ({ s with fw := { s.fw with procs := [(1, ⟨true, false, [], 0, []⟩)] } } : State).temperUp = false) ∧ (ctlUp []).controlCluster 0 = true ∧
    (let s := ctlUp [(7, job1 1 none)]
     (∀ kv ∈ s.sched.jobs, (s.sched.partitions.get? kv.2.part).map (·.clusters.contains 0) = some true ∧ s.jobEvents kv.2 ≠ [] ∧ kv.2.trigger ≠ 0 ∧ kv.2.firedFrame ≠ some s.frameNo) ∧
       ({ s.clock with now := 5050000 } : Clock).now < s.clock.frameStart + (job1 1 none).latestUs * 1000 ∧ up.sched.jobs = []) ∧
    (let s : State := { slotUp spiC none with scopes := { (slotUp spiC none).scopes with active := [(scopeKey 3 3 4, 1)] } }
     s.slotOn 3 = true ∧ bit (job1 1 none).slotBits 3 = true ∧ (match s.slot? 3 with
       | some t => !({ t.model with first := false } : ClockModel).first
       | none => false) = true) ∧
    (let s : State := { up with scopes := { up.scopes with active := [(scopeKey 0 0 3, 0x31)] } }
     s.hearthUp = true ∧ (s.reach (s.power.lastActivity + s.activeWord 0 0 4 * 1000000)).standbyOk = true) ∧
    ({ up.power with standby := true } : Power).standby = true := by decide +kernel

/-- A replacement of core 0 of cluster 0 by the spare, core 16. -/
def repl (stage cause : Nat) : Replacement := ⟨0, cause, 0, 0, 16, stage, false, 0⟩

def replUp (stage cause : Nat) (q : Partition) : State := { run1 with
  sched := { run1.sched with partitions := [(0, q)] }
  rel := { run1.rel with replacements := [(0, repl stage cause)], testing := [16] } }

theorem witness_CoresAreFencedAndReplaced :
    (run1.running = true ∧ (∀ core ∈ [0, 5 * 256 + 16], coreExists core = true ∧ run1.rel.fenced.contains core = false ∧ run1.core core = Core.idle ∧ run1.rel.replacements.get? (core / 256) = none) ∧
      run1.causeHolds 0 1 = true ∧ run1.rel.pairTests = [] ∧ run1.placeOf (5 * 256 + 16) = none) ∧
    (run1.placeOf 0 = some (0, 0) ∧ run1.replaces 0 = true ∧ run1.spareFree 0 = true ∧ run1.apps.streams = [] ∧ run1.apps.channels = [] ∧ run1.apps.lattices = []) ∧
    (let s := replUp 0 1 part0
     s.rel.replacements.get? 0 = some (repl 0 1) ∧ s.rel.testing.contains 16 = true ∧ s.cccWorks 0 = true ∧ s.rel.pairTests = [] ∧ s.rel.summaryDue = false ∧ (repl 0 1).spare / 256 = 0) ∧
    (let s : State := { replUp 2 1 part0 with clock := { up.clock with frameStart := 6000000 } }
     s.rel.replacements = [(0, repl 2 1)] ∧ (repl 2 1).stage = 2 ∧ (repl 2 1).dueTime ≤ s.clock.frameStart ∧ s.cccWorks 0 = true ∧
       ({ s with fw := { s.fw with procs := [(8, ⟨true, false, [], 0, []⟩)] } } : State).cccWorks 0 = false) ∧
    ({ run1 with fw := { run1.fw with procs := [(0, ⟨true, false, [], 0, []⟩)] } } : State).procDown 0 = true ∧
    (let s := replUp 1 3 part0
     s.cccWorks 0 = true ∧ s.copySource (repl 1 3) = none ∧ s.awaits (repl 1 3) = true) ∧
    (let q : Partition := { part0 with pair := true, positions := [some 0, some 1] }
     (replUp 1 3 q).copySource (repl 1 3) = some 1 ∧ run1.stores.poison = [] ∧ run1.stores.wf = true) ∧
    (let s : State := { up with rel := { up.rel with queue := [⟨1, 1, 0, 0, 0, 0, 0⟩] } }
     s.rel.queue ≠ [] ∧ s.fw.powered = true ∧ s.procDown 0 = false) := by decide +kernel

theorem witness_StepKeepsMemoriesCanonical : State.reset.stores.wf = true ∧ mem1.stores.wf = true ∧ (∃ t, step { up with pending := [.frameEdge] } = .next t) := ⟨by decide +kernel, by decide +kernel, _, rfl⟩

theorem witness_StepKeepsTheRateBounded : up.paced ∧ step { up with pending := [.frameEdge] } = exec .frameEdge up :=
  ⟨⟨by decide, by decide, by decide, by intro c h; cases h⟩, rfl⟩

/-! ### Ill-formed commands, one for each check -/

def tiny : Packet := pk 32 1 []

theorem test_wf_packet : tiny.wf = true ∧ ({ tiny with path := .queue 4096 } : Packet).wf = false ∧ ({ tiny with path := .job 256 } : Packet).wf = false ∧
    ({ tiny with len := 0 } : Packet).wf = false ∧ ({ tiny with len := 2 } : Packet).wf = false ∧ (Instr.nop { tiny with body := [] }).wf = false := by decide +kernel

theorem test_wf_numbers : (Instr.watchdogExpire (.ccc 8)).wf = false ∧ (Instr.mgmtSessionOpen { goodHs with chainDigest := [] }).wf = false ∧
    (Instr.testUnlockSession { goodHs with serial := [] }).wf = false ∧ (Instr.busMasterEnable 32).wf = false ∧ (Instr.sampleReady 96).wf = false ∧
    (Instr.throttleStep 8).wf = false ∧ (Instr.operationIssue 17 .tensor).wf = false ∧ (Instr.tongsDescriptorStart 2048).wf = false ∧
    (Instr.csi2FrameStart 2 0 0 ⟨0, .ok, true, 4⟩).wf = false ∧ (Instr.csi2FrameStart 0 12 0 ⟨0, .ok, true, 4⟩).wf = false ∧ (Instr.csi2FrameEnd 0 0 16 ⟨0, .ok, true, 4⟩).wf = false ∧ (Instr.csi2FrameEnd 0 0 0 ⟨65536, .ok, true, 4⟩).wf = false ∧
    (Instr.csi2LongPacket 0 0 0 64 .ok []).wf = false ∧ (Instr.ctlCommit (.bar0 32) 0).wf = false := by decide

theorem test_wf_operands : (Instr.sqTail 0 4096 0).wf = false ∧ (Instr.cqHead 32 0 0).wf = false ∧ (Instr.eqHead 0 64 0).wf = false ∧ (Instr.quenchEnd 16).wf = false ∧
    (Instr.ctlMiss 256).wf = false ∧ (Instr.announce 2).wf = false ∧ (Instr.tdmFrameSync 0 8 0 []).wf = false ∧ (Instr.tdmFrameSync 0 0 0 (List.replicate 17 0)).wf = false ∧
    (Instr.gpioEdge 0 24 true).wf = false ∧ (Instr.ethFrame 2 0 0 true []).wf = false ∧ (Instr.ethFrame 0 (2 ^ 48) 0 true []).wf = false ∧ (Instr.ethFrame 0 0 4096 true []).wf = false ∧
    (Instr.ethFrame 0 0 0xFFFF true []).wf = true ∧ (Instr.mgmtMessage 0 256 []).wf = false ∧ (Instr.registerWrite .safetyPort 2 0).wf = false ∧ (Instr.registerWrite (.bar0 0) 16384 0).wf = false ∧
    (Instr.safetySpiRead (List.replicate 265 0) true).wf = false ∧ (Instr.hostLinkUp 2).wf = false ∧ (Instr.capControlTick 0 []).wf = false ∧
    (Instr.thermalSample (List.replicate 13 0)).wf = false ∧ (Instr.coreFence 0 256).wf = false ∧ (Instr.spareCopyDone 0 32769).wf = false ∧ (Instr.modelLoadDone 64).wf = false := by decide +kernel

/-! ### The spec's worked examples and single commands -/

/-- The block of the worked example after R118: 1,000.0, 3.3, -0.001, 0.046875 and 28 zeros as MXFP8 E4M3, RNE with SAT. -/
theorem test_mx_block : mxForm 4 ⟨0, true, 0⟩ 0 ([0x447A0000, 0x40533333, 0xBA83126F, 0x3D400000].map f32 ++ List.replicate 28 (f32 0)) =
    (0x80, [0x7E, 0x3D, 0x80, 0x0C] ++ List.replicate 28 0, 0x30) := by decide +kernel

/-- The weights of the worked example after R100: 38h, B4h, 00h and 44h under scale 78h. -/
theorem test_decoded_weights : [0x38, 0xB4, 0x00, 0x44].map (fun b => (fp32.encode .rne true ((elemValue 4 b).mul (scaleValue 0x78))).1) =
    [0x3C000000, 0xBBC00000, 0x00000000, 0x3CC00000] := by decide +kernel

/-- The edge after 7,001,000,000 ns with a period of 500 us and a phase of 250 us (worked example of the robot-time chapter). -/
theorem test_grid : let s : State := { State.reset with scopes := { State.reset.scopes with active := [(scopeKey 0 0 0, 0x00FA01F4)] } }
    s.gridAfter 7001000000 = 7001250000 ∧ s.gridAfter 7001250000 = 7001750000 := by decide

/-- The frame-relative deadline 800000010005CC60h of the same chapter. -/
theorem test_deadline : let s : State := { State.reset with clock := { State.reset.clock with now := 7001300000, nextEdge := 7001750000 } }
    s.deadlineOf 0x800000010005CC60 = some 7002130000 := by decide

/-- FW_STATUS of the worked example of the firmware chapter. -/
theorem test_fw_status : let s : State := { fwUp none with fw := { (fwUp none).fw with activeRelease := 0x03020040, bankA := ⟨2, 0x03020040, 1, true, []⟩, bankB := ⟨1, 0x03020041, 1, true, []⟩ } }
    s.fwStatus 0 = 0x0000000403020040 ∧ s.fwStatus 1 = 0x0000000003020041 := by decide

/-- The check values of the two polynomials that R99 and R387 name, of the characters 1 to 9. -/
theorem test_crc : crc32 [0x31, 0x32, 0x33, 0x34, 0x35, 0x36, 0x37, 0x38, 0x39] = 0xCBF43926 ∧ crc16 [0x31, 0x32, 0x33, 0x34, 0x35, 0x36, 0x37, 0x38, 0x39] = 0x29B1 := by decide +kernel

/-- Format corners of R88 to R95: the largest E4M3, an FP32 subnormal, a BF16 tie to even, and an overflow without SAT. -/
theorem test_formats : e4m3.decode 0x7E = .fin false 14 5 ∧ (fp32.encode .rne true (.fin false 1 (-149))).1 = 1 ∧ (bf16.encode .rne true (f32 0x3F818000)).1 = 0x3F82 ∧
    (fp32.encode .rne false (.fin false 1 128)).1 = 0x7F800000 := by decide +kernel

/-- The part of every order code that the table's word form spells: none, since its rows give no bits. -/
theorem test_no_words : decodeTableWord 16 7 = none ∧ State.reset.withFetchWord 16 7 = State.reset := ⟨rfl, rfl⟩

/-- A NOP with FENCE clear that is fetched completes at once, and its flight is finished with status OK. -/
theorem test_nop : (match exec (.nop tiny) (ask run1 tiny 5) with
    | .next t => t.proto.flights.isEmpty && (t.proto.finished.map (·.status) == [0])
    | _ => false) = true := by decide +kernel

/-- STOP latches at the register window and stands over the next read of the state (R385). -/
theorem test_stop : (match exec .stopInAssert up with
    | .next t => t.win.stopped
    | _ => false) = true := by decide +kernel

/-- The table of R17: 262 and 318 clock domains, four stack ports of the HX9-A4 and the links toward XD1 among them and gated. -/
theorem test_clock_domains : (clockDomains .a4).length = 262 ∧ (clockDomains .a8).length = 262 ∧ (clockDomains .d8).length = 318 ∧
    ((clockDomains .a4).filter (·.absent .a4)).length = 6 ∧ ((clockDomains .d8).filter (·.absent .d8)).length = 0 := by decide +kernel

end Sys2Proof.Tests
end

/-! PROOFS. The frame configuration word and TIME_READ (02_robot_time). -/

namespace Sys2Proof.Proofs.RobotTime

open Sys2Proof Sys2Proof.Machine

/-! ### The answer of a list of checks -/

/-- A list of checks answers only what one of its failing checks carries. -/
theorem exists_mem_of_firstFail_eq_some {l : List (Bool × Nat)} {n : Nat} (h : firstFail l = some n) : (true, n) ∈ l := by
  induction l with
  | nil => cases h
  | cons x r ih =>
    obtain ⟨b, st⟩ := x
    cases b
    case false => exact List.mem_cons_of_mem _ (ih h)
    case true => cases h; exact List.mem_cons_self

/-- The first check's answer is given exactly when that check fails, where no later check carries the same answer. -/
theorem firstFail_cons_eq_some_iff {b : Bool} {n : Nat} {r : List (Bool × Nat)} (hr : ∀ x ∈ r, x.2 ≠ n) :
    firstFail ((b, n) :: r) = some n ↔ b = true := by
  cases b
  case true => simp [firstFail]
  case false =>
    have later : firstFail r ≠ some n := fun h => hr _ (exists_mem_of_firstFail_eq_some h) rfl
    simp [firstFail, later]

/-! ### FRAME_CFG (R29) -/

theorem deviceRange_eq_zero_iff (w : Nat → Nat) : deviceRange w = some 0 ↔ (bits (w 0) 12 0 < 250 ∨ 4000 < bits (w 0) 12 0) := by
  rw [deviceRange, failAt, firstFail_cons_eq_some_iff (by simp), decide_eq_true_iff]

theorem devicePairs_eq_zero_iff (w : Nat → Nat) : devicePairs w = some 0 ↔ bits (w 0) 12 0 ≤ bits (w 0) 28 16 := by
  rw [devicePairs, failAt, firstFail_cons_eq_some_iff (by simp), decide_eq_true_iff]

/-- FRAME_CFG's mask keeps the 13 bits of PERIOD_US and the 13 bits of PHASE_US. -/
theorem and_frameMask (v : Nat) : v &&& wordMask 0 0 = bits v 28 16 * 2 ^ 16 + bits v 12 0 := by
  have phase : (v &&& wordMask 0 0) / 2 ^ 16 = v / 2 ^ 16 % 2 ^ 13 := by
    rw [Nat.and_div_two_pow]; exact Nat.and_two_pow_sub_one_eq_mod _ 13
  have period : (v &&& wordMask 0 0) % 2 ^ 16 = v % 2 ^ 16 % 2 ^ 13 := by
    rw [Nat.and_mod_two_pow]; exact Nat.and_two_pow_sub_one_eq_mod _ 13
  simp only [bits]
  omega

/-- A word keeps its value under FRAME_CFG's mask exactly when it is a word and its two reserved fields are zero. -/
theorem and_frameMask_eq_self_iff (v : Nat) : v &&& wordMask 0 0 = v ↔ v < 2 ^ 32 ∧ bits v 31 29 = 0 ∧ bits v 15 13 = 0 := by
  rw [and_frameMask]
  simp only [bits]
  omega

/-- Settles O13: each check of word 0 stands first in its list, and the mask of the word is its two fields. -/
theorem frameConfigurationWord : Obligations.FrameConfigurationWord := by
  refine ⟨⟨rfl, rfl, rfl, rfl, rfl⟩, deviceRange_eq_zero_iff, devicePairs_eq_zero_iff, fun v => ?_⟩
  rw [wordsOk, wordsOk, Bool.and_true, decide_eq_true_iff, and_frameMask_eq_self_iff]

/-! ### TIME_READ (R44) -/

section TimeRead

variable {p : Packet} {s : State} {f : Flight} {c : Caller}

theorem timeReadChecks_eq_none (hshort : shortOk p 17 = true) (hsel : Packet.fld p 16 1 ≤ 3) : timeReadChecks c p s = none := by
  simp [timeReadChecks, firstFail, hshort, hsel]

theorem timeReadChecks_eq_badParam (h : shortOk p 17 = false ∨ 3 < Packet.fld p 16 1) : timeReadChecks c p s = some St.badParam := by
  rcases h with h | h <;> simp [timeReadChecks, firstFail, h]

/-- A TIME_READ that fails its check completes with BAD_PARAM and reads nothing. -/
theorem exec_timeRead_badParam (h : s.takes p 0x100 f c = true) (hbad : shortOk p 17 = false ∨ 3 < Packet.fld p 16 1) :
    exec (.timeRead p) s = .next (s.ends f (s.verOf p 0x100) St.badParam 0 0) :=
  congrArg Host.Outcome.next (runPacket_fails _ _ _ _ _ _ _ _ h (timeReadChecks_eq_badParam hbad))

/-- A TIME_READ that passes its check completes with what SELECT names; its time at fetch is the one its flight holds. -/
theorem exec_timeRead_ok (h : s.takes p 0x100 f c = true) (hshort : shortOk p 17 = true) (hsel : Packet.fld p 16 1 ≤ 3) :
    exec (.timeRead p) s = .next (s.okWith f (s.verOf p 0x100) (s.timeRead (decide (c.role = .tenant))
      (((s.flight? f.id).map (·.fetchTime)).getD s.clock.now) (Packet.fld p 16 1))) := by
  refine (congrArg Host.Outcome.next (runPacket_effect _ _ _ _ _ _ _ h (timeReadChecks_eq_none hshort hsel))).trans ?_
  cases s.flight? f.id <;> rfl

end TimeRead

@[simp] theorem timeRead_zero (s : State) (tenant : Bool) (fetched : Nat) :
    s.timeRead tenant fetched 0 = if tenant then s.clock.frameStart else fetched := rfl

@[simp] theorem timeRead_one (s : State) (tenant : Bool) (fetched : Nat) : s.timeRead tenant fetched 1 = s.frameNo := rfl

@[simp] theorem timeRead_two (s : State) (tenant : Bool) (fetched : Nat) : s.timeRead tenant fetched 2 = s.clock.frameStart := rfl

@[simp] theorem timeRead_three (s : State) (tenant : Bool) (fetched : Nat) : s.timeRead tenant fetched 3 =
    s.clock.timeState + 2 ^ 8 * bits (s.activeWord 0 0 1) 31 30 +
      2 ^ 16 * (if tenant then 0 else toBits 32 (satSigned 32 (if s.clock.timeState ≤ 1 then 0 else s.clock.offset))) := rfl

/-- Settles O16: the check refuses a SELECT above 3, and each SELECT that passes has its own equation. -/
theorem timeReadResult : Obligations.TimeReadResult := by
  intro p s f c h
  refine ⟨exec_timeRead_badParam h, fun hshort => ⟨fun hsel hf => ?_, fun hsel => ?_, fun hsel => ?_, fun hsel => ?_⟩⟩
  all_goals rw [exec_timeRead_ok h hshort (by omega), hsel]
  · simp [hf]
  · simp
  · simp
  · simp

end Sys2Proof.Proofs.RobotTime

/-! PROOFS. Number formats: overflow, block scales and the elements of MX blocks (04_number_formats). -/

namespace Sys2Proof.Proofs.NumberFormats

open Sys2Proof Sys2Proof.Machine

/-! ### The magnitudes of a format's codes -/

section Magnitude

variable (f : Fmt)

/-- Every code is a number of units of one binade, and only the lowest binade has fewer than `2^mb` of them. -/
theorem exists_binade (c : Nat) : ∃ t k, c = t * 2 ^ f.mb + k ∧ (t = 0 ∨ 2 ^ f.mb ≤ k) ∧ k < 2 * 2 ^ f.mb := by
  have parts : c / 2 ^ f.mb * 2 ^ f.mb + c % 2 ^ f.mb = c := Nat.div_add_mod' _ _
  have rest : c % 2 ^ f.mb < 2 ^ f.mb := Nat.mod_lt _ (by positivity)
  cases ht : c / 2 ^ f.mb with
  | zero => exact ⟨0, c % 2 ^ f.mb, by simpa [ht] using parts.symm, .inl rfl, by omega⟩
  | succ t =>
    rw [ht, Nat.succ_mul] at parts
    exact ⟨t, 2 ^ f.mb + c % 2 ^ f.mb, by omega, .inr (by omega), by omega⟩

/-- The codes of one binade, the first of the next one with them, are evenly spaced. -/
theorem magnitude_binade {t k : Nat} (ht : t = 0 ∨ 2 ^ f.mb ≤ k) (hk : k ≤ 2 * 2 ^ f.mb) :
    f.magnitude (t * 2 ^ f.mb + k) = (k : ℚ) * (2 : ℚ) ^ (f.qmin + t) := by
  have pos : 0 < 2 ^ f.mb := by positivity
  have two : (2 : ℚ) ≠ 0 := by norm_num
  obtain hlow | hmid | rfl : k < 2 ^ f.mb ∨ (2 ^ f.mb ≤ k ∧ k < 2 * 2 ^ f.mb) ∨ k = 2 * 2 ^ f.mb := by omega
  · obtain rfl : t = 0 := by omega
    simp [Fmt.magnitude, Nat.div_eq_of_lt hlow]
  · obtain ⟨j, rfl⟩ := Nat.exists_eq_add_of_le hmid.1
    have code : t * 2 ^ f.mb + (2 ^ f.mb + j) = j + 2 ^ f.mb * (t + 1) := by ring
    have small : j < 2 ^ f.mb := by omega
    rw [code, Fmt.magnitude, Nat.add_mul_div_left _ _ pos, Nat.add_mul_mod_self_left, Nat.div_eq_of_lt small, Nat.mod_eq_of_lt small,
      if_neg (by omega)]
    push_cast
    ring_nf
  · have code : t * 2 ^ f.mb + 2 * 2 ^ f.mb = 0 + 2 ^ f.mb * (t + 2) := by ring
    rw [code, Fmt.magnitude, Nat.add_mul_div_left _ _ pos, Nat.add_mul_mod_self_left, Nat.zero_div, Nat.zero_mod, if_neg (by omega)]
    have exponent : f.qmin + ((0 + (t + 2) : Nat) : Int) - 1 = f.qmin + t + 1 := by push_cast; ring
    rw [exponent, zpow_add_one₀ two]
    push_cast
    ring

theorem magnitude_strictMono : StrictMono f.magnitude := by
  refine strictMono_nat_of_lt_succ fun c => ?_
  obtain ⟨t, k, rfl, ht, hk⟩ := exists_binade f c
  rw [magnitude_binade f ht hk.le, add_assoc, magnitude_binade f (by omega) hk]
  gcongr
  simp

@[simp] theorem magnitude_zero : f.magnitude 0 = 0 := by simp [Fmt.magnitude]

end Magnitude

/-! ### Rounding toward zero (R111) -/

section TowardZero

variable {f : Fmt} {m : Nat} {e : Int}

/-- The exponent of the unit in which a format holds the magnitude `m * 2^e`. -/
def unitExp (f : Fmt) (m : Nat) (e : Int) : Int := max ((m.log2 : Int) + e - f.mb) f.qmin

theorem roundCode_of_ne_zero (mode : RMode) (hm : m ≠ 0) :
    f.roundCode mode m e = (unitExp f m e - f.qmin).toNat * 2 ^ f.mb + roundMag mode m e (unitExp f m e) := if_neg hm

theorem roundMag_of_le {q : Int} (mode : RMode) (m : Nat) (h : q ≤ e) : roundMag mode m e q = m * 2 ^ (e - q).toNat := if_pos h

theorem roundMag_rtz_of_lt {q : Int} (m : Nat) (h : e < q) : roundMag .rtz m e q = m / 2 ^ (q - e).toNat := if_neg h.not_ge

theorem mul_zpow_sub_of_le {q : Int} (m : Nat) (h : q ≤ e) : (m : ℚ) * (2 : ℚ) ^ (e - q) = ((m * 2 ^ (e - q).toNat : Nat) : ℚ) := by
  have exponent : ((e - q).toNat : Int) = e - q := Int.toNat_of_nonneg (by omega)
  rw [← exponent, zpow_natCast, Int.toNat_natCast]
  push_cast; rfl

theorem mul_zpow_sub_of_lt {q : Int} (m : Nat) (h : e < q) : (m : ℚ) * (2 : ℚ) ^ (e - q) = (m : ℚ) / ((2 ^ (q - e).toNat : Nat) : ℚ) := by
  have exponent : e - q = -((q - e).toNat : Int) := by omega
  rw [exponent, zpow_neg, zpow_natCast, div_eq_mul_inv]
  push_cast; rfl

/-- Rounding toward zero keeps the whole units of the magnitude. -/
theorem roundMag_rtz (m : Nat) (e q : Int) : roundMag .rtz m e q = ⌊(m : ℚ) * (2 : ℚ) ^ (e - q)⌋₊ := by
  obtain h | h := le_or_gt q e
  · rw [roundMag_of_le _ m h, mul_zpow_sub_of_le m h, Nat.floor_natCast]
  · rw [roundMag_rtz_of_lt m h, mul_zpow_sub_of_lt m h, Nat.floor_div_eq_div]

theorem mul_zpow_sub_mul_zpow (m : Nat) (e q : Int) : (m : ℚ) * (2 : ℚ) ^ (e - q) * (2 : ℚ) ^ q = (m : ℚ) * (2 : ℚ) ^ e := by
  rw [mul_assoc, ← zpow_add₀ (by norm_num), sub_add_cancel]

theorem lt_roundMag_rtz_succ (m : Nat) (e q : Int) : (m : ℚ) * (2 : ℚ) ^ e < ((roundMag .rtz m e q + 1 : Nat) : ℚ) * (2 : ℚ) ^ q := by
  rw [← mul_zpow_sub_mul_zpow m e q, roundMag_rtz]
  gcongr
  exact_mod_cast Nat.lt_floor_add_one _

/-- A magnitude with no bit below the unit is a whole number of units. -/
theorem roundMag_rtz_of_exact {q : Int} (h : ¬ (e < q ∧ m % 2 ^ (q - e).toNat ≠ 0)) :
    (roundMag .rtz m e q : ℚ) * (2 : ℚ) ^ q = (m : ℚ) * (2 : ℚ) ^ e := by
  rw [← mul_zpow_sub_mul_zpow m e q]
  congr 1
  obtain hq | hq := le_or_gt q e
  · rw [roundMag_of_le _ m hq, mul_zpow_sub_of_le m hq]
  · have whole : 2 ^ (q - e).toNat ∣ m := Nat.dvd_of_mod_eq_zero (by by_contra hr; exact h ⟨hq, hr⟩)
    rw [roundMag_rtz_of_lt m hq, mul_zpow_sub_of_lt m hq, Nat.cast_div_charZero whole]

theorem roundMag_rtz_unitExp_lt (hm : m ≠ 0) : roundMag .rtz m e (unitExp f m e) < 2 * 2 ^ f.mb := by
  rw [roundMag_rtz, Nat.floor_lt (by positivity)]
  calc (m : ℚ) * (2 : ℚ) ^ (e - unitExp f m e)
      < (2 : ℚ) ^ ((m.log2 : Int) + 1) * (2 : ℚ) ^ (e - unitExp f m e) := by
        gcongr
        exact_mod_cast Nat.lt_log2_self
    _ = (2 : ℚ) ^ ((m.log2 : Int) + 1 + (e - unitExp f m e)) := (zpow_add₀ (by norm_num) _ _).symm
    _ ≤ (2 : ℚ) ^ ((f.mb : Int) + 1) := zpow_le_zpow_right₀ (by norm_num) (by simp only [unitExp]; omega)
    _ = ((2 * 2 ^ f.mb : Nat) : ℚ) := by rw [zpow_add_one₀ (by norm_num), zpow_natCast]; push_cast; ring

/-- Above the lowest binade the leading bit of the magnitude is the format's hidden one. -/
theorem two_pow_le_roundMag_rtz (hm : m ≠ 0) (hq : f.qmin < unitExp f m e) : 2 ^ f.mb ≤ roundMag .rtz m e (unitExp f m e) := by
  have unit : unitExp f m e = (m.log2 : Int) + e - f.mb := by simp only [unitExp] at hq ⊢; omega
  rw [roundMag_rtz]
  refine Nat.le_floor ?_
  calc ((2 ^ f.mb : Nat) : ℚ) = (2 : ℚ) ^ ((m.log2 : Int) + (e - unitExp f m e)) := by
        rw [unit, show (m.log2 : Int) + (e - (m.log2 + e - f.mb)) = f.mb by ring, zpow_natCast]; push_cast; rfl
    _ = (2 : ℚ) ^ (m.log2 : Int) * (2 : ℚ) ^ (e - unitExp f m e) := zpow_add₀ (by norm_num) _ _
    _ ≤ (m : ℚ) * (2 : ℚ) ^ (e - unitExp f m e) := by
        gcongr
        exact_mod_cast Nat.log2_self_le hm

/-- The code toward zero and the next one lie in one binade, that of the magnitude's unit. -/
theorem magnitude_roundCode_rtz (hm : m ≠ 0) {d : Nat} (hd : d ≤ 1) : f.magnitude (f.roundCode .rtz m e + d) =
    ((roundMag .rtz m e (unitExp f m e) + d : Nat) : ℚ) * (2 : ℚ) ^ unitExp f m e := by
  have lower : f.qmin ≤ unitExp f m e := le_max_right _ _
  have upper := roundMag_rtz_unitExp_lt (f := f) (e := e) hm
  have hidden : (unitExp f m e - f.qmin).toNat = 0 ∨ 2 ^ f.mb ≤ roundMag .rtz m e (unitExp f m e) + d := by
    by_cases h : f.qmin < unitExp f m e
    · exact .inr ((two_pow_le_roundMag_rtz hm h).trans (Nat.le_add_right _ _))
    · exact .inl (by omega)
  rw [roundCode_of_ne_zero _ hm, add_assoc, magnitude_binade f hidden (by omega), Int.toNat_of_nonneg (by omega), add_sub_cancel]

/-- Rounding toward zero leaves no code between its result and the magnitude. -/
theorem lt_magnitude_roundCode_rtz_succ (hm : m ≠ 0) : (m : ℚ) * (2 : ℚ) ^ e < f.magnitude (f.roundCode .rtz m e + 1) := by
  rw [magnitude_roundCode_rtz hm le_rfl]
  exact lt_roundMag_rtz_succ m e _

end TowardZero

/-! ### Overflow (R114) -/

section Overflow

variable {f : Fmt} {m : Nat} {e : Int}

theorem beyond_eq (f : Fmt) (m : Nat) (e : Int) : f.beyond m e = (decide (f.maxCode < f.roundCode .rtz m e) ||
    (decide (f.roundCode .rtz m e = f.maxCode) && decide (e < unitExp f m e) && decide (m % 2 ^ (unitExp f m e - e).toNat ≠ 0))) := rfl

/-- A magnitude above that of the largest finite code is beyond the format, also where its bits below the unit alone are. -/
theorem beyond_of_magnitude_lt (h : f.magnitude f.maxCode < (m : ℚ) * (2 : ℚ) ^ e) : f.beyond m e = true := by
  have hm : m ≠ 0 := by
    rintro rfl
    have least := (magnitude_strictMono f).monotone (Nat.zero_le f.maxCode)
    simp only [magnitude_zero, Nat.cast_zero, zero_mul] at least h
    exact absurd h least.not_gt
  have reached : f.maxCode ≤ f.roundCode .rtz m e :=
    Nat.lt_succ_iff.1 ((magnitude_strictMono f).lt_iff_lt.1 (h.trans (lt_magnitude_roundCode_rtz_succ hm)))
  obtain above | same := reached.lt_or_eq
  · simp [beyond_eq, above]
  · have inexact : e < unitExp f m e ∧ m % 2 ^ (unitExp f m e - e).toNat ≠ 0 := by
      by_contra whole
      have value := magnitude_roundCode_rtz (f := f) (e := e) hm (Nat.zero_le 1)
      simp only [add_zero] at value
      rw [roundMag_rtz_of_exact whole, ← same] at value
      exact h.ne value
    simp [beyond_eq, ← same, inexact]

theorem encode_fin_of_maxCode_lt {mode : RMode} (sat neg : Bool) (hmode : mode ≠ .rtz) (h : f.maxCode < f.roundCode mode m e) :
    f.encode mode sat (.fin neg m e) = f.overflow sat neg := by
  simp [Fmt.encode, hmode, h]

theorem encode_rtz_of_beyond (sat neg : Bool) (h : f.beyond m e = true) :
    f.encode .rtz sat (.fin neg m e) = (f.signBit neg + f.maxCode, fSat) := by
  simp [Fmt.encode, h]

theorem encode_fin_of_roundCode_eq_maxCode {mode : RMode} (sat neg : Bool) (hmax : f.maxCode ≠ 0) (h : f.beyond m e = true)
    (hc : f.roundCode mode m e = f.maxCode) : f.encode mode sat (.fin neg m e) = (f.signBit neg + f.maxCode, fSat) := by
  simp [Fmt.encode, h, hc, hmax]

theorem overflow_sat (f : Fmt) (neg : Bool) : f.overflow true neg = (f.signBit neg + f.maxCode, fSat) := rfl

/-- What the table of R114 gives without SAT: E4M3 has no infinity and takes its NaN. -/
theorem overflow_open (hf : f ∈ [fp32, bf16, e5m2, e4m3]) (neg : Bool) : f.overflow false neg =
    if f = e4m3 then (0x7F, fNanOut) else (f.signBit neg + (2 ^ f.eb - 1) * 2 ^ f.mb, fInfOut) := by
  simp only [List.mem_cons, List.not_mem_nil, or_false] at hf
  obtain rfl | rfl | rfl | rfl := hf <;> rfl

end Overflow

/-- Settles O27: a magnitude above the largest finite one is beyond the format, and each mode then has its row of the table. -/
theorem overflowIsWrittenByTheTable : Obligations.OverflowIsWrittenByTheTable := by
  intro f hf mode neg
  have hmax : f.maxCode ≠ 0 := by
    simp only [List.mem_cons, List.not_mem_nil, or_false] at hf
    obtain rfl | rfl | rfl | rfl := hf <;> decide
  refine ⟨fun m e hmode h => ⟨?_, ?_⟩, fun m e sat h => ?_, fun m e sat h hc => ?_, overflow_sat f neg, overflow_open hf neg⟩
  · exact (encode_fin_of_maxCode_lt true neg hmode h).trans (overflow_sat f neg)
  · exact (encode_fin_of_maxCode_lt false neg hmode h).trans (overflow_open hf neg)
  · exact encode_rtz_of_beyond sat neg (beyond_of_magnitude_lt h)
  · exact encode_fin_of_roundCode_eq_maxCode sat neg hmax (beyond_of_magnitude_lt h) hc

/-! ### Block scales (R93) -/

@[simp] theorem mul_nan (x : Fv) : x.mul .nan = .nan := by cases x <;> rfl

theorem scaleValue_of_lt {code : Nat} (h : code < 255) : scaleValue code = .fin false 1 ((code : Int) - 127) := if_neg h.ne

@[simp] theorem scaleValue_nan : scaleValue 255 = .nan := rfl

/-- An element of an MX format is read through its block's scale. -/
theorem value_of_isMx (t : TDesc) (kind : Nat) (rd : Reader) (i0 i1 i2 i3 : Nat) (h : isMx t.fmt = true) : t.value kind rd i0 i1 i2 i3 =
    (elemValue t.fmt (t.code kind rd i0 i1 i2 i3).1).mul (scaleValue (t.code kind rd i0 i1 i2 i3).2) := if_pos h

/-! ### The elements of MX formats (R94, R95) -/

/-- An MXINT8 element is its two's complement reading in units of 2^-6. -/
theorem elemValue_mxint8 (code : Nat) : elemValue 9 code = .fin (decide (signedOf 8 code < 0)) (signedOf 8 code).natAbs (-6) := rfl

theorem signedOf_eight {code : Nat} (h : code < 256) : signedOf 8 code = if code < 128 then (code : Int) else (code : Int) - 256 := by
  simp [signedOf, Nat.mod_eq_of_lt h]

/-- The element formats of the MX formats: MXINT8, and the floating formats, each with exponent bits. -/
theorem mx_cases {fmt : Nat} (h : isMx fmt = true) : fmt = 9 ∨ fmt ≠ 9 ∧ ∃ f, elemFmt fmt = some f ∧ 0 < f.eb := by
  simp only [isMx, decide_eq_true_eq] at h
  obtain rfl | rfl | rfl | rfl | rfl | rfl : fmt = 4 ∨ fmt = 5 ∨ fmt = 6 ∨ fmt = 7 ∨ fmt = 8 ∨ fmt = 9 := by omega
  case inr.inr.inr.inr.inr => exact .inl rfl
  all_goals exact .inr ⟨by decide, _, rfl, by decide⟩

theorem maxCode_lt (f : Fmt) : f.maxCode < 2 ^ (f.eb + f.mb) := by
  have pos : 0 < 2 ^ (f.eb + f.mb) := by positivity
  have top : (2 ^ f.eb - 1) * 2 ^ f.mb ≤ 2 ^ (f.eb + f.mb) := by
    rw [pow_add]
    exact Nat.mul_le_mul_right _ (Nat.sub_le _ _)
  cases h : f.top with
  | ieee => simp only [Fmt.maxCode, h]; omega
  | e4m3 => simp only [Fmt.maxCode, h]; omega
  | finite => simp only [Fmt.maxCode, h]; omega

/-- A code of a sign and a magnitude up to the largest finite one stands for a finite value. -/
theorem decode_isFin {f : Fmt} (heb : 0 < f.eb) {mag : Nat} (h : mag ≤ f.maxCode) (neg : Bool) : (f.decode (f.signBit neg + mag)).isFin = true := by
  have field : (f.signBit neg + mag) % 2 ^ (f.eb + f.mb) = mag := by
    have small := h.trans_lt (maxCode_lt f)
    cases neg <;> simp [Fmt.signBit, Nat.mod_eq_of_lt small]
  have finite : ¬ (f.top = .ieee ∧ mag = f.infCode) := by
    rintro ⟨top, rfl⟩
    have pos : 0 < f.infCode := Nat.mul_pos (Nat.sub_pos_of_lt (Nat.one_lt_two_pow heb.ne')) (by positivity)
    simp only [Fmt.maxCode, top] at h
    simp only [Fmt.infCode] at h pos
    omega
  rw [Fmt.decode, field, if_neg finite, if_neg h.not_gt]
  split <;> rfl

theorem elemValue_mxSigned_isFin {fmt mag : Nat} (hmx : isMx fmt = true) (h : mag ≤ mxMaxCode fmt) (neg : Bool) :
    (elemValue fmt (mxSigned fmt mag neg)).isFin = true := by
  obtain rfl | ⟨hfmt, f, hf, heb⟩ := mx_cases hmx
  · rfl
  · rw [mxMaxCode, if_neg hfmt, hf] at h
    rw [elemValue, if_neg hfmt, mxSigned, if_neg hfmt, hf]
    exact decode_isFin heb h neg

theorem mxSigned_zero (fmt : Nat) : mxSigned fmt 0 false = 0 := by
  unfold mxSigned
  split
  · rfl
  · split <;> rfl

theorem mxSigned_mxint8 {mag : Nat} (h : mag ≤ 127) (neg : Bool) : mxSigned 9 mag neg < 256 ∧ mxSigned 9 mag neg ≠ 0x80 := by
  cases neg with
  | false =>
    change mag < 256 ∧ mag ≠ 0x80
    omega
  | true =>
    change (256 - mag) % 256 < 256 ∧ (256 - mag) % 256 ≠ 0x80
    omega

/-! ### Forming an MX block (R118) -/

/-- A finite element of a block is written as a magnitude up to the largest finite one, whatever SAT. -/
theorem exists_mxElem_eq (fmt : Nat) (mode : RMode) (neg : Bool) (m : Nat) (e : Int) :
    ∃ mag ≤ mxMaxCode fmt, (mxElem fmt mode neg m e).1 = mxSigned fmt mag neg := by
  unfold mxElem
  extract_lets mag
  obtain h | h := lt_or_ge (mxMaxCode fmt) mag
  · exact ⟨mxMaxCode fmt, le_rfl, by rw [if_pos h]⟩
  · exact ⟨mag, h, by rw [if_neg h.not_gt]⟩

/-- What each element code of a block is: zero for NaN and in a block that is NaN, an infinity's code, or a finite value's. -/
theorem mxForm_code_cases {fmt : Nat} {ar : Arith} {first : Nat} {xs : List Fv} {c : Nat} (h : c ∈ (mxForm fmt ar first xs).2.1) :
    c = 0 ∨ (∃ neg, Fv.inf neg ∈ xs ∧ c = (mxInf fmt ar.sat neg).1) ∨ ∃ neg, ∃ mag ≤ mxMaxCode fmt, c = mxSigned fmt mag neg := by
  rw [mxForm] at h
  split at h
  case isTrue =>
    obtain ⟨x, -, rfl⟩ := List.mem_map.1 h
    exact .inl rfl
  case isFalse =>
    simp only [List.map_map, List.mem_map, List.mem_range, Function.comp_apply] at h
    obtain ⟨i, hi, rfl⟩ := h
    have mem : xs.getD i .zero ∈ xs := List.getD_eq_getElem xs Fv.zero hi ▸ List.getElem_mem hi
    cases hx : xs.getD i .zero with
    | nan => exact .inl rfl
    | inf neg => exact .inr (.inl ⟨neg, hx ▸ mem, rfl⟩)
    | fin neg m e =>
      obtain ⟨mag, hmag, hc⟩ := exists_mxElem_eq fmt (ar.mode (first + i)) neg m _
      exact .inr (.inr ⟨neg, mag, hmag, hc⟩)

/-- The binade of a block's largest magnitude is bounded by every bound on the binades of its elements. -/
theorem blockTop_le {b : Int} : ∀ {xs : List Fv} {t : Int}, (∀ x ∈ xs, ∀ a, exp2Floor x = some a → a ≤ b) → blockTop xs = some t → t ≤ b
  | [], _, _, h => by cases h
  | x :: r, t, bound, h => by
    obtain ⟨head, tail⟩ := List.forall_mem_cons.1 bound
    rw [blockTop] at h
    cases ha : exp2Floor x with
    | none =>
      rw [ha] at h
      exact blockTop_le tail h
    | some a =>
      cases hc : blockTop r with
      | none =>
        simp only [ha, hc, Option.some.injEq] at h
        exact h ▸ head a ha
      | some c =>
        simp only [ha, hc, Option.some.injEq] at h
        exact h ▸ max_le (head a ha) (blockTop_le tail hc)

theorem emaxOf_nonneg (fmt : Nat) : 0 ≤ emaxOf fmt := by
  unfold emaxOf
  split <;> decide

/-- A magnitude that FP32 rounds toward zero to a finite code lies below 2^128. -/
theorem log2_add_le_of_roundCode_le {m : Nat} {e : Int} (hm : m ≠ 0) (h : fp32.roundCode .rtz m e ≤ fp32.maxCode) : (m.log2 : Int) + e ≤ 127 := by
  by_contra above
  have unit : 105 ≤ unitExp fp32 m e := by
    refine le_trans ?_ (le_max_left _ _)
    simp only [fp32]
    omega
  have lowest : fp32.qmin = -149 := by decide
  have largest : fp32.maxCode = 255 * 2 ^ 23 - 1 := by decide
  have hidden := two_pow_le_roundMag_rtz hm (show fp32.qmin < unitExp fp32 m e by omega)
  rw [roundCode_of_ne_zero _ hm, lowest, largest] at h
  simp only [show fp32.mb = 23 from rfl] at h hidden
  omega

theorem exists_eq_of_exp2Floor {x : Fv} {a : Int} (h : exp2Floor x = some a) : ∃ neg m e, x = .fin neg m e ∧ m ≠ 0 ∧ a = (m.log2 : Int) + e := by
  cases x with
  | fin neg m e =>
    simp only [exp2Floor, Option.ite_none_left_eq_some, Option.some.injEq] at h
    exact ⟨neg, m, e, rfl, h.1, h.2.symm⟩
  | nan => cases h
  | inf neg => cases h

/-- The scale of a block of finite values is that of its largest magnitude, emax below it and no lower than 2^-127. -/
theorem mxForm_scale_of_finite {fmt : Nat} (ar : Arith) (first : Nat) {xs : List Fv} (h : ∀ x ∈ xs, x.isFin = true) : (mxForm fmt ar first xs).1 =
    (((blockTop xs).elim 0 (fun t => max (t - emaxOf fmt) (-127))) + 127).toNat := by
  have kinds : ∀ x ∈ xs, x.isNan = false ∧ x.isInf = false := by
    intro x hx
    cases x with
    | fin neg m e => exact ⟨rfl, rfl⟩
    | nan => exact absurd (h _ hx) Bool.false_ne_true
    | inf neg => exact absurd (h _ hx) Bool.false_ne_true
  have noNan : xs.any Fv.isNan = false := List.any_eq_false.2 fun x hx => by simp [(kinds x hx).1]
  have noInf : xs.any Fv.isInf = false := List.any_eq_false.2 fun x hx => by simp [(kinds x hx).2]
  rw [mxForm, noNan, noInf, if_neg (by simp)]
  cases blockTop xs <;> rfl

/-- No FP32 value needs a scale above 2^127. -/
theorem mxForm_scale_lt {fmt : Nat} (ar : Arith) (first : Nat) {xs : List Fv}
    (h : ∀ x ∈ xs, x.isFin = true ∧ ∀ neg m e, x = .fin neg m e → fp32.roundCode .rtz m e ≤ fp32.maxCode) : (mxForm fmt ar first xs).1 < 255 := by
  have below : ∀ x ∈ xs, ∀ a, exp2Floor x = some a → a ≤ 127 := by
    intro x hx a ha
    obtain ⟨neg, m, e, rfl, hm, rfl⟩ := exists_eq_of_exp2Floor ha
    exact log2_add_le_of_roundCode_le hm ((h _ hx).2 neg m e rfl)
  rw [mxForm_scale_of_finite ar first fun x hx => (h x hx).1]
  cases htop : blockTop xs with
  | none => simp
  | some t =>
    have top : t ≤ 127 := blockTop_le below htop
    have emax : 0 ≤ emaxOf fmt := emaxOf_nonneg fmt
    simp only [Option.elim]
    omega

/-- Settles O28: a NaN scale makes every product NaN, and a code of a block is zero, an infinity's, or a magnitude's within its format. -/
theorem scalesAndMxElements : Obligations.ScalesAndMxElements := by
  refine ⟨⟨fun code => scaleValue_of_lt, scaleValue_nan, ?_⟩, ⟨?_, rfl, ?_⟩, ?_⟩
  · intro t kind rd i0 i1 i2 i3 hmx hnan
    rw [value_of_isMx t kind rd i0 i1 i2 i3 hmx, hnan, scaleValue_nan, mul_nan]
  · intro code h
    refine ⟨_, _, elemValue_mxint8 code, ?_⟩
    rw [← signedOf_eight h]
    simp only [decide_eq_true_eq]
    split <;> omega
  · intro ar first xs c hc
    obtain rfl | ⟨neg, -, rfl⟩ | ⟨neg, mag, hmag, rfl⟩ := mxForm_code_cases hc
    · decide
    · exact mxSigned_mxint8 le_rfl neg
    · exact mxSigned_mxint8 hmag neg
  · intro fmt ar first xs hmx hxs
    refine ⟨?_, fun c hc => ?_⟩
    · exact mxForm_scale_lt ar first hxs
    · obtain rfl | ⟨neg, hinf, -⟩ | ⟨neg, mag, hmag, rfl⟩ := mxForm_code_cases hc
      · exact mxSigned_zero fmt ▸ elemValue_mxSigned_isFin hmx (Nat.zero_le _) false
      · exact absurd (hxs _ hinf).1 Bool.false_ne_true
      · exact elemValue_mxSigned_isFin hmx hmag neg

end Sys2Proof.Proofs.NumberFormats

/-! PROOFS. The stop latch and the safety port (14_firmware_boot). -/

namespace Sys2Proof.Proofs.FirmwareBoot

open Sys2Proof Sys2Proof.Machine

/-! ### The setting causes of the stop latch (R385) -/

section StopLatch

variable {s : State}

@[simp] theorem latchStop_request : s.latchStop true false =
    { s with win := { s.win with stopped := true, clearPending := false, byRequest := true } } := by
  simp [State.latchStop]

@[simp] theorem latchStop_heartbeat : s.latchStop false true =
    { s with win := { s.win with stopped := true, clearPending := false, bySafeHb := true } } := by
  simp [State.latchStop]

@[simp] theorem latchStop_pin : s.latchStop false false = { s with win := { s.win with stopped := true, clearPending := false } } := by
  simp [State.latchStop]

theorem exec_stopInAssert (hp : s.fw.powered = true) :
    exec .stopInAssert s = .next { s with win := { s.win with stopIn := true, stopped := true, clearPending := false } } :=
  congrArg Host.Outcome.next ((if_pos hp).trans latchStop_pin)

theorem exec_safetyHeartbeatLapse_of_enabled (hp : s.fw.powered = true) (hrun : s.clock.running = true) (hhb : s.safeHbNs ≠ 0) :
    exec .safetyHeartbeatLapse s = .next { s with
      clock := { s.clock with now := max s.clock.now (max s.win.lastSafeHb s.win.safeHbSince + s.safeHbNs + 1) }
      win := { s.win with stopped := true, clearPending := false, bySafeHb := true } } := by
  have counted : ¬((!s.running || decide (s.safeHbNs = 0)) = true) := by simp [State.running, hp, hrun, hhb]
  refine (congrArg Host.Outcome.next (if_neg counted)).trans ?_
  rw [latchStop_heartbeat]
  rfl

theorem exec_safetyHeartbeatLapse_of_disabled (hhb : s.safeHbNs = 0) : exec .safetyHeartbeatLapse s = .next s :=
  congrArg Host.Outcome.next (if_pos (by simp [hhb]))

theorem safetyPortUp_of_stage (hp : s.fw.powered = true) (hstage : 2 ≤ s.fw.bootStage) : s.safetyPortUp = true := by
  simp [State.safetyPortUp, hp, hstage]

theorem exec_safetyHeartbeat (v : Word) (hp : s.fw.powered = true) (hstage : 2 ≤ s.fw.bootStage) :
    exec (.safetyHeartbeat v) s = .next { s with win := { s.win with lastSafeHb := s.clock.now } } :=
  congrArg Host.Outcome.next (if_pos (safetyPortUp_of_stage hp hstage))

/-! ### STOP_CTL (R385) -/

theorem safeHbCurrent_eq_true_iff :
    s.safeHbCurrent = true ↔ s.safeHbNs = 0 ∨ s.clock.now ≤ max s.win.lastSafeHb s.win.safeHbSince + s.safeHbNs := by
  simp only [State.safeHbCurrent, Bool.or_eq_true, decide_eq_true_eq]

theorem safeHbCurrent_eq_false_iff :
    s.safeHbCurrent = false ↔ s.safeHbNs ≠ 0 ∧ max s.win.lastSafeHb s.win.safeHbSince + s.safeHbNs < s.clock.now := by
  rw [← Bool.not_eq_true, safeHbCurrent_eq_true_iff, not_or, Nat.not_le]

variable {v : Nat}

theorem stopCtl_of_wrong_key (hkey : bits v 31 16 ≠ 0x5354) : s.stopCtl v = s := by
  simp [State.stopCtl, hkey]

theorem stopCtl_of_stop (hp : s.fw.powered = true) (hkey : bits v 31 16 = 0x5354) (hstop : bit v 0 = true) :
    s.stopCtl v = s.latchStop true false := by
  simp [State.stopCtl, hp, hkey, hstop]

/-- A CLEAR without STOP is honoured while the latch is set, STOP_IN deasserted and the safety heartbeat current. -/
theorem stopCtl_of_clear (hp : s.fw.powered = true) (hkey : bits v 31 16 = 0x5354) (hstop : bit v 0 = false) (hclear : bit v 1 = true) :
    s.stopCtl v = if s.win.stopped && !s.win.stopIn && s.safeHbCurrent then { s with win := { s.win with clearPending := true } } else s := by
  simp [State.stopCtl, hp, hkey, hstop, hclear]

/-! ### The frame edge (R385) -/

theorem edgeStop_of_pending (h : s.win.clearPending = true) : s.edgeStop =
    { s with win := { s.win with stopped := false, clearPending := false, byRequest := false, bySafeHb := false, stopActive := false } } := by
  simp [State.edgeStop, h]

theorem edgeStop_of_not_pending (h : s.win.clearPending = false) : s.edgeStop = { s with win := { s.win with stopActive := s.win.stopped } } := by
  simp [State.edgeStop, h]

/-- Word 10h of the device scope, SAFE_HB: a new period is counted from the edge at which it takes effect. -/
theorem wordChanged_safeHb {old new : Nat} (h : bits old 15 0 ≠ bits new 15 0) :
    s.wordChanged 0 0 0x10 old new = { s with win := { s.win with safeHbSince := s.clock.frameStart } } := by
  simp [State.wordChanged, h]

end StopLatch

/-! ### STOP_STATUS (R385) -/

theorem windowWord_stopStatus (s : State) : s.windowWord 0x4C = s.stopStatus := rfl

/-- Five flags packed from bit 0 up are read back bit by bit. -/
theorem bit_of_fiveFlags : ∀ b0 b1 b2 b3 b4 : Bool, let w := b2n b0 + 2 * b2n b1 + 4 * b2n b2 + 8 * b2n b3 + 16 * b2n b4
    bit w 0 = b0 ∧ bit w 1 = b1 ∧ bit w 2 = b2 ∧ bit w 3 = b3 ∧ bit w 4 = b4 ∧ w < 32 := by decide

/-- Settles O22: STOP_CTL by its key and bits, each setting cause through the latch's own equation, and the edge by CLEAR_PENDING. -/
theorem stopLatch : Obligations.StopLatch := by
  intro s v hp key
  refine ⟨fun hkey => ?_, fun hkey hstop => ?_, exec_stopInAssert hp, rfl, exec_safetyHeartbeatLapse_of_enabled hp, exec_safetyHeartbeatLapse_of_disabled,
    fun hkey hstop hclear => ?_, exec_safetyHeartbeat v hp, edgeStop_of_pending, edgeStop_of_not_pending, fun _ _ => wordChanged_safeHb, ?_⟩
  · exact ⟨congrArg Host.Outcome.next (stopCtl_of_wrong_key hkey), congrArg Host.Outcome.next (stopCtl_of_wrong_key hkey)⟩
  · exact ⟨congrArg Host.Outcome.next ((stopCtl_of_stop hp hkey hstop).trans latchStop_request), rfl⟩
  · have written : exec (.stopClearRequest v) s = .next _ := congrArg Host.Outcome.next (stopCtl_of_clear hp hkey hstop hclear)
    refine ⟨fun ⟨hset, hin, hcurrent⟩ => ?_, fun hrefused => ?_⟩
    · rw [written, if_pos (by simp [hset, hin, safeHbCurrent_eq_true_iff.2 hcurrent])]
    · rw [written, if_neg]
      rcases hrefused with hin | hlapsed
      · simp [hin]
      · simp [safeHbCurrent_eq_false_iff.2 hlapsed]
  · exact bit_of_fiveFlags _ _ _ _ _

/-! ### Transactions of the safety port (R387) -/

/-- What R387 calls a header error, chip select's framing among it. -/
theorem spiBadHeader_eq_true_iff (wire : List Byte) (paused : Bool) : spiBadHeader wire paused = true ↔
    fieldAt wire 4 2 ≠ crc16 (wire.take 4) ∨ paused = false ∨ (fieldAt wire 0 1 ≠ 2 ∧ fieldAt wire 0 1 ≠ 3) ∨ fieldAt wire 1 2 % 4 ≠ 0 ∨
      fieldAt wire 3 1 = 0 ∨ 64 < fieldAt wire 3 1 ∨ 0x1000 < fieldAt wire 1 2 + 4 * fieldAt wire 3 1 := by
  simp only [spiBadHeader, Bool.or_eq_true, decide_eq_true_eq, Bool.not_eq_true', or_assoc]

section Transaction

variable {s : State} {wire : List Byte} {paused : Bool}

theorem spiTransaction_of_badHeader (hup : s.safetyPortUp = true) (hlen : 6 ≤ wire.length) (hbad : spiBadHeader wire paused = true) :
    s.spiTransaction wire paused = s.spiHeaderError := by
  simp [State.spiTransaction, hup, hlen, hbad]

theorem spiTransaction_of_read (hup : s.safetyPortUp = true) (hlen : 6 ≤ wire.length) (hgood : ¬ spiBadHeader wire paused = true)
    (hcmd : fieldAt wire 0 1 = 3) : s.spiTransaction wire paused = s.spiReadOut (fieldAt wire 1 2) (fieldAt wire 3 1) := by
  simp [State.spiTransaction, hup, hlen, hgood, hcmd]

/-- A write takes effect only where its data and their CRC have come before chip select rises. -/
theorem spiTransaction_of_write (hup : s.safetyPortUp = true) (hlen : 6 ≤ wire.length) (hgood : ¬ spiBadHeader wire paused = true)
    (hcmd : fieldAt wire 0 1 = 2) : s.spiTransaction wire paused =
      if wire.length < 8 + 4 * fieldAt wire 3 1 then s else s.spiWriteIn (fieldAt wire 1 2) (fieldAt wire 3 1) wire := by
  simp [State.spiTransaction, hup, hlen, hgood, hcmd]

variable {addr n : Nat}

theorem spiWriteIn_of_badCrc (hcrc : fieldAt wire (6 + 4 * n) 2 ≠ crc16 (wire.take (6 + 4 * n))) :
    s.spiWriteIn addr n wire = s.countSpi.emit (.spi [s.spiStatus 4]) := if_pos hcrc

/-- One word that R384 refuses refuses the whole write. -/
theorem spiWriteIn_of_refused (hcrc : fieldAt wire (6 + 4 * n) 2 = crc16 (wire.take (6 + 4 * n)))
    (hmay : ∃ i, i < n ∧ s.spiMay (addr + 4 * i) = false) : s.spiWriteIn addr n wire = s.emit (.spi [s.spiStatus 8]) := by
  have notAll : (!(List.range n).all fun i => s.spiMay (addr + 4 * i)) = true := by simpa using hmay
  rw [State.spiWriteIn, if_neg (not_not.2 hcrc), if_pos notAll]

theorem spiWriteIn_of_taken (hcrc : fieldAt wire (6 + 4 * n) 2 = crc16 (wire.take (6 + 4 * n)))
    (hmay : ∀ i, i < n → s.spiMay (addr + 4 * i) = true) : s.spiWriteIn addr n wire =
      let t := (List.range n).foldl (fun s i => s.spiWord (addr + 4 * i) (fieldAt wire (6 + 4 * i) 4)) s
      t.emit (.spi [t.spiStatus 1]) := by
  have all : ¬ (!(List.range n).all fun i => s.spiMay (addr + 4 * i)) = true := by simpa using hmay
  rw [State.spiWriteIn, if_neg (not_not.2 hcrc), if_neg all]

end Transaction

/-- CRC-16 of R387 on its check string, and on the empty one. -/
theorem crc16_check : crc16 [0x31, 0x32, 0x33, 0x34, 0x35, 0x36, 0x37, 0x38, 0x39] = 0x29B1 ∧ crc16 [] = 0xFFFF := by decide +kernel

/-- Settles O23: both commands are one transaction, which branches on its header, its length, its data CRC and the words R384 lets the port write. -/
theorem safetyPort : Obligations.SafetyPort := by
  refine ⟨fun s wire paused hp hstage hlen => ?_, crc16_check⟩
  have hup := safetyPortUp_of_stage hp hstage
  extract_lets cmd addr n down bad counted
  have header : spiBadHeader wire paused = true ↔ bad := spiBadHeader_eq_true_iff wire paused
  refine ⟨rfl, fun hbad => ?_, fun hgood hread => ?_, fun hgood hwrite => ?_⟩
  · exact congrArg Host.Outcome.next (spiTransaction_of_badHeader hup hlen (header.2 hbad))
  · exact congrArg Host.Outcome.next (spiTransaction_of_read hup hlen (mt header.1 hgood) hread)
  · have written : exec (.safetySpiWrite wire paused) s = .next _ :=
      congrArg Host.Outcome.next (spiTransaction_of_write hup hlen (mt header.1 hgood) hwrite)
    refine ⟨fun hshort => ?_, fun hlong => ?_⟩
    · rw [written, if_pos hshort]
    · rw [written, if_neg (Nat.not_lt.2 hlong)]
      refine ⟨fun hcrc => ?_, fun hcrc => ⟨fun hmay => ?_, fun hmay => ?_⟩⟩
      · exact congrArg Host.Outcome.next (spiWriteIn_of_badCrc hcrc)
      · exact congrArg Host.Outcome.next (spiWriteIn_of_refused hcrc hmay)
      · exact congrArg Host.Outcome.next (spiWriteIn_of_taken hcrc hmay)

end Sys2Proof.Proofs.FirmwareBoot

/-! PROOFS. Facts about tables and states that several chapters' proofs share. -/

namespace Sys2Proof.Machine

section Tables

variable {α : Type} {t : Tab α} {i : Nat} {v : α}

theorem Tab.mem_of_get? : ∀ {t : Tab α}, t.get? i = some v → (i, v) ∈ t
  | (k, w) :: r, h => by
    by_cases hk : i = k
    · simp_all [Tab.get?]
    · exact List.mem_cons_of_mem _ (Tab.mem_of_get? (by simpa [Tab.get?, hk] using h))

theorem Tab.update_of_get? (f : α → α) (h : t.get? i = some v) : t.update i f = t.set i (f v) := by rw [Tab.update, h]

theorem Tab.update_of_none (f : α → α) (h : t.get? i = none) : t.update i f = t := by rw [Tab.update, h]

theorem Tab.get?_update (t : Tab α) (i j : Nat) (f : α → α) : (t.update i f).get? j = if j = i then (t.get? j).map f else t.get? j := by
  rcases h : t.get? i with _ | v
  · rw [Tab.update_of_none f h]
    split
    next hj => rw [hj, h]; rfl
    next => rfl
  · rw [Tab.update_of_get? f h]
    split
    next hj => rw [hj, Tab.get?_set_self, h]; rfl
    next hj => exact Tab.get?_set_ne t i j _ hj

end Tables

theorem State.foldl_emit {α : Type} (f : α → Output) (l : List α) (s : State) : l.foldl (fun s r => s.emit (f r)) s = { s with out := s.out ++ l.map f } := by
  induction l generalizing s with
  | nil => simp
  | cons a r ih => rw [List.foldl_cons, ih, State.emit, List.map_cons]; simp

/-! ### Packets whose body answers at once -/

section Packets

variable {code : Nat} {checks : Caller → Sys2Proof.Packet → State → Option Nat} {effect : Nat → Caller → Sys2Proof.Packet → State → State × Reply}
  {p : Sys2Proof.Packet} {s t : State} {f : Flight} {c : Caller} {result : Nat}

/-- What `takes` says, by name. -/
theorem State.takes_iff : s.takes p code f c = true ↔
    s.serves p.path code = true ∧ s.fetched p code = some f ∧ s.fenced p f.id = false ∧ s.turnAway p code = none ∧ s.caller p.path = some c := by
  simp only [State.takes, Bool.and_eq_true, Bool.not_eq_true', decide_eq_true_eq, Option.isNone_iff_eq_none, and_assoc]

/-- The flight that is taken carries the packet under its opcode. -/
theorem State.fetched_spec (h : s.fetched p code = some f) : f.opcode = code ∧ f.pkt = p ∧ f.running = false ∧ f.parked = false := by
  have := List.find?_some h
  simp only [Bool.and_eq_true, decide_eq_true_eq, Bool.not_eq_true'] at this
  obtain ⟨⟨⟨hrun, hparked⟩, hcode⟩, hpkt⟩ := this
  exact ⟨hcode, hpkt, hrun, hparked⟩

/-- A packet that is taken, whose checks pass and whose effect completes it with OK. -/
theorem runPacket_okWith (h : s.takes p code f c = true) (hc : checks c p s = none) (he : effect f.id c p s = done0 t result) :
    runPacket code (checked checks effect) p s = t.okWith f (s.verOf p code) result := by
  rw [runPacket_effect code checks effect p s f c h hc, he]
  rfl

end Packets

/-! ### Completions (R62) -/

/-- What the completion of flight `f` records: its packet, and the outcome given. -/
def State.outcome (s : State) (f : Flight) (id st info res ver : Nat) (hw : List (Nat × List Byte)) (ms : List (List Byte)) : Finished :=
  { flight := id, path := f.path, opcode := f.opcode, seq := f.pkt.seq.toNat, ctx := f.pkt.ctx.toNat, ver := ver, irq := Packet.irq f.pkt, status := st,
    info := info ||| s.tailNote f.opcode f.pkt, result := res % 2 ^ 64, frame := s.frameNo, hostWrites := hw, window := s.windowFn f.opcode f.pkt, messages := ms }

/-- A flight that ends goes from the flights to the end of the completions; but for the frame's counters nothing else changes. -/
theorem State.finishFull_eq {s : State} {id : Nat} {f : Flight} (hf : s.flight? id = some f) (st info res : Nat) (v : Option Nat) (hw : List (Nat × List Byte))
    (ms : List (List Byte)) : ∃ a : Stats, s.finishFull id st info res v hw ms =
      { s with proto := { s.proto with flights := s.proto.flights.filter (fun g => g.id ≠ id), finished := s.proto.finished ++ [s.outcome f id st info res (v.getD f.pkt.ver.toNat) hw ms] }, stats := a } := by
  unfold State.finishFull
  rw [hf]
  simp only
  split
  · exact ⟨_, rfl⟩
  · exact ⟨s.stats, rfl⟩

end Sys2Proof.Machine

/-! PROOFS. Packets, completions and events as bytes (03_command_protocol, 15_security). -/

namespace Sys2Proof.Proofs.Framing

open Sys2Proof Sys2Proof.Machine

/-! ### Fields of a byte string -/

theorem leNat_toLe (n v : Nat) : leNat (toLe n v) = v % 256 ^ n := by
  induction n generalizing v with
  | zero => simp [toLe, leNat, Nat.mod_one]
  | succ n ih =>
    have h : (BitVec.ofNat 8 v).toNat = v % 256 := BitVec.toNat_ofNat ..
    rw [toLe, leNat, ih, h, Nat.pow_succ', Nat.mod_mul]

theorem fieldAt_append_of_le {a b : List Byte} {off n : Nat} (h : a.length ≤ off) : fieldAt (a ++ b) off n = fieldAt b (off - a.length) n := by
  rw [fieldAt, List.drop_append, List.drop_eq_nil_of_le h, List.nil_append, fieldAt]

theorem fieldAt_append_toLe {k off n v : Nat} {b : List Byte} (h : k ≤ off) : fieldAt (toLe k v ++ b) off n = fieldAt b (off - k) n := by
  rw [fieldAt_append_of_le (by simpa using h), length_toLe]

theorem fieldAt_toLe_append (n v : Nat) (b : List Byte) : fieldAt (toLe n v ++ b) 0 n = v % 256 ^ n := by
  rw [fieldAt, List.drop_zero, List.take_left' (length_toLe n v), leNat_toLe]

theorem fieldAt_toLe (n v : Nat) : fieldAt (toLe n v) 0 n = v % 256 ^ n := by
  simpa using fieldAt_toLe_append n v []

theorem fieldAt_cons {x : Byte} {off n : Nat} {b : List Byte} (h : 1 ≤ off) : fieldAt (x :: b) off n = fieldAt b (off - 1) n :=
  fieldAt_append_of_le (a := [x]) h

/-- One byte of a string, as a number. -/
theorem fieldAt_one (b : List Byte) (off : Nat) : fieldAt b off 1 = (b.getD off 0).toNat := by
  by_cases h : off < b.length
  · rw [fieldAt, List.drop_eq_getElem_cons h, List.take_succ_cons, List.take_zero]
    simp [leNat, h]
  · rw [fieldAt, List.drop_eq_nil_of_le (not_lt.1 h)]
    simp [leNat, not_lt.1 h]

/-- The field read byte for byte from a place that holds the string. -/
theorem leNat_map_range {b : List Byte} {at_ : Nat → Byte} (hat : ∀ i < b.length, at_ i = b.getD i 0) {off n : Nat} (h : off + n ≤ b.length) :
    leNat ((List.range n).map fun i => at_ (off + i)) = fieldAt b off n := by
  refine congrArg leNat (List.ext_getElem (by simp; omega) fun i h1 h2 => ?_)
  have hi : off + i < b.length := by simp at h1; omega
  simp [hat _ hi, hi]

/-! ### The bytes of a packet (R59) -/

section Packet

variable {p : Packet} {code : Nat}

/-- The header, field after field. -/
theorem packetBytes_eq (code : Nat) (p : Packet) : packetBytes code p =
    toLe 2 code ++ (p.ver :: p.flags :: (toLe 4 p.seq.toNat ++ (toLe 2 p.ctx.toNat ++ (p.len :: (toLe 5 p.rsv.toNat ++ p.body))))) := by
  simp [packetBytes]

theorem length_packetBytes : (packetBytes code p).length = 16 + p.body.length := by
  simp only [packetBytes, List.length_append, length_toLe, List.length_cons, List.length_nil]

theorem packetBytes_opcode (h : code < 2 ^ 16) : fieldAt (packetBytes code p) 0 2 = code := by
  rw [packetBytes_eq, fieldAt_toLe_append, Nat.mod_eq_of_lt (by simpa using h)]

theorem packetBytes_seq : fieldAt (packetBytes code p) 4 4 = p.seq.toNat := by
  rw [packetBytes_eq, fieldAt_append_toLe (by decide), fieldAt_cons (by decide), fieldAt_cons (by decide), fieldAt_toLe_append,
    Nat.mod_eq_of_lt (by simpa using p.seq.isLt)]

theorem packetBytes_ctx : fieldAt (packetBytes code p) 8 2 = p.ctx.toNat := by
  rw [packetBytes_eq, fieldAt_append_toLe (by decide), fieldAt_cons (by decide), fieldAt_cons (by decide), fieldAt_append_toLe (by decide),
    fieldAt_toLe_append, Nat.mod_eq_of_lt (by simpa using p.ctx.isLt)]

theorem packetBytes_rsv : fieldAt (packetBytes code p) 11 5 = p.rsv.toNat := by
  rw [packetBytes_eq, fieldAt_append_toLe (by decide), fieldAt_cons (by decide), fieldAt_cons (by decide), fieldAt_append_toLe (by decide),
    fieldAt_append_toLe (by decide), fieldAt_cons (by decide), fieldAt_toLe_append, Nat.mod_eq_of_lt (by simpa using p.rsv.isLt)]

theorem packetBytes_ver : (packetBytes code p).getD 2 0 = p.ver := rfl

theorem packetBytes_flags : (packetBytes code p).getD 3 0 = p.flags := rfl

theorem packetBytes_len : (packetBytes code p).getD 10 0 = p.len := rfl

theorem drop_packetBytes : (packetBytes code p).drop 16 = p.body := rfl

theorem getD_packetBytes_add (i : Nat) : (packetBytes code p).getD (16 + i) 0 = p.body.getD i 0 := by
  rw [← drop_packetBytes (code := code), List.getD_eq_getElem?_getD, List.getD_eq_getElem?_getD, List.getElem?_drop]

/-- A packet read from its own bytes. -/
theorem packetOf_packetBytes : packetOf p.path (packetBytes code p) = p := by
  simp only [packetOf, fieldAt_one, packetBytes_ver, packetBytes_flags, packetBytes_len, packetBytes_seq, packetBytes_ctx, packetBytes_rsv,
    drop_packetBytes, BitVec.ofNat_toNat, BitVec.setWidth_eq]

variable {s : State} {q : Nat} {c : CmdQueue}

/-- The slots from the consumer index hold the bytes of `p`, wherever the ring wraps. -/
def RingHolds (s : State) (c : CmdQueue) (code : Nat) (p : Packet) : Prop :=
  ∀ i, i < 64 * p.len.toNat →
    s.stores.host.read (hostKey c.fn (c.base + (64 * (c.head % c.slots) + i) % (64 * c.slots))) = (packetBytes code p).getD i 0

theorem ringPacket_of_ringHolds (hwf : p.wf = true) (hpath : p.path = .queue q) (hcode : code < 2 ^ 16) (hring : RingHolds s c code p) :
    s.ringPacket q c = (code, p) := by
  simp only [Packet.wf, Bool.and_eq_true, decide_eq_true_eq] at hwf
  obtain ⟨⟨-, hlen⟩, hbody⟩ := hwf
  have length : (packetBytes code p).length = 64 * p.len.toNat := by rw [length_packetBytes]; omega
  unfold State.ringPacket
  extract_lets at_ num len
  have hat : ∀ i < (packetBytes code p).length, at_ i = (packetBytes code p).getD i 0 := fun i hi => hring i (length ▸ hi)
  have hnum : ∀ o n, o + n ≤ 16 → num o n = fieldAt (packetBytes code p) o n := fun o n h => leNat_map_range hat (by omega)
  have hnumlen : len = p.len.toNat := by rw [show len = _ from hnum 10 1 (by decide), fieldAt_one, packetBytes_len]
  have hread : (List.range (64 * len - 16)).map (fun i => at_ (16 + i)) = p.body := by
    refine List.ext_getElem (by simp; omega) fun i h1 h2 => ?_
    have hi : 16 + i < (packetBytes code p).length := by rw [length_packetBytes]; omega
    rw [List.getElem_map, List.getElem_range, hat _ hi, getD_packetBytes_add, List.getD_eq_getElem _ _ h2]
  rw [hread, hnum 0 2 (by decide), hnum 4 4 (by decide), hnum 8 2 (by decide), hnum 11 5 (by decide), packetBytes_opcode hcode, packetBytes_seq,
    packetBytes_ctx, packetBytes_rsv, hat 2 (by omega), hat 3 (by omega), hat 10 (by omega), packetBytes_ver, packetBytes_flags, packetBytes_len, ← hpath]
  simp only [BitVec.ofNat_toNat, BitVec.setWidth_eq]

end Packet

/-- Settles O6: each field is read where the packet's bytes put it, from a ring by way of the bytes its slots hold. -/
theorem packetsRoundTrip : Obligations.PacketsRoundTrip :=
  ⟨fun _ _ _ _ _ hwf hpath hcode _ hring => ringPacket_of_ringHolds hwf hpath hcode hring,
    fun _ _ _ _ hcode => ⟨packetOf_packetBytes, packetBytes_opcode hcode⟩⟩

/-! ### Completion entries and event records (R62, R64) -/

/-- Settles O5: both records are fields one after another, and a field lies after those before it. -/
theorem completionAndEventLayout : Obligations.CompletionAndEventLayout := by
  refine ⟨fun f qid phase head => ?_, fun e phase seq time => ?_⟩
  · simp [completionBytes, fieldAt_append_toLe, fieldAt_toLe_append, fieldAt_toLe]
  · rcases e with ⟨code, category, severity, _ | ctx, source, detail⟩ <;>
      simp [eventBytes, fieldAt_append_toLe, fieldAt_toLe_append, fieldAt_toLe]

end Sys2Proof.Proofs.Framing

/-! PROOFS. Number formats: rounding in every mode, exact conversions and NaN (04_number_formats). -/

namespace Sys2Proof.Proofs.NumberFormats

open Sys2Proof Sys2Proof.Machine

/-! ### Rounding by the share of the step (R111, R113) -/

section Share

variable {f : Fmt} {m : Nat} {e q : Int}

/-- Below the unit a magnitude has the bits that division by a power of two leaves. -/
theorem fract_mul_zpow_of_lt (m : Nat) (h : e < q) :
    (m : ℚ) * (2 : ℚ) ^ (e - q) - (m / 2 ^ (q - e).toNat : Nat) = ((m % 2 ^ (q - e).toNat : Nat) : ℚ) / ((2 ^ (q - e).toNat : Nat) : ℚ) := by
  have pos : ((2 ^ (q - e).toNat : Nat) : ℚ) ≠ 0 := by positivity
  rw [mul_zpow_sub_of_lt m h, eq_div_iff pos, sub_mul, div_mul_cancel₀ _ pos, sub_eq_iff_eq_add]
  exact_mod_cast (Nat.mod_add_div' m _).symm

/-- The part of the unit `2^q` that lies above the whole units of a magnitude. -/
def partOfUnit (m : Nat) (e q : Int) : ℚ := (m : ℚ) * (2 : ℚ) ^ (e - q) - (roundMag .rtz m e q : ℚ)

theorem partOfUnit_of_le (h : q ≤ e) : partOfUnit m e q = 0 := by
  rw [partOfUnit, roundMag_of_le _ m h, mul_zpow_sub_of_le m h, sub_self]

theorem partOfUnit_of_lt (h : e < q) : partOfUnit m e q = ((m % 2 ^ (q - e).toNat : Nat) : ℚ) / ((2 ^ (q - e).toNat : Nat) : ℚ) := by
  rw [partOfUnit, roundMag_rtz_of_lt m h, fract_mul_zpow_of_lt m h]

theorem partOfUnit_nonneg : 0 ≤ partOfUnit m e q := by
  rw [partOfUnit, roundMag_rtz, sub_nonneg]
  exact Nat.floor_le (by positivity)

theorem partOfUnit_lt_one : partOfUnit m e q < 1 := by
  rw [partOfUnit, roundMag_rtz, sub_lt_iff_lt_add']
  exact Nat.lt_floor_add_one _

/-- One more unit above a half, none below, and the even neighbour at a half. -/
def nearestStep (k : Nat) (share : ℚ) : Nat := if share < 1 / 2 then 0 else if 1 / 2 < share then 1 else k % 2

theorem nearestStep_le_one (k : Nat) (share : ℚ) : nearestStep k share ≤ 1 := by
  unfold nearestStep
  split_ifs <;> omega

theorem roundMag_rne (m : Nat) (e q : Int) : roundMag .rne m e q = roundMag .rtz m e q + nearestStep (roundMag .rtz m e q) (partOfUnit m e q) := by
  obtain h | h := le_or_gt q e
  · rw [partOfUnit_of_le h, roundMag_of_le _ m h, roundMag_of_le _ m h, nearestStep, if_pos (by norm_num), add_zero]
  · have pos : (0 : ℚ) < ((2 ^ (q - e).toNat : Nat) : ℚ) := by positivity
    have below : partOfUnit m e q < 1 / 2 ↔ 2 * (m % 2 ^ (q - e).toNat) < 2 ^ (q - e).toNat := by
      rw [partOfUnit_of_lt h, div_lt_div_iff₀ pos two_pos, one_mul, mul_comm]
      exact_mod_cast Iff.rfl
    have above : 1 / 2 < partOfUnit m e q ↔ 2 ^ (q - e).toNat < 2 * (m % 2 ^ (q - e).toNat) := by
      rw [partOfUnit_of_lt h, div_lt_div_iff₀ two_pos pos, one_mul, mul_comm]
      exact_mod_cast Iff.rfl
    rw [roundMag, if_neg h.not_ge, roundMag_rtz_of_lt m h, nearestStep]
    simp only [below, above]
    split_ifs <;> omega

theorem roundMag_sr (r m : Nat) (e q : Int) : roundMag (.sr r) m e q = roundMag .rtz m e q + if (r : ℤ) < ⌊partOfUnit m e q * 2 ^ 16⌋ then 1 else 0 := by
  obtain h | h := le_or_gt q e
  · rw [partOfUnit_of_le h, roundMag_of_le _ m h, roundMag_of_le _ m h, if_neg (by simp), add_zero]
  · have share : ⌊partOfUnit m e q * 2 ^ 16⌋ = ((m % 2 ^ (q - e).toNat * 2 ^ 16 / 2 ^ (q - e).toNat : Nat) : ℤ) := by
      rw [partOfUnit_of_lt h, div_mul_eq_mul_div, Int.natCast_div, ← Rat.floor_natCast_div_natCast]
      push_cast; rfl
    simp only [roundMag, if_neg h.not_ge, share, Nat.cast_lt]
    split_ifs <;> rfl

end Share

/-! ### The code chosen between two neighbours -/

section Neighbours

variable {f : Fmt} {m : Nat} {e : Int}

/-- Where a magnitude lies between the code toward zero and the next one. -/
def stepShare (f : Fmt) (m : Nat) (e : Int) : ℚ :=
  ((m : ℚ) * (2 : ℚ) ^ e - f.magnitude (f.roundCode .rtz m e)) / (f.magnitude (f.roundCode .rtz m e + 1) - f.magnitude (f.roundCode .rtz m e))

theorem roundCode_zero (mode : RMode) : f.roundCode mode 0 e = 0 := rfl

theorem stepShare_zero : stepShare f 0 e = 0 := by simp [stepShare, roundCode_zero]

theorem stepShare_of_ne_zero (hm : m ≠ 0) : stepShare f m e = partOfUnit m e (unitExp f m e) := by
  have unit : (2 : ℚ) ^ unitExp f m e ≠ 0 := by positivity
  have lower := magnitude_roundCode_rtz (f := f) (e := e) hm (Nat.zero_le 1)
  rw [add_zero, add_zero] at lower
  rw [stepShare, magnitude_roundCode_rtz hm le_rfl, lower, ← mul_zpow_sub_mul_zpow m e (unitExp f m e), ← sub_mul, ← sub_mul, Nat.cast_succ,
    add_sub_cancel_left, one_mul, mul_div_cancel_right₀ _ unit, partOfUnit]

theorem magnitude_roundCode_rtz_le : f.magnitude (f.roundCode .rtz m e) ≤ (m : ℚ) * (2 : ℚ) ^ e := by
  obtain rfl | hm := eq_or_ne m 0
  · simp [roundCode_zero]
  · have lower := magnitude_roundCode_rtz (f := f) (e := e) hm (Nat.zero_le 1)
    rw [add_zero, add_zero] at lower
    rw [lower, ← mul_zpow_sub_mul_zpow m e (unitExp f m e)]
    gcongr
    exact sub_nonneg.1 partOfUnit_nonneg

theorem lt_magnitude_roundCode_rtz_add_one : (m : ℚ) * (2 : ℚ) ^ e < f.magnitude (f.roundCode .rtz m e + 1) := by
  obtain rfl | hm := eq_or_ne m 0
  · simpa [roundCode_zero] using magnitude_strictMono f Nat.zero_lt_one
  · exact lt_magnitude_roundCode_rtz_succ hm

/-- A code has the parity of its units, where a binade has an even number of codes. -/
theorem roundCode_rtz_mod_two (hm : m ≠ 0) (hmb : f.mb ≠ 0) : f.roundCode .rtz m e % 2 = roundMag .rtz m e (unitExp f m e) % 2 := by
  have even : 2 ∣ (unitExp f m e - f.qmin).toNat * 2 ^ f.mb := (dvd_pow_self 2 hmb).mul_left _
  rw [roundCode_of_ne_zero _ hm]
  omega

theorem roundCode_rne (hmb : f.mb ≠ 0) : f.roundCode .rne m e = f.roundCode .rtz m e + nearestStep (f.roundCode .rtz m e) (stepShare f m e) := by
  obtain rfl | hm := eq_or_ne m 0
  · simp [roundCode_zero, stepShare_zero, nearestStep]
  · rw [nearestStep, roundCode_rtz_mod_two hm hmb, ← nearestStep, stepShare_of_ne_zero hm, roundCode_of_ne_zero _ hm, roundCode_of_ne_zero _ hm, roundMag_rne,
      add_assoc]

theorem roundCode_sr (r : Nat) : f.roundCode (.sr r) m e = f.roundCode .rtz m e + if (r : ℤ) < ⌊stepShare f m e * 2 ^ 16⌋ then 1 else 0 := by
  obtain rfl | hm := eq_or_ne m 0
  · simp [roundCode_zero, stepShare_zero]
  · rw [stepShare_of_ne_zero hm, roundCode_of_ne_zero _ hm, roundCode_of_ne_zero _ hm, roundMag_sr, add_assoc]

/-- Which neighbour is nearer, by the share of the step. -/
theorem stepShare_lt_half_iff : stepShare f m e < 1 / 2 ↔
    (m : ℚ) * (2 : ℚ) ^ e - f.magnitude (f.roundCode .rtz m e) < f.magnitude (f.roundCode .rtz m e + 1) - (m : ℚ) * (2 : ℚ) ^ e := by
  have step := sub_pos.2 (magnitude_strictMono f (Nat.lt_add_one (f.roundCode .rtz m e)))
  rw [stepShare, div_lt_div_iff₀ step two_pos]
  constructor <;> intro h <;> linarith

theorem half_lt_stepShare_iff : 1 / 2 < stepShare f m e ↔
    f.magnitude (f.roundCode .rtz m e + 1) - (m : ℚ) * (2 : ℚ) ^ e < (m : ℚ) * (2 : ℚ) ^ e - f.magnitude (f.roundCode .rtz m e) := by
  have step := sub_pos.2 (magnitude_strictMono f (Nat.lt_add_one (f.roundCode .rtz m e)))
  rw [stepShare, div_lt_div_iff₀ two_pos step]
  constructor <;> intro h <;> linarith

/-- A code lies at or below the neighbour toward zero, or at or above the other one; the distances follow. -/
theorem abs_magnitude_sub (c : Nat) : (c ≤ f.roundCode .rtz m e ∧ f.magnitude c ≤ f.magnitude (f.roundCode .rtz m e) ∧
      |f.magnitude c - (m : ℚ) * (2 : ℚ) ^ e| = (m : ℚ) * (2 : ℚ) ^ e - f.magnitude c) ∨
    (f.roundCode .rtz m e + 1 ≤ c ∧ f.magnitude (f.roundCode .rtz m e + 1) ≤ f.magnitude c ∧
      |f.magnitude c - (m : ℚ) * (2 : ℚ) ^ e| = f.magnitude c - (m : ℚ) * (2 : ℚ) ^ e) := by
  obtain h | h := le_or_gt c (f.roundCode .rtz m e)
  · have le := (magnitude_strictMono f).monotone h
    exact .inl ⟨h, le, by rw [abs_sub_comm, abs_of_nonneg (sub_nonneg.2 (le.trans magnitude_roundCode_rtz_le))]⟩
  · have le := (magnitude_strictMono f).monotone (Nat.succ_le_of_lt h)
    exact .inr ⟨h, le, abs_of_nonneg (sub_nonneg.2 (lt_magnitude_roundCode_rtz_add_one.le.trans le))⟩

/-- The neighbour that is strictly nearer than the other is nearer than any other code. -/
theorem abs_lower_le (h : stepShare f m e < 1 / 2) (c : Nat) :
    |f.magnitude (f.roundCode .rtz m e) - (m : ℚ) * (2 : ℚ) ^ e| ≤ |f.magnitude c - (m : ℚ) * (2 : ℚ) ^ e| ∧
      (|f.magnitude c - (m : ℚ) * (2 : ℚ) ^ e| = |f.magnitude (f.roundCode .rtz m e) - (m : ℚ) * (2 : ℚ) ^ e| → c = f.roundCode .rtz m e) := by
  rw [stepShare_lt_half_iff] at h
  have lower : |f.magnitude (f.roundCode .rtz m e) - (m : ℚ) * (2 : ℚ) ^ e| = (m : ℚ) * (2 : ℚ) ^ e - f.magnitude (f.roundCode .rtz m e) := by
    rw [abs_sub_comm, abs_of_nonneg (sub_nonneg.2 magnitude_roundCode_rtz_le)]
  obtain ⟨-, le, dist⟩ | ⟨-, le, dist⟩ := abs_magnitude_sub (f := f) (m := m) (e := e) c
  · exact ⟨by linarith, fun same => (magnitude_strictMono f).injective (by linarith)⟩
  · exact ⟨by linarith, fun same => absurd h (by linarith)⟩

theorem abs_upper_le (h : 1 / 2 < stepShare f m e) (c : Nat) :
    |f.magnitude (f.roundCode .rtz m e + 1) - (m : ℚ) * (2 : ℚ) ^ e| ≤ |f.magnitude c - (m : ℚ) * (2 : ℚ) ^ e| ∧
      (|f.magnitude c - (m : ℚ) * (2 : ℚ) ^ e| = |f.magnitude (f.roundCode .rtz m e + 1) - (m : ℚ) * (2 : ℚ) ^ e| → c = f.roundCode .rtz m e + 1) := by
  rw [half_lt_stepShare_iff] at h
  have upper : |f.magnitude (f.roundCode .rtz m e + 1) - (m : ℚ) * (2 : ℚ) ^ e| = f.magnitude (f.roundCode .rtz m e + 1) - (m : ℚ) * (2 : ℚ) ^ e :=
    abs_of_nonneg (sub_nonneg.2 lt_magnitude_roundCode_rtz_add_one.le)
  obtain ⟨-, le, dist⟩ | ⟨-, le, dist⟩ := abs_magnitude_sub (f := f) (m := m) (e := e) c
  · exact ⟨by linarith, fun same => absurd h (by linarith)⟩
  · exact ⟨by linarith, fun same => (magnitude_strictMono f).injective (by linarith)⟩

/-- At a half both neighbours are as near, and no other code is nearer. -/
theorem abs_either_le {k : Nat} (hk : k ≤ 1) (hlow : ¬ stepShare f m e < 1 / 2) (hhigh : ¬ 1 / 2 < stepShare f m e) (c : Nat) :
    |f.magnitude (f.roundCode .rtz m e + k) - (m : ℚ) * (2 : ℚ) ^ e| ≤ |f.magnitude c - (m : ℚ) * (2 : ℚ) ^ e| := by
  rw [stepShare_lt_half_iff, not_lt] at hlow
  rw [half_lt_stepShare_iff, not_lt] at hhigh
  have half : |f.magnitude (f.roundCode .rtz m e + k) - (m : ℚ) * (2 : ℚ) ^ e| = (m : ℚ) * (2 : ℚ) ^ e - f.magnitude (f.roundCode .rtz m e) := by
    obtain rfl | rfl : k = 0 ∨ k = 1 := by omega
    · rw [add_zero, abs_sub_comm, abs_of_nonneg (sub_nonneg.2 magnitude_roundCode_rtz_le)]
    · rw [abs_of_nonneg (sub_nonneg.2 lt_magnitude_roundCode_rtz_add_one.le)]
      exact le_antisymm hlow hhigh
  obtain ⟨-, le, dist⟩ | ⟨-, le, dist⟩ := abs_magnitude_sub (f := f) (m := m) (e := e) c <;> linarith

/-- To nearest even (R111): no code lies nearer than the one chosen, and of two as near the even one is chosen. -/
theorem roundCode_rne_nearest (hmb : f.mb ≠ 0) (c : Nat) :
    |f.magnitude (f.roundCode .rne m e) - (m : ℚ) * (2 : ℚ) ^ e| ≤ |f.magnitude c - (m : ℚ) * (2 : ℚ) ^ e| ∧
      (|f.magnitude c - (m : ℚ) * (2 : ℚ) ^ e| = |f.magnitude (f.roundCode .rne m e) - (m : ℚ) * (2 : ℚ) ^ e| →
        c = f.roundCode .rne m e ∨ f.roundCode .rne m e % 2 = 0) := by
  rw [roundCode_rne hmb, nearestStep]
  split_ifs with hlow hhigh
  · exact (abs_lower_le hlow c).imp_right fun only same => .inl (only same)
  · exact (abs_upper_le hhigh c).imp_right fun only same => .inl (only same)
  · exact ⟨abs_either_le (by omega) hlow hhigh c, fun _ => .inr (by omega)⟩

end Neighbours

/-! ### A code of the format is written as itself (R117) -/

section Exact

variable {f : Fmt} {t k : Nat}

/-- A whole number of units of a binade has the binade's unit, so no mode rounds it. -/
theorem unitExp_binade (ht : t = 0 ∨ 2 ^ f.mb ≤ k) (hk : k < 2 * 2 ^ f.mb) : unitExp f k (f.qmin + t) = f.qmin + t := by
  have upper : k.log2 ≤ f.mb := by
    obtain rfl | hk0 := eq_or_ne k 0
    · simp
    · exact Nat.lt_succ_iff.1 ((Nat.log2_lt hk0).2 (by rwa [Nat.pow_succ']))
  have lower : t = 0 ∨ f.mb ≤ k.log2 := ht.imp_right fun h => (Nat.le_log2 (by have := Nat.two_pow_pos f.mb; omega)).2 h
  simp only [unitExp]
  omega

theorem roundCode_binade (mode : RMode) (ht : t = 0 ∨ 2 ^ f.mb ≤ k) (hk : k < 2 * 2 ^ f.mb) : f.roundCode mode k (f.qmin + t) = t * 2 ^ f.mb + k := by
  obtain rfl | hk0 := eq_or_ne k 0
  · obtain rfl : t = 0 := ht.resolve_right (by have := Nat.two_pow_pos f.mb; omega)
    simp [roundCode_zero]
  · rw [roundCode_of_ne_zero _ hk0, unitExp_binade ht hk, roundMag_of_le _ _ le_rfl]
    simp

theorem encode_binade (mode : RMode) (sat neg : Bool) (ht : t = 0 ∨ 2 ^ f.mb ≤ k) (hk : k < 2 * 2 ^ f.mb) (hmax : t * 2 ^ f.mb + k ≤ f.maxCode) :
    f.encode mode sat (.fin neg k (f.qmin + t)) = (f.signBit neg + (t * 2 ^ f.mb + k), 0) := by
  have within : f.beyond k (f.qmin + t) = false := by
    simp [beyond_eq, roundCode_binade _ ht hk, unitExp_binade ht hk, hmax]
  have noUnderflow : ¬ (t * 2 ^ f.mb + k = 0 ∧ k ≠ 0) := by omega
  simp only [Fmt.encode, roundCode_binade _ ht hk, within, if_neg noUnderflow, if_neg hmax.not_gt, Bool.false_eq_true, and_false, if_false]

variable {code : Nat}

/-- A code of a finite value stands for a whole number of units of its binade. -/
theorem decode_of_isFin (h : (f.decode code).isFin = true) :
    ∃ t k, code % 2 ^ (f.eb + f.mb) = t * 2 ^ f.mb + k ∧ (t = 0 ∨ 2 ^ f.mb ≤ k) ∧ k < 2 * 2 ^ f.mb ∧ t * 2 ^ f.mb + k ≤ f.maxCode ∧
      f.decode code = .fin (decide (code / 2 ^ (f.eb + f.mb) % 2 = 1)) k (f.qmin + t) := by
  have parts : code % 2 ^ (f.eb + f.mb) / 2 ^ f.mb * 2 ^ f.mb + code % 2 ^ (f.eb + f.mb) % 2 ^ f.mb = code % 2 ^ (f.eb + f.mb) := Nat.div_add_mod' _ _
  have rest : code % 2 ^ (f.eb + f.mb) % 2 ^ f.mb < 2 ^ f.mb := Nat.mod_lt _ (by positivity)
  simp only [Fmt.decode] at h ⊢
  split_ifs at h ⊢ with hinf hnan hsub
  · cases h
  · cases h
  · rw [hsub, Nat.zero_mul, Nat.zero_add] at parts
    exact ⟨0, code % 2 ^ (f.eb + f.mb) % 2 ^ f.mb, by omega, .inl rfl, by omega, by omega, by rw [Nat.cast_zero, add_zero]⟩
  · obtain ⟨t, ht⟩ := Nat.exists_eq_succ_of_ne_zero hsub
    rw [ht, Nat.succ_mul] at parts
    refine ⟨t, 2 ^ f.mb + code % 2 ^ (f.eb + f.mb) % 2 ^ f.mb, by omega, .inr (Nat.le_add_right _ _), by omega, by omega, ?_⟩
    rw [ht, Nat.cast_succ, ← add_assoc, add_sub_cancel_right]

theorem encode_decode (mode : RMode) (sat : Bool) (hcode : code < 2 ^ f.width) (h : (f.decode code).isFin = true) :
    f.encode mode sat (f.decode code) = (code, 0) := by
  obtain ⟨t, k, hmag, ht, hk, hmax, hdec⟩ := decode_of_isFin h
  have sign : code / 2 ^ (f.eb + f.mb) < 2 := by
    rw [Nat.div_lt_iff_lt_mul (by positivity), ← pow_succ']
    rwa [Fmt.width, add_assoc, add_comm] at hcode
  have parts := Nat.div_add_mod' code (2 ^ (f.eb + f.mb))
  rw [hdec, encode_binade mode sat _ ht hk hmax, ← hmag, Prod.mk.injEq]
  refine ⟨?_, rfl⟩
  obtain h0 | h1 : code / 2 ^ (f.eb + f.mb) = 0 ∨ code / 2 ^ (f.eb + f.mb) = 1 := Nat.le_one_iff_eq_zero_or_eq_one.1 (Nat.lt_succ_iff.1 sign)
  · simp [h0, Fmt.signBit] at parts ⊢
    omega
  · simp [h1, Fmt.signBit] at parts ⊢
    omega

end Exact

/-! ### NaN (R115) -/

theorem nan_propagates (x : Fv) : Fv.add .nan x = .nan ∧ Fv.add x .nan = .nan ∧ Fv.mul .nan x = .nan ∧ Fv.mul x .nan = .nan ∧
    Fv.max .nan x = .nan ∧ Fv.max x .nan = .nan ∧ Fv.min .nan x = .nan ∧ Fv.min x .nan = .nan ∧ Fv.div .nan x = .nan ∧ Fv.div x .nan = .nan := by
  cases x <;> exact ⟨rfl, rfl, rfl, rfl, rfl, rfl, rfl, rfl, rfl, rfl⟩

theorem mxForm_of_nan_mem (fmt : Nat) (ar : Arith) (first : Nat) {xs : List Fv} (h : Fv.nan ∈ xs) :
    mxForm fmt ar first xs = (255, xs.map (fun _ => 0), fBlockNan ||| fNanOut) := by
  have any : xs.any Fv.isNan = true := List.any_eq_true.2 ⟨_, h, rfl⟩
  rw [mxForm, if_pos (by simp [any])]

theorem mb_ne_zero {f : Fmt} (hf : f ∈ floatFormats) : f.mb ≠ 0 := by
  simp only [floatFormats, List.mem_cons, List.not_mem_nil, or_false] at hf
  obtain rfl | rfl | rfl | rfl | rfl | rfl | rfl | rfl := hf <;> decide

/-- Settles O26: every mode chooses one of the two codes around the value, by its share of the step between them. -/
theorem roundingIsCorrect : Obligations.RoundingIsCorrect := by
  refine ⟨fun f hf m e => ?_, fun f _ code mode sat => encode_decode mode sat, fun mode sat => ⟨rfl, rfl, rfl, rfl, rfl⟩, nan_propagates,
    fun fmt ar first xs h => ?_⟩
  · exact ⟨roundCode_rne_nearest (mb_ne_zero hf), ⟨magnitude_roundCode_rtz_le, lt_magnitude_roundCode_rtz_add_one⟩, roundCode_sr⟩
  · rw [mxForm_of_nan_mem fmt ar first h]
    exact ⟨rfl, fun c hc => (List.mem_map.1 hc).elim fun _ hx => hx.2.symm⟩

end Sys2Proof.Proofs.NumberFormats

/-! PROOFS. The step: which command it runs, which commands answer a next state, and the idle tick (95_what_each_step_holds, 02_robot_time). -/

namespace Sys2Proof.Proofs.Step

open Sys2Proof Sys2Proof.Machine

/-- Settles O1. -/
theorem stepRunsFront : Obligations.StepRunsFront := fun c rest s h => by rw [step, h]

/-! ### The commands that can stop -/

/-- Only a report above 90 V can go beyond the ratings (R416). -/
theorem vinReport_cases (s : State) (mv : Nat) : (∃ t, s.vinReport mv = some t) ∨ (90000 < mv ∧ s.vinReport mv = none) := by
  unfold State.vinReport
  split
  · exact .inl ⟨_, rfl⟩
  next above =>
    split
    · exact .inl ⟨_, rfl⟩
    · split
      · exact .inr ⟨not_le.1 above, rfl⟩
      · exact .inl ⟨_, rfl⟩

/-- A command other than a report of VIN or a test-port instruction answers a next state. -/
theorem exec_next (c : Instr) (s : State) (hraise : ∀ mv, c ≠ .vinCauseRaise mv) (hclear : ∀ mv, c ≠ .vinCauseClear mv)
    (hjtag : ∀ ir, c ≠ .jtagInstruction ir) : ∃ t, exec c s = .next t := by
  cases c
  case vinCauseRaise mv => exact absurd rfl (hraise mv)
  case vinCauseClear mv => exact absurd rfl (hclear mv)
  case jtagInstruction ir => exact absurd rfl (hjtag ir)
  all_goals exact ⟨_, rfl⟩

/-- Settles O3: two reports of VIN may go beyond the ratings, a private test-port instruction may be refused, and every other command answers. -/
theorem onlyTwoCommandsStop : Obligations.OnlyTwoCommandsStop := by
  intro c s
  by_cases hraise : ∃ mv, c = .vinCauseRaise mv
  · obtain ⟨mv, rfl⟩ := hraise
    obtain ⟨t, ht⟩ | ⟨above, hnone⟩ := vinReport_cases s mv
    · exact .inl ⟨t.vinRaise, by simp [exec, execVinCauseRaise, ht]⟩
    · exact .inr (.inl ⟨⟨mv, .inl rfl, above⟩, by simp [exec, execVinCauseRaise, hnone]⟩)
  by_cases hclear : ∃ mv, c = .vinCauseClear mv
  · obtain ⟨mv, rfl⟩ := hclear
    obtain ⟨t, ht⟩ | ⟨above, hnone⟩ := vinReport_cases s mv
    · exact .inl ⟨t.vinClear, by simp [exec, execVinCauseClear, ht]⟩
    · exact .inr (.inl ⟨⟨mv, .inr rfl, above⟩, by simp [exec, execVinCauseClear, hnone]⟩)
  by_cases hjtag : ∃ ir, c = .jtagInstruction ir
  · obtain ⟨ir, rfl⟩ := hjtag
    cases ir
    case priv code =>
      cases unlocked : s.fw.testModes
      · exact .inl ⟨_, by simp [exec, execJtagInstruction, unlocked]; rfl⟩
      · exact .inr (.inr ⟨⟨code, rfl⟩, rfl, by simp [exec, execJtagInstruction, unlocked]⟩)
    all_goals exact .inl ⟨_, rfl⟩
  exact .inl (exec_next c s (fun mv e => hraise ⟨mv, e⟩) (fun mv e => hclear ⟨mv, e⟩) (fun ir e => hjtag ⟨ir, e⟩))

/-! ### The state after reset -/

/-- Settles O58: every field is read off the reset state. -/
theorem resetState : Obligations.ResetState :=
  ⟨rfl, rfl, rfl, rfl, rfl, rfl, rfl, rfl, rfl, rfl, fun _ _ _ => rfl, rfl, rfl, rfl, rfl, rfl, fun _ => rfl, rfl,
    fun _ => ⟨rfl, rfl, rfl, rfl⟩, rfl⟩

/-! ### What a session's event buffer sends (R67, R394) -/

/-- Only event queues and what left the part differ. -/
def EventsSent (s t : State) : Prop := t = { s with proto := { s.proto with eqs := t.proto.eqs }, out := t.out }

theorem EventsSent.refl (s : State) : EventsSent s s := rfl

theorem EventsSent.trans {s t u : State} (h : EventsSent s t) (g : EventsSent t u) : EventsSent s u := by
  rw [EventsSent] at g ⊢
  rw [h] at g
  exact g

/-- EVENTS_LOST of a session's queue waits in its buffer. -/
theorem reportLost_eventsSent {s : State} {eq : Nat} (h : ∀ q, s.proto.eqs.get? eq = some q → q.owner.isSome) : EventsSent s (s.reportLost eq) := by
  unfold State.reportLost
  split
  · exact .refl s
  next q hq =>
    split
    · obtain ⟨x, hx⟩ := Option.isSome_iff_exists.1 (h q hq)
      simp only [State.writeRecord, hx]
      rfl
    · exact .refl s

theorem sendBuffer_of_owner {s : State} {eq x : Nat} {q : EventQueue} (hq : s.proto.eqs.get? eq = some q) (hx : q.owner = some x) : s.sendBuffer eq =
    State.reportLost { s with proto := { s.proto with eqs := s.proto.eqs.set eq { q with buffer := [] } }, out := s.out ++ q.buffer.map (fun r => .mgmt x 3 r) } eq := by
  simp only [State.sendBuffer, hq, hx, State.foldl_emit]

theorem sendBuffer_of_host {s : State} {eq : Nat} (h : ∀ q, s.proto.eqs.get? eq = some q → q.owner = none) : s.sendBuffer eq = s := by
  unfold State.sendBuffer
  split
  · rfl
  next q hq => rw [h q hq]

theorem sendBuffer_eventsSent (s : State) (eq : Nat) : EventsSent s (s.sendBuffer eq) := by
  rcases hq : s.proto.eqs.get? eq with _ | q
  · rw [State.sendBuffer, hq]
    exact .refl s
  rcases hx : q.owner with _ | x
  · rw [sendBuffer_of_host (by simp [hq, hx])]
    exact .refl s
  · rw [sendBuffer_of_owner hq hx]
    exact EventsSent.trans (t := { s with proto := { s.proto with eqs := s.proto.eqs.set eq { q with buffer := [] } }, out := _ }) rfl (reportLost_eventsSent (by simp [hx]))

theorem sendEvents_eventsSent (s : State) : EventsSent s s.sendEvents := by
  unfold State.sendEvents
  split
  · exact .refl s
  · exact foldl_keeps (EventsSent s) _ _ _ (.refl s) fun t kv h => h.trans (sendBuffer_eventsSent t kv.1)

/-- Nothing is sent where SEC does not work, and nothing where no session owns a queue. -/
theorem sendEvents_of_quiet {s : State} (h : s.procDown 0 = true ∨ ∀ kv ∈ s.proto.eqs, kv.2.owner = none) : s.sendEvents = s := by
  unfold State.sendEvents
  split
  · rfl
  next up =>
    have noOwner : ∀ kv ∈ s.proto.eqs, kv.2.owner = none := h.resolve_left fun down => up (by simp [down])
    exact foldl_keeps (fun t => t = s) _ _ _ rfl fun t kv ht => by
      rw [ht]; exact sendBuffer_of_host fun q hq => noOwner _ (Tab.mem_of_get? hq)

/-- One buffer of a session goes out whole, where nothing was dropped. -/
theorem sendEvents_of_single {s : State} {k x : Nat} {q : EventQueue} (heqs : s.proto.eqs = [(k, q)]) (hx : q.owner = some x) (hdrop : q.dropped = 0)
    (hsec : s.procDown 0 = false) (hp : s.fw.powered = true) :
    s.sendEvents = { s with proto := { s.proto with eqs := [(k, { q with buffer := [] })] }, out := s.out ++ q.buffer.map (fun r => .mgmt x 3 r) } := by
  have one : s.proto.eqs.get? k = some q := by simp [heqs, Tab.get?]
  simp only [State.sendEvents, hsec, hp, heqs, List.foldl_cons, List.foldl_nil, sendBuffer_of_owner one hx]
  simp [State.reportLost, Tab.set, Tab.get?, hdrop]

/-! ### The tick (R22, R27) -/

theorem tick_of_stopped {s : State} (h : s.clock.running = false ∨ s.fw.powered = false) : s.tick = s := by
  rcases h with h | h <;> simp [State.tick, h]

section Tick

/-- The part of the outstanding offset that the slew limit lets one tick make up. -/
def slewPart (s : State) : Int := max (-((bits s.timeCfg 7 0 : Int) * 8000)) (min ((bits s.timeCfg 7 0 : Int) * 8000) s.clock.slew)

/-- What a tick adds to the counter, in 2^-32 ns. -/
def tickBy (s : State) : Int := (8000000000 + s.clock.rate * 8 + slewPart s) * 2 ^ 32 / 1000000000

variable {s : State}

theorem tick_eq (hrun : s.clock.running = true) (hp : s.fw.powered = true) : s.tick =
    { s with clock := { s.clock with now := s.clock.now + ((s.clock.frac + tickBy s) / 2 ^ 32).toNat, frac := ((s.clock.frac + tickBy s) % 2 ^ 32).toNat, slew := s.clock.slew - slewPart s } } := by
  have limit : s.slewLimit * 8 = (bits s.timeCfg 7 0 : Int) * 8000 := by rw [State.slewLimit, mul_assoc]; norm_num
  simp only [State.tick, hrun, hp, Bool.and_true, if_true, limit, tickBy, slewPart]
  rfl

/-- Within the bounds on the rate and on SLEW_PPM a tick is worth more than 7 ns. -/
theorem le_tickBy (hrate : -100000000 ≤ s.clock.rate) (hslew : bits s.timeCfg 7 0 ≤ 200) : 2 ^ 32 ≤ tickBy s := by
  have part : -1600000 ≤ slewPart s := by
    have : -1600000 ≤ -((bits s.timeCfg 7 0 : Int) * 8000) := by omega
    exact this.trans (le_max_left _ _)
  rw [tickBy]
  omega

theorem now_add_frac_tick (hrun : s.clock.running = true) (hp : s.fw.powered = true) (hrate : -100000000 ≤ s.clock.rate) (hslew : bits s.timeCfg 7 0 ≤ 200) :
    s.clock.now < s.tick.clock.now ∧ s.tick.clock.frac < 2 ^ 32 ∧
      (s.tick.clock.now : Int) * 2 ^ 32 + s.tick.clock.frac = s.clock.now * 2 ^ 32 + s.clock.frac + tickBy s := by
  have forward := le_tickBy hrate hslew
  rw [tick_eq hrun hp]
  simp only
  omega

end Tick

/-- Settles O2: the tick by its own equation, and the session's events by the only fields they touch. -/
theorem idleStepTicks : Obligations.IdleStepTicks := by
  intro s hpending
  have sent := sendEvents_eventsSent s.tick
  have tickProto : s.tick.proto = s.proto ∧ s.tick.out = s.out ∧ s.tick.fw = s.fw := by
    unfold State.tick
    split <;> exact ⟨rfl, rfl, rfl⟩
  obtain ⟨hproto, hout, hfw⟩ := tickProto
  have hdown : s.tick.procDown 0 = s.procDown 0 := by rw [State.procDown, State.procDown, hfw]
  refine ⟨by rw [step, hpending], tick_of_stopped, fun hrun hp => ⟨?_, ?_, fun hrate hslew => now_add_frac_tick hrun hp hrate hslew⟩, ?_,
    fun k q x heqs hx hdrop hsec hp => ?_, fun hquiet => ?_⟩
  · rw [tick_eq hrun hp]
  · rw [tick_eq hrun hp]; rfl
  · rw [State.idle, sent, ← hproto, ← hout]
  · rw [State.idle, sendEvents_of_single (by rw [hproto, heqs]) hx hdrop (by rw [hdown, hsec]) (by rw [hfw, hp]), hproto, hout]
  · exact sendEvents_of_quiet (by rw [hdown, hproto]; exact hquiet)

end Sys2Proof.Proofs.Step

/-! PROOFS. Packets that wait and packets that complete (03_command_protocol). -/

namespace Sys2Proof.Proofs.Packets

open Sys2Proof Sys2Proof.Machine

/-! ### What is looked at again where nothing waits (log 36) -/

section NothingWaits

variable {s : State}

/-- A fold whose every pass leaves the state alone leaves it alone. -/
theorem foldl_eq_self {α β : Type} {f : β → α → β} {b : β} {l : List α} (h : ∀ a ∈ l, f b a = b) : l.foldl f b = b := by
  induction l with
  | nil => rfl
  | cons a r ih => rw [List.foldl_cons, h a (List.mem_cons_self ..), ih fun c hc => h c (List.mem_cons_of_mem _ hc)]

theorem settlePlaced_of_none (h : s.proto.flights = []) : s.settlePlaced = s := by simp [State.settlePlaced, h]

theorem settleAppends_of_none (h : s.proto.flights = []) : s.settleAppends = s := by simp [State.settleAppends, h]

theorem retryParked_of_none (h : s.proto.flights = []) : s.retryParked = s := by simp [State.retryParked, h, sortBy]

theorem settleSearches_of_none (h : ∀ kv ∈ s.apps.lattices, kv.2.search = none) : s.settleSearches = s :=
  foldl_eq_self fun kv hkv => by rw [h kv hkv]

theorem settleSeqs_of_none (h : ∀ kv ∈ s.kv.seqs, kv.2.state ≠ 2) : s.settleSeqs = s := by
  rw [State.settleSeqs, List.filter_eq_nil_iff.2 fun kv hkv => by simpa using h kv hkv, List.foldl_nil]

theorem settleStreams_of_none (h : s.apps.streams = []) : s.settleStreams = s := by simp [State.settleStreams, h, Tab.keys]

theorem settleBellows_of_none (h : s.tiers.bellows = []) : s.settleBellows = s := by simp [State.settleBellows, h]

theorem settleStops_of_none (h : s.tiers.stopped = []) : s.settleStops = s := by simp [State.settleStops, h]

theorem settleFrees_of_none (hregions : ∀ kv ∈ s.tiers.regions, kv.2.freeing = none) (hallocs : ∀ a ∈ s.tiers.allocs, a.freeing = none) : s.settleFrees = s := by
  have noRegion : s.tiers.regions.filter (fun kv => kv.2.freeing.isSome && !s.inWork.any (fun x => decide (x.1 ≠ 0x302) && namesHandle x.1 x.2 kv.1)) = [] :=
    List.filter_eq_nil_iff.2 fun kv hkv => by simp [hregions kv hkv]
  have noAlloc : s.tiers.allocs.filter (fun a => a.freeing.isSome && !a.inWork s) = [] := List.filter_eq_nil_iff.2 fun a ha => by simp [hallocs a ha]
  simp only [State.settleFrees, noRegion, List.foldl_nil, noAlloc]

theorem settleGrids_of_none (h : ∀ kv ∈ s.ingest.grids, kv.2.destroy = none) : s.settleGrids = s :=
  foldl_eq_self fun kv hkv => by rw [h kv hkv]

theorem settleJobs_of_none (h : ∀ kv ∈ s.sched.jobs, kv.2.disarm = none) : s.settleJobs = s :=
  foldl_eq_self fun kv hkv => by rw [h kv hkv]

theorem settleFirings_of_none (h : ∀ kv ∈ s.sched.jobs, kv.2.firing = none) : s.settleFirings = s := by
  rw [State.settleFirings, Tab.keysWhere, List.filter_eq_nil_iff.2 fun kv hkv => by simp [h kv hkv], List.map_nil, List.foldl_nil]

/-- With no generation RETIRED each is found as it was. -/
theorem settleKeys_of_none (h : ∀ kv ∈ s.sched.contexts, ∀ g ∈ kv.2.gens, g.state ≠ 2) : s.settleKeys = s := by
  have gens : ∀ kv ∈ s.sched.contexts, (((List.range kv.2.gens.length).zip kv.2.gens).map
      fun g => if g.2.state = 2 ∧ s.genCount kv.1 g.1 = 0 then ⟨0, []⟩ else g.2) = kv.2.gens := fun kv hkv => by
    calc _ = ((List.range kv.2.gens.length).zip kv.2.gens).map Prod.snd :=
          List.map_congr_left fun g hg => if_neg fun retired => h kv hkv g.2 (List.of_mem_zip hg).2 retired.1
      _ = kv.2.gens := List.map_snd_zip (by simp)
  rw [State.settleKeys, Tab.mapVals, List.map_congr_left (g := id) fun kv hkv => by simp only [gens kv hkv]; rfl, List.map_id]

theorem settleLeaving_of_none (hparts : ∀ kv ∈ s.sched.partitions, kv.2.state ≠ 2) (hctxs : ∀ kv ∈ s.sched.contexts, kv.2.destroy = none) :
    s.settleLeaving = s := by
  have drains : s.sched.partitions.keys.foldl (fun s p => s.settleDrain p) s = s := foldl_eq_self fun p _ => by
    unfold State.settleDrain
    split
    · rfl
    next q hq => rw [if_pos (.inl (hparts _ (Tab.mem_of_get? hq)))]
  have leaves : Tab.keysWhere s.sched.contexts (fun _ x => x.destroy.isSome) = [] := by
    rw [Tab.keysWhere, List.filter_eq_nil_iff.2 fun kv hkv => by simp [hctxs kv hkv], List.map_nil]
  simp only [State.settleLeaving, drains, leaves, List.foldl_nil]

theorem settle_of_nothingWaits (h : s.nothingWaits = true) : s.settle = s := by
  simp only [State.nothingWaits, Bool.and_eq_true, List.isEmpty_iff, List.all_eq_true, Option.isNone_iff_eq_none, decide_eq_true_eq] at h
  obtain ⟨⟨⟨⟨⟨⟨⟨⟨⟨⟨⟨hflights, hstreams⟩, hbellows⟩, hstopped⟩, hjobs⟩, hlattices⟩, hseqs⟩, hregions⟩, hallocs⟩, hgrids⟩, hparts⟩, hctxs⟩ := h
  rw [State.settle, settlePlaced_of_none hflights, settleAppends_of_none hflights, settleSearches_of_none hlattices, settleSeqs_of_none hseqs,
    settleStreams_of_none hstreams, settleFrees_of_none hregions hallocs, settleBellows_of_none hbellows, settleGrids_of_none hgrids,
    settleKeys_of_none fun kv hkv => (hctxs kv hkv).2, settleJobs_of_none fun kv hkv => (hjobs kv hkv).1, settleFirings_of_none fun kv hkv => (hjobs kv hkv).2,
    settleStops_of_none hstopped, settleLeaving_of_none hparts fun kv hkv => (hctxs kv hkv).1, retryParked_of_none hflights]

end NothingWaits

/-! ### Packets -/

/-- The completion of a flight records its packet and its outcome (R62). -/
theorem ends_of_flight {s : State} {f : Flight} (ver st info result : Nat) (hf : s.flight? f.id = some f) :
    let t := s.ends f ver st info result
    (∃ fin, t.proto.finished = s.proto.finished ++ [fin] ∧ fin.flight = f.id ∧ fin.path = f.path ∧ fin.status = st ∧ fin.info = info ||| s.tailNote f.opcode f.pkt ∧
      fin.irq = Packet.irq f.pkt ∧ fin.hostWrites = [] ∧ fin.messages = [] ∧ fin.opcode = f.opcode ∧ fin.seq = f.pkt.seq.toNat ∧ fin.ctx = f.pkt.ctx.toNat ∧ fin.ver = ver ∧
      fin.result = result % 2 ^ 64 ∧ fin.frame = s.frameNo) ∧
    t.proto.flights = s.proto.flights.filter (fun g => decide (g.id ≠ f.id)) ∧
    { t with proto := { t.proto with finished := s.proto.finished, flights := s.proto.flights }, stats := s.stats } = s := by
  obtain ⟨a, e⟩ := State.finishFull_eq hf st info result (some ver) [] []
  intro t
  rw [show t = _ from e]
  exact ⟨⟨_, rfl, rfl, rfl, rfl, rfl, rfl, rfl, rfl, rfl, rfl, rfl, rfl, rfl, rfl⟩, rfl, rfl⟩

/-- Settles O4: the ways through `runPacket`, and what a flight's end records. -/
theorem packetsWaitAndComplete : Obligations.PacketsWaitAndComplete := by
  refine ⟨fun code st body p s f hserves hfetched hfenced hturn => ?_, ⟨fun code body p s f hfetched => ⟨fun hdown => ?_, fun ⟨g, hg, hpath, hlt, hwait⟩ => ?_⟩,
    fun s => settle_of_nothingWaits⟩, fun s f ver st info result hf => ?_⟩
  · simp [runPacket, hserves, hfetched, hfenced, State.dispatch, hturn, State.ends]
  · simp [runPacket, hdown]
  · have held : s.fenced p f.id = true := by
      simp only [State.fenced, List.any_eq_true, Bool.and_eq_true, decide_eq_true_eq, Bool.or_eq_true]
      exact ⟨g, hg, ⟨hpath, hlt⟩, hwait⟩
    cases hserves : s.serves p.path code <;> simp [runPacket, hserves, hfetched, held]
  · exact ends_of_flight ver st info result hf

end Sys2Proof.Proofs.Packets

/-! PROOFS. Sessions, queues, event queues and doorbells (03_command_protocol). -/

namespace Sys2Proof.Proofs.Protocol

open Sys2Proof Sys2Proof.Machine

/-! ### Sessions (R68 to R72) -/

section Sessions

variable {p : Packet} {s : State} {f : Flight} {c : Caller}

theorem heartbeatChecks_eq_none (h : shortOk p 16 = true) : heartbeatChecks c p s = none := by
  simp [heartbeatChecks, firstFail, h]

theorem newNonce_ne (s : State) (fn : Nat) : s.newNonce fn ≠ 0 ∧ s.newNonce fn ≠ s.nonceOf fn := by
  unfold State.newNonce
  extract_lets n old
  split_ifs with hfree hone
  · exact hfree
  · exact ⟨by decide, by rw [show s.nonceOf fn = 1 from hone]; decide⟩
  · exact ⟨by decide, Ne.symm hone⟩

/-- HELLO on a function that is not orphaned opens its session at once (R68). -/
theorem exec_hello {v : Nat} (h : s.takes p 1 f c = true) (hc : helloChecks c p s = none)
    (hv : chooseVersion (Packet.fld p 16 1) (Packet.fld p 17 1) = some v) (horphan : ∀ g, s.func? c.fn = some g → g.orphan = false) :
    exec (.hello p) s = .next (((s.setFunc c.fn (fun g => { g with
      session := some ⟨s.newNonce c.fn, v % 16, Packet.fld p 18 2, s.clock.now⟩, orphan := false, reclaimStatus := none, orphanSkips := 0 })).bump).okWith f v (s.newNonce c.fn)) := by
  rw [exec, execHello, helloBody, runPacket_effect 1 _ _ _ _ _ _ h hc]
  rcases hg : s.func? c.fn with _ | g
  · simp only [helloEffect, hv, hg, Bool.false_and, Bool.false_eq_true, if_false]
    rfl
  · simp only [helloEffect, hv, hg, horphan g hg, Bool.false_and, Bool.false_eq_true, if_false]
    rfl

theorem exec_unpark (h : s.takes p 7 f c = true) (hp : shortOk p 16 = true) (ha : s.fw.activation = none) :
    exec (.unpark p) s = .next (State.okWith { s with clock := { s.clock with parked := false } } f (s.verOf p 7) 0) := by
  refine congrArg Host.Outcome.next (runPacket_okWith h (heartbeatChecks_eq_none hp) ?_)
  simp [State.endActivation, ha]

end Sessions

/-- Settles O7: each body is one effect and a completion with OK. -/
theorem sessionCommandsComplete : Obligations.SessionCommandsComplete := by
  refine ⟨fun p s f c => ⟨fun v h hc hv ho => exec_hello h hc hv ho, fun h hp => ?_, fun h hp => ?_, fun h hp => ?_, fun h hp => ?_, fun h hp ha => exec_unpark h hp ha⟩,
    newNonce_ne⟩
  all_goals exact congrArg Host.Outcome.next (runPacket_okWith h (heartbeatChecks_eq_none hp) rfl)

/-! ### Queues and event queues (R53 to R56) -/

section Queues

variable {p : Packet} {s : State} {f : Flight} {c : Caller}

/-- A number is the one named, or one at or above the lowest that may be given. -/
theorem freeNumber_spec {named lo n : Nat} {used : List Nat} {k : Nat} (h : s.freeNumber named lo n used = some k) :
    (named ≠ 0xFFFF → k = named) ∧ (named = 0xFFFF → lo ≤ k) := by
  unfold State.freeNumber at h
  split_ifs at h with hnamed
  · exact ⟨fun _ => (Option.some.inj h).symm, fun e => absurd e hnamed⟩
  · obtain ⟨x, -, rfl⟩ := Option.map_eq_some_iff.1 h
    exact ⟨fun e => absurd e hnamed, fun _ => Nat.le_add_left _ _⟩

theorem queueCreateChecks_spec (h : queueCreateChecks c p s = none) :
    ∃ q, s.freeNumber (Packet.fld p 36 2) 32 4064 s.proto.queues.keys = some q ∧ (Packet.fld p 36 2 ≠ 0xFFFF → q = Packet.fld p 36 2) ∧ 32 ≤ q := by
  simp only [queueCreateChecks, orElse_none, firstFail_none, List.mem_cons, List.not_mem_nil, or_false, forall_eq_or_imp, forall_eq, ite_eq_right_iff,
    reduceCtorEq, imp_false, Bool.not_eq_true, Option.isNone_eq_false_iff] at h
  obtain ⟨⟨⟨⟨-, -, -, -, hqid, -, -⟩, -⟩, -⟩, hfree⟩ := h
  obtain ⟨q, hq⟩ := Option.isSome_iff_exists.1 hfree
  refine ⟨q, hq, (freeNumber_spec hq).1, ?_⟩
  by_cases hnamed : Packet.fld p 36 2 = 0xFFFF
  · exact (freeNumber_spec hq).2 hnamed
  · rw [(freeNumber_spec hq).1 hnamed]
    simp [hnamed] at hqid
    omega

theorem exec_queueCreate (h : s.takes p 8 f c = true) (hc : queueCreateChecks c p s = none) :
    ∃ (q : Nat) (v : CmdQueue), (Packet.fld p 36 2 ≠ 0xFFFF → q = Packet.fld p 36 2) ∧ 32 ≤ q ∧
      v = ⟨c.fn, Packet.fld p 16 8, Packet.fld p 24 8, Packet.fld p 32 4, Packet.fld p 38 2,
        if Packet.fld p 40 2 = 0xFFFF then none else some (Packet.fld p 40 2), Packet.fld p 42 1, Packet.fld p 44 2, 0, 0, 0, 0, false, none⟩ ∧
      exec (.queueCreate p) s = .next (State.okWith { s.bump with proto := { s.proto with queues := s.proto.queues.set q v } } f (s.verOf p 8) q) := by
  obtain ⟨q, hq, hnamed, hlow⟩ := queueCreateChecks_spec hc
  exact ⟨q, _, hnamed, hlow, rfl, congrArg Host.Outcome.next (runPacket_okWith h hc (by simp only [queueCreateEffect, hq]; rfl))⟩

theorem eqCreateChecks_spec (h : eqCreateChecks c p s = none) : ∃ e, s.freeNumber (Packet.fld p 28 2) 0 64 s.proto.eqs.keys = some e := by
  simp only [eqCreateChecks, orElse_none, ite_eq_right_iff, reduceCtorEq, imp_false, Bool.not_eq_true, Option.isNone_eq_false_iff] at h
  exact Option.isSome_iff_exists.1 h.2

theorem exec_eqCreate (h : s.takes p 0xB f c = true) (hc : eqCreateChecks c p s = none) :
    ∃ (e : Nat) (v : EventQueue), (Packet.fld p 28 2 ≠ 0xFFFF → e = Packet.fld p 28 2) ∧
      v = ⟨c.fn, c.session, Packet.fld p 16 8, Packet.fld p 24 4, if c.role = .owner then 0xFFFF else Packet.fld p 30 2,
        if c.role = .owner ∨ Packet.fld p 32 2 = 0xFFFF then none else some (Packet.fld p 32 2), Packet.fld p 34 1, 0, 0, 0, 0, 0, 0, []⟩ ∧
      exec (.eqCreate p) s = .next (State.okWith { s.bump with proto := { s.proto with eqs := s.proto.eqs.set e v } } f (s.verOf p 0xB) e) := by
  obtain ⟨e, he⟩ := eqCreateChecks_spec hc
  refine ⟨e, _, (freeNumber_spec he).1, rfl, congrArg Host.Outcome.next (runPacket_okWith h hc ?_)⟩
  simp only [eqCreateEffect, he, decide_eq_true_eq]
  rfl

theorem exec_eqDestroy {q : EventQueue} (h : s.takes p 0xC f c = true) (hc : eqDestroyChecks c p s = none) (hq : s.proto.eqs.get? (Packet.fld p 16 2) = some q) :
    exec (.eqDestroy p) s = .next (State.okWith { s with proto := { s.proto with eqs := s.proto.eqs.erase (Packet.fld p 16 2) } } f (s.verOf p 0xC) q.dropped) :=
  congrArg Host.Outcome.next (runPacket_okWith h hc (by simp only [eqDestroyEffect, hq]))

theorem exec_eventSubscribe {q : EventQueue} (h : s.takes p 0xD f c = true) (hc : eventSubscribeChecks c p s = none) (hq : s.proto.eqs.get? (Packet.fld p 16 2) = some q) :
    exec (.eventSubscribe p) s = .next (State.okWith { s with proto := { s.proto with
      eqs := s.proto.eqs.set (Packet.fld p 16 2) { q with mask := Packet.fld p 18 1, minSeverity := Packet.fld p 19 1 } } } f (s.verOf p 0xD) 0) :=
  congrArg Host.Outcome.next (runPacket_okWith h hc (by simp only [eventSubscribeEffect, Tab.update_of_get? _ hq]))

/-! ### The end of a queue (R55) -/

/-- The walk over a ring does not look at who destroys its queue. -/
theorem unfetched_congr {s t : State} (hs : t.stores = s.stores) (q : CmdQueue) (o : Option Nat) (k i : Nat) :
    t.unfetched { q with closing := o } k i = s.unfetched q k i := by
  induction k generalizing i with
  | zero => rfl
  | succ k ih => simp only [State.unfetched, hs, ih]

/-- The state in which QUEUE_DESTROY has marked its queue, and its own flight as under way. -/
def markClosing (s : State) (n id : Nat) (q : CmdQueue) : State :=
  { s with proto := { s.proto with
      flights := s.proto.flights.map (fun g => if g.id = id then { g with running := true } else g)
      queues := s.proto.queues.set n { q with closing := some id } } }

variable {n : Nat} {q : CmdQueue} {id : Nat}

theorem queueBusy_markClosing (k : Nat) : (markClosing s n id q).queueBusy k id = s.queueBusy k id := by
  have flights : ∀ l : List Flight, (l.map (fun g => if g.id = id then { g with running := true } else g)).any
      (fun f => decide (f.path = .queue k) && decide (f.id ≠ id)) = l.any (fun f => decide (f.path = .queue k) && decide (f.id ≠ id)) := fun l => by
    rw [List.any_map]
    congr 1
    funext g
    by_cases hg : g.id = id <;> simp [hg]
  simp only [State.queueBusy, markClosing, flights]

theorem flight?_markClosing (hf : s.flight? f.id = some f) : (markClosing s n f.id q).flight? f.id = some { f with running := true } := by
  have find : ∀ l : List Flight, l.find? (fun g => decide (g.id = f.id)) = some f →
      (l.map (fun g => if g.id = f.id then { g with running := true } else g)).find? (fun g => decide (g.id = f.id)) = some { f with running := true } := by
    intro l
    induction l with
    | nil => simp
    | cons a r ih => by_cases ha : a.id = f.id <;> simp_all
  exact find _ hf

theorem queueDestroyEffect_eq (hq : s.proto.queues.get? (Packet.fld p 16 2) = some q) (hopen : q.closing = none) :
    queueDestroyEffect id c p s = ((markClosing s (Packet.fld p 16 2) id q).closeQueue (Packet.fld p 16 2), .later) := by
  simp only [queueDestroyEffect, hq, hopen, Option.isSome_none, Bool.false_eq_true, if_false, markClosing, State.setQueue, State.setFlight, Tab.update_of_get? _ hq]

theorem closeQueue_of_waiting (h : s.queueBusy n id = true ∨ (q.left ≠ 0 ∧ s.canReadRing q.fn = false)) :
    (markClosing s n id q).closeQueue n = markClosing s n id q := by
  have waits : ((markClosing s n id q).queueBusy n id || (decide (q.left ≠ 0) && !s.canReadRing q.fn)) = true := by
    rw [queueBusy_markClosing]
    simpa using h
  have found : (markClosing s n id q).proto.queues.get? n = some { q with closing := some id } := Tab.get?_set_self _ _ _
  rw [State.closeQueue, found]
  exact if_pos waits

/-- With nothing in flight the QUEUE_DESTROY completes with its counts; the queue goes, but for one whose own packet ordered it. -/
theorem closeQueue_of_idle (hf : s.flight? f.id = some f) (hcode : f.opcode = 9) (hidle : s.queueBusy n f.id = false) (hread : q.left = 0 ∨ s.canReadRing q.fn = true) :
    (markClosing s n f.id q).closeQueue n =
      let t := (markClosing s n f.id q).finish f.id St.ok 0 (s.unfetched q q.left q.head + 2 ^ 32 * q.left)
      if f.path = .queue n then t else { t with proto := { t.proto with queues := t.proto.queues.erase n } } := by
  have free : ¬ ((markClosing s n f.id q).queueBusy n f.id || (decide (q.left ≠ 0) && !s.canReadRing q.fn)) = true := by
    rw [queueBusy_markClosing, hidle]
    simpa [or_iff_not_imp_left] using hread
  have found : (markClosing s n f.id q).proto.queues.get? n = some { q with closing := some f.id } := Tab.get?_set_self _ _ _
  rw [State.closeQueue, found]
  refine (if_neg free).trans ?_
  have count := unfetched_congr (s := s) (t := markClosing s n f.id q) rfl q (some f.id) q.left q.head
  have left : CmdQueue.left { q with closing := some f.id } = q.left := rfl
  simp only [flight?_markClosing hf, hcode, if_true, left, count]

/-- QUEUE_DESTROY, whichever way its queue closes: its flight is then under way. -/
theorem exec_queueDestroy (h : s.takes p 9 f c = true) (hc : queueDestroyChecks c p s = none) (hq : s.proto.queues.get? (Packet.fld p 16 2) = some q)
    (hopen : q.closing = none) : exec (.queueDestroy p) s =
      .next (((markClosing s (Packet.fld p 16 2) f.id q).closeQueue (Packet.fld p 16 2)).setFlight f.id (fun g => { g with running := true, parked := false })) := by
  rw [exec, execQueueDestroy, queueDestroyBody, runPacket_effect 9 _ _ _ _ _ _ h hc, queueDestroyEffect_eq hq hopen]
  rfl

/-- The completion of a QUEUE_DESTROY, after which the queue is gone or waits for it to be written. -/
theorem exec_queueDestroy_of_idle (h : s.takes p 9 f c = true) (hc : queueDestroyChecks c p s = none) (hq : s.proto.queues.get? (Packet.fld p 16 2) = some q)
    (hopen : q.closing = none) (hf : s.flight? f.id = some f) (hidle : s.queueBusy (Packet.fld p 16 2) f.id = false) (hread : q.left = 0 ∨ s.canReadRing q.fn = true) :
    ∃ t fin, exec (.queueDestroy p) s = .next t ∧
      t.proto.queues = (if f.path = .queue (Packet.fld p 16 2) then s.proto.queues.set (Packet.fld p 16 2) { q with closing := some f.id }
        else (s.proto.queues.set (Packet.fld p 16 2) { q with closing := some f.id }).erase (Packet.fld p 16 2)) ∧
      t.proto.finished = s.proto.finished ++ [fin] ∧ fin.flight = f.id ∧ fin.status = St.ok ∧ fin.result = (s.unfetched q q.left q.head + 2 ^ 32 * q.left) % 2 ^ 64 := by
  have hcode := (State.fetched_spec (State.takes_iff.1 h).2.1).1
  obtain ⟨fin, a, e, hid, -, -, -, hstatus, -, hresult, -⟩ := State.finishFull_ends _ f.id St.ok 0 (s.unfetched q q.left q.head + 2 ^ 32 * q.left) none [] [] _
    (flight?_markClosing (n := Packet.fld p 16 2) (q := q) hf)
  rw [exec_queueDestroy h hc hq hopen, closeQueue_of_idle hf hcode hidle hread, State.finish, e]
  refine ⟨_, fin, rfl, ?_, ?_, hid, hstatus, hresult⟩ <;> extract_lets t <;> split <;> rfl

end Queues

/-- Settles O8: each command is one effect and a completion, but for QUEUE_DESTROY, whose queue closes as R55 says. -/
theorem queueCommandsComplete : Obligations.QueueCommandsComplete := by
  refine ⟨fun p s f c => ⟨exec_queueCreate, fun h hc => congrArg Host.Outcome.next (runPacket_okWith h hc rfl), exec_eqCreate, fun q => exec_eqDestroy,
    fun q => exec_eventSubscribe⟩, fun p s f c q h hc hq hopen hf => ⟨fun hother hidle hread => ?_, fun hown hidle hread => ?_, fun hwait => ?_⟩⟩
  · obtain ⟨t, fin, he, hqueues, hfin⟩ := exec_queueDestroy_of_idle h hc hq hopen hf hidle hread
    exact ⟨t, fin, he, by rw [hqueues, if_neg hother], hfin⟩
  · obtain ⟨t, fin, he, hqueues, hfin⟩ := exec_queueDestroy_of_idle h hc hq hopen hf hidle hread
    exact ⟨t, fin, he, by rw [hqueues, if_pos hown], hfin⟩
  · rw [exec_queueDestroy h hc hq hopen, closeQueue_of_waiting hwait]
    exact ⟨_, rfl, rfl, rfl⟩

/-! ### Doorbells (R50, R67) -/

section Doorbells

variable {s : State} {fn q : Nat} {v : Word} {c : CmdQueue}

theorem exec_sqTail_of_ring (hc : s.proto.queues.get? q = some c) (hfn : c.fn = fn) : exec (.sqTail fn q v) s =
    .next (if c.slots < (v.toNat + 2 ^ 32 - c.head) % 2 ^ 32 then s.active.haltQueue q else s.active.setQueue q (fun c => { c with tail := v.toNat })) := by
  simp only [exec, execSqTail, hc, hfn, ne_eq, not_true_eq_false, if_false]

theorem exec_cqHead_of_ring (hc : s.proto.queues.get? q = some c) (hfn : c.fn = fn) : exec (.cqHead fn q v) s =
    .next (if (c.cplTail + 2 ^ 32 - c.cplHead) % 2 ^ 32 < (v.toNat + 2 ^ 32 - c.cplHead) % 2 ^ 32 then s.active.haltQueue q
      else s.active.setQueue q (fun c => { c with cplHead := v.toNat })) := by
  simp only [exec, execCqHead, hc, hfn, ne_eq, not_true_eq_false, if_false]

theorem exec_eqHead_of_ring {e : EventQueue} (he : s.proto.eqs.get? q = some e) (hfn : e.fn = fn) (hhost : e.owner = none)
    (hle : (v.toNat + 2 ^ 32 - e.head) % 2 ^ 32 ≤ (e.tail + 2 ^ 32 - e.head) % 2 ^ 32) : exec (.eqHead fn q v) s =
    .next (State.reportLost { s.active with proto := { s.proto with eqs := s.proto.eqs.set q { e with head := v.toNat } } } q) := by
  simp only [exec, execEqHead, he, hfn, hhost, ne_eq, not_true_eq_false, Option.isSome_none, Bool.false_eq_true, or_self, if_false, if_neg hle.not_gt,
    Tab.update_of_get? _ he]

/-- A doorbell of another function, or of no queue, changes nothing. -/
theorem exec_queueDoorbell_of_other (h : ∀ c, s.proto.queues.get? q = some c → c.fn ≠ fn) : exec (.sqTail fn q v) s = .next s ∧ exec (.cqHead fn q v) s = .next s := by
  rcases hc : s.proto.queues.get? q with _ | c
  · simp [exec, execSqTail, execCqHead, hc]
  · simp [exec, execSqTail, execCqHead, hc, h c hc]

theorem exec_eqHead_of_other (h : ∀ e, s.proto.eqs.get? q = some e → e.fn ≠ fn) : exec (.eqHead fn q v) s = .next s := by
  rcases he : s.proto.eqs.get? q with _ | e
  · simp [exec, execEqHead, he]
  · simp [exec, execEqHead, he, h e he]

theorem haltQueue_of_halted (hc : s.proto.queues.get? q = some c) (h : c.halted = true) : s.haltQueue q = s := by
  simp [State.haltQueue, hc, h]

theorem haltQueue_of_running (hc : s.proto.queues.get? q = some c) (h : c.halted = false) : s.haltQueue q =
    (s.setQueue q (fun c => { c with halted := true })).post ⟨1, 0, 2, c.bindCtx, q, 6 + 2 ^ 32 * c.head⟩ := by
  simp only [State.haltQueue, hc, h, Bool.false_eq_true, if_false]
  rfl

end Doorbells

/-- Settles O9: each doorbell compares its index with the ring's own. -/
theorem doorbellsAndHalts : Obligations.DoorbellsAndHalts := by
  refine ⟨fun fn q v s => ⟨fun c hc hfn => ⟨fun hle => ?_, fun hlt => ?_, fun hle => ?_, fun hlt => ?_⟩, fun e he hfn hhost hle => exec_eqHead_of_ring he hfn hhost hle,
    exec_queueDoorbell_of_other, exec_eqHead_of_other⟩, fun s q c hc => ⟨haltQueue_of_halted hc, haltQueue_of_running hc⟩⟩
  · rw [exec_sqTail_of_ring hc hfn, if_neg hle.not_gt]
  · rw [exec_sqTail_of_ring hc hfn, if_pos hlt]
  · rw [exec_cqHead_of_ring hc hfn, if_neg hle.not_gt]
  · rw [exec_cqHead_of_ring hc hfn, if_pos hlt]

end Sys2Proof.Proofs.Protocol

/-! PROOFS. Commit scopes: CONFIG_WRITE, CONFIG_READ, CONFIG_COMMIT and the outcome of a commit (03_command_protocol). -/

namespace Sys2Proof.Proofs.CommitScopes

open Sys2Proof Sys2Proof.Machine

/-! ### Words of a scope (R78, R79) -/

section Words

variable {s : State} {kind id off v key : Nat}

theorem scopeKey_inj {kind' id' off' : Nat} (hid : id < 256) (hid' : id' < 256) (hoff : off < 4096) (hoff' : off' < 4096)
    (h : scopeKey kind id off = scopeKey kind' id' off') : kind = kind' ∧ id = id' ∧ off = off' := by
  simp only [scopeKey] at h
  omega

theorem liveWord_iff : liveWord kind off = true ↔ kind = 3 ∧ off = 4 := by simp [liveWord]

/-- Only the scopes and the slots differ. -/
def WordsOnly (s t : State) : Prop := t = { s with scopes := t.scopes, ingest := t.ingest }

theorem WordsOnly.trans {s t u : State} (h : WordsOnly s t) (g : WordsOnly t u) : WordsOnly s u := by
  rw [WordsOnly] at g ⊢
  rw [h] at g
  exact g

theorem WordsOnly.restore {s t : State} (h : WordsOnly s t) : { t with scopes := s.scopes, ingest := s.ingest } = s := by rw [h]

theorem enableSlot_scopes (s : State) (slot : Nat) (on : Bool) : (s.enableSlot slot on).scopes = s.scopes := by
  unfold State.enableSlot
  cases on <;> rfl

theorem enableSlot_words (s : State) (slot : Nat) (on : Bool) : WordsOnly s (s.enableSlot slot on) := by
  unfold State.enableSlot
  cases on <;> rfl

theorem writeWord_scopes : (s.writeWord kind id off v).scopes = { s.scopes with
    shadow := s.scopes.shadow.set (scopeKey kind id off) v,
    active := if liveWord kind off then s.scopes.active.set (scopeKey kind id off) v else s.scopes.active } := by
  unfold State.writeWord
  split
  · rw [enableSlot_scopes]; rfl
  · rfl

theorem writeWord_words : WordsOnly s (s.writeWord kind id off v) := by
  unfold State.writeWord
  split
  · exact WordsOnly.trans (t := (s.setShadow kind id off v).setActive kind id off v) rfl (enableSlot_words _ _ _)
  · rfl

theorem writeWordsFrom_words (ws : List Nat) : WordsOnly s (writeWordsFrom kind id off ws s) := by
  induction ws generalizing off s with
  | nil => rfl
  | cons v r ih => exact writeWord_words.trans ih

theorem writeWordsFrom_pending (ws : List Nat) : (writeWordsFrom kind id off ws s).scopes.pending = s.scopes.pending := by
  induction ws generalizing off s with
  | nil => rfl
  | cons v r ih => rw [writeWordsFrom, ih, writeWord_scopes]

/-- A place of the shadow copy that no word goes to stays. -/
theorem writeWordsFrom_shadow_ne {ws : List Nat} (h : ∀ i < ws.length, key ≠ scopeKey kind id (off + i)) :
    (writeWordsFrom kind id off ws s).scopes.shadow.get? key = s.scopes.shadow.get? key := by
  induction ws generalizing off s with
  | nil => rfl
  | cons v r ih =>
    rw [writeWordsFrom, ih fun i hi => by rw [add_right_comm, add_assoc]; exact h (i + 1) (by simpa using hi), writeWord_scopes]
    exact Tab.get?_set_ne _ _ _ _ (h 0 (by simp))

theorem writeWordsFrom_shadow {ws : List Nat} {i : Nat} (hi : i < ws.length) :
    (writeWordsFrom kind id off ws s).scopes.shadow.get? (scopeKey kind id (off + i)) = some ws[i] := by
  induction ws generalizing off s i with
  | nil => simp at hi
  | cons v r ih =>
    rw [writeWordsFrom]
    cases i with
    | zero =>
      rw [writeWordsFrom_shadow_ne fun j _ => by simp only [scopeKey]; omega, writeWord_scopes]
      exact Tab.get?_set_self _ _ _
    | succ i => rw [show off + (i + 1) = off + 1 + i by omega, ih (by simpa using hi), List.getElem_cons_succ]

/-- Only the live word of a slot reaches an active copy. -/
theorem writeWordsFrom_active {ws : List Nat} (h : key ≠ scopeKey 3 id 4) :
    (writeWordsFrom kind id off ws s).scopes.active.get? key = s.scopes.active.get? key := by
  induction ws generalizing off s with
  | nil => rfl
  | cons v r ih =>
    rw [writeWordsFrom, ih, writeWord_scopes]
    split
    next live =>
      obtain ⟨rfl, rfl⟩ := liveWord_iff.1 live
      exact Tab.get?_set_ne _ _ _ _ h
    · rfl

end Words

/-! ### CONFIG_WRITE and CONFIG_READ (R79) -/

section Packets

variable {p : Packet} {s : State} {f : Flight} {c : Caller}

theorem length_packetWords (p : Packet) (n : Nat) : (packetWords p n).length = n := by simp [packetWords]

theorem scopeIdOk_lt {kind id : Nat} (h : scopeIdOk s kind id = true) : id < 256 := by
  have slots : slotCount s.order ≤ 96 := by cases s.order <;> decide
  unfold scopeIdOk at h
  split at h <;> simp only [decide_eq_true_eq, Bool.false_eq_true] at h <;> omega

theorem scopeWords_le (kind : Nat) : scopeWords kind ≤ 4096 := by
  unfold scopeWords
  split <;> omega

theorem configWriteChecks_spec (h : configWriteChecks c p s = none) :
    Packet.fld p 18 2 < 256 ∧ Packet.fld p 20 2 + Packet.fld p 22 2 ≤ 4096 := by
  simp only [configWriteChecks, scopeChecks, writeChecks, orElse_none, firstFail_none, List.mem_cons, List.not_mem_nil, or_false, forall_eq_or_imp, forall_eq,
    length_packetWords, Bool.not_eq_false', decide_eq_false_iff_not, not_lt] at h
  obtain ⟨⟨-, hid, -⟩, hwords, -⟩ := h
  exact ⟨scopeIdOk_lt hid, hwords.trans (scopeWords_le _)⟩

theorem exec_configWrite (h : s.takes p 0x10 f c = true) (hc : configWriteChecks c p s = none) (hn : Packet.fld p 22 2 ≠ 0) : exec (.configWrite p) s =
    .next ((writeWordsFrom (Packet.fld p 16 1) (Packet.fld p 18 2) (Packet.fld p 20 2) (packetWords p (Packet.fld p 22 2)) s).okWith f (s.verOf p 0x10) 0) :=
  congrArg Host.Outcome.next (runPacket_okWith h hc (by simp only [configWriteEffect, if_neg hn]))

theorem configWrite_words (hc : configWriteChecks c p s = none) :
    let u := writeWordsFrom (Packet.fld p 16 1) (Packet.fld p 18 2) (Packet.fld p 20 2) (packetWords p (Packet.fld p 22 2)) s
    (∀ i, i < Packet.fld p 22 2 → u.shadowWord (Packet.fld p 16 1) (Packet.fld p 18 2) (Packet.fld p 20 2 + i) = Packet.fld p (32 + 4 * i) 4) ∧
    (∀ kind id off, id < 256 → off < 4096 → ¬(kind = Packet.fld p 16 1 ∧ id = Packet.fld p 18 2 ∧ Packet.fld p 20 2 ≤ off ∧
      off < Packet.fld p 20 2 + Packet.fld p 22 2) → u.shadowWord kind id off = s.shadowWord kind id off) ∧
    (∀ kind id off, id < 256 → off < 4096 → ¬(kind = 3 ∧ off = 4) → u.activeWord kind id off = s.activeWord kind id off) := by
  obtain ⟨hid, hend⟩ := configWriteChecks_spec hc
  refine ⟨fun i hi => ?_, fun kind id off hid' hoff hother => ?_, fun kind id off hid' hoff hlive => ?_⟩
  · rw [State.shadowWord, writeWordsFrom_shadow (by simpa [packetWords] using hi)]
    simp [packetWords]
  · rw [State.shadowWord, writeWordsFrom_shadow_ne, State.shadowWord]
    intro i hi same
    rw [length_packetWords] at hi
    obtain ⟨rfl, rfl, rfl⟩ := scopeKey_inj hid' hid hoff (by omega) same
    exact hother ⟨rfl, rfl, by omega, by omega⟩
  · rw [State.activeWord, writeWordsFrom_active, State.activeWord]
    intro same
    obtain ⟨rfl, -, rfl⟩ := scopeKey_inj hid' hid hoff (by decide) same
    exact hlive ⟨rfl, rfl⟩

/-- What CONFIG_READ delivers: the words of the view, each little-endian. -/
theorem configReadEffect_of_words (id : Nat) (hn : Packet.fld p 22 2 ≠ 0) :
    let bytes := ((List.range (Packet.fld p 22 2)).map (fun i => toLe 4 ((if Packet.fld p 17 1 = 0 then s.shadowWord else s.activeWord)
      (Packet.fld p 16 1) (Packet.fld p 18 2) (Packet.fld p 20 2 + i)))).flatten
    configReadEffect id c p s = (s, if c.role = .owner then .full St.ok 0 0 none [] [bytes]
      else .full St.ok 0 0 none [(hostKey c.fn (Packet.fld p 24 8), bytes)] []) := by
  have view : s.viewWord (Packet.fld p 17 1) = if Packet.fld p 17 1 = 0 then s.shadowWord else s.activeWord := by
    funext kind id off
    rw [State.viewWord]
    split <;> rfl
  simp only [configReadEffect, if_neg hn, view]
  split <;> rfl

end Packets

/-! ### CONFIG_COMMIT (R80) -/

section Commit

variable {s : State} {kind id : Nat}

/-- A rejected commit is counted, and changes no scope. -/
theorem commit_of_rejected (h : (s.commitCheck kind id).status ≠ St.ok) :
    (s.commit kind id).1 = s.acc (fun a => { a with commitsRejected := a.commitsRejected + 1 }) := by
  rw [State.commit, if_pos (show _ ≠ 0 from h)]

theorem commit_of_zeroWork (h : (s.commitCheck kind id).status = St.ok) (hinfo : (s.commitCheck kind id).info ≠ 0) : (s.commit kind id).1 = s := by
  rw [State.commit, if_neg (not_not.2 (show _ = 0 from h)), if_pos hinfo]

/-- An accepted commit waits with its snapshot, and is counted. -/
theorem commit_of_accepted {r : Nat} (h : s.commitCheck kind id = ⟨St.ok, 0, r⟩) : s.commit kind id =
    (State.acc { s with scopes := { s.scopes with pending := s.scopes.pending ++ [⟨⟨kind, id⟩, r, (commitWords kind).map (fun o => (o, s.shadowWord kind id o))⟩] } }
      (fun a => { a with commitsAccepted := a.commitsAccepted + 1 }), ⟨St.ok, 0, r⟩) := by
  simp only [State.commit, h]
  rfl

end Commit

/-- Settles O10: the words reach the shadow copy one by one, a read is of the view it names, and a commit is the snapshot that waits. -/
theorem configurationCommands : Obligations.ConfigurationCommands := by
  refine ⟨fun p s f c h hc hn => ?_, fun p s f c h hc hn => ?_, fun p s f c => ?_⟩
  · obtain ⟨hin, hout, hactive⟩ := configWrite_words hc
    exact ⟨_, exec_configWrite h hc hn, hin, hout, hactive, writeWordsFrom_pending _, (writeWordsFrom_words _).restore⟩
  · intro bytes
    have done : exec (.configRead p) s = .next (s.settleReply f.id (s.verOf p 0x11) _) :=
      congrArg Host.Outcome.next ((runPacket_effect 0x11 _ _ _ _ _ _ h hc).trans (by rw [configReadEffect_of_words f.id hn]))
    exact ⟨fun hhost => by rw [done, if_neg hhost]; rfl, fun howner => by rw [done, if_pos howner]; rfl⟩
  · intro kind id h hc hcheck
    have effect : configCommitEffect f.id c p s = done0 (s.commit kind id).1 s.dueFrame := by
      simp only [configCommitEffect, kind, id, commit_of_accepted hcheck]
      rfl
    rw [commit_of_accepted hcheck] at effect
    exact ⟨_, congrArg Host.Outcome.next (runPacket_okWith h hc effect), rfl, rfl, rfl, rfl, rfl⟩

/-! ### The checks of a commit, in their order (R80) -/

section Checks

variable {s : State} {kind id o : Nat}

theorem commitCheck_of_range (h : rangeCheck kind (s.shadowWord kind id) = some o) : s.commitCheck kind id = ⟨St.badParam, 0, o⟩ := by
  simp only [State.commitCheck, h]

theorem commitCheck_of_pair (hrange : rangeCheck kind (s.shadowWord kind id) = none) (h : s.pairCheck kind id (s.shadowWord kind id) = some o) :
    s.commitCheck kind id = ⟨St.configMismatch, 0, o⟩ := by
  simp only [State.commitCheck, hrange, h]

theorem commitCheck_of_parked (hkind : kind = 0) (hrange : rangeCheck kind (s.shadowWord kind id) = none) (hpair : s.pairCheck kind id (s.shadowWord kind id) = none)
    (h : s.deviceParked (s.shadowWord kind id) = some o) : s.commitCheck kind id = ⟨St.notParked, 0, o⟩ := by
  simp only [State.commitCheck, hrange, hpair, if_pos hkind, h]

/-- Every check of the words has passed. -/
def WordsPass (s : State) (kind id : Nat) : Prop := rangeCheck kind (s.shadowWord kind id) = none ∧ s.pairCheck kind id (s.shadowWord kind id) = none ∧
  (kind = 0 → s.deviceParked (s.shadowWord kind id) = none)

/-- The frame that a commit without work names: that of the last one waiting for its scope, or the current one. -/
def zeroWorkFrame (s : State) (kind id : Nat) : Nat :=
  ((s.scopes.pending.filter (fun c => decide (c.scope = ⟨kind, id⟩))).getLast?.map Commit.frame).getD s.frameNo

theorem commitCheck_of_pass (h : WordsPass s kind id) : s.commitCheck kind id =
    if ∀ o ∈ commitWords kind, s.shadowWord kind id o = s.dueWord kind id o then ⟨St.ok, Inf.zeroWork, zeroWorkFrame s kind id⟩
    else if 32 ≤ s.scopes.pending.length then ⟨St.noResource, 0, 0⟩ else ⟨St.ok, 0, s.dueFrame⟩ := by
  obtain ⟨hrange, hpair, hparked⟩ := h
  have parked : (if kind = 0 then s.deviceParked (s.shadowWord kind id) else none) = none := by
    split
    next hkind => exact hparked hkind
    · rfl
  simp only [State.commitCheck, hrange, hpair, parked, List.all_eq_true, decide_eq_true_eq, zeroWorkFrame]
  split
  · cases (s.scopes.pending.filter (fun c => decide (c.scope = ⟨kind, id⟩))).getLast? <;> rfl
  · rfl

theorem zeroWorkFrame_of_none (h : ∀ x ∈ s.scopes.pending, x.scope ≠ ⟨kind, id⟩) : zeroWorkFrame s kind id = s.frameNo := by
  rw [zeroWorkFrame, List.filter_eq_nil_iff.2 fun x hx => by simpa using h x hx]
  rfl

theorem zeroWorkFrame_of_last {l m : List Commit} {x : Commit} (h : s.scopes.pending = l ++ [x] ++ m) (hx : x.scope = ⟨kind, id⟩)
    (hm : ∀ y ∈ m, y.scope ≠ ⟨kind, id⟩) : zeroWorkFrame s kind id = x.frame := by
  have rest : m.filter (fun c => decide (c.scope = ⟨kind, id⟩)) = [] := List.filter_eq_nil_iff.2 fun y hy => by simpa using hm y hy
  rw [zeroWorkFrame, h, List.filter_append, List.filter_append, rest, List.append_nil]
  simp [hx]

end Checks

/-- Settles O11: the checks in their order, what the two refusals leave, and the edge 5 us away. -/
theorem commitOutcome : Obligations.CommitOutcome := by
  refine ⟨?_, fun s kind id => ⟨fun h => ?_, fun h hinfo => ?_⟩, fun s => ⟨fun h => ?_, fun h => ?_⟩⟩
  · intro s kind id w
    refine ⟨fun o => commitCheck_of_range, fun hrange => ⟨fun o => commitCheck_of_pair hrange, fun hpair =>
      ⟨fun o hkind => commitCheck_of_parked hkind hrange hpair, fun hparked => ?_⟩⟩⟩
    have checked := commitCheck_of_pass (s := s) ⟨hrange, hpair, hparked⟩
    refine ⟨fun same => ⟨zeroWorkFrame s kind id, by rw [checked, if_pos same], zeroWorkFrame_of_none, fun l x m => zeroWorkFrame_of_last⟩,
      fun ⟨o, ho, differs⟩ => ?_⟩
    rw [checked, if_neg fun same => differs (same o ho)]
    exact ⟨fun full => if_pos full, fun room => if_neg room.not_ge⟩
  · rw [commit_of_rejected h]
    exact ⟨rfl, rfl, rfl⟩
  · exact commit_of_zeroWork h (by rw [hinfo]; decide)
  · exact if_pos h
  · exact if_neg h.not_ge

end Sys2Proof.Proofs.CommitScopes

/-! PROOFS. A part in operation on which refutations are evaluated, and commits at their edge (02_robot_time). -/

namespace Sys2Proof.Proofs.Samples

open Sys2Proof Sys2Proof.Machine

/-- A packet body of `n` bytes with fields given as offset in the packet, size and value. -/
def bodyOf (n : Nat) (fields : List (Nat × Nat × Nat)) : List Byte :=
  fields.foldl (fun b f => b.take (f.1 - 16) ++ toLe f.2.1 f.2.2 ++ b.drop (f.1 - 16 + f.2.1)) (zeros n)

/-- A packet of one slot on a path, without flags. -/
def slotPacket (path : Path) (ctx : Nat) (fields : List (Nat × Nat × Nat)) : Packet := ⟨path, 0x23, 0, 1, BitVec.ofNat 16 ctx, 1, 0, bodyOf 48 fields⟩

/-- Flight 1, with a packet only fetched. -/
def fetchedFlight (p : Packet) (code : Nat) : Flight :=
  { id := 1, path := p.path, fn := 0, opcode := code, pkt := p, tagged := true, control := false, running := false, parked := false, pages := false, asked := 0,
    held := false, placed := false, late := false, fetchTime := 0, dispatchTime := 0, deadline := none, status := 0, info := 0, result := 0, writes := [], hostWrites := [] }

def adminRing : CmdQueue := ⟨0, 0x1000, 0x2000, 16, 0, none, 1, 256, 0, 0, 0, 0, false, none⟩

/-- A part that runs, in frame 5, with the admin queue of function 0 and its session. -/
def runningPart : State := { State.reset with
  order := .d8
  clock := { Clock.reset with running := true, now := 5200000, nextFrame := 6, frameStart := 5000000, nextEdge := 6000000 }
  fw := { Firmware.reset deliveredBank ⟨0, 0, 0, false, []⟩ false with powered := true, bootStage := 5 }
  power := { Power.reset .d8 with pwrGood := true }
  proto := { Proto.reset .d8 with
    funcs := Tab.set (funcsAt .d8) 0 { Func.reset with busMaster := true, enable := true, session := some ⟨7, 3, 0, 5000000⟩ }
    queues := [(0, adminRing)] } }

/-- `runningPart` with one flight. -/
def withFlight (f : Flight) : State := { runningPart with proto := { runningPart.proto with flights := [f], nextFlight := 2 } }

end Sys2Proof.Proofs.Samples

namespace Sys2Proof.Proofs.CommitScopes

open Sys2Proof Sys2Proof.Machine Samples

/-- A part on which a CONFIG_COMMIT of the device scope is held, and a device word is staged. No step holds a CONFIG_COMMIT, but the statement ranges
over every state. -/
def heldCommit : State := { withFlight { fetchedFlight (slotPacket (.queue 0) 0xFFFF []) 0x12 with parked := true } with
  scopes := ⟨[(scopeKey 0 0 2, 40)], [], []⟩ }

/-- After the edge's own actions held packets are looked at again (log 36), and this one is accepted. -/
theorem heldCommit_waits : ∃ t c, exec .frameEdge heldCommit = .next t ∧ c ∈ t.scopes.pending := by
  have waits : (match exec .frameEdge heldCommit with | .next t => t.scopes.pending.isEmpty | _ => true) = false := by decide +kernel
  obtain ⟨t, ht⟩ : ∃ t, exec .frameEdge heldCommit = .next t := ⟨_, rfl⟩
  rw [ht] at waits
  obtain ⟨c, hc⟩ := List.exists_mem_of_ne_nil _ (List.isEmpty_eq_false_iff.1 waits)
  exact ⟨t, c, ht, hc⟩

/-- Refutes O12: a CONFIG_COMMIT that a state holds is dispatched again at the end of FRAME_EDGE, and its commit then waits although none waited before. -/
theorem not_commitsApplyAtTheirEdge : ¬ Obligations.CommitsApplyAtTheirEdge := by
  intro h
  obtain ⟨t, c, ht, hc⟩ := heldCommit_waits
  obtain ⟨atEdge, -⟩ := h heldCommit (fun c hc => nomatch hc)
  obtain ⟨u, hu, hpending, -⟩ := atEdge (by decide)
  obtain rfl : u = t := by rw [ht] at hu; exact (Host.Outcome.next.inj hu).symm
  exact nomatch (hpending c hc).1

end Sys2Proof.Proofs.CommitScopes

/-! PROOFS. Robot time: Sync, the loss of it, peer delay and the grandmaster (02_robot_time). -/

namespace Sys2Proof.Proofs.RobotTime

open Sys2Proof Sys2Proof.Machine

theorem State.post_clock (s : State) (e : Event) : (s.post e).clock = s.clock := by rw [(s.post_events e).1]

/-! ### A Sync that is accepted (R26, R27) -/

section Sync

variable (s : State) (port interval : Nat) (offset : Int)

/-- An offset within 1 us. -/
def near (offset : Int) : Bool := decide (-1000 < offset ∧ offset < 1000)

/-- The discipline begins anew. -/
def begins (s : State) : Bool := decide (s.clock.timeState ≠ 2 ∧ s.clock.timeState ≠ 3)

/-- The count of consecutive near Syncs, this one included. -/
def lockRunAt (s : State) (offset : Int) : Nat := if near offset then (if begins s then 0 else s.clock.lockRun) + 1 else 0

/-- LOCKED is entered: sixteen near Syncs in a row. -/
def locks (s : State) (offset : Int) : Bool := decide (s.clock.timeState ≠ 3) && decide (16 ≤ lockRunAt s offset)

/-- The state an accepted Sync leaves, its event aside. -/
def synced (s : State) (offset : Int) (interval : Nat) : State :=
  State.bump { s with clock := { s.clock with
    lastSync := some s.clock.now, syncInterval := interval, offset := offset, rate := s.servo offset, slew := (offset - s.stepPart offset) * 1000000000,
    step := s.stepPart offset, lockRun := lockRunAt s offset, timeState := if locks s offset then 3 else if s.clock.timeState = 3 then 3 else 2 } }

theorem acceptSync_eq : s.acceptSync port offset interval =
    if locks s offset then (synced s offset interval).post (timeEvent 0x12 0 port (toBits 64 offset)) else synced s offset interval := rfl

theorem near_iff : near offset = true ↔ -1000 < offset ∧ offset < 1000 := by rw [near, decide_eq_true_eq]

theorem lockRunAt_eq : lockRunAt s offset =
    if -1000 < offset ∧ offset < 1000 then (if s.clock.timeState ≠ 2 ∧ s.clock.timeState ≠ 3 then 0 else s.clock.lockRun) + 1 else 0 := by
  simp only [lockRunAt, near, begins, decide_eq_true_eq]

theorem locks_iff : locks s offset = true ↔ s.clock.timeState ≠ 3 ∧ 16 ≤ lockRunAt s offset := by
  rw [locks, Bool.and_eq_true, decide_eq_true_eq, decide_eq_true_eq]

theorem synced_clock_only : { synced s offset interval with clock := s.clock, fresh := s.fresh } = s := rfl

theorem synced_timeState : (synced s offset interval).clock.timeState = if locks s offset then 3 else if s.clock.timeState = 3 then 3 else 2 := rfl

theorem synced_lockRun : (synced s offset interval).clock.lockRun = lockRunAt s offset := rfl

theorem lockRunAt_of_begins (h2 : s.clock.timeState ≠ 2) (h3 : s.clock.timeState ≠ 3) : lockRunAt s offset = if -1000 < offset ∧ offset < 1000 then 1 else 0 := by
  simp only [lockRunAt_eq, if_pos (And.intro h2 h3), Nat.zero_add]

theorem lockRunAt_of_running (h : s.clock.timeState = 2 ∨ s.clock.timeState = 3) :
    lockRunAt s offset = if -1000 < offset ∧ offset < 1000 then s.clock.lockRun + 1 else 0 := by
  have : ¬ (s.clock.timeState ≠ 2 ∧ s.clock.timeState ≠ 3) := by omega
  simp only [lockRunAt_eq, if_neg this]

/-- A discipline that begins anew cannot lock with its first Sync. -/
theorem locks_of_begins (h2 : s.clock.timeState ≠ 2) (h3 : s.clock.timeState ≠ 3) : locks s offset = false := by
  rw [Bool.eq_false_iff, Ne, locks_iff, lockRunAt_of_begins s offset h2 h3]
  split <;> omega

theorem locks_of_locking (h : s.clock.timeState = 2) : locks s offset = true ↔ (-1000 < offset ∧ offset < 1000) ∧ 15 ≤ s.clock.lockRun := by
  rw [locks_iff, lockRunAt_of_running s offset (.inl h)]
  split <;> omega

theorem locks_of_locked (h : s.clock.timeState = 3) : locks s offset = false := by
  rw [Bool.eq_false_iff, Ne, locks_iff]
  exact fun hl => hl.1 h

theorem exec_sync_accepted (hup : s.portUp port = true) (hrole : s.role = port + 1) : exec (.sync port offset interval) s =
    .next (if locks s offset then (synced s offset interval).post (timeEvent 0x12 0 port (toBits 64 offset)) else synced s offset interval) := by
  simp [exec, execSync, hup, hrole, acceptSync_eq]

theorem exec_sync_ignored (h : s.role ≠ port + 1 ∨ s.portUp port = false) : exec (.sync port offset interval) s = .next s := by
  obtain h | h := h <;> simp [exec, execSync, h]

/-! ### What is stepped and what is slewed (R27) -/

/-- Stepping is allowed, and the offset is at or above the threshold. -/
abbrev Steps (s : State) (offset : Int) : Prop :=
  bits s.timeCfg 15 8 ≠ 0 ∧ ((bits s.timeCfg 15 8 * 1000000 : Nat) : Int) ≤ offset ∧ s.clock.parked = true ∧ s.controlActive = false

theorem stepPart_eq : s.stepPart offset = if Steps s offset then offset.toNat / 1000 * 1000 else 0 := by
  simp only [State.stepPart, Steps, Bool.not_eq_true']

theorem stepPart_whole : s.stepPart offset % 1000 = 0 := by
  rw [stepPart_eq]
  split <;> omega

theorem stepPart_pos (h : s.stepPart offset ≠ 0) :
    ((bits s.timeCfg 15 8 * 1000000 : Nat) : Int) ≤ offset ∧ 0 < offset ∧ s.clock.parked = true ∧ s.controlActive = false ∧
      offset - s.stepPart offset < 1000 := by
  rw [stepPart_eq] at h
  by_cases hs : Steps s offset
  · rw [if_pos hs] at h
    have hstep := stepPart_eq s offset
    rw [if_pos hs] at hstep
    obtain ⟨-, above, parked, control⟩ := hs
    exact ⟨above, by omega, parked, control, by omega⟩
  · exact absurd (if_neg hs) h

theorem stepPart_of_steps (hms : 0 < bits s.timeCfg 15 8) (habove : ((bits s.timeCfg 15 8 * 1000000 : Nat) : Int) ≤ offset)
    (hparked : s.clock.parked = true) (hcontrol : s.controlActive = false) : (s.stepPart offset : Int) = offset / 1000 * 1000 := by
  rw [stepPart_eq, if_pos ⟨by omega, habove, hparked, hcontrol⟩]
  omega

theorem exec_sync_clock (hup : s.portUp port = true) (hrole : s.role = port + 1) :
    ∃ t, exec (.sync port offset interval) s = .next t ∧ t.clock = (synced s offset interval).clock := by
  refine ⟨_, exec_sync_accepted s port interval offset hup hrole, ?_⟩
  split
  · rw [State.post_clock]
  · rfl

end Sync

/-! ### The loss of Sync (R26) -/

theorem exec_timeHoldover_other {s : State} (h2 : s.clock.timeState ≠ 2) (h3 : s.clock.timeState ≠ 3) : exec .timeHoldover s = .next s := by
  simp [exec, execTimeHoldover, State.lossTime, h2, h3]

theorem exec_timeFree_other {s : State} (h : s.clock.timeState ≠ 4) : exec .timeFree s = .next s := by simp [exec, execTimeFree, h]

/-- The loss of Sync is noticed three intervals after the last one. -/
def noticed (s : State) (last : Nat) : State :=
  { s with clock := { s.clock with now := max s.clock.now (last + 3 * s.clock.syncInterval), lockRun := 0 } }

theorem exec_timeHoldover {s : State} {last : Nat} (hlast : s.clock.lastSync = some last) (h : s.clock.timeState = 2 ∨ s.clock.timeState = 3) :
    exec .timeHoldover s = .next
      (if s.holdoverNs < 3 * s.clock.syncInterval then (noticed s last).enterFree else ((noticed s last).onCrystal 4).post (timeEvent 0x13 1 (s.role - 1) 0)) := by
  have hloss : s.lossTime = some (last + 3 * s.clock.syncInterval) := by rw [State.lossTime, if_pos h, hlast]; rfl
  have hlt : s.clock.lastSync.getD 0 + s.holdoverNs < last + 3 * s.clock.syncInterval ↔ s.holdoverNs < 3 * s.clock.syncInterval := by
    rw [hlast, Option.getD_some, Nat.add_lt_add_iff_left]
  simp only [exec, execTimeHoldover, hloss]
  exact congrArg _ (if_congr hlt rfl rfl)

theorem exec_timeFree {s : State} {last : Nat} (hlast : s.clock.lastSync = some last) (h : s.clock.timeState = 4) :
    exec .timeFree s = .next (s.reach (last + s.holdoverNs + 1)).enterFree := by simp only [exec, execTimeFree, if_pos h, hlast, Option.getD_some]

/-! ### The rest of gPTP (R25) -/

/-- Messages go out in order on the ports whose links are up. -/
theorem foldl_emit_portUp (l : List (Nat × String)) (s : State) : l.foldl (fun s m => if s.portUp m.1 then s.emit (.gptp m.1 m.2) else s) s =
    { s with out := s.out ++ (l.filter (fun m => s.portUp m.1)).map (fun m => .gptp m.1 m.2) } := by
  induction l generalizing s with
  | nil => simp
  | cons m l ih =>
    rw [List.foldl_cons, ih]
    by_cases hm : s.portUp m.1 = true
    · simp only [hm, if_true, List.filter_cons, List.map_cons, State.emit, List.append_assoc, List.singleton_append]
      rfl
    · simp [hm]

theorem exec_gmSyncTransmit {s : State} (hready : s.controlReady = true) (hrole : s.role = 0) : exec .gmSyncTransmit s = .next { s with
    clock := { s.clock with now := max s.clock.now s.clock.nextSync, nextSync := s.clock.nextSync + s.syncEvery },
    out := s.out ++ (([(0, "Sync"), (0, "Follow_Up"), (0, "Announce"), (1, "Sync"), (1, "Follow_Up"), (1, "Announce")] : List (Nat × String)).filter
      (fun m => s.portUp m.1)).map (fun m => .gptp m.1 m.2) } := by
  simp only [exec, execGmSyncTransmit, hready, hrole, decide_true, Bool.and_self, if_true, foldl_emit_portUp]
  rfl

theorem peerDelay_exec (s : State) (port : Nat) (t1 t2 t3 t4 : Int) (hup : s.portUp port = true) : exec (.pdelayResp port t1 t2 t3 t4) s =
    .next { s with clock := { s.clock with peerDelay := s.clock.peerDelay.set port (((t4 - t1) - (t3 - t2)) / 2) } } := by
  simp [exec, execPdelayResp, hup]

/-- Settles O15. -/
theorem timeStates : Obligations.TimeStates := by
  refine ⟨fun s port interval offset => ⟨exec_sync_ignored s port interval offset, fun hup hrole => ?_⟩,
    fun s port interval offset hup hrole => ?_, fun s => ⟨exec_timeHoldover_other, exec_timeFree_other, fun last hlast => ⟨fun h => ?_, fun h => ?_⟩⟩,
    fun s port reqId t1 t2 t3 t4 => ⟨rfl, fun hdown => ?_, fun hup => ⟨?_, ?_⟩, exec_gmSyncTransmit, fun h => ?_⟩⟩
  · rw [exec_sync_accepted s port interval offset hup hrole]
    refine ⟨synced s offset interval, synced_clock_only s interval offset, rfl, rfl, rfl, fun h2 h3 => ?_, fun h => ?_, fun h hnot => ?_,
      fun h hlo hhi hrun => ?_, fun h => ?_⟩
    · have hl := locks_of_begins s offset h2 h3
      simp [synced_timeState, synced_lockRun, lockRunAt_of_begins s offset h2 h3, hl, h3]
    · rw [synced_lockRun, lockRunAt_of_running s offset h]
    · have hl : ¬ locks s offset = true := by rw [locks_of_locking s offset h]; omega
      simp [synced_timeState, hl, h]
    · have hl : locks s offset = true := (locks_of_locking s offset h).2 ⟨⟨hlo, hhi⟩, hrun⟩
      simp [synced_timeState, hl, timeEvent]
    · simp [synced_timeState, locks_of_locked s offset h, h]
  · obtain ⟨t, ht, hclock⟩ := exec_sync_clock s port interval offset hup hrole
    refine ⟨t, ht, ?_⟩
    rw [hclock]
    refine ⟨rfl, stepPart_whole s offset, ?_, stepPart_pos s offset, stepPart_of_steps s offset⟩
    simp only [synced, State.bump]
    ring
  · rw [exec_timeHoldover hlast h]
    exact ⟨fun hle => congrArg _ (if_neg (not_lt.2 hle)), fun hlt => congrArg _ (if_pos hlt)⟩
  · exact exec_timeFree hlast h
  · simp [exec, execPdelayReq, execPdelayResp, hdown]
  · simp [exec, execPdelayReq, hup, State.emit]
  · exact ⟨_, peerDelay_exec s port t1 t2 t3 t4 hup, Tab.get?_set_self .., fun q hq => Tab.get?_set_ne _ _ _ _ hq, rfl⟩
  · obtain h | h := h <;> simp [exec, execGmSyncTransmit, h]

end Sys2Proof.Proofs.RobotTime

/-! PROOFS. The frame statistics page: its publication, its sessions and its layout (02_robot_time, 18_pins_package). -/

namespace Sys2Proof.Proofs.Statistics

open Sys2Proof Sys2Proof.Machine Sys2Proof.Proofs.Framing

/-! ### Publication (R37) -/

section Publication

variable {s : State} {e : StatsEntry} {r : List StatsEntry}

theorem lastPublish_lt_publishTime (s : State) (r : List StatsEntry) : s.fw.lastPublish < s.publishTime r := by
  simp only [State.publishTime, Bool.and_eq_true, decide_eq_true_eq]
  split <;> omega

/-- While later entries wait, 50 us lie between two pages. -/
theorem publishTime_of_later (h : r ≠ []) : s.fw.lastPublish + 50000 ≤ s.publishTime r := by
  simp [State.publishTime, h]

/-- The robot time of the page of the oldest entry. -/
def publishedAt (s : State) (r : List StatsEntry) : Nat := (s.reach (s.publishTime r)).clock.now

theorem le_publishedAt : s.clock.now ≤ publishedAt s r ∧ s.publishTime r ≤ publishedAt s r := by
  simp [publishedAt, State.reach]

/-- The sessions after the publication: the entry waits on each that selects its frame. -/
def offered (s : State) (e : StatsEntry) (at_ : Nat) : Tab OwnerSession := s.sec.sessions.mapVals (fun _ x =>
  if x.decimate ≠ 0 ∧ e.frameNo % x.decimate = 0 then { x with unsent := some e, unsentAt := at_ } else x)

theorem offered_get? {at_ x : Nat} {y : OwnerSession} (h : s.sec.sessions.get? x = some y) : (offered s e at_).get? x =
    some (if y.decimate ≠ 0 ∧ e.frameNo % y.decimate = 0 then { y with unsent := some e, unsentAt := at_ } else y) := by
  rw [offered, Tab.get?_mapVals, h, Option.map_some]

theorem exec_statsPublish (hup : s.hearthUp = true) (hring : s.stats.ring = e :: r) : exec .statsPublish s = .next { s with
    clock := { s.clock with now := publishedAt s r },
    stats := { s.stats with ring := r, pageA := if s.stats.newerB then e.page false (publishedAt s r) else s.stats.pageA,
                            pageB := if s.stats.newerB then s.stats.pageB else e.page false (publishedAt s r), newerB := !s.stats.newerB },
    fw := { s.fw with lastPublish := publishedAt s r },
    sec := { s.sec with sessions := offered s e (publishedAt s r) } } := by
  simp only [exec, execStatsPublish, hup, if_true, State.publish, hring]
  rfl

end Publication

/-! ### Sessions (R480) -/

theorem exec_statsStream {p : Packet} {s : State} {f : Flight} {c : Caller} {x : Nat} {y : OwnerSession} (h : s.takes p 0x101 f c = true)
    (hshort : shortOk p 18 = true) (hx : c.session = some x) (hy : s.sec.sessions.get? x = some y) :
    exec (.statsStream p) s = .next (State.ends { s with sec := { s.sec with sessions := s.sec.sessions.set x { y with decimate := Packet.fld p 16 2, unsent := if Packet.fld p 16 2 = 0 then none else y.unsent } } }
      f (s.verOf p 0x101) St.ok (if Packet.fld p 16 2 = 0 ∧ y.decimate = 0 then Inf.zeroWork else 0) 0) := by
  have hchecks : statsStreamChecks c p s = none := by simp [statsStreamChecks, hshort, firstFail]
  simp only [exec, execStatsStream, statsStreamBody]
  rw [runPacket_effect _ _ _ _ _ _ _ h hchecks]
  simp only [statsStreamEffect, hx, hy, Tab.update_of_get? _ hy, Bool.and_eq_true, decide_eq_true_eq]
  rfl

theorem exec_statsPageSend {s : State} {x : Nat} {y : OwnerSession} {e : StatsEntry} (hy : s.sec.sessions.get? x = some y) (he : y.unsent = some e)
    (hup : s.procDown 0 = false) : exec (.statsPageSend x) s =
      .next { s with out := s.out ++ [.mgmt x 5 (e.page true y.unsentAt)], sec := { s.sec with sessions := s.sec.sessions.set x { y with unsent := none } } } := by
  simp only [exec, execStatsPageSend, hy, he, hup]
  rfl

/-! ### The layout of the page (R38) -/

theorem getD_append_of_le {a b : List Byte} {i : Nat} (h : a.length ≤ i) : (a ++ b).getD i 0 = b.getD (i - a.length) 0 := by
  rw [List.getD_eq_getElem?_getD, List.getD_eq_getElem?_getD, List.getElem?_append_right h]

theorem getD_zeros (n i : Nat) : (zeros n).getD i 0 = 0 := by
  rw [List.getD_eq_getElem?_getD, zeros, List.getElem?_replicate]
  split <;> rfl

theorem getD_zeros_append {n i : Nat} (h : i < n) (b : List Byte) : (zeros n ++ b).getD i 0 = 0 := by
  rw [List.getD_eq_getElem?_getD, List.getElem?_append_left (by simpa using h), ← List.getD_eq_getElem?_getD, getD_zeros]

theorem fieldAt_append_of_within {a b : List Byte} {off n : Nat} (h : off + n ≤ a.length) : fieldAt (a ++ b) off n = fieldAt a off n := by
  rw [fieldAt, List.drop_append_of_le_length (by omega), List.take_append_of_le_length (by rw [List.length_drop]; omega), fieldAt]

section Record

variable (r : PartRec) (owner : Bool)

theorem length_partRec : (r.bytes owner).length = 128 := by simp [PartRec.bytes]

/-- The reserved bytes of a partition's record. -/
theorem getD_partRec_reserved {k : Nat} (hk : 72 ≤ k) (b : List Byte) (h : k < 128) : (r.bytes owner ++ b).getD k 0 = 0 := by
  rw [PartRec.bytes, List.append_assoc, getD_append_of_le (by simpa using hk)]
  exact getD_zeros_append (by simp; omega) b

end Record

section Page

variable (e : StatsEntry) (owner : Bool) (publish : Nat)

/-- The FLAGS of the page. -/
def pageFlags (e : StatsEntry) (owner : Bool) : Nat :=
  b2n e.acc.commitApplied + 2 * b2n e.acc.cfgChanged + 4 * b2n e.acc.stepped + 8 * b2n e.late + 16 * b2n (!owner)

theorem page_eq : e.page owner publish =
    toLe 8 e.frameNo ++ (toLe 8 e.start ++ (toLe 8 e.stop ++ (toLe 8 publish ++ (toLe 2 e.timeState ++ (toLe 2 (pageFlags e owner) ++
    (toLe 4 (toBits 32 e.rate) ++ (toLe 8 (toBits 64 e.offset) ++ (toLe 4 e.acc.commitsAccepted ++ (toLe 4 e.acc.commitsRejected ++
    (toLe 2 e.acc.tagPeakShared ++ (toLe 2 e.acc.tagPeakControl ++ (toLe 2 e.acc.emergencyPeak ++ (toLe 2 e.acc.misses ++
    (toLe 8 (if owner then e.acc.energy else e.acc.energy / 1000) ++ (zeros 56 ++ ((e.parts.map (fun r => r.bytes owner)).flatten ++ zeros 1920)))))))))))))))) := by
  simp only [StatsEntry.page, pageFlags, List.append_assoc]

theorem fieldAt_drop (b : List Byte) (o k n : Nat) : fieldAt b (o + k) n = fieldAt (b.drop o) k n := by
  rw [fieldAt, fieldAt, List.drop_drop]

theorem getD_drop (b : List Byte) (o k : Nat) : b.getD (o + k) 0 = (b.drop o).getD k 0 := by
  rw [List.getD_eq_getElem?_getD, List.getD_eq_getElem?_getD, List.getElem?_drop]

theorem length_records (l : List PartRec) : (l.map (fun r => r.bytes owner)).flatten.length = 128 * l.length := by
  induction l with
  | nil => rfl
  | cons r l ih => rw [List.map_cons, List.flatten_cons, List.length_append, length_partRec, ih, List.length_cons]; omega

/-- The records lie one after another. -/
theorem drop_records {l : List PartRec} {i : Nat} {r : PartRec} (h : l[i]? = some r) (b : List Byte) :
    ∃ rest, ((l.map (fun r => r.bytes owner)).flatten ++ b).drop (128 * i) = r.bytes owner ++ rest := by
  induction l generalizing i with
  | nil => simp at h
  | cons a l ih =>
    rw [List.map_cons, List.flatten_cons, List.append_assoc]
    cases i with
    | zero => obtain rfl : a = r := by simpa using h
              exact ⟨_, rfl⟩
    | succ i =>
      obtain ⟨rest, hrest⟩ := ih (i := i) (by simpa using h)
      refine ⟨rest, ?_⟩
      rw [List.drop_append, List.drop_eq_nil_of_le (by rw [length_partRec]; omega), List.nil_append, length_partRec, ← hrest,
        show 128 * (i + 1) - 128 = 128 * i by omega]

theorem drop_page {i : Nat} {r : PartRec} (h : e.parts[i]? = some r) : ∃ rest, (e.page owner publish).drop (128 + 128 * i) = r.bytes owner ++ rest := by
  obtain ⟨rest, hrest⟩ := drop_records owner h (zeros 1920)
  refine ⟨rest, ?_⟩
  rw [← hrest, ← List.drop_drop, StatsEntry.page, List.append_assoc,
    List.drop_left' (by simp only [List.length_append, length_toLe, length_zeros])]

theorem length_page (h : e.parts.length = 16) : (e.page owner publish).length = 4096 := by
  simp only [page_eq, List.length_append, length_toLe, length_zeros, length_records, h]

theorem getD_page_reserved {i : Nat} (hi : 72 ≤ i) (h : i < 128) : (e.page owner publish).getD i 0 = 0 := by
  obtain ⟨k, rfl⟩ := Nat.exists_eq_add_of_le hi
  rw [getD_drop, page_eq]
  exact getD_zeros_append (by omega) _

theorem pageFlags_bits : bit (pageFlags e owner % 2 ^ 16) 4 = !owner ∧ bit (pageFlags e owner % 2 ^ 16) 3 = e.late ∧
    bit (pageFlags e owner % 2 ^ 16) 2 = e.acc.stepped ∧ bit (pageFlags e owner % 2 ^ 16) 1 = e.acc.cfgChanged ∧
    bit (pageFlags e owner % 2 ^ 16) 0 = e.acc.commitApplied := by
  unfold pageFlags
  generalize e.acc.commitApplied = a, e.acc.cfgChanged = b, e.acc.stepped = c, e.late = d
  revert a b c d owner
  decide

end Page

theorem toBits_lt (w : Nat) (i : Int) : toBits w i < 2 ^ w := by
  have h := Int.emod_lt_of_pos i (b := ((2 ^ w : Nat) : Int)) (by positivity)
  have h0 := Int.emod_nonneg i (b := ((2 ^ w : Nat) : Int)) (by positivity)
  unfold toBits
  omega

/-- The header of the page. -/
theorem page_fields (e : StatsEntry) (owner : Bool) (publish : Nat) :
    let b := e.page owner publish
    (fieldAt b 0 8 = e.frameNo % 2 ^ 64 ∧ fieldAt b 8 8 = e.start % 2 ^ 64 ∧ fieldAt b 16 8 = e.stop % 2 ^ 64 ∧ fieldAt b 24 8 = publish % 2 ^ 64 ∧
      fieldAt b 32 2 = e.timeState % 2 ^ 16 ∧ fieldAt b 34 2 = pageFlags e owner % 2 ^ 16) ∧
    (fieldAt b 48 4 = e.acc.commitsAccepted % 2 ^ 32 ∧ fieldAt b 52 4 = e.acc.commitsRejected % 2 ^ 32 ∧
      fieldAt b 56 2 = e.acc.tagPeakShared % 2 ^ 16 ∧ fieldAt b 58 2 = e.acc.tagPeakControl % 2 ^ 16 ∧ fieldAt b 62 2 = e.acc.misses % 2 ^ 16 ∧
      fieldAt b 64 8 = (if owner then e.acc.energy else e.acc.energy / 1000) % 2 ^ 64) ∧
    fieldAt b 36 4 = toBits 32 e.rate ∧ fieldAt b 40 8 = toBits 64 e.offset ∧ fieldAt b 60 2 = e.acc.emergencyPeak % 2 ^ 16 := by
  intro b
  have hrate : toBits 32 e.rate % 4294967296 = toBits 32 e.rate := Nat.mod_eq_of_lt (toBits_lt 32 e.rate)
  have hoffset : toBits 64 e.offset % 18446744073709551616 = toBits 64 e.offset := Nat.mod_eq_of_lt (toBits_lt 64 e.offset)
  simp (disch := decide) only [b, page_eq, fieldAt_append_toLe, fieldAt_toLe_append, Nat.reduceSub, Nat.reducePow, hrate, hoffset, and_self]

theorem record_fields (r : PartRec) (owner : Bool) (rest : List Byte) :
    let b := r.bytes owner ++ rest
    let ctl := r.cls = 0 ∧ r.state ≠ 0
    fieldAt b 0 1 = r.state % 256 ∧ fieldAt b 1 1 = r.cls % 256 ∧ fieldAt b 2 1 = r.cores % 256 ∧ fieldAt b 3 1 = b2n r.oneShort ∧
    fieldAt b 4 4 = r.acc.dispatched % 2 ^ 32 ∧ fieldAt b 8 4 = r.acc.completed % 2 ^ 32 ∧ fieldAt b 12 4 = r.acc.misses % 2 ^ 32 ∧
    fieldAt b 16 8 = r.acc.coreTime % 2 ^ 64 ∧ fieldAt b 24 8 = r.acc.t1 % 2 ^ 64 ∧ fieldAt b 32 8 = r.acc.t2rd % 2 ^ 64 ∧
    fieldAt b 40 8 = r.acc.t2wr % 2 ^ 64 ∧ fieldAt b 48 8 = r.acc.t3 % 2 ^ 64 ∧ fieldAt b 56 8 = (if owner then r.energy else r.energy / 1000) % 2 ^ 64 ∧
    fieldAt b 64 4 = (if ctl then r.acc.latMax % 2 ^ 32 else 0) ∧ fieldAt b 68 4 = (if ctl then toBits 32 (r.acc.slackMin.getD 0) else 0) := by
  intro b ctl
  have hbits (i : Int) : toBits 32 i % 2 ^ 32 = toBits 32 i := Nat.mod_eq_of_lt (toBits_lt 32 i)
  have hbool : b2n r.oneShort % 256 = b2n r.oneShort := by cases r.oneShort <;> rfl
  simp (disch := decide) only [b, ctl, PartRec.bytes, List.append_assoc, fieldAt_append_toLe, fieldAt_toLe_append, Nat.reduceSub, Nat.reducePow, hbool]
  refine ⟨trivial, trivial, trivial, trivial, trivial, trivial, trivial, trivial, trivial, trivial, trivial, trivial, trivial, ?_, ?_⟩
  · by_cases h : r.cls = 0 ∧ r.state ≠ 0 <;> simp [h]
  · rw [← hbits]
    by_cases h : r.cls = 0 ∧ r.state ≠ 0 <;> simp [h]

/-- Settles O17. -/
theorem statistics : Obligations.Statistics := by
  refine ⟨fun s => ⟨fun e r hup hring => ?_, fun p f c x y => exec_statsStream, fun x y e => exec_statsPageSend⟩, fun e owner publish => ?_⟩
  · have ⟨hnow, hpub⟩ := le_publishedAt (s := s) (r := r)
    refine ⟨_, exec_statsPublish hup hring, rfl, hnow, (lastPublish_lt_publishTime s r).trans_le hpub, rfl, rfl,
      fun h => (publishTime_of_later h).trans hpub, fun x y => offered_get?, fun h => ?_, fun h => ?_⟩ <;> simp [h]
  · intro b
    obtain ⟨hop, hlate, hstep, hcfg, hcommit⟩ := pageFlags_bits e owner
    obtain ⟨⟨hno, hstart, hstop, hpub, hts, hflags⟩, ⟨hacc, hrej, hshared, hcontrol, hmiss, henergy⟩, hrate, hoffset, hpeak⟩ := page_fields e owner publish
    refine ⟨hno, hstart, hstop, hpub, hts, hflags ▸ hop, hflags ▸ hlate, hflags ▸ hstep, hflags ▸ hcfg, hflags ▸ hcommit, hacc, hrej, hshared, hcontrol,
      hmiss, henergy, hrate, hoffset, hpeak, length_page e owner publish, fun i => getD_page_reserved e owner publish, fun i r h => ?_⟩
    intro o ctl
    obtain ⟨rest, hrest⟩ := drop_page e owner publish h
    have hfield (k n : Nat) : fieldAt b (o + k) n = fieldAt (r.bytes owner ++ rest) k n := by rw [fieldAt_drop, hrest]
    have hfirst : fieldAt b o 1 = fieldAt (r.bytes owner ++ rest) 0 1 := hfield 0 1
    simp only [hfirst, hfield]
    obtain ⟨hstate, hcls, hcores, hshort, hdispatched, hcompleted, hmisses, htime, ht1, hrd, hwr, ht3, henergy, hlat, hslack⟩ := record_fields r owner rest
    refine ⟨hstate, hcls, hcores, hshort, hdispatched, hcompleted, hmisses, htime, ht1, hrd, hwr, ht3, henergy, hlat, hslack, fun k hlo hhi => ?_⟩
    rw [← Nat.add_sub_of_le (show o ≤ k by omega), getD_drop, hrest]
    exact getD_partRec_reserved r owner (by omega) rest (by omega)

end Sys2Proof.Proofs.Statistics

/-! PROOFS. Fetching: the queue that Hearth turns to, and what it takes from it (03_command_protocol). -/

namespace Sys2Proof.Proofs.Fetching

open Sys2Proof Sys2Proof.Machine

/-! ### The queue that is next (R57) -/

section Choice

variable {s : State} {q g : Nat} {c : CmdQueue}

theorem Tab.mem_keysWhere {α : Type} {t : Tab α} {f : Nat → α → Bool} {i : Nat} : i ∈ t.keysWhere f ↔ ∃ v, (i, v) ∈ t ∧ f i v = true := by
  simp [Tab.keysWhere]

theorem mem_keysWhere_fetchable : q ∈ Tab.keysWhere s.proto.queues (fun q c => decide (fetchGroup q c = g) && (decide ((none : Option Nat) = some q) || s.fetchable q c)) ↔
    ∃ c, (q, c) ∈ s.proto.queues ∧ fetchGroup q c = g ∧ s.fetchable q c = true := by
  simp [Tab.mem_keysWhere]

/-- The queue of a group that is next is one of it that may be fetched, after the one last served where there is such a one. -/
theorem nextIn_spec (h : s.nextIn g = some q) : (∃ c, (q, c) ∈ s.proto.queues ∧ fetchGroup q c = g ∧ s.fetchable q c = true) ∧
    ((∃ kv ∈ s.proto.queues, fetchGroup kv.1 kv.2 = g ∧ s.fetchable kv.1 kv.2 = true ∧ s.proto.lastServed.getD g 0 < kv.1) →
      s.proto.lastServed.getD g 0 < q) := by
  unfold State.nextIn State.nextWith at h
  extract_lets qs last at h
  rcases hfind : qs.find? (fun q => decide (last < q)) with _ | k
  · rw [hfind] at h
    refine ⟨mem_keysWhere_fetchable.1 (List.mem_of_mem_head? h), fun ⟨kv, hmem, hgroup, hfetch, hlast⟩ => ?_⟩
    have hnot := List.find?_eq_none.1 hfind kv.1 (mem_keysWhere_fetchable.2 ⟨kv.2, hmem, hgroup, hfetch⟩)
    exact absurd (decide_eq_true hlast) hnot
  · rw [hfind] at h
    obtain rfl : k = q := Option.some.inj h
    exact ⟨mem_keysWhere_fetchable.1 (List.mem_of_find?_eq_some hfind), fun _ => of_decide_eq_true (List.find?_some (p := fun q => decide (last < q)) hfind)⟩

theorem chooseQueue_of_class0 (h : s.nextIn 0 = some q) : s.chooseQueue = some (q, s.proto.credits) := by
  rw [State.nextIn] at h
  simp only [State.chooseQueue, State.chooseWith, h]

theorem chooseQueue_of_admin (h0 : s.nextIn 0 = none) (h : s.nextIn 4 = some q) : s.chooseQueue = some (q, s.proto.credits) := by
  rw [State.nextIn] at h0 h
  simp only [State.chooseQueue, State.chooseWith, h0, h]

/-- The credits of classes 1 to 3, renewed when no class with a packet has one left. -/
def creditsNow (s : State) : List Nat :=
  if [1, 2, 3].any (fun h => (s.nextIn h).isSome && decide (0 < s.proto.credits.getD (h - 1) 0)) then s.proto.credits else [16, 4, 1]

/-- The first of the classes 1 to 3 with a property. -/
theorem find?_classes {P : Nat → Bool} (h : [1, 2, 3].find? P = some g) : P g = true ∧ ∀ k, 1 ≤ k → k < g → P k = false := by
  refine ⟨List.find?_some h, fun k hk hkg => ?_⟩
  have hle : g ∈ [1, 2, 3] := List.mem_of_find?_eq_some h
  have hk12 : k = 1 ∨ k = 2 := by simp at hle; omega
  have h1 : P 1 = false := by
    by_contra h1
    rw [List.find?_cons_of_pos (by simpa using h1)] at h
    exact absurd (Option.some.inj h) (by omega)
  obtain rfl | rfl := hk12
  · exact h1
  · by_contra h2
    rw [List.find?_cons_of_neg (by simp [h1]), List.find?_cons_of_pos (by simpa using h2)] at h
    exact absurd (Option.some.inj h) (by omega)

theorem chooseQueue_of_credits {cr : List Nat} (h0 : s.nextIn 0 = none) (h4 : s.nextIn 4 = none) (h : s.chooseQueue = some (q, cr)) :
    ∃ g, (g = 1 ∨ g = 2 ∨ g = 3) ∧ s.nextIn g = some q ∧ 0 < (creditsNow s).getD (g - 1) 0 ∧
      cr = (creditsNow s).set (g - 1) ((creditsNow s).getD (g - 1) 0 - 1) ∧
      (∀ h, 1 ≤ h → h < g → s.nextIn h = none ∨ (creditsNow s).getD (h - 1) 0 = 0) := by
  have hall : creditsNow s = if ([1, 2, 3].filter (fun g => (s.nextIn g).isSome)).any (fun g => decide (0 < s.proto.credits.getD (g - 1) 0)) then s.proto.credits else [16, 4, 1] := by
    rw [List.any_filter]; rfl
  have hchoose : s.chooseQueue = (([1, 2, 3].filter (fun g => (s.nextIn g).isSome)).find? (fun g => decide (0 < (creditsNow s).getD (g - 1) 0))).bind
      (fun g => (s.nextIn g).map (fun q => (q, (creditsNow s).set (g - 1) ((creditsNow s).getD (g - 1) 0 - 1)))) := by
    unfold State.chooseQueue State.chooseWith
    rw [show s.nextWith none 0 = none from h0, show s.nextWith none 4 = none from h4]
    rcases hf : ([1, 2, 3].filter (fun g => (s.nextIn g).isSome)).find? (fun g => decide (0 < (creditsNow s).getD (g - 1) 0)) with _ | g
    all_goals
      rw [hall] at hf ⊢
      simp only [State.nextIn] at hf ⊢
      erw [hf]
      rfl
  rw [hchoose, Option.bind_eq_some_iff] at h
  obtain ⟨g, hfind, hq⟩ := h
  obtain ⟨q', hq', heq⟩ := Option.map_eq_some_iff.1 hq
  obtain ⟨rfl, rfl⟩ := Prod.mk.inj heq
  have hmem := List.mem_of_find?_eq_some hfind
  refine ⟨g, by simpa using (List.mem_filter.1 hmem).1, hq', of_decide_eq_true (List.find?_some (p := fun g => decide (0 < (creditsNow s).getD (g - 1) 0)) hfind), rfl,
    fun k hk hkg => ?_⟩
  rw [List.find?_filter] at hfind
  have hnot := (find?_classes hfind).2 k hk hkg
  by_contra hno
  rw [not_or, ← Ne, Option.ne_none_iff_isSome] at hno
  exact of_decide_eq_false hnot ⟨hno.1, decide_eq_true (Nat.pos_of_ne_zero hno.2)⟩

/-- What keeps a queue unfetched (R57, R85 to R87, R386, R437). -/
theorem fetchable_spec (h : s.fetchable q c = true) : c.halted = false ∧ c.closing = none ∧ s.inflight q + s.heldOf q c.fn < c.maxInflight ∧
    s.inflight q + s.heldOf q c.fn + (c.cplTail + 2 ^ 32 - c.cplHead) % 2 ^ 32 < c.slots ∧ 0 < c.left ∧
    s.canReadRing c.fn = true ∧ ((∀ f, s.func? c.fn = some f → f.orphan = true) → q < 32 ∨ c.cls = 0) ∧
    (s.win.stopActive = true → q < 32 ∨ c.cls = 0) ∧
    (32 ≤ q → c.cls = 0 → s.tagsUsed true < 512) ∧
    (tagless (s.ringPacket q c).1 = false → (q < 32 ∨ c.cls ≠ 0) → s.tagsUsed false < 15872) ∧
    (tagless (s.ringPacket q c).1 = false → 32 ≤ q → 2 ≤ c.cls → s.power.applied = 0) := by
  simp only [State.fetchable, State.admits, Bool.and_eq_true, decide_eq_true_eq, Bool.not_eq_true', Bool.or_eq_true, Option.isNone_iff_eq_none,
    Bool.and_eq_false_iff, decide_eq_false_iff_not] at h
  obtain ⟨⟨hleft, ⟨⟨⟨⟨⟨⟨⟨⟨hhalt, hclose⟩, hread⟩, -⟩, horphan⟩, hmax⟩, hring⟩, htags⟩, hpower⟩, hstop⟩, -⟩ := h
  refine ⟨hhalt, hclose, hmax, hring, hleft, hread, fun ho => ?_, fun hs => ?_, fun h32 hcls => ?_, fun htag hcls => ?_, fun htag h32 hcls => ?_⟩
  · cases hf : s.func? c.fn with
    | none => simp [State.canReadRing, hf] at hread
    | some x =>
      simp only [hf, ho x hf] at horphan
      tauto
  · simp only [hs, Bool.true_eq_false, false_or, Bool.not_eq_false', decide_eq_true_eq, Bool.and_eq_true] at hstop
    tauto
  · simpa [hcls, not_lt.2 h32] using htags
  · have hnot : ¬ (c.cls = 0 ∧ ¬ q < 32) := by tauto
    rw [if_neg hnot, htag] at htags
    simpa using htags
  · obtain ((htagless | hq) | hcls') | hp := hpower
    · rw [htag] at htagless; cases htagless
    · omega
    · omega
    · exact hp

end Choice

/-! ### Heartbeats and flights (R84, R86) -/

section Parts

variable {s : State} {fn code : Nat} {p : Packet}

/-- A heartbeat touches the session of its function alone. -/
theorem beatAtFetch_spec (s : State) (fn code : Nat) (p : Packet) : ∃ F : Tab Func, s.beatAtFetch fn p code = { s with proto := { s.proto with funcs := F } } ∧
    (∀ k g, s.func? k = some g → ∃ g', F.get? k = some g' ∧ g' = { g with session := g'.session }) ∧ (∀ k, s.func? k = none → F.get? k = none) ∧
    (code ≠ 2 → F = s.proto.funcs) ∧
    (∀ g x, code = 2 → s.turnAway p 2 = none → shortOk p 16 = true → s.func? fn = some g → g.session = some x →
      F.get? fn = some { g with session := some { x with lastBeat := s.clock.now } }) := by
  unfold State.beatAtFetch
  split
  next h =>
    refine ⟨_, rfl, fun k g hk => ?_, fun k hk => ?_, fun h2 => absurd h.1 h2, fun g x _ _ _ hg hx => ?_⟩
    · rw [Tab.get?_update, show s.proto.funcs.get? k = some g from hk]
      split <;> exact ⟨_, rfl, rfl⟩
    · rw [Tab.get?_update, show s.proto.funcs.get? k = none from hk, Option.map_none, ite_self]
    · rw [Tab.get?_update, if_pos rfl, show s.proto.funcs.get? fn = some g from hg, Option.map_some, hx, Option.map_some]
  next h =>
    refine ⟨s.proto.funcs, rfl, fun k g hk => ⟨g, hk, rfl⟩, fun k hk => hk, fun _ => rfl, fun g x h2 hturn hshort _ _ => absurd ⟨h2, by simp [hturn], hshort⟩ h⟩

/-- A new flight stands behind the others, and the frame's tag peaks follow. -/
theorem newFlight_spec (s : State) (p : Packet) (code : Nat) : ∃ (f : Flight) (a : Stats),
    s.newFlight p code = ({ s with proto := { s.proto with flights := s.proto.flights ++ [f], nextFlight := s.proto.nextFlight + 1 }, stats := a }, s.proto.nextFlight) ∧
    f.id = s.proto.nextFlight ∧ f.opcode = code ∧ f.pkt = p ∧ f.path = p.path ∧ f.running = false ∧ f.parked = false ∧ f.fetchTime = s.clock.now :=
  ⟨_, _, rfl, rfl, rfl, rfl, rfl, rfl, rfl, rfl⟩

end Parts

/-! ### Taking a packet (R57 to R61, R84, R86, R87) -/

section Taking

variable {s : State} {q : Nat} {c : CmdQueue} {cr : List Nat}

theorem exec_packetFetch (hup : s.hearthUp = true) (hstandby : s.power.standby = false) (hchoose : s.chooseQueue = some (q, cr))
    (hq : s.proto.queues.get? q = some c) : exec .packetFetch s = .next ((s.serve q c cr).fetchFrom q c) := by
  have hup' : (s.running && decide (4 ≤ s.fw.bootStage) && !s.hearthDown) = true := hup
  simp only [exec, execPacketFetch, hup', hstandby, hchoose, hq]
  rfl

theorem exec_packetFetch_none (h : s.chooseQueue = none) : exec .packetFetch s = .next s := by
  simp only [exec, execPacketFetch, h, ite_self]

/-- The state with the consumer index of queue `q` moved past its packet. -/
def movedPast (s : State) (q : Nat) (c : CmdQueue) (cr : List Nat) : State :=
  { s with
    power := { s.power with lastActivity := s.clock.now },
    proto := { s.proto with
      credits := cr, lastServed := s.proto.lastServed.set (fetchGroup q c) q,
      queues := s.proto.queues.set q { c with head := (c.head + (s.ringPacket q c).2.len.toNat) % 2 ^ 32 } } }

theorem movedPast_eq (hq : s.proto.queues.get? q = some c) : ((s.serve q c cr).active.setQueue q
    (fun d => { d with head := (d.head + Machine.Packet.len (s.ringPacket q c).2) % 2 ^ 32 })) = movedPast s q c cr := by
  simp only [State.setQueue, State.active, State.serve, Tab.update_of_get? _ hq]
  rfl

theorem movedPast_queues_ne {k : Nat} (h : k ≠ q) : (movedPast s q c cr).proto.queues.get? k = s.proto.queues.get? k :=
  Tab.get?_set_ne _ _ _ _ h

theorem movedPast_queues_self : (movedPast s q c cr).proto.queues.get? q =
    some { c with head := (c.head + (s.ringPacket q c).2.len.toNat) % 2 ^ 32 } := Tab.get?_set_self ..

/-- A fault of LEN halts the queue where it stands. -/
theorem fetchFrom_halts (h : (s.ringPacket q c).2.len.toNat = 0 ∨ c.slots < (s.ringPacket q c).2.len.toNat) :
    (s.serve q c cr).fetchFrom q c = (s.serve q c cr).haltQueue q := if_pos h

/-- A packet of the ring has the queue's path. -/
theorem ringPacket_path : (s.ringPacket q c).2.path = .queue q := rfl

/-- The taking of the packet at the consumer index, beyond the moving of it. -/
abbrev taken (s : State) (q : Nat) (c : CmdQueue) (cr : List Nat) : State × Option Nat :=
  (movedPast s q c cr).take c (s.ringPacket q c).1 (s.ringPacket q c).2

section Len

theorem lenOk (h0 : 0 < (s.ringPacket q c).2.len.toNat) (hslots : (s.ringPacket q c).2.len.toNat ≤ c.slots) :
    ¬ (Machine.Packet.len (s.ringPacket q c).2 = 0 ∨ c.slots < Machine.Packet.len (s.ringPacket q c).2) := by
  simp only [Machine.Packet.len]
  omega

variable (h0 : 0 < (s.ringPacket q c).2.len.toNat) (hslots : (s.ringPacket q c).2.len.toNat ≤ c.slots) (hq : s.proto.queues.get? q = some c)

include h0 hslots hq

theorem fetchFrom_skips {t : State} (h : taken s q c cr = (t, none)) : (s.serve q c cr).fetchFrom q c = t := by
  have hring : (s.serve q c cr).ringPacket q c = s.ringPacket q c := rfl
  rw [taken, ← movedPast_eq hq] at h
  unfold State.fetchFrom
  simp only [hring, if_neg (lenOk h0 hslots), h]

theorem fetchFrom_flies {t : State} {id : Nat} (h : taken s q c cr = (t, some id)) (hrow : (opRow (s.ringPacket q c).1).isSome = true) :
    (s.serve q c cr).fetchFrom q c = t := by
  have hring : (s.serve q c cr).ringPacket q c = s.ringPacket q c := rfl
  rw [taken, ← movedPast_eq hq] at h
  unfold State.fetchFrom
  simp only [hring, if_neg (lenOk h0 hslots), h]
  exact if_pos hrow

theorem fetchFrom_refuses {t : State} {id st : Nat} (h : taken s q c cr = (t, some id)) (hrow : (opRow (s.ringPacket q c).1).isSome = false)
    (hst : t.headerStatus (s.ringPacket q c).2 (s.ringPacket q c).1 = some st) :
    (s.serve q c cr).fetchFrom q c = t.finishFull id st 0 0 (some (t.verOf (s.ringPacket q c).2 (s.ringPacket q c).1)) [] [] := by
  have hring : (s.serve q c cr).ringPacket q c = s.ringPacket q c := rfl
  rw [taken, ← movedPast_eq hq] at h
  unfold State.fetchFrom
  simp only [hring, if_neg (lenOk h0 hslots), h]
  simp only [hrow, hst]
  rfl

end Len

section Checks

variable (hq : s.proto.queues.get? q = some c) (p : Packet) (hp : p.path = .queue q) (code : Nat)

include hq

theorem caller_movedPast : (movedPast s q c cr).caller (.queue q) = s.caller (.queue q) := by
  simp only [State.caller, movedPast_queues_self, hq, Option.map_some]

theorem pathMinor_movedPast : (movedPast s q c cr).pathMinor (.queue q) = s.pathMinor (.queue q) := by
  simp only [State.pathMinor, movedPast_queues_self, hq]
  rfl

theorem ctxAllowed_movedPast (code ctx : Nat) : (movedPast s q c cr).ctxAllowed (.queue q) code ctx = s.ctxAllowed (.queue q) code ctx := by
  simp only [State.ctxAllowed, movedPast_queues_self, hq, caller_movedPast hq]
  rfl

include hp

theorem sheds_movedPast : (movedPast s q c cr).sheds p code = s.sheds p code := by
  simp only [State.sheds, hp, movedPast_queues_self, hq]
  rfl

theorem headerStatus_movedPast : (movedPast s q c cr).headerStatus p code = s.headerStatus p code := by
  simp only [State.headerStatus, State.versionOk, State.minorOf, hp, caller_movedPast hq, pathMinor_movedPast hq, ctxAllowed_movedPast hq]

/-- The checks of a dispatch see nothing of what a fetch moves. -/
theorem turnAway_movedPast : (movedPast s q c cr).turnAway p code = s.turnAway p code := by
  rw [State.turnAway, headerStatus_movedPast hq p hp, sheds_movedPast hq p hp, State.turnAway]

end Checks

/-- Whether a packet is skipped does not depend on what a fetch moves, nor on a heartbeat. -/
theorem orphanSkip_beaten (hq : s.proto.queues.get? q = some c) (p : Packet) (hp : p.path = .queue q) (fn code code' : Nat) (p' : Packet) :
    ((movedPast s q c cr).beatAtFetch fn p' code').orphanSkip p code = s.orphanSkip p code := by
  obtain ⟨F, hbeat, hsome, hnone, -⟩ := beatAtFetch_spec (movedPast s q c cr) fn code' p'
  have hqueue : ({ movedPast s q c cr with proto := { (movedPast s q c cr).proto with funcs := F } } : State).proto.queues.get? q = _ := movedPast_queues_self (cr := cr)
  have hfunc (k : Nat) : ({ movedPast s q c cr with proto := { (movedPast s q c cr).proto with funcs := F } } : State).func? k = F.get? k := rfl
  simp only [hbeat, State.orphanSkip, hp, hqueue, hq, hfunc]
  rcases hf : s.func? c.fn with _ | g
  · rw [hnone c.fn hf]
  · obtain ⟨g', hg', heq⟩ := hsome c.fn g hf
    rw [hg', heq]

/-- A packet that is not skipped becomes the newest flight. -/
theorem taken_flies (hq : s.proto.queues.get? q = some c) (hskip : s.orphanSkip (s.ringPacket q c).2 (s.ringPacket q c).1 = false) :
    ∃ (t : State) (f : Flight), taken s q c cr = (t, some s.proto.nextFlight) ∧ t.proto.flights = s.proto.flights ++ [f] ∧
      f.id = s.proto.nextFlight ∧ f.opcode = (s.ringPacket q c).1 ∧ f.pkt = (s.ringPacket q c).2 ∧ f.path = .queue q ∧ f.running = false ∧ f.parked = false ∧
      f.fetchTime = s.clock.now ∧ ((s.ringPacket q c).1 ≠ 2 → t.proto.funcs = s.proto.funcs) ∧
      (∀ g x, (s.ringPacket q c).1 = 2 → s.turnAway (s.ringPacket q c).2 2 = none → shortOk (s.ringPacket q c).2 16 = true → s.func? c.fn = some g →
        g.session = some x → t.func? c.fn = some { g with session := some { x with lastBeat := s.clock.now } }) ∧
      t.proto.queues = (movedPast s q c cr).proto.queues ∧ t.proto.finished = s.proto.finished := by
  obtain ⟨F, hbeat, -, -, hfuncs, hcount⟩ := beatAtFetch_spec (movedPast s q c cr) c.fn (s.ringPacket q c).1 (s.ringPacket q c).2
  obtain ⟨f, a, hflight, hid, hop, hpkt, hpath, hrun, hpark, htime⟩ :=
    newFlight_spec { movedPast s q c cr with proto := { (movedPast s q c cr).proto with funcs := F } } (s.ringPacket q c).2 (s.ringPacket q c).1
  have htake : taken s q c cr = ((State.newFlight { movedPast s q c cr with proto := { (movedPast s q c cr).proto with funcs := F } } (s.ringPacket q c).2 (s.ringPacket q c).1).1,
      some (State.newFlight { movedPast s q c cr with proto := { (movedPast s q c cr).proto with funcs := F } } (s.ringPacket q c).2 (s.ringPacket q c).1).2) := by
    rw [← hbeat]
    exact if_neg (by rw [orphanSkip_beaten hq _ ringPacket_path, hskip]; decide)
  rw [hflight] at htake
  refine ⟨_, f, htake, rfl, hid, hop, hpkt, hpath, hrun, hpark, htime, hfuncs, fun g x h2 hturn hshort hg hx => ?_, rfl, rfl⟩
  exact hcount g x h2 (by rw [turnAway_movedPast hq _ ringPacket_path, hturn]) hshort hg hx

end Taking

/-- A queue that halts keeps its consumer index. -/
theorem haltQueue_spec {s : State} {q : Nat} {c : CmdQueue} (hq : s.proto.queues.get? q = some c) :
    ∃ c', (s.haltQueue q).proto.queues.get? q = some c' ∧ c'.halted = true ∧ c'.head = c.head ∧ (s.haltQueue q).proto.flights = s.proto.flights ∧
      (s.haltQueue q).proto.finished = s.proto.finished := by
  rcases hhalted : c.halted
  · refine ⟨{ c with halted := true }, ?_⟩
    rw [Protocol.haltQueue_of_running hq hhalted, (State.post_events _ _).1]
    exact ⟨by simp [State.setQueue, Tab.get?_update, hq], rfl, rfl, rfl, rfl⟩
  · rw [Protocol.haltQueue_of_halted hq hhalted]
    exact ⟨c, hq, hhalted, rfl, rfl, rfl⟩

/-- A packet of no row of the opcode table is refused (R61, R75). -/
theorem headerStatus_of_no_row {s : State} {q : Nat} {c : CmdQueue} (hq : s.proto.queues.get? q = some c) (p : Packet) (hp : p.path = .queue q) (code : Nat)
    (hrow : (opRow code).isSome = false) : ∃ st, s.headerStatus p code = some st ∧ (st = St.badOpcode ∨ st = St.badVersion) := by
  rw [Option.isSome_eq_false_iff, Option.isNone_iff_eq_none] at hrow
  simp only [State.headerStatus, hp, State.caller, hq, Option.map_some, hrow]
  split
  · exact ⟨_, rfl, .inl rfl⟩
  · exact ⟨_, rfl, .inr rfl⟩

theorem flight?_newest {s : State} {l : List Flight} {f : Flight} {n : Nat} (h : s.proto.flights = l ++ [f]) (hid : f.id = n) (hl : ∀ g ∈ l, g.id < n) :
    s.flight? n = some f := by
  rw [State.flight?, h, List.find?_append, List.find?_eq_none.2 (fun g hg => by simpa using (hl g hg).ne)]
  simp [hid]

/-- Settles O18. -/
theorem packetsAreFetched : Obligations.PacketsAreFetched := by
  refine ⟨fun s => ⟨fun q => chooseQueue_of_class0, fun q => chooseQueue_of_admin, fun q cr => chooseQueue_of_credits, fun g q => nextIn_spec, fun q c => fetchable_spec⟩,
    fun s q cr c hup hstandby => ⟨exec_packetFetch_none, fun hchoose hq => ?_⟩⟩
  intro code p
  rw [exec_packetFetch hup hstandby hchoose hq]
  refine ⟨fun hlen => ?_, fun h0 hslots hrow hskip => ?_, fun h0 hslots hrow hskip hids => ?_⟩
  · rw [fetchFrom_halts hlen]
    obtain ⟨c', hc', hhalted, hhead, hflights, hfinished⟩ := haltQueue_spec (s := s.serve q c cr) hq
    exact ⟨_, rfl, ⟨c', hc', hhalted, hhead⟩, hflights, hfinished⟩
  · obtain ⟨t, f, htaken, hflights, hid, hop, hpkt, hpath, hrun, hpark, htime, hfuncs, hcount, hqueues, hfinished⟩ := taken_flies (cr := cr) hq hskip
    rw [fetchFrom_flies h0 hslots hq htaken hrow]
    exact ⟨t, f, rfl, hflights, hid, hop, hpkt, hpath, hrun, hpark, htime, hfuncs, hcount, hqueues ▸ movedPast_queues_self,
      fun k hk => hqueues ▸ movedPast_queues_ne hk, hfinished⟩
  · obtain ⟨t, f, htaken, hflights, hid, -, -, hpath, -, -, -, -, -, hqueues, hfinished⟩ := taken_flies (cr := cr) hq hskip
    obtain ⟨st, hst, hstatus⟩ := headerStatus_of_no_row (s := t) (hqueues ▸ movedPast_queues_self) p rfl code hrow
    rw [fetchFrom_refuses h0 hslots hq htaken hrow hst]
    have hnew : t.flight? s.proto.nextFlight = some f := flight?_newest hflights hid hids
    obtain ⟨a, hfin⟩ := State.finishFull_eq hnew st 0 0 (some (t.verOf p code)) [] []
    exact ⟨_, _, congrArg _ hfin, by rw [hfinished], rfl, hstatus, rfl, hpath⟩

end Sys2Proof.Proofs.Fetching

/-! PROOFS. Completions: what COMPLETION_WRITE writes, and the completions that wait or are held (03_command_protocol, 18_pins_package). -/

namespace Sys2Proof.Proofs.Completing

open Sys2Proof Sys2Proof.Machine

/-! ### Queues being destroyed and RECLAIMs under way -/

/-- Nothing that ends with a completion is under way: no queue is closing and no RECLAIM runs. -/
def Quiet (s : State) : Prop := (∀ kv ∈ s.proto.queues, kv.2.closing = none) ∧ (∀ g ∈ s.proto.flights, g.opcode = 3 → g.running = false)

theorem closeQueues_of_quiet {s : State} (h : Quiet s) : s.closeQueues = s := by
  obtain ⟨hclosing, hreclaims⟩ := h
  have hnone : s.proto.queues.filter (fun kv => kv.2.closing.isSome) = [] := List.filter_eq_nil_iff.2 (fun kv hkv => by simp [hclosing kv hkv])
  have hrun : s.proto.flights.filter (fun f => decide (f.opcode = 3) && f.running) = [] :=
    List.filter_eq_nil_iff.2 (fun g hg => by simpa using hreclaims g hg)
  rw [State.closeQueues, hnone, List.foldl_nil, State.settleReclaims, hrun, List.foldl_nil]

theorem quiet_of_eq {s t : State} (h : Quiet s) (hq : ∀ kv ∈ t.proto.queues, kv.2.closing = none) (hf : t.proto.flights = s.proto.flights) : Quiet t :=
  ⟨hq, hf ▸ h.2⟩

theorem closing_of_set {l : Tab CmdQueue} {q : Nat} {c : CmdQueue} (h : ∀ kv ∈ l, kv.2.closing = none) (hc : c.closing = none) :
    ∀ kv ∈ l.set q c, kv.2.closing = none := fun kv hkv => by
  obtain rfl | hkv := Tab.mem_set hkv
  · exact hc
  · exact h kv hkv

/-! ### The entry of a host queue (R51, R62, R63) -/

/-- Writes to host memory leave the other memories. -/
theorem apply_host_keeps (s : State) (ws : List (Nat × List Byte)) :
    let t := s.apply (ws.map (fun w => ⟨.host, w.1, w.2⟩))
    t.stores.core = s.stores.core ∧ t.stores.region = s.stores.region ∧ t.stores.tier2 = s.stores.tier2 ∧ t.stores.xd = s.stores.xd ∧ t.stores.ufs = s.stores.ufs := by
  induction ws generalizing s with
  | nil => exact ⟨rfl, rfl, rfl, rfl, rfl⟩
  | cons w ws ih => exact ih (s.apply [⟨.host, w.1, w.2⟩])

theorem length_completionBytes (f : Finished) (q phase head : Nat) : (completionBytes f q phase head).length = 32 := by
  simp [completionBytes]

section Entry

variable (s : State) (f : Finished) (q : Nat) (c : CmdQueue)

/-- The state after the operation's own host writes. -/
abbrev hostWritten : State := s.apply (f.hostWrites.map (fun w => ⟨.host, w.1, w.2⟩))

/-- Where the producer's entry lies. -/
abbrev entryAt : Nat := hostKey c.fn (c.cplBase + 32 * (c.cplTail % c.slots))

/-- The bytes of the entry. -/
abbrev entryBytes : List Byte := completionBytes f q (if c.slots = 0 then 1 else 1 - (c.cplTail / c.slots) % 2) c.head

/-- The state with the entry written, and the producer index past it. -/
def entryWritten : State :=
  let u := (hostWritten s f).apply [⟨.host, entryAt c, entryBytes f q c⟩]
  { u with proto := { u.proto with queues := s.proto.queues.set q { c with cplTail := (c.cplTail + 1) % 2 ^ 32 } },
           out := if (f.irq = true ∨ f.status ≠ 0) ∧ c.msix ≠ 0xFFFF then s.out ++ [.msix c.fn c.msix] else s.out }

theorem entryWritten_host : (entryWritten s f q c).stores.host = (hostWritten s f).stores.host.writeBytes (entryAt c) (entryBytes f q c) := rfl

theorem entryWritten_read_in {i : Nat} (hi : i < 32) : (entryWritten s f q c).stores.host.read (entryAt c + i) = (entryBytes f q c).getD i 0 := by
  rw [entryWritten_host, Mem.read_writeBytes_in _ _ _ _ (by rwa [length_completionBytes])]

theorem entryWritten_read_out {a : Nat} (ha : a < entryAt c ∨ entryAt c + 32 ≤ a) :
    (entryWritten s f q c).stores.host.read a = (hostWritten s f).stores.host.read a := by
  rw [entryWritten_host, Mem.read_writeBytes_out _ _ _ _ (by rwa [length_completionBytes])]

theorem entryWritten_queues : (entryWritten s f q c).proto.queues = s.proto.queues.set q { c with cplTail := (c.cplTail + 1) % 2 ^ 32 } := rfl

theorem entryWritten_stores : (entryWritten s f q c).stores =
    ((hostWritten s f).stores.write ⟨.host, entryAt c, entryBytes f q c⟩).heal ⟨.host, entryAt c, entryBytes f q c⟩ := rfl

theorem entryWritten_others : (entryWritten s f q c).stores.core = s.stores.core ∧ (entryWritten s f q c).stores.region = s.stores.region ∧
    (entryWritten s f q c).stores.tier2 = s.stores.tier2 ∧ (entryWritten s f q c).stores.xd = s.stores.xd ∧ (entryWritten s f q c).stores.ufs = s.stores.ufs := by
  obtain ⟨hcore, hregion, htier2, hxd, hufs⟩ := apply_host_keeps s f.hostWrites
  simp only [entryWritten_stores, Stores.write, Stores.heal]
  exact ⟨hcore, hregion, htier2, hxd, hufs⟩

theorem writeCompletion_queue (hpath : f.path = .queue q) (hq : s.proto.queues.get? q = some c) : s.writeCompletion f = entryWritten s f q c := by
  simp only [State.writeCompletion, hpath, hq, State.setQueue, State.apply_proto, Tab.update_of_get? _ hq, entryWritten, State.raise, State.emit, phaseBit]
  by_cases hirq : f.irq = true ∨ f.status ≠ 0
  · by_cases hv : c.msix = 0xFFFF
    · simp [hirq, hv]
    · simp [hirq, hv]
  · simp [hirq]

end Entry

/-! ### COMPLETION_WRITE -/

section Write

variable {s : State} {f : Finished} {rest : List Finished} {q : Nat} {c : CmdQueue} {x : Func}

/-- The state with the oldest completion taken. -/
abbrev taken (s : State) (rest : List Finished) : State := { s with proto := { s.proto with finished := rest } }

theorem filter_flight_ne (h : ∀ g ∈ rest, g.flight ≠ f.flight) : (f :: rest).filter (fun g => g.flight ≠ f.flight) = rest := by
  rw [List.filter_cons_of_neg (by simp), List.filter_eq_self.2 (fun g hg => by simpa using h g hg)]

/-- A completion of a host queue, the oldest of all, goes out, is held or waits by its function and its link. -/
theorem completable_queue (hfirst : s.proto.finished = f :: rest) (hpath : f.path = .queue q) (hq : s.proto.queues.get? q = some c)
    (hx : s.func? c.fn = some x) (hup : s.hearthDown = false) : s.completable f = (x.orphan || (x.busMaster && s.windowOpen f)) := by
  simp [State.completable, hpath, hq, hx, hup, hfirst]

theorem exec_completionWrite_none (h : ∀ g ∈ s.proto.finished, s.completable g = false) : exec .completionWrite s = .next s := by
  have hnone : s.proto.finished.find? (fun f => s.completable f) = none := List.find?_eq_none.2 (fun g hg => by simp [h g hg])
  simp only [exec, execCompletionWrite, hnone]

theorem exec_completionWrite_held (hfirst : s.proto.finished = f :: rest) (hpath : f.path = .queue q) (hq : s.proto.queues.get? q = some c)
    (hx : s.func? c.fn = some x) (hup : s.hearthDown = false) (horphan : x.orphan = true) : exec .completionWrite s = .next (s.holdCompletion c.fn f) := by
  have hfind : s.proto.finished.find? (fun f => s.completable f) = some f := by
    rw [hfirst]
    exact List.find?_cons_of_pos (by rw [completable_queue hfirst hpath hq hx hup, horphan, Bool.true_or])
  simp only [exec, execCompletionWrite, hfind, State.pathQueue, hpath, hq, Option.map_some, hx, horphan, if_true]

theorem exec_completionWrite_queue (hfirst : s.proto.finished = f :: rest) (hrest : ∀ g ∈ rest, g.flight ≠ f.flight) (hpath : f.path = .queue q)
    (hq : s.proto.queues.get? q = some c) (hx : s.func? c.fn = some x) (hup : s.hearthDown = false) (horphan : x.orphan = false) (hbus : x.busMaster = true)
    (hwindow : s.windowOpen f = true) : exec .completionWrite s = .next ((entryWritten (taken s rest) f q c).reclaimed f).closeQueues := by
  have hfind : s.proto.finished.find? (fun f => s.completable f) = some f := by
    rw [hfirst]
    exact List.find?_cons_of_pos (by rw [completable_queue hfirst hpath hq hx hup, hbus, hwindow, Bool.and_self, Bool.or_true])
  have hwritten : (taken s rest).writeCompletion f = entryWritten (taken s rest) f q c := writeCompletion_queue _ f q c hpath hq
  simp only [exec, execCompletionWrite, hfind, State.pathQueue, hpath, hq, Option.map_some, hx, horphan, Bool.false_eq_true, if_false]
  rw [hfirst, filter_flight_ne hrest, hwritten]

theorem exec_completionWrite_owner {sess : Nat} (hfirst : s.proto.finished = f :: rest) (hrest : ∀ g ∈ rest, g.flight ≠ f.flight) (hquiet : Quiet s)
    (hpath : f.path = .owner sess) (hsess : s.sec.sessions.has sess = true) (hup : s.procDown 0 = false) : exec .completionWrite s =
      .next { s with proto := { s.proto with finished := rest }, out := s.out ++ [.mgmt sess 2 (completionBytes f 0xFFFF 1 0)] ++ f.messages.map (fun m => .mgmt sess 4 m) } := by
  have hfind : s.proto.finished.find? (fun f => s.completable f) = some f := by
    rw [hfirst]
    exact List.find?_cons_of_pos (by simp [State.completable, hpath, hup])
  have hwritten : (taken s rest).writeCompletion f = { s with proto := { s.proto with finished := rest }, out := s.out ++ [.mgmt sess 2 (completionBytes f 0xFFFF 1 0)] ++ f.messages.map (fun m => .mgmt sess 4 m) } := by
    simp only [State.writeCompletion, hpath]
    rw [if_pos hsess, State.foldl_emit]
    rfl
  simp only [exec, execCompletionWrite, hfind, State.pathQueue, hpath]
  rw [hfirst, filter_flight_ne hrest, hwritten, closeQueues_of_quiet]
  exact hquiet

/-- The producer index moves on, and nothing that ends with a completion is under way. -/
theorem entryWritten_quiet (hquiet : Quiet s) (hq : s.proto.queues.get? q = some c) : Quiet (entryWritten s f q c) :=
  ⟨closing_of_set hquiet.1 (hquiet.1 _ (Tab.mem_of_get? hq)), hquiet.2⟩

/-- With the completion of a RECLAIM that tore its function down the new nonce comes into force. -/
theorem reclaimed_eq (hpath : f.path = .queue q) (hq : s.proto.queues.get? q = some c) (hop : f.opcode = 3) (hstatus : f.status = St.ok) (hinfo : f.info = 0) :
    s.reclaimed f = (s.setFunc c.fn (fun g => { g with session := g.session.map (fun y => { y with nonce := f.result }) })).post (reclaimedEvent c.fn 2) := by
  simp only [State.reclaimed, hop, hstatus, hinfo, and_self, if_true, State.pathQueue, hpath, hq, Option.map_some]

end Write

/-- Settles O19. -/
theorem completionsAreWritten : Obligations.CompletionsAreWritten := by
  refine ⟨fun s f rest hfirst hrest hclosing hreclaims => ⟨fun q c x hpath hq hx horphan hbus hup hwindow => ?_,
    fun sess hpath hsess hup => exec_completionWrite_owner hfirst hrest ⟨hclosing, hreclaims⟩ hpath hsess hup,
    fun h => exec_completionWrite_none (hfirst ▸ h)⟩, fun s q f rest c x hfirst hpath hq hx hup => ⟨fun horphan => ?_, fun horphan hwaits hrest => ?_, fun g hg hgpath hgo => ?_⟩⟩
  · intro u at_ bytes
    have hquiet : Quiet (entryWritten (taken s rest) f q c) := entryWritten_quiet (s := taken s rest) ⟨hclosing, hreclaims⟩ hq
    rw [exec_completionWrite_queue hfirst hrest hpath hq hx hup horphan hbus hwindow]
    refine ⟨fun hplain => ?_, fun hop hstatus hinfo => ?_⟩
    · have hstays : (entryWritten (taken s rest) f q c).reclaimed f = entryWritten (taken s rest) f q c := if_neg hplain
      rw [hstays, closeQueues_of_quiet hquiet]
      obtain ⟨hcore, hregion, htier2, hxd, hufs⟩ := entryWritten_others (taken s rest) f q c
      refine ⟨_, rfl, rfl, rfl, ?_, fun k hk => ?_, fun i hi => entryWritten_read_in (taken s rest) f q c hi,
        fun a ha => entryWritten_read_out (taken s rest) f q c ha, hcore, hregion, htier2, hxd, hufs, rfl, rfl, rfl, rfl, rfl, rfl, rfl⟩
      · rw [entryWritten_queues, Tab.get?_set_self]
      · rw [entryWritten_queues, Tab.get?_set_ne _ _ _ _ hk]
    · rw [reclaimed_eq hpath (c := { c with cplTail := (c.cplTail + 1) % 2 ^ 32 }) (Tab.get?_set_self ..) hop hstatus hinfo]
      rw [closeQueues_of_quiet]
      · refine ⟨_, rfl, ?_, ?_⟩
        · rw [(State.post_events _ _).1]; rfl
        · rw [(State.post_events _ _).1]
          have hfunc : s.proto.funcs.get? c.fn = some x := hx
          simp [State.func?, State.setFunc, Tab.get?_update, entryWritten, hfunc]
      · rw [(State.post_events _ _).1]
        exact hquiet
  · rw [exec_completionWrite_held hfirst hpath hq hx hup horphan]
    have hfunc : s.proto.funcs.get? c.fn = some x := hx
    refine ⟨_, rfl, by simp [State.holdCompletion, State.func?, State.setFunc, Tab.get?_update, hfunc], rfl, rfl, ?_, rfl⟩
    simp [State.holdCompletion, hfirst]
  · refine exec_completionWrite_none fun g hg => ?_
    rw [hfirst, hrest, List.mem_singleton] at hg
    rw [hg, completable_queue hfirst hpath hq hx hup]
    obtain h | h := hwaits <;> simp [horphan, h]
  · have hgpath' : g.path = .queue q := hgpath.trans hpath
    have hfound : s.proto.finished.find? (fun h => decide (h.path = .queue q)) = some f := by rw [hfirst]; exact List.find?_cons_of_pos (by simpa using hpath)
    simp only [State.completable, hgpath', hq, hfound, Bool.and_eq_true, decide_eq_true_eq, Option.map_some] at hgo
    exact (Option.some.inj hgo.2).symm

end Sys2Proof.Proofs.Completing

/-! PROOFS. The register window: admin queues, register writes, commits at a door and the snapshot (03_command_protocol, 14_firmware_boot). -/

namespace Sys2Proof.Proofs.RegisterWindow

open Sys2Proof Sys2Proof.Machine

section AdminQueues

variable {s : State} {fn : Nat} {f : Func}

theorem adminUp_of (hrun : s.running = true) (hstage : 4 ≤ s.fw.bootStage) : s.adminUp = true := by simp [State.adminUp, hrun, hstage]

/-- The fields of an admin block are legal (R52, R54). -/
abbrev BlockOk (f : Func) : Prop := slotsOk f.slots = true ∧ f.sqBase % 4096 = 0 ∧ f.cqBase % 4096 = 0 ∧ vectorOk f.msix = true

/-- Function `fn` is `f`, and a command of its admin block has counted as activity. -/
abbrev withFunc (s : State) (fn : Nat) (f : Func) : State :=
  { s with power := { s.power with lastActivity := s.clock.now }, proto := { s.proto with funcs := s.proto.funcs.set fn f } }

theorem setFunc_active (hf : s.func? fn = some f) (g : Func → Func) : s.active.setFunc fn g = withFunc s fn (g f) := by
  rw [State.setFunc, Tab.update_of_get? (t := s.active.proto.funcs) g hf]
  rfl

theorem exec_adminQueueEnable_ok (hf : s.func? fn = some f) (hup : s.adminUp = true) (h : BlockOk f) :
    exec (.adminQueueEnable fn) s = .next { s with
      power := { s.power with lastActivity := s.clock.now },
      proto := { s.proto with
        funcs := s.proto.funcs.set fn { f with enable := true, setupErr := false },
        queues := s.proto.queues.set fn ⟨fn, f.sqBase, f.cqBase, f.slots, f.msix, none, 0, 256, 0, 0, 0, 0, false, none⟩ } } := by
  obtain ⟨hslots, hsq, hcq, hv⟩ := h
  simp only [exec, execAdminQueueEnable, hf, hup, setFunc_active hf]
  simp [hslots, hsq, hcq, hv]

theorem exec_adminQueueEnable_bad (hf : s.func? fn = some f) (hup : s.adminUp = true) (h : ¬ BlockOk f) :
    exec (.adminQueueEnable fn) s = .next (withFunc s fn { f with enable := false, setupErr := true }) := by
  have hbad : ¬ (slotsOk f.slots && decide (f.sqBase % 4096 = 0 ∧ f.cqBase % 4096 = 0) && vectorOk f.msix) = true := by
    simp only [Bool.and_eq_true, decide_eq_true_eq]
    tauto
  simp only [exec, execAdminQueueEnable, hf, hup, setFunc_active hf, if_neg hbad]
  rfl

/-- A queue that stands from its start. -/
def fromStart (c : CmdQueue) : CmdQueue := { c with head := 0, tail := 0, cplTail := 0, cplHead := 0 }

theorem exec_adminQueueDisable (hf : s.func? fn = some f) (hup : s.adminUp = true) :
    exec (.adminQueueDisable fn) s = .next ((withFunc s fn { f with enable := false }).setQueue fn fromStart) := by
  simp only [exec, execAdminQueueDisable, hup, setFunc_active hf]
  rfl

/-- An admin queue whose block is disabled is not fetched. -/
theorem not_fetchable_of_disabled {c : CmdQueue} (hf : s.func? fn = some f) (hdis : f.enable = false) (hfn : fn < 32) (hc : c.fn = fn) : s.fetchable fn c = false := by
  simp [State.fetchable, State.admits, hc, hf, hdis, hfn]

end AdminQueues

section Writes

variable {s : State} {v : Sys2Proof.Word}

/-- A write to a shadow word of the device scope. -/
theorem exec_registerWrite_shadow {d : Door} {w : Nat} (hw : w < 64) (hmay : s.mayConfigure d = true) :
    exec (.registerWrite d (0x400 + 4 * w) v) s = .next (s.writeShadow w v.toNat) := by
  have hshadow : (0x400 ≤ 0x400 + 4 * w ∧ 0x400 + 4 * w < 0x500 ∧ (0x400 + 4 * w) % 4 = 0) := by omega
  have hword : (0x400 + 4 * w - 0x400) / 4 = w := by omega
  cases d with
  | bar0 fn =>
    have hpf : s.isPf fn = true := hmay
    simp only [exec, execRegisterWrite, hpf, hshadow, hword]
    rfl
  | safetyPort =>
    have hport : s.portMayConfigure = true := hmay
    simp only [exec, execRegisterWrite, hport, hshadow, hword]
    rfl

theorem writeShadow_word (hup : s.windowUp = true) {w : Nat} (hmask : wordMask 0 w ≠ 0) : (s.writeShadow w v.toNat).shadowWord 0 0 w = v.toNat &&& wordMask 0 w := by
  rw [State.writeShadow, if_pos ⟨hup, hmask⟩, State.shadowWord, State.setShadow]
  simp

/-- Only the shadow copy of the device scope changes, in that word. -/
theorem writeShadow_keeps (w : Nat) (s : State) (v : Nat) : (∀ k, k < 64 → k ≠ w → (s.writeShadow w v).shadowWord 0 0 k = s.shadowWord 0 0 k) ∧
    { s.writeShadow w v with scopes := s.scopes } = s ∧ (s.writeShadow w v).scopes.active = s.scopes.active ∧ (s.writeShadow w v).scopes.pending = s.scopes.pending := by
  unfold State.writeShadow
  split
  · refine ⟨fun k _ hk => ?_, rfl, rfl, rfl⟩
    have hkey : scopeKey 0 0 k ≠ scopeKey 0 0 w := by simp only [scopeKey]; omega
    rw [State.shadowWord, State.setShadow, Tab.get?_set_ne _ _ _ _ hkey, State.shadowWord]
  · exact ⟨fun k _ _ => rfl, rfl, rfl, rfl⟩

theorem exec_registerWrite_refused (off : Nat) (h : s.portMayConfigure = false) : exec (.registerWrite .safetyPort off v) s = .next s := by
  simp [exec, execRegisterWrite, h]

theorem exec_registerWrite_outside {off : Nat} (h : off < 0x400 ∨ 0x500 ≤ off) : exec (.registerWrite .safetyPort off v) s = .next s := by
  have hshadow : ¬ (0x400 ≤ off ∧ off < 0x500 ∧ off % 4 = 0) := by omega
  simp [exec, execRegisterWrite, hshadow]

/-- A physical function writes a field of its own admin block. -/
theorem exec_registerWrite_admin {fn off : Nat} {f : Func} (hpf : s.isPf fn = true) (hoff : off ≤ 0x14) (halign : off % 4 = 0) (hup : s.adminUp = true)
    (hf : s.func? fn = some f) :
    exec (.registerWrite (.bar0 fn) (0x3000 + off) v) s = .next ((withFunc s fn (f.writeAdmin off v.toNat)).setQueue fn fromStart) := by
  have hshadow : ¬ (0x400 ≤ 0x3000 + off ∧ 0x3000 + off < 0x500 ∧ (0x3000 + off) % 4 = 0) := by omega
  have hadmin : s.adminWrite fn off v.toNat = (withFunc s fn (f.writeAdmin off v.toNat)).setQueue fn fromStart := by
    rw [State.adminWrite, if_pos ⟨hup, hoff, halign⟩, setFunc_active hf]
    rfl
  simp [exec, execRegisterWrite, hpf, hshadow, hadmin]

end Writes

section Commits

variable {s : State}

theorem commit_reply (s : State) (kind id : Nat) : (s.commit kind id).2 = s.commitCheck kind id := by
  unfold State.commit
  extract_lets r
  split
  · rfl
  · split <;> rfl

theorem exec_ctlCommit {d : Door} (hmay : s.mayConfigure d = true) (hup : s.windowUp = true) : exec (.ctlCommit d 1) s =
    .next { (s.commit 0 0).1 with win := { (s.commit 0 0).1.win with
      commitStatus := (s.commitCheck 0 0).status + 2 ^ 16 * (if (s.commitCheck 0 0).status = 0 then (s.commitCheck 0 0).info else (s.commitCheck 0 0).result),
      commitFrame := if (s.commitCheck 0 0).status = 0 then (s.commitCheck 0 0).result else (s.commit 0 0).1.win.commitFrame } } := by
  simp only [exec, execCtlCommit, hmay, if_true, State.windowCommit]
  rw [if_pos ⟨hup, by decide⟩, commit_reply]
  simp only [decide_eq_true_eq]

theorem exec_ctlCommit_refused {d : Door} (h : s.mayConfigure d = false) : exec (.ctlCommit d 1) s = .next s := by
  simp [exec, execCtlCommit, h]

theorem exec_snapshotPublish (hup : s.windowUp = true) : exec .snapshotPublish s = .next { s with win := { s.win with snap := s.snapshotNow } } := by
  simp [exec, execSnapshotPublish, hup]

theorem snapshotNow_parts (s : State) {i : Nat} (hi : i < 16) : s.snapshotNow.parts[i]? = some (s.partWord i) := by
  simp [State.snapshotNow, hi]

end Commits

/-- Settles O21: an admin block, a word of the window and a commit at a door, each by what its command writes. -/
theorem registerWindow : Obligations.RegisterWindow := by
  refine ⟨fun s fn f hf hrun hstage => ?_, fun s v => ⟨fun d w hw hmay hup => ?_, exec_registerWrite_refused, fun off => exec_registerWrite_outside,
      fun fn off f c hpf hoff halign hrun hstage hf hc => ?_⟩, fun s d => ⟨exec_ctlCommit_refused, fun hmay hup => ⟨fun hok => ?_, fun hbad => ?_⟩, fun hup => ?_, fun hdown => ?_⟩⟩
  · have hup := adminUp_of hrun hstage
    refine ⟨⟨fun h => ⟨_, exec_adminQueueEnable_ok hf hup h, ?_, ?_, fun k hk => ?_, rfl⟩, fun h => ⟨_, exec_adminQueueEnable_bad hf hup h, ?_, rfl⟩⟩,
      _, exec_adminQueueDisable hf hup, ?_, fun c _ hfetch => ?_⟩
    · exact Tab.get?_set_self ..
    · exact Tab.get?_set_self ..
    · exact Tab.get?_set_ne _ _ _ _ hk
    · exact Tab.get?_set_self ..
    · exact Tab.get?_set_self ..
    · by_contra hno
      obtain ⟨hfn, hc⟩ := not_or.1 hno
      have hdis : ((withFunc s fn { f with enable := false }).setQueue fn fromStart).func? fn = some { f with enable := false } := Tab.get?_set_self ..
      rw [not_fetchable_of_disabled hdis rfl (not_le.1 hfn) (not_not.1 hc).symm] at hfetch
      cases hfetch
  · obtain ⟨hkeep, hrest, hactive, hpending⟩ := writeShadow_keeps w s v.toNat
    exact ⟨_, exec_registerWrite_shadow hw hmay, fun hmask => writeShadow_word hup hmask, hkeep, hrest, hactive, hpending⟩
  · refine ⟨_, exec_registerWrite_admin hpf hoff halign (adminUp_of hrun hstage) hf, Tab.get?_set_self .., ?_, rfl⟩
    simp [State.setQueue, Tab.get?_update, hc, fromStart]
  · refine ⟨_, exec_ctlCommit hmay hup, ?_, ?_, rfl⟩ <;> simp [show _ = 0 from hok]
  · have hbad' : ¬ (s.commitCheck 0 0).status = 0 := hbad
    refine ⟨_, exec_ctlCommit hmay hup, ?_, ?_, ?_⟩
    · simp [hbad']
    · simp [hbad', CommitScopes.commit_of_rejected hbad, State.acc]
    · rw [CommitScopes.commit_of_rejected hbad]; rfl
  · exact ⟨_, exec_snapshotPublish hup, rfl, rfl, rfl, rfl, fun i hi => snapshotNow_parts s hi, rfl⟩
  · simp [exec, execSnapshotPublish, hdown]

end Sys2Proof.Proofs.RegisterWindow

/-! PROOFS. Management sessions, the messages on them, and the host links (15_security, 18_pins_package). -/

namespace Sys2Proof.Proofs.Ports

open Sys2Proof Sys2Proof.Machine

/-! ### Management sessions (R390 to R393) -/

section Sessions

variable {s : State} {h : Handshake} {x : Nat}

/-- The walk upward reaches a number that is not used, where one lies ahead of it. -/
theorem walkFree_unused {n : Nat} {used : List Nat} (k x : Nat) (hn : x + k ≤ n) (hfree : ∃ y, x ≤ y ∧ y < x + k ∧ y ∉ used) : walkFree k x n used ∉ used := by
  induction k generalizing x with
  | zero => obtain ⟨y, hlo, hhi, -⟩ := hfree; omega
  | succ k ih =>
    rw [walkFree]
    split
    next hx =>
      obtain ⟨y, hlo, hhi, hy⟩ := hfree
      have hne : y ≠ x := fun e => hy (e ▸ by simpa using hx)
      rw [if_pos (by omega)]
      exact ih (x + 1) (by omega) ⟨y, by omega, by omega, hy⟩
    next hx => simpa using hx

/-- Of the numbers up to a list's length one is not in it. -/
theorem exists_not_mem (used : List Nat) : ∃ y, y < used.length + 1 ∧ y ∉ used := by
  by_contra hno
  simp only [not_exists, not_and, not_not] at hno
  have hle := (List.subperm_of_subset List.nodup_range (fun y hy => hno y (List.mem_range.1 hy))).length_le
  rw [List.length_range] at hle
  omega

theorem keys_of_has {α : Type} {t : Tab α} {i : Nat} (h : t.has i = true) : i ∈ t.keys := by
  obtain ⟨v, hv⟩ := Option.isSome_iff_exists.1 h
  exact List.mem_map.2 ⟨_, Tab.mem_of_get? hv, rfl⟩

theorem has_freeSession (s : State) : s.sec.sessions.has s.freeSession = false := by
  rw [Bool.eq_false_iff]
  intro hhas
  unfold State.freeSession at hhas
  extract_lets used at hhas
  obtain ⟨y, hy, hfree⟩ := exists_not_mem used
  exact walkFree_unused (used.length + 1) 0 (by omega) ⟨y, by omega, by omega, hfree⟩ (List.mem_append_left _ (keys_of_has hhas))

/-- A handshake that keeps every rule of R392. -/
abbrev Good (s : State) (h : Handshake) : Prop :=
  h.suiteOk = true ∧ h.groupOk = true ∧ h.sigOk = true ∧ h.psk = false ∧ h.resumption = false ∧ h.earlyData = false ∧
    h.chainDigest ∈ s.sec.fuses.ownerAnchors ∧ (∃ b ∈ h.chainDigest, b ≠ 0) ∧ s.rel.unlocked = false ∧ s.sec.sessions.length < 2

theorem good_iff : (Handshake.sound h && s.anchored h.chainDigest && decide (s.sec.sessions.length < 2)) = true ↔ Good s h := by
  simp only [Good, Handshake.sound, State.anchored, allZero, Bool.and_eq_true, Bool.not_eq_true', decide_eq_true_eq, List.contains_iff_mem, and_assoc,
    List.all_eq_false, beq_iff_eq]

theorem exec_mgmtSessionOpen (hup : s.secUp = true) (hhere : s.addressed h = true) : exec (.mgmtSessionOpen h) s =
    .next (if Good s h then { s with sec := { s.sec with sessions := s.sec.sessions.set s.freeSession ⟨h.chainDigest, 0, none, 0⟩ }, out := s.out ++ [.tlsServer (s.sec.fuses.certSerial ++ s.sec.fuses.certRest)] } else { s with out := s.out ++ [.tlsAlert] }) := by
  simp only [exec, execMgmtSessionOpen, hup, hhere]
  by_cases hgood : Good s h
  · rw [if_pos hgood, if_neg (by decide), if_pos (good_iff.2 hgood)]
    rfl
  · rw [if_neg hgood, if_neg (by decide), if_neg (by rwa [good_iff])]
    rfl

theorem exec_mgmtSessionOpen_elsewhere (hno : s.secUp = false ∨ s.addressed h = false) : exec (.mgmtSessionOpen h) s = .next s := by
  obtain hno | hno := hno <;> simp [exec, execMgmtSessionOpen, hno]

theorem addressed_iff : s.addressed h = true ↔ h.port = 7960 ∧ h.dest = [0xFE, 0x80, 0, 0, 0, 0, 0, 0, s.sec.fuses.mac.headD 0 ^^^ 2] ++
    (s.sec.fuses.mac.drop 1).take 2 ++ [0xFF, 0xFE] ++ (s.sec.fuses.mac.drop 3).take 3 := by
  rw [State.addressed, decide_eq_true_eq, and_comm]
  rfl

/-- What goes with a session, and nothing else. -/
theorem closeSession_spec (s : State) (x : Nat) : (s.closeSession x).sec.sessions.has x = false ∧
    (∀ y, y ≠ x → (s.closeSession x).sec.sessions.get? y = s.sec.sessions.get? y) ∧
    (∀ kv, kv ∈ (s.closeSession x).proto.eqs ↔ kv ∈ s.proto.eqs ∧ kv.2.owner ≠ some x) ∧
    (∀ f, f ∈ (s.closeSession x).proto.finished ↔ f ∈ s.proto.finished ∧ f.path ≠ .owner x) ∧
    (∀ f, f ∈ (s.closeSession x).proto.flights ↔ f ∈ s.proto.flights ∧ (f.running = true ∨ f.path ≠ .owner x)) ∧
    { s.closeSession x with sec := s.sec, proto := s.proto } = s := by
  refine ⟨?_, fun y hy => Tab.get?_erase_ne _ _ _ hy, fun kv => ?_, fun f => ?_, fun f => ?_, rfl⟩
  · simp [State.closeSession, Tab.has]
  all_goals simp [State.closeSession]

/-! ### Messages (R393) -/

variable {type : Nat} {b : List Byte}

/-- Packets of session `x` in flight. -/
abbrev busyOf (s : State) (x : Nat) : Nat :=
  (s.proto.flights.filter (fun f => decide (f.path = .owner x))).length + (s.proto.finished.filter (fun f => decide (f.path = .owner x))).length

theorem exec_mgmtMessage_other (hup : s.secUp = true) (hx : s.sec.sessions.has x = true) (ht : type ≠ 1) :
    exec (.mgmtMessage x type b) s = .next ((s.closeSession x).emit .tlsAlert) := by
  simp [exec, execMgmtMessage, hup, hx, ht]

theorem exec_mgmtMessage_full (hup : s.secUp = true) (hx : s.sec.sessions.has x = true) (ht : type = 1) (hbusy : 64 ≤ busyOf s x) :
    exec (.mgmtMessage x type b) s = .next s := by
  simp [exec, execMgmtMessage, hup, hx, ht, hbusy]

theorem exec_mgmtMessage_taken (hup : s.secUp = true) (hx : s.sec.sessions.has x = true) (ht : type = 1) (hbusy : busyOf s x < 64) :
    exec (.mgmtMessage x type b) s = .next (s.takeOwnerPacket x b) := by
  simp [exec, execMgmtMessage, hup, hx, ht, hbusy]

/-- A packet whose length is LEN x 64. -/
abbrev Framed (x : Nat) (b : List Byte) : Prop := b.length = (packetOf (.owner x) b).len.toNat * 64 ∧ 0 < b.length

theorem takeOwnerPacket_flies (hrow : (opRow (fieldAt b 0 2)).isSome = true) (hlen : Framed x b) :
    s.takeOwnerPacket x b = (s.active.newFlight (packetOf (.owner x) b) (fieldAt b 0 2)).1 := by
  unfold State.takeOwnerPacket
  rcases hst : s.headerStatus (packetOf (.owner x) b) (fieldAt b 0 2) with _ | st
  · simp only [hst]
    exact if_pos hlen
  · simp only [hst]
    exact if_pos ⟨hrow, hlen.1, hlen.2⟩

theorem firstFail_mem {l : List (Bool × Nat)} {st : Nat} (h : firstFail l = some st) : st ∈ l.map (·.2) := by
  induction l with
  | nil => cases h
  | cons a l ih =>
    rw [firstFail] at h
    split at h
    · exact (Option.some.inj h) ▸ List.mem_cons_self
    · exact List.mem_cons_of_mem _ (ih h)

/-- The header checks never answer OK. -/
theorem headerStatus_ne_ok {p : Packet} {code st : Nat} (hst : s.headerStatus p code = some st) : st ≠ St.ok := by
  unfold State.headerStatus at hst
  split at hst
  · exact ne_of_eq_of_ne (Option.some.inj hst).symm (by decide)
  · split at hst
    · exact ne_of_eq_of_ne (Option.some.inj hst).symm (by decide)
    · exact ne_of_eq_of_ne (Option.some.inj hst).symm (by decide)
  · have hmem := firstFail_mem hst
    simp only [List.map_cons, List.map_nil, List.mem_cons, List.not_mem_nil, or_false] at hmem
    obtain rfl | rfl | rfl | rfl | rfl | rfl := hmem <;> decide

/-- A packet of no row of the opcode table is refused on an open session (R61, R75). -/
theorem headerStatus_of_no_row {p : Packet} {code : Nat} (hx : s.sec.sessions.has x = true) (hp : p.path = .owner x) (hrow : (opRow code).isSome = false) :
    s.headerStatus p code = if s.versionOk p code then some St.badOpcode else some St.badVersion := by
  rw [Option.isSome_eq_false_iff, Option.isNone_iff_eq_none] at hrow
  simp only [State.headerStatus, hp, State.caller, hx, if_true, hrow]

/-- A packet of no row, or of another length, completes at once. -/
theorem takeOwnerPacket_ends (hx : s.sec.sessions.has x = true) (hbad : (opRow (fieldAt b 0 2)).isSome = false ∨ b.length ≠ (packetOf (.owner x) b).len.toNat * 64) :
    ∃ st v, st ≠ St.ok ∧ s.takeOwnerPacket x b =
      (s.active.newFlight (packetOf (.owner x) b) (fieldAt b 0 2)).1.finishFull (s.active.newFlight (packetOf (.owner x) b) (fieldAt b 0 2)).2 st 0 0 v [] [] := by
  unfold State.takeOwnerPacket
  rcases hst : s.headerStatus (packetOf (.owner x) b) (fieldAt b 0 2) with _ | st
  · refine ⟨St.badParam, none, by decide, ?_⟩
    obtain hrow | hlen := hbad
    · exact absurd hst (by rw [headerStatus_of_no_row hx rfl hrow]; split <;> exact Option.some_ne_none _)
    · simp only [hst]
      exact if_neg (fun h => hlen h.1)
  · refine ⟨st, some (s.verOf (packetOf (.owner x) b) (fieldAt b 0 2)), headerStatus_ne_ok hst, ?_⟩
    simp only [hst]
    refine if_neg (fun h => ?_)
    obtain ⟨hrow, hlen, -⟩ := h
    obtain hno | hno := hbad
    · rw [hrow] at hno; cases hno
    · exact hno hlen

end Sessions

/-! ### Host links (R465, R466, R477) -/

section Links

variable {s : State} {link fn : Nat}

theorem exec_linkCommand {c : Instr} (hlink : link < ioDies s.order) (hc : c = .perstAssert link ∨ c = .hostLinkDown link) :
    exec c s = .next (s.linkReset link (decide (c = .hostLinkDown link) && (s.hostLink link).perst)) := by
  obtain rfl | rfl := hc <;> simp [exec, execPerstAssert, execHostLinkDown, hlink]

theorem linkReset_func? (s : State) (link : Nat) (perst : Bool) (fn : Nat) :
    (s.linkReset link perst).func? fn = (s.func? fn).map (fun f => if fn / 16 = link then { f with busMaster := false } else f) := by
  rw [State.func?, State.linkReset, Tab.get?_mapVals]
  rfl

/-- A link that trains has one to eight lanes at a speed of the generations. -/
theorem trainedLink_spec (n : Nat) : (trainedLink n).up = true ∧ (trainedLink n).perst = true ∧ (trainedLink n).width ∈ [1, 2, 4, 8] ∧
    (trainedLink n).speed ∈ [25, 50, 80, 160, 320] := by
  have hlane : ∀ i < 4, [8, 4, 2, 1].getD i 8 ∈ [1, 2, 4, 8] := by decide
  have hspeed : ∀ i < 5, [25, 50, 80, 160, 320].getD i 320 ∈ [25, 50, 80, 160, 320] := by decide
  exact ⟨rfl, rfl, hlane _ (Nat.mod_lt _ (by decide)), hspeed _ (Nat.mod_lt _ (by decide))⟩

/-- Only the protocol engine, the frame's counters, host memory and what left the part differ, and no function is another. -/
def ProtoOnly (s t : State) : Prop := t = { s with proto := { t.proto with funcs := s.proto.funcs }, stats := t.stats, stores := t.stores, out := t.out }

theorem ProtoOnly.refl (s : State) : ProtoOnly s s := rfl

theorem ProtoOnly.trans {s t u : State} (h : ProtoOnly s t) (g : ProtoOnly t u) : ProtoOnly s u := by
  rw [ProtoOnly] at g ⊢
  rw [h] at g
  exact g

theorem finish_proto (s : State) (id st info res : Nat) : ProtoOnly s (s.finish id st info res) := by
  rcases hf : s.flight? id with _ | f
  · have : s.finish id st info res = s := by simp only [State.finish, State.finishFull, hf]
    rw [this]
    exact .refl s
  · obtain ⟨a, ha⟩ := State.finishFull_eq hf st info res none [] []
    rw [State.finish, ha]
    rfl

theorem reportLost_proto (s : State) (eq : Nat) : ProtoOnly s (s.reportLost eq) := by
  rw [ProtoOnly, (s.reportLost_events eq).1]

theorem closeQueue_proto (s : State) (q : Nat) : ProtoOnly s (s.closeQueue q) := by
  unfold State.closeQueue
  split
  · exact .refl s
  split
  · exact .refl s
  split
  · exact .refl s
  split
  · split <;> rfl
  · have hends (c : CmdQueue) (f : Flight) (id : Nat) :
        ProtoOnly s (if f.opcode = 9 then s.finish id St.ok 0 (s.unfetched c c.left c.head + 2 ^ 32 * c.left) else s) := by
      split
      · exact finish_proto ..
      · exact .refl s
    simp only
    split
    · exact hends ..
    · exact (hends ..).trans rfl

theorem closeQueues_proto (s : State) : ProtoOnly s s.closeQueues := by
  have hclosed := foldl_keeps (ProtoOnly s) (fun s kv => s.closeQueue kv.1) (s.proto.queues.filter (fun kv => kv.2.closing.isSome)) s (.refl s)
    (fun t kv h => h.trans (closeQueue_proto t kv.1))
  refine foldl_keeps (ProtoOnly s) _ _ _ hclosed (fun t f h => ?_)
  split
  · exact h
  · exact h.trans (finish_proto ..)

theorem exec_busMasterEnable (hfn : fn / 16 = link) (hrun : s.running = true) (hup : (s.hostLink link).up = true) : exec (.busMasterEnable fn) s =
    .next ((Tab.keysWhere (s.setFunc fn (fun f => { f with busMaster := true })).proto.eqs (fun _ q => decide (q.fn = fn))).foldl (fun (s : State) e => s.reportLost e)
      (s.setFunc fn (fun f => { f with busMaster := true }))).closeQueues.settle := by
  simp [exec, execBusMasterEnable, hfn, hrun, hup]

end Links

/-- Settles O24. -/
theorem managementPort : Obligations.ManagementPort := by
  refine ⟨fun s h x => ⟨fun hup hhere => ?_, fun hno => ?_, _, rfl, closeSession_spec s x⟩, fun s x type b hup hx =>
    ⟨exec_mgmtMessage_other hup hx, exec_mgmtMessage_full hup hx, fun ht hbusy => ⟨fun hrow hlen hpos => ?_, fun hbad hids => ?_⟩⟩⟩
  · intro good
    rw [exec_mgmtSessionOpen hup (addressed_iff.2 hhere)]
    exact ⟨fun hgood => ⟨_, has_freeSession s, congrArg _ (if_pos hgood)⟩, fun hbad => congrArg _ (if_neg hbad)⟩
  · exact exec_mgmtSessionOpen_elsewhere (hno.imp_right fun hno => by rwa [Bool.eq_false_iff, Ne, addressed_iff])
  · rw [exec_mgmtMessage_taken hup hx ht hbusy, takeOwnerPacket_flies hrow ⟨hlen, hpos⟩]
    obtain ⟨f, a, hflight, hid, hop, hpkt, hpath, hrun, hpark, -⟩ := Fetching.newFlight_spec s.active (packetOf (.owner x) b) (fieldAt b 0 2)
    rw [hflight]
    exact ⟨_, f, rfl, rfl, hid, hpkt, hop, hpath, hrun, hpark, rfl⟩
  · rw [exec_mgmtMessage_taken hup hx ht hbusy]
    obtain ⟨st, v, hst, hends⟩ := takeOwnerPacket_ends (s := s) hx hbad
    obtain ⟨f, a, hflight, hid, hop, hpkt, hpath, hrun, hpark, -⟩ := Fetching.newFlight_spec s.active (packetOf (.owner x) b) (fieldAt b 0 2)
    rw [hends, hflight]
    obtain ⟨a', hfin⟩ := State.finishFull_eq (Fetching.flight?_newest (s := { s.active with
      proto := { s.active.proto with flights := s.active.proto.flights ++ [f], nextFlight := s.active.proto.nextFlight + 1 }, stats := a }) rfl hid hids) st 0 0 v [] []
    refine ⟨_, _, congrArg _ hfin, ?_, rfl, hst, hpath⟩
    have hold : ∀ g ∈ s.proto.flights, decide (g.id ≠ s.proto.nextFlight) = true := fun g hg => decide_eq_true (hids g hg).ne
    show List.filter (fun g => decide (g.id ≠ s.proto.nextFlight)) (s.proto.flights ++ [f]) = s.proto.flights
    rw [List.filter_append, List.filter_eq_self.2 hold, List.filter_cons_of_neg (by rw [show f.id = s.proto.nextFlight from hid]; simp), List.filter_nil, List.append_nil]

/-- Settles O25: a link's loss is one change of its functions, and what waited for bus mastering goes on without another. -/
theorem hostLinks : Obligations.HostLinks := by
  refine fun s link => ⟨fun hlink c hc => ?_, fun hlink hrun => ?_, fun fn f hfn hrun hup hf => ?_, fun fn hfn hdown => ?_, fun hno => ?_⟩
  · refine ⟨_, exec_linkCommand hlink hc, Tab.get?_set_self .., fun fn f hf hfn => ?_, fun fn f hf => ?_, rfl, rfl, rfl, rfl, rfl⟩
    · simp only [linkReset_func?, if_pos hfn] at hf
      obtain ⟨g, -, rfl⟩ := Option.map_eq_some_iff.1 hf
      rfl
    · rw [linkReset_func?, hf, Option.map_some]
      refine ⟨_, rfl, ?_⟩
      split <;> simp_all
  · obtain ⟨hup, hperst, hwidth, hspeed⟩ := trainedLink_spec (Sys2Proof.Config.freeNat s.fresh)
    exact ⟨_, hup, hperst, hwidth, hspeed, by simp [exec, execHostLinkUp, hlink, hrun]; rfl⟩
  · have hproto := (foldl_keeps (ProtoOnly (s.setFunc fn (fun f => { f with busMaster := true }))) (fun (s : State) e => s.reportLost e)
      (Tab.keysWhere (s.setFunc fn (fun f => { f with busMaster := true })).proto.eqs (fun _ q => decide (q.fn = fn))) _ (.refl _)
      (fun t e h => h.trans (reportLost_proto t e))).trans (closeQueues_proto _)
    refine ⟨_, exec_busMasterEnable hfn hrun hup, ?_, ?_, ?_⟩
    · rw [hproto]
      have hfunc : s.proto.funcs.get? fn = some f := hf
      simp [State.func?, State.setFunc, Tab.get?_update, hfunc]
    · rw [hproto]; rfl
    · rw [hproto]; rfl
  · simp [exec, execBusMasterEnable, hfn, hdown]
  · simp [exec, execPerstAssert, execHostLinkDown, execHostLinkUp, not_lt.2 hno]

end Sys2Proof.Proofs.Ports

/-! PROOFS. Cores: placement, slots that come free, and issue (05_core_engines). -/

namespace Sys2Proof.Proofs.Cores

open Sys2Proof Sys2Proof.Machine

/-! ### Placement (R85, R139, R142) -/

section Place

variable {c : Core} {o : OpSlot} {d : Desc}

theorem place_order (c : Core) (o : OpSlot) : (c.place o).slots ++ (c.place o).held = c.slots ++ c.held ++ [o] := by
  unfold Core.place
  split
  next h =>
    have hheld : c.held = [] := by simp at h; exact h.2
    simp [hheld]
  next => simp

theorem place_slots_le (h : c.slots.length ≤ 8) : (c.place o).slots.length ≤ 8 := by
  unfold Core.place
  split
  next hfree => simp at hfree ⊢; omega
  next => exact h

theorem place_ring (c : Core) (o : OpSlot) : (c.place o).ring = c.ring := by
  unfold Core.place
  split <;> rfl

theorem queueDesc_order (c : Core) (d : Desc) : (c.queueDesc d).ring ++ (c.queueDesc d).feed = c.ring ++ c.feed ++ [d] := by
  unfold Core.queueDesc
  split
  next h =>
    have hfeed : c.feed = [] := by simp at h; exact h.2
    simp [hfeed]
  next => simp

theorem queueDesc_ring_le (h : c.ring.length ≤ 64) : (c.queueDesc d).ring.length ≤ 64 := by
  unfold Core.queueDesc
  split
  next hfree => simp at hfree ⊢; omega
  next => exact h

theorem queueDesc_slots (c : Core) (d : Desc) : (c.queueDesc d).slots = c.slots := by
  unfold Core.queueDesc
  split <;> rfl

/-- Filling free places in order: nothing is lost or passed over, and where something still waits every place is taken. -/
theorem fill_spec {α : Type} {n : Nat} (l m : List α) (h : l.length ≤ n) : (l ++ m.take (n - l.length)) ++ m.drop (n - l.length) = l ++ m ∧
    (l ++ m.take (n - l.length)).length ≤ n ∧ (m.drop (n - l.length) ≠ [] → (l ++ m.take (n - l.length)).length = n) := by
  refine ⟨by simp, by simp; omega, fun hne => ?_⟩
  rw [Ne, List.drop_eq_nil_iff, not_le] at hne
  simp
  omega

theorem slotsKept_sublist (c : Core) : c.slotsKept.Sublist c.slots := List.filter_sublist

theorem slotsKept_le (h : c.slots.length ≤ 8) : c.slotsKept.length ≤ 8 := (slotsKept_sublist c).length_le.trans h

theorem mem_slotsKept {x : OpSlot} (hx : x ∈ c.slots) : x ∈ c.slotsKept ↔ x.engine ≠ none ∨ ∃ y ∈ c.ring ++ c.feed, y.owner = x.owner ∧ y.tag = x.tag := by
  simp only [Core.slotsKept, List.mem_filter, hx, true_and, Bool.or_eq_true, Option.isSome_iff_ne_none, List.any_eq_true, decide_eq_true_eq]

theorem core_setCore (s : State) (core : Nat) (v : Core) : (s.setCore core v).core core = v := by
  unfold State.setCore State.core
  split
  next h => rw [Tab.get?_erase_self]; exact h.symm
  next => rw [Tab.get?_set_self]; rfl

theorem feeds_iff (s : State) (core : Nat) : s.feeds core = true ↔ s.cccDown (core / 256) = false ∨
    ∃ q, s.sched.partitions.get? (s.partOfCore core) = some q ∧ q.cls = 0 := by
  unfold State.feeds
  rcases s.sched.partitions.get? (s.partOfCore core) with _ | q <;> simp

end Place

/-! ### Issue (R134, R142, R143) -/

section Issue

variable {s : State} {core i : Nat} {e : Sys2Proof.Engine}

theorem exec_operationIssue (hrun : s.running = true) (h : s.issueSlot core e = some i) :
    exec (.operationIssue core e) s = .next (s.setCore core ((s.core core).issue i)) := by
  simp [exec, execOperationIssue, hrun, h]

theorem exec_operationIssue_none (h : s.issueSlot core e = none) : exec (.operationIssue core e) s = .next s := by
  simp [exec, execOperationIssue, h]

/-- A slot that is issued is ready, of the engine, and its core's clock runs. -/
theorem issueSlot_spec (h : s.issueSlot core e = some i) : (s.core core).ready i = true ∧
    ∃ x, (s.core core).slots[i]? = some x ∧ x.engine = some e ∧ s.coreStopped core x.part = false := by
  have hfound := List.find?_some (p := fun i => (s.core core).ready i && (match (s.core core).slots[i]? with
    | some x => decide (x.engine = some e) && !s.coreStopped core x.part
    | none => false)) h
  rw [Bool.and_eq_true] at hfound
  obtain ⟨hready, hslot⟩ := hfound
  refine ⟨hready, ?_⟩
  rcases hx : (s.core core).slots[i]? with _ | x
  · simp [hx] at hslot
  · exact ⟨x, rfl, by simpa [hx] using hslot⟩

/-- What an operation of an engine waits for besides walkers. -/
theorem due_spec {c : Core} {x : OpSlot} (h : c.due i = true) (hx : c.slots[i]? = some x) (he : x.engine = some e) : x.issued = false ∧
    (∀ y ∈ c.slots, y.issued = true → ∀ a ∈ y.engines, a ∉ x.engines) ∧ (∀ y ∈ c.slots.take i, rangesClash y.ranges x.ranges = false) ∧
    (∀ d ∈ c.ring ++ c.feed, (d.tag = x.tag → d.outgoing = true) ∧ (d.tag < x.tag → rangesClash d.ranges x.ranges = false)) := by
  simp only [Core.due, hx, he, Bool.and_eq_true, Bool.not_eq_true'] at h
  obtain ⟨hissued, ⟨hengines, hslots⟩, hdescs⟩ := h
  refine ⟨hissued, fun y hy hyi a ha hax => ?_, fun y hy => ?_, fun d hd => ?_⟩
  · have := List.any_eq_false.1 hengines y hy
    simp only [hyi, Bool.true_and, List.any_eq_true, not_exists, not_and] at this
    exact this a ha (List.contains_iff_mem.2 hax)
  · simpa [OpSlot.clashes] using List.any_eq_false.1 hslots y hy
  · have := List.any_eq_false.1 hdescs d hd
    simp only [Bool.or_eq_true, Bool.and_eq_true, decide_eq_true_eq, Bool.not_eq_true', not_or, not_and, Bool.not_eq_true, Bool.not_eq_false] at this
    exact this

theorem not_rangesClash {a b : List (Nat × Nat × Bool)} (h : rangesClash a b = false) {x y : Nat × Nat × Bool} (hx : x ∈ a) (hy : y ∈ b) (h1 : x.1 < y.2.1)
    (h2 : y.1 < x.2.1) : x.2.2 = false ∧ y.2.2 = false := by
  have := List.any_eq_false.1 h x hx
  rw [List.any_eq_true, not_exists] at this
  simpa [hy, h1, h2] using this y

/-- The walkers are free, and no earlier slot waits for any if it needs some. -/
theorem granted_spec {c : Core} {x : OpSlot} (h : c.granted i = true) (hx : c.slots[i]? = some x) : c.walkersBusy + x.walkers.length ≤ 4 ∧
    (x.walkers ≠ [] → ∀ j, j < i → c.due j = true → c.short j = false) := by
  simp only [Core.granted, Core.short, hx, Bool.and_eq_true, Bool.not_eq_true', decide_eq_false_iff_not, not_lt, Bool.or_eq_true, List.isEmpty_iff] at h
  obtain ⟨hfree, hturn⟩ := h
  refine ⟨hfree, fun hne j hj hdue => ?_⟩
  have := List.any_eq_false.1 (hturn.resolve_left hne) j (List.mem_range.2 hj)
  simpa [hdue, Core.short] using this

/-- Walkers taken in order are as many as are asked for, where so many are free. -/
theorem length_takeWalkers (e : Option Sys2Proof.Engine) (tag : Nat) (l : List (Option (Option Sys2Proof.Engine × Nat × Walker))) (ws : List Walker)
    (h : (l.filter Option.isSome).length + ws.length ≤ l.length) :
    ((takeWalkers e tag l ws).filter Option.isSome).length = (l.filter Option.isSome).length + ws.length := by
  induction l generalizing ws with
  | nil =>
    cases ws with
    | nil => rfl
    | cons w ws => simp at h
  | cons a l ih =>
    cases ws with
    | nil => cases a <;> simp [takeWalkers]
    | cons w ws =>
      cases a with
      | none =>
        have := ih ws (by simp at h ⊢; omega)
        simp [takeWalkers, this]
        omega
      | some x =>
        have := ih (w :: ws) (by simp at h ⊢; omega)
        simp [takeWalkers, this] 
        omega

theorem issue_walkersBusy {c : Core} {x : OpSlot} (hx : c.slots[i]? = some x) (hlen : c.walkers.length = 4) (hfree : c.walkersBusy + x.walkers.length ≤ 4) :
    (c.issue i).walkersBusy = c.walkersBusy + x.walkers.length := by
  simp only [Core.issue, hx, Core.walkersBusy] at hfree ⊢
  exact length_takeWalkers _ _ _ _ (by omega)

end Issue

/-- Settles O32: places fill in order, and what issues is ready, with its walkers granted. -/
theorem coresPlaceAndIssue : Obligations.CoresPlaceAndIssue := by
  refine ⟨⟨fun c o d hslots hring => ?_, fun s core c => ⟨?_, rfl, rfl, rfl, rfl, feeds_iff s core⟩⟩, fun s core e hrun => ⟨fun i hi => ?_, exec_operationIssue_none⟩⟩
  · obtain ⟨horder, hle, hfull⟩ := fill_spec (n := 8) c.slotsKept c.held (slotsKept_le hslots)
    obtain ⟨hrorder, hrle, hrfull⟩ := fill_spec c.ring c.feed hring
    exact ⟨place_order c o, place_slots_le hslots, place_ring c o, queueDesc_order c d, queueDesc_ring_le hring, queueDesc_slots c d,
      horder, hrorder, hle, hrle, hfull, hrfull, slotsKept_sublist c, fun x => mem_slotsKept⟩
  · rw [State.putCore, core_setCore]
  · obtain ⟨hready, x, hx, he, hclock⟩ := issueSlot_spec hi
    obtain ⟨hdue, hgranted⟩ := Bool.and_eq_true_iff.1 hready
    obtain ⟨hissued, hengines, hslots, hdescs⟩ := due_spec hdue hx he
    obtain ⟨hfree, hturn⟩ := granted_spec hgranted hx
    refine ⟨exec_operationIssue hrun hi, rfl, x, hx, he, hissued, hclock, hengines, hfree, fun hlen => issue_walkersBusy hx hlen hfree, hturn,
      fun d hd => (hdescs d hd).2, fun y hy a ha b hb => not_rangesClash (hslots y hy) ha hb, fun d hd htag => ?_⟩
    simpa [Desc.outgoing] using (hdescs d hd).1 htag

end Sys2Proof.Proofs.Cores

/-! PROOFS. Cores: operations and descriptors retire, and the completion of what was placed (05_core_engines, 01_architecture). -/

namespace Sys2Proof.Proofs.Cores

open Sys2Proof Sys2Proof.Machine

/-! ### OPERATION_RETIRE (R142, R144, R152) -/

section Retire

variable {s : State} {core : Nat} {e : Sys2Proof.Engine} {x : OpSlot}

theorem exec_operationRetire_waits (hx : s.issuedSlot core e = some x) (hdue : s.partialsDue core x = true) (mem : MemOutcome) :
    exec (.operationRetire core e mem) s = .next s := by
  simp [exec, execOperationRetire, hx, hdue]

theorem exec_operationRetire (hrun : s.running = true) (hx : s.issuedSlot core e = some x) (hclock : s.coreStopped core x.part = false)
    (hdue : s.partialsDue core x = false) (mem : MemOutcome) : exec (.operationRetire core e mem) s = .next (s.retireOp core x mem) := by
  simp [exec, execOperationRetire, hrun, hx, hclock, hdue]

theorem retireOp_clean : s.retireOp core x .clean = ((s.countEngine core x).retireSlot core x).settle := by
  have hmet : (s.countEngine core x).opMet core x .clean = (s.countEngine core x, false) := by
    unfold State.opMet
    split
    next h _ => exact nomatch h
    next h => exact nomatch h
    next => rfl
  simp only [State.retireOp, hmet]
  rfl

theorem retireOp_uncorrectable (halso : x.also = []) (a : Nat) : s.retireOp core x (.uncorrectable a) =
    ((((s.countEngine core x).uncorrectable .core (coreKey core (a % 2097152))).failWork x.owner x.tag St.memUncorrectable).releaseTag x.owner x.tag).settle := by
  have hmet : (s.countEngine core x).opMet core x (.uncorrectable a) =
      (((s.countEngine core x).uncorrectable .core (coreKey core (a % 2097152))).failWork x.owner x.tag St.memUncorrectable, true) := by
    simp only [State.opMet, halso, List.isEmpty_nil, if_true]
  simp only [State.retireOp, hmet, if_true]

/-- Cores change in their contents alone. -/
def CoresOnly (s t : State) : Prop := t = { s with cores := t.cores }

theorem CoresOnly.refl (s : State) : CoresOnly s s := rfl

theorem CoresOnly.trans {s t u : State} (h : CoresOnly s t) (g : CoresOnly t u) : CoresOnly s u := by
  rw [CoresOnly] at g ⊢
  rw [h] at g
  exact g

theorem setCore_cores (s : State) (core : Nat) (c : Core) : CoresOnly s (s.setCore core c) := rfl

theorem putCore_cores (s : State) (core : Nat) (c : Core) : CoresOnly s (s.putCore core c) := rfl

theorem releaseTag_cores (s : State) (o : Owner) (tag : Nat) : CoresOnly s (s.releaseTag o tag) :=
  foldl_keeps (CoresOnly s) _ _ _ (.refl s) (fun t _ h => h.trans (putCore_cores t _ _))

theorem retireSlot_stores (s : State) (core : Nat) (x : OpSlot) : (s.retireSlot core x).stores = x.writes.foldl (fun m w => (m.write w).heal w) s.stores := by
  unfold State.retireSlot
  rw [putCore_cores]
  rfl

theorem countEngine_coreTime (s : State) (core : Nat) (x : OpSlot) : ((s.countEngine core x).stats.acc.parts.get? x.part).map (·.coreTime) =
    some (((s.stats.acc.parts.get? x.part).getD PartAcc.zero).coreTime + x.cycles * 1000000 / s.clockOf (core / 256)) := by
  simp [State.countEngine, State.accPart, State.acc]

end Retire

/-! ### An operation that is stopped (R73, R144) -/

section Stop

variable {s : State} {id : Nat} {g : Flight}

theorem releaseOwner_proto (s : State) (o : Owner) : (s.releaseOwner o).proto = s.proto := by
  have hcores := foldl_keeps (CoresOnly s) (fun s kv => s.putCore kv.1 (kv.2.release o)) (s.cores.filter (fun kv => kv.2.serves o)) s (.refl s)
    (fun t _ h => h.trans (putCore_cores t _ _))
  rw [State.releaseOwner, State.unhold, hcores]

/-- A flight that is stopped is gone, and its completion has the status given. -/
theorem stopFlight_ends (hg : s.flight? id = some g) (st : Nat) : (s.stopFlight id st).flight? id = none ∧
    ∃ fin ∈ (s.stopFlight id st).proto.finished, fin.flight = id ∧ fin.status = st := by
  unfold State.stopFlight
  rw [hg]
  simp only
  generalize hscrambled : (if g.placed then s.scramble (s.partialRanges (.flight id) ++ g.writes) else s) = u
  have hproto : u.proto = s.proto := by rw [← hscrambled]; split <;> rfl
  have hflight : ((u.releaseOwner (.flight id)).forget id).flight? id = some g := by
    rw [State.flight?, State.forget, releaseOwner_proto, hproto]
    exact hg
  obtain ⟨a, ha⟩ := State.finishFull_eq hflight st 0 (u.stopResult g st) none [] []
  rw [State.finish, ha]
  refine ⟨List.find?_eq_none.2 (fun x hx => ?_), _, List.mem_append_right _ (List.mem_singleton_self _), rfl, rfl⟩
  simpa using (List.mem_filter.1 hx).2

/-- Counting an error in a core store leaves the flights and the searches. -/
theorem uncorrectable_core_flights (s : State) (key : Nat) : (s.uncorrectable .core key).proto.flights = s.proto.flights ∧ (s.uncorrectable .core key).apps = s.apps := by
  have hlog (t : State) (code source detail : Nat) : (t.logFault code source detail).proto = t.proto ∧ (t.logFault code source detail).apps = t.apps := by
    unfold State.logFault
    extract_lets recent
    split <;> exact ⟨rfl, rfl⟩
  have hpost (t : State) (e : Event) : (t.post e).proto.flights = t.proto.flights ∧ (t.post e).apps = t.apps := by
    rw [(t.post_events e).1]
    exact ⟨rfl, rfl⟩
  unfold State.uncorrectable
  extract_lets line src posted s1 r m s2 s3 s4 l
  have h3 : s3.proto.flights = s.proto.flights ∧ s3.apps = s.apps := by
    simp only [s3]
    split
    · exact ⟨rfl, rfl⟩
    · exact hpost s2 _
  exact ⟨(congrArg _ (hlog s3 _ _ _).1).trans h3.1, (hlog s3 _ _ _).2.trans h3.2⟩

/-- An operation of a flight without a search that met an uncorrectable operand ends with MEM_UNCORRECTABLE. -/
theorem uncorrectable_ends {core : Nat} {x : OpSlot} (ho : x.owner = .flight id) (hg : s.flight? id = some g) (hsearch : s.searchOf id = none) (key : Nat) :
    let u := (((s.countEngine core x).uncorrectable .core key).failWork x.owner x.tag St.memUncorrectable).releaseTag x.owner x.tag
    u.flight? id = none ∧ ∃ fin ∈ u.proto.finished, fin.flight = id ∧ fin.status = St.memUncorrectable := by
  obtain ⟨hflights, happs⟩ := uncorrectable_core_flights (s.countEngine core x) key
  have hsearch' : ((s.countEngine core x).uncorrectable .core key).searchOf id = none := by
    rw [State.searchOf, happs]
    exact hsearch
  have hg' : ((s.countEngine core x).uncorrectable .core key).flight? id = some g := by
    rw [State.flight?, hflights]
    exact hg
  intro u
  have hu : u.proto = (((s.countEngine core x).uncorrectable .core key).stopFlight id St.memUncorrectable).proto := by
    simp only [u, ho, State.failWork, State.stopOp, hsearch']
    rw [releaseTag_cores]
  rw [State.flight?, hu]
  exact stopFlight_ends hg' St.memUncorrectable

end Stop

/-! ### The descriptors of the Tongs (R139, R140) -/

section Tongs

variable {s : State} {core : Nat} {c c' : Core} {i : Nat} {d : Desc}

/-- The descriptor whose turn has come, and what it waited for. -/
theorem nextDesc_spec (h : c.nextDesc = some (i, d)) : c.ring[i]? = some d ∧ d.started = false ∧ i < 8 ∧ (∀ d ∈ c.ring.take i, d.started = true) ∧
    (d.order = true → i = 0) ∧ (d.op = 2 ∨ d.op = 5 → ∀ x ∈ c.slots ++ c.held, x.engine ≠ none → ¬(x.owner = d.owner ∧ x.tag = d.tag)) ∧
    (∀ x ∈ c.held, x.engine = none → ¬(x.owner = d.owner ∧ x.tag = d.tag)) ∧
    (∀ x ∈ c.slots ++ c.held, x.tag < d.tag → rangesClash x.ranges d.ranges = false) := by
  unfold Core.nextDesc at h
  rcases hfind : c.ring.findIdx? (fun d => !d.started) with _ | k
  · simp [hfind] at h
  simp only [hfind] at h
  rcases hring : c.ring[k]? with _ | d'
  · simp [hring] at h
  simp only [hring] at h
  split at h
  · cases h
  next hturn =>
  split at h
  · cases h
  next hengine =>
  split at h
  · cases h
  next hlone =>
  split at h
  · cases h
  next hclash =>
  obtain ⟨rfl, rfl⟩ := Prod.mk.inj (Option.some.inj h)
  obtain ⟨hlen, hstarted, hbefore⟩ := List.findIdx?_eq_some_iff_getElem.1 hfind
  obtain ⟨h8, horder⟩ := not_or.1 hturn
  have hget : c.ring[k] = d' := by simpa [hlen] using hring
  refine ⟨hring, by simpa [hget] using hstarted, not_le.1 h8, fun y hy => ?_, fun ho => ?_, fun hout x hx hne hsame => ?_, fun x hx hne hsame => ?_, fun x hx hlt => ?_⟩
  · obtain ⟨j, hj, rfl⟩ := List.mem_iff_getElem.1 hy
    have hjk : j < k := by simp at hj; omega
    simpa using hbefore j hjk
  · by_contra hk
    exact horder ⟨ho, by omega⟩
  · refine hengine (Bool.and_eq_true_iff.2 ⟨by simpa [Desc.outgoing] using hout, List.any_eq_true.2 ⟨x, hx, ?_⟩⟩)
    simp [Option.isSome_iff_ne_none.2 hne, hsame.1, hsame.2]
  · refine hlone (List.any_eq_true.2 ⟨x, hx, ?_⟩)
    simp [hne, hsame.1, hsame.2]
  · by_contra hno
    refine hclash (List.any_eq_true.2 ⟨x, hx, ?_⟩)
    simpa [hlt] using hno

/-- The slot of a MOVE by Tongs alone, and the core when its descriptor starts: the slot issues with the first one. -/
theorem loneOf_spec {k : Nat} (h : c.loneOf d = some k) : ∃ x, c.slots[k]? = some x ∧ x.owner = d.owner ∧ x.tag = d.tag := by
  obtain ⟨hlen, hk, -⟩ := List.findIdx?_eq_some_iff_getElem.1 h
  refine ⟨c.slots[k], by simp [hlen], ?_⟩
  simp only [Bool.and_eq_true, decide_eq_true_eq] at hk
  exact hk.2

/-- The core from which descriptor `d` starts: with the slot of its MOVE issued. -/
def Base (c : Core) (d : Desc) (b : Core) : Prop :=
  b.ring = c.ring ∧ b.held = c.held ∧ b.feed = c.feed ∧
    ∀ k x, c.loneOf d = some k → b.slots[k]? = some x → x.issued = true ∧ x.owner = d.owner ∧ x.tag = d.tag

/-- Descriptor `i` starts, with the walker it sets. -/
def startAt (b : Core) (i : Nat) (d : Desc) : Option Core := match d.walk with
  | none => some { b with ring := b.ring.modify i (fun d => { d with started := true, walker := 0 }) }
  | some v => (b.walkerFor d).map (fun k =>
      { b with walkers := b.walkers.set k (some (none, d.tag, v)), ring := b.ring.modify i (fun d => { d with started := true, walker := k }) })

theorem base_of_not_lone (h : c.loneOf d = none) : Base c d c := ⟨rfl, rfl, rfl, fun k x hk => by rw [h] at hk; cases hk⟩

theorem base_of_issued {k : Nat} {x : OpSlot} (h : c.loneOf d = some k) (hx : c.slots[k]? = some x) (hissued : x.issued = true) : Base c d c := by
  obtain ⟨y, hy, ho, ht⟩ := loneOf_spec h
  refine ⟨rfl, rfl, rfl, fun k' x' hk hx' => ?_⟩
  obtain rfl : k = k' := Option.some.inj (h.symm.trans hk)
  obtain rfl : x = x' := Option.some.inj (hx.symm.trans hx')
  obtain rfl : x = y := Option.some.inj (hx.symm.trans hy)
  exact ⟨hissued, ho, ht⟩

theorem base_of_issue {k : Nat} (h : c.loneOf d = some k) : Base c d (c.issue k) := by
  obtain ⟨y, hy, ho, ht⟩ := loneOf_spec h
  refine ⟨rfl, rfl, rfl, fun k' x' hk hx' => ?_⟩
  obtain rfl : k = k' := Option.some.inj (h.symm.trans hk)
  obtain rfl : { y with issued := true } = x' := by simpa [Core.issue, hy] using hx'
  exact ⟨rfl, ho, ht⟩

theorem startDesc_spec (h : c.startDesc = some c') : ∃ i d b, c.nextDesc = some (i, d) ∧ Base c d b ∧ startAt b i d = some c' := by
  unfold Core.startDesc at h
  rcases hnext : c.nextDesc with _ | ⟨i, d⟩
  · simp [hnext] at h
  simp only [hnext] at h
  rcases hlone : c.loneOf d with _ | k
  · refine ⟨i, d, c, rfl, base_of_not_lone hlone, ?_⟩
    rcases hwalk : d.walk with _ | v <;> simpa [startAt, hlone, hwalk] using h
  obtain ⟨x, hx, -⟩ := loneOf_spec hlone
  simp only [hlone, hx, Option.map_some, Option.getD_some] at h
  by_cases hissued : x.issued = true
  · rw [if_pos hissued] at h
    refine ⟨i, d, c, rfl, base_of_issued hlone hx hissued, ?_⟩
    rcases hwalk : d.walk with _ | v <;> simpa [startAt, hwalk] using h
  · rw [if_neg hissued] at h
    by_cases hgranted : c.granted k = true
    · rw [if_pos hgranted] at h
      refine ⟨i, d, c.issue k, rfl, base_of_issue hlone, ?_⟩
      rcases hwalk : d.walk with _ | v <;> simpa [startAt, hwalk] using h
    · rw [if_neg hgranted] at h
      cases h

theorem walkerFor_lt {b : Core} {k : Nat} (h : b.walkerFor d = some k) : k < b.walkers.length := by
  unfold Core.walkerFor at h
  split at h
  next hfind =>
    obtain rfl := Option.some.inj h
    exact (List.findIdx?_eq_some_iff_getElem.1 hfind).1
  next =>
    split at h
    · cases h
    · exact (List.findIdx?_eq_some_iff_getElem.1 h).1

theorem startAt_spec {b : Core} (h : startAt b i d = some c') : ∃ w, c'.ring = b.ring.modify i (fun d => { d with started := true, walker := w }) ∧
    c'.held = b.held ∧ c'.feed = b.feed ∧ c'.slots = b.slots ∧ (∀ v, d.walk = some v → c'.walkers[w]? = some (some (none, d.tag, v))) := by
  unfold startAt at h
  rcases hwalk : d.walk with _ | v
  · simp only [hwalk] at h
    obtain rfl := Option.some.inj h
    exact ⟨0, rfl, rfl, rfl, rfl, fun v hv => by cases hv⟩
  · simp only [hwalk] at h
    obtain ⟨k, hk, rfl⟩ := Option.map_eq_some_iff.1 h
    refine ⟨k, rfl, rfl, rfl, rfl, fun v' hv => ?_⟩
    obtain rfl := Option.some.inj hv
    simp [walkerFor_lt hk]

theorem exec_tongsDescriptorStart (hrun : s.running = true) (hclock : s.coreStopped core (s.partOfCore core) = false) (h : (s.core core).startDesc = some c) :
    exec (.tongsDescriptorStart core) s = .next (s.setCore core c) := by
  simp [exec, execTongsDescriptorStart, hrun, hclock, h]

theorem exec_tongsDescriptorStart_none (h : (s.core core).startDesc = none) : exec (.tongsDescriptorStart core) s = .next s := by
  simp [exec, execTongsDescriptorStart, h]

theorem exec_tongsDescriptorRetire {r : List Desc} (hrun : s.running = true) (hclock : s.coreStopped core (s.partOfCore core) = false)
    (hring : (s.core core).ring = d :: r) (hstarted : d.started = true) : exec (.tongsDescriptorRetire core .clean) s = .next (s.retireDesc core d .clean) := by
  simp [exec, execTongsDescriptorRetire, hrun, hclock, hring, hstarted]

theorem exec_tongsDescriptorRetire_waits {r : List Desc} (hring : (s.core core).ring = d :: r) (hstarted : d.started = false) (mem : MemOutcome) :
    exec (.tongsDescriptorRetire core mem) s = .next s := by
  simp [exec, execTongsDescriptorRetire, hring, hstarted]

theorem retireDesc_clean {r : List Desc} (hring : (s.core core).ring = d :: r) : s.retireDesc core d .clean =
    (match d.window with
      | some w => ((s.apply (d.made core)).putCore core { s.core core with ring := r }).windowRead w.1 w.2.1 w.2.2
      | none => (s.apply (d.made core)).putCore core { s.core core with ring := r }).settle := by
  have hcore : (s.apply (d.made core)).core core = s.core core := rfl
  simp only [State.retireDesc, State.descMet, hcore, hring, List.tail_cons] <;> rfl

end Tongs

/-- Settles O33: what retires leaves its place and its writes stand, and a descriptor starts when its turn has come. -/
theorem coresRetire : Obligations.CoresRetire := by
  refine ⟨fun s core e hrun => ⟨fun x hx hdue => exec_operationRetire_waits hx hdue .clean, fun x hx hclock hdue => ⟨⟨?_, ?_, countEngine_coreTime s core x⟩, fun a halso => ?_⟩, fun hclock => ⟨fun c hc => ?_,
      exec_tongsDescriptorStart_none, fun d r hring hstarted => ?_, fun d r hring hstarted => exec_tongsDescriptorRetire_waits hring hstarted .clean⟩⟩, fun s f hf => ?_⟩
  · rw [exec_operationRetire hrun hx hclock hdue, retireOp_clean]
  · exact retireSlot_stores ..
  · intro u
    refine ⟨by rw [exec_operationRetire hrun hx hclock hdue, retireOp_uncorrectable halso], fun id g ho hg hsearch => ?_⟩
    exact uncorrectable_ends ho hg hsearch _
  · obtain ⟨i, d, b, hnext, ⟨hbring, hbheld, hbfeed, hlone⟩, hstart⟩ := startDesc_spec hc
    obtain ⟨hring, hstarted, hi, hbefore, horder, hengine, hheld, hclash⟩ := nextDesc_spec hnext
    obtain ⟨w, hcring, hcheld, hcfeed, hcslots, hwalk⟩ := startAt_spec hstart
    exact ⟨exec_tongsDescriptorStart hrun hclock hc, i, d, w, hring, hstarted, hcring.trans (by rw [hbring]), hcheld.trans hbheld, hcfeed.trans hbfeed, hi, hbefore, horder, hengine, hheld,
      fun k x hk hx => hlone k x hk (hcslots ▸ hx), hwalk, hclash⟩
  · intro u
    rw [exec_tongsDescriptorRetire hrun hclock hring hstarted, retireDesc_clean hring]
    exact ⟨fun hw => by rw [hw], fun w hw => by rw [hw]⟩
  · intro u
    rw [State.settlePlaced, hf]
    rfl

end Sys2Proof.Proofs.Cores

/-! PROOFS. Compute packets: what an operation placed on its cores leaves there (05_core_engines, 01_architecture). -/

namespace Sys2Proof.Proofs.Cores

open Sys2Proof Sys2Proof.Machine

/-! ### Errors that are counted and reported (R444 to R447, R456, R458) -/

/-- Reliability's records, events and the poisoned lines may change, and nothing else. -/
def Reported (s t : State) : Prop :=
  t = { s with rel := t.rel, proto := { s.proto with eqs := t.proto.eqs }, stores := t.stores, out := t.out }

section Reports

variable (s : State)

theorem Reported.refl : Reported s s := rfl

theorem Reported.trans {s t u : State} (h : Reported s t) (g : Reported t u) : Reported s u := by
  rw [Reported] at g ⊢
  rw [h] at g
  exact g

theorem post_reported (e : Event) : Reported s (s.post e) := by
  have h := (s.post_events e).1
  rw [Reported, h]

theorem logFault_reported (code source detail : Nat) : Reported s (s.logFault code source detail) := by
  unfold State.logFault
  extract_lets recent
  split <;> rfl

theorem writeSummary_reported : Reported s s.writeSummary := rfl

theorem retireFrame_reported (stack f : Nat) : Reported s (s.retireFrame stack f) := by
  unfold State.retireFrame
  extract_lets l
  split
  · exact .refl s
  · exact .trans (t := State.writeSummary { s with rel := { s.rel with retired := s.rel.retired.set stack (l ++ [f]) } }) rfl (logFault_reported _ _ _ _)

theorem condemn_reported (stack f : Nat) : Reported s (s.condemn stack f) := by
  unfold State.condemn
  split
  · split <;> rfl
  · exact retireFrame_reported s stack f

theorem uncorrectable_reported (st : Store) (key : Nat) : Reported s (s.uncorrectable st key) := by
  unfold State.uncorrectable
  extract_lets line src posted s1 r m s2 s3 s4 l
  have h2 : Reported s s2 := rfl
  have h3 : Reported s s3 := by
    simp only [s3]
    split
    · exact h2
    · exact h2.trans (post_reported s2 _)
  have h4 : Reported s s4 := h3.trans (logFault_reported s3 _ _ _)
  cases st
  case tier2 => exact h4.trans (condemn_reported s4 _ _)
  case core => exact h4.trans rfl
  all_goals exact h4

theorem reread_reported (hit : Option (Store × Nat)) : Reported s (s.reread hit) := by
  rcases hit with _ | x
  · exact .refl s
  · exact uncorrectable_reported s x.1 x.2

end Reports

/-! ### Slots and descriptors that are placed (R85, R139, R142) -/

theorem core_setCore_ne {s : State} {c k : Nat} (h : k ≠ c) (v : Core) : (s.setCore c v).core k = s.core k := by
  unfold State.setCore State.core
  split
  · rw [Tab.get?_erase_ne _ _ _ h]
  · rw [Tab.get?_set_ne _ _ _ _ h]

/-- The operations a core has taken and not retired, in order. -/
def opsOn (s : State) (c : Nat) : List OpSlot := (s.core c).slots ++ (s.core c).held

/-- The descriptors a core has taken and not retired, in order. -/
def descsOn (s : State) (c : Nat) : List Desc := (s.core c).ring ++ (s.core c).feed

section Placing

variable (s : State) (c k : Nat)

theorem place_descs (v : Core) (o : OpSlot) : (v.place o).ring ++ (v.place o).feed = v.ring ++ v.feed := by
  unfold Core.place
  split <;> rfl

theorem queueDesc_ops (v : Core) (d : Desc) : (v.queueDesc d).slots ++ (v.queueDesc d).held = v.slots ++ v.held := by
  unfold Core.queueDesc
  split <;> rfl

theorem placeSlot_opsOn (o : OpSlot) : opsOn (s.placeSlot c o) k = opsOn s k ++ (if c = k then [o] else []) := by
  unfold opsOn State.placeSlot
  split
  next h => rw [h, core_setCore, place_order]
  next h => rw [core_setCore_ne (Ne.symm h), List.append_nil]

theorem placeSlot_descsOn (o : OpSlot) : descsOn (s.placeSlot c o) k = descsOn s k := by
  unfold descsOn State.placeSlot
  by_cases h : k = c
  · rw [h, core_setCore, place_descs]
  · rw [core_setCore_ne h]

theorem placeDesc_descsOn (d : Desc) : descsOn (s.placeDesc c d) k = descsOn s k ++ (if c = k then [d] else []) := by
  unfold descsOn State.placeDesc
  split
  next h => rw [h, core_setCore, queueDesc_order]
  next h => rw [core_setCore_ne (Ne.symm h), List.append_nil]

theorem placeDesc_opsOn (d : Desc) : opsOn (s.placeDesc c d) k = opsOn s k := by
  unfold opsOn State.placeDesc
  by_cases h : k = c
  · rw [h, core_setCore, queueDesc_ops]
  · rw [core_setCore_ne h]

/-- Placing slots: each joins the operations of its core, with the tag of the placement. -/
theorem placeSlots_spec (l : List (Nat × OpSlot)) : ∀ s : State,
    let t := l.foldl (fun s x => s.placeSlot x.1 { x.2 with tag := s.fresh }) s
    CoresOnly s t ∧ descsOn t k = descsOn s k ∧ opsOn t k = opsOn s k ++ (l.filter (fun x => x.1 = k)).map (fun x => { x.2 with tag := s.fresh }) := by
  induction l with
  | nil => exact fun s => ⟨.refl s, rfl, (List.append_nil _).symm⟩
  | cons x r ih =>
    intro s
    obtain ⟨hcores, hdescs, hops⟩ := ih (s.placeSlot x.1 { x.2 with tag := s.fresh })
    refine ⟨.trans (setCore_cores s _ _) hcores, hdescs.trans (placeSlot_descsOn s _ _ _), ?_⟩
    rw [List.foldl_cons, hops, placeSlot_opsOn, List.append_assoc]
    by_cases h : x.1 = k <;> simp [h, State.placeSlot, State.setCore]

/-- Placing descriptors: each joins the descriptors of its core, with the tag of the placement. -/
theorem placeDescs_spec (l : List (Nat × Desc)) : ∀ s : State,
    let t := l.foldl (fun s x => s.placeDesc x.1 { x.2 with tag := s.fresh }) s
    CoresOnly s t ∧ opsOn t k = opsOn s k ∧ descsOn t k = descsOn s k ++ (l.filter (fun x => x.1 = k)).map (fun x => { x.2 with tag := s.fresh }) := by
  induction l with
  | nil => exact fun s => ⟨.refl s, rfl, (List.append_nil _).symm⟩
  | cons x r ih =>
    intro s
    obtain ⟨hcores, hops, hdescs⟩ := ih (s.placeDesc x.1 { x.2 with tag := s.fresh })
    refine ⟨.trans (setCore_cores s _ _) hcores, hops.trans (placeDesc_opsOn s _ _ _), ?_⟩
    rw [List.foldl_cons, hdescs, placeDesc_descsOn, List.append_assoc]
    by_cases h : x.1 = k <;> simp [h, State.placeDesc, State.setCore]

end Placing

/-- The sensors' slots and grids change and nothing else. -/
def IngestOnly (s t : State) : Prop := t = { s with ingest := t.ingest }

theorem hold_ingest (s : State) (o : Owner) (hs : List (Nat × Nat)) : IngestOnly s (s.hold o hs) :=
  foldl_keeps (IngestOnly s) _ _ _ rfl (fun _ _ h => by rw [IngestOnly] at h ⊢; rw [h])

/-! ### What placing an operation leaves -/

section Begin

variable (s : State) (o : Owner) (n : Nat) (w : Work)

/-- What an operation leaves when it has been placed: its slots and descriptors behind those there, its core-store writes that nothing carries, one
more job dispatched. -/
theorem begin_spec : (∀ k, opsOn (s.begin_ o n w) k = opsOn s k ++ (w.slots.filter (fun x => x.1 = k)).map (fun x => { x.2 with tag := s.fresh })) ∧
    (∀ k, descsOn (s.begin_ o n w) k = descsOn s k ++ (w.descs.filter (fun x => x.1 = k)).map (fun x => { x.2 with tag := s.fresh })) ∧
    (w.met = none → (s.begin_ o n w).stores = (s.apply w.core).stores) ∧
    (((s.begin_ o n w).stats.acc.parts.get? n).getD PartAcc.zero).dispatched = ((s.stats.acc.parts.get? n).getD PartAcc.zero).dispatched + 1 := by
  let s1 := (s.apply w.core).hold o w.holds
  let s2 := w.slots.foldl (fun s x => s.placeSlot x.1 { x.2 with tag := s.fresh }) s1
  let s3 := w.descs.foldl (fun s x => s.placeDesc x.1 { x.2 with tag := s.fresh }) s2
  let s4 := match w.chan with
    | some c => { s3 with apps := { s3.apps with channels := s3.apps.channels.set c.1 c.2 } }
    | none => s3
  have h1 : IngestOnly (s.apply w.core) s1 := hold_ingest _ o w.holds
  have h2 (k : Nat) : CoresOnly s1 s2 ∧ descsOn s2 k = descsOn s1 k ∧
      opsOn s2 k = opsOn s1 k ++ (w.slots.filter (fun x => x.1 = k)).map (fun x => { x.2 with tag := s1.fresh }) := placeSlots_spec k w.slots s1
  have h3 (k : Nat) : CoresOnly s2 s3 ∧ opsOn s3 k = opsOn s2 k ∧
      descsOn s3 k = descsOn s2 k ++ (w.descs.filter (fun x => x.1 = k)).map (fun x => { x.2 with tag := s2.fresh }) := placeDescs_spec k w.descs s2
  have hcores : CoresOnly s1 s3 := (h2 0).1.trans (h3 0).1
  have h4 : s4 = { s3 with apps := s4.apps } := by
    simp only [s4]
    split <;> rfl
  have h5 : Reported s4 (s4.reread w.met) := reread_reported s4 w.met
  have hbegin : s.begin_ o n w = (((s4.reread w.met).accPart n (fun a => a.move w.traffic)).bump).accPart n (fun a => { a with dispatched := a.dispatched + 1 }) := rfl
  have hfresh : s2.fresh = s.fresh ∧ s1.fresh = s.fresh := by
    rw [(h2 0).1, h1]
    exact ⟨rfl, rfl⟩
  have hkeep (k : Nat) : (s.begin_ o n w).core k = s3.core k := by
    rw [hbegin]
    show (s4.reread w.met).core k = _
    rw [h5]
    show s4.core k = _
    rw [h4]
    rfl
  have hstats : (s4.reread w.met).stats = s.stats := by
    rw [h5]
    show s4.stats = _
    rw [h4]
    show s3.stats = _
    rw [hcores, h1]
    rfl
  refine ⟨fun k => ?_, fun k => ?_, fun hmet => ?_, ?_⟩
  · unfold opsOn
    rw [hkeep]
    show opsOn s3 k = _
    rw [(h3 k).2.1, (h2 k).2.2, hfresh.2, h1]
    rfl
  · unfold descsOn
    rw [hkeep]
    show descsOn s3 k = _
    rw [(h3 k).2.2, (h2 k).2.1, hfresh.1, h1]
    rfl
  · rw [hbegin, hmet]
    show s4.stores = _
    rw [h4]
    show s3.stores = _
    rw [hcores, h1]
  · rw [hbegin]
    simp only [State.accPart, State.acc, State.bump, hstats, Tab.get?_set_self, Option.getD_some, PartAcc.move]

end Begin

/-! ### Who carries the writes of an operation (R142) -/

/-- Of the operations of an engine on one core there is a last. -/
theorem exists_last_slot {l : List (Nat × OpSlot)} {y : Nat × OpSlot} (hy : y ∈ l) (he : y.2.engine.isSome = true) :
    ∃ v a b, l = a ++ v :: b ∧ v.1 = y.1 ∧ v.2.engine.isSome = true ∧ ∀ u ∈ b, u.1 = y.1 → u.2.engine.isSome = false := by
  rcases hfind : l.reverse.find? (fun u => decide (u.1 = y.1) && u.2.engine.isSome) with _ | v
  · exact absurd (List.find?_eq_none.1 hfind y (List.mem_reverse.2 hy)) (by simp [he])
  · obtain ⟨hv, b, a, hl, hb⟩ := List.find?_eq_some_iff_append.1 hfind
    rw [Bool.and_eq_true, decide_eq_true_eq] at hv
    refine ⟨v, a.reverse, b.reverse, by simpa using congrArg List.reverse hl, hv.1, hv.2, fun u hu h => ?_⟩
    simpa [h] using hb u (List.mem_reverse.1 hu)

/-- The last operation of an engine on a core carries what the work writes there. -/
theorem dealt_carries {x : Work} {y : Nat × OpSlot} {z : Wr} (hy : y ∈ x.slots) (he : y.2.engine.isSome = true) (hz : z ∈ x.core) (hon : z.onCore y.1 = true) :
    ∃ v ∈ x.dealt.slots, v.1 = y.1 ∧ z ∈ v.2.writes := by
  obtain ⟨v, a, b, hslots, hon', hev, hlast⟩ := exists_last_slot hy he
  have hcarried : (v.1, { v.2 with writes := v.2.writes ++ x.core.filter (fun z => z.onCore v.1) }) ∈ x.dealt.slots := by
    refine List.mem_map.2 ⟨(a.length, v), List.mem_iff_getElem?.2 ⟨a.length, ?_⟩, ?_⟩
    · simp [hslots]
    · have hdrop : x.slots.drop (a.length + 1) = b := by simp [hslots]
      have hnone : b.any (fun u => decide (u.1 = v.1) && u.2.engine.isSome) = false := by
        simpa [hon'] using hlast
      have hsome : v.2.engine.isNone = false := by simpa [Option.isSome_iff_ne_none] using hev
      simp only [hdrop, hnone, hsome, Bool.or_false, Bool.false_eq_true, if_false]
  exact ⟨_, hcarried, hon', List.mem_append_right _ (List.mem_filter.2 ⟨hz, by rw [hon']; exact hon⟩)⟩

/-- Where engines carry all the writes, none stands at once. -/
theorem dealt_core_nil {x : Work} (h : ∀ z ∈ x.core, ∃ y ∈ x.slots, y.2.engine.isSome = true ∧ z.onCore y.1 = true) : x.dealt.core = [] := by
  rw [List.eq_nil_iff_forall_not_mem]
  intro z hz
  obtain ⟨hmem, hnone⟩ := Work.dealt_core x z hz
  obtain ⟨y, hy, he, hon⟩ := h z hmem
  exact absurd hon (by rw [hnone y hy he]; exact Bool.false_ne_true)

/-! ### The body of a compute packet -/

section Bodies

variable {comp : Compute} {id n : Nat} {c : Caller} {p : Packet} {s : State} {q : Partition} {x : Work}

/-- How the completion of a placed operation is answered. -/
def placedReply (w : Work) : Reply := match w.ends with
  | some d => .cut d w.status w.info w.result w.later w.host
  | none => .placed w.status w.info w.result w.later w.host

/-- An operation that may be placed is, and its answer waits for its cores. -/
theorem computeBody_run (hctx : Packet.ctxNo p ≠ 0xFFFF) (hpart : s.partOf (Packet.ctxNo p) = some (n, q)) (hq : q.state = 1)
    (hwait : s.coreWaits q x.dealt = false) (hwork : x.dealt.slots ≠ [] ∨ x.dealt.descs ≠ []) (hrun : comp (.flight id) (Packet.ctxNo p) n q p s.ahead = .run x) :
    computeBody comp id c p s = (s.begin_ (.flight id) n x.dealt, placedReply x.dealt) := by
  have hsome : (x.dealt.slots.isEmpty && x.dealt.descs.isEmpty) = false := by
    rcases hwork with h | h <;> simp [h]
  simp only [computeBody, hctx, if_false, hpart, hq, hrun, hwait, hsome, placedReply, Bool.false_eq_true]
  rcases x.dealt.ends <;> rfl

/-- In a context with a partition a solver packet runs as any other compute packet. -/
theorem qpBody_run (fields : Packet → Bool) (hpart : s.partOf (Packet.ctxNo p) = some (n, q)) : qpBody fields comp id c p s = computeBody comp id c p s := by
  simp [qpBody, hpart]

/-- The commands of the compute packets run the body of their opcode. -/
theorem exec_compute {y : (Packet → Instr) × Nat × Compute} (hy : y ∈ computeCommands) {f : Flight} (h : s.takes p y.2.1 f c = true)
    (hpart : s.partOf (Packet.ctxNo p) = some (n, q)) :
    exec (y.1 p) s = .next ((computeBody y.2.2 f.id c p s).1.settleReply f.id (s.verOf p y.2.1) (computeBody y.2.2 f.id c p s).2) := by
  have hplain (code : Nat) (comp : Compute) (h : s.takes p code f c = true) := runPacket_takes code (computeBody comp) p s f c h
  have hqp (code : Nat) (fields : Packet → Bool) (comp : Compute) (h : s.takes p code f c = true) : runPacket code (qpBody fields comp) p s =
      (computeBody comp f.id c p s).1.settleReply f.id (s.verOf p code) (computeBody comp f.id c p s).2 := by
    rw [runPacket_takes code _ p s f c h, qpBody_run fields hpart]
  simp only [computeCommands, List.mem_cons, List.not_mem_nil, or_false] at hy
  rcases hy with rfl | rfl | rfl | rfl | rfl | rfl | rfl | rfl | rfl | rfl | rfl
  case inr.inr.inr.inr.inr.inr.inr.inr.inr.inl => exact congrArg _ (hqp 0x802 qpSetupFields compQpSetup h)
  case inr.inr.inr.inr.inr.inr.inr.inr.inr.inr => exact congrArg _ (hqp 0x803 qpSolveFields compQpSolve h)
  all_goals exact congrArg _ (hplain _ _ h)

end Bodies

/-- The exceptions, cores and cycles of a compute packet's RESULT (R149). -/
theorem computeResult_fields (exc cores cycles : Nat) : bits (computeResult exc cores cycles) 15 0 = exc % 2 ^ 16 ∧
    bits (computeResult exc cores cycles) 23 16 = cores % 256 ∧ bits (computeResult exc cores cycles) 31 24 = 0 ∧
    bits (computeResult exc cores cycles) 63 32 = min cycles 0xFFFFFFFF := by
  simp only [computeResult, bits]
  omega

/-- Settles O29. -/
theorem computeIsPlaced : Obligations.ComputeIsPlaced := by
  unfold Obligations.ComputeIsPlaced
  refine ⟨?_, computeResult_fields⟩
  intro p s f c n q x hctx hpart hq w t placed hwait hwork
  have hbody (comp : Compute) (hrun : comp (.flight f.id) (Packet.ctxNo p) n q p s.ahead = .run x) :
      computeBody comp f.id c p s = (t, placed) := computeBody_run hctx hpart hq hwait hwork hrun
  obtain ⟨hops, hdescs, hstores, hcount⟩ := begin_spec s (.flight f.id) n w
  refine ⟨fun y hy htake hrun => ?_, fun htake hrun hends => ?_, fun y hy => ?_, fun y hy => ?_, fun y hy he z hz hon => dealt_carries hy he hz hon,
    fun hall hmet => ?_, hcount⟩
  · rw [exec_compute hy htake hpart, hbody _ hrun]
  · have hplaced : placed = .placed w.status w.info w.result w.later w.host := by simp only [placed, hends]
    show Host.Outcome.next (runPacket 0x704 gridProjectBody p s) = _
    rw [runPacket_takes _ _ _ _ _ _ htake, gridProjectBody, hbody _ hrun, hplaced]
  · show _ ∈ opsOn t y.1
    rw [hops]
    exact List.mem_append_right _ (List.mem_map.2 ⟨y, List.mem_filter.2 ⟨hy, by simp⟩, rfl⟩)
  · show _ ∈ descsOn t y.1
    rw [hdescs]
    exact List.mem_append_right _ (List.mem_map.2 ⟨y, List.mem_filter.2 ⟨hy, by simp⟩, rfl⟩)
  · rw [hstores hmet, dealt_core_nil hall]
    rfl

end Sys2Proof.Proofs.Cores

/-! PROOFS. Regions and allocations: numbers that are free, frames given back, REGION_ALLOC and REGION_FREE (06_memory_tiers). -/

namespace Sys2Proof.Machine

/-! ### Free numbers (log 4) -/

/-- A walk that ends on a number in use has met only such numbers. -/
theorem walkFree_used {n : Nat} {used : List Nat} (k x : Nat) (hx : x < n) (h : walkFree k x n used ∈ used) : ∀ j, j < k → (x + j) % n ∈ used := by
  induction k generalizing x with
  | zero => exact fun j hj => absurd hj (Nat.not_lt_zero j)
  | succ k ih =>
    rw [walkFree] at h
    by_cases hmem : used.contains x = true
    · rw [if_pos hmem] at h
      have hnext := ih _ (by split <;> omega) h
      intro j hj
      cases j with
      | zero => simpa [Nat.mod_eq_of_lt hx] using hmem
      | succ j =>
        have hstep := hnext j (by omega)
        by_cases hlast : x + 1 < n
        · rw [if_pos hlast] at hstep
          rwa [show x + (j + 1) = x + 1 + j by omega]
        · rw [if_neg hlast] at hstep
          rwa [show x + (j + 1) = n + (0 + j) by omega, Nat.add_mod_left]
    · rw [if_neg hmem] at h
      exact absurd (List.contains_iff_mem.2 h) hmem

theorem walkFree_lt {n : Nat} {used : List Nat} (k x : Nat) (hx : x < n) : walkFree k x n used < n := by
  induction k generalizing x with
  | zero => exact hx
  | succ k ih =>
    rw [walkFree]
    split
    · exact ih _ (by split <;> omega)
    · exact hx

/-- Where some number below `n` is free, one is found. -/
theorem pickFree_of_free {n : Nat} {used : List Nat} (seed : Nat) (h : ∃ x, x < n ∧ x ∉ used) : ∃ x, pickFree seed n used = some x ∧ x < n ∧ x ∉ used := by
  obtain ⟨y, hy, hfree⟩ := h
  have hn : 0 < n := by omega
  have hstart : Config.pick seed % n < n := Nat.mod_lt _ hn
  generalize hx : Config.pick seed % n = x at hstart
  have hlt := walkFree_lt (used := used) (used.length + 1) x hstart
  have hnot : walkFree (used.length + 1) x n used ∉ used := by
    intro hmem
    have hall := walkFree_used (used.length + 1) x hstart hmem
    rcases Nat.lt_or_ge used.length n with hlen | hlen
    · have hinj : ((List.range (used.length + 1)).map (fun j => (x + j) % n)).Nodup := by
        refine List.nodup_range.map_on (fun a ha b hb hab => ?_)
        rw [List.mem_range] at ha hb
        have hmod : a ≡ b [MOD n] := Nat.ModEq.add_left_cancel' x hab
        exact Nat.ModEq.eq_of_lt_of_lt hmod (by omega) (by omega)
      have hsub : (List.range (used.length + 1)).map (fun j => (x + j) % n) ⊆ used := by
        intro z hz
        obtain ⟨j, hj, rfl⟩ := List.mem_map.1 hz
        exact hall j (List.mem_range.1 hj)
      have := (hinj.subperm hsub).length_le
      simp at this
    · refine hfree ?_
      rcases Nat.lt_or_ge y x with hyx | hyx
      · have := hall (n - x + y) (by omega)
        rwa [show x + (n - x + y) = n + y by omega, Nat.add_mod_left, Nat.mod_eq_of_lt hy] at this
      · have := hall (y - x) (by omega)
        rwa [show x + (y - x) = y by omega, Nat.mod_eq_of_lt hy] at this
  refine ⟨_, ?_, hlt, hnot⟩
  simp [pickFree, hx, hnot, Nat.pos_iff_ne_zero.1 hn]

section Tables

variable {α : Type} {t : Tab α} {i : Nat} {v : α}

theorem Tab.not_mem_keys : i ∉ t.keys ↔ t.get? i = none := by
  induction t with
  | nil => simp [Tab.keys, Tab.get?]
  | cons a r ih =>
    obtain ⟨k, w⟩ := a
    by_cases h : i = k
    · simp [Tab.keys, Tab.get?, h]
    · simp only [Tab.keys, List.map_cons, List.mem_cons, not_or, h, not_false_eq_true, true_and, Tab.get?, if_false] at ih ⊢
      exact ih

/-- A table cut by its keys keeps the entries of the keys that stay. -/
theorem Tab.get?_filter_key (p : Nat → Bool) : ∀ t : Tab α, Tab.get? (t.filter (fun kv => p kv.1)) i = if p i then t.get? i else none
  | [] => by simp [Tab.get?]
  | (k, w) :: r => by
    have ih := Tab.get?_filter_key p r
    by_cases hk : i = k
    · subst hk
      by_cases hp : p i = true
      · simp [hp, Tab.get?]
      · simpa [hp] using ih
    · by_cases hp : p k = true
      · simpa [hp, Tab.get?, hk] using ih
      · simpa [hp, Tab.get?, hk] using ih

/-- In a table whose keys rise, one entry alone meets a condition that no other key's entry meets. -/
theorem Tab.filter_eq_singleton {p : Nat × α → Bool} (hwf : Tab.wf t = true) (hget : t.get? i = some v) (hp : p (i, v) = true)
    (hothers : ∀ kv ∈ t, kv.1 ≠ i → p kv = false) : t.filter p = [(i, v)] := by
  induction t with
  | nil => cases hget
  | cons a r ih =>
    obtain ⟨habove, hr⟩ := (Tab.wf_cons a r).1 hwf
    by_cases hk : i = a.1
    · have hv : a = (i, v) := by
        have : a.2 = v := by simpa [Tab.get?, hk] using hget
        exact Prod.ext hk.symm this
      have hrest : r.filter p = [] := List.filter_eq_nil_iff.2 (fun kv hkv => by
        have hlt := habove kv hkv
        rw [hothers kv (List.mem_cons_of_mem a hkv) (by rw [hk]; exact Nat.ne_of_gt hlt)]
        exact Bool.false_ne_true)
      rw [hv, List.filter_cons_of_pos hp, hrest]
    · have hget' : Tab.get? r i = some v := by simpa [Tab.get?, hk] using hget
      rw [List.filter_cons_of_neg (by simp [hothers a List.mem_cons_self (Ne.symm hk)])]
      exact ih hr hget' (fun kv hkv => hothers kv (List.mem_cons_of_mem a hkv))

end Tables

theorem Mem.read_zero_in (m : Mem) {a n x : Nat} (h : a ≤ x ∧ x < a + n) : (m.zero a n).read x = 0 := by
  have := Tab.get?_filter_key (i := x) (fun k => !(decide (a ≤ k) && decide (k < a + n))) m
  simp only [h.1, h.2, decide_true, Bool.and_self, Bool.not_true, Bool.false_eq_true, if_false] at this
  rw [Mem.read, Mem.zero, this]
  rfl

theorem Mem.read_zero_out (m : Mem) {a n x : Nat} (h : x < a ∨ a + n ≤ x) : (m.zero a n).read x = m.read x := by
  have := Tab.get?_filter_key (i := x) (fun k => !(decide (a ≤ k) && decide (k < a + n))) m
  have hp : (!(decide (a ≤ x) && decide (x < a + n))) = true := by
    rcases h with h | h <;> simp <;> omega
  rw [if_pos hp] at this
  rw [Mem.read, Mem.zero, this, Mem.read]

/-! ### Flights that are named once -/

section Flights

variable {s : State} {f : Flight} {p : Sys2Proof.Packet} {code : Nat}

theorem State.fetched_mem (h : s.fetched p code = some f) : f ∈ s.proto.flights := List.mem_of_find?_eq_some h

/-- The flight that is taken is found by its number, where no other has it. -/
theorem State.flight?_of_fetched (h : s.fetched p code = some f) (hone : ∀ g ∈ s.proto.flights, g.id = f.id → g = f) : s.flight? f.id = some f := by
  rcases hfind : s.flight? f.id with _ | g
  · simpa using List.find?_eq_none.1 hfind f (State.fetched_mem h)
  · rw [hone g (List.mem_of_find?_eq_some hfind) (by simpa using List.find?_some hfind)]

theorem State.flight?_setFlight (s : State) (id : Nat) (g : Flight → Flight) (hg : ∀ f, (g f).id = f.id) : (s.setFlight id g).flight? id = (s.flight? id).map g := by
  unfold State.flight? State.setFlight
  simp only [List.find?_map, Function.comp_def]
  have hpred : (fun f : Flight => decide ((if f.id = id then g f else f).id = id)) = fun f => decide (f.id = id) := by
    funext f
    split <;> simp [hg]
  rw [hpred]
  refine Option.map_congr (fun f hf => ?_)
  have : f.id = id := by simpa using List.find?_some hf
  rw [if_pos this]

end Flights

end Sys2Proof.Machine

namespace Sys2Proof.Proofs.Regions

open Sys2Proof Sys2Proof.Machine

/-! ### REGION_ALLOC (R158, R162, R171) -/

section Allocate

variable {s : State} {p : Packet} {f : Flight} {c : Caller} {n : Nat}

/-- A region gets a free handle, and its bytes read as zero. -/
theorem addRegion_of_free (r : Region) (h : ∃ h, h < 4096 ∧ s.tiers.regions.get? h = none) : ∃ h, h < 4096 ∧ s.tiers.regions.get? h = none ∧
    s.addRegion r = some (State.zeroFill { s.bump with tiers := { s.tiers with regions := s.tiers.regions.set h r } } .region (regionKey h 0) 16777216, h) := by
  obtain ⟨k, hk, hfree⟩ := h
  obtain ⟨h, hpick, hlt, hnot⟩ := pickFree_of_free (used := s.tiers.regions.keys) s.fresh ⟨k, hk, Tab.not_mem_keys.2 hfree⟩
  refine ⟨h, hlt, Tab.not_mem_keys.1 hnot, ?_⟩
  rw [State.addRegion, hpick]
  rfl

/-- A region's cluster holds a core of the context's partition. -/
theorem partOf_of_regionAllocChecks (hc : regionAllocChecks c p s = none) (hkind : Packet.fld p 16 1 = 1) : ∃ x, s.partOf (Packet.ctxNo p) = some x := by
  rcases h : s.partOf (Packet.ctxNo p) with _ | x
  · simp only [regionAllocChecks, h, hkind] at hc
    exact nomatch (firstFail_none _).1 hc (true, St.badParam) (by simp)
  · exact ⟨x, rfl⟩

theorem kind_of_regionAllocChecks (hc : regionAllocChecks c p s = none) : 1 ≤ Packet.fld p 16 1 ∧ Packet.fld p 16 1 ≤ 3 := by
  have hkind := (firstFail_none _).1 hc (_, St.badParam) (List.mem_cons_of_mem _ List.mem_cons_self)
  simp only [Bool.or_eq_false_iff, decide_eq_false_iff_not] at hkind
  omega

/-- A region of a cluster with room for it. -/
theorem regionAllocEffect_region {h : Nat} {t : State} (hsize : 0 < Packet.fld p 24 8) (hkind : Packet.fld p 16 1 = 1) {x : Nat × Partition}
    (hpart : s.partOf (Packet.ctxNo p) = some x)
    (hall : s.granules (Packet.fld p 17 1) none + ceilDiv (Packet.fld p 24 8) 65536 ≤ 176)
    (hmine : s.granules (Packet.fld p 17 1) (some (Packet.ctxNo p)) + ceilDiv (Packet.fld p 24 8) 65536 ≤ x.2.regionCeil)
    (hadd : s.addRegion ⟨Packet.ctxNo p, false, Packet.fld p 17 1, ceilDiv (Packet.fld p 24 8) 65536 * 65536, bit (Packet.fld p 19 1) 0, 0, c.fn, none⟩ = some (t, h)) :
    regionAllocEffect f.id c p s = done0 t h := by
  have hroom : ¬(176 < s.granules (Packet.fld p 17 1) none + ceilDiv (Packet.fld p 24 8) 65536 ∨
      x.2.regionCeil < s.granules (Packet.fld p 17 1) (some (Packet.ctxNo p)) + ceilDiv (Packet.fld p 24 8) 65536) := by omega
  simp only [regionAllocEffect, Nat.ne_of_gt hsize, hkind, hpart, hroom, hadd, if_false, if_true]

/-- A window of host memory, while the context has fewer than 16. -/
theorem regionAllocEffect_window {h : Nat} {t : State} (hsize : 0 < Packet.fld p 24 8) (hkind : Packet.fld p 16 1 = 3)
    (hfew : (s.tiers.regions.filter (fun kv => kv.2.window && decide (kv.2.ctx = Packet.ctxNo p))).length < 16)
    (hadd : s.addRegion ⟨Packet.ctxNo p, true, 0, Packet.fld p 24 8, false, Packet.fld p 32 8, s.ctxFn (Packet.ctxNo p) c.fn, none⟩ = some (t, h)) :
    regionAllocEffect f.id c p s = done0 t h := by
  have hroom := Nat.not_le.2 hfew
  simp only [regionAllocEffect, Nat.ne_of_gt hsize, hkind, hroom, hadd, if_false, if_true, OfNat.ofNat_ne_one]

/-- Pages that there is room for are provided as the state stands. -/
theorem provide_of_room {id prio : Nat} {own : Option Nat} {need : Halves} (hahead : s.pagesAhead id = false) (hroom : s.t2Room need Halves.zero = true) :
    s.provide id prio own need = .ready s := by
  by_cases hneed : need = Halves.zero <;> simp [State.provide, hneed, hahead, hroom]

/-- An allocation is made at one of the places its context has for it. -/
theorem allocPages_of_place {size home : Nat} (h : s.placesFor n size ≠ []) : ∃ (base : Nat) (t : State), s.allocPages n size home false = some (t, base) ∧
    base ∈ s.placesFor n size ∧ t.tiers.allocs = s.tiers.allocs ++ [⟨n, base, size, home, none⟩] ∧ t.stores = s.stores ∧ t.tiers.regions = s.tiers.regions ∧
    (∀ m, m ≠ n → t.tiers.pages.get? m = s.tiers.pages.get? m) ∧ t.proto = s.proto := by
  have hpos : 0 < (s.placesFor n size).length := List.length_pos_iff.2 h
  rcases hget : (s.placesFor n size)[Config.pick s.fresh % max 1 (s.placesFor n size).length]? with _ | base
  · have := Nat.mod_lt (Config.pick s.fresh) (show 0 < max 1 (s.placesFor n size).length by omega)
    rw [List.getElem?_eq_none_iff] at hget
    omega
  · refine ⟨base, State.mapPages { s.bump with tiers := { s.tiers with allocs := s.tiers.allocs ++ [⟨n, base, size, home, none⟩] } } n base size home false, ?_,
      List.mem_of_getElem? hget, rfl, rfl, rfl, fun m hm => Tab.get?_set_ne _ _ _ _ hm, rfl⟩
    simp only [State.allocPages, hget]
    rfl

theorem regionAllocEffect_pages {base : Nat} {t : State} (hsize : 0 < Packet.fld p 24 8) (hkind : Packet.fld p 16 1 = 2)
    (hceil : s.underCeiling (Packet.ctxNo p) (ceilDiv (Packet.fld p 24 8) 65536) = true) (hahead : s.pagesAhead f.id = false)
    (hroom : s.t2Room (halvesOf (Packet.fld p 18 1) (ceilDiv (Packet.fld p 24 8) 65536)) Halves.zero = true)
    (halloc : s.allocPages (Packet.ctxNo p) (ceilDiv (Packet.fld p 24 8) 65536) (Packet.fld p 18 1) false = some (t, base)) :
    regionAllocEffect f.id c p s = done0 t (base * 65536) := by
  have hprovide := provide_of_room (prio := 16) (own := none) hahead hroom
  simp [regionAllocEffect, Nat.ne_of_gt hsize, hkind, hceil, hprovide, halloc]

end Allocate

/-! ### Frames that are given back (R264, R446, R447) -/

/-- Tier 2's bytes, its codebooks and reliability's records may change, and nothing else. -/
def FramesFreed (s t : State) : Prop :=
  t = { s with stores := { s.stores with tier2 := t.stores.tier2, poison := t.stores.poison }, tiers := { s.tiers with codebooks := t.tiers.codebooks }, rel := t.rel }

section Freeing

variable (s : State)

theorem FramesFreed.refl : FramesFreed s s := rfl

theorem FramesFreed.trans {s t u : State} (h : FramesFreed s t) (g : FramesFreed t u) : FramesFreed s u := by
  rw [FramesFreed] at g ⊢
  rw [h] at g
  exact g

theorem logFault_freed (code source detail : Nat) : FramesFreed s (s.logFault code source detail) := by
  unfold State.logFault
  extract_lets recent
  split <;> rfl

theorem retireFrame_freed (stack f : Nat) : FramesFreed s (s.retireFrame stack f) := by
  unfold State.retireFrame
  extract_lets l
  split
  · exact .refl s
  · exact .trans (t := State.writeSummary { s with rel := { s.rel with retired := s.rel.retired.set stack (l ++ [f]) } }) rfl (logFault_freed _ _ _ _)

theorem freeFrames_freed (fs : List Nat) : FramesFreed s (s.freeFrames fs) := by
  refine foldl_keeps (FramesFreed s) _ _ _ (.refl s) (fun t f h => ?_)
  have hzero : FramesFreed t { t.zeroFill .tier2 (f * 65536) 65536 with tiers := { t.tiers with codebooks := t.tiers.codebooks.mapVals (fun _ l => l.filter (fun x => decide (x.1 / 65536 ≠ f))) } } := rfl
  refine foldl_keeps (FramesFreed s) _ _ _ (h.trans hzero) (fun t x h => h.trans ?_)
  exact .trans (t := { t with rel := { t.rel with retireOnFree := t.rel.retireOnFree.filter (fun y => y ≠ x) } }) rfl (retireFrame_freed _ _ _)

/-- Unmapping an allocation's pages takes them from its context, and changes no other context's. -/
theorem unmapBase_spec (c base : Nat) : (s.unmapBase c base).tiers.allocs = s.tiers.allocs ∧ (s.unmapBase c base).proto = s.proto ∧ (s.unmapBase c base).sched = s.sched ∧
    (s.unmapBase c base).stores.region = s.stores.region ∧ (s.unmapBase c base).stores.core = s.stores.core ∧ (s.unmapBase c base).stores.host = s.stores.host ∧
    (∀ v g, (s.unmapBase c base).page? c v = some g → g.base ≠ base) ∧ (∀ m, m ≠ c → (s.unmapBase c base).tiers.pages.get? m = s.tiers.pages.get? m) := by
  rcases hpages : s.tiers.pages.get? c with _ | l
  · have heq : s.unmapBase c base = s := by simp only [State.unmapBase, hpages]
    rw [heq]
    exact ⟨rfl, rfl, rfl, rfl, rfl, rfl, fun v g hg => by simp [State.page?, hpages] at hg, fun _ _ => rfl⟩
  · let rest := l.filter (fun x => decide (x.2.base ≠ base))
    let u : State := { s with tiers := { s.tiers with pages := if rest.isEmpty then s.tiers.pages.erase c else s.tiers.pages.set c rest } }
    have heq : s.unmapBase c base = u.freeFrames ((l.filter (fun x => decide (x.2.base = base))).map (fun x => x.2.frame)) := by
      simp only [State.unmapBase, hpages, u, rest]
    have hfreed := freeFrames_freed u ((l.filter (fun x => decide (x.2.base = base))).map (fun x => x.2.frame))
    rw [← heq] at hfreed
    have hmine : (s.unmapBase c base).tiers.pages.get? c = if rest.isEmpty then none else some rest := by
      rw [hfreed]
      show Tab.get? (if rest.isEmpty then _ else _) c = _
      split
      · exact Tab.get?_erase_self _ _
      · exact Tab.get?_set_self _ _ _
    have hothers (m : Nat) (hm : m ≠ c) : (s.unmapBase c base).tiers.pages.get? m = s.tiers.pages.get? m := by
      rw [hfreed]
      show Tab.get? (if rest.isEmpty then _ else _) m = _
      split
      · exact Tab.get?_erase_ne _ _ _ hm
      · exact Tab.get?_set_ne _ _ _ _ hm
    refine ⟨by rw [hfreed], by rw [hfreed], by rw [hfreed], by rw [hfreed], by rw [hfreed], by rw [hfreed], fun v g hg => ?_, hothers⟩
    rw [State.page?, hmine] at hg
    by_cases hempty : rest.isEmpty = true
    · simp [hempty] at hg
    · rw [if_neg hempty] at hg
      simpa using (List.mem_filter.1 (Tab.mem_of_get? hg)).2

/-- Taking an allocation away, where no model of it waits. -/
theorem dropAlloc_spec (c base : Nat) (hmodels : ∀ kv ∈ s.sched.models, kv.2.flight = none) :
    (s.dropAlloc c base).tiers.allocs = s.tiers.allocs.filter (fun a => ¬(a.ctx = c ∧ a.base = base)) ∧ (s.dropAlloc c base).proto = s.proto ∧
    (∀ kv ∈ (s.dropAlloc c base).sched.models, kv.2.flight = none) ∧ (s.dropAlloc c base).stores.region = s.stores.region ∧
    (s.dropAlloc c base).stores.core = s.stores.core ∧ (s.dropAlloc c base).stores.host = s.stores.host ∧
    (∀ v g, (s.dropAlloc c base).page? c v = some g → g.base ≠ base) ∧ (∀ m, m ≠ c → (s.dropAlloc c base).tiers.pages.get? m = s.tiers.pages.get? m) := by
  obtain ⟨hallocs, hproto, hsched, hregion, hcore, hhost, hpage, hothers⟩ := unmapBase_spec s c base
  have hnone : ∀ (l : List (Nat × Model)), (∀ kv ∈ l, kv.2.flight = none) → ∀ t : State, l.foldl (fun s kv => s.finishOpt kv.2.flight St.aborted 0 0) t = t := by
    intro l
    induction l with
    | nil => exact fun _ _ => rfl
    | cons kv r ih =>
      intro hl t
      rw [List.foldl_cons, hl kv List.mem_cons_self]
      exact ih (fun kv hkv => hl kv (List.mem_cons_of_mem _ hkv)) t
  have heq : s.dropAlloc c base = { s.unmapBase c base with
      tiers := { (s.unmapBase c base).tiers with allocs := (s.unmapBase c base).tiers.allocs.filter (fun a => ¬(a.ctx = c ∧ a.base = base)) }
      sched := { (s.unmapBase c base).sched with models := (s.unmapBase c base).sched.models.filter (fun kv => ¬(kv.2.ctx = c ∧ kv.2.base = base)) } } := by
    rw [State.dropAlloc]
    simp only
    rw [hnone _ (fun kv hkv => hmodels kv (by rw [hsched] at hkv; exact (List.mem_filter.1 hkv).1))]
  rw [heq]
  refine ⟨by simp only [hallocs], hproto, fun kv hkv => ?_, hregion, hcore, hhost, hpage, hothers⟩
  exact hmodels kv (by rw [← hsched]; exact (List.mem_filter.1 hkv).1)

end Freeing

/-! ### REGION_FREE (R264, R446) -/

section Free

variable {s : State} {p : Packet} {f : Flight} {c : Caller}

/-- The packet has been accepted: its flight runs. -/
def accepted (s : State) (id : Nat) : State := s.setFlight id (fun f => { f with running := true })

/-- A packet that is accepted joins those in work, and no other does. -/
theorem mem_inWork_accepted (hone : ∀ g ∈ s.proto.flights, g.id = f.id → g = f) {x : Nat × Packet} (hx : x ∈ (accepted s f.id).inWork) :
    x ∈ s.inWork ∨ x = (f.opcode, f.pkt) := by
  rcases List.mem_append.1 hx with hx | hx
  · obtain ⟨g, hg, rfl⟩ := List.mem_map.1 hx
    obtain ⟨hg, hwork⟩ := List.mem_filter.1 hg
    obtain ⟨g', hg', rfl⟩ := List.mem_map.1 hg
    by_cases hid : g'.id = f.id
    · rw [hone g' hg' hid, if_pos rfl]
      exact .inr rfl
    · rw [if_neg hid] at hwork ⊢
      exact .inl (List.mem_append_left _ (List.mem_map_of_mem (List.mem_filter.2 ⟨hg', hwork⟩)))
  · exact .inl (List.mem_append_right _ hx)

/-- Whom no other packet in work concerns, none concerns when a REGION_FREE has been accepted. -/
theorem inWork_accepted_any (hone : ∀ g ∈ s.proto.flights, g.id = f.id → g = f) {q : Nat × Packet → Bool} (hq : s.inWork.any q = false)
    (hself : q (f.opcode, f.pkt) = false) : (accepted s f.id).inWork.any q = false := by
  rw [List.any_eq_false] at hq ⊢
  intro x hx
  rcases mem_inWork_accepted hone hx with hx | rfl
  · exact hq x hx
  · simp [hself]

theorem flight?_accepted (h : s.flight? f.id = some f) : (accepted s f.id).flight? f.id = some { f with running := true } := by
  rw [accepted, State.flight?_setFlight s f.id (fun f => { f with running := true }) (fun _ => rfl), h]
  rfl

/-- Recording that a flight goes on leaves the completions. -/
theorem settleReply_later (s : State) (id ver : Nat) : s.settleReply id ver .later = s.setFlight id (fun f => { f with running := true, parked := false }) := rfl

/-- The region named by a REGION_FREE that passes its checks. -/
theorem region_of_regionFreeChecks (hc : regionFreeChecks c p s = none) (hkind : Packet.fld p 16 1 ≠ 2) : ∃ r, s.tiers.regions.get? (Packet.fld p 24 8) = some r := by
  rcases h : (if Packet.fld p 24 8 < 65536 then s.tiers.regions.get? (Packet.fld p 24 8) else none) with _ | r
  · have hnot : (decide (Packet.fld p 16 1 ≠ 2) && true) = false := by
      simp only [regionFreeChecks, h] at hc
      exact (firstFail_none _).1 hc (decide (Packet.fld p 16 1 ≠ 2) && true, St.notFound) (List.mem_of_getElem? (i := 2) rfl)
    simp [hkind] at hnot
  · exact ⟨r, (Option.ite_none_right_eq_some.1 h).2⟩

/-- No allocation waits to be freed. -/
theorem settleFrees_allocs {u t : State} (hregions : (u.tiers.regions.filter (fun kv => kv.2.freeing.isSome && !u.inWork.any (fun x => decide (x.1 ≠ 0x302) && namesHandle x.1 x.2 kv.1))).foldl
    (fun s kv => (s.dropRegion kv.1).finishOpt kv.2.freeing St.ok 0 0) u = t) (hallocs : ∀ a ∈ t.tiers.allocs, a.freeing = none) : u.settleFrees = t := by
  have hnone : t.tiers.allocs.filter (fun a => a.freeing.isSome && !a.inWork t) = [] :=
    List.filter_eq_nil_iff.2 (fun a ha => by simp [hallocs a ha])
  rw [State.settleFrees, hregions, hnone]
  rfl

/-- REGION_FREE of a region or window that nothing at work names. -/
theorem regionFreeEffect_region {r : Region} (hflight : s.flight? f.id = some f) (hone : ∀ g ∈ s.proto.flights, g.id = f.id → g = f) (hcode : f.opcode = 0x302)
    (hfree : ∀ kv ∈ s.tiers.regions, kv.2.freeing = none) (hallocs : ∀ a ∈ s.tiers.allocs, a.freeing = none) (hwf : Tab.wf s.tiers.regions = true)
    (hr : s.tiers.regions.get? (Packet.fld p 24 8) = some r) (hkind : Packet.fld p 16 1 ≠ 2)
    (hwork : s.inWork.any (fun x => decide (x.1 ≠ 0x302) && namesHandle x.1 x.2 (Packet.fld p 24 8)) = false) :
    regionFreeEffect f.id c p s = ((State.dropRegion { accepted s f.id with tiers := { s.tiers with regions := s.tiers.regions.set (Packet.fld p 24 8) { r with freeing := some f.id } } }
      (Packet.fld p 24 8)).finish f.id St.ok 0 0, .later) := by
  let u : State := { accepted s f.id with tiers := { s.tiers with regions := s.tiers.regions.set (Packet.fld p 24 8) { r with freeing := some f.id } } }
  have hidle : u.inWork.any (fun x => decide (x.1 ≠ 0x302) && namesHandle x.1 x.2 (Packet.fld p 24 8)) = false :=
    inWork_accepted_any hone hwork (by simp [hcode])
  have hone : u.tiers.regions.filter (fun kv => kv.2.freeing.isSome && !u.inWork.any (fun x => decide (x.1 ≠ 0x302) && namesHandle x.1 x.2 kv.1)) =
      [(Packet.fld p 24 8, { r with freeing := some f.id })] := by
    refine Tab.filter_eq_singleton (Tab.wf_set _ _ _ hwf) (Tab.get?_set_self _ _ _) (by rw [hidle]; rfl) (fun kv hkv hne => ?_)
    rcases Tab.mem_set hkv with rfl | hkv
    · exact absurd rfl hne
    · simp [hfree kv hkv]
  have hsettle : u.settleFrees = (u.dropRegion (Packet.fld p 24 8)).finish f.id St.ok 0 0 := by
    refine settleFrees_allocs (by rw [hone]; rfl) (fun a ha => hallocs a ?_)
    have hflight' : (u.dropRegion (Packet.fld p 24 8)).flight? f.id = some { f with running := true } := flight?_accepted hflight
    obtain ⟨b, hb⟩ := State.finishFull_eq hflight' St.ok 0 0 none [] []
    rw [State.finish, hb] at ha
    exact ha
  rw [← hsettle]
  simp only [regionFreeEffect, hkind, if_false, State.setFlight_tiers]
  rw [Tab.update_of_get? _ hr]
  rfl

/-- The allocation at page `b` of context `n` is gone with its pages, and its REGION_FREE has completed as `fin`. -/
def AllocGone (s : State) (n b id : Nat) (fin : Finished) (t : State) : Prop :=
  t.tiers.allocs = s.tiers.allocs.filter (fun x => ¬(x.ctx = n ∧ x.base = b)) ∧ (∀ v g, t.page? n v = some g → g.base ≠ b) ∧
  (∀ m, m ≠ n → t.tiers.pages.get? m = s.tiers.pages.get? m) ∧ t.stores.region = s.stores.region ∧ t.stores.core = s.stores.core ∧
  t.stores.host = s.stores.host ∧ t.proto.finished = s.proto.finished ++ [fin] ∧ (∀ kv ∈ t.sched.models, kv.2.flight = none) ∧ t.flight? id = none

/-- Freeing the allocation once more changes nothing. -/
theorem allocGone_again {n b id : Nat} {fin : Finished} {t : State} (h : AllocGone s n b id fin t) :
    AllocGone s n b id fin ((t.dropAlloc n b).finishOpt (some id) St.ok 0 0) := by
  obtain ⟨hallocs, -, hothers, hregion, hcore, hhost, hfinished, hmodels, hgone⟩ := h
  obtain ⟨dallocs, dproto, dmodels, dregion, dcore, dhost, dpage, dothers⟩ := dropAlloc_spec t n b hmodels
  have hnone : (t.dropAlloc n b).flight? id = none := by
    rw [State.flight?, dproto]
    exact hgone
  have heq : (t.dropAlloc n b).finishOpt (some id) St.ok 0 0 = t.dropAlloc n b := by
    simp only [State.finishOpt, State.finish, State.finishFull, hnone]
  rw [heq]
  refine ⟨by rw [dallocs, hallocs, List.filter_filter]; simp, dpage, fun m hm => (dothers m hm).trans (hothers m hm), dregion.trans hregion, dcore.trans hcore,
    dhost.trans hhost, by rw [dproto, hfinished], dmodels, hnone⟩

/-- Freeing an allocation that a running REGION_FREE names. -/
theorem allocGone_first {n b id : Nat} {g : Flight} (hflight : s.flight? id = some g) (hmodels : ∀ kv ∈ s.sched.models, kv.2.flight = none) :
    ∃ fin : Finished, fin.flight = id ∧ fin.status = St.ok ∧ fin.result = 0 ∧ AllocGone s n b id fin ((s.dropAlloc n b).finishOpt (some id) St.ok 0 0) := by
  obtain ⟨dallocs, dproto, dmodels, dregion, dcore, dhost, dpage, dothers⟩ := dropAlloc_spec s n b hmodels
  have hflight' : (s.dropAlloc n b).flight? id = some g := by
    rw [State.flight?, dproto]
    exact hflight
  obtain ⟨a, ha⟩ := State.finishFull_eq hflight' St.ok 0 0 none [] []
  rw [State.finishOpt, State.finish, ha]
  refine ⟨(s.dropAlloc n b).outcome g id St.ok 0 0 g.pkt.ver.toNat [] [], rfl, rfl, rfl, dallocs, dpage, dothers, dregion, dcore, dhost, ?_, dmodels, ?_⟩
  · show (s.dropAlloc n b).proto.finished ++ _ = _
    rw [dproto]
    rfl
  · refine List.find?_eq_none.2 (fun x hx => ?_)
    simpa using (List.mem_filter.1 hx).2

/-- Freeing one allocation, as often as it is listed. -/
theorem allocGone_all {u : State} {n b id : Nat} {g : Flight} (hflight : u.flight? id = some g) (hmodels : ∀ kv ∈ u.sched.models, kv.2.flight = none) {l : List Alloc}
    (hne : l ≠ []) (hall : ∀ x ∈ l, x.ctx = n ∧ x.base = b ∧ x.freeing = some id) : ∃ fin : Finished, fin.flight = id ∧ fin.status = St.ok ∧ fin.result = 0 ∧
      AllocGone u n b id fin (l.foldl (fun s a => (s.dropAlloc a.ctx a.base).finishOpt a.freeing St.ok 0 0) u) := by
  cases l with
  | nil => exact absurd rfl hne
  | cons x r =>
    obtain ⟨hctx, hbase, hx⟩ := hall x List.mem_cons_self
    obtain ⟨fin, hid, hst, hres, hgone⟩ := allocGone_first (n := n) (b := b) hflight hmodels
    refine ⟨fin, hid, hst, hres, ?_⟩
    rw [List.foldl_cons, hctx, hbase, hx]
    refine List.foldlRecOn r _ hgone (fun t ht y hy => ?_)
    obtain ⟨hctx, hbase, hx⟩ := hall y (List.mem_cons_of_mem _ hy)
    rw [hctx, hbase, hx]
    exact allocGone_again ht

/-- A waiting REGION_FREE of an allocation that nothing at work touches. -/
theorem settleFrees_alloc {u : State} {n b id : Nat} {g : Flight} {a : Alloc} (hflight : u.flight? id = some g) (hmodels : ∀ kv ∈ u.sched.models, kv.2.flight = none)
    (hregions : ∀ kv ∈ u.tiers.regions, kv.2.freeing = none) (honly : ∀ x ∈ u.tiers.allocs, x.freeing.isSome = true → x.ctx = n ∧ x.base = b ∧ x.freeing = some id)
    (ha : a ∈ u.tiers.allocs) (hfreeing : a.freeing = some id) (hidle : a.inWork u = false) :
    ∃ fin : Finished, fin.flight = id ∧ fin.status = St.ok ∧ fin.result = 0 ∧ AllocGone u n b id fin u.settleFrees := by
  have hnone : u.tiers.regions.filter (fun kv => kv.2.freeing.isSome && !u.inWork.any (fun x => decide (x.1 ≠ 0x302) && namesHandle x.1 x.2 kv.1)) = [] :=
    List.filter_eq_nil_iff.2 (fun kv hkv => by simp [hregions kv hkv])
  have hmem : a ∈ u.tiers.allocs.filter (fun a => a.freeing.isSome && !a.inWork u) := by
    rw [List.mem_filter, hfreeing, hidle]
    exact ⟨ha, rfl⟩
  rw [State.settleFrees, hnone]
  refine allocGone_all hflight hmodels (List.ne_nil_of_mem hmem) (fun x hx => ?_)
  obtain ⟨hx, hwaits⟩ := List.mem_filter.1 hx
  rw [Bool.and_eq_true] at hwaits
  exact honly x hx hwaits.1

/-- REGION_FREE of an allocation that nothing at work touches. -/
theorem regionFreeEffect_alloc {a : Alloc} (hflight : s.flight? f.id = some f) (hone : ∀ g ∈ s.proto.flights, g.id = f.id → g = f) (hcode : f.opcode = 0x302)
    (hfree : ∀ kv ∈ s.tiers.regions, kv.2.freeing = none) (hallocs : ∀ a ∈ s.tiers.allocs, a.freeing = none) (hmodels : ∀ kv ∈ s.sched.models, kv.2.flight = none)
    (hkind : Packet.fld p 16 1 = 2) (ha : s.allocAt (Packet.ctxNo p) (Packet.fld p 24 8) = some a) (hwork : a.inWork s = false) :
    (regionFreeEffect f.id c p s).2 = .later ∧ ∃ fin : Finished, fin.flight = f.id ∧ fin.status = St.ok ∧ fin.result = 0 ∧
      AllocGone s (Packet.ctxNo p) (Packet.fld p 24 8 / 65536) f.id fin (regionFreeEffect f.id c p s).1 := by
  generalize hn : Packet.ctxNo p = n at ha ⊢
  generalize hh : Packet.fld p 24 8 = h at ha ⊢
  have halign : h % 65536 = 0 := by
    by_contra hne
    simp [State.allocAt, hne] at ha
  rw [State.allocAt, if_pos halign] at ha
  have hctx : a.ctx = n ∧ a.base = h / 65536 := by simpa using List.find?_some ha
  let mark : Alloc → Alloc := fun x => if x.ctx = n ∧ x.base * 65536 = h then { x with freeing := some f.id } else x
  let u : State := { accepted s f.id with tiers := { s.tiers with allocs := s.tiers.allocs.map mark } }
  have hmark (x : Alloc) : (mark x).ctx = x.ctx ∧ (mark x).base = x.base := by
    simp only [mark]
    split <;> exact ⟨rfl, rfl⟩
  have heffect : regionFreeEffect f.id c p s = (u.settleFrees, .later) := by
    simp only [regionFreeEffect, hkind, if_true, hn, hh]
    rfl
  have hmarked : mark a = { a with freeing := some f.id } := by
    simp only [mark]
    rw [if_pos ⟨hctx.1, by rw [hctx.2]; omega⟩]
  have hidle : (mark a).inWork u = false := by
    rw [hmarked]
    exact inWork_accepted_any hone hwork (by simp [hcode, namesRange, operandsOf, descOffsets, addrOffsets, handleOffsets])
  obtain ⟨fin, hid, hst, hres, gallocs, gpage, gothers, gregion, gcore, ghost, gfinished, gmodels, ggone⟩ :=
    settleFrees_alloc (u := u) (n := n) (b := h / 65536) (id := f.id) (a := mark a) (flight?_accepted hflight) hmodels hfree (fun x hx hwaits => by
      obtain ⟨y, hy, rfl⟩ := List.mem_map.1 hx
      simp only [mark] at hwaits ⊢
      split at hwaits
      next hnamed =>
        rw [if_pos hnamed]
        exact ⟨hnamed.1, (Nat.div_eq_of_eq_mul_left (by omega) hnamed.2.symm).symm, rfl⟩
      next => simp [hallocs y hy] at hwaits) (List.mem_map_of_mem (List.mem_of_find?_eq_some ha)) (by rw [hmarked]) hidle
  rw [heffect]
  refine ⟨rfl, fin, hid, hst, hres, ?_, gpage, gothers, gregion, gcore, ghost, gfinished, gmodels, ggone⟩
  rw [gallocs]
  show (s.tiers.allocs.map mark).filter _ = _
  rw [List.filter_map]
  have hpred : ((fun x : Alloc => decide ¬(x.ctx = n ∧ x.base = h / 65536)) ∘ mark) = fun x => decide ¬(x.ctx = n ∧ x.base = h / 65536) := by
    funext x
    simp only [Function.comp, hmark]
  rw [hpred]
  refine (List.map_congr_left (fun x hx => ?_)).trans (List.map_id _)
  have hnot : ¬(x.ctx = n ∧ x.base = h / 65536) := of_decide_eq_true (List.mem_filter.1 hx).2
  exact if_neg (fun hx => hnot ⟨hx.1, (Nat.div_eq_of_eq_mul_left (by omega) hx.2.symm).symm⟩)

end Free

theorem regionAlloc_settled (p : Packet) (s : State) (f : Flight) (c : Caller) (htake : s.takes p 0x301 f c = true) (hc : regionAllocChecks c p s = none) {t : State} {result : Nat}
    (h : regionAllocEffect f.id c p s = done0 t result) : exec (.regionAlloc p) s = .next (t.okWith f (s.verOf p 0x301) result) :=
  congrArg Host.Outcome.next (runPacket_okWith htake hc h)

/-- Settles O34. -/
theorem regionsAndAllocations : Obligations.RegionsAndAllocations := by
  unfold Obligations.RegionsAndAllocations
  refine ⟨?_, ?_⟩
  · intro p s f c htake hc hsize n g
    refine ⟨fun hkind hfree hcluster hwindows => ?_, fun hkind hceil hahead hroom hplaces => ?_⟩
    · rcases hkind with hkind | hkind
      · obtain ⟨x, hpart⟩ := partOf_of_regionAllocChecks hc hkind
        obtain ⟨hall, hmine⟩ := hcluster hkind
        obtain ⟨h, hlt, hnone, hadd⟩ := addRegion_of_free ⟨n, false, Packet.fld p 17 1, g * 65536, bit (Packet.fld p 19 1) 0, 0, c.fn, none⟩ hfree
        refine ⟨h, _, hlt, hnone, (if_pos hkind).symm, ?_⟩
        exact regionAlloc_settled p s f c htake hc (regionAllocEffect_region hsize hkind hpart hall (hmine x hpart) hadd)
      · obtain ⟨h, hlt, hnone, hadd⟩ := addRegion_of_free ⟨n, true, 0, Packet.fld p 24 8, false, Packet.fld p 32 8, s.ctxFn n c.fn, none⟩ hfree
        refine ⟨h, _, hlt, hnone, (if_neg (by omega)).symm, ?_⟩
        exact regionAlloc_settled p s f c htake hc (regionAllocEffect_window hsize hkind (hwindows hkind) hadd)
    · obtain ⟨base, t, halloc, hbase, hallocs, hstores, hregions, hothers, hproto⟩ := allocPages_of_place (home := Packet.fld p 18 1) hplaces
      exact ⟨base, t, hbase, hallocs, hstores, hregions, hothers, hproto,
        regionAlloc_settled p s f c htake hc (regionAllocEffect_pages hsize hkind hceil hahead hroom halloc)⟩
  · intro p s f c htake hc hone hfree hallocs hwf hmodels h
    obtain ⟨-, hfetched, -, -, -⟩ := State.takes_iff.1 htake
    have hcode : f.opcode = 0x302 := (State.fetched_spec hfetched).1
    have hflight := State.flight?_of_fetched hfetched hone
    have hexec (t : State) (heffect : regionFreeEffect f.id c p s = (t, .later)) :
        exec (.regionFree p) s = .next (t.setFlight f.id (fun f => { f with running := true, parked := false })) := by
      rw [← settleReply_later t f.id (s.verOf p 0x302)]
      have hrun := runPacket_effect 0x302 regionFreeChecks regionFreeEffect p s f c htake hc
      rw [heffect] at hrun
      exact congrArg Host.Outcome.next hrun
    refine ⟨fun hkind hwork => ?_, fun a hkind ha hwork => ?_⟩
    · obtain ⟨r, hr⟩ := region_of_regionFreeChecks hc hkind
      let u : State := { accepted s f.id with tiers := { s.tiers with regions := s.tiers.regions.set h { r with freeing := some f.id } } }
      obtain ⟨b, hb⟩ := State.finishFull_eq (s := u.dropRegion h) (flight?_accepted hflight) St.ok 0 0 none [] []
      have hstep := hexec _ (regionFreeEffect_region hflight hone hcode hfree hallocs hwf hr hkind hwork)
      rw [State.finish, hb] at hstep
      refine ⟨_, _, hstep, Tab.get?_erase_self _ _, fun k hk => ?_, fun i hi => ?_, fun a ha => ?_, rfl, rfl, rfl, rfl, rfl, rfl, rfl⟩
      · exact (Tab.get?_erase_ne _ _ _ hk).trans (Tab.get?_set_ne _ _ _ _ hk)
      · exact Mem.read_zero_in _ (by simp only [regionKey]; omega)
      · exact Mem.read_zero_out _ (by simp only [regionKey] at ha ⊢; omega)
    · obtain ⟨hlater, fin, hid, hst, hres, gallocs, gpage, gothers, gregion, gcore, ghost, gfinished, -, -⟩ :=
        regionFreeEffect_alloc (c := c) hflight hone hcode hfree hallocs hmodels hkind ha hwork
      exact ⟨_, fin, hexec _ (Prod.ext rfl hlater), gallocs, gpage, gothers, gregion, gcore, ghost, gfinished, hid, hst, hres⟩

end Sys2Proof.Proofs.Regions

/-! PROOFS. Tiles and schedules: TILE_MOVE, the Bellows and slot 49 (06_memory_tiers). -/

namespace Sys2Proof.Machine

/-! ### Tiles written one after another -/

/-- Bytes `j` of tiles `i`, written at a pitch that keeps them apart, read back; every other byte stays. -/
theorem Mem.read_tiles {n pitch : Nat} (a : Nat) (bs : Nat → List Byte) (hlen : ∀ i, (bs i).length = n) (m : Mem) : ∀ count : Nat, n ≤ pitch ∨ count ≤ 1 →
    let after := (List.range count).foldl (fun (m : Mem) i => m.writeBytes (a + i * pitch) (bs i)) m
    (∀ i j, i < count → j < n → after.read (a + i * pitch + j) = (bs i).getD j 0) ∧
    (∀ x, (∀ i j, i < count → j < n → x ≠ a + i * pitch + j) → after.read x = m.read x) := by
  intro count
  induction count with
  | zero => exact fun _ => ⟨fun i j hi => absurd hi (Nat.not_lt_zero i), fun _ _ => rfl⟩
  | succ count ih =>
    intro hapart
    obtain ⟨hin, hout⟩ := ih (by omega)
    simp only [List.range_succ, List.foldl_append, List.foldl_cons, List.foldl_nil]
    refine ⟨fun i j hi hj => ?_, fun x hx => ?_⟩
    · by_cases hlast : i = count
      · subst hlast
        exact Mem.read_writeBytes_in _ _ _ _ (by rw [hlen]; exact hj)
      · have hi' : i < count := by omega
        have hpitch : (i + 1) * pitch ≤ count * pitch := Nat.mul_le_mul_right pitch hi'
        rw [Mem.read_writeBytes_out _ _ _ _ (.inl (by rw [Nat.add_mul] at hpitch; omega))]
        exact hin i j hi' hj
    · have hnot : x < a + count * pitch ∨ a + count * pitch + n ≤ x := by
        by_contra hmeets
        exact hx count (x - (a + count * pitch)) (by omega) (by omega) (by omega)
      rw [Mem.read_writeBytes_out _ _ _ _ (by rw [hlen]; exact hnot)]
      exact hout x (fun i j hi hj => hx i j (by omega) hj)

theorem Mem.getD_readBytes {m : Mem} {a n j : Nat} (hj : j < n) : (m.readBytes a n).getD j 0 = m.read (a + j) := by
  simp [Mem.readBytes, hj]

theorem Mem.length_readBytes (m : Mem) (a n : Nat) : (m.readBytes a n).length = n := by simp [Mem.readBytes]

/-- Writes to core stores, one after another. -/
theorem Stores.foldl_core (addr : Nat → Nat) (bs : Nat → List Byte) (l : List Nat) (m : Stores) :
    let t := (l.map (fun i => Wr.mk .core (addr i) (bs i))).foldl (fun m w => (m.write w).heal w) m
    t.core = l.foldl (fun (m : Mem) i => m.writeBytes (addr i) (bs i)) m.core ∧ t.region = m.region ∧ t.tier2 = m.tier2 ∧ t.xd = m.xd ∧ t.host = m.host ∧ t.ufs = m.ufs := by
  induction l generalizing m with
  | nil => exact ⟨rfl, rfl, rfl, rfl, rfl, rfl⟩
  | cons i r ih => exact ih _

/-- Writes to regions, one after another. -/
theorem Stores.foldl_region (addr : Nat → Nat) (bs : Nat → List Byte) (l : List Nat) (m : Stores) :
    let t := (l.map (fun i => Wr.mk .region (addr i) (bs i))).foldl (fun m w => (m.write w).heal w) m
    t.region = l.foldl (fun (m : Mem) i => m.writeBytes (addr i) (bs i)) m.region ∧ t.core = m.core ∧ t.tier2 = m.tier2 ∧ t.xd = m.xd ∧ t.host = m.host ∧ t.ufs = m.ufs := by
  induction l generalizing m with
  | nil => exact ⟨rfl, rfl, rfl, rfl, rfl, rfl⟩
  | cons i r ih => exact ih _

theorem State.FlightsOnly.trans {s t u : State} (h : s.FlightsOnly t) (g : t.FlightsOnly u) : s.FlightsOnly u := by
  rw [State.FlightsOnly] at g ⊢
  rw [h] at g
  exact g

/-- A completion that waits to be written still waits when another flight has ended. -/
theorem State.mem_finished_finishFull {s : State} {fin : Finished} (h : fin ∈ s.proto.finished) (id st info res : Nat) (v : Option Nat) (hw : List (Nat × List Byte))
    (ms : List (List Byte)) : fin ∈ (s.finishFull id st info res v hw ms).proto.finished := by
  rcases hg : s.flight? id with _ | y
  · rwa [s.finishFull_gone _ _ _ _ _ _ _ hg]
  · obtain ⟨a, ha⟩ := State.finishFull_eq hg st info res v hw ms
    rw [ha]
    exact List.mem_append_left _ h

end Sys2Proof.Machine

namespace Sys2Proof.Proofs.Tiles

open Sys2Proof Sys2Proof.Machine

/-! ### The sides of a TILE_MOVE (R172) -/

section Sides

variable {s : State} {c core addr : Nat} {t : Machine.Tiles} {dst : Bool} {x d : Side}

theorem moveSide_loc_core (h : s.moveSide c core 0 addr t dst = .ok x) : x.loc = 0 := by
  unfold State.moveSide at h
  extract_lets _ n at h
  split at h
  · exact nomatch h
  · rw [if_pos rfl] at h
    split at h
    · rw [Except.ok.injEq] at h
      rw [← h]
    · exact nomatch h

theorem moveSide_loc_region (h : s.moveSide c core 1 addr t dst = .ok x) : x.loc = 1 := by
  unfold State.moveSide at h
  extract_lets k n at h
  split at h
  · exact nomatch h
  · rw [if_neg Nat.one_ne_zero, if_pos rfl] at h
    rcases hread : s.regionRead c k (bits addr 23 0) n with e | r
    · simp only [hread] at h
      exact nomatch h
    · simp only [hread] at h
      split at h
      · exact nomatch h
      · split at h
        · rw [Except.ok.injEq] at h
          rw [← h]
        · exact nomatch h

/-- A side in a core store or a region is where the packet says. -/
theorem moveSide_loc {loc : Nat} (hloc : loc = 0 ∨ loc = 1) (h : s.moveSide c core loc addr t dst = .ok x) : x.loc = loc := by
  rcases hloc with rfl | rfl
  · exact moveSide_loc_core h
  · exact moveSide_loc_region h

/-- Where a side in a core store or a region begins, in its store. -/
def Side.key (x : Side) (core : Nat) : Nat := if x.loc = 0 then coreKey core x.base else regionKey x.handle x.base

/-- The store of a side in a core store or a region. -/
def Side.mem (x : Side) (m : Stores) : Mem := if x.loc = 0 then m.core else m.region

theorem sideRead_eq (hloc : x.loc = 0 ∨ x.loc = 1) (off n : Nat) : s.sideRead c core x off n = (Side.mem x s.stores).readBytes (Side.key x core + off) n := by
  rcases hloc with h | h <;> simp [State.sideRead, Side.mem, Side.key, h, coreKey, regionKey, Nat.add_assoc]

/-- Tiles put into a core store or a region are writes to that store alone. -/
theorem putTiles_eq (hloc : d.loc = 0 ∨ d.loc = 1) (pitch count : Nat) (f : Nat → List Byte) : s.putTiles c core d pitch ((List.range count).map f) =
    ((List.range count).map (fun i => Wr.mk (if d.loc = 0 then .core else .region) (Side.key d core + i * pitch) (f i)), []) := by
  have hzip : (List.range ((List.range count).map f).length).zip ((List.range count).map f) = (List.range count).map (fun i => (i, f i)) := by
    rw [List.length_map, List.length_range, List.map_prod_left_eq_zip]
  have hwrite (off : Nat) (bs : List Byte) : s.sideWrite c core d off bs = ([Wr.mk (if d.loc = 0 then .core else .region) (Side.key d core + off) bs], []) := by
    rcases hloc with h | h <;> simp [State.sideWrite, Side.key, h, coreKey, regionKey, Nat.add_assoc]
  rw [State.putTiles, hzip]
  simp only [hwrite, List.map_map, Function.comp_def]
  refine Prod.ext ?_ ?_
  · exact (List.flatMap_def.symm.trans (List.flatMap_pure_eq_map _ _))
  · simp

end Sides

/-! ### The plain move (R172) -/

section Move

variable {s : State} {c core n count sp dp : Nat} {x d : Side}

theorem sideKey_none (hloc : x.loc = 0 ∨ x.loc = 1) (off : Nat) : s.sideKey c x off = none := by
  rcases hloc with h | h <;> simp [State.sideKey, h]

theorem sidePoison_none (hloc : x.loc = 0 ∨ x.loc = 1) (hclean : s.stores.poison = []) (off n : Nat) : s.sidePoison c core x off n = none := by
  rcases hloc with h | h <;> simp [State.sidePoison, h, hclean]

/-- The writes of a move into a core store or a region: each tile as the source holds it. -/
def tileWrites (s : State) (core n count sp dp : Nat) (x d : Side) : List Wr :=
  (List.range count).map (fun i => Wr.mk (if d.loc = 0 then .core else .region) (Side.key d core + i * dp) ((Side.mem x s.stores).readBytes (Side.key x core + i * sp) n))

/-- A move between core stores and regions that meets no poisoned line copies every tile. -/
theorem movePlain_eq (hx : x.loc = 0 ∨ x.loc = 1) (hd : d.loc = 0 ∨ d.loc = 1) (hclean : s.stores.poison = []) : s.movePlain c core x d n count sp dp =
    (((s.apply (tileWrites s core n count sp dp x d)).moved c (moveTraffic x d (count * n) (count * n))).bump, .full St.ok 0 count none [] []) := by
  have hlink : s.linkFate ((s.sideKey c x 0).isSome || (s.sideKey c d 0).isSome) count = ⟨false, none⟩ := by
    simp [State.linkFate, sideKey_none hx, sideKey_none hd]
  have hbad : (List.range count).findSome? (fun i => (s.sidePoison c core x (i * sp) n).map (fun k => (i, k))) = none :=
    List.findSome?_eq_none_iff.2 (fun i _ => by rw [sidePoison_none hx hclean]; rfl)
  have hread : (List.range count).map (fun i => s.sideRead c core x (i * sp) n) =
      (List.range count).map (fun i => (Side.mem x s.stores).readBytes (Side.key x core + i * sp) n) :=
    List.map_congr_left (fun i _ => sideRead_eq hx _ _)
  simp only [State.movePlain, hlink, hbad, hread, putTiles_eq hd]
  rfl

theorem moved_stores (s : State) (c : Nat) (t : Traffic) : (s.moved c t).stores = s.stores := by
  unfold State.moved
  split <;> rfl

theorem endBellows_stores (s : State) (key status : Nat) : (s.endBellows key status).stores = s.stores := by
  unfold State.endBellows
  split
  · rfl
  · rw [State.finish, State.finishFull_flights]

theorem settleBellows_stores (s : State) : s.settleBellows.stores = s.stores :=
  foldl_keeps (fun u => u.stores = s.stores) _ _ _ rfl (fun u kv h => (endBellows_stores u kv.1 St.ok).trans h)

theorem windowRead_stores (s : State) (h lo hi : Nat) : (s.windowRead h lo hi).stores = s.stores := settleBellows_stores _

theorem windowTiles_stores (s : State) (x : Side) (t : Machine.Tiles) : (s.windowTiles x t).stores = s.stores := by
  unfold State.windowTiles
  split
  · rfl
  · exact foldl_keeps (fun u => u.stores = s.stores) _ _ _ rfl (fun u i h => (windowRead_stores u _ _ _).trans h)

/-- What was asked for stands in the destination's store, and nothing else changed. -/
theorem tileWrites_spec (hd : d.loc = 0 ∨ d.loc = 1) (hapart : n ≤ dp ∨ count = 1) :
    let t := (s.apply (tileWrites s core n count sp dp x d)).stores
    (∀ i j, i < count → j < n → (Side.mem d t).read (Side.key d core + i * dp + j) = (Side.mem x s.stores).read (Side.key x core + (i * sp + j))) ∧
    (∀ a, (∀ i j, i < count → j < n → a ≠ Side.key d core + i * dp + j) → (Side.mem d t).read a = (Side.mem d s.stores).read a) ∧
    (d.loc = 0 → t.region = s.stores.region) ∧ (d.loc ≠ 0 → t.core = s.stores.core) ∧ t.tier2 = s.stores.tier2 ∧ t.xd = s.stores.xd ∧ t.host = s.stores.host ∧ t.ufs = s.stores.ufs := by
  let bs : Nat → List Byte := fun i => (Side.mem x s.stores).readBytes (Side.key x core + i * sp) n
  have hlen (i : Nat) : (bs i).length = n := Mem.length_readBytes _ _ _
  have hbyte (i j : Nat) (hj : j < n) : (bs i).getD j 0 = (Side.mem x s.stores).read (Side.key x core + (i * sp + j)) := by
    rw [Mem.getD_readBytes hj, Nat.add_assoc]
  intro t
  have hmem : Side.mem d t = (List.range count).foldl (fun (m : Mem) i => m.writeBytes (Side.key d core + i * dp) (bs i)) (Side.mem d s.stores) ∧
      (d.loc = 0 → t.region = s.stores.region) ∧ (d.loc ≠ 0 → t.core = s.stores.core) ∧ t.tier2 = s.stores.tier2 ∧ t.xd = s.stores.xd ∧ t.host = s.stores.host ∧ t.ufs = s.stores.ufs := by
    rcases hd with h | h
    · obtain ⟨hcore, hregion, hothers⟩ := Stores.foldl_core (fun i => Side.key d core + i * dp) bs (List.range count) s.stores
      have ht : t = ((List.range count).map (fun i => Wr.mk .core (Side.key d core + i * dp) (bs i))).foldl (fun m w => (m.write w).heal w) s.stores := by
        simp only [t, State.apply, tileWrites, h, if_true, bs]
      rw [← ht] at hcore hregion hothers
      simp only [Side.mem, h, if_true, hcore]
      exact ⟨trivial, fun _ => hregion, fun hne => absurd rfl hne, hothers⟩
    · obtain ⟨hregion, hcore, hothers⟩ := Stores.foldl_region (fun i => Side.key d core + i * dp) bs (List.range count) s.stores
      have ht : t = ((List.range count).map (fun i => Wr.mk .region (Side.key d core + i * dp) (bs i))).foldl (fun m w => (m.write w).heal w) s.stores := by
        simp only [t, State.apply, tileWrites, h, Nat.one_ne_zero, if_false, bs]
      rw [← ht] at hcore hregion hothers
      simp only [Side.mem, h, Nat.one_ne_zero, if_false, hregion]
      exact ⟨trivial, fun h => h.elim, fun _ => hcore, hothers⟩
  obtain ⟨hmem, hothers⟩ := hmem
  obtain ⟨hin, hout⟩ := Mem.read_tiles (Side.key d core) bs hlen (Side.mem d s.stores) count (hapart.imp_right (fun h => h.le))
  rw [hmem]
  exact ⟨fun i j hi hj => (hin i j hi hj).trans (hbyte i j hj), hout, hothers⟩

end Move

/-! ### The effect of a plain TILE_MOVE -/

section Effect

variable {p : Packet} {s : State} {id : Nat} {k : Caller} {x d : Side}

/-- The core a TILE_MOVE names, of its context's partition. -/
def namedCore (s : State) (p : Packet) : Nat := (moveCore s (Packet.ctxNo p) p).getD 0

/-- The tiles a TILE_MOVE reads. -/
def srcTiles (p : Packet) : Machine.Tiles := ⟨Packet.fld p 40 4, Packet.fld p 44 4, Packet.fld p 36 4⟩

/-- The tiles it writes. -/
def dstTiles (p : Packet) : Machine.Tiles := ⟨Packet.fld p 40 4, Packet.fld p 48 4, Packet.fld p 36 4⟩

theorem decode_off {dec : Bool} (h : dec = false) (a b : Bool) : ¬(dec && a && b) = true := by simp [h]

/-- Sides that meet, and a weight copy to anything but a core store or a weight region, are BAD_PARAM. -/
theorem tileMoveEffect_refused (hplain : Packet.fld p 35 1 = 0) (hdl : Packet.fld p 33 1 = 0 ∨ Packet.fld p 33 1 = 1)
    (hx : s.moveSide (Packet.ctxNo p) (namedCore s p) (Packet.fld p 32 1) (Packet.fld p 16 8) (srcTiles p) false = .ok x)
    (hd : s.moveSide (Packet.ctxNo p) (namedCore s p) (Packet.fld p 33 1) (Packet.fld p 24 8) (dstTiles p) true = .ok d)
    (h : s.sidesMeet x d (srcTiles p).span (dstTiles p).span = true ∨ (x.readOnly = true ∧ d.loc ≠ 0 ∧ d.weight = false)) :
    tileMoveEffect id k p s = refuse s St.badParam := by
  have hdec : bit (Packet.fld p 35 1) 0 = false := by rw [hplain]; rfl
  have hdloc := moveSide_loc hdl hd
  unfold tileMoveEffect
  extract_lets c sl dl dec n count sp dp st dt pending leaving cls core
  have hdec : dec = false := hdec
  have hst : st = srcTiles p := by simp only [st, hdec]; rfl
  have hdt : dt = dstTiles p := by simp only [dt, hdec]; rfl
  rw [hst, hdt, show s.moveSide c ((moveCore s c p).getD 0) sl (Packet.fld p 16 8) (srcTiles p) false = .ok x from hx,
    show s.moveSide c ((moveCore s c p).getD 0) dl (Packet.fld p 24 8) (dstTiles p) true = .ok d from hd]
  dsimp only
  rcases h with h | ⟨hro, hne, hw⟩
  · rw [if_pos h]
  · have hne : dl ≠ 0 := by rw [← show d.loc = dl from hdloc]; exact hne
    have hcopy : (x.readOnly && !(decide (dl = 0) || d.weight)) = true := by simp [hro, hw, hne]
    by_cases hmeet : s.sidesMeet x d (srcTiles p).span (dstTiles p).span = true
    · rw [if_pos hmeet]
    · rw [if_neg hmeet, if_neg (decode_off hdec _ _), if_pos hcopy]

/-- What lets a plain move between core stores and regions go at once: no other work on its core holds it back, and nothing that it reads or writes there is
awaited. -/
structure MovesNow (s : State) (p : Packet) (x d : Side) : Prop where
  apart : s.sidesMeet x d (srcTiles p).span (dstTiles p).span = false
  weights : x.readOnly = true → d.loc = 0 ∨ d.weight = true
  some : (srcTiles p).span ≠ 0
  core : Packet.fld p 32 1 = 0 ∨ Packet.fld p 33 1 = 0 → moveCore s (Packet.ctxNo p) p ≠ none ∧
    ∃ y, s.partOf (Packet.ctxNo p) = .some y ∧ y.2.state = 1 ∧ s.coreHeld y.2.cls (namedCore s p) = false
  level : s.power.applied < 3 ∨ ∃ y, s.partOf (Packet.ctxNo p) = .some y ∧ y.2.cls = 0
  window : Packet.fld p 32 1 = 1 → (srcTiles p).any x.base (s.windowLacks x.handle) = false
  reads : s.tilesAfter (namedCore s p) x (srcTiles p) false = false
  writes : s.tilesAfter (namedCore s p) d (dstTiles p) true = false

theorem tileMoveEffect_moves (hplain : Packet.fld p 35 1 = 0) (hsl : Packet.fld p 32 1 = 0 ∨ Packet.fld p 32 1 = 1) (hdl : Packet.fld p 33 1 = 0 ∨ Packet.fld p 33 1 = 1)
    (hx : s.moveSide (Packet.ctxNo p) (namedCore s p) (Packet.fld p 32 1) (Packet.fld p 16 8) (srcTiles p) false = .ok x)
    (hd : s.moveSide (Packet.ctxNo p) (namedCore s p) (Packet.fld p 33 1) (Packet.fld p 24 8) (dstTiles p) true = .ok d) (h : MovesNow s p x d) :
    tileMoveEffect id k p s = (((s.movePlain (Packet.ctxNo p) (namedCore s p) x d (Packet.fld p 36 4) (Packet.fld p 40 4) (Packet.fld p 44 4) (Packet.fld p 48 4)).1.windowTiles x (srcTiles p)),
      (s.movePlain (Packet.ctxNo p) (namedCore s p) x d (Packet.fld p 36 4) (Packet.fld p 40 4) (Packet.fld p 44 4) (Packet.fld p 48 4)).2) := by
  have hdec : bit (Packet.fld p 35 1) 0 = false := by rw [hplain]; rfl
  have hxloc := moveSide_loc hsl hx
  have hdloc := moveSide_loc hdl hd
  unfold tileMoveEffect
  extract_lets c sl dl dec n count sp dp st dt pending leaving cls core
  have hdec : dec = false := hdec
  have hst : st = srcTiles p := by simp only [st, hdec]; rfl
  have hdt : dt = dstTiles p := by simp only [dt, hdec]; rfl
  rw [hst, hdt, show s.moveSide c ((moveCore s c p).getD 0) sl (Packet.fld p 16 8) (srcTiles p) false = .ok x from hx,
    show s.moveSide c ((moveCore s c p).getD 0) dl (Packet.fld p 24 8) (dstTiles p) true = .ok d from hd]
  dsimp only
  have hready : (s.sideReady x && s.sideReady d) = true := by
    have (y : Side) (hy : y.loc = 0 ∨ y.loc = 1) : s.sideReady y = true := by
      rcases hy with hy | hy <;> simp [State.sideReady, hy]
    rw [this x (by rw [hxloc]; exact hsl), this d (by rw [hdloc]; exact hdl)]
    rfl
  have hweight : (x.readOnly && !(decide (dl = 0) || d.weight)) = false := by
    rw [show dl = d.loc from hdloc.symm]
    rcases hro : x.readOnly
    · rfl
    · rcases h.weights hro with hw | hw <;> simp [hw]
  have hlevel : (decide (3 ≤ s.power.applied) && (dec || decide (cls ≠ 0))) = false := by
    rcases h.level with hl | ⟨y, hy, hcls⟩
    · simp [Nat.not_le.2 hl]
    · have : cls = 0 := by simp only [cls, c, hy, hcls]
      simp [hdec, this]
  have hcore : decide (sl = 0 ∨ dl = 0) = true → leaving = false ∧ pending = false ∧ (moveCore s c p).isNone = false ∧ s.coreHeld cls core = false := by
    intro hon
    obtain ⟨hsome, y, hy, hstate, hheld⟩ := h.core (of_decide_eq_true hon)
    refine ⟨?_, ?_, ?_, ?_⟩
    · simp only [leaving, c, hy, hstate]
      rfl
    · simp only [pending, c, hy, hstate]
      rfl
    · exact Bool.eq_false_iff.2 (fun hnone => hsome (Option.isNone_iff_eq_none.1 hnone))
    · simp only [cls, c, hy]
      exact hheld
  have hwhen (b : Bool) (hb : decide (sl = 0 ∨ dl = 0) = true → b = false) : ¬(decide (sl = 0 ∨ dl = 0) && b) = true := by
    rcases hon : decide (sl = 0 ∨ dl = 0)
    · exact Bool.false_ne_true
    · simp [hb hon]
  have hfault : ¬((sl = 0 ∨ dl = 0) ∧ (moveCore s c p).isNone = true) := fun hf => by
    rw [(hcore (decide_eq_true hf.1)).2.2.1] at hf
    exact Bool.false_ne_true hf.2
  have hwindow : ¬(decide (sl = 1) && (srcTiles p).any x.base (s.windowLacks x.handle)) = true := by
    by_cases hone : sl = 1
    · simp [h.window hone]
    · simp [hone]
  have hafter : ¬(s.tilesAfter core x (srcTiles p) false || s.tilesAfter core d (if dec = true then ⟨count, dp, dp⟩ else dstTiles p) true) = true := by
    rw [hdec, if_neg Bool.false_ne_true, show s.tilesAfter core x (srcTiles p) false = false from h.reads,
      show s.tilesAfter core d (dstTiles p) true = false from h.writes]
    exact Bool.false_ne_true
  rw [if_neg (Bool.eq_false_iff.1 h.apart), if_neg (decode_off hdec _ _), if_neg (Bool.eq_false_iff.1 hweight), if_neg h.some,
    if_neg (hwhen _ (fun hon => (hcore hon).1)), if_neg (hwhen _ (fun hon => (hcore hon).2.1)), if_neg hfault, if_neg (hwhen _ (fun hon => (hcore hon).2.2.2))]
  rw [if_neg (decode_off hdec _ _), if_neg (Bool.eq_false_iff.1 hlevel), if_neg hwindow, hready, if_neg (show ¬(!true) = true by decide), if_neg hafter, hdec]
  rfl

theorem span_ne_zero {count pitch n : Nat} (hn : 0 < n) (hcount : 0 < count) : Machine.Tiles.span ⟨count, pitch, n⟩ ≠ 0 := by
  rw [Machine.Tiles.span, if_neg (by simp; omega)]
  simp
  omega

/-- Nothing placed on a core meets the tiles of a region. -/
theorem tilesAfter_region (core : Nat) (t : Machine.Tiles) (dst : Bool) (h : x.loc ≠ 0) : s.tilesAfter core x t dst = false := by simp [State.tilesAfter, h]

theorem partOf_of_moveCore {core : Nat} (h : moveCore s (Packet.ctxNo p) p = some core) : ∃ y, s.partOf (Packet.ctxNo p) = some y := by
  rcases hpart : s.partOf (Packet.ctxNo p) with _ | y
  · simp [moveCore, hpart] at h
  · exact ⟨y, rfl⟩

/-- A TILE_MOVE that moves now completes with its count, and the destination's store holds the tiles. -/
theorem tileMove_copies {f : Flight} (htake : s.takes p 0x300 f k = true) (hc : tileMoveChecks k p s = none) (hplain : Packet.fld p 35 1 = 0) (hclean : s.stores.poison = [])
    (hsl : Packet.fld p 32 1 = 0 ∨ Packet.fld p 32 1 = 1) (hdl : Packet.fld p 33 1 = 0 ∨ Packet.fld p 33 1 = 1)
    (hx : s.moveSide (Packet.ctxNo p) (namedCore s p) (Packet.fld p 32 1) (Packet.fld p 16 8) (srcTiles p) false = .ok x)
    (hd : s.moveSide (Packet.ctxNo p) (namedCore s p) (Packet.fld p 33 1) (Packet.fld p 24 8) (dstTiles p) true = .ok d) (h : MovesNow s p x d) :
    ∃ t : State, exec (.tileMove p) s = .next (t.okWith f (s.verOf p 0x300) (Packet.fld p 40 4)) ∧
      t.stores = (s.apply (tileWrites s (namedCore s p) (Packet.fld p 36 4) (Packet.fld p 40 4) (Packet.fld p 44 4) (Packet.fld p 48 4) x d)).stores := by
  have hxloc : x.loc = 0 ∨ x.loc = 1 := by rw [moveSide_loc hsl hx]; exact hsl
  have hdloc : d.loc = 0 ∨ d.loc = 1 := by rw [moveSide_loc hdl hd]; exact hdl
  have heffect := tileMoveEffect_moves (id := f.id) (k := k) hplain hsl hdl hx hd h
  rw [movePlain_eq hxloc hdloc hclean] at heffect
  refine ⟨_, congrArg Host.Outcome.next ((runPacket_effect 0x300 tileMoveChecks tileMoveEffect p s f k htake hc).trans (by rw [heffect]; rfl)), ?_⟩
  rw [windowTiles_stores]
  exact moved_stores _ _ _

end Effect

/-- What a plain TILE_MOVE between core stores and regions does (R172). -/
theorem tileMove_spec (p : Packet) (s : State) (f : Flight) (c : Caller) (x d : Side) (core : Nat) (htake : s.takes p 0x300 f c = true) (hc : tileMoveChecks c p s = none)
    (hplain : Packet.fld p 35 1 = 0) (hclean : s.stores.poison = []) (hsl : Packet.fld p 32 1 = 0 ∨ Packet.fld p 32 1 = 1) (hdl : Packet.fld p 33 1 = 0 ∨ Packet.fld p 33 1 = 1)
    (hcore : Packet.fld p 32 1 = 0 ∨ Packet.fld p 33 1 = 0 → moveCore s (Packet.ctxNo p) p = some core ∧
      ∀ y, s.partOf (Packet.ctxNo p) = some y → y.2.state = 1 ∧ s.coreHeld y.2.cls core = false)
    (hx : s.moveSide (Packet.ctxNo p) (namedCore s p) (Packet.fld p 32 1) (Packet.fld p 16 8) (srcTiles p) false = .ok x)
    (hd : s.moveSide (Packet.ctxNo p) (namedCore s p) (Packet.fld p 33 1) (Packet.fld p 24 8) (dstTiles p) true = .ok d) :
    (s.sidesMeet x d (srcTiles p).span (dstTiles p).span = true ∨ (x.readOnly = true ∧ d.loc ≠ 0 ∧ d.weight = false) →
      exec (.tileMove p) s = .next (s.ends f (s.verOf p 0x300) St.badParam 0 0)) ∧
    (s.sidesMeet x d (srcTiles p).span (dstTiles p).span = false → (x.readOnly = true → d.loc = 0 ∨ d.weight = true) →
      (s.power.applied < 3 ∨ ∃ y, s.partOf (Packet.ctxNo p) = some y ∧ y.2.cls = 0) → (x.loc = 1 → (srcTiles p).any x.base (s.windowLacks x.handle) = false) →
      s.tilesAfter core x (srcTiles p) false = false → s.tilesAfter core d (dstTiles p) true = false → 0 < Packet.fld p 36 4 → 0 < Packet.fld p 40 4 →
      (Packet.fld p 36 4 ≤ Packet.fld p 48 4 ∨ Packet.fld p 40 4 = 1) →
      ∃ t : State, exec (.tileMove p) s = .next (t.okWith f (s.verOf p 0x300) (Packet.fld p 40 4)) ∧
        ((∀ i j, i < Packet.fld p 40 4 → j < Packet.fld p 36 4 → (Side.mem d t.stores).read (Side.key d core + i * Packet.fld p 48 4 + j) =
            (Side.mem x s.stores).read (Side.key x core + (i * Packet.fld p 44 4 + j))) ∧
          (∀ a, (∀ i j, i < Packet.fld p 40 4 → j < Packet.fld p 36 4 → a ≠ Side.key d core + i * Packet.fld p 48 4 + j) → (Side.mem d t.stores).read a = (Side.mem d s.stores).read a)) ∧
        (d.loc = 0 → t.stores.region = s.stores.region) ∧ (d.loc ≠ 0 → t.stores.core = s.stores.core) ∧
        t.stores.tier2 = s.stores.tier2 ∧ t.stores.xd = s.stores.xd ∧ t.stores.host = s.stores.host ∧ t.stores.ufs = s.stores.ufs) := by
  have hxloc := moveSide_loc hsl hx
  have hdloc := moveSide_loc hdl hd
  have hnamed : Packet.fld p 32 1 = 0 ∨ Packet.fld p 33 1 = 0 → namedCore s p = core := fun hon => by rw [namedCore, (hcore hon).1]; rfl
  refine ⟨fun hbad => ?_, fun hapart hweights hlevel hwindow hreads hwrites hn hcount htiles => ?_⟩
  · have hrun := runPacket_effect 0x300 tileMoveChecks tileMoveEffect p s f c htake hc
    rw [tileMoveEffect_refused hplain hdl hx hd hbad] at hrun
    exact congrArg Host.Outcome.next hrun
  · have hreads' : s.tilesAfter (namedCore s p) x (srcTiles p) false = false := by
      rcases hsl with h | h
      · rw [hnamed (.inl h)]
        exact hreads
      · exact tilesAfter_region _ _ _ (by rw [hxloc, h]; exact Nat.one_ne_zero)
    have hwrites' : s.tilesAfter (namedCore s p) d (dstTiles p) true = false := by
      rcases hdl with h | h
      · rw [hnamed (.inr h)]
        exact hwrites
      · exact tilesAfter_region _ _ _ (by rw [hdloc, h]; exact Nat.one_ne_zero)
    have hnow : MovesNow s p x d :=
      { apart := hapart, weights := hweights, some := span_ne_zero hn hcount, level := hlevel, reads := hreads', writes := hwrites'
        window := fun h => hwindow (hxloc.trans h)
        core := fun hon => by
          obtain ⟨hmove, hpart⟩ := hcore hon
          obtain ⟨y, hy⟩ := partOf_of_moveCore hmove
          rw [hnamed hon, hmove]
          exact ⟨Option.some_ne_none _, y, hy, hpart y hy⟩ }
    have hdkey : Side.key d (namedCore s p) = Side.key d core := by
      rcases hdl with h | h
      · rw [hnamed (.inr h)]
      · simp [Side.key, hdloc, h]
    have hxkey : Side.key x (namedCore s p) = Side.key x core := by
      rcases hsl with h | h
      · rw [hnamed (.inl h)]
      · simp [Side.key, hxloc, h]
    obtain ⟨t, hexec, hstores⟩ := tileMove_copies htake hc hplain hclean hsl hdl hx hd hnow
    obtain ⟨hin, hout, hothers⟩ := tileWrites_spec (s := s) (core := namedCore s p) (n := Packet.fld p 36 4) (count := Packet.fld p 40 4) (sp := Packet.fld p 44 4) (dp := Packet.fld p 48 4)
      (x := x) (d := d) (by rw [hdloc]; exact hdl) htiles
    rw [hdkey, hxkey] at hin
    rw [hdkey] at hout
    rw [← hstores] at hin hout hothers
    exact ⟨t, hexec, ⟨hin, hout⟩, hothers⟩

/-! ### BELLOWS_START and BELLOWS_STOP (R175 to R177) -/

section Bellows

variable {p : Packet} {s : State} {f : Flight} {c : Caller} {b : Bellows}

theorem useModel_sched (s : State) (n addr : Nat) : s.useModel n addr = { s with sched := (s.useModel n addr).sched } := rfl

/-- The stream that a BELLOWS_START begins. -/
def begunStream (s : State) (p : Packet) (id : Nat) (x : Nat × Partition) : Bellows :=
  ⟨Packet.ctxNo p, x.1, id, Packet.fld p 16 8, Packet.fld p 24 8, Packet.fld p 32 1, (Sched4.of (s.t2Reader (Packet.ctxNo p) (Packet.fld p 16 8))).layers, Packet.fld p 36 4,
    (List.range (Packet.fld p 33 1)).map (fun i =>
      (⟨x.2.clusters.getD i 0, ((List.range 4).find? (fun l => !(s.lanesUsed (x.2.clusters.getD i 0)).contains l)).getD 0, bellowsWindow p i,
        (match s.tiers.regions.get? (bellowsWindow p i) with
          | some r => r.size
          | none => 0) / Packet.fld p 32 1 / 4096 * 4096, 1, 0, []⟩ : BellowsPos)), false⟩

theorem bellowsStartEffect_begins {x : Nat × Partition} (hpart : s.partOf (Packet.ctxNo p) = some x) (hrepeat : 0 < Packet.fld p 36 4) (hstate : x.2.state = 1)
    (hprocs : x.2.cls = 0 ∨ ∀ k ∈ x.2.clusters, s.procDown (8 + k) = false) : bellowsStartEffect f.id c p s =
      ((State.useModel { s with tiers := { s.tiers with bellows := s.tiers.bellows.set (bellowsWindow p 0) (begunStream s p f.id x) } } (Packet.ctxNo p) (Packet.fld p 24 8)).useModel
        (Packet.ctxNo p) (Packet.fld p 16 8), .later) := by
  have hup : (decide (x.2.cls ≠ 0) && x.2.clusters.any (fun k => s.procDown (8 + k))) = false := by
    rcases hprocs with h | h
    · simp [h]
    · rw [Bool.and_eq_false_iff]
      exact .inr (List.any_eq_false.2 (fun k hk => by simp [h k hk]))
  unfold bellowsStartEffect
  simp only [hpart]
  rw [if_neg (Nat.ne_of_gt hrepeat), hstate, if_neg (show ¬(1 : Nat) = 4 by decide), hup]
  rfl

theorem bellowsStart_spec (x : Nat × Partition) (htake : s.takes p 0x303 f c = true) (hc : bellowsStartChecks c p s = none) (hpart : s.partOf (Packet.ctxNo p) = some x)
    (hrepeat : 0 < Packet.fld p 36 4) (hstate : x.2.state = 1) (hprocs : x.2.cls = 0 ∨ ∀ k ∈ x.2.clusters, s.procDown (8 + k) = false) :
    ∃ (t : State) (b : Bellows), exec (.bellowsStart p) s = .next t ∧ t.tiers.bellows = s.tiers.bellows.set (bellowsWindow p 0) b ∧
      b.ctx = Packet.ctxNo p ∧ b.part = x.1 ∧ b.flight = f.id ∧ b.sched = Packet.fld p 16 8 ∧ b.image = Packet.fld p 24 8 ∧ b.k = Packet.fld p 32 1 ∧
      b.repeat_ = Packet.fld p 36 4 ∧ b.positions.map (fun q => (q.window, q.cluster, q.pass, q.entry, q.tiles)) =
        (List.range (Packet.fld p 33 1)).map (fun i => (bellowsWindow p i, x.2.clusters.getD i 0, 1, 0, [])) ∧
      t.proto.finished = s.proto.finished ∧ t.stores = s.stores ∧ t.tiers.regions = s.tiers.regions := by
  have hrun := runPacket_effect 0x303 bellowsStartChecks bellowsStartEffect p s f c htake hc
  rw [bellowsStartEffect_begins hpart hrepeat hstate hprocs] at hrun
  exact ⟨_, begunStream s p f.id x, congrArg Host.Outcome.next hrun, rfl, rfl, rfl, rfl, rfl, rfl, rfl, rfl, by simp [begunStream], rfl, rfl, rfl⟩

/-- The flights that a BELLOWS_STOP ends: those that wait on the windows given. -/
def waitingOn (s : State) (id : Nat) (wins : List Nat) : List Flight :=
  s.proto.flights.filter (fun f => f.parked && !f.pages && decide (f.id ≠ id) && s.readsLacking wins f.opcode f.pkt)

/-- Flights that end with ABORTED. -/
def abortAll (l : List Flight) (s : State) : State := l.foldl (fun s f => s.finish f.id St.aborted 0 0) s

/-- The flights on a stream's windows have ended, and the windows join those of stopped streams. -/
def stopWaiting (s : State) (id : Nat) (b : Bellows) : State :=
  let t := abortAll (waitingOn s id (b.positions.map (·.window))) s
  { t with tiers := { t.tiers with stopped := t.tiers.stopped ++ b.positions } }

theorem bellowsStopEffect_eq (hb : s.tiers.bellows.get? (Packet.fld p 16 2) = some b) :
    bellowsStopEffect f.id c p s = done0 ((stopWaiting s f.id b).endBellows (Packet.fld p 16 2) St.aborted) 0 := by
  simp only [bellowsStopEffect, hb]
  rfl

theorem abortAll_flights (l : List Flight) (s : State) : s.FlightsOnly (abortAll l s) :=
  foldl_keeps s.FlightsOnly _ _ _ rfl (fun t g h => h.trans (t.finishFull_flights g.id St.aborted 0 0 none [] []))

/-- Once a flight of a number has been ended, its completion is among those to be written. -/
theorem abortAll_ends (l : List Flight) : ∀ s : State, (∀ g ∈ l, (s.flight? g.id).isSome = true ∨ ∃ fin ∈ s.proto.finished, fin.flight = g.id ∧ fin.status = St.aborted ∧ fin.result = 0) →
    ∀ g ∈ l, ∃ fin ∈ (abortAll l s).proto.finished, fin.flight = g.id ∧ fin.status = St.aborted ∧ fin.result = 0 := by
  have hkeep (l : List Flight) : ∀ (s : State) (fin : Finished), fin ∈ s.proto.finished → fin ∈ (abortAll l s).proto.finished := by
    exact fun s fin hfin => foldl_keeps (fun t : State => fin ∈ t.proto.finished) _ _ _ hfin
      (fun t g h => State.mem_finished_finishFull h g.id St.aborted 0 0 none [] [])
  induction l with
  | nil => exact fun _ _ g hg => absurd hg List.not_mem_nil
  | cons y r ih =>
    intro s hall
    -- once `y`'s number has been ended it has a completion, and no other number's flight is lost
    have hstep : ∀ g : Flight, ((s.flight? g.id).isSome = true ∨ ∃ fin ∈ s.proto.finished, fin.flight = g.id ∧ fin.status = St.aborted ∧ fin.result = 0) →
        (g.id ≠ y.id ∧ ((s.finish y.id St.aborted 0 0).flight? g.id).isSome = true) ∨
        ∃ fin ∈ (s.finish y.id St.aborted 0 0).proto.finished, fin.flight = g.id ∧ fin.status = St.aborted ∧ fin.result = 0 := by
      intro g hg
      rcases hg with hsome | ⟨fin, hfin, hspec⟩
      · by_cases hid : g.id = y.id
        · obtain ⟨z, hz⟩ := Option.isSome_iff_exists.1 hsome
          rw [hid] at hz
          obtain ⟨a, ha⟩ := State.finishFull_eq hz St.aborted 0 0 none [] []
          rw [State.finish, ha]
          exact .inr ⟨_, List.mem_append_right _ (List.mem_singleton_self _), hid.symm, rfl, rfl⟩
        · refine .inl ⟨hid, ?_⟩
          rcases hy : s.flight? y.id with _ | z
          · rwa [State.finish, s.finishFull_gone _ _ _ _ _ _ _ hy]
          · obtain ⟨a, ha⟩ := State.finishFull_eq hy St.aborted 0 0 none [] []
            rw [State.finish, ha]
            obtain ⟨w, hw⟩ := Option.isSome_iff_exists.1 hsome
            have hmem := List.mem_of_find?_eq_some hw
            have hwid : w.id = g.id := by simpa using List.find?_some hw
            refine List.find?_isSome.2 ⟨w, List.mem_filter.2 ⟨hmem, ?_⟩, ?_⟩
            · simpa [hwid] using hid
            · simpa using hwid
      · exact .inr ⟨fin, hkeep [y] s fin hfin, hspec⟩
    intro g hg
    rcases List.mem_cons.1 hg with rfl | hg
    · rcases hstep g (hall g hg) with ⟨hne, -⟩ | ⟨fin, hfin, hspec⟩
      · exact absurd rfl hne
      · exact ⟨fin, hkeep r _ fin hfin, hspec⟩
    · exact ih _ (fun g hg => (hstep g (hall g (List.mem_cons_of_mem _ hg))).imp_left (·.2)) g hg

theorem bellowsStop_spec (htake : s.takes p 0x304 f c = true) (hc : bellowsStopChecks c p s = none) (hb : s.tiers.bellows.get? (Packet.fld p 16 2) = some b) :
    ((∀ g ∈ s.proto.flights, g.parked = false) → exec (.bellowsStop p) s =
      .next ((State.finish { s with tiers := { s.tiers with bellows := s.tiers.bellows.erase (Packet.fld p 16 2), stopped := s.tiers.stopped ++ b.positions } } b.flight St.aborted
        (if b.ecc then Inf.eccCorrected else 0) (b.result s)).okWith f (s.verOf p 0x304) 0)) ∧
    ∃ t : State, exec (.bellowsStop p) s = .next t ∧ t.tiers.bellows.get? (Packet.fld p 16 2) = none ∧
      (∀ g ∈ s.proto.flights, g.parked = true → g.pages = false → g.id ≠ f.id → s.readsLacking (b.positions.map (·.window)) g.opcode g.pkt = true →
        ∃ fin ∈ t.proto.finished, fin.flight = g.id ∧ fin.status = St.aborted ∧ fin.result = 0) := by
  have hexec : exec (.bellowsStop p) s = .next (((stopWaiting s f.id b).endBellows (Packet.fld p 16 2) St.aborted).okWith f (s.verOf p 0x304) 0) :=
    congrArg Host.Outcome.next (runPacket_okWith htake hc (bellowsStopEffect_eq hb))
  refine ⟨fun hidle => ?_, _, hexec, ?_, fun g hg hparked hpages hid hlacks => ?_⟩
  · have hnone : waitingOn s f.id (b.positions.map (·.window)) = [] := List.filter_eq_nil_iff.2 (fun g hg => by simp [hidle g hg])
    have hstop : stopWaiting s f.id b = { s with tiers := { s.tiers with stopped := s.tiers.stopped ++ b.positions } } := by
      rw [stopWaiting, hnone]
      rfl
    rw [hexec, hstop, State.endBellows]
    simp only [hb]
    rfl
  · have hb' : (stopWaiting s f.id b).tiers.bellows.get? (Packet.fld p 16 2) = some b := by
      show (abortAll _ s).tiers.bellows.get? _ = _
      rw [abortAll_flights _ s]
      exact hb
    rw [State.okWith, State.ends, State.finishFull_flights, State.endBellows]
    simp only [hb']
    rw [State.finish, State.finishFull_flights]
    exact Tab.get?_erase_self _ _
  · have hwaits : g ∈ waitingOn s f.id (b.positions.map (·.window)) := List.mem_filter.2 ⟨hg, by simp [hparked, hpages, hid, hlacks]⟩
    obtain ⟨fin, hfin, hspec⟩ := abortAll_ends _ s (fun y hy => .inl (List.find?_isSome.2 ⟨y, (List.mem_filter.1 hy).1, by simp⟩)) g hwaits
    refine ⟨fin, State.mem_finished_finishFull ?_ _ _ _ _ _ _ _, hspec⟩
    unfold State.endBellows
    split
    · exact hfin
    · exact State.mem_finished_finishFull (by exact hfin) _ _ _ _ _ _ _

end Bellows

/-! ### BELLOWS_TILE_FETCH (R178) -/

section Fetch

variable {s : State} {stream i : Nat} {b : Bellows} {q : BellowsPos}

/-- The entry of the schedule that a position fetches next. -/
def nextEntry (s : State) (b : Bellows) (i : Nat) (q : BellowsPos) : SEntry := (b.head s).entry (s.t2Reader b.ctx b.sched) i q.entry

/-- Units of a layer that the entries before take in its slot. -/
def unitsBefore (s : State) (b : Bellows) (i : Nat) (q : BellowsPos) : Nat :=
  ((((List.range q.entry).map ((b.head s).entry (s.t2Reader b.ctx b.sched) i)).filter (fun x => decide (x.layer = (nextEntry s b i q).layer))).map (·.out4k)).foldl (· + ·) 0

/-- The layer of the stream that a position fetches, counted over the passes. -/
def streamLayer (s : State) (b : Bellows) (i : Nat) (q : BellowsPos) : Nat := (q.pass - 1) * b.layers + (nextEntry s b i q).layer

/-- Where the tile goes in its window. -/
def tilePlace (s : State) (b : Bellows) (i : Nat) (q : BellowsPos) : Nat := streamLayer s b i q % b.k * q.slotSize + unitsBefore s b i q * 4096

/-- A tile that is not packed, whose place is EMPTY and whose bytes can be read. -/
structure Fetchable (s : State) (b : Bellows) (i : Nat) (q : BellowsPos) : Prop where
  goesOn : q.pass ≤ b.repeat_ ∨ b.repeat_ = 0xFFFFFFFF
  empty : q.tiles = []
  entries : 0 < (b.head s).counts.getD i 0
  allowed : s.t2Barred b.ctx = false
  clean : s.stores.poison = []
  plain : (nextEntry s b i q).decode = false
  layer : (nextEntry s b i q).layer < b.layers
  fits : tilePlace s b i q + (nextEntry s b i q).out4k * 4096 ≤ (streamLayer s b i q % b.k + 1) * q.slotSize
  some : 0 < (nextEntry s b i q).srcBytes
  within : (nextEntry s b i q).srcBytes ≤ (nextEntry s b i q).out4k * 4096
  mapped : s.t2Mapped b.ctx (b.image + (nextEntry s b i q).src) (nextEntry s b i q).srcBytes = true
  resident : s.t2Evicted b.ctx (b.image + (nextEntry s b i q).src) (nextEntry s b i q).srcBytes = false

theorem phys?_of_mapped {c addr n : Nat} (hn : 0 < n) (h : s.t2Mapped c addr n = true) : ∃ k, s.phys? c addr = some k := by
  have hpage : (s.page? c (addr / 65536)).isSome = true := by
    refine List.all_eq_true.1 ((Bool.and_eq_true_iff).1 h).2 _ ?_
    rw [pageSpan, if_neg (Nat.ne_of_gt hn)]
    exact List.mem_map.2 ⟨0, by simp, by simp⟩
  obtain ⟨g, hg⟩ := Option.isSome_iff_exists.1 hpage
  exact ⟨_, by rw [State.phys?, hg]; rfl⟩

theorem t2Poison_none (h : s.stores.poison = []) (c addr n : Nat) : s.t2Poison c addr n = none := by simp [State.t2Poison, h]

/-- The bytes a tile is fetched from. -/
def tileBytes (s : State) (b : Bellows) (i : Nat) (q : BellowsPos) : List Byte := s.t2Read b.ctx (b.image + (nextEntry s b i q).src) (nextEntry s b i q).srcBytes

/-- A fetch puts the tile's bytes in its window, and its position goes on. -/
theorem bellowsFetch_eq (h : Fetchable s b i q) : s.bellowsFetch stream i b q .clean =
    ((s.apply [⟨.region, regionKey q.window (tilePlace s b i q), tileBytes s b i q⟩]).accPart b.part
      (fun a => a.move ⟨(tileBytes s b i q).length, (nextEntry s b i q).srcBytes, 0, 0⟩)).setPos stream i (fun y =>
        { y.next ((b.head s).counts.getD i 0) with tiles := y.tiles ++ [⟨tilePlace s b i q, (nextEntry s b i q).out4k * 4096, (nextEntry s b i q).consumers, streamLayer s b i q, true⟩] }) := by
  obtain ⟨first, hfirst⟩ := phys?_of_mapped h.some h.mapped
  have hover : ¬(b.repeat_ ≠ 0xFFFFFFFF ∧ b.repeat_ < q.pass) := by
    rcases h.goesOn with hg | hg <;> omega
  have hroom : ¬(q.slotSize < (unitsBefore s b i q + (nextEntry s b i q).out4k) * 4096 ∨ b.layers ≤ (nextEntry s b i q).layer) := by
    have := h.fits
    rw [tilePlace, Nat.add_mul] at this
    have := h.layer
    omega
  have hempty : ¬(q.tiles.any (fun t => rangesMeet t.dst t.bytes (tilePlace s b i q) ((nextEntry s b i q).out4k * 4096))) = true := by simp [h.empty]
  unfold State.bellowsFetch
  extract_lets rd hd count e g place dst
  rw [if_neg hover, if_neg (show ¬count = 0 from Nat.ne_of_gt h.entries), if_neg (show ¬(q.slotSize < (place + e.out4k) * 4096 ∨ b.layers ≤ e.layer) from hroom),
    if_neg (show ¬(q.tiles.any (fun t => rangesMeet t.dst t.bytes dst (e.out4k * 4096))) = true from hempty), if_neg (Bool.eq_false_iff.1 h.allowed),
    if_neg (show ¬s.t2Evicted b.ctx (b.image + e.src) e.srcBytes = true from Bool.eq_false_iff.1 h.resident)]
  rw [show s.phys? b.ctx (b.image + e.src) = some first from hfirst]
  have hmapped : (!s.t2Mapped b.ctx (b.image + e.src) e.srcBytes) = false := by rw [show s.t2Mapped b.ctx (b.image + e.src) e.srcBytes = true from h.mapped]; rfl
  simp only [State.met, memFixed, reduceCtorEq, Bool.false_eq_true, if_false, hmapped, t2Poison_none h.clean, show e.decode = false from h.plain, if_pos (show e.srcBytes ≤ e.out4k * 4096 from h.within)]
  rfl

theorem modify_congr {α : Type} {l : List α} {i : Nat} {v : α} (hi : l[i]? = some v) {f g : α → α} (h : f v = g v) : l.modify i f = l.modify i g := by
  apply List.ext_getElem?
  intro j
  rw [List.getElem?_modify, List.getElem?_modify]
  by_cases hj : i = j
  · subst hj
    simp [hi, h]
  · simp [hj]

/-- BELLOWS_TILE_FETCH of a tile that can be fetched. -/
theorem bellowsTileFetch_spec (hrun : s.running = true) (hb : s.tiers.bellows.get? stream = some b) (hq : b.positions[i]? = some q)
    (hclock : s.classGated (s.partClass b.part) = false) (hlevel : s.power.applied < 3) (h : Fetchable s b i q) :
    ∃ t : State, exec (.bellowsTileFetch stream i .clean) s = .next t.settle ∧
      (∀ k, k < (nextEntry s b i q).srcBytes → t.stores.region.read (regionKey q.window (tilePlace s b i q) + k) = (tileBytes s b i q).getD k 0) ∧
      (∀ a, a < regionKey q.window (tilePlace s b i q) ∨ regionKey q.window (tilePlace s b i q) + (nextEntry s b i q).srcBytes ≤ a →
        t.stores.region.read a = s.stores.region.read a) ∧
      t.stores.core = s.stores.core ∧ t.stores.tier2 = s.stores.tier2 ∧
      t.tiers.bellows.get? stream = some { b with positions := b.positions.modify i (fun y =>
        { y.next ((b.head s).counts.getD i 0) with tiles := [⟨tilePlace s b i q, (nextEntry s b i q).out4k * 4096, (nextEntry s b i q).consumers, streamLayer s b i q, true⟩] }) } := by
  have hlen : (tileBytes s b i q).length = (nextEntry s b i q).srcBytes := by simp [tileBytes, State.t2Read]
  refine ⟨s.bellowsFetch stream i b q .clean, ?_, ?_⟩
  · simp [exec, execBellowsTileFetch, hb, hq, hrun, hclock, hlevel]
  · rw [bellowsFetch_eq h]
    refine ⟨fun k hk => ?_, fun a ha => ?_, rfl, rfl, ?_⟩
    · exact Mem.read_writeBytes_in _ _ _ _ (by rw [hlen]; exact hk)
    · exact Mem.read_writeBytes_out _ _ _ _ (by rw [hlen]; exact ha)
    · show (s.tiers.bellows.update stream _).get? stream = _
      rw [Tab.update_of_get? _ hb, Tab.get?_set_self, modify_congr hq]
      simp only [h.empty, List.nil_append]

end Fetch

/-! ### MAINTENANCE_SLOT (R170, R444, R447) -/

section Maintenance

variable {s : State} {stack : Nat} {margin : Int}

/-- One step of a delay tap toward the margin. -/
def tapStep (margin : Int) : Int := if margin < 0 then -1 else if margin = 0 then 0 else 1

/-- The stack's tap has moved, unless it already did in this frame. -/
def trainedNow (s : State) (stack : Nat) (margin : Int) : State :=
  if s.tiers.trained.get? stack = some s.frameNo then s
  else { s with tiers := { s.tiers with taps := s.tiers.taps.set stack ((s.tiers.taps.get? stack).getD 0 + tapStep margin), trained := s.tiers.trained.set stack s.frameNo } }

theorem exec_maintenanceSlot (hrun : s.running = true) (hstack : (stacksOf s.order).contains stack = true) (hup : s.power.standby = false) :
    exec (.maintenanceSlot stack margin .none) s = .next (trainedNow s stack margin) ∧
    (∀ fr, exec (.maintenanceSlot stack margin (.corrected fr)) s = .next (((trainedNow s stack margin).count (fun c => c.bump .tier2 false)).frameCorrects stack fr)) ∧
    ∀ fr, exec (.maintenanceSlot stack margin (.uncorrectable fr)) s = .next ((trainedNow s stack margin).uncorrectable .tier2 ((trainedNow s stack margin).lineOn stack fr)) := by
  have hgo : (!(s.running && (stacksOf s.order).contains stack) || s.power.standby) = false := by rw [hrun, hstack, hup]; rfl
  simp only [exec, execMaintenanceSlot, hgo, Bool.false_eq_true, if_false, trainedNow, tapStep, true_and, implies_true]

/-- A tap moves at most one step, once in a frame, and nothing else moves with it. -/
theorem trainedNow_spec (s : State) (stack : Nat) (margin : Int) :
    let old := (s.tiers.taps.get? stack).getD 0
    let new := ((trainedNow s stack margin).tiers.taps.get? stack).getD 0
    ((new - old ≤ 1 ∧ old - new ≤ 1) ∧ (s.tiers.trained.get? stack = some s.frameNo → trainedNow s stack margin = s) ∧
      (s.tiers.trained.get? stack ≠ some s.frameNo → (trainedNow s stack margin).tiers.trained.get? stack = some s.frameNo ∧ (margin < 0 → new = old - 1) ∧
        (margin = 0 → new = old) ∧ (0 < margin → new = old + 1))) ∧
    { trainedNow s stack margin with tiers := { (trainedNow s stack margin).tiers with taps := s.tiers.taps, trained := s.tiers.trained } } = s := by
  unfold trainedNow
  by_cases hdone : s.tiers.trained.get? stack = some s.frameNo
  · simp only [if_pos hdone]
    exact ⟨⟨by omega, fun _ => trivial, fun hne => absurd hdone hne⟩, trivial⟩
  · simp only [if_neg hdone, Tab.get?_set_self, Option.getD_some, tapStep]
    refine ⟨⟨?_, fun h => absurd h hdone, fun _ => ⟨trivial, ?_, ?_, ?_⟩⟩, trivial⟩
    · split <;> [skip; split] <;> omega
    · intro h; rw [if_pos h]; omega
    · intro h; rw [h]; simp
    · intro h; rw [if_neg (by omega), if_neg (by omega)]

/-- The line an error is found on lies in its frame, and on the stack if any block of the frame does. -/
theorem lineOn_spec (s : State) (stack fr : Nat) : s.lineOn stack fr / 65536 = fr ∧
    ((∃ i, i < 16 ∧ s.stackOf (fr * 65536 + 4096 * i) = stack) → s.stackOf (s.lineOn stack fr) = stack) := by
  unfold State.lineOn
  rcases hfind : ((List.range 16).map (fun i => fr * 65536 + 4096 * i)).find? (fun k => decide (s.stackOf k = stack)) with _ | k
  · refine ⟨by simp, fun ⟨i, hi, hon⟩ => ?_⟩
    have := List.find?_eq_none.1 hfind (fr * 65536 + 4096 * i) (List.mem_map_of_mem (List.mem_range.2 hi))
    simp [hon] at this
  · obtain ⟨i, hi, rfl⟩ := List.mem_map.1 (List.mem_of_find?_eq_some hfind)
    rw [List.mem_range] at hi
    exact ⟨by simp only [Option.getD_some]; omega, fun _ => by simpa using List.find?_some hfind⟩

end Maintenance

/-- Settles O35. -/
theorem tilesAndSchedules : Obligations.TilesAndSchedules := by
  unfold Obligations.TilesAndSchedules
  refine ⟨?_, ?_, ?_⟩
  · intro p s f c x d core htake hc hplain hclean hsl hdl hcore n count sp dp hx hd
    obtain ⟨hrefused, hcopies⟩ := tileMove_spec p s f c x d core htake hc hplain hclean hsl hdl hcore hx hd
    refine ⟨hrefused, fun hapart hweights hlevel hwindow hreads hwrites hn hcount htiles => ?_⟩
    obtain ⟨t, hexec, hmem, hothers⟩ := hcopies hapart hweights hlevel hwindow hreads hwrites hn hcount htiles
    have hsrc (k : Nat) : (Side.mem x s.stores).read (Side.key x core + k) =
        if x.loc = 0 then s.stores.core.read (coreKey core (x.base + k)) else s.stores.region.read (regionKey x.handle (x.base + k)) := by
      simp only [Side.mem, Side.key]
      split <;> simp only [coreKey, regionKey, Nat.add_assoc]
    exact ⟨t, hexec, ⟨fun i j hi hj => (hmem.1 i j hi hj).trans (hsrc _), hmem.2⟩, hothers⟩
  · intro p s f c
    exact ⟨fun x htake hc hpart hrepeat hstate hprocs => bellowsStart_spec x htake hc hpart hrepeat hstate hprocs,
      fun b htake hc hb hidle => (bellowsStop_spec htake hc hb).1 hidle, fun b htake hc hb => (bellowsStop_spec htake hc hb).2⟩
  · intro s hrun
    refine ⟨?_, fun stack margin hstack hup => ?_, fun stack margin r hby => ?_, fun stream i m hlevel => ?_⟩
    · intro stream i b q hb hq hclock hlevel hallowed hclean hgoes hempty hentries e g dst hplain hlayer hfits hsome hwithin hmapped hresident
      exact bellowsTileFetch_spec hrun hb hq hclock hlevel ⟨hgoes, hempty, hentries, hallowed, hclean, hplain, hlayer, hfits, hsome, hwithin, hmapped, hresident⟩
    · obtain ⟨hnone, hcorrected, hlost⟩ := exec_maintenanceSlot (margin := margin) hrun hstack hup
      obtain ⟨htaps, hothers⟩ := trainedNow_spec s stack margin
      exact ⟨_, hnone, fun fr => ⟨hcorrected fr, hlost fr, (lineOn_spec _ _ _).1, (lineOn_spec _ _ _).2⟩, htaps, hothers⟩
    · simp [exec, execMaintenanceSlot, hby]
    · rcases hb : s.tiers.bellows.get? stream with _ | b
      · simp [exec, execBellowsTileFetch, hb]
      · rcases hq : b.positions[i]? with _ | q <;> simp [exec, execBellowsTileFetch, hb, hq, hlevel]

end Sys2Proof.Proofs.Tiles

/-! PROOFS. Sequences: creation, destruction, acceptance, pre-emption and resumption (07_attention_kv). -/

namespace Sys2Proof.Proofs.Sequences

open Sys2Proof Sys2Proof.Machine Sys2Proof.Proofs.Regions

section Packets

variable {code : Nat} {checks : Caller → Packet → State → Option Nat} {effect : Nat → Caller → Packet → State → State × Reply}
  {p : Packet} {s t : State} {f : Flight} {c : Caller}

/-- A packet on a sequence that is taken and whose checks pass has its effect. -/
theorem runPacket_checkedSeq (h : s.takes p code f c = true) (hc : checks c p s = none) : runPacket code (checkedSeq checks effect) p s =
    (effect f.id c p s).1.settleReply f.id (s.verOf p code) (effect f.id c p s).2 := by
  rw [runPacket_takes _ _ _ _ _ _ h]
  simp only [checkedSeq, hc]

theorem runPacket_seqDone {info result : Nat} (h : s.takes p code f c = true) (hc : checks c p s = none) (he : effect f.id c p s = (t, .done St.ok info result)) :
    runPacket code (checkedSeq checks effect) p s = t.ends f (s.verOf p code) St.ok info result := by
  rw [runPacket_checkedSeq h hc, he]
  rfl

end Packets

/-! ### The table of sequences -/

section Table

variable {s : State} {h : Nat} {q : Seq}

theorem seq?_setSeq (hq : s.seq? h = some q) (g : Seq → Seq) : (s.setSeq h g).seq? h = some (g q) := by
  show (s.kv.seqs.update h g).get? h = _
  rw [Tab.update_of_get? g hq, Tab.get?_set_self]

theorem seq?_setSeq_ne {k : Nat} (hk : k ≠ h) (g : Seq → Seq) : (s.setSeq h g).seq? k = s.seq? k := by
  show (s.kv.seqs.update h g).get? k = _
  rw [Tab.get?_update, if_neg hk]
  rfl

theorem seq?_useSeq (hq : s.seq? h = some q) : (s.useSeq h).seq? h = some { q with lastUse := s.sched.useCount } := seq?_setSeq hq _

theorem seq?_useSeq_ne {k : Nat} (hk : k ≠ h) : (s.useSeq h).seq? k = s.seq? k := seq?_setSeq_ne hk _

end Table

/-! ### Pages that are freed (R193, R206, R211, R264) -/

/-- Pools, tier 2's bytes, its codebooks and reliability's records may change, and nothing else. -/
def PagesFreed (s t : State) : Prop :=
  t = { s with kv := { s.kv with pools := t.kv.pools }, stores := { s.stores with tier2 := t.stores.tier2, poison := t.stores.poison },
               tiers := { s.tiers with codebooks := t.tiers.codebooks }, rel := t.rel }

theorem PagesFreed.refl (s : State) : PagesFreed s s := rfl

theorem PagesFreed.trans {s t u : State} (h : PagesFreed s t) (g : PagesFreed t u) : PagesFreed s u := by
  rw [PagesFreed] at g ⊢
  rw [h] at g
  exact g

theorem PagesFreed.of_frames {s t : State} (h : FramesFreed s t) : PagesFreed s t := by
  rw [FramesFreed] at h
  rw [PagesFreed, h]

/-- A page that has been given back reads as zero, and stays so while others are given back. -/
theorem freeFrames_zero (fs : List Nat) : ∀ s : State, (∀ k, (∃ f ∈ fs, f * 65536 ≤ k ∧ k < f * 65536 + 65536) → (s.freeFrames fs).stores.tier2.read k = 0) ∧
    (∀ k, s.stores.tier2.read k = 0 → (s.freeFrames fs).stores.tier2.read k = 0) := by
  induction fs with
  | nil => exact fun s => ⟨fun k ⟨f, hf, _⟩ => absurd hf List.not_mem_nil, fun k hk => hk⟩
  | cons f r ih =>
    intro s
    let z : State := { s.zeroFill .tier2 (f * 65536) 65536 with tiers := { s.tiers with codebooks := s.tiers.codebooks.mapVals (fun _ l => l.filter (fun x => decide (x.1 / 65536 ≠ f))) } }
    let u := (z.rel.retireOnFree.filter (fun x => decide (x.2 = f))).foldl (fun s x =>
      State.retireFrame { s with rel := { s.rel with retireOnFree := s.rel.retireOnFree.filter (fun y => y ≠ x) } } x.1 x.2) z
    have hrest : s.freeFrames (f :: r) = u.freeFrames r := rfl
    have hretire (t : State) (stack f : Nat) : (t.retireFrame stack f).stores = t.stores := by
      have hlog (t : State) (code source detail : Nat) : (t.logFault code source detail).stores = t.stores := by
        unfold State.logFault
        extract_lets recent
        split <;> rfl
      unfold State.retireFrame
      extract_lets l
      split
      · rfl
      · exact hlog _ _ _ _
    have hu : u.stores = z.stores := foldl_keeps (fun t : State => t.stores = z.stores) _ _ _ rfl (fun t x h => (hretire _ _ _).trans h)
    obtain ⟨hin, hkeep⟩ := ih u
    rw [hrest]
    have hzero (k : Nat) (hk : f * 65536 ≤ k ∧ k < f * 65536 + 65536) : u.stores.tier2.read k = 0 := by
      rw [hu]
      exact Mem.read_zero_in _ hk
    refine ⟨fun k ⟨g, hg, hk⟩ => ?_, fun k hk => hkeep k ?_⟩
    · rcases List.mem_cons.1 hg with rfl | hg
      · exact hkeep k (hzero k hk)
      · exact hin k ⟨g, hg, hk⟩
    · by_cases hmeets : f * 65536 ≤ k ∧ k < f * 65536 + 65536
      · exact hzero k hmeets
      · rw [hu]
        exact (Mem.read_zero_out _ (by omega)).trans hk

section Free

variable {s : State} {h : Nat} {q : Seq}

/-- Freeing pages of a sequence takes them from it; what else changes are pools, tier 2 and reliability's records. -/
theorem freeKv_spec (hq : s.seq? h = some q) (gone : Nat → KvPage → Bool) :
    PagesFreed (s.setSeq h (fun q => { q with pages := q.pages.filter (fun x => !gone x.1 x.2) })) (s.freeKv h gone) ∧
    ∀ x ∈ q.pages, gone x.1 x.2 = true → x.2.state ≠ 2 → ∀ i, i < 65536 → (s.freeKv h gone).stores.tier2.read (x.2.frame * 65536 + i) = 0 := by
  let u := s.setSeq h (fun q => { q with pages := q.pages.filter (fun x => !gone x.1 x.2) })
  let out := q.pages.filter (fun x => gone x.1 x.2)
  let v := (out.filter (fun x => decide (x.2.state ≠ 1) && !x.2.lost)).foldl (fun s x =>
    { s with kv := { s.kv with pools := s.kv.pools.update x.2.pool (fun y => { y with used := y.used.filter (· ≠ x.2.slot) }) } }) u
  have hv : PagesFreed u v := foldl_keeps (PagesFreed u) _ _ _ (.refl u) (fun t x h => h.trans rfl)
  have heq : s.freeKv h gone = v.freeFrames ((out.filter (fun x => decide (x.2.state ≠ 2))).map (fun x => x.2.frame)) := by
    simp only [State.freeKv, hq, u, v, out]
  rw [heq]
  refine ⟨hv.trans (.of_frames (freeFrames_freed _ _)), fun x hx hgone hstate i hi => ?_⟩
  refine (freeFrames_zero _ v).1 _ ⟨x.2.frame, List.mem_map.2 ⟨x, List.mem_filter.2 ⟨List.mem_filter.2 ⟨hx, hgone⟩, by simpa using hstate⟩, rfl⟩, by omega, by omega⟩

end Free

/-! ### PT_CREATE, PT_DESTROY and SWAP_POOL_REGISTER (R183, R203, R211) -/

section Create

variable {p : Packet} {s : State} {f : Flight} {c : Caller} {q : Seq}

/-- The sequence that a PT_CREATE asks for. -/
def newSeq (p : Packet) : Seq :=
  { ctx := Packet.ctxNo p, layers := Packet.fld p 16 2, kvHeads := Packet.fld p 18 1, fmt := Packet.fld p 19 1, headDim := Packet.fld p 20 2,
    byHead := decide (Packet.fld p 22 1 = 1), prio := Packet.fld p 23 1, maxTokens := Packet.fld p 24 4, swappable := bit (Packet.fld p 28 1) 0,
    state := 1, committed := 0, tail := 0, pages := [], tailDiscarded := false, preemptFlight := none, resumeFlight := none, swapStarted := false,
    lastUse := 0 }

theorem swappable_of_ptCreateChecks (hc : ptCreateChecks c p s = none) : bit (Packet.fld p 28 1) 0 = decide (Packet.fld p 28 1 = 1) := by
  have hfields := (firstFail_none _).1 hc (_, St.badParam) (List.mem_of_getElem? (i := 1) rfl)
  simp only [Bool.or_eq_false_iff, decide_eq_false_iff_not] at hfields
  have hle : Packet.fld p 28 1 ≤ 1 := by omega
  have hcases : Packet.fld p 28 1 = 0 ∨ Packet.fld p 28 1 = 1 := by omega
  rcases hcases with h | h <;> rw [h] <;> rfl

theorem ptCreate_spec (htake : s.takes p 0x402 f c = true) (hc : ptCreateChecks c p s = none) (hmax : 0 < Packet.fld p 24 4) (hfree : ∃ h, h < 4096 ∧ s.kv.seqs.get? h = none) :
    ∃ (t : State) (h : Nat) (q : Seq), h < 4096 ∧ s.kv.seqs.get? h = none ∧ t.kv.seqs.get? h = some q ∧ (∀ k, k ≠ h → t.kv.seqs.get? k = s.kv.seqs.get? k) ∧
      q.ctx = Packet.ctxNo p ∧ q.layers = Packet.fld p 16 2 ∧ q.kvHeads = Packet.fld p 18 1 ∧ q.fmt = Packet.fld p 19 1 ∧ q.headDim = Packet.fld p 20 2 ∧
      q.byHead = decide (Packet.fld p 22 1 = 1) ∧ q.prio = Packet.fld p 23 1 ∧ q.maxTokens = Packet.fld p 24 4 ∧ q.swappable = decide (Packet.fld p 28 1 = 1) ∧
      q.state = 1 ∧ q.committed = 0 ∧ q.tail = 0 ∧ q.pages = [] ∧ t.stores = s.stores ∧ t.tiers = s.tiers ∧ t.proto = s.proto ∧
      exec (.ptCreate p) s = .next (t.okWith f (s.verOf p 0x402) (h + 65536 * q.tokens)) := by
  obtain ⟨k, hk, hnone⟩ := hfree
  obtain ⟨h, hpick, hlt, hnot⟩ := pickFree_of_free (used := s.kv.seqs.keys) s.fresh ⟨k, hk, Tab.not_mem_keys.2 hnone⟩
  let u : State := State.bump { s with kv := { s.kv with seqs := s.kv.seqs.set h (newSeq p) } }
  have hu : u.seq? h = some (newSeq p) := Tab.get?_set_self _ _ _
  have heffect : ptCreateEffect f.id c p s = done0 (u.useSeq h) (h + 65536 * (newSeq p).tokens) := by
    have hmax' : (newSeq p).maxTokens ≠ 0 := Nat.ne_of_gt hmax
    unfold ptCreateEffect
    extract_lets q
    rw [if_neg (show ¬q.maxTokens = 0 from hmax'), hpick]
    rfl
  refine ⟨u.useSeq h, h, _, hlt, Tab.not_mem_keys.1 hnot, seq?_useSeq hu, fun k hk => (seq?_useSeq_ne hk).trans (Tab.get?_set_ne _ _ _ _ hk),
    rfl, rfl, rfl, rfl, rfl, rfl, rfl, rfl, swappable_of_ptCreateChecks hc, rfl, rfl, rfl, rfl, rfl, rfl, rfl, ?_⟩
  exact congrArg Host.Outcome.next (runPacket_okWith htake hc heffect)

theorem erase_update {α : Type} (t : Tab α) (h : Nat) (g : α → α) : (t.update h g).erase h = t.erase h := by
  rcases hget : t.get? h with _ | v
  · rw [Tab.update_of_none g hget]
  · rw [Tab.update_of_get? g hget]
    clear hget
    induction t with
    | nil => simp [Tab.set, Tab.erase]
    | cons a r ih =>
      obtain ⟨k, w⟩ := a
      simp only [Tab.erase] at ih
      rcases Nat.lt_trichotomy h k with hlt | heq | hgt
      · simp [Tab.set, Tab.erase, hlt]
      · simp [Tab.set, Tab.erase, heq]
      · simp only [Tab.set, Nat.lt_asymm hgt, Nat.ne_of_gt hgt, if_false, Tab.erase, List.filter_cons, ih]

theorem ptDestroy_spec (htake : s.takes p 0x403 f c = true) (hc : ptDestroyChecks c p s = none) (hq : s.seq? (Packet.fld p 16 2) = some q) (hpreempt : q.preemptFlight = none)
    (hresume : q.resumeFlight = none) (hwaits : s.destroyWaits f.id (Packet.fld p 16 2) = false) :
    ∃ t : State, exec (.ptDestroy p) s = .next (t.ends f (s.verOf p 0x403) St.ok q.info 0) ∧ t.kv.seqs = s.kv.seqs.erase (Packet.fld p 16 2) ∧ t.proto = s.proto ∧
      (∀ kv ∈ q.pages, kv.2.state ≠ 2 → ∀ i, i < 65536 → t.stores.tier2.read (kv.2.frame * 65536 + i) = 0) ∧
      t.stores.core = s.stores.core ∧ t.stores.region = s.stores.region ∧ t.stores.host = s.stores.host ∧ t.tiers.pages = s.tiers.pages := by
  have heffect : ptDestroyEffect f.id c p s = (s.destroySeq (Packet.fld p 16 2), .done St.ok q.info 0) := by
    simp only [ptDestroyEffect, hwaits, hq]
    rfl
  have hdestroy : s.destroySeq (Packet.fld p 16 2) = State.settleKeys { s.freeKv (Packet.fld p 16 2) (fun _ _ => true) with
      kv := { (s.freeKv (Packet.fld p 16 2) (fun _ _ => true)).kv with seqs := (s.freeKv (Packet.fld p 16 2) (fun _ _ => true)).kv.seqs.erase (Packet.fld p 16 2) } } := by
    simp only [State.destroySeq, hq, hpreempt, hresume, State.finishOpt]
  obtain ⟨hfreed, hzero⟩ := freeKv_spec hq (fun _ _ => true)
  rw [PagesFreed] at hfreed
  refine ⟨s.destroySeq (Packet.fld p 16 2), congrArg Host.Outcome.next (runPacket_seqDone htake hc heffect), ?_⟩
  rw [hdestroy]
  refine ⟨?_, ?_, fun kv hkv hstate i hi => hzero kv hkv rfl hstate i hi, ?_, ?_, ?_, ?_⟩
  · show Tab.erase (s.freeKv _ _).kv.seqs _ = _
    rw [hfreed]
    exact erase_update _ _ _
  · show (s.freeKv _ _).proto = _
    rw [hfreed]
    rfl
  · show (s.freeKv _ _).stores.core = _
    rw [hfreed]
    rfl
  · show (s.freeKv _ _).stores.region = _
    rw [hfreed]
    rfl
  · show (s.freeKv _ _).stores.host = _
    rw [hfreed]
    rfl
  · show (s.freeKv _ _).tiers.pages = _
    rw [hfreed]
    rfl

theorem swapPoolRegister_spec (htake : s.takes p 0x408 f c = true) (hc : poolChecks c p s = none) (hslots : 0 < Packet.fld p 32 4)
    (hfree : Packet.fld p 36 1 = 0xFF → ∃ k, k < 8 ∧ s.kv.pools.get? k = none) :
    ∃ k, (Packet.fld p 36 1 ≠ 0xFF → k = Packet.fld p 36 1) ∧ k < 8 ∧ s.kv.pools.get? k = none ∧ exec (.swapPoolRegister p) s =
      .next (State.okWith { s.bump with kv := { s.kv with pools := s.kv.pools.set k ⟨c.fn, Packet.fld p 16 8, Packet.fld p 24 8, Packet.fld p 32 4, []⟩ } } f (s.verOf p 0x408) k) := by
  have hchosen : ∃ k, (if Packet.fld p 36 1 = 0xFF then pickFree s.fresh 8 s.kv.pools.keys else some (Packet.fld p 36 1)) = some k ∧
      (Packet.fld p 36 1 ≠ 0xFF → k = Packet.fld p 36 1) ∧ k < 8 ∧ s.kv.pools.get? k = none := by
    by_cases hany : Packet.fld p 36 1 = 0xFF
    · obtain ⟨k, hk, hnone⟩ := hfree hany
      obtain ⟨x, hpick, hlt, hnot⟩ := pickFree_of_free (used := s.kv.pools.keys) s.fresh ⟨k, hk, Tab.not_mem_keys.2 hnone⟩
      exact ⟨x, by rw [if_pos hany, hpick], fun h => absurd hany h, hlt, Tab.not_mem_keys.1 hnot⟩
    · have hfields := (firstFail_none _).1 hc (_, St.badParam) (List.mem_of_getElem? (i := 0) rfl)
      have hbusy := (firstFail_none _).1 hc (_, St.busy) (List.mem_of_getElem? (i := 1) rfl)
      simp only [Bool.or_eq_false_iff, decide_eq_false_iff_not] at hfields
      refine ⟨_, if_neg hany, fun _ => rfl, by omega, ?_⟩
      simpa [hany, Tab.has] using hbusy
  obtain ⟨k, hk, hnamed, hlt, hnone⟩ := hchosen
  refine ⟨k, hnamed, hlt, hnone, congrArg Host.Outcome.next (runPacket_okWith htake hc ?_)⟩
  unfold poolEffect
  extract_lets n
  rw [if_neg (Nat.ne_of_gt hslots), show (if n = 0xFF then pickFree s.fresh 8 s.kv.pools.keys else some n) = some k from hk]
  rfl

end Create

/-! ### What keeps an operation on a sequence back (R191) -/

section Waits

variable {p : Packet} {s : State} {f : Flight} {q : Seq} {h : Nat}

/-- Where no other flight names the sequence, nothing keeps an operation on it back. -/
theorem seqWaits_alone (hothers : ∀ g ∈ s.proto.flights, g ≠ f → kvSeqOf g.opcode g.pkt ≠ some h) (alone : Bool) :
    s.seqWaits f.id h alone = false := by
  have hnone : s.proto.flights.any (fun g => g.aheadOn f.id h && (alone || barrier g.opcode)) = false := by
    rw [List.any_eq_false]
    intro g hg
    by_cases hid : g.id = f.id
    · simp [Flight.aheadOn, hid]
    · simp [Flight.aheadOn, hothers g hg (fun heq => hid (by rw [heq]))]
  rw [State.seqWaits, hnone, Bool.and_false]

theorem seqOpen_active (hstate : q.state = 1) (id : Nat) : ¬(!s.seqOpen id q) = true := by simp [State.seqOpen, hstate]

end Waits

/-! ### VERIFY_COMMIT (R192, R193) -/

section Verify

variable {p : Packet} {s : State} {f : Flight} {c : Caller} {q : Seq} {h : Nat}

/-- The accepted entries of the tail are committed, and every page wholly above goes. -/
theorem commitTail_spec (hq : s.seq? h = some q) (keep : Nat) : ∃ q', (s.commitTail h keep).seq? h = some q' ∧ q'.committed = q.committed + keep ∧ q'.tail = 0 ∧ q'.state = q.state ∧
    (∀ kv ∈ q'.pages, kv ∈ q.pages ∧ q.firstPos kv.1 < q.committed + keep) ∧ (∀ k, k ≠ h → (s.commitTail h keep).seq? k = s.seq? k) ∧
    (s.commitTail h keep).stores.core = s.stores.core ∧ (s.commitTail h keep).stores.region = s.stores.region ∧ (s.commitTail h keep).stores.host = s.stores.host := by
  let q1 : Seq := { q with committed := q.committed + keep, tail := 0 }
  let u := s.setSeq h (fun q => { q with committed := q.committed + keep, tail := 0 })
  have hu : u.seq? h = some q1 := seq?_setSeq hq (fun q => { q with committed := q.committed + keep, tail := 0 })
  have heq : s.commitTail h keep = u.freeKv h (fun k _ => decide (q1.committed ≤ q1.firstPos k)) := by
    have hu' : (s.setSeq h (fun q => { q with committed := q.committed + keep, tail := 0 })).seq? h = some q1 := hu
    simp only [State.commitTail, hu', u]
  obtain ⟨hfreed, -⟩ := freeKv_spec hu (fun k _ => decide (q1.committed ≤ q1.firstPos k))
  rw [← heq, PagesFreed] at hfreed
  have hseqs (k : Nat) : (s.commitTail h keep).seq? k = (u.setSeq h (fun q => { q with pages := q.pages.filter (fun x => !decide (q1.committed ≤ q1.firstPos x.1)) })).seq? k := by
    rw [State.seq?, hfreed]
    rfl
  refine ⟨_, (hseqs h).trans (seq?_setSeq hu _), rfl, rfl, rfl, fun kv hkv => ?_, fun k hk => (hseqs k).trans ((seq?_setSeq_ne hk _).trans (seq?_setSeq_ne hk _)), ?_, ?_, ?_⟩
  · obtain ⟨hmem, habove⟩ := List.mem_filter.1 hkv
    exact ⟨hmem, by simpa [q1, Seq.firstPos, Seq.tokens, Seq.hPage] using habove⟩
  all_goals
    rw [hfreed]
    rfl

/-- MODE 0: the count given is accepted. -/
theorem verifyEffect_count (hq : s.seq? (Packet.fld p 16 2) = some q) (hwaits : s.seqWaits f.id (Packet.fld p 16 2) true = false) (hmode : Packet.fld p 18 1 = 0)
    (ha : Packet.fld p 20 4 ≤ q.tail) (hstate : q.state = 1) (htail : 0 < q.tail) : verifyEffect f.id c p s =
      ((s.useSeq (Packet.fld p 16 2)).commitTail (Packet.fld p 16 2) (Packet.fld p 20 4), .done St.ok q.info (Packet.fld p 20 4 % 256 + 256 * (Packet.fld p 20 4 % 256))) := by
  have hwork : ¬(q.tail = 0 ∨ (Packet.fld p 18 1 = 1 ∧ Packet.fld p 25 1 = 0)) := by omega
  have hroom : ¬((Packet.fld p 18 1 = 0 ∧ q.tail < Packet.fld p 20 4) ∨ (Packet.fld p 18 1 = 1 ∧ q.tail < Packet.fld p 19 1 + Packet.fld p 25 1)) := by omega
  unfold verifyEffect
  extract_lets h mode ndr
  rw [show s.seq? h = some q from hq]
  dsimp only
  rw [if_neg (seqOpen_active hstate f.id), if_neg (Bool.eq_false_iff.1 (show s.seqWaits f.id h true = false from hwaits)),
    if_neg (show ¬(q.tail = 0 ∨ (mode = 1 ∧ ndr = 0)) from hwork),
    if_neg (show ¬((mode = 0 ∧ q.tail < Packet.fld p 20 4) ∨ (mode = 1 ∧ q.tail < Packet.fld p 19 1 + ndr)) from hroom), if_pos (show mode = 0 from hmode)]

/-- The operands of a VERIFY_COMMIT of MODE 1 can be used, on core `core` of partition `n`. -/
structure Verifiable (s : State) (p : Packet) (q : Seq) (n : Nat) (part : Partition) (core : Nat) (x y : Operand) : Prop where
  partition : s.partOf q.ctx = some (n, part)
  active : part.state = 1
  clean : s.stores.poison = []
  onCore : decide ((Packet.desc p 32).loc = 0 ∨ (Packet.desc p 80).loc = 0) = true → Packet.fld p 24 1 < part.inService ∧ s.coreHeld part.cls core = false
  place : (if decide ((Packet.desc p 32).loc = 0 ∨ (Packet.desc p 80).loc = 0) then part.coreAt (Packet.fld p 24 1) else some 0) = some core
  drafts : s.ahead.src q.ctx n part 1 (Packet.desc p 32) = .ok x
  targets : s.ahead.src q.ctx n part 1 (Packet.desc p 80) = .ok y
  draftsFit : s.srcFits q.ctx n part [1, 3] x [core] = true
  targetsFit : s.srcFits q.ctx n part [1, 3] y [core] = true
  draftsIn : s.windowWaits (Packet.desc p 32) (s.windowSpan (Packet.desc p 32)) = false
  targetsIn : s.windowWaits (Packet.desc p 80) (s.windowSpan (Packet.desc p 80)) = false

theorem poisonOf_none (hclean : s.stores.poison = []) (ctx : Nat) (cores : List Nat) (l : List (TDesc × Nat)) : s.poisonOf ctx cores l = none := by
  simp [State.poisonOf, State.poisonHit, hclean]

/-- MODE 1: the longest agreeing run of drafts is accepted. -/
theorem verifyEffect_agree {n core : Nat} {part : Partition} {x y : Operand} (hq : s.seq? (Packet.fld p 16 2) = some q) (hwaits : s.seqWaits f.id (Packet.fld p 16 2) true = false)
    (hmode : Packet.fld p 18 1 = 1) (hstate : q.state = 1) (htail : 0 < q.tail) (hdrafts : 0 < Packet.fld p 25 1) (hfits : Packet.fld p 19 1 + Packet.fld p 25 1 ≤ q.tail)
    (hv : Verifiable s p q n part core x y) : verifyEffect f.id c p s =
      (let drafts := (List.range (Packet.fld p 25 1)).map (fun i => x.at_ Arith.rne 1 core i 0 0 0)
       let targets := (List.range (Packet.fld p 25 1 + 1)).map (fun i => y.at_ Arith.rne 1 core i 0 0 0)
       let kept := Packet.fld p 19 1 + agree drafts targets
       ((s.useSeq (Packet.fld p 16 2)).commitTail (Packet.fld p 16 2) kept, .done St.ok q.info
        (agree drafts targets + 256 * kept + 2 ^ 32 * tokenOf (targets.getD (agree drafts targets) .nan)))) := by
  have hwork : ¬(q.tail = 0 ∨ (Packet.fld p 18 1 = 1 ∧ Packet.fld p 25 1 = 0)) := by omega
  have hroom : ¬((Packet.fld p 18 1 = 0 ∧ q.tail < Packet.fld p 20 4) ∨ (Packet.fld p 18 1 = 1 ∧ q.tail < Packet.fld p 19 1 + Packet.fld p 25 1)) := by omega
  unfold verifyEffect
  extract_lets h mode ndr a d t local_
  rw [show s.seq? h = some q from hq]
  dsimp only
  rw [if_neg (seqOpen_active hstate f.id), if_neg (Bool.eq_false_iff.1 (show s.seqWaits f.id h true = false from hwaits)),
    if_neg (show ¬(q.tail = 0 ∨ (mode = 1 ∧ ndr = 0)) from hwork),
    if_neg (show ¬((mode = 0 ∧ q.tail < Packet.fld p 20 4) ∨ (mode = 1 ∧ q.tail < Packet.fld p 19 1 + ndr)) from hroom),
    if_neg (show ¬mode = 0 by show ¬Packet.fld p 18 1 = 0; omega), hv.partition]
  dsimp only
  have hplace : ¬(local_ && decide (part.inService ≤ Packet.fld p 24 1)) = true := by
    rcases hl : local_
    · exact Bool.false_ne_true
    · simpa using (hv.onCore hl).1
  have hheld : (local_ && s.coreHeld part.cls core) = false := by
    rcases hl : local_
    · rfl
    · simpa using (hv.onCore hl).2
  rw [hv.active, if_neg (show ¬(1 : Nat) = 4 by decide), if_neg (show ¬(1 : Nat) ≠ 1 by decide), if_neg hplace,
    show s.ahead.src q.ctx n part 1 d = .ok x from hv.drafts, show s.ahead.src q.ctx n part 1 t = .ok y from hv.targets,
    show (if local_ = true then part.coreAt (Packet.fld p 24 1) else some 0) = some core from hv.place]
  dsimp only
  have hin : [d, t].any (fun e => s.windowWaits e (s.windowSpan e)) = false := by
    rw [List.any_cons, List.any_cons, show s.windowWaits d (s.windowSpan d) = false from hv.draftsIn, show s.windowWaits t (s.windowSpan t) = false from hv.targetsIn]
    rfl
  rw [hheld, hin, if_neg (show ¬(false || false) = true by decide), hv.draftsFit, hv.targetsFit, if_neg (show ¬(!(true && true)) = true by decide), poisonOf_none hv.clean]

end Verify

/-! ### SEQ_PREEMPT (R205 to R207) -/

section Preempt

variable {p : Packet} {s : State} {f : Flight} {c : Caller} {q : Seq} {h : Nat}

/-- A sequence that is being swapped out and has no page left is PREEMPTED, and the SEQ_PREEMPT that waits for it completes. -/
theorem swapDone_of_gone (hq : s.seq? h = some q) (hstate : q.state = 2) (hstarted : q.swapStarted = true) (hgone : ∀ kv ∈ q.pages, kv.2.state ≠ 1) :
    s.swapDone h = (s.setSeq h (fun q => { q with state := 3, preemptFlight := none, swapStarted := false })).finishOpt q.preemptFlight St.ok q.info 0 := by
  have hany : q.pages.any (fun x => decide (x.2.state = 1)) = false := List.any_eq_false.2 (fun x hx => by simpa using hgone x hx)
  simp only [State.swapDone, hq]
  rw [if_pos ⟨hstate, hstarted, by rw [hany]; rfl⟩]

/-- A sequence that is not being swapped out is left. -/
theorem swapDone_of_other (hq : s.seq? h = some q) (hstate : q.state ≠ 2) : s.swapDone h = s := by
  simp only [State.swapDone, hq]
  exact if_neg (fun hall => hstate hall.1)

/-- A completion that says so already says no more of a discarded tail. -/
theorem info_tailNote {p : Packet} (hq : s.kv.seqs.get? (Packet.fld p 16 2) = some q) (code : Nat) : q.info ||| s.tailNote code p = q.info := by
  rcases hdiscarded : q.tailDiscarded
  · simp [State.tailNote, hq, hdiscarded]
  · simp only [State.tailNote, hq, Seq.info, hdiscarded, if_true, true_and]
    by_cases hcode : 0x400 ≤ code ∧ code ≤ 0x407 ∧ code ≠ 0x402
    · rw [if_pos (decide_eq_true hcode)]
      split <;> rfl
    · rw [if_neg (by rw [decide_eq_false hcode]; exact Bool.false_ne_true)]
      rfl

/-- The swap-out of a victim whose resident pages all lie above what is committed is over at once. -/
theorem startSwap_of_empty (hq : s.seq? h = some q) (hstate : q.state = 2) (hstarted : q.swapStarted = false)
    (hidle : s.proto.flights.any (fun f => (f.running || f.waits) && decide (kvSeqOf f.opcode f.pkt = some h) && decide (f.opcode ≠ 0x406)) = false)
    (habove : ∀ kv ∈ q.pages, kv.2.state = 1 → q.committed ≤ q.firstPos kv.1) {id : Nat} (hflight : q.preemptFlight = some id) {g : Flight} (hg : s.flight? id = some g) (hnames : Packet.fld g.pkt 16 2 = h) :
    ∃ (q' : Seq) (fin : Finished), (s.startSwap h).seq? h = some q' ∧ q'.state = 3 ∧ q'.tail = 0 ∧ q'.committed = q.committed ∧
      q'.tailDiscarded = (q.tailDiscarded || decide (q.tail ≠ 0)) ∧ (∀ k, k ≠ h → (s.startSwap h).seq? k = s.seq? k) ∧
      (s.startSwap h).proto.finished = s.proto.finished ++ [fin] ∧ fin.flight = id ∧ fin.status = St.ok ∧ fin.info = q'.info := by
  let q1 : Seq := { q with tail := 0, tailDiscarded := q.tailDiscarded || decide (q.tail ≠ 0), swapStarted := true }
  let u := s.setSeq h (fun q => { q with tail := 0, tailDiscarded := q.tailDiscarded || decide (q.tail ≠ 0), swapStarted := true })
  have hu : u.seq? h = some q1 := seq?_setSeq hq (fun q => { q with tail := 0, tailDiscarded := q.tailDiscarded || decide (q.tail ≠ 0), swapStarted := true })
  let gone : Nat → KvPage → Bool := fun k x => decide (q.committed ≤ q.firstPos k) && decide (x.state = 1)
  let v := u.freeKv h gone
  let q2 : Seq := { q1 with pages := q.pages.filter (fun x => !gone x.1 x.2) }
  obtain ⟨hfreed, -⟩ := freeKv_spec hu gone
  have hv : PagesFreed (u.setSeq h (fun q => { q with pages := q.pages.filter (fun x => !gone x.1 x.2) })) v := hfreed
  rw [PagesFreed] at hv
  have hseqs (k : Nat) : v.seq? k = (u.setSeq h (fun q => { q with pages := q.pages.filter (fun x => !gone x.1 x.2) })).seq? k := by
    rw [State.seq?, hv]
    rfl
  have hv2 : v.seq? h = some q2 := (hseqs h).trans (seq?_setSeq hu _)
  have hothers (k : Nat) (hk : k ≠ h) : v.seq? k = s.seq? k := (hseqs k).trans ((seq?_setSeq_ne hk _).trans (seq?_setSeq_ne hk _))
  have hproto : v.proto = s.proto := by rw [hv]; rfl
  have hgone : ∀ kv ∈ q2.pages, kv.2.state ≠ 1 := by
    intro kv hkv hone
    obtain ⟨hmem, hstays⟩ := List.mem_filter.1 hkv
    simp [gone, hone, habove kv hmem hone] at hstays
  have heq : s.startSwap h = v.swapDone h := by
    simp only [State.startSwap, hq]
    rw [if_neg (by rw [hidle]; simp [hstate, hstarted])]
  let w := v.setSeq h (fun q => { q with state := 3, preemptFlight := none, swapStarted := false })
  let q3 : Seq := { q2 with state := 3, preemptFlight := none, swapStarted := false }
  have hw : w.seq? h = some q3 :=
    seq?_setSeq hv2 (fun q => { q with state := 3, preemptFlight := none, swapStarted := false })
  have hdone : v.swapDone h = w.finish id St.ok q2.info 0 := by
    rw [swapDone_of_gone hv2 hstate rfl hgone, show q2.preemptFlight = some id from hflight]
    rfl
  have hwg : w.flight? id = some g := by
    show v.proto.flights.find? _ = _
    rw [hproto]
    exact hg
  obtain ⟨a, ha⟩ := State.finishFull_eq hwg St.ok q2.info 0 none [] []
  rw [heq, hdone, State.finish, ha]
  refine ⟨q3, w.outcome g id St.ok q2.info 0 g.pkt.ver.toNat [] [], hw, rfl, rfl, rfl, rfl, fun k hk => (seq?_setSeq_ne hk _).trans (hothers k hk), ?_, rfl, rfl, ?_⟩
  · show v.proto.finished ++ _ = _
    rw [hproto]
    rfl
  · exact info_tailNote (q := q3) (by rw [hnames]; exact hw) g.opcode

/-- The sequence, used now and marked as a victim of the SEQ_PREEMPT that waits for it. -/
def victimised (s : State) (h id : Nat) : State :=
  (((s.useSeq h).setFlight id (fun f => { f with running := true, parked := false })).preempt h).setSeq h (fun q => { q with preemptFlight := some id })

/-- A victim of which no other flight is held back is only marked. -/
theorem victimised_eq (hothers : ∀ g ∈ s.proto.flights, g.id ≠ f.id → kvSeqOf g.opcode g.pkt ≠ some h) : victimised s h f.id =
    ((((s.useSeq h).setFlight f.id (fun f => { f with running := true, parked := false })).setSeq h (fun x => { x with state := 2 })).setSeq h
      (fun q => { q with preemptFlight := some f.id })) := by
  let u := ((s.useSeq h).setFlight f.id (fun f => { f with running := true, parked := false })).setSeq h (fun x => { x with state := 2 })
  have hnone : u.proto.flights.filter (heldOnSeq h) = [] := by
    refine List.filter_eq_nil_iff.2 (fun g hg => ?_)
    obtain ⟨y, hy, rfl⟩ := List.mem_map.1 hg
    by_cases hid : y.id = f.id
    · rw [if_pos hid]
      simp [heldOnSeq]
    · rw [if_neg hid]
      simp [heldOnSeq, hothers y hy hid]
  have hpreempt : ((s.useSeq h).setFlight f.id (fun f => { f with running := true, parked := false })).preempt h = u := by
    show (u.proto.flights.filter (heldOnSeq h)).foldl _ u = u
    rw [hnone]
    rfl
  rw [victimised, hpreempt]

theorem seqPreempt_spec (hq : s.seq? (Packet.fld p 16 2) = some q) (hone : ∀ g ∈ s.proto.flights, g.id = f.id → g = f)
    (hothers : ∀ g ∈ s.proto.flights, g ≠ f → kvSeqOf g.opcode g.pkt ≠ some (Packet.fld p 16 2)) (htake : s.takes p 0x406 f c = true) (hc : seqOpChecks c p s = none)
    (hswappable : q.swappable = true) (hstate : q.state = 1) (habove : ∀ kv ∈ q.pages, kv.2.state = 1 → q.committed ≤ q.firstPos kv.1) (hstarted : q.swapStarted = false) :
    ∃ (t : State) (q' : Seq) (fin : Finished), exec (.seqPreempt p) s = .next t ∧ t.seq? (Packet.fld p 16 2) = some q' ∧ q'.state = 3 ∧ q'.tail = 0 ∧ q'.committed = q.committed ∧
      q'.tailDiscarded = (q.tailDiscarded || decide (q.tail ≠ 0)) ∧ (∀ k, k ≠ Packet.fld p 16 2 → t.seq? k = s.seq? k) ∧
      t.proto.finished = s.proto.finished ++ [fin] ∧ fin.flight = f.id ∧ fin.status = St.ok ∧ fin.info = q'.info := by
  obtain ⟨-, hfetched, -, -, -⟩ := State.takes_iff.1 htake
  obtain ⟨hcode, hpkt, -, -⟩ := State.fetched_spec hfetched
  have hidle := victimised_eq (s := s) (f := f) (fun g hg hid => hothers g hg (fun heq => hid (by rw [heq])))
  let u := victimised s (Packet.fld p 16 2) f.id
  let q1 : Seq := { q with lastUse := s.sched.useCount, state := 2, preemptFlight := some f.id }
  have hu : u.seq? (Packet.fld p 16 2) = some q1 := by
    rw [show u = _ from hidle]
    exact seq?_setSeq (seq?_setSeq (q := { q with lastUse := s.sched.useCount }) (seq?_useSeq hq) _) _
  have hothers' (k : Nat) (hk : k ≠ Packet.fld p 16 2) : u.seq? k = s.seq? k := by
    rw [show u = _ from hidle]
    exact (seq?_setSeq_ne hk _).trans ((seq?_setSeq_ne hk _).trans (seq?_useSeq_ne hk))
  have hflights : u.proto.flights = s.proto.flights.map (fun g => if g.id = f.id then { g with running := true, parked := false } else g) := by
    rw [show u = _ from hidle]
    rfl
  have hflight : u.flight? f.id = some { f with running := true, parked := false } := by
    have hset := State.flight?_setFlight s f.id (fun g => { g with running := true, parked := false }) (fun _ => rfl)
    rw [State.flight?_of_fetched hfetched hone] at hset
    rw [State.flight?, hflights]
    exact hset
  have halone : u.proto.flights.any (fun g => (g.running || g.waits) && decide (kvSeqOf g.opcode g.pkt = some (Packet.fld p 16 2)) && decide (g.opcode ≠ 0x406)) = false := by
    rw [hflights, List.any_eq_false]
    intro g hg
    obtain ⟨y, hy, rfl⟩ := List.mem_map.1 hg
    by_cases hid : y.id = f.id
    · rw [if_pos hid, hone y hy hid]
      simp [hcode]
    · rw [if_neg hid]
      simp [hothers y hy (fun heq => hid (by rw [heq]))]
  obtain ⟨q', fin, hq', hstate', htail, hcommitted, hdiscarded, hrest, hfinished, hid, hst, hinfo⟩ :=
    startSwap_of_empty hu rfl hstarted halone habove rfl hflight (by rw [hpkt])
  have hover : (u.startSwap (Packet.fld p 16 2)).swapDone (Packet.fld p 16 2) = u.startSwap (Packet.fld p 16 2) := swapDone_of_other hq' (by rw [hstate']; decide)
  have heffect : seqPreemptEffect f.id c p s = (u.startSwap (Packet.fld p 16 2), .later) := by
    unfold seqPreemptEffect
    extract_lets h
    rw [show s.seq? h = some q from hq]
    dsimp only
    rw [hswappable, hstate, if_neg (show ¬(!true) = true by decide), if_neg (show ¬(1 : Nat) = 2 by decide), if_neg (Bool.eq_false_iff.1 (seqWaits_alone hothers true)),
      if_neg (show ¬(1 : Nat) = 3 by decide), if_pos rfl]
    exact congrArg (·, Reply.later) hover
  refine ⟨(u.startSwap (Packet.fld p 16 2)).setFlight f.id (fun f => { f with running := true, parked := false }), q', fin, congrArg Host.Outcome.next ((runPacket_checkedSeq htake hc).trans (by rw [heffect]; exact settleReply_later _ _ _)), hq', hstate', htail, hcommitted, hdiscarded,
    fun k hk => (hrest k hk).trans (hothers' k hk), ?_, hid, hst, hinfo⟩
  show (u.startSwap _).proto.finished = _
  rw [hfinished, show u = _ from hidle]
  rfl

end Preempt

/-! ### SEQ_RESUME (R208) -/

section Resume

variable {p : Packet} {s : State} {f : Flight} {c : Caller} {q : Seq}

theorem seqResume_spec (hq : s.seq? (Packet.fld p 16 2) = some q) (hothers : ∀ g ∈ s.proto.flights, g ≠ f → kvSeqOf g.opcode g.pkt ≠ some (Packet.fld p 16 2))
    (htake : s.takes p 0x407 f c = true) (hc : seqOpChecks c p s = none) (hstate : q.state = 3) (hpages : ∀ kv ∈ q.pages, kv.2.lost = false ∧ kv.2.state ≠ 2)
    (hceil : s.underCeiling q.ctx 0 = true) :
    ∃ (t : State) (q' : Seq), exec (.seqResume p) s = .next (t.ends f (s.verOf p 0x407) St.ok q.info 0) ∧ t.seq? (Packet.fld p 16 2) = some q' ∧ q'.state = 1 ∧
      q'.tailDiscarded = false ∧ q'.committed = q.committed ∧ q'.pages = q.pages ∧ (∀ k, k ≠ Packet.fld p 16 2 → t.seq? k = s.seq? k) ∧ t.stores = s.stores := by
  have hlost : q.pages.any (fun x => x.2.lost) = false := List.any_eq_false.2 (fun x hx => by rw [(hpages x hx).1]; exact Bool.false_ne_true)
  have hswapped : q.pages.filter (fun x => decide (x.2.state = 2)) = [] := List.filter_eq_nil_iff.2 (fun x hx => by simpa using (hpages x hx).2)
  let u : State := { s.useSeq (Packet.fld p 16 2) with fresh := s.fresh + 0 }
  have hu : u.seq? (Packet.fld p 16 2) = some { q with lastUse := s.sched.useCount } := seq?_useSeq hq
  have heffect : seqResumeEffect f.id c p s = (u.setSeq (Packet.fld p 16 2) (fun q => { q with state := 1, tailDiscarded := false }), .done St.ok q.info 0) := by
    unfold seqResumeEffect
    extract_lets h
    have hwaits : s.seqWaits f.id h false = false := seqWaits_alone hothers false
    rw [show s.seq? h = some q from hq]
    dsimp only
    rw [if_neg (fun hne => hne.1 hstate), if_neg (Bool.eq_false_iff.1 hwaits), if_neg (Bool.eq_false_iff.1 hlost), hswapped, List.length_nil, hceil,
      if_neg (show ¬(!true) = true by decide)]
    rfl
  exact ⟨_, _, congrArg Host.Outcome.next (runPacket_seqDone htake hc heffect), seq?_setSeq hu _, rfl, rfl, rfl, rfl,
    fun k hk => (seq?_setSeq_ne hk _).trans (seq?_useSeq_ne hk), rfl⟩

end Resume

/-- Settles O36. -/
theorem sequences : Obligations.Sequences := by
  unfold Obligations.Sequences
  refine ⟨fun p s f c => ⟨ptCreate_spec, fun q htake hc hq hpreempt hresume hwaits => ptDestroy_spec htake hc hq hpreempt hresume hwaits, swapPoolRegister_spec⟩, ?_⟩
  intro p s f c q hq hone hothers h a
  refine ⟨fun htake hc hmode ha hstate htail => ?_, ?_, fun htake hc hswappable hstate habove hstarted => seqPreempt_spec hq hone hothers htake hc hswappable hstate habove hstarted,
    fun htake hc hstate hpages hceil => seqResume_spec hq hothers htake hc hstate hpages hceil⟩
  · have hrun := runPacket_seqDone htake hc (verifyEffect_count (c := c) hq (seqWaits_alone hothers true) hmode ha hstate htail)
    obtain ⟨q', hq', hcommitted, htail', hstate', hpages, hrest, hcore, hregion, hhost⟩ := commitTail_spec (seq?_useSeq hq) a
    exact ⟨_, q', congrArg Host.Outcome.next hrun, hq', hcommitted, htail', hstate'.trans hstate, hpages, fun k hk => (hrest k hk).trans (seq?_useSeq_ne hk), hcore, hregion, hhost⟩
  · intro n part x y core htake hc hmode hstate htail hdrafts hfits hpart hactive hclean at_ honcore hplace hx hy hxfit hyfit hxin hyin
    exact congrArg Host.Outcome.next (runPacket_seqDone htake hc (verifyEffect_agree (c := c) hq (seqWaits_alone hothers true) hmode hstate htail hdrafts hfits
      ⟨hpart, hactive, hclean, honcore, hplace, hx, hy, hxfit, hyfit, hxin, hyin⟩))

end Sys2Proof.Proofs.Sequences

/-! PROOFS. KV_APPEND, ATTENTION and ATTENTION_BACKWARD: their placement on cores (07_attention_kv, 05_core_engines). -/

namespace Sys2Proof.Proofs.Sequences

open Sys2Proof Sys2Proof.Machine Sys2Proof.Proofs.Cores

/-! ### Writes that descriptors carry (R140) -/

section Carry

variable (pick : Nat × Desc → Bool)

/-- Descriptors with their writes: the picked ones take the parts in order. -/
def carried : List (List Wr) → List (Nat × Desc) → List (Nat × Desc)
  | _, [] => []
  | parts, d :: r => if pick d then (d.1, d.2.carrying d.1 (parts.headD [])) :: carried parts.tail r else d :: carried parts r

theorem carry_eq (ws : List Wr) (l : List (Nat × Desc)) : carry pick ws l = carried pick (dealWrites ((l.filter pick).map (fun d => d.2.length)) ws) l := by
  have hfold : ∀ (l : List (Nat × Desc)) (parts : List (List Wr)) (acc : List (Nat × Desc)), (l.foldl (fun (a : List (Nat × Desc) × List (List Wr)) d =>
      if pick d then (a.1 ++ [(d.1, d.2.carrying d.1 (a.2.headD []))], a.2.tail) else (a.1 ++ [d], a.2)) (acc, parts)).1 = acc ++ carried pick parts l := by
    intro l
    induction l with
    | nil => exact fun _ acc => (List.append_nil acc).symm
    | cons d r ih =>
      intro parts acc
      by_cases h : pick d = true
      · simp only [List.foldl_cons, carried, h, if_true]
        rw [ih, List.append_assoc, List.singleton_append]
      · simp only [List.foldl_cons, carried, h, Bool.false_eq_true, if_false]
        rw [ih, List.append_assoc, List.singleton_append]
  exact (hfold l _ []).trans (List.nil_append _)

/-- What carrying leaves of a descriptor: its core, owner, operation and remote store. -/
def descKey (d : Nat × Desc) : Nat × Owner × Nat × Nat := (d.1, d.2.owner, d.2.op, d.2.rloc)

theorem carried_keys (l : List (Nat × Desc)) : ∀ parts, (carried pick parts l).map descKey = l.map descKey := by
  induction l with
  | nil => exact fun _ => rfl
  | cons d r ih =>
    intro parts
    by_cases h : pick d = true
    · simp only [carried, h, if_true, List.map_cons, ih]
      rfl
    · simp only [carried, h, Bool.false_eq_true, if_false, List.map_cons, ih]

/-- Every part goes to a picked descriptor, as long as there are enough of them. -/
theorem mem_carried {w : Wr} (l : List (Nat × Desc)) : ∀ parts : List (List Wr), w ∈ parts.flatten → parts.length ≤ (l.filter pick).length → ∃ d ∈ carried pick parts l, w ∈ d.2.writes := by
  induction l with
  | nil =>
    intro parts hw hlen
    rw [List.eq_nil_of_length_eq_zero (Nat.le_zero.1 hlen)] at hw
    exact absurd hw List.not_mem_nil
  | cons d r ih =>
    intro parts hw hlen
    by_cases h : pick d = true
    · simp only [carried, h, if_true]
      rcases parts with _ | ⟨a, parts⟩
      · exact absurd hw List.not_mem_nil
      · rcases List.mem_append.1 hw with ha | hrest
        · exact ⟨_, List.mem_cons_self, List.mem_append_right _ ha⟩
        · obtain ⟨y, hy, hwy⟩ := ih parts hrest (by simp [h] at hlen; exact hlen)
          exact ⟨y, List.mem_cons_of_mem _ hy, hwy⟩
    · simp only [carried, h, Bool.false_eq_true, if_false]
      obtain ⟨y, hy, hwy⟩ := ih parts hw (by simpa [h] using hlen)
      exact ⟨y, List.mem_cons_of_mem _ hy, hwy⟩

theorem dealWrites_spec (sizes : List Nat) : ∀ ws : List Wr, (dealWrites sizes ws).length = sizes.length ∧ (sizes ≠ [] → (dealWrites sizes ws).flatten = ws) := by
  induction sizes with
  | nil => exact fun _ => ⟨rfl, fun h => absurd rfl h⟩
  | cons n r ih =>
    intro ws
    rcases r with _ | ⟨m, r⟩
    · exact ⟨rfl, fun _ => by simp [dealWrites]⟩
    · obtain ⟨hlen, hflat⟩ := ih (ws.drop (ws.foldl (fun (a : Nat × Nat) w => if n ≤ a.2 then a else (a.1 + 1, a.2 + w.bytes.length)) (0, 0)).1)
      refine ⟨by simp only [dealWrites, List.length_cons] at hlen ⊢; rw [hlen], fun _ => ?_⟩
      simp only [dealWrites, List.flatten_cons]
      rw [hflat (List.cons_ne_nil _ _), List.take_append_drop]

/-- Writes given to the picked descriptors are all carried. -/
theorem mem_carry {ws : List Wr} {l : List (Nat × Desc)} {w : Wr} (hw : w ∈ ws) (hpick : ∃ d ∈ l, pick d = true) : ∃ d ∈ carry pick ws l, w ∈ d.2.writes := by
  obtain ⟨d, hd, hp⟩ := hpick
  have hne : (l.filter pick).map (fun d => d.2.length) ≠ [] := List.ne_nil_of_mem (List.mem_map_of_mem (List.mem_filter.2 ⟨hd, hp⟩))
  obtain ⟨hlen, hflat⟩ := dealWrites_spec ((l.filter pick).map (fun d => d.2.length)) ws
  rw [carry_eq]
  exact mem_carried pick l _ (by rw [hflat hne]; exact hw) (by rw [hlen, List.length_map])

theorem carry_keys (ws : List Wr) (l : List (Nat × Desc)) : (carry pick ws l).map descKey = l.map descKey := by
  rw [carry_eq]
  exact carried_keys pick l _

end Carry

theorem sends_of_key {d d' : Nat × Desc} (h : descKey d' = descKey d) : d'.2.sends = d.2.sends := by
  simp only [descKey, Prod.mk.injEq] at h
  simp only [Desc.sends, Desc.outgoing, h.2.2.1, h.2.2.2]

theorem exists_of_keys {l m : List (Nat × Desc)} (h : l.map descKey = m.map descKey) {d : Nat × Desc} (hd : d ∈ l) : ∃ d' ∈ m, descKey d' = descKey d := by
  have := List.mem_map_of_mem (f := descKey) hd
  rw [h] at this
  exact List.mem_map.1 this

/-- The descriptors of an operation that bring bytes in, once the writes to cores without an engine are dealt. -/
def inDealt (w : Work) : List (Nat × Desc) :=
  (((w.descs.filter (fun d => !d.2.outgoing)).map (·.1)).eraseDups.filter (fun c => !(((w.slots.filter (fun x => x.2.engine.isSome)).map (·.1)).eraseDups).contains c)).foldl
    (fun l c => carry (fun d => decide (d.1 = c) && !d.2.outgoing) (w.core.filter (fun z => z.onCore c)) l) w.descs

theorem inDealt_keys (w : Work) : (inDealt w).map descKey = w.descs.map descKey :=
  foldl_keeps (fun l => l.map descKey = w.descs.map descKey) _ _ _ rfl (fun l _ h => (carry_keys _ _ l).trans h)

/-- Where some descriptor takes bytes out, those take the later writes. -/
theorem dealt_descs (w : Work) (h : w.descs.any (fun d => d.2.sends) = true) : w.dealt.descs = carry (fun d => d.2.sends) w.later (inDealt w) := by
  unfold Work.dealt
  exact if_pos h

/-- Every later write goes to a descriptor that takes bytes out, on its core and of its owner. -/
theorem dealt_later_carried {w : Work} {x : Wr} (hx : x ∈ w.later) (h : ∃ d ∈ w.descs, d.2.sends = true) : ∃ d ∈ w.dealt.descs, x ∈ d.2.writes ∧ ∃ d' ∈ w.descs, descKey d' = descKey d := by
  obtain ⟨d, hd, hsends⟩ := h
  obtain ⟨d', hd', hkey⟩ := exists_of_keys (inDealt_keys w).symm hd
  rw [dealt_descs w (List.any_eq_true.2 ⟨d, hd, hsends⟩)]
  obtain ⟨y, hy, hxy⟩ := mem_carry (fun d : Nat × Desc => d.2.sends) hx ⟨d', hd', (sends_of_key hkey).trans hsends⟩
  exact ⟨y, hy, hxy, exists_of_keys ((carry_keys _ _ _).trans (inDealt_keys w)) hy⟩

/-! ### Descriptors of operands -/

theorem descs_owner {o : Owner} {op rloc remote n at_ : Nat} {d : Desc} (h : d ∈ descs o op rloc remote n at_) : d.owner = o ∧ d.op = op ∧ d.rloc = rloc := by
  obtain ⟨i, -, rfl⟩ := List.mem_map.1 h
  exact ⟨rfl, rfl, rfl⟩

theorem descs_ne_nil {n : Nat} (hn : 0 < n) (o : Owner) (op rloc remote at_ : Nat) : ∃ d, d ∈ descs o op rloc remote n at_ := by
  have : 0 < ceilDiv n 262144 := by
    rw [ceilDiv]
    omega
  exact ⟨_, List.mem_map_of_mem (List.mem_range.2 this)⟩

theorem fetchDescs_owner {s : State} {o : Owner} {op off n at_ : Nat} {t : TDesc} {d : Desc} (h : d ∈ s.fetchDescs o op t off n at_) : d.owner = o := by
  obtain ⟨⟨i, y⟩, hy, rfl⟩ := List.mem_map.1 h
  have hall : ∀ (l : List (Nat × Nat × Nat)) (a : List Desc × Nat), (∀ d ∈ a.1, d.owner = o) →
      ∀ d ∈ (l.foldl (fun a r => (a.1 ++ descs o op r.1 r.2.1 r.2.2 (at_ + a.2), a.2 + r.2.2)) a).1, d.owner = o := by
    intro l
    induction l with
    | nil => exact fun _ h => h
    | cons r l ih =>
      refine fun a ha => ih _ (fun d hd => ?_)
      rcases List.mem_append.1 hd with hd | hd
      · exact ha d hd
      · exact (descs_owner hd).1
  exact hall _ _ (fun d hd => absurd hd List.not_mem_nil) y (List.of_mem_zip hy).2

theorem readDescs_owner {s : State} {o : Owner} {n c j at_ : Nat} {t : TDesc} {d : Desc} (h : d ∈ s.readDescs o t n c j at_) : d.owner = o := by
  unfold State.readDescs at h
  split at h
  · exact absurd h List.not_mem_nil
  · exact fetchDescs_owner h

/-! ### KV_APPEND (R189, R190) -/

section Append

variable {s : State} {p : Packet} {f : Flight} {c : Caller} {q : Seq} {id ctx part core h : Nat} {k v : Operand}

/-- What a KV_APPEND writes: its keys and its values. -/
def appendWrites (q : Seq) (p : Packet) (k v : Operand) (core : Nat) : List Wr :=
  (q.kvWrites false (Packet.fld p 18 2) (Packet.fld p 20 4) k core (Arith.of (Packet.fld p 29 1) 0)).1 ++
  (q.kvWrites true (Packet.fld p 18 2) (Packet.fld p 20 4) v core (Arith.of (Packet.fld p 29 1) 0)).1

/-- Bytes that a KV_APPEND takes to tier 2. -/
def appendBytes (q : Seq) (k : Operand) : Nat := 2 * k.desc.count * kvBytes q.fmt

/-- The work of a KV_APPEND on its core. -/
def appendPlan (s : State) (id part core : Nat) (q : Seq) (p : Packet) (k v : Operand) : Work :=
  let ar := Arith.of (Packet.fld p 29 1) 0
  let exts := [(k.desc, k.need 1 [core]), (v.desc, v.need 1 [core])]
  { status := St.ok, info := 0, result := 0
    exc := (q.kvWrites false (Packet.fld p 18 2) (Packet.fld p 20 4) k core ar).2 ||| (q.kvWrites true (Packet.fld p 18 2) (Packet.fld p 20 4) v core ar).2
    core := [], later := appendWrites q p k v core, host := []
    slots := [(core, opSlot (.flight id) .vector ((exts.map (fun x => x.1.walkers)).flatten) (ceilDiv (2 * k.desc.count) 64 + 12)
      ((exts.filter (fun x => decide (x.1.loc = 0))).map (fun x => (x.1.off, x.1.off + x.2, false))) part)]
    descs := ((exts.map (fun x => s.readDescs (.flight id) x.1 x.2 1 0)).flatten ++ descs (.flight id) 2 2 0 (appendBytes q k)).map (fun d => (core, d))
    holds := k.holds ++ v.holds
    traffic := (exts.map (fun x => traffic (s.pathLoc x.1) x.2 false)).foldl Traffic.add ⟨0, 0, appendBytes q k, 0⟩ }

/-- Where no line is poisoned, the append is placed and its end moves C or T. -/
theorem appendWork_eq (hq : s.seq? h = some q) (hclean : s.stores.poison = []) : s.appendWork id ctx part core h p k v =
    (s.begin_ (.flight id) part (appendPlan s id part core q p k v).dealt, .late none (appendPlan s id part core q p k v).dealt.later) := by
  have hpoison := poisonOf_none hclean ctx [core] [(k.desc, k.need 1 [core]), (v.desc, v.need 1 [core])]
  simp only [State.appendWork, hq, hpoison, Work.spoilIf]
  rfl

theorem appendPlan_descs {d : Nat × Desc} (hd : d ∈ (appendPlan s id part core q p k v).descs) : d.1 = core ∧ d.2.owner = .flight id := by
  obtain ⟨y, hy, rfl⟩ := List.mem_map.1 hd
  refine ⟨rfl, ?_⟩
  rcases List.mem_append.1 hy with hy | hy
  · obtain ⟨l, hl, hy⟩ := List.mem_flatten.1 hy
    obtain ⟨x, -, rfl⟩ := List.mem_map.1 hl
    exact readDescs_owner hy
  · exact (descs_owner hy).1

theorem appendPlan_sends (hn : 0 < appendBytes q k) : ∃ d ∈ (appendPlan s id part core q p k v).descs, d.2.sends = true := by
  obtain ⟨d, hd⟩ := descs_ne_nil hn (.flight id) 2 2 0 0
  obtain ⟨-, hop, hloc⟩ := descs_owner hd
  exact ⟨(core, d), List.mem_map_of_mem (List.mem_append_right _ hd), by simp [Desc.sends, Desc.outgoing, hop, hloc]⟩

/-- A placed append: a slot of the vector engine and descriptors that carry every write; nothing is stored yet. -/
theorem appendPlan_placed (hn : 0 < appendBytes q k) :
    let t := s.begin_ (.flight id) part (appendPlan s id part core q p k v).dealt
    (∃ x ∈ opsOn t core, x.owner = .flight id ∧ x.engine = some .vector) ∧
    (∀ w ∈ appendWrites q p k v core, ∃ d ∈ descsOn t core, d.owner = .flight id ∧ w ∈ d.writes) ∧ t.stores = s.stores := by
  obtain ⟨hops, hdescs, hstores, -⟩ := begin_spec s (.flight id) part (appendPlan s id part core q p k v).dealt
  refine ⟨?_, fun w hw => ?_, ?_⟩
  · have hslot : ∃ x ∈ (appendPlan s id part core q p k v).dealt.slots, x.1 = core ∧ x.2.owner = .flight id ∧ x.2.engine = some .vector :=
      ⟨_, List.mem_cons_self, rfl, rfl, rfl⟩
    obtain ⟨x, hx, hcore, howner, hengine⟩ := hslot
    refine ⟨{ x.2 with tag := s.fresh }, ?_, howner, hengine⟩
    rw [hops]
    exact List.mem_append_right _ (List.mem_map.2 ⟨x, List.mem_filter.2 ⟨hx, by simpa using hcore⟩, rfl⟩)
  · obtain ⟨d, hd, hwd, d', hd', hkey⟩ := dealt_later_carried (w := appendPlan s id part core q p k v) hw (appendPlan_sends hn)
    obtain ⟨hcore, howner⟩ := appendPlan_descs hd'
    simp only [descKey, Prod.mk.injEq] at hkey
    refine ⟨{ d.2 with tag := s.fresh }, ?_, hkey.2.1.symm.trans howner, hwd⟩
    rw [hdescs]
    exact List.mem_append_right _ (List.mem_map.2 ⟨d, List.mem_filter.2 ⟨hd, by simpa using hkey.1.symm.trans hcore⟩, rfl⟩)
  · rw [hstores rfl]
    rfl

/-- A resolved source is the operand that was named. -/
theorem source_desc {s : State} {ctx p n : Nat} {part : Partition} {t : TDesc} {o : Operand} (h : s.source ctx p part t n = .ok o) : o.desc = t := by
  unfold State.source at h
  split at h
  · cases h
  split at h
  · split at h <;> cases h
    rfl
  split at h
  · split at h
    · cases h
    · split at h <;> cases h
      rfl
  split at h
  · repeat' split at h
    all_goals cases h
    rfl
  rcases hviews : s.views ctx t with e | vs
  · simp only [hviews] at h
    cases h
  · rcases hslot : vs.head?.bind (fun b => s.ingest.slots.get? b.1) with _ | x
    all_goals
      simp only [hviews, hslot] at h
      split at h
      · split at h <;> cases h
        rfl
      · cases h

theorem src_desc {s : State} {ctx p kind : Nat} {part : Partition} {t : TDesc} {o : Operand} (h : s.src ctx p part kind t = .ok o) : o.desc = t := source_desc h

theorem appendBytes_pos (hk : k.desc.isEmpty = false) : 0 < appendBytes q k := by
  simp only [TDesc.isEmpty, decide_eq_false_iff_not, not_or] at hk
  obtain ⟨h0, h1, h2, h3⟩ := hk
  have hcount : 0 < k.desc.count := by
    simp only [TDesc.count]
    positivity
  have hbytes : 0 < kvBytes q.fmt := by
    unfold kvBytes
    split <;> decide
  unfold appendBytes
  positivity

/-- Placing an operation that met no error leaves the protocol engine and the sequences. -/
theorem begin_keeps {w : Work} (o : Owner) (n : Nat) (hmet : w.met = none) : (s.begin_ o n w).proto = s.proto ∧ (s.begin_ o n w).kv = s.kv := by
  have hkeep : ∀ t : State, t.proto = s.proto ∧ t.kv = s.kv → (t.beginWork o n w).proto = s.proto ∧ (t.beginWork o n w).kv = s.kv := by
    intro t ht
    let s1 := (t.apply w.core).hold o w.holds
    have h1 : IngestOnly (t.apply w.core) s1 := hold_ingest _ o w.holds
    have h2 := (placeSlots_spec 0 w.slots s1).1
    have h3 := (placeDescs_spec 0 w.descs (w.slots.foldl (fun s x => s.placeSlot x.1 { x.2 with tag := s.fresh }) s1)).1
    have hcores := h2.trans h3
    have hs3 : (w.descs.foldl (fun s x => s.placeDesc x.1 { x.2 with tag := s.fresh }) (w.slots.foldl (fun s x => s.placeSlot x.1 { x.2 with tag := s.fresh }) s1)).proto = s.proto ∧
        (w.descs.foldl (fun s x => s.placeDesc x.1 { x.2 with tag := s.fresh }) (w.slots.foldl (fun s x => s.placeSlot x.1 { x.2 with tag := s.fresh }) s1)).kv = s.kv := by
      rw [hcores, h1]
      exact ht
    unfold State.beginWork
    rw [hmet]
    rcases w.chan with _ | c
    · exact hs3
    · exact hs3
  exact hkeep s ⟨rfl, rfl⟩

/-- What a KV_APPEND of the packet meets on its running partition, when nothing keeps it back. -/
structure Appendable (s : State) (p : Packet) (id : Nat) (q : Seq) (n : Nat) (part : Partition) (core : Nat) (ko vo : Operand) : Prop where
  seq : s.seq? (Packet.fld p 16 2) = some q
  partition : s.partOf (Packet.ctxNo p) = some (n, part)
  open_ : q.state = 1
  active : part.state = 1
  tier2 : s.t2Refused n part = false
  alone : s.seqWaits id (Packet.fld p 16 2) false = false
  layer : Packet.fld p 18 2 < q.layers
  dim : (Packet.desc p 32).d0 = q.headDim
  heads : (Packet.desc p 32).d2 = q.kvHeads
  slot : Packet.fld p 30 1 < part.inService
  core : part.coreAt (Packet.fld p 30 1) = some core
  position : appendPosition q (bit (Packet.fld p 28 1) 0) (Packet.fld p 20 4) (Packet.desc p 32).d1 = none
  keys : s.ahead.src (Packet.ctxNo p) n part 1 (Packet.desc p 32) = .ok ko
  values : s.ahead.src (Packet.ctxNo p) n part 1 (Packet.desc p 80) = .ok vo

/-- The pages that a KV_APPEND writes and that its sequence lacks. -/
def lacking (q : Seq) (p : Packet) : List (Nat × Nat) := q.missing (Packet.fld p 18 2) (Packet.fld p 20 4) (Packet.desc p 32).d1

/-- What a KV_APPEND does once its sequence is open, its partition runs and its operands are there. -/
def appendOpened (s : State) (p : Packet) (id : Nat) (q : Seq) (n : Nat) (part : Partition) (core : Nat) (ko vo : Operand) : State × Reply :=
  if (Packet.desc p 32).isEmpty then (s, .done St.ok (Inf.zeroWork ||| q.info) q.ct)
  else if s.coreHeld part.cls core || [Packet.desc p 32, Packet.desc p 80].any (fun t => s.windowWaits t (s.windowSpan t)) then (s, .parkWork)
  else if !(s.srcFits (Packet.ctxNo p) n part [1, 3] ko [core] && s.srcFits (Packet.ctxNo p) n part [1, 3] vo [core]) then (s, .done St.badParam q.info 0)
  else if !s.underCeiling q.ctx (lacking q p).length then (s, .done St.outOfTier2 q.info q.ct)
  else match s.provide id q.prio (some (Packet.fld p 16 2)) (sumHalves ((lacking q p).map (fun x => halvesOf x.2 1))) with
    | .never => (s, .done St.outOfTier2 q.info q.ct)
    | .wait t => if q.state = 2 then (s, .done St.busy q.info q.state) else (t, .parkPages)
    | .ready t => ((t.addKvPages (Packet.fld p 16 2) (lacking q p)).useSeq (Packet.fld p 16 2)).appendWork id (Packet.ctxNo p) n core (Packet.fld p 16 2) p ko vo

theorem kvAppendEffect_opened {n : Nat} {part : Partition} {ko vo : Operand} (h : Appendable s p f.id q n part core ko vo) :
    kvAppendEffect f.id c p s = appendOpened s p f.id q n part core ko vo := by
  have hfields : (decide (q.layers ≤ Packet.fld p 18 2) || decide ((Packet.desc p 32).d0 ≠ q.headDim ∨ (Packet.desc p 32).d2 ≠ q.kvHeads) ||
      decide (part.inService ≤ Packet.fld p 30 1)) = false := by
    simp [h.dim, h.heads, Nat.not_le.2 h.layer, Nat.not_le.2 h.slot]
  unfold kvAppendEffect
  extract_lets x k v
  rw [show s.seq? x = some q from h.seq, h.partition]
  dsimp only
  rw [if_neg (Bool.eq_false_iff.1 hfields), if_neg (seqOpen_active h.open_ f.id), h.active, if_neg (show ¬(1 : Nat) = 4 by decide), if_neg (show ¬(1 : Nat) ≠ 1 by decide),
    if_neg (Bool.eq_false_iff.1 h.tier2), if_neg (Bool.eq_false_iff.1 (show s.seqWaits f.id x false = false from h.alone)),
    show appendPosition q (bit (Packet.fld p 28 1) 0) (Packet.fld p 20 4) k.d1 = none from h.position,
    show s.ahead.src (Packet.ctxNo p) n part 1 k = .ok ko from h.keys, show s.ahead.src (Packet.ctxNo p) n part 1 v = .ok vo from h.values, h.core]
  rfl

/-- Nothing on the core and in the operands' windows makes the append wait, and its pages may be asked for. -/
structure AppendGoes (s : State) (p : Packet) (q : Seq) (n : Nat) (part : Partition) (core : Nat) (ko vo : Operand) : Prop where
  some : (Packet.desc p 32).isEmpty = false
  free : s.coreHeld part.cls core = false
  keysFit : s.srcFits (Packet.ctxNo p) n part [1, 3] ko [core] = true
  valuesFit : s.srcFits (Packet.ctxNo p) n part [1, 3] vo [core] = true
  keysIn : s.windowWaits (Packet.desc p 32) (s.windowSpan (Packet.desc p 32)) = false
  valuesIn : s.windowWaits (Packet.desc p 80) (s.windowSpan (Packet.desc p 80)) = false

theorem appendOpened_ready {n : Nat} {part : Partition} {ko vo : Operand} (h : AppendGoes s p q n part core ko vo) (hceil : s.underCeiling q.ctx (lacking q p).length = true) {u : State}
    (hprovide : s.provide id q.prio (some (Packet.fld p 16 2)) (sumHalves ((lacking q p).map (fun x => halvesOf x.2 1))) = .ready u) : appendOpened s p id q n part core ko vo =
      ((u.addKvPages (Packet.fld p 16 2) (lacking q p)).useSeq (Packet.fld p 16 2)).appendWork id (Packet.ctxNo p) n core (Packet.fld p 16 2) p ko vo := by
  unfold appendOpened
  rw [if_neg (Bool.eq_false_iff.1 h.some), h.free, h.keysFit, h.valuesFit, List.any_cons, List.any_cons, List.any_nil, h.keysIn, h.valuesIn,
    if_neg (show ¬(false || (false || (false || false))) = true by decide), if_neg (show ¬(!(true && true)) = true by decide), hceil,
    if_neg (show ¬(!true) = true by decide), hprovide]

/-- A flight that stays until its append ends: it is marked so, and nothing else of the state changes. -/
theorem settleReply_late {t : State} (h : t.flight? f.id = some f) (ver : Nat) (ws : List Wr) : ∃ (u : State) (g : Flight), t.settleReply f.id ver (.late none ws) = u ∧
    u.flight? f.id = some g ∧ g.running = true ∧ g.placed = true ∧ g.late = true ∧ u.kv = t.kv ∧ u.cores = t.cores ∧ u.stores = t.stores ∧ u.proto.finished = t.proto.finished := by
  let mark : Flight → Flight := fun g => { g with running := true, parked := false, placed := true, late := true, deadline := none, writes := ws, dispatchTime := t.clock.now }
  refine ⟨t.setFlight f.id mark, mark f, rfl, ?_, rfl, rfl, rfl, rfl, rfl, rfl, rfl⟩
  rw [State.flight?_setFlight t f.id mark (fun _ => rfl), h]
  rfl

theorem opsOn_of_cores {s t : State} (h : t.cores = s.cores) (k : Nat) : opsOn t k = opsOn s k := by rw [opsOn, opsOn, State.core, State.core, h]

theorem descsOn_of_cores {s t : State} (h : t.cores = s.cores) (k : Nat) : descsOn t k = descsOn s k := by rw [descsOn, descsOn, State.core, State.core, h]

/-- A KV_APPEND into pages that are there: it stays in flight with its operation on its core. -/
theorem kvAppend_placed {n : Nat} {part : Partition} {ko vo : Operand} (htake : s.takes p 0x404 f c = true) (hc : kvAppendChecks c p s = none) (hflight : s.flight? f.id = some f)
    (hclean : s.stores.poison = []) (h : Appendable s p f.id q n part core ko vo) (hgoes : AppendGoes s p q n part core ko vo) (hnone : lacking q p = [])
    (hceil : s.underCeiling q.ctx 0 = true) :
    ∃ (t : State) (g : Flight) (q' : Seq), exec (.kvAppend p) s = .next t ∧ t.flight? f.id = some g ∧ g.running = true ∧ g.placed = true ∧ g.late = true ∧
      t.seq? (Packet.fld p 16 2) = some q' ∧ q'.pages = q.pages ∧ (∃ x ∈ opsOn t core, x.owner = .flight f.id ∧ x.engine = some .vector) ∧
      (∀ w ∈ appendWrites q' p ko vo core, ∃ d ∈ descsOn t core, d.owner = .flight f.id ∧ w ∈ d.writes) ∧ t.stores = s.stores ∧ t.proto.finished = s.proto.finished := by
  let u := (s.addKvPages (Packet.fld p 16 2) []).useSeq (Packet.fld p 16 2)
  let q' : Seq := { q with lastUse := s.sched.useCount }
  have hu : u.seq? (Packet.fld p 16 2) = some q' := seq?_useSeq (s := s.addKvPages (Packet.fld p 16 2) []) (seq?_setSeq h.seq _)
  let w := appendPlan u f.id n core q' p ko vo
  let t := u.begin_ (.flight f.id) n w.dealt
  have heffect : kvAppendEffect f.id c p s = (t, .late none w.dealt.later) := by
    have hprovide : s.provide f.id q.prio (some (Packet.fld p 16 2)) (sumHalves ((lacking q p).map (fun x => halvesOf x.2 1))) = .ready s := by
      rw [hnone]
      rfl
    rw [kvAppendEffect_opened h, appendOpened_ready hgoes (by rw [hnone]; exact hceil) hprovide, hnone]
    exact appendWork_eq hu hclean
  obtain ⟨hops, hdescs, hstores⟩ := appendPlan_placed (s := u) (p := p) (q := q') (id := f.id) (part := n) (core := core) (k := ko) (v := vo)
    (appendBytes_pos (by rw [src_desc h.keys]; exact hgoes.some))
  obtain ⟨hproto, hkv⟩ := begin_keeps (s := u) (w := w.dealt) (.flight f.id) n rfl
  have hthere : t.flight? f.id = some f := by
    rw [State.flight?, hproto]
    exact hflight
  obtain ⟨r, g, hr, hg, hrunning, hplaced, hlate, hrkv, hrcores, hrstores, hrfinished⟩ := settleReply_late hthere (s.verOf p 0x404) w.dealt.later
  have hexec : exec (.kvAppend p) s = .next r := by
    rw [← hr]
    exact congrArg Host.Outcome.next ((runPacket_checkedSeq htake hc).trans (by rw [heffect]))
  refine ⟨r, g, q', hexec, hg, hrunning, hplaced, hlate, ?_, rfl, ?_, ?_, hrstores.trans hstores, ?_⟩
  · rw [State.seq?, hrkv, hkv]
    exact hu
  · rw [opsOn_of_cores hrcores]
    exact hops
  · rw [descsOn_of_cores hrcores]
    exact hdescs
  · rw [hrfinished, hproto]
    rfl

end Append

/-! ### ATTENTION and ATTENTION_BACKWARD (R194, R202) -/

section Attention

variable {s : State} {p : Packet} {f : Flight} {c : Caller} {q : Seq} {n : Nat} {part : Partition} {qo go : Operand} {reg : Option (Nat × Nat × Nat)}

theorem kvPoison_none (hclean : s.stores.poison = []) (layer : Nat) : s.kvPoison q layer = none := by simp [State.kvPoison, hclean]

/-- An operation on a sequence that meets no poisoned line is placed as it is. -/
theorem runKv_clean (id h : Nat) (w : Work) : s.runKv id n h w none =
    ((s.useSeq h).begin_ (.flight id) n w.dealt, .placed w.status w.info w.result w.dealt.later w.host) := rfl

/-- The sequence of the packet is open to it, and its context's partition runs. -/
structure SeqRuns (s : State) (p : Packet) (id : Nat) (q : Seq) (n : Nat) (part : Partition) : Prop where
  seq : s.seq? (Packet.fld p 16 2) = some q
  partition : s.partOf (Packet.ctxNo p) = some (n, part)
  open_ : q.state = 1
  active : part.state = 1
  tier2 : s.t2Refused n part = false
  alone : s.seqWaits id (Packet.fld p 16 2) false = false
  clean : s.stores.poison = []

/-- Where an ATTENTION records its probabilities. -/
def probsAt (p : Packet) : Option Nat := if bit (Packet.fld p 22 1) 1 then some (Packet.fld p 56 8) else none

/-- The operands of an ATTENTION can be used. -/
structure Attends (s : State) (p : Packet) (q : Seq) (n : Nat) (part : Partition) (qo : Operand) (reg : Option (Nat × Nat × Nat)) : Prop where
  fits : attentionFits p q part = true
  split : (Att.of p q).kvEnd ≠ 0 → (Att.of p q).ksplit ≤ (Att.of p q).pages
  queries : s.ahead.src (Packet.ctxNo p) n part 1 (Packet.desc p 80) = .ok qo
  out : s.destOk (Packet.ctxNo p) n part (Packet.desc p 128) ((Packet.desc p 128).extent (tileKindOf (Packet.desc p 128).fmt)) = none
  scratch : s.scratchRegion (Packet.ctxNo p) (Packet.fld p 64 2) = .ok reg
  record : bit (Packet.fld p 22 1) 1 = true → s.t2Writable (Packet.ctxNo p) (Packet.fld p 56 8) (Att.of p q).recordBytes = true

/-- What an ATTENTION whose operands can be used does. -/
def attended (s : State) (p : Packet) (id : Nat) (q : Seq) (n : Nat) (part : Partition) (qo : Operand) (reg : Option (Nat × Nat × Nat)) : State × Reply :=
  if (Att.of p q).qTokens = 0 ∨ (Att.of p q).kvEnd = 0 then (s.useSeq (Packet.fld p 16 2), .done St.ok (Inf.zeroWork ||| q.info) (2 ^ 32 * (Att.of p q).kvEnd))
  else match part.cores (Packet.fld p 20 1) (q.kvHeads * (Att.of p q).ksplit) with
    | none => (s, .done St.coreFault q.info 0)
    | some cores =>
      if cores.any (s.coreHeld part.cls) || s.windowWaits qo.desc (s.windowSpan qo.desc) then (s, .parkWork)
      else if !s.srcFits (Packet.ctxNo p) n part [1] qo cores then (s, .done St.badParam q.info 0)
      else match (Att.of p q).work s id (Packet.ctxNo p) n (Packet.fld p 16 2) cores qo (Packet.desc p 128) ⟨Packet.fld p 44 4, Packet.fld p 48 8, reg⟩ (probsAt p) with
        | .error e => (s, .done e q.info 0)
        | .ok w => s.runKv id n (Packet.fld p 16 2) w none

theorem attentionEffect_attends (hr : SeqRuns s p f.id q n part) (h : Attends s p q n part qo reg) :
    attentionEffect f.id c p s = attended s p f.id q n part qo reg := by
  have hsplit : ¬((Att.of p q).kvEnd ≠ 0 ∧ (Att.of p q).pages < (Att.of p q).ksplit) := fun ⟨h0, hlt⟩ => absurd (h.split h0) (Nat.not_le.2 hlt)
  have hpoison (cores : List Nat) (l : List (TDesc × Nat)) : (s.poisonOf (Packet.ctxNo p) cores l).orElse (fun _ => s.kvPoison q (Att.of p q).layer) = none := by
    rw [poisonOf_none hr.clean, kvPoison_none hr.clean]
    rfl
  unfold attentionEffect
  extract_lets x y o probs
  rw [show s.seq? x = some q from hr.seq, show s.partOf y = some (n, part) from hr.partition]
  dsimp only
  have hprobs : (match probs with | some z => !s.t2Writable y z (Att.of p q).recordBytes | none => false) = false := by
    cases hbit : bit (Packet.fld p 22 1) 1 with
    | false => simp only [probs, hbit, Bool.false_eq_true, if_false]
    | true =>
      simp only [probs, hbit, if_true]
      rw [show s.t2Writable y (Packet.fld p 56 8) (Att.of p q).recordBytes = true from h.record hbit]
      rfl
  rw [h.fits, if_neg (show ¬(!true) = true by decide), if_neg (seqOpen_active hr.open_ f.id), hr.active, if_neg (show ¬(1 : Nat) = 4 by decide), if_neg (show ¬(1 : Nat) ≠ 1 by decide),
    if_neg (Bool.eq_false_iff.1 hr.tier2), if_neg (Bool.eq_false_iff.1 (show s.seqWaits f.id x false = false from hr.alone)), if_neg hsplit,
    show s.ahead.src y n part 1 (Packet.desc p 80) = .ok qo from h.queries,
    show s.destOk y n part o (o.extent (tileKindOf o.fmt)) = none from h.out,
    show s.scratchRegion y (Packet.fld p 64 2) = .ok reg from h.scratch]
  dsimp only
  refine (if_neg (Bool.eq_false_iff.1 hprobs)).trans ?_
  simp only [show ∀ cores l, (s.poisonOf y cores l).orElse (fun _ => s.kvPoison q (Att.of p q).layer) = none from hpoison]
  rfl

/-- An ATTENTION with no query or no key has nothing to do (R212). -/
theorem attended_empty (h : (Att.of p q).qTokens = 0 ∨ (Att.of p q).kvEnd = 0) : attended s p f.id q n part qo reg =
    (s.useSeq (Packet.fld p 16 2), .done St.ok (Inf.zeroWork ||| q.info) (2 ^ 32 * (Att.of p q).kvEnd)) := if_pos h

theorem attended_work {cores : List Nat} {w : Work} (hq : 0 < (Att.of p q).qTokens) (hkv : 0 < (Att.of p q).kvEnd)
    (hcores : part.cores (Packet.fld p 20 1) (q.kvHeads * (Att.of p q).ksplit) = some cores) (hfits : s.srcFits (Packet.ctxNo p) n part [1] qo cores = true)
    (hheld : cores.any (s.coreHeld part.cls) = false) (hwindow : s.windowWaits qo.desc (s.windowSpan qo.desc) = false)
    (hwork : (Att.of p q).work s f.id (Packet.ctxNo p) n (Packet.fld p 16 2) cores qo (Packet.desc p 128) ⟨Packet.fld p 44 4, Packet.fld p 48 8, reg⟩ (probsAt p) = .ok w) :
    attended s p f.id q n part qo reg = s.runKv f.id n (Packet.fld p 16 2) w none := by
  simp only [attended, show ¬((Att.of p q).qTokens = 0 ∨ (Att.of p q).kvEnd = 0) by omega, if_false, hcores, hheld, hwindow, Bool.or_self, Bool.false_eq_true, hfits, Bool.not_true, hwork]

/-- The descriptor of a gradient can be written (R202). -/
def gradientOk (s : State) (p : Packet) (n : Nat) (part : Partition) (o : Nat) : Option Nat :=
  s.destOk (Packet.ctxNo p) n part (Packet.desc p o) ((Packet.desc p o).extent (tileKindOf (Packet.desc p o).fmt))

/-- The attention that the record of an ATTENTION_BACKWARD names. -/
def recorded (s : State) (p : Packet) (q : Seq) : Att :=
  recAtt (s.t2Reader (Packet.ctxNo p) (Packet.fld p 32 8)) q (Arith.of (Packet.fld p 21 1) (Packet.fld p 24 4))

/-- The operands of an ATTENTION_BACKWARD can be used. -/
structure BackwardAttends (s : State) (p : Packet) (q : Seq) (n : Nat) (part : Partition) (go qo : Operand) (reg : Option (Nat × Nat × Nat)) : Prop where
  header : s.t2Mapped (Packet.ctxNo p) (Packet.fld p 32 8) 64 = true
  fits : backwardFits p q part (recorded s p q) (s.t2Reader (Packet.ctxNo p) (Packet.fld p 32 8)) = true
  record : s.t2Mapped (Packet.ctxNo p) (Packet.fld p 32 8) (recorded s p q).recordBytes = true
  gradient : s.ahead.src (Packet.ctxNo p) n part 1 (Packet.desc p 64) = .ok go
  queries : s.ahead.src (Packet.ctxNo p) n part 1 (Packet.desc p 112) = .ok qo
  outQ : gradientOk s p n part 160 = none
  outK : gradientOk s p n part 208 = none
  outV : gradientOk s p n part 256 = none
  scratch : s.scratchRegion (Packet.ctxNo p) (Packet.fld p 48 2) = .ok reg

/-- What an ATTENTION_BACKWARD whose operands can be used does. -/
def backwardAttended (s : State) (p : Packet) (id : Nat) (q : Seq) (n : Nat) (part : Partition) (go qo : Operand) (reg : Option (Nat × Nat × Nat)) : State × Reply :=
  if (recorded s p q).rows = 0 ∨ (recorded s p q).kvEnd = 0 then (s.useSeq (Packet.fld p 16 2), .done St.ok (Inf.zeroWork ||| q.info) 0)
  else match part.cores (Packet.fld p 20 1) q.kvHeads with
    | none => (s, .done St.coreFault q.info 0)
    | some cores =>
      if cores.any (s.coreHeld part.cls) || [go.desc, qo.desc].any (fun e => s.windowWaits e (s.windowSpan e)) then (s, .parkWork)
      else if !(s.srcFits (Packet.ctxNo p) n part [1] go cores && s.srcFits (Packet.ctxNo p) n part [1] qo cores) then (s, .done St.badParam q.info 0)
      else match (recorded s p q).backwardWork s id (Packet.ctxNo p) n (Packet.fld p 32 8) (s.t2Reader (Packet.ctxNo p) (Packet.fld p 32 8)) cores go qo
          (Packet.desc p 160) (Packet.desc p 208) (Packet.desc p 256) ⟨Packet.fld p 28 4, Packet.fld p 40 8, reg⟩ with
        | .error e => (s, .done e q.info 0)
        | .ok w => s.runKv id n (Packet.fld p 16 2) w none

theorem backwardEffect_attends (hr : SeqRuns s p f.id q n part) (h : BackwardAttends s p q n part go qo reg) :
    backwardEffect f.id c p s = backwardAttended s p f.id q n part go qo reg := by
  have hpoison (cores : List Nat) (l : List (TDesc × Nat)) :
      ((s.poisonOf (Packet.ctxNo p) cores l).orElse (fun _ => s.kvPoison q (recorded s p q).layer)).orElse
        (fun _ => (s.t2Poison (Packet.ctxNo p) (Packet.fld p 32 8) (recorded s p q).recordBytes).map (fun k => (.tier2, k))) = none := by
    rw [poisonOf_none hr.clean, kvPoison_none hr.clean, Proofs.Tiles.t2Poison_none hr.clean]
    rfl
  have hdest : ((gradientOk s p n part 160).orElse (fun _ => (gradientOk s p n part 208).orElse (fun _ => gradientOk s p n part 256))) = none := by
    rw [h.outQ, h.outK, h.outV]
    rfl
  have hmapped : (!s.t2Mapped (Packet.ctxNo p) (Packet.fld p 32 8) 64 || !backwardFits p q part (recorded s p q) (s.t2Reader (Packet.ctxNo p) (Packet.fld p 32 8)) ||
      !s.t2Mapped (Packet.ctxNo p) (Packet.fld p 32 8) (recorded s p q).recordBytes) = false := by
    rw [h.header, h.fits, h.record]
    rfl
  unfold backwardEffect
  extract_lets x y rd dest
  rw [show s.seq? x = some q from hr.seq, show s.partOf y = some (n, part) from hr.partition]
  dsimp only
  rw [if_neg (seqOpen_active hr.open_ f.id), hr.active, if_neg (show ¬(1 : Nat) = 4 by decide), if_neg (show ¬(1 : Nat) ≠ 1 by decide),
    if_neg (Bool.eq_false_iff.1 hr.tier2), if_neg (Bool.eq_false_iff.1 (show s.seqWaits f.id x false = false from hr.alone))]
  refine (if_neg (Bool.eq_false_iff.1 hmapped)).trans ?_
  rw [show s.ahead.src y n part 1 (Packet.desc p 64) = .ok go from h.gradient, show s.ahead.src y n part 1 (Packet.desc p 112) = .ok qo from h.queries,
    show ((s.destOk y n part (dest 0) ((dest 0).extent (tileKindOf (dest 0).fmt))).orElse (fun _ => (s.destOk y n part (dest 1) ((dest 1).extent (tileKindOf (dest 1).fmt))).orElse
      (fun _ => s.destOk y n part (dest 2) ((dest 2).extent (tileKindOf (dest 2).fmt))))) = none from hdest, show s.scratchRegion y (Packet.fld p 48 2) = .ok reg from h.scratch]
  dsimp only
  have hrun (cores : List Nat) (l : List (TDesc × Nat)) (w : Work) :
      s.runKv f.id n x w (((s.poisonOf y cores l).orElse (fun _ => s.kvPoison q (recAtt rd q (Arith.of (Packet.fld p 21 1) (Packet.fld p 24 4))).layer)).orElse
        (fun _ => (s.t2Poison y (Packet.fld p 32 8) (recAtt rd q (Arith.of (Packet.fld p 21 1) (Packet.fld p 24 4))).recordBytes).map (fun k => (.tier2, k)))) = s.runKv f.id n x w none :=
    congrArg (s.runKv f.id n x w) (hpoison cores l)
  simp only [hrun]
  rfl

theorem backwardAttended_empty (h : (recorded s p q).rows = 0 ∨ (recorded s p q).kvEnd = 0) :
    backwardAttended s p f.id q n part go qo reg = (s.useSeq (Packet.fld p 16 2), .done St.ok (Inf.zeroWork ||| q.info) 0) := if_pos h

theorem backwardAttended_work {cores : List Nat} {w : Work} (hrows : 0 < (recorded s p q).rows) (hkv : 0 < (recorded s p q).kvEnd)
    (hcores : part.cores (Packet.fld p 20 1) q.kvHeads = some cores) (hgo : s.srcFits (Packet.ctxNo p) n part [1] go cores = true)
    (hqo : s.srcFits (Packet.ctxNo p) n part [1] qo cores = true) (hheld : cores.any (s.coreHeld part.cls) = false)
    (hwg : s.windowWaits go.desc (s.windowSpan go.desc) = false) (hwq : s.windowWaits qo.desc (s.windowSpan qo.desc) = false)
    (hwork : (recorded s p q).backwardWork s f.id (Packet.ctxNo p) n (Packet.fld p 32 8) (s.t2Reader (Packet.ctxNo p) (Packet.fld p 32 8)) cores go qo
      (Packet.desc p 160) (Packet.desc p 208) (Packet.desc p 256) ⟨Packet.fld p 28 4, Packet.fld p 40 8, reg⟩ = .ok w) :
    backwardAttended s p f.id q n part go qo reg = s.runKv f.id n (Packet.fld p 16 2) w none := by
  simp only [backwardAttended, show ¬((recorded s p q).rows = 0 ∨ (recorded s p q).kvEnd = 0) by omega, if_false, hcores, hheld, List.any_cons, List.any_nil, hwg, hwq, Bool.or_self,
    Bool.false_eq_true, hgo, hqo, Bool.and_self, Bool.not_true, hwork]

end Attention

/-- Settles O37: an operation on a sequence whose operands can be used is `begin_`, which keeps the flight and the stores; KV_APPEND's own plan carries every write
as a descriptor of its core. -/
theorem sequenceWorkIsPlaced : Obligations.SequenceWorkIsPlaced := by
  unfold Obligations.SequenceWorkIsPlaced
  intro p s f c q n part hseq hpart hflight hopen hactive ht2 halone hclean
  have hr : SeqRuns s p f.id q n part := ⟨hseq, hpart, hopen, hactive, ht2, halone, hclean⟩
  refine ⟨?_, ?_, ?_⟩
  · intro ko vo core htake hc hlayer hd0 hd2 hin hcore hpos hko hvo
    have happ : Appendable s p f.id q n part core ko vo := ⟨hseq, hpart, hopen, hactive, ht2, halone, hlayer, hd0, hd2, hin, hcore, hpos, hko, hvo⟩
    have heffect := kvAppendEffect_opened (c := c) happ
    refine ⟨fun hempty => ?_, fun hsome hfree hkf hvf hkw hvw => ?_⟩
    · exact congrArg Host.Outcome.next (runPacket_seqDone htake hc (heffect.trans (if_pos hempty)))
    · have hgoes : AppendGoes s p q n part core ko vo := ⟨hsome, hfree, hkf, hvf, hkw, hvw⟩
      refine ⟨fun u hceil hprovide => ?_, fun hnone hceil => kvAppend_placed htake hc hflight hclean happ hgoes hnone hceil⟩
      refine congrArg Host.Outcome.next ((runPacket_checkedSeq htake hc).trans ?_)
      rw [heffect, appendOpened_ready hgoes hceil hprovide]
      rfl
  · intro qo reg htake hc hfits hsplit hqo hout hreg hrec
    have heffect := attentionEffect_attends (c := c) hr (⟨hfits, hsplit, hqo, hout, hreg, hrec⟩ : Attends s p q n part qo reg)
    refine ⟨fun hempty => ?_, fun cores w hq hkv hcores hsrc hheld hwindow hwork => ?_⟩
    · exact congrArg Host.Outcome.next (runPacket_seqDone htake hc (heffect.trans (attended_empty hempty)))
    · refine congrArg Host.Outcome.next ((runPacket_checkedSeq htake hc).trans ?_)
      rw [heffect, attended_work hq hkv hcores hsrc hheld hwindow hwork, runKv_clean]
  · intro go qo reg htake hc rd a ok hheader hfits hrec hgo hqo h0 h1 h2 hreg
    have heffect := backwardEffect_attends (c := c) hr (⟨hheader, hfits, hrec, hgo, hqo, h0, h1, h2, hreg⟩ : BackwardAttends s p q n part go qo reg)
    refine ⟨fun hempty => ?_, fun cores w hrows hkv hcores hsg hsq hheld hwg hwq hwork => ?_⟩
    · exact congrArg Host.Outcome.next (runPacket_seqDone htake hc (heffect.trans (backwardAttended_empty hempty)))
    · refine congrArg Host.Outcome.next ((runPacket_checkedSeq htake hc).trans ?_)
      rw [heffect, backwardAttended_work hrows hkv hcores hsg hsq hheld hwg hwq hwork, runKv_clean]

end Sys2Proof.Proofs.Sequences

/-! PROOFS. Pages that are swapped out and in: what a page's bytes, its record and its descriptor are afterwards (R204, R206, R208, R209). -/

namespace Sys2Proof.Proofs.Swaps

open Sys2Proof.Machine Sys2Proof.Proofs.Regions Sys2Proof.Proofs.Sequences

theorem length_gcmXor (key iv bs : List Byte) : (gcmXor key iv bs).length = bs.length := by simp [gcmXor]

/-- Encrypting with the key stream twice gives the bytes back (R399). -/
theorem gcmXor_gcmXor (key iv bs : List Byte) : gcmXor key iv (gcmXor key iv bs) = bs := by
  refine List.ext_getElem (by rw [length_gcmXor, length_gcmXor]) (fun i h1 h2 => ?_)
  simp [gcmXor]

section Stages

variable {s : State} {h : Nat} {q : Seq} {g : KvPage}

theorem moved_flights (s : State) (c : Nat) (t : Traffic) : s.FlightsOnly (s.moved c t) := by
  unfold State.moved
  split <;> rfl

/-- What counts a page that has left: its sequence keeps its pages, and nothing outside the sequences, the flights and the counters changes. -/
theorem swapDone_spec (hq : s.seq? h = some q) : (∃ q', (s.swapDone h).seq? h = some q' ∧ q'.pages = q.pages) ∧
    (s.swapDone h).stores = s.stores ∧ (s.swapDone h).sched = s.sched := by
  unfold State.swapDone
  rw [hq]
  dsimp only
  split
  · have hf := State.finishOpt_flights (s.setSeq h (fun q => { q with state := 3, preemptFlight := none, swapStarted := false })) q.preemptFlight St.ok q.info 0
    refine ⟨⟨{ q with state := 3, preemptFlight := none, swapStarted := false }, ?_, rfl⟩, ?_, ?_⟩
    · rw [hf]
      exact seq?_setSeq hq _
    · rw [hf]
      rfl
    · rw [hf]
      rfl
  · exact ⟨⟨q, hq, rfl⟩, rfl, rfl⟩

/-- What gives a page's frame back and counts the page as swapped out. -/
def pageLeft (s : State) (h : Nat) (q : Seq) (g : KvPage) : State := ((s.freeFrames [g.frame]).moved q.ctx ⟨0, 65536, 0, 65568⟩).bump.swapDone h

theorem pageLeft_spec {q' : Seq} (hq : s.seq? h = some q') : (∃ r, (pageLeft s h q g).seq? h = some r ∧ r.pages = q'.pages) ∧
    (pageLeft s h q g).sched = s.sched ∧ (pageLeft s h q g).stores.host = s.stores.host ∧ (pageLeft s h q g).stores.core = s.stores.core ∧
    (pageLeft s h q g).stores.region = s.stores.region ∧ ∀ i, i < 65536 → (pageLeft s h q g).stores.tier2.read (g.frame * 65536 + i) = 0 := by
  let a := s.freeFrames [g.frame]
  have ha : FramesFreed s a := freeFrames_freed s [g.frame]
  have hzero := (freeFrames_zero [g.frame] s).1
  let m := a.moved q.ctx ⟨0, 65536, 0, 65568⟩
  let b := m.bump
  have hm : a.FlightsOnly m := moved_flights a q.ctx ⟨0, 65536, 0, 65568⟩
  have hkv : b.kv = s.kv := by
    change m.kv = s.kv
    rw [hm, ha]
  have hsched : b.sched = s.sched := by
    change m.sched = s.sched
    rw [hm, ha]
  have hstores : b.stores = a.stores := by
    change m.stores = a.stores
    rw [hm]
  obtain ⟨hseq, hst, hsc⟩ := swapDone_spec (s := b) (h := h) (q := q') (by rw [State.seq?, hkv]; exact hq)
  refine ⟨hseq, hsc.trans hsched, ?_, ?_, ?_, fun i hi => ?_⟩
  · rw [pageLeft, hst, hstores, ha]
  · rw [pageLeft, hst, hstores, ha]
  · rw [pageLeft, hst, hstores, ha]
  · rw [pageLeft, hst, hstores]
    exact hzero _ ⟨g.frame, List.mem_singleton_self _, by omega, by omega⟩

/-- The two writes of a page that leaves: its encrypted bytes, then its record. -/
theorem swapWrites_spec (x y : Nat) (ct r : List Byte) : let u := s.apply [⟨.host, x, ct⟩, ⟨.host, y, r⟩]
    (∀ i, i < r.length → u.stores.host.read (y + i) = r.getD i 0) ∧
    (∀ i, i < ct.length → (x + i < y ∨ y + r.length ≤ x + i) → u.stores.host.read (x + i) = ct.getD i 0) ∧
    u.stores.core = s.stores.core ∧ u.stores.region = s.stores.region := by
  refine ⟨fun i hi => Mem.read_writeBytes_in _ _ _ _ hi, fun i hi hout => ?_, rfl, rfl⟩
  exact (Mem.read_writeBytes_out _ _ _ _ hout).trans (Mem.read_writeBytes_in _ _ _ _ hi)

end Stages

section Commands

variable {s : State} {h key : Nat} {q : Seq} {g : KvPage} {n : Nat} {x : Pool} {c : Context}

/-- The bytes of a page as its sequence's context encrypts it, and its record (R204). -/
def pageCipher (s : State) (q : Seq) (g : KvPage) (c : Context) : List Byte :=
  gcmXor (s.genKey q.ctx c.current) (gcmIv c.swapNo q.ctx c.current) (s.stores.tier2.readBytes (g.frame * 65536) 65536)

def pageRecord (s : State) (h key : Nat) (q : Seq) (g : KvPage) (c : Context) : List Byte :=
  fixedLen 16 (Sys2Proof.Config.gcmTag (s.genKey q.ctx c.current) (gcmIv c.swapNo q.ctx c.current) (pageTail h q key c.swapNo c.current) (pageCipher s q g c)) ++
    pageTail h q key c.swapNo c.current

/-- The pool, the context and the descriptor of a page that leaves. -/
def pageNoted (s : State) (h key : Nat) (q : Seq) (g : KvPage) (n : Nat) (c : Context) (slot : Nat) : State :=
  State.setSeq { s with kv := { s.kv with pools := s.kv.pools.update n (fun y => { y with used := y.used ++ [slot] }) },
                        sched := { s.sched with contexts := s.sched.contexts.set q.ctx { c with swapNo := c.swapNo + 1 } } }
    h (fun q => { q with pages := q.pages.set key ⟨2, 0, g.home, c.current, n, slot, c.swapNo, false⟩ })

theorem pageNoted_spec (slot : Nat) (hq : s.seq? h = some q) : let t := pageNoted s h key q g n c slot
    t.seq? h = some { q with pages := q.pages.set key ⟨2, 0, g.home, c.current, n, slot, c.swapNo, false⟩ } ∧
    t.ctx? q.ctx = some { c with swapNo := c.swapNo + 1 } ∧ t.stores = s.stores :=
  ⟨seq?_setSeq (q := q) hq _, Tab.get?_set_self _ _ _, rfl⟩

theorem seq?_apply (ws : List Wr) : (s.apply ws).seq? h = s.seq? h := rfl

/-- The state in which a page's bytes and record stand in its pool's slot, before its frame is given back. -/
def pageOut (s : State) (h key : Nat) (q : Seq) (g : KvPage) (n : Nat) (x : Pool) (c : Context) (slot : Nat) : State :=
  pageNoted (s.apply [⟨.host, hostKey x.fn (x.dataBase + slot * 65536), pageCipher s q g c⟩, ⟨.host, hostKey x.fn (x.recBase + slot * 32), pageRecord s h key q g c⟩])
    h key q g n c slot

theorem pageOut_spec (slot : Nat) (hq : s.seq? h = some q) : let t := pageOut s h key q g n x c slot
    t.seq? h = some { q with pages := q.pages.set key ⟨2, 0, g.home, c.current, n, slot, c.swapNo, false⟩ } ∧
    t.ctx? q.ctx = some { c with swapNo := c.swapNo + 1 } ∧
    t.stores = (s.apply [⟨.host, hostKey x.fn (x.dataBase + slot * 65536), pageCipher s q g c⟩, ⟨.host, hostKey x.fn (x.recBase + slot * 32), pageRecord s h key q g c⟩]).stores :=
  pageNoted_spec slot (by rw [seq?_apply]; exact hq)

theorem swapOut_eq (slot : Nat) (hc : s.ctx? q.ctx = some c) : s.swapOut h q key g n x slot = pageLeft (pageOut s h key q g n x c slot) h q g := by
  unfold State.swapOut
  rw [hc]
  rfl

theorem swapOut_spec (slot : Nat) (hq : s.seq? h = some q) (hc : s.ctx? q.ctx = some c) :
    let u := s.swapOut h q key g n x slot
    let dataAt := hostKey x.fn (x.dataBase + slot * 65536)
    let recAt := hostKey x.fn (x.recBase + slot * 32)
    (∀ i, i < (pageRecord s h key q g c).length → u.stores.host.read (recAt + i) = (pageRecord s h key q g c).getD i 0) ∧
    (∀ i, i < 65536 → (dataAt + i < recAt ∨ recAt + (pageRecord s h key q g c).length ≤ dataAt + i) → u.stores.host.read (dataAt + i) = (pageCipher s q g c).getD i 0) ∧
    (∀ i, i < 65536 → u.stores.tier2.read (g.frame * 65536 + i) = 0) ∧
    (∃ q', u.seq? h = some q' ∧ q'.pages.get? key = some ⟨2, 0, g.home, c.current, n, slot, c.swapNo, false⟩) ∧
    (∃ c', u.ctx? q.ctx = some c' ∧ c'.swapNo = c.swapNo + 1) ∧ u.stores.core = s.stores.core ∧ u.stores.region = s.stores.region := by
  obtain ⟨hseq, hctx, hwritten⟩ := pageOut_spec (key := key) (g := g) (n := n) (x := x) (c := c) slot hq
  obtain ⟨⟨q', hq', hpages⟩, hsched, hhost, hcore, hregion, hzero⟩ := pageLeft_spec (q := q) (g := g) hseq
  obtain ⟨hrec, hdata, hwcore, hwregion⟩ := swapWrites_spec (s := s) (hostKey x.fn (x.dataBase + slot * 65536)) (hostKey x.fn (x.recBase + slot * 32)) (pageCipher s q g c) (pageRecord s h key q g c)
  have hlen : (pageCipher s q g c).length = 65536 := by rw [pageCipher, length_gcmXor, Mem.length_readBytes]
  rw [swapOut_eq slot hc]
  intro u dataAt recAt
  refine ⟨fun i hi => ?_, fun i hi hout => ?_, hzero, ⟨q', hq', ?_⟩, ⟨{ c with swapNo := c.swapNo + 1 }, ?_, rfl⟩, ?_, ?_⟩
  · rw [hhost, hwritten]
    exact hrec i hi
  · rw [hhost, hwritten]
    exact hdata i (by rw [hlen]; exact hi) hout
  · rw [hpages]
    exact Tab.get?_set_self _ _ _
  · rw [State.ctx?, hsched]
    exact hctx
  · rw [hcore, hwritten]
    exact hwcore
  · rw [hregion, hwritten]
    exact hwregion

/-- The record beside a swapped page names it and authenticates its bytes (R208, R209). -/
def pageGood (s : State) (h key : Nat) (q : Seq) (g : KvPage) (x : Pool) : Bool :=
  decide ((s.stores.host.readBytes (hostKey x.fn (x.recBase + g.slot * 32)) 32).drop 16 = pageTail h q key g.swapNo g.gen) &&
    decide ((s.stores.host.readBytes (hostKey x.fn (x.recBase + g.slot * 32)) 32).take 16 = fixedLen 16 (Sys2Proof.Config.gcmTag (s.genKey q.ctx g.gen)
      (gcmIv g.swapNo q.ctx g.gen) (pageTail h q key g.swapNo g.gen) (s.stores.host.readBytes (hostKey x.fn (x.dataBase + g.slot * 65536)) 65536)))

/-- A swapped page's bytes, decrypted. -/
def pagePlain (s : State) (q : Seq) (g : KvPage) (x : Pool) : List Byte :=
  gcmXor (s.genKey q.ctx g.gen) (gcmIv g.swapNo q.ctx g.gen) (s.stores.host.readBytes (hostKey x.fn (x.dataBase + g.slot * 65536)) 65536)

/-- The pool and the descriptor of a page that comes in. -/
def pageBack (s : State) (h key : Nat) (g : KvPage) : State :=
  State.setSeq { s with kv := { s.kv with pools := s.kv.pools.update g.pool (fun y => { y with used := y.used.filter (· ≠ g.slot) }) } }
    h (fun q => { q with pages := q.pages.set key { g with state := 1, gen := 0, pool := 0, slot := 0 } })

theorem pageBack_spec (hq : s.seq? h = some q) :
    (pageBack s h key g).seq? h = some { q with pages := q.pages.set key { g with state := 1, gen := 0, pool := 0, slot := 0 } } ∧ (pageBack s h key g).stores = s.stores :=
  ⟨seq?_setSeq (q := q) hq _, rfl⟩

theorem moved_keeps (s : State) (c : Nat) (t : Traffic) : (s.moved c t).seq? h = s.seq? h ∧ (s.moved c t).stores = s.stores := by
  unfold State.moved
  split <;> exact ⟨rfl, rfl⟩

/-- The state in which a page stands in its frame, before the resume that it may end is. -/
def pageIn (s : State) (h key : Nat) (q : Seq) (g : KvPage) (x : Pool) : State :=
  pageBack ((s.apply [⟨.tier2, g.frame * 65536, pagePlain s q g x⟩]).moved q.ctx ⟨0, 0, 65536, 65568⟩) h key g

/-- What ends the resume of a sequence whose last page has come in. -/
def resumeEnd (s : State) (h : Nat) (q : Seq) : State :=
  if q.pages.any (fun y => decide (y.2.state = 3)) then s
  else (s.setSeq h (fun q => { q with state := 1, tail := 0, tailDiscarded := false, resumeFlight := none })).finishOpt q.resumeFlight St.ok q.info 0

theorem resumeEnd_spec {s : State} (hq : s.seq? h = some q) : (∃ q', (resumeEnd s h q).seq? h = some q' ∧ q'.pages = q.pages ∧ q'.committed = q.committed) ∧
    (resumeEnd s h q).stores = s.stores := by
  unfold resumeEnd
  split
  · exact ⟨⟨q, hq, rfl, rfl⟩, rfl⟩
  · have hf := State.finishOpt_flights (s.setSeq h (fun q => { q with state := 1, tail := 0, tailDiscarded := false, resumeFlight := none })) q.resumeFlight St.ok q.info 0
    refine ⟨⟨{ q with state := 1, tail := 0, tailDiscarded := false, resumeFlight := none }, ?_, rfl, rfl⟩, ?_⟩
    · rw [hf]
      exact seq?_setSeq hq _
    · rw [hf]
      rfl

theorem pageWrite_spec (a : Nat) (bs : List Byte) : let u := s.apply [⟨.tier2, a, bs⟩]
    (∀ i, i < bs.length → u.stores.tier2.read (a + i) = bs.getD i 0) ∧ (∀ b, b < a ∨ a + bs.length ≤ b → u.stores.tier2.read b = s.stores.tier2.read b) ∧
    u.stores.host = s.stores.host :=
  ⟨fun _ hi => Mem.read_writeBytes_in _ _ _ _ hi, fun _ hout => Mem.read_writeBytes_out _ _ _ _ hout, rfl⟩

theorem pageIn_spec (hq : s.seq? h = some q) : (pageIn s h key q g x).seq? h = some { q with pages := q.pages.set key { g with state := 1, gen := 0, pool := 0, slot := 0 } } ∧
    (pageIn s h key q g x).stores = (s.apply [⟨.tier2, g.frame * 65536, pagePlain s q g x⟩]).stores := by
  obtain ⟨hseq, hstores⟩ := moved_keeps (h := h) (s.apply [⟨.tier2, g.frame * 65536, pagePlain s q g x⟩]) q.ctx ⟨0, 0, 65536, 65568⟩
  obtain ⟨hback, hsame⟩ := pageBack_spec (key := key) (g := g) (hseq.trans ((seq?_apply _).trans hq))
  exact ⟨hback, hsame.trans hstores⟩

/-- A page whose generation is live comes in where its record is good, and ends the resume where it is not. -/
theorem swapIn_eq (hc : s.ctx? q.ctx = some c) (hlive : ∃ y, c.gens[g.gen]? = some y ∧ y.state = 1) (hq : s.seq? h = some q) : s.swapIn h q key g x =
    if pageGood s h key q g x then resumeEnd (pageIn s h key q g x) h { q with pages := q.pages.set key { g with state := 1, gen := 0, pool := 0, slot := 0 } }
    else s.resumeFail h q St.linkError := by
  obtain ⟨y, hy, hstate⟩ := hlive
  have hgood : pageGood s h key q g x = false ↔ (s.stores.host.readBytes (hostKey x.fn (x.recBase + g.slot * 32)) 32).drop 16 ≠ pageTail h q key g.swapNo g.gen ∨
      (s.stores.host.readBytes (hostKey x.fn (x.recBase + g.slot * 32)) 32).take 16 ≠ fixedLen 16 (Sys2Proof.Config.gcmTag (s.genKey q.ctx g.gen)
        (gcmIv g.swapNo q.ctx g.gen) (pageTail h q key g.swapNo g.gen) (s.stores.host.readBytes (hostKey x.fn (x.dataBase + g.slot * 65536)) 65536)) := by
    rw [pageGood, Bool.and_eq_false_iff, decide_eq_false_iff_not, decide_eq_false_iff_not]
  unfold State.swapIn
  extract_lets ret ct r aad k iv
  have hret : ret = false := by
    simp only [ret, hc, Option.bind_some, hy, hstate]
    rfl
  rw [if_neg (Bool.eq_false_iff.1 hret)]
  cases hg : pageGood s h key q g x with
  | false => exact if_pos (hgood.1 hg)
  | true =>
    rw [if_neg (fun hbad => by rw [hgood.2 hbad] at hg; cases hg), if_pos rfl]
    change (match (pageIn s h key q g x).seq? h with | none => _ | some q2 => _) = _
    rw [(pageIn_spec hq).1]
    rfl

end Commands

/-- Settles O38: a page that leaves is the two writes of `swapOut` and its frame's end; one that comes in is the write of `pageIn`, or a failed resume. -/
theorem pagesSwapOutAndIn : Obligations.PagesSwapOutAndIn := by
  unfold Obligations.PagesSwapOutAndIn
  refine ⟨gcmXor_gcmXor, fun s h key q g n x c hq hup hidle hc => ⟨?_, ?_⟩⟩
  · intro slot hstate hstarted hfind hslot k iv page aad r dataAt recAt
    refine ⟨s.swapOut h q key g n x slot, ?_, swapOut_spec slot hq hc⟩
    have hcond : (s.hearthUp && !s.sharedIdle q.ctx && decide (q.state = 2) && q.swapStarted) = true := by simp [hup, hidle, hstate, hstarted]
    simp only [exec, execSwapOutPage, hq, hfind, hslot, hcond, if_true]
  · intro hstate hfind hlost hpool hwrite hlive k iv ct aad good
    have hexec : exec (.swapInPage h) s = .next (s.swapIn h q key g x).settle := by
      have hcond : (!s.hearthUp || s.sharedIdle q.ctx || decide (q.state ≠ 4)) = false := by simp [hup, hidle, hstate]
      simp only [exec, execSwapInPage, hq, hfind, hcond, hlost, hpool, hwrite, if_true, Bool.false_eq_true, if_false]
    rw [swapIn_eq hc hlive hq] at hexec
    refine ⟨fun hgood => ?_, fun hgood => ?_⟩
    · rw [show pageGood s h key q g x = true from hgood, if_pos rfl] at hexec
      obtain ⟨hin, hinStores⟩ := pageIn_spec (key := key) (g := g) (x := x) hq
      obtain ⟨⟨q', hq', hpages, hcommitted⟩, hstores⟩ := resumeEnd_spec hin
      obtain ⟨hread, hrest, hhost⟩ := pageWrite_spec (s := s) (g.frame * 65536) (pagePlain s q g x)
      have hlen : (pagePlain s q g x).length = 65536 := by rw [pagePlain, length_gcmXor, Mem.length_readBytes]
      refine ⟨_, q', hexec, fun i hi => ?_, fun a ha => ?_, ?_, hq', ?_, hcommitted⟩
      · rw [hstores, hinStores]
        exact hread i (hlen.symm ▸ hi)
      · rw [hstores, hinStores]
        exact hrest a (hlen.symm ▸ ha)
      · rw [hstores, hinStores]
        exact hhost
      · rw [hpages]
        exact Tab.get?_set_self _ _ _
    · rw [show pageGood s h key q g x = false from hgood] at hexec
      exact hexec

end Sys2Proof.Proofs.Swaps

/-! PROOFS. Streams: where they begin, and what pauses, ends and swaps do to one with nothing queued (R219 to R221, R227, R232, R236). -/

namespace Sys2Proof.Machine

theorem Tab.set_set {α : Type} (t : Tab α) (i : Nat) (v w : α) : (t.set i v).set i w = t.set i w := by
  induction t with
  | nil => simp [Tab.set]
  | cons x r ih =>
    obtain ⟨k, y⟩ := x
    simp only [Tab.set]
    split
    · simp [Tab.set]
    · split
      · simp [Tab.set]
      · rename_i h1 h2
        simp only [Tab.set, h1, h2, if_false, ih]

theorem Tab.erase_set {α : Type} (t : Tab α) (i : Nat) (v : α) : (t.set i v).erase i = t.erase i := by
  induction t with
  | nil => simp [Tab.set, Tab.erase]
  | cons x r ih =>
    obtain ⟨k, y⟩ := x
    simp only [Tab.set]
    split
    · simp [Tab.erase]
    · split
      · rename_i heq
        simp [Tab.erase, heq]
      · unfold Tab.erase at ih ⊢
        simp only [List.filter_cons, ih]

end Sys2Proof.Machine

namespace Sys2Proof.Proofs.Streams

open Sys2Proof Sys2Proof.Machine Sys2Proof.Proofs.Sequences

/-! ### STREAM_START and STATE_IMPORT (R219, R220, R236) -/

section Begin

variable {s : State} {p : Packet} {c : Caller} {f : Flight} {x : Stream}

/-- The state in which a stream stands under its handle, with its record at its home. -/
def streamAdded (s : State) (x : Stream) (r : List Byte) (h : Nat) : State :=
  State.bump { (s.apply (s.recordWr x false r)) with apps := { s.apps with streams := s.apps.streams.set h x } }

/-- A stream that finds a free handle stands under it with its record at its home, and nothing else of the streams changes. -/
theorem addStream_of_free (x : Stream) (r : List Byte) (h : ∃ h, h < 2048 ∧ s.stream? h = none) : ∃ (t : State) (h : Nat), s.addStream x r = some (t, h) ∧ h < 2048 ∧
    s.stream? h = none ∧ t.stream? h = some x ∧ (∀ k, k ≠ h → t.stream? k = s.stream? k) ∧ t.stores = (s.apply (s.recordWr x false r)).stores ∧ t.proto = s.proto ∧ t.tiers = s.tiers := by
  obtain ⟨h, hlt, hnone⟩ := h
  obtain ⟨k, hpick, hk, hfree⟩ := pickFree_of_free s.fresh ⟨h, hlt, Tab.not_mem_keys.2 hnone⟩
  refine ⟨streamAdded s x r k, k, ?_, hk, Tab.not_mem_keys.1 hfree, Tab.get?_set_self _ _ _, fun j hj => Tab.get?_set_ne _ _ _ _ hj, rfl, rfl, rfl⟩
  rw [State.addStream, hpick]
  rfl

/-- The home of a stream about to begin can take its record. -/
structure HomeReady (s : State) (x : Stream) : Prop where
  active : s.homeState x = 1
  there : x.home = 0 → (s.homeCore x).isSome = true ∧ s.coreOut ((s.homeCore x).getD 0) = false

theorem HomeReady.core (h : HomeReady s x) : ¬(x.home = 0 ∧ (s.homeCore x).isNone = true) := by
  rintro ⟨hhome, hnone⟩
  have := (h.there hhome).1
  rw [Option.isNone_iff_eq_none.1 hnone] at this
  cases this

theorem HomeReady.works (h : HomeReady s x) : (decide (x.home = 0) && s.coreOut ((s.homeCore x).getD 0)) = false := by
  by_cases hhome : x.home = 0
  · rw [(h.there hhome).2, Bool.and_false]
  · simp [hhome]

/-- The parameters and the first state that a STREAM_START's record holds. -/
def startParams (x : Stream) (a : List Nat) : List Nat :=
  if x.kind = 1 then a.take (2 * x.channels) ++ (a.take x.channels).map (fun w => code32 (fsub (f32 w) .one)) else a

def startState (p : Packet) (x : Stream) (b : List Nat) : List Nat :=
  if bit (Packet.fld p 17 1) 2 then List.replicate (x.statePlanes * x.channels) 0 else b

theorem streamStartEffect_begins {t : State} {h : Nat} {a b : List Nat × List (Nat × Nat)} (hx : startStream p s = x) (hready : HomeReady s x) (hclean : s.stores.poison = [])
    (hpar : s.windowWaits (Packet.desc p 64) ((Packet.desc p 64).extent 1) = false) (hini : s.windowWaits (Packet.desc p 112) ((Packet.desc p 112).extent 1) = false)
    (ha : s.vecWords (Packet.ctxNo p) ((s.homeCore x).getD 0) (Packet.desc p 64) = .ok a) (hb : s.vecWords (Packet.ctxNo p) ((s.homeCore x).getD 0) (Packet.desc p 112) = .ok b)
    (hcomp : x.comp = true → compOk (a.1.take x.channels) = true)
    (hadd : s.addStream x (x.record (startParams x a.1) (startState p x b.1) (List.replicate x.channels 0)) = some (t, h)) :
    streamStartEffect f.id c p s = done0 t (h + 2 ^ 32 * x.recordBytes) := by
  have hwaits : (decide (x.home = 0) && s.coreOut ((s.homeCore x).getD 0) || s.windowWaits (Packet.desc p 64) ((Packet.desc p 64).extent 1) ||
      s.windowWaits (Packet.desc p 112) ((Packet.desc p 112).extent 1)) = false := by rw [hready.works, hpar, hini]; rfl
  have hcoeffs : (x.comp && !compOk (a.1.take x.channels)) = false := by
    cases hc : x.comp
    · rfl
    · rw [hcomp hc]
      rfl
  unfold streamStartEffect
  rw [hx]
  extract_lets y z core n
  rw [hready.active, if_neg (show ¬(1 : Nat) = 4 by decide), if_neg (show ¬(1 : Nat) ≠ 1 by decide), if_neg hready.core, if_neg (Bool.eq_false_iff.1 hwaits),
    show s.vecWords y core (Packet.desc p 64) = .ok a from ha, show s.vecWords y core (Packet.desc p 112) = .ok b from hb]
  dsimp only
  rw [if_neg (Bool.eq_false_iff.1 hcoeffs), poisonOf_none hclean]
  dsimp only
  split
  · next hnone => exact absurd (hadd.symm.trans hnone) (by simp)
  · next t' h' hsome =>
    cases hadd.symm.trans hsome
    rfl

/-- The blob of a STATE_IMPORT opens to a record that makes a stream. -/
structure Imports (s : State) (p : Packet) (id : Nat) (d : Side) (r : List Byte) : Prop where
  side : s.moveSide (Packet.ctxNo p) 0 (Packet.fld p 16 1) (Packet.fld p 24 8) ⟨1, 240, 240⟩ false = .ok d
  ready : s.sideReady d = true
  short : leNat (s.sideRead (Packet.ctxNo p) 0 d 4 4) ≤ 262144
  within : d.base + 240 + leNat (s.sideRead (Packet.ctxNo p) 0 d 4 4) ≤ d.limit
  opens : s.openBlob id (Packet.ctxNo p) (s.sideRead (Packet.ctxNo p) 0 d 0 (240 + leNat (s.sideRead (Packet.ctxNo p) 0 d 4 4))) = some r
  header : importOk (importStream p s r) r = true
  home : s.homeCheck (importStream p s r) = none

theorem stateImportEffect_begins {t : State} {h : Nat} {d : Side} {r : List Byte} (hi : Imports s p f.id d r) (hready : HomeReady s (importStream p s r))
    (hadd : s.addStream (importStream p s r) ((importStream p s r).header ++ r.drop 128) = some (t, h)) : stateImportEffect f.id c p s = done0 t h := by
  have hlen : ¬(262144 < leNat (s.sideRead (Packet.ctxNo p) 0 d 4 4) ∨ d.limit < d.base + 240 + leNat (s.sideRead (Packet.ctxNo p) 0 d 4 4)) := by
    have := hi.short
    have := hi.within
    omega
  unfold stateImportEffect
  extract_lets y
  rw [show s.moveSide y 0 (Packet.fld p 16 1) (Packet.fld p 24 8) ⟨1, 240, 240⟩ false = .ok d from hi.side]
  dsimp only
  rw [hi.ready, if_neg (show ¬(!true) = true by decide), if_neg (show ¬(262144 < leNat (s.sideRead y 0 d 4 4) ∨ d.limit < d.base + 240 + leNat (s.sideRead y 0 d 4 4)) from hlen),
    show s.openBlob f.id y (s.sideRead y 0 d 0 (240 + leNat (s.sideRead y 0 d 4 4))) = some r from hi.opens]
  dsimp only
  rw [hi.header, if_neg (show ¬(!true) = true by decide), hi.home]
  dsimp only
  rw [hready.active, if_neg (show ¬(1 : Nat) = 4 by decide), if_neg (show ¬(1 : Nat) ≠ 1 by decide), if_neg hready.core, if_neg (Bool.eq_false_iff.1 hready.works), hadd]

end Begin

/-! ### What a stream with nothing queued lets go on (R221, R227, R232) -/

section Settle

variable {s : State} {p : Packet} {c : Caller} {f g : Flight} {x : Stream} {h : Nat}

/-- A flight ends with OK: its completion joins the others, with no information and this result. -/
def EndsOk (s t : State) (id r : Nat) : Prop :=
  ∃ fin, t.proto.finished = s.proto.finished ++ [fin] ∧ fin.flight = id ∧ fin.status = St.ok ∧ fin.info = 0 ∧ fin.result = r % 2 ^ 64

/-- A packet of a stream: its completion says nothing of a sequence's tail. -/
theorem finishFull_endsOk {id : Nat} (hf : s.flight? id = some f) (hcode : 0x408 ≤ f.opcode) (r : Nat) (v : Option Nat) : EndsOk s (s.finishFull id St.ok 0 r v [] []) id r := by
  obtain ⟨fin, a, he, hid, -, -, -, hst, hinfo, hres, -, -⟩ := s.finishFull_ends id St.ok 0 r v [] [] f hf
  refine ⟨fin, by rw [he], hid, hst, ?_, hres⟩
  rw [hinfo, State.tailNote, if_neg (by simp; omega)]
  rfl

/-- Nothing is queued on the stream and nothing is under way. -/
structure Quiet (x : Stream) : Prop where
  queue : x.queue = []
  swap : x.swapOut = none
  pause : x.pauseFlight = none
  ending : x.ending = none

theorem stream?_setStream (hx : s.stream? h = some x) (f : Stream → Stream) : (s.setStream h f).apps.streams = s.apps.streams.set h (f x) := by
  rw [State.setStream]
  exact Tab.update_of_get? f hx

/-- A flight that its packet's effect leaves at work. -/
def running (f : Flight) : Flight := { f with running := true, parked := false }

/-- The state of a stream command under way: its flight runs, and its stream is changed. -/
def streamRun (s : State) (id h : Nat) (f : Stream → Stream) : State := (s.setFlight id (running)).setStream h f

theorem stream?_streamRun (hx : s.stream? h = some x) (id : Nat) (k : Stream → Stream) : (streamRun s id h k).stream? h = some (k x) := by
  rw [State.stream?, streamRun, stream?_setStream (s := s.setFlight id _) hx]
  exact Tab.get?_set_self _ _ _

/-- A pause that waits for no operation completes (R221). -/
theorem settleStream_pause {id : Nat} (hx : s.stream? h = some x) (hq : x.queue = []) (hpause : x.pauseFlight = some id) (hswap : x.swapOut = none) (hend : x.ending = none) :
    s.settleStream h = (s.setStream h (fun x => { x with pauseFlight := none })).finish id St.ok 0 x.result := by
  unfold State.settleStream
  rw [hx]
  dsimp only
  rw [hq, hpause, hswap, hend]
  rfl

theorem setStream_eq (hx : s.stream? h = some x) (k : Stream → Stream) : s.setStream h k = { s with apps := { s.apps with streams := s.apps.streams.set h (k x) } } := by
  rw [State.setStream, Tab.update_of_get? k hx]

/-- With nothing queued, what aborts the queue of a stream leaves it. -/
theorem abortQueue_idle (hx : s.stream? h = some x) (hq : x.queue = []) : s.abortQueue h = { s with apps := { s.apps with streams := s.apps.streams.set h x } } := by
  have hsame : { x with queue := x.queue.filter (·.running) } = x := by
    rw [hq, List.filter_nil, ← hq]
  unfold State.abortQueue
  rw [hx]
  dsimp only
  rw [setStream_eq hx, hsame, hq]
  rfl

/-- A stream that ends with nothing queued is gone (R232). -/
theorem settleStream_end {id : Nat} (hx : s.stream? h = some x) (hq : x.queue = []) (hpause : x.pauseFlight = none) (hswap : x.swapOut = none) (hend : x.ending = some id) :
    s.settleStream h = State.finish { s with apps := { s.apps with streams := s.apps.streams.erase h } } id St.ok 0 x.result := by
  let u : State := { s with apps := { s.apps with streams := s.apps.streams.set h x } }
  have hu : u.stream? h = some x := Tab.get?_set_self _ _ _
  have hpaused : s.setStream h (fun x => { x with pauseFlight := none }) = u := by
    rw [setStream_eq hx, show ({ x with pauseFlight := none } : Stream) = x by rw [← hpause]]
  have habort : u.abortQueue h = u := by
    rw [abortQueue_idle hu hq]
    simp only [u, Tab.set_set]
  have hgone : u.apps.streams.erase h = s.apps.streams.erase h := Tab.erase_set _ _ _
  unfold State.settleStream
  rw [hx]
  dsimp only
  rw [hpaused, hq, hpause, hswap, hend]
  simp only [State.finishOpt, habort, hu, Option.bind_some, hswap, Option.map_none, List.any_nil, List.isEmpty_nil, Bool.not_true, Bool.and_false, Bool.false_and, Bool.false_eq_true, if_false, hgone]
  rfl

/-- Where a stream is after its record has moved to its swap area (R227). -/
def movedOut (x : Stream) (t2 : Bool) : Stream := if t2 then { x with home := 2, residency := 0 } else { x with residency := 2 }

theorem moved_stats (s : State) (c : Nat) (t : Traffic) : ∃ a : Stats, s.moved c t = { s with stats := a } := by
  unfold State.moved
  split
  · exact ⟨s.stats, rfl⟩
  · exact ⟨_, rfl⟩

/-- The record of a stream, written to its swap area. -/
def recordOut (s : State) (x : Stream) : List Wr := s.recordWr x true (s.ahead.recordRead x false)

theorem moveOut_spec (hx : s.stream? h = some x) (t2 : Bool) : (s.moveOut h t2).apps.streams = s.apps.streams.set h (movedOut x t2) ∧
    (s.moveOut h t2).proto = s.proto ∧ (s.moveOut h t2).stores = (s.apply (recordOut s x)).stores := by
  obtain ⟨a, ha⟩ := moved_stats (s.apply (recordOut s x)) x.ctx (x.recordTraffic true)
  let u : State := { s.apply (recordOut s x) with stats := a }
  have hmove : s.moveOut h t2 = u.setStream h (fun x => movedOut x t2) := by
    unfold State.moveOut
    rw [hx]
    exact congrArg (fun t : State => t.setStream h (fun x => movedOut x t2)) ha
  rw [hmove]
  exact ⟨stream?_setStream (s := u) (x := x) hx _, rfl, rfl⟩

/-- A swap-out with nothing queued moves the record and completes (R227). -/
theorem settleStream_swap {id : Nat} {force t2 : Bool} (hx : s.stream? h = some x) (hq : x.queue = []) (hpause : x.pauseFlight = none) (hswap : x.swapOut = some (id, force, t2))
    (hend : x.ending = none) (hres : x.residency = 0 ∨ x.residency = 1) (hhome : x.home ≠ 2) :
    ∃ u : State, s.settleStream h = u.finish id St.ok 0 (movedOut { x with swapOut := none } t2).result ∧
      u.apps.streams = s.apps.streams.set h (movedOut { x with swapOut := none } t2) ∧ u.proto = s.proto ∧ u.stores = (s.apply (recordOut s x)).stores := by
  let v : State := { s with apps := { s.apps with streams := s.apps.streams.set h x } }
  have hv : v.stream? h = some x := Tab.get?_set_self _ _ _
  have hpaused : s.setStream h (fun x => { x with pauseFlight := none }) = v := by
    rw [setStream_eq hx, show ({ x with pauseFlight := none } : Stream) = x by rw [← hpause]]
  obtain ⟨hstreams, hproto, hstores⟩ := moveOut_spec hv t2
  have hmoved : (v.moveOut h t2).stream? h = some (movedOut x t2) := by
    rw [State.stream?, hstreams]
    exact Tab.get?_set_self _ _ _
  have hlast : ({ movedOut x t2 with swapOut := none } : Stream) = movedOut { x with swapOut := none } t2 := by cases t2 <;> rfl
  let u := (v.moveOut h t2).setStream h (fun x => { x with swapOut := none })
  have hu : u.apps.streams = s.apps.streams.set h (movedOut { x with swapOut := none } t2) := by
    rw [show u.apps.streams = _ from stream?_setStream hmoved _, hstreams, hlast]
    simp only [v, Tab.set_set]
  have huh : u.stream? h = some (movedOut { x with swapOut := none } t2) := by
    rw [State.stream?, hu]
    exact Tab.get?_set_self _ _ _
  refine ⟨u, ?_, hu, hproto, hstores⟩
  generalize movedOut { x with swapOut := none } t2 = y at huh
  unfold State.settleStream
  rw [hx]
  dsimp only
  rw [hpaused, hq, hpause, hswap, hend]
  simp only [State.finishOpt]
  rw [if_neg (show ¬(([] : List StreamOp).any (·.running) = true) by decide), if_neg (show ¬x.residency = 3 by omega), if_neg (show ¬(x.residency = 2 ∨ x.home = 2) by omega),
    if_pos (show force = true ∨ ([] : List StreamOp).isEmpty = true ∨ x.paused = true from .inr (.inl rfl))]
  rw [show (State.setStream (v.moveOut h t2) h (fun x => { x with swapOut := none })).stream? h = _ from huh]

end Settle

/-! ### The commands of a stream -/

section Commands

variable {s : State} {p : Packet} {f : Flight} {c : Caller} {x : Stream} {code : Nat} {checks : Caller → Packet → State → Option Nat}
  {effect : Nat → Caller → Packet → State → State × Reply}

theorem runPacket_stream (h : s.takes p code f c = true) (hc : checks c p s = none) : runPacket code (streamBody checks effect) p s =
    (effect f.id c p s).1.settleReply f.id (s.verOf p code) (effect f.id c p s).2 := by
  rw [runPacket_takes _ _ _ _ _ _ h]
  simp only [streamBody, hc]

/-- A stream that a command may name belongs to no end under way. -/
theorem ending_of_streamCheck {fed : Bool} (hx : s.stream? (Packet.fld p 16 2) = some x) (h : s.streamCheck p fed = none) : x.ending = none := by
  rw [State.streamCheck, hx] at h
  have := (firstFail_none _).1 h (x.ending.isSome, St.busy) (List.mem_of_getElem? (i := 2) rfl)
  simpa using this

theorem streamCheck_of_opChecks {n m : Nat} {fed : Bool} (h : streamOpChecks n m fed c p s = none) : s.streamCheck p fed = none := by
  unfold streamOpChecks at h
  rcases hf : firstFail [(!shortOk p n || decide (n = 19 ∧ m < Packet.fld p 18 1), St.badParam)] with _ | e
  · rw [hf] at h
    exact h
  · rw [hf] at h
    cases h

/-- The flight that a stream command completes within its own effect. -/
theorem streamRun_endsOk (htake : s.takes p code f c = true) (hone : ∀ g ∈ s.proto.flights, g.id = f.id → g = f) (hcode : 0x408 ≤ code) {u : State}
    (hu : u.proto = (s.setFlight f.id (running)).proto) (r : Nat) : EndsOk s (u.finish f.id St.ok 0 r) f.id r ∧ u.FlightsOnly (u.finish f.id St.ok 0 r) := by
  obtain ⟨-, hfetched, -, -, -⟩ := State.takes_iff.1 htake
  have hflight : u.flight? f.id = some { f with running := true, parked := false } := by
    rw [State.flight?, hu]
    exact (State.flight?_setFlight s f.id (running) (fun _ => rfl)).trans (by rw [State.flight?_of_fetched hfetched hone]; rfl)
  obtain ⟨fin, hfin, hrest⟩ := finishFull_endsOk hflight (show 0x408 ≤ f.opcode by rw [(State.fetched_spec hfetched).1]; exact hcode) r none
  exact ⟨⟨fin, hfin.trans (by rw [hu]; rfl), hrest⟩, u.finishFull_flights _ _ _ _ _ _ _⟩

theorem streamPause_spec (htake : s.takes p 0x501 f c = true) (hone : ∀ g ∈ s.proto.flights, g.id = f.id → g = f) (hc : streamOpChecks 18 0 true c p s = none)
    (hx : s.stream? (Packet.fld p 16 2) = some x) (hq : Quiet x) (hrun : x.paused = false) :
    ∃ t : State, exec (.streamPause p) s = .next t ∧ t.apps.streams = s.apps.streams.set (Packet.fld p 16 2) { x with paused := true } ∧
      EndsOk s t f.id (x.residency + 256 + 2 ^ 32 * x.nextCseq) ∧ t.stores = s.stores := by
  let y : Stream := { x with paused := true, pauseFlight := some f.id }
  let u := streamRun s f.id (Packet.fld p 16 2) (fun x => { x with paused := true, pauseFlight := some f.id })
  let v := u.setStream (Packet.fld p 16 2) (fun x => { x with pauseFlight := none })
  have hu : u.stream? (Packet.fld p 16 2) = some y := stream?_streamRun hx f.id _
  have heffect : streamPauseEffect f.id c p s = (v.finish f.id St.ok 0 y.result, .later) := by
    unfold streamPauseEffect
    extract_lets h
    rw [show s.stream? h = some x from hx]
    dsimp only
    rw [hrun, if_neg Bool.false_ne_true]
    exact congrArg (fun t => (t, Reply.later)) (settleStream_pause hu hq.queue rfl hq.swap hq.ending)
  obtain ⟨hends, hflights⟩ := streamRun_endsOk (u := v) htake hone (by decide) rfl y.result
  have hresult : y.result = x.residency + 256 + 2 ^ 32 * x.nextCseq := rfl
  refine ⟨(v.finish f.id St.ok 0 y.result).settleReply f.id (s.verOf p 0x501) .later, ?_, ?_, hresult ▸ hends, ?_⟩
  · refine congrArg Host.Outcome.next ((runPacket_stream htake hc).trans ?_)
    rw [heffect]
  · change (v.finish f.id St.ok 0 y.result).apps.streams = _
    rw [hflights]
    change v.apps.streams = _
    rw [show v.apps.streams = _ from stream?_setStream hu _, show u.apps.streams = _ from stream?_setStream (s := s.setFlight f.id _) hx _, Tab.set_set]
    simp only [State.setFlight, y, ← hq.pause]
  · change (v.finish f.id St.ok 0 y.result).stores = _
    rw [hflights]
    rfl

theorem streamResume_spec (htake : s.takes p 0x502 f c = true) (hone : ∀ g ∈ s.proto.flights, g.id = f.id → g = f) (hc : streamOpChecks 18 0 false c p s = none)
    (hx : s.stream? (Packet.fld p 16 2) = some x) (hrun : x.paused = true) :
    ∃ t : State, exec (.streamResume p) s = .next t ∧ t.apps.streams = s.apps.streams.set (Packet.fld p 16 2) { x with paused := false } ∧
      EndsOk s t f.id (x.residency + 2 ^ 32 * x.nextCseq) ∧ t.stores = s.stores := by
  let u := s.setStream (Packet.fld p 16 2) (fun x => { x with paused := false })
  have heffect : streamResumeEffect f.id c p s = (u, .done St.ok 0 ({ x with paused := false } : Stream).result) := by
    unfold streamResumeEffect
    extract_lets h
    rw [show s.stream? h = some x from hx]
    dsimp only
    rw [hrun, if_neg (show ¬(!true) = true by decide)]
  obtain ⟨-, hfetched, -, -, -⟩ := State.takes_iff.1 htake
  have hends := finishFull_endsOk (s := u) (State.flight?_of_fetched hfetched hone) (show 0x408 ≤ f.opcode by rw [(State.fetched_spec hfetched).1]; decide)
    ({ x with paused := false } : Stream).result (some (s.verOf p 0x502))
  have hflights := u.finishFull_flights f.id St.ok 0 ({ x with paused := false } : Stream).result (some (s.verOf p 0x502)) [] []
  refine ⟨_, congrArg Host.Outcome.next ((runPacket_stream htake hc).trans (by rw [heffect]; rfl)), ?_, hends, ?_⟩
  · rw [hflights]
    exact stream?_setStream hx _
  · rw [hflights]
    rfl

theorem streamEnd_spec (htake : s.takes p 0x503 f c = true) (hone : ∀ g ∈ s.proto.flights, g.id = f.id → g = f) (hc : streamOpChecks 19 1 true c p s = none)
    (hx : s.stream? (Packet.fld p 16 2) = some x) (hq : Quiet x) :
    ∃ t : State, exec (.streamEnd p) s = .next t ∧ t.apps.streams = s.apps.streams.erase (Packet.fld p 16 2) ∧ EndsOk s t f.id x.result ∧ t.stores = s.stores := by
  let k : Stream → Stream := fun y => { y with ending := some f.id, drain := bit (Packet.fld p 18 1) 0 && !x.paused }
  let u := streamRun s f.id (Packet.fld p 16 2) k
  let v : State := { u with apps := { u.apps with streams := u.apps.streams.erase (Packet.fld p 16 2) } }
  have hu : u.stream? (Packet.fld p 16 2) = some (k x) := stream?_streamRun hx f.id k
  have hsettle : u.settleStream (Packet.fld p 16 2) = v.finish f.id St.ok 0 (k x).result := settleStream_end hu hq.queue hq.pause hq.swap rfl
  have heffect : streamEndEffect f.id c p s = (v.finish f.id St.ok 0 x.result, .later) := by
    unfold streamEndEffect
    extract_lets h drain
    rw [show s.stream? h = some x from hx]
    exact congrArg (fun t => (t, Reply.later)) hsettle
  obtain ⟨hends, hflights⟩ := streamRun_endsOk (u := v) htake hone (by decide) rfl x.result
  refine ⟨(v.finish f.id St.ok 0 x.result).settleReply f.id (s.verOf p 0x503) .later, ?_, ?_, hends, ?_⟩
  · refine congrArg Host.Outcome.next ((runPacket_stream htake hc).trans ?_)
    rw [heffect]
  · change (v.finish f.id St.ok 0 x.result).apps.streams = _
    rw [hflights]
    change u.apps.streams.erase (Packet.fld p 16 2) = _
    rw [show u.apps.streams = _ from stream?_setStream (s := s.setFlight f.id _) hx _, Tab.erase_set]
    rfl
  · change (v.finish f.id St.ok 0 x.result).stores = _
    rw [hflights]
    rfl

theorem stateSwapOut_spec (htake : s.takes p 0x508 f c = true) (hone : ∀ g ∈ s.proto.flights, g.id = f.id → g = f) (hc : streamOpChecks 19 3 true c p s = none)
    (hx : s.stream? (Packet.fld p 16 2) = some x) (hq : Quiet x) (hres : x.residency = 0 ∨ x.residency = 1) (hhome : x.home ≠ 2) :
    ∃ t : State, exec (.stateSwapOut p) s = .next t ∧ t.stream? (Packet.fld p 16 2) = some (movedOut x (bit (Packet.fld p 18 1) 1)) ∧
      (∀ k, k ≠ Packet.fld p 16 2 → t.stream? k = s.stream? k) ∧ EndsOk s t f.id (movedOut x (bit (Packet.fld p 18 1) 1)).result ∧
      t.stores = (s.apply (s.recordWr x true (s.ahead.recordRead x false))).stores := by
  let k : Stream → Stream := fun x => { x with swapOut := some (f.id, bit (Packet.fld p 18 1) 0, bit (Packet.fld p 18 1) 1) }
  let u := streamRun s f.id (Packet.fld p 16 2) k
  have hu : u.stream? (Packet.fld p 16 2) = some (k x) := stream?_streamRun hx f.id k
  obtain ⟨v, hsettle, hvstreams, hvproto, hvstores⟩ := settleStream_swap hu hq.queue hq.pause rfl hq.ending hres hhome
  have hsame : ({ k x with swapOut := none } : Stream) = x := by rw [← hq.swap]
  rw [hsame] at hsettle hvstreams
  have heffect : swapOutEffect f.id c p s = (v.finish f.id St.ok 0 (movedOut x (bit (Packet.fld p 18 1) 1)).result, .later) := by
    unfold swapOutEffect
    extract_lets h fl
    rw [show s.stream? h = some x from hx]
    dsimp only
    rw [if_neg (show ¬(x.residency = 3 ∨ x.swapOut.isSome = true) by rw [hq.swap]; simp; omega), if_neg (show ¬(x.residency = 2 ∨ x.home = 2) by omega)]
    exact congrArg (fun t => (t, Reply.later)) hsettle
  obtain ⟨hends, hflights⟩ := streamRun_endsOk (u := v) htake hone (by decide) hvproto (movedOut x (bit (Packet.fld p 18 1) 1)).result
  have hstreams : ((v.finish f.id St.ok 0 (movedOut x (bit (Packet.fld p 18 1) 1)).result).settleReply f.id (s.verOf p 0x508) .later).apps.streams =
      s.apps.streams.set (Packet.fld p 16 2) (movedOut x (bit (Packet.fld p 18 1) 1)) := by
    change (v.finish f.id St.ok 0 _).apps.streams = _
    rw [hflights]
    rw [hvstreams, show u.apps.streams = _ from stream?_setStream (s := s.setFlight f.id _) hx _, Tab.set_set]
    rfl
  refine ⟨(v.finish f.id St.ok 0 (movedOut x (bit (Packet.fld p 18 1) 1)).result).settleReply f.id (s.verOf p 0x508) .later, ?_, ?_, fun j hj => ?_, hends, ?_⟩
  · refine congrArg Host.Outcome.next ((runPacket_stream htake hc).trans ?_)
    rw [heffect]
  · rw [State.stream?, hstreams]
    exact Tab.get?_set_self _ _ _
  · rw [State.stream?, hstreams]
    exact Tab.get?_set_ne _ _ _ _ hj
  · change (v.finish f.id St.ok 0 _).stores = _
    rw [hflights]
    exact hvstores

end Commands

/-- Settles O39: a beginning stream's handle is free and its record written once; with nothing queued, `settleStream` ends the pause, the end or the swap at once. -/
theorem streams : Obligations.Streams := by
  unfold Obligations.Streams
  refine ⟨fun p s f c hfree => ⟨?_, ?_⟩, ?_⟩
  · intro a b htake hc x core par st hstate hhome hclean hpar hini ha hb hcomp
    obtain ⟨t, h, hadd, hlt, hnone, hthere, hrest, hstores, hproto, htiers⟩ := addStream_of_free x (x.record par st (List.replicate x.channels 0)) hfree
    have heffect := streamStartEffect_begins (f := f) (c := c) (rfl : startStream p s = x) ⟨hstate, hhome⟩ hclean hpar hini ha hb hcomp hadd
    exact ⟨t, h, hlt, hnone, hthere, hrest, hstores, hproto, htiers, congrArg Host.Outcome.next (runPacket_okWith htake hc heffect)⟩
  · intro d r htake hc hside hready n x hshort hwithin hopens hheader hhome hstate hthere
    obtain ⟨t, h, hadd, hlt, hnone, hx, hrest, hstores, -, -⟩ := addStream_of_free x (x.header ++ r.drop 128) hfree
    have heffect := stateImportEffect_begins (f := f) (c := c) ⟨hside, hready, hshort, hwithin, hopens, hheader, hhome⟩ ⟨hstate, hthere⟩ hadd
    exact ⟨t, h, hlt, hnone, hx, hrest, hstores, congrArg Host.Outcome.next (runPacket_okWith htake hc heffect)⟩
  · intro p s f c x hone hx hq hpause hswap h ended
    have hquiet {n m : Nat} (hc : streamOpChecks n m true c p s = none) : Quiet x := ⟨hq, hswap, hpause, ending_of_streamCheck hx (streamCheck_of_opChecks hc)⟩
    exact ⟨fun htake hc hrun => streamPause_spec htake hone hc hx (hquiet hc) hrun, fun htake hc hrun => streamResume_spec htake hone hc hx hrun,
      fun htake hc => streamEnd_spec htake hone hc hx (hquiet hc), fun htake hc hres hhome => stateSwapOut_spec htake hone hc hx (hquiet hc) hres hhome⟩

end Sys2Proof.Proofs.Streams

/-! PROOFS. The numbered operations of a stream: how its queue takes them, and the turn of each (R222, R224, R226, R231, R235, R237). -/

namespace Sys2Proof.Proofs.Streams

open Sys2Proof Sys2Proof.Machine Sys2Proof.Proofs.Sequences Sys2Proof.Proofs.Cores

/-! ### Joining the queue (R222) -/

section Queue

variable {s : State} {p : Packet} {f : Flight} {c : Caller} {x : Stream} {code : Nat} {checks : Caller → Packet → State → Option Nat}

/-- What a packet of a numbered operation does: its stream takes it or answers why not. -/
def acceptEffect (code id : Nat) (_ : Caller) (p : Packet) (s : State) : State × Reply :=
  match s.stream? (Packet.fld p 16 2) with
  | none => refuse s St.notFound
  | some x => s.acceptOp id (Packet.fld p 16 2) x code p

theorem runPacket_accept (hx : s.stream? (Packet.fld p 16 2) = some x) (htake : s.takes p code f c = true) (hc : checks c p s = none) :
    runPacket code (checked checks (acceptEffect code)) p s =
      (s.acceptOp f.id (Packet.fld p 16 2) x code p).1.settleReply f.id (s.verOf p code) (s.acceptOp f.id (Packet.fld p 16 2) x code p).2 := by
  rw [runPacket_effect code checks (acceptEffect code) p s f c htake hc]
  simp only [acceptEffect, hx]

theorem acceptOp_lost {id h : Nat} (hres : x.residency = 3) (hcode : code ≠ 0x507) : s.acceptOp id h x code p = refuse s St.coreFault := if_pos ⟨hres, hcode⟩

theorem acceptOp_number {id h : Nat} (hres : x.residency ≠ 3 ∨ code = 0x507) (hseq : Packet.fld p 20 4 ≠ x.nextCseq) : s.acceptOp id h x code p = refuse s St.badChunkSeq := by
  have hlost : ¬(x.residency = 3 ∧ code ≠ 0x507) := fun ⟨h1, h2⟩ => hres.elim (fun h => h h1) h2
  unfold State.acceptOp
  rw [if_neg hlost, if_pos hseq]

/-- The queue is full, or an armed job's stream waits for its RE_ANCHOR (R222, R231). -/
def queueFull (s : State) (h : Nat) (x : Stream) : Prop := 64 ≤ x.queue.length ∨ (s.fed h = true ∧ ∃ o ∈ x.queue, o.opcode = 0x507)

theorem queueFull_iff {h : Nat} : (64 ≤ x.queue.length ∨ (s.fed h = true ∧ x.queue.any (fun o => decide (o.opcode = 0x507)) = true)) ↔ queueFull s h x := by
  simp [queueFull]

theorem acceptOp_waits {id h : Nat} (hres : x.residency ≠ 3 ∨ code = 0x507) (hseq : Packet.fld p 20 4 = x.nextCseq) (hfull : queueFull s h x) :
    s.acceptOp id h x code p = (s, .park) := by
  have hlost : ¬(x.residency = 3 ∧ code ≠ 0x507) := fun ⟨h1, h2⟩ => hres.elim (fun h => h h1) h2
  unfold State.acceptOp
  rw [if_neg hlost, if_neg (not_not.2 hseq), if_pos (queueFull_iff.2 hfull)]

/-- The operation that a packet becomes in its stream's queue. -/
def queuedOp (p : Packet) (code id : Nat) : StreamOp := ⟨.flight id, code, Packet.fld p 20 4, p, false, false, false, [], 0, 0, false⟩

theorem acceptOp_joins {id h : Nat} (hres : x.residency ≠ 3 ∨ code = 0x507) (hseq : Packet.fld p 20 4 = x.nextCseq) (hfree : ¬queueFull s h x) :
    s.acceptOp id h x code p = (s.setStream h (fun x => { x with nextCseq := (x.nextCseq + 1) % 2 ^ 32, queue := x.queue ++ [queuedOp p code id] }), .later) := by
  have hlost : ¬(x.residency = 3 ∧ code ≠ 0x507) := fun ⟨h1, h2⟩ => hres.elim (fun h => h h1) h2
  unfold State.acceptOp
  rw [if_neg hlost, if_neg (not_not.2 hseq), if_neg (fun h => hfree (queueFull_iff.1 h))]
  rfl

/-- What a numbered operation does as its packet is taken (R222, R226, R231). -/
theorem accept_spec (hx : s.stream? (Packet.fld p 16 2) = some x) (htake : s.takes p code f c = true) (hc : checks c p s = none) :
    let r := Host.Outcome.next (runPacket code (checked checks (acceptEffect code)) p s)
    let h := Packet.fld p 16 2
    (x.residency = 3 → code ≠ 0x507 → r = (.next (s.ends f (s.verOf p code) St.coreFault 0 0) : Host.Outcome State Fault Refusal)) ∧
    (x.residency ≠ 3 ∨ code = 0x507 →
      (Packet.fld p 20 4 = x.nextCseq → x.queue.length < 64 → (s.fed h = true → ∀ o ∈ x.queue, o.opcode ≠ 0x507) → ∃ t : State, r = .next t ∧
        t.proto.finished = s.proto.finished ∧ t.stores = s.stores ∧
        t.apps.streams = s.apps.streams.set h { x with nextCseq := (x.nextCseq + 1) % 2 ^ 32, queue := x.queue ++ [queuedOp p code f.id] }) ∧
      (Packet.fld p 20 4 ≠ x.nextCseq → r = .next (s.ends f (s.verOf p code) St.badChunkSeq 0 0)) ∧
      (Packet.fld p 20 4 = x.nextCseq → queueFull s h x → r = .next (s.setFlight f.id (fun f => { f with parked := true, pages := false, held := true })))) := by
  intro r h
  have hrun := runPacket_accept (checks := checks) hx htake hc
  refine ⟨fun hres hcode => ?_, fun hres => ⟨fun hseq hlen hfed => ?_, fun hseq => ?_, fun hseq hfull => ?_⟩⟩
  · exact congrArg Host.Outcome.next (hrun.trans (by rw [acceptOp_lost hres hcode]; rfl))
  · have hfree : ¬queueFull s h x := by
      rintro (hfull | ⟨hf, o, ho, hcode⟩)
      · omega
      · exact hfed hf o ho hcode
    have hgo : runPacket code (checked checks (acceptEffect code)) p s = (s.setStream h (fun x => { x with nextCseq := (x.nextCseq + 1) % 2 ^ 32, queue := x.queue ++ [queuedOp p code f.id] })).settleReply
        f.id (s.verOf p code) .later := hrun.trans (by rw [acceptOp_joins hres hseq hfree])
    exact ⟨_, congrArg Host.Outcome.next hgo, rfl, rfl, stream?_setStream hx _⟩
  · exact congrArg Host.Outcome.next (hrun.trans (by rw [acceptOp_number hres hseq]; rfl))
  · exact congrArg Host.Outcome.next (hrun.trans (by rw [acceptOp_waits hres hseq hfull]; rfl))

end Queue

/-! ### The turn of an operation (R222, R224, R229) -/

section Turn

variable {s : State} {h : Nat} {x : Stream} {o : StreamOp} {rest : List StreamOp}

/-- A stream whose front operation may have its turn. -/
structure Turns (s : State) (h : Nat) (x : Stream) (o : StreamOp) (rest : List StreamOp) : Prop where
  stream : s.stream? h = some x
  queue : x.queue = o :: rest
  going : x.paused = false
  idle : o.running = false
  swap : x.swapOut = none
  up : s.running = true
  hearth : s.hearthUp = true

theorem exec_streamOpTurn (ht : Turns s h x o rest) : exec (.streamOpTurn h) s = .next (s.streamTurn h).settle := by
  simp only [exec, execStreamOpTurn, ht.stream, Option.bind_some, ht.queue, List.head?_cons, ht.up, ht.hearth, Bool.or_true, Bool.and_self, if_true]

theorem streamTurn_eq (ht : Turns s h x o rest) (hres : x.residency ≠ 2) : s.streamTurn h =
    if x.residency = 3 then (if o.opcode = 0x507 then s.turnAnchor h x o else s.dropLost h)
    else if o.opcode = 0x505 then s.turnExport h x o
    else if o.opcode = 0x504 then s.turnChunk h x o else s.turnAnchor h x o := by
  unfold State.streamTurn
  rw [ht.stream]
  dsimp only
  rw [ht.queue]
  simp only [List.head?_cons, ht.swap, ht.idle, ht.going, Bool.or_self, Bool.false_eq_true, if_false, hres]

theorem streamTurn_chunk (ht : Turns s h x o rest) (hcode : o.opcode = 0x504) (hres : x.residency < 2) : s.streamTurn h = s.turnChunk h x o := by
  rw [streamTurn_eq ht (by omega), if_neg (by omega), if_neg (by omega), if_pos hcode]

theorem streamTurn_anchor (ht : Turns s h x o rest) (hcode : o.opcode = 0x507) (hres : x.residency ≠ 2) : s.streamTurn h = s.turnAnchor h x o := by
  rw [streamTurn_eq ht hres]
  by_cases h3 : x.residency = 3
  · rw [if_pos h3, if_pos hcode]
  · rw [if_neg h3, if_neg (by omega), if_neg (by omega)]

theorem streamTurn_export (ht : Turns s h x o rest) (hcode : o.opcode = 0x505) (hres : x.residency ≠ 3) : s.streamTurn h = s.turnExport h x o := by
  unfold State.streamTurn
  rw [ht.stream]
  dsimp only
  rw [ht.queue]
  simp only [List.head?_cons, ht.swap, ht.idle, ht.going, Bool.or_self, Bool.false_eq_true, if_false, hres, hcode, if_true]

/-! #### CHUNK (R224) -/

theorem turnChunk_none (h0 : Packet.fld o.pkt 24 2 = 0) : s.turnChunk h x o = s.popOp h o St.ok (Inf.zeroWork ||| o.info) (2 ^ 32 * (x.version % 2 ^ 32)) := if_pos h0

theorem recordPoison_none (hclean : s.stores.poison = []) (x : Stream) (b : Bool) : s.recordPoison x b = none := by
  unfold State.recordPoison
  dsimp only
  rw [Proofs.Tiles.t2Poison_none hclean, hclean]
  split
  · rfl
  · split
    · rfl
    · split <;> rfl

/-- The operands of a chunk can be used, and nothing keeps it back. -/
structure ChunkReady (s : State) (x : Stream) (p : Packet) (q : Nat × Partition) (core : Nat) (i : ChunkSrc) : Prop where
  steps : 0 < Packet.fld p 24 2
  refs : s.chunkRefs x.ctx p = none
  part : s.partOf x.ctx = some q
  there : s.chunkCore x p = some core
  active : q.2.state = 1
  free : s.coreHeld q.2.cls core = false
  ins : s.ahead.chunkIn x p core = some i
  apart : chunkMeets p i.exts = false
  windows : ∀ k ∈ [32, 128, 176], let t := Packet.desc p k; t.unused = false → s.windowStopped t (s.windowSpan t) = false ∧ s.windowWaits t (s.windowSpan t) = false
  agrees : x.agrees (s.ahead.recordRead x false) = true
  clean : s.stores.poison = []

theorem turnChunk_starts {q : Nat × Partition} {core : Nat} {i : ChunkSrc} (hr : ChunkReady s x o.pkt q core i) : s.turnChunk h x o = s.startChunk h x o core q.1 i := by
  have hused (b : TDesc → Bool) (hb : ∀ k ∈ [32, 128, 176], (Packet.desc o.pkt k).unused = false → b (Packet.desc o.pkt k) = false) :
      (([32, 128, 176].map (Packet.desc o.pkt)).filter (fun t => !t.unused)).any b = false := by
    rw [List.any_eq_false]
    intro t ht
    obtain ⟨hmem, hun⟩ := List.mem_filter.1 ht
    obtain ⟨k, hk, rfl⟩ := List.mem_map.1 hmem
    exact Bool.eq_false_iff.1 (hb k hk (by simpa using hun))
  have hstopped := hused (fun t => s.windowStopped t (s.windowSpan t)) (fun k hk hun => (hr.windows k hk hun).1)
  have hwaits := hused (fun t => s.windowWaits t (s.windowSpan t)) (fun k hk hun => (hr.windows k hk hun).2)
  have hkept : ¬(q.2.state ≠ 1 ∨ s.coreHeld q.2.cls core = true) := by
    rw [hr.active, hr.free]
    decide
  have hpoison : (s.recordPoison x false).orElse (fun _ => s.poisonOf x.ctx [core] i.exts) = none := by
    rw [recordPoison_none hr.clean, poisonOf_none hr.clean]
    rfl
  unfold State.turnChunk
  extract_lets p
  rw [if_neg (show ¬Packet.fld p 24 2 = 0 from Nat.pos_iff_ne_zero.1 hr.steps), show s.chunkRefs x.ctx p = none from hr.refs, hr.part, show s.chunkCore x p = some core from hr.there]
  dsimp only
  rw [if_neg hkept]
  refine (if_neg (Bool.eq_false_iff.1 hstopped)).trans ((if_neg (Bool.eq_false_iff.1 hwaits)).trans ?_)
  rw [show s.ahead.chunkIn x p core = some i from hr.ins]
  dsimp only
  rw [if_neg (Bool.eq_false_iff.1 (show chunkMeets p i.exts = false from hr.apart)), hr.agrees, if_neg (show ¬(!true) = true by decide), hpoison]

/-- The front of a queue, changed. -/
def onFront (k : StreamOp → StreamOp) (x : Stream) : Stream := { x with queue := match x.queue with
  | [] => []
  | f :: rest => k f :: rest }

/-- A packet's chunk starts as one operation of its core's vector engine, which carries what goes to the core's store, and the queue's front runs. -/
theorem startChunk_spec {core part : Nat} {i : ChunkSrc} (howner : ∃ id, o.owner = .flight id) : ∃ (w : Work) (v : OpSlot) (ds : List (Nat × Desc)) (exc : Nat) (later : List Wr),
    w.chan = none ∧ w.slots = [(core, v)] ∧ v.owner = .stream h ∧ v.engine = some .vector ∧
    (x.home = 0 → ∀ z ∈ s.recordWr x false (runChunk x (s.ahead.recordRead x false) i.ins (Packet.fld o.pkt 24 2)).1, z ∈ w.core) ∧
    s.startChunk h x o core part i = (s.begin_ (.stream h) part { w.dealt with descs := ds }).setStream h (fun x => onFront (fun f =>
      { f with running := true, later := later, result := exc % 65536 + 2 ^ 32 * ((x.version + 1) % 2 ^ 32), exc := exc }) x) := by
  obtain ⟨id, hid⟩ := howner
  unfold State.startChunk
  extract_lets p steps y all r out yw yn exc own away homeW remote at_ ranges loc record w run begun
  have hbegun : begun = s.begin_ own part (run w) := by simp only [begun, hid]
  rw [hbegun]
  refine ⟨w, _, record 1 ++ w.dealt.descs ++ record 2, exc, if away then homeW else [], rfl, rfl, rfl, rfl, fun hhome z hz => ?_, rfl⟩
  refine List.mem_append_right _ ?_
  rw [if_neg (show ¬away = true by simp [away, hhome])]
  exact hz

theorem dealt_single {w : Work} {core : Nat} {v : OpSlot} (hslots : w.slots = [(core, v)]) (he : v.engine.isSome = true) :
    w.dealt.slots = [(core, { v with writes := v.writes ++ w.core.filter (fun z => z.onCore core) })] := by
  have hsome : v.engine ≠ none := Option.isSome_iff_ne_none.1 he
  simp [Work.dealt, hslots, hsome]

theorem begin_streams {w : Work} (hchan : w.chan = none) (own : Owner) (n : Nat) : (s.begin_ own n w).apps = s.apps := by
  let s1 := (s.apply w.core).hold own w.holds
  have h1 : IngestOnly (s.apply w.core) s1 := hold_ingest _ own w.holds
  have h2 := (placeSlots_spec 0 w.slots s1).1
  have h3 := (placeDescs_spec 0 w.descs (w.slots.foldl (fun s x => s.placeSlot x.1 { x.2 with tag := s.fresh }) s1)).1
  have hcores := h2.trans h3
  have hreread := reread_reported (s := w.descs.foldl (fun s x => s.placeDesc x.1 { x.2 with tag := s.fresh }) (w.slots.foldl (fun s x => s.placeSlot x.1 { x.2 with tag := s.fresh }) s1)) w.met
  have happs : (State.reread (w.descs.foldl (fun s x => s.placeDesc x.1 { x.2 with tag := s.fresh }) (w.slots.foldl (fun s x => s.placeSlot x.1 { x.2 with tag := s.fresh }) s1)) w.met).apps = s.apps := by
    rw [hreread, hcores, h1]
    rfl
  unfold State.begin_ State.beginWork
  rw [hchan]
  exact happs

/-- The writes of a started chunk lie with the operation of its core. -/
theorem begun_carries {w : Work} {core part : Nat} {v : OpSlot} {ds : List (Nat × Desc)} {z : Wr} (hslots : w.slots = [(core, v)]) (he : v.engine = some .vector) (hz : z ∈ w.core)
    (hon : z.onCore core = true) (own : Owner) : ∃ u ∈ opsOn (s.begin_ own part { w.dealt with descs := ds }) core, u.owner = v.owner ∧ u.engine = some .vector ∧ z ∈ u.writes := by
  obtain ⟨hops, -, -, -⟩ := begin_spec s own part { w.dealt with descs := ds }
  rw [hops]
  refine ⟨{ v with writes := v.writes ++ w.core.filter (fun z => z.onCore core), tag := s.fresh }, List.mem_append_right _ ?_, rfl, he, List.mem_append_right _ (List.mem_filter.2 ⟨hz, hon⟩)⟩
  rw [dealt_single hslots (by rw [he]; rfl)]
  simp

/-- The record of a stream in a core's store is one write of that core. -/
theorem recordWr_onCore {core : Nat} (hhome : x.home = 0) (hcore : s.homeCore x = some core) (haddr : x.homeAddr < 2097152) {bs : List Byte} {z : Wr}
    (hz : z ∈ s.recordWr x false bs) : z.onCore core = true := by
  rw [State.recordWr, if_neg (by simp [hhome]), if_neg (by omega), hcore] at hz
  rw [List.mem_singleton.1 hz]
  have hin : (core * 2097152 + x.homeAddr) / 2097152 = core := by omega
  simp only [Wr.onCore, coreKey, hin, decide_true, Bool.true_and]

theorem chunkTurn_spec (ht : Turns s h x o rest) {q : Nat × Partition} {core : Nat} {i : ChunkSrc} (hcode : o.opcode = 0x504) (hres : x.residency < 2)
    (howner : ∃ id, o.owner = .flight id) (hr : ChunkReady s x o.pkt q core i) :
    ∃ (u : State) (y : Stream) (o' : StreamOp), exec (.streamOpTurn h) s = .next u.settle ∧ u.stream? h = some y ∧ y.queue = o' :: rest ∧ o'.running = true ∧
      y.step = x.step ∧ y.version = x.version ∧ bits o'.result 63 32 = (x.version + 1) % 2 ^ 32 ∧
      (x.home = 0 → x.homeAddr < 2097152 → ∀ z ∈ s.recordWr x false (runChunk x (s.ahead.recordRead x false) i.ins (Packet.fld o.pkt 24 2)).1,
        ∃ v ∈ opsOn u core, v.owner = .stream h ∧ v.engine = some .vector ∧ z ∈ v.writes) := by
  obtain ⟨w, v, ds, exc, later, hchan, hslots, hown, hengine, hcarries, hstart⟩ := startChunk_spec (s := s) (h := h) (x := x) (core := core) (part := q.1) (i := i) howner
  let b := s.begin_ (.stream h) q.1 { w.dealt with descs := ds }
  have hb : b.stream? h = some x := by
    rw [State.stream?, begin_streams (w := { w.dealt with descs := ds }) hchan]
    exact ht.stream
  let k : Stream → Stream := fun x => onFront (fun f => { f with running := true, later := later, result := exc % 65536 + 2 ^ 32 * ((x.version + 1) % 2 ^ 32), exc := exc }) x
  have hturn : s.streamTurn h = b.setStream h k := (streamTurn_chunk ht hcode hres).trans ((turnChunk_starts hr).trans hstart)
  refine ⟨b.setStream h k, k x, { o with running := true, later := later, result := exc % 65536 + 2 ^ 32 * ((x.version + 1) % 2 ^ 32), exc := exc },
    (exec_streamOpTurn ht).trans (by rw [hturn]), ?_, ?_, rfl, rfl, rfl, ?_, fun hhome haddr z hz => ?_⟩
  · rw [State.stream?, stream?_setStream hb]
    exact Tab.get?_set_self _ _ _
  · simp only [k, onFront, ht.queue]
  · change bits (exc % 65536 + 2 ^ 32 * ((x.version + 1) % 2 ^ 32)) 63 32 = _
    rw [bits]
    omega
  · have hcore : s.homeCore x = some core := by
      have := hr.there
      rwa [State.chunkCore, if_pos hhome] at this
    obtain ⟨u, hu, huo, hue, huw⟩ := begun_carries (s := s) (part := q.1) (ds := ds) hslots hengine (hcarries hhome z hz) (recordWr_onCore hhome hcore haddr hz) (.stream h)
    exact ⟨u, by rw [opsOn_of_cores (show (b.setStream h k).cores = b.cores from rfl)]; exact hu, huo.trans hown, hue, huw⟩

/-! #### RE_ANCHOR and STATE_EXPORT (R235, R237) -/

/-- The record that a RE_ANCHOR writes, and the stream it leaves. -/
def anchorRecord (s : State) (x : Stream) (o : StreamOp) (st : List Nat) : List Byte :=
  ({ x with step := Packet.fld o.pkt 24 8, version := (x.version + 1) % 2 ^ 64 } : Stream).record
    ((List.range (x.paramPlanes * x.channels)).map (recWord (s.ahead.recordRead x false) 128)) st (List.replicate x.channels 0)

def anchored (s : State) (h : Nat) (x : Stream) (o : StreamOp) (st : List Nat) : State :=
  (s.apply (s.recordWr x false (anchorRecord s x o st))).setStream h (fun x => { x with step := Packet.fld o.pkt 24 8, version := (x.version + 1) % 2 ^ 64, residency := 0 })

theorem anchored_spec (hx : s.stream? h = some x) (st : List Nat) :
    (anchored s h x o st).stream? h = some { x with step := Packet.fld o.pkt 24 8, version := (x.version + 1) % 2 ^ 64, residency := 0 } ∧
    (anchored s h x o st).stores = (s.apply (s.recordWr x false (anchorRecord s x o st))).stores := by
  have hthere : (s.apply (s.recordWr x false (anchorRecord s x o st))).stream? h = some x := hx
  refine ⟨?_, rfl⟩
  rw [State.stream?, anchored, stream?_setStream hthere]
  exact Tab.get?_set_self _ _ _

theorem poisonHit_none (hclean : s.stores.poison = []) (c core : Nat) (t : TDesc) (n : Nat) : s.poisonHit c core t n = none := by
  have := poisonOf_none hclean (ctx := c) (cores := [core]) (l := [(t, n)])
  simpa [State.poisonOf] using this

/-- The state that a RE_ANCHOR gives can be read. -/
structure AnchorReady (s : State) (x : Stream) (o : StreamOp) (st : List Nat × List (Nat × Nat)) : Prop where
  step : x.residency = 3 ∨ Packet.fld o.pkt 24 8 = x.step
  there : x.home = 0 → (s.homeCore x).isSome = true
  works : s.anchorWaits x = false
  going : s.windowStopped (Packet.desc o.pkt 32) ((Packet.desc o.pkt 32).extent 1) = false
  ready : s.windowWaits (Packet.desc o.pkt 32) ((Packet.desc o.pkt 32).extent 1) = false
  words : s.vecWords x.ctx ((s.homeCore x).getD 0) (Packet.desc o.pkt 32) = .ok st
  clean : s.stores.poison = []

theorem turnAnchor_eq {st : List Nat × List (Nat × Nat)} (hr : AnchorReady s x o st) : s.turnAnchor h x o = (anchored s h x o st.1).popOp h o St.ok o.info 0 := by
  have hstep : ¬(x.residency ≠ 3 ∧ Packet.fld o.pkt 24 8 ≠ x.step) := fun ⟨h1, h2⟩ => hr.step.elim h1 h2
  have hthere : ¬(x.home = 0 ∧ (s.homeCore x).isNone = true) := by
    rintro ⟨hhome, hnone⟩
    have := hr.there hhome
    rw [Option.isNone_iff_eq_none.1 hnone] at this
    cases this
  have hwaits : (s.anchorWaits x || s.windowWaits (Packet.desc o.pkt 32) ((Packet.desc o.pkt 32).extent 1)) = false := by
    rw [hr.works, hr.ready]
    rfl
  unfold State.turnAnchor
  extract_lets p t core
  rw [if_neg (show ¬(x.residency ≠ 3 ∧ Packet.fld p 24 8 ≠ x.step) from hstep), if_neg hthere,
    if_neg (Bool.eq_false_iff.1 (show s.windowStopped t (t.extent 1) = false from hr.going)),
    if_neg (Bool.eq_false_iff.1 (show (s.anchorWaits x || s.windowWaits t (t.extent 1)) = false from hwaits)), show s.vecWords x.ctx core t = .ok st from hr.words]
  dsimp only
  rw [poisonHit_none hr.clean]
  rfl

/-- The blob of a STATE_EXPORT, and the writes that put it at its place. -/
def exportWrites (s : State) (x : Stream) (d : Side) : List Wr × List (Nat × List Byte) :=
  s.sideWrite x.ctx 0 d 0 (sealBlob s.exportRoot (freeBytes s.fresh 12) x.ctx x.step x.version (s.ahead.recordRead x (decide (x.residency = 2))))

def exported (s : State) (x : Stream) (d : Side) : State :=
  State.bump (((s.apply (exportWrites s x d).1).apply ((exportWrites s x d).2.map (fun y => ⟨.host, y.1, y.2⟩))).moved x.ctx (traffic d.loc (240 + x.recordBytes) true))

theorem exported_spec (s : State) (x : Stream) (d : Side) : (exported s x d).apps = s.apps ∧ (exported s x d).proto = s.proto ∧
    (exported s x d).stores = ((s.apply (exportWrites s x d).1).apply ((exportWrites s x d).2.map (fun y => ⟨.host, y.1, y.2⟩))).stores := by
  obtain ⟨a, ha⟩ := moved_stats ((s.apply (exportWrites s x d).1).apply ((exportWrites s x d).2.map (fun y => ⟨.host, y.1, y.2⟩))) x.ctx (traffic d.loc (240 + x.recordBytes) true)
  unfold exported
  rw [ha]
  exact ⟨rfl, rfl, rfl⟩

theorem turnExport_eq {d : Side} (hside : s.moveSide x.ctx 0 (Packet.fld o.pkt 24 1) (Packet.fld o.pkt 32 8) ⟨1, 240 + x.recordBytes, 240 + x.recordBytes⟩ true = .ok d)
    (hready : s.sideReady d = true) (hup : s.procDown 0 = false) (hclean : s.stores.poison = []) : s.turnExport h x o = (exported s x d).popOp h o St.ok 0 (240 + x.recordBytes) := by
  have hgoes : (!s.sideReady d || s.procDown 0) = false := by
    rw [hready, hup]
    rfl
  unfold State.turnExport
  extract_lets p r
  rw [show s.moveSide x.ctx 0 (Packet.fld p 24 1) (Packet.fld p 32 8) ⟨1, 240 + x.recordBytes, 240 + x.recordBytes⟩ true = .ok d from hside]
  dsimp only
  rw [if_neg (Bool.eq_false_iff.1 hgoes), recordPoison_none hclean]
  rfl

/-! #### The end of a chunk (R222, R224) -/

theorem endStreamOp_keeps (s : State) (o : StreamOp) (st info res exc : Nat) : (s.endStreamOp o st info res exc).apps = s.apps ∧ (s.endStreamOp o st info res exc).stores = s.stores := by
  unfold State.endStreamOp
  split
  · next id _ =>
    rw [show s.finish id st info res = _ from s.finishFull_flights _ _ _ _ _ _ _]
    exact ⟨rfl, rfl⟩
  · exact ⟨rfl, rfl⟩
  · exact ⟨rfl, rfl⟩

/-- A stream after its front chunk has ended (R222, R224). -/
def chunkEnded (x : Stream) (o : StreamOp) : Stream :=
  { x with queue := x.queue.tail, step := (x.step + Packet.fld o.pkt 24 2) % 2 ^ 64, version := (x.version + 1) % 2 ^ 64 }

theorem endChunk_spec (hx : s.stream? h = some x) (hq : x.queue = o :: rest) (hrun : o.running = true) (hdone : s.busyFor (.stream h) = false) :
    (s.endChunk h).stream? h = some (chunkEnded x o) ∧ (s.endChunk h).stores = (s.apply o.later).stores := by
  have hgo : (!o.running || s.busyFor (.stream h)) = false := by
    rw [hrun, hdone]
    rfl
  let u := ((s.apply o.later).unhold (.stream h)).setStream h (fun x => chunkEnded x o)
  have hu : u.stream? h = some (chunkEnded x o) := by
    rw [State.stream?, show u.apps.streams = _ from stream?_setStream (s := (s.apply o.later).unhold (.stream h)) (x := x) hx _]
    exact Tab.get?_set_self _ _ _
  have hlast : ∀ v : State, v.apps = u.apps ∧ v.stores = u.stores → ∀ st info res exc, (v.endStreamOp o st info res exc).stream? h = some (chunkEnded x o) ∧
      (v.endStreamOp o st info res exc).stores = (s.apply o.later).stores := by
    intro v ⟨happs, hstores⟩ st info res exc
    obtain ⟨ha, hs⟩ := endStreamOp_keeps v o st info res exc
    exact ⟨by rw [State.stream?, ha, happs]; exact hu, hs.trans hstores⟩
  unfold State.endChunk
  rw [hx]
  dsimp only
  rw [hq, List.head?_cons]
  dsimp only
  rw [if_neg (Bool.eq_false_iff.1 hgo)]
  refine hlast _ ?_ _ _ _ _
  split <;> exact ⟨rfl, rfl⟩

end Turn

/-- Settles O40: `acceptOp` decides what joins a queue, and each turn's waits and refusals are excluded one by one. -/
theorem streamOperations : Obligations.StreamOperations := by
  unfold Obligations.StreamOperations
  refine ⟨?_, ?_⟩
  · intro p s f c x hx h y hy htake hc
    have hspec := accept_spec (checks := y.2.2) hx htake hc
    simp only [List.mem_cons, List.not_mem_nil, or_false] at hy
    rcases hy with rfl | rfl | rfl
    · exact hspec
    · exact hspec
    · exact hspec
  · intro s h x o rest hx hq hgoing
    refine ⟨fun hidle hswap hup hhearth => ?_, fun hrun hdone => ?_⟩
    · have ht : Turns s h x o rest := ⟨hx, hq, hgoing, hidle, hswap, hup, hhearth⟩
      refine ⟨?_, ?_, ?_, ?_⟩
      · intro hcode hres h0
        rw [exec_streamOpTurn ht, streamTurn_chunk ht hcode hres, turnChunk_none h0]
      · intro q core i hcode hres howner hsteps hrefs hpart hcore hactive hheld hin hapart hwindows hagrees hclean
        exact chunkTurn_spec ht hcode hres howner ⟨hsteps, hrefs, hpart, hcore, hactive, hheld, hin, hapart, hwindows, hagrees, hclean⟩
      · intro st hcode hres hstep hthere hworks hstop hwait hwords hclean y
        obtain ⟨hstream, hstores⟩ := anchored_spec (o := o) hx st.1
        refine ⟨anchored s h x o st.1, ?_, hstream, hstores⟩
        rw [exec_streamOpTurn ht, streamTurn_anchor ht hcode hres, turnAnchor_eq ⟨hstep, hthere, hworks, hstop, hwait, hwords, hclean⟩]
      · intro d hcode hres hside hready hup hclean
        obtain ⟨happs, hproto, hstores⟩ := exported_spec s x d
        refine ⟨exported s x d, ?_, hstores, happs, hproto⟩
        rw [exec_streamOpTurn ht, streamTurn_export ht hcode hres, turnExport_eq hside hready hup hclean]
    · obtain ⟨hstream, hstores⟩ := endChunk_spec hx hq hrun hdone
      exact ⟨_, hstream, by rw [chunkEnded, hq]; rfl, rfl, rfl, hstores⟩

end Sys2Proof.Proofs.Streams

/-! PROOFS. Sensor slots, calibration words, health records and fusion grids (R78, R263, R264, R278, R279, R287). -/

namespace Sys2Proof.Proofs.Sensors

open Sys2Proof Sys2Proof.Machine Sys2Proof.Proofs.CommitScopes

/-! ### SLOT_CONFIG (R263, R264) -/

section Slots

variable {s : State} {p : Packet} {f : Flight} {c : Caller}

/-- A slot that is unconfigured is gone; the others, the core stores, the regions and tier 2 stay. -/
theorem dropSlot_spec (s : State) (k : Nat) : (s.dropSlot k).slot? k = none ∧ (∀ j, j ≠ k → (s.dropSlot k).slot? j = s.slot? j) ∧
    (s.dropSlot k).stores.core = s.stores.core ∧ (s.dropSlot k).stores.region = s.stores.region ∧ (s.dropSlot k).stores.tier2 = s.stores.tier2 := by
  unfold State.dropSlot
  split
  · next hnone => exact ⟨hnone, fun _ _ => rfl, rfl, rfl, rfl⟩
  · next t _ =>
    have hmark : (s.markRing t.cfg false).ingest = s.ingest ∧ (s.markRing t.cfg false).stores = s.stores := by
      unfold State.markRing
      split <;> exact ⟨rfl, rfl⟩
    obtain ⟨hingest, hstores⟩ := hmark
    extract_lets u src v
    have hslots : v.ingest.slots = s.ingest.slots.erase k := by
      change (s.markRing t.cfg false).ingest.slots.erase k = _
      rw [hingest]
    have hv : v.slot? k = none ∧ ∀ j, j ≠ k → v.slot? j = s.slot? j := by
      simp only [State.slot?, hslots]
      exact ⟨Tab.get?_erase_self _ _, fun j hj => Tab.get?_erase_ne _ _ _ hj⟩
    have hvs : v.stores = s.stores := hstores
    split
    · have hzero : (v.zeroFill .xd (xdKey k 0) (2 ^ 32)).stores.core = v.stores.core ∧ (v.zeroFill .xd (xdKey k 0) (2 ^ 32)).stores.region = v.stores.region ∧
          (v.zeroFill .xd (xdKey k 0) (2 ^ 32)).stores.tier2 = v.stores.tier2 := ⟨rfl, rfl, rfl⟩
      rw [hzero.1, hzero.2.1, hzero.2.2]
      exact ⟨hv.1, hv.2, congrArg Stores.core hvs, congrArg Stores.region hvs, congrArg Stores.tier2 hvs⟩
    · exact ⟨hv.1, hv.2, congrArg Stores.core hvs, congrArg Stores.region hvs, congrArg Stores.tier2 hvs⟩

/-- The state of a slot just configured. -/
def freshSlot (s : State) (p : Packet) : SlotState :=
  { cfg := slotOf p, bufs := List.replicate (slotOf p).nbuf (Buf.mk 0 0 [] 0 0 0), filling := none, waiting := [], model := ClockModel.reset, nextSeq := 0,
    lastPin := 0, orderCount := 0, drops := [0, 0, 0, 0, 0], latched := [0, 0, 0, 0, 0, 0], frameDrops := 0, totalDrops := s.dropTotal (Packet.fld p 16 1),
    history := [], tdmLen := none, tdmSeen := 0, nextDue := 0, fsNo := 0, feNo := 0 }

/-- What configures a slot whose ring has its place. -/
def slotConfigured (s : State) (p : Packet) : State :=
  let t := s.dropSlot (Packet.fld p 16 1)
  State.markRing { t with ingest := { t.ingest with slots := t.ingest.slots.set (Packet.fld p 16 1) (freshSlot s p) } } (slotOf p) true

theorem slotConfigured_spec (s : State) (p : Packet) : (slotConfigured s p).slot? (Packet.fld p 16 1) = some (freshSlot s p) ∧
    (∀ j, j ≠ Packet.fld p 16 1 → (slotConfigured s p).slot? j = s.slot? j) ∧ (slotConfigured s p).stores.core = s.stores.core ∧
    (slotConfigured s p).stores.region = s.stores.region ∧ (slotConfigured s p).stores.tier2 = s.stores.tier2 := by
  obtain ⟨-, hothers, hcore, hregion, htier2⟩ := dropSlot_spec s (Packet.fld p 16 1)
  let t := s.dropSlot (Packet.fld p 16 1)
  let u : State := { t with ingest := { t.ingest with slots := t.ingest.slots.set (Packet.fld p 16 1) (freshSlot s p) } }
  have hmark : (u.markRing (slotOf p) true).ingest = u.ingest ∧ (u.markRing (slotOf p) true).stores = u.stores := by
    unfold State.markRing
    split <;> exact ⟨rfl, rfl⟩
  obtain ⟨hingest, hstores⟩ := hmark
  have hu : slotConfigured s p = u.markRing (slotOf p) true := rfl
  rw [hu, hstores]
  refine ⟨?_, fun j hj => ?_, hcore, hregion, htier2⟩
  · rw [State.slot?, hingest]
    exact Tab.get?_set_self _ _ _
  · rw [State.slot?, hingest]
    exact (Tab.get?_set_ne _ _ _ _ hj).trans (hothers j hj)

/-- The ring of the slot finds its place: in the I/O die's store, or in pages of one writable allocation of tier 2 (R264). -/
def RingFits (s : State) (p : Packet) : Prop :=
  let x := slotOf p
  let v := s.dropSlot (Packet.fld p 16 1)
  x.place = 0 ∧ s.ringUsed (Packet.fld p 16 1 / 48) (Packet.fld p 16 1) + x.granules ≤ ringSpace (Packet.fld p 16 1 / 48) ∨
    x.place = 1 ∧ v.t2Freeing x.ringCtx x.ringAddr x.ringBytes = false ∧ v.t2Mapped x.ringCtx x.ringAddr x.ringBytes = true ∧
      v.t2One x.ringCtx x.ringAddr x.ringBytes = true ∧ v.t2Writable x.ringCtx x.ringAddr x.ringBytes = true

theorem slotConfigEffect_configures (hif : (slotOf p).iface ≠ 0) (hfits : RingFits s p) :
    slotConfigEffect f.id c p s = done0 (slotConfigured s p) ((0x8000 + 256 * Packet.fld p 16 1) * 2 ^ 32 + (slotOf p).bufBytes) := by
  unfold slotConfigEffect
  extract_lets k x t view
  rw [if_neg (show ¬x.iface = 0 from hif)]
  rcases hfits with ⟨hplace, hroom⟩ | ⟨hplace, hfreeing, hmapped, hone, hwritable⟩
  · rw [if_neg (fun h => absurd h.2 (Nat.not_lt.2 hroom)), if_neg (fun h => absurd (h.1.symm.trans hplace) (by decide)),
      if_neg (fun h => absurd (h.1.symm.trans hplace) (by decide)), if_neg (fun h => absurd (h.1.symm.trans hplace) (by decide))]
    rfl
  · have h1 : ¬(x.place = 1 ∧ t.t2Freeing x.ringCtx x.ringAddr x.ringBytes = true) := fun h => Bool.false_ne_true (hfreeing.symm.trans h.2)
    have h2 : ¬(x.place = 1 ∧ (!(t.t2Mapped x.ringCtx x.ringAddr x.ringBytes && t.t2One x.ringCtx x.ringAddr x.ringBytes)) = true) := by
      rw [show t.t2Mapped x.ringCtx x.ringAddr x.ringBytes = true from hmapped, show t.t2One x.ringCtx x.ringAddr x.ringBytes = true from hone]
      simp
    have h3 : ¬(x.place = 1 ∧ (!t.t2Writable x.ringCtx x.ringAddr x.ringBytes) = true) := by
      rw [show t.t2Writable x.ringCtx x.ringAddr x.ringBytes = true from hwritable]
      simp
    rw [if_neg (fun h => absurd (h.1.symm.trans hplace) (by decide)), if_neg h1, if_neg h2, if_neg h3]
    rfl

end Slots

/-! ### CALIB_WRITE and STREAM_HEALTH (R278, R287) -/

section Health

variable {s : State} {p : Packet} {f : Flight} {c : Caller}

theorem calibWriteChecks_spec (h : calibWriteChecks c p s = none) : Packet.fld p 16 1 < 256 ∧ Packet.fld p 18 2 + Packet.fld p 20 2 ≤ 4096 := by
  simp only [calibWriteChecks, scopeChecks, orElse_none, firstFail_none, List.mem_cons, List.not_mem_nil, or_false, forall_eq_or_imp, forall_eq,
    Bool.not_eq_false', decide_eq_false_iff_not, not_lt] at h
  obtain ⟨⟨⟨-, hid, -⟩, hwords, -⟩, -⟩ := h
  exact ⟨scopeIdOk_lt hid, hwords.trans (scopeWords_le 3)⟩

theorem exec_calibWrite (h : s.takes p 0x701 f c = true) (hc : calibWriteChecks c p s = none) (hn : 0 < Packet.fld p 20 2) : exec (.calibWrite p) s =
    .next ((writeWordsFrom 3 (Packet.fld p 16 1) (Packet.fld p 18 2) (calibWords p s) s).okWith f (s.verOf p 0x701) 0) := by
  refine congrArg Host.Outcome.next ((runPacket_takes _ _ _ _ _ _ h).trans ?_)
  simp only [calibWriteBody, hc, calibWriteEffect, if_neg (Nat.pos_iff_ne_zero.1 hn)]
  rfl

theorem calibWrite_words (hc : calibWriteChecks c p s = none) :
    let u := writeWordsFrom 3 (Packet.fld p 16 1) (Packet.fld p 18 2) (calibWords p s) s
    (∀ i, i < Packet.fld p 20 2 → u.shadowWord 3 (Packet.fld p 16 1) (Packet.fld p 18 2 + i) = leNat (s.t2Read (Packet.ctxNo p) (Packet.fld p 24 8 + 4 * i) 4)) ∧
    (∀ kind id off, id < 256 → off < 4096 → ¬(kind = 3 ∧ id = Packet.fld p 16 1 ∧ Packet.fld p 18 2 ≤ off ∧ off < Packet.fld p 18 2 + Packet.fld p 20 2) →
      u.shadowWord kind id off = s.shadowWord kind id off) := by
  obtain ⟨hid, hend⟩ := calibWriteChecks_spec hc
  have hlen : (calibWords p s).length = Packet.fld p 20 2 := by simp [calibWords]
  refine ⟨fun i hi => ?_, fun kind id off hid' hoff hother => ?_⟩
  · rw [State.shadowWord, writeWordsFrom_shadow (by rw [hlen]; exact hi)]
    simp [calibWords]
  · rw [State.shadowWord, writeWordsFrom_shadow_ne, State.shadowWord]
    intro i hi same
    rw [hlen] at hi
    obtain ⟨rfl, rfl, rfl⟩ := scopeKey_inj hid' hid hoff (by omega) same
    exact hother ⟨rfl, rfl, by omega, by omega⟩

theorem streamHealthEffect_writes {d : Side}
    (hside : s.moveSide (Packet.ctxNo p) 0 (Packet.fld p 18 1) (Packet.fld p 24 8) ⟨1, 64 * Packet.fld p 17 1, 64 * Packet.fld p 17 1⟩ true = .ok d)
    (hready : s.sideReady d = true) (hn : 0 < Packet.fld p 17 1) :
    let w := s.sideWrite (Packet.ctxNo p) 0 d 0 (((List.range (Packet.fld p 17 1)).map (fun i => s.healthRecord (Packet.fld p 16 1 + i))).flatten)
    streamHealthEffect f.id c p s = (s.apply w.1, .full St.ok 0 0 none w.2 []) := by
  intro w
  unfold streamHealthEffect
  extract_lets n
  rw [show s.moveSide (Packet.ctxNo p) 0 (Packet.fld p 18 1) (Packet.fld p 24 8) ⟨1, 64 * n, 64 * n⟩ true = .ok d from hside]
  dsimp only
  rw [if_neg (show ¬n = 0 from Nat.pos_iff_ne_zero.1 hn), hready, if_neg (show ¬(!true) = true by decide)]

end Health

/-! ### GRID_CREATE and GRID_DESTROY (R279, R287) -/

section Grids

variable {s : State} {p : Packet} {f : Flight} {c : Caller}

/-- A scope that has been reset reads as its reset values. -/
theorem activeWord_resetScope {kind id off : Nat} (hoff : off < 4096) : (s.resetScope kind id).activeWord kind id off = wordReset kind off := by
  rw [State.activeWord]
  change ((Tab.get? (s.scopes.active.filter fun kv => !(decide (kv.1 / 4096 = kind * 256 + id))) (scopeKey kind id off)).getD (wordReset kind off)) = _
  rw [Tab.get?_filter_key (fun k => !(decide (k / 4096 = kind * 256 + id))), if_neg]
  · rfl
  · have hscope : ((kind * 256 + id) * 4096 + off) / 4096 = kind * 256 + id := by omega
    simp only [scopeKey, hscope, decide_true, Bool.not_true, Bool.false_eq_true, not_false_eq_true]

/-- The words that a new grid's scope holds: CELL, the origin, MIN_Z, MAX_AGE and TAU. -/
def gridWords (p : Packet) : List (Nat × Nat) :=
  [(0, Packet.fld p 28 4), (1, Packet.fld p 32 4), (2, Packet.fld p 36 4), (3, Packet.fld p 40 4), (4, Packet.fld p 44 4), (5, Packet.fld p 64 1)]

def putWord (g : Nat) (s : State) (w : Nat × Nat) : State := (s.setShadow 4 g w.1 w.2).setActive 4 g w.1 w.2

theorem putWord_activeWord (g : Nat) (s : State) (w : Nat × Nat) {i : Nat} : (putWord g s w).activeWord 4 g i = if i = w.1 then w.2 else s.activeWord 4 g i := by
  split
  · next h =>
    rw [h, State.activeWord, putWord]
    simp only [State.setActive, Tab.get?_set_self, Option.getD_some]
  · next h =>
    rw [State.activeWord, State.activeWord, putWord]
    simp only [State.setActive]
    rw [Tab.get?_set_ne _ _ _ _ (by simp only [scopeKey]; omega)]
    rfl

theorem putWords_keeps (g : Nat) (l : List (Nat × Nat)) : ∀ s : State, (l.foldl (putWord g) s).ingest = s.ingest ∧ (l.foldl (putWord g) s).stores = s.stores := by
  induction l with
  | nil => exact fun _ => ⟨rfl, rfl⟩
  | cons w r ih => exact fun s => ih (putWord g s w)

/-- The grid that a GRID_CREATE describes. -/
def gridOfPacket (p : Packet) : Grid :=
  ⟨Packet.ctxNo p, Packet.fld p 17 1, Packet.fld p 18 2, Packet.fld p 20 2, Packet.fld p 22 2, Packet.fld p 24 2, Packet.fld p 48 8, Packet.fld p 56 8, 0, none, []⟩

def gridMade (s : State) (p : Packet) (g : Nat) : State :=
  let t := (gridWords p).foldl (putWord g) (s.bump.resetScope 4 g)
  { t with ingest := { t.ingest with grids := t.ingest.grids.set g (gridOfPacket p) } }

theorem gridMade_spec (g : Nat) : (gridMade s p g).grid? g = some (gridOfPacket p) ∧ (∀ k, k ≠ g → (gridMade s p g).grid? k = s.grid? k) ∧
    (∀ i, i < 5 → (gridMade s p g).activeWord 4 g i = Packet.fld p (28 + 4 * i) 4) ∧ (gridMade s p g).activeWord 4 g 5 = Packet.fld p 64 1 ∧ (gridMade s p g).stores = s.stores := by
  have hword (i : Nat) : (gridMade s p g).activeWord 4 g i = ((gridWords p).foldl (putWord g) (s.bump.resetScope 4 g)).activeWord 4 g i := rfl
  obtain ⟨hingest, hstores⟩ := putWords_keeps g (gridWords p) (s.bump.resetScope 4 g)
  have hgrids : (gridMade s p g).ingest.grids = s.ingest.grids.set g (gridOfPacket p) := by
    unfold gridMade
    simp only [hingest]
    rfl
  refine ⟨?_, fun k hk => ?_, fun i hi => ?_, ?_, hstores⟩
  · rw [State.grid?, hgrids]
    exact Tab.get?_set_self _ _ _
  · rw [State.grid?, hgrids]
    exact Tab.get?_set_ne _ _ _ _ hk
  · rw [hword]
    simp only [gridWords, List.foldl_cons, List.foldl_nil, putWord_activeWord]
    have : i = 0 ∨ i = 1 ∨ i = 2 ∨ i = 3 ∨ i = 4 := by omega
    rcases this with rfl | rfl | rfl | rfl | rfl <;> simp
  · rw [hword]
    simp only [gridWords, List.foldl_cons, List.foldl_nil, putWord_activeWord, if_true]

/-- The number that a GRID_CREATE takes is free and below 4. -/
theorem gridNumber_free (hc : gridCreateChecks c p s = none) (hfree : if Packet.fld p 16 1 = 255 then ∃ g, g < 4 ∧ s.grid? g = none else s.grid? (Packet.fld p 16 1) = none) :
    ∃ g, (if Packet.fld p 16 1 = 255 then pickFree s.fresh 4 s.ingest.grids.keys else if s.ingest.grids.keys.contains (Packet.fld p 16 1) then none else some (Packet.fld p 16 1)) = some g ∧
      g < 4 ∧ (Packet.fld p 16 1 ≠ 255 → g = Packet.fld p 16 1) ∧ s.grid? g = none := by
  by_cases hany : Packet.fld p 16 1 = 255
  · rw [if_pos hany] at hfree ⊢
    obtain ⟨g, hg, hnone⟩ := hfree
    obtain ⟨k, hpick, hk, hout⟩ := pickFree_of_free s.fresh ⟨g, hg, Tab.not_mem_keys.2 hnone⟩
    exact ⟨k, hpick, hk, fun h => absurd hany h, Tab.not_mem_keys.1 hout⟩
  · rw [if_neg hany] at hfree ⊢
    have hrange := (firstFail_none _).1 hc (_, St.badParam) (List.mem_of_getElem? (i := 1) rfl)
    simp only [Bool.or_eq_false_iff, decide_eq_false_iff_not] at hrange
    refine ⟨Packet.fld p 16 1, if_neg ?_, by omega, fun _ => rfl, hfree⟩
    rw [List.contains_iff_mem]
    exact Tab.not_mem_keys.2 hfree

theorem gridCreateEffect_makes {g : Nat}
    (hg : (if Packet.fld p 16 1 = 255 then pickFree s.fresh 4 s.ingest.grids.keys else if s.ingest.grids.keys.contains (Packet.fld p 16 1) then none else some (Packet.fld p 16 1)) = some g) :
    gridCreateEffect f.id c p s = done0 (gridMade s p g) g := by
  unfold gridCreateEffect
  extract_lets want used
  rw [show (if want = 255 then pickFree s.fresh 4 used else if used.contains want then none else some want) = some g from hg]
  rfl

theorem dropGrid_spec (s : State) (g : Nat) : (s.dropGrid g).grid? g = none ∧ (∀ k, k ≠ g → (s.dropGrid g).grid? k = s.grid? k) ∧
    (∀ i, i < 6 → (s.dropGrid g).activeWord 4 g i = wordReset 4 i) ∧ (s.dropGrid g).stores = s.stores :=
  ⟨Tab.get?_erase_self _ _, fun _ hk => Tab.get?_erase_ne _ _ _ hk, fun _ hi => activeWord_resetScope (by omega), rfl⟩

end Grids

/-- Settles O41: each command's effect is computed, and what it leaves is read off the slot's, the scope's and the grid's tables. -/
theorem slotsAndGrids : Obligations.SlotsAndGrids := by
  unfold Obligations.SlotsAndGrids
  refine ⟨fun p s f c => ⟨fun htake hc => ⟨fun hif => ?_, fun hif hfits => ?_⟩, fun htake hc hn => ?_, fun d htake hc hside hready hn => ?_⟩,
    fun p s f c => ⟨fun htake hc hfree => ?_, fun htake hc hrun => ?_⟩⟩
  · obtain ⟨hgone, hothers, -⟩ := dropSlot_spec s (Packet.fld p 16 1)
    have heffect : slotConfigEffect f.id c p s = done0 (s.dropSlot (Packet.fld p 16 1)) ((0x8000 + 256 * Packet.fld p 16 1) * 2 ^ 32) := if_pos hif
    exact ⟨_, congrArg Host.Outcome.next (runPacket_okWith htake hc heffect), hgone, hothers⟩
  · obtain ⟨hslot, hothers, hcore, hregion, htier2⟩ := slotConfigured_spec s p
    have hring : RingFits s p := hfits
    exact ⟨_, _, congrArg Host.Outcome.next (runPacket_okWith htake hc (slotConfigEffect_configures hif hring)), hslot, hothers, rfl, rfl, rfl, rfl, rfl, rfl, rfl, rfl,
      hcore, hregion, htier2⟩
  · obtain ⟨hwords, hothers⟩ := calibWrite_words hc
    refine ⟨_, exec_calibWrite htake hc hn, hwords, hothers, ?_⟩
    rw [writeWordsFrom_words]
  · have hrun := runPacket_effect 0x705 streamHealthChecks streamHealthEffect p s f c htake hc
    rw [streamHealthEffect_writes hside hready hn] at hrun
    exact congrArg Host.Outcome.next hrun
  · obtain ⟨g, hg, hlt, hwant, hnone⟩ := gridNumber_free hc hfree
    obtain ⟨hgrid, hothers, hwords, hlast, hstores⟩ := gridMade_spec (s := s) (p := p) g
    exact ⟨_, g, hlt, hwant, hnone, congrArg Host.Outcome.next (runPacket_okWith htake hc (gridCreateEffect_makes hg)), hgrid, hothers, hwords, hlast, hstores⟩
  · obtain ⟨hgone, hothers, hwords, hstores⟩ := dropGrid_spec s (Packet.fld p 16 1)
    have heffect : gridDestroyEffect f.id c p s = done0 (s.dropGrid (Packet.fld p 16 1)) 0 := if_neg (Bool.eq_false_iff.1 hrun)
    exact ⟨_, congrArg Host.Outcome.next (runPacket_okWith htake hc heffect), hgone, hothers, hwords, hstores⟩

end Sys2Proof.Proofs.Sensors

/-! PROOFS. Samples: what starts one, what drops it, and what it takes with it (R259 to R268, R272, R470). -/

namespace Sys2Proof.Machine

/-! ### Events that are told (R51, R65 to R67) -/

/-- Event queues, what left the part, and host memory may change, and nothing else. -/
def State.Told (s t : State) : Prop :=
  t = { s with proto := { s.proto with eqs := t.proto.eqs }, stores := { s.stores with host := t.stores.host, poison := t.stores.poison }, out := t.out }

theorem State.Told.trans {s t u : State} (h : s.Told t) (g : t.Told u) : s.Told u := by
  rw [State.Told] at g ⊢
  rw [h] at g
  exact g

theorem State.raise_told (s : State) (fn v : Nat) : s.Told (s.raise fn v) := by
  unfold State.raise
  split <;> rfl

theorem State.writeRecord_told (s : State) (eq : Nat) (q : EventQueue) (e : Event) : s.Told (s.writeRecord eq q e) := by
  unfold State.writeRecord
  extract_lets seq tenant time src u
  split
  · rfl
  · split
    · exact .trans (t := u.apply [⟨.host, hostKey q.fn (q.base + 32 * (q.tail % q.entries)), eventBytes e (phaseBit q.tail q.entries) seq time⟩]) rfl (State.raise_told _ _ _)
    · rfl

theorem State.reportLost_told (s : State) (eq : Nat) : s.Told (s.reportLost eq) := by
  unfold State.reportLost
  split
  · rfl
  · split
    · exact s.writeRecord_told _ _ _
    · rfl

theorem State.deliver_told (s : State) (eq : Nat) (e : Event) : s.Told (s.deliver eq e) := by
  unfold State.deliver
  extract_lets u
  have hu : s.Told u := s.reportLost_told eq
  split
  · exact hu
  · split
    · exact hu.trans (u.writeRecord_told _ _ _)
    · exact hu.trans rfl

theorem State.post_told (s : State) (e : Event) : s.Told (s.post e) :=
  foldl_keeps s.Told _ _ _ rfl (fun b kv h => h.trans (b.deliver_told kv.1 e))

end Sys2Proof.Machine

namespace Sys2Proof.Proofs.Samples

open Sys2Proof Sys2Proof.Machine

/-! ### What a sample's events leave unchanged -/

/-- Slot `k`, event queues, what left the part and host memory may change, and nothing else. -/
structure SlotStep (k : Nat) (s t : State) : Prop where
  rest : t = { s with ingest := { s.ingest with slots := t.ingest.slots }, proto := { s.proto with eqs := t.proto.eqs },
                      stores := { s.stores with host := t.stores.host, poison := t.stores.poison }, out := t.out }
  others : ∀ j, j ≠ k → t.slot? j = s.slot? j

section Steps

variable {s t u : State} {k : Nat}

theorem SlotStep.refl (k : Nat) (s : State) : SlotStep k s s := ⟨rfl, fun _ _ => rfl⟩

theorem SlotStep.trans (h : SlotStep k s t) (g : SlotStep k t u) : SlotStep k s u := by
  refine ⟨?_, fun j hj => (g.others j hj).trans (h.others j hj)⟩
  have hg := g.rest
  rw [h.rest] at hg
  exact hg

theorem SlotStep.of_told (k : Nat) (h : s.Told t) : SlotStep k s t := by
  rw [State.Told] at h
  refine ⟨by rw [h], fun j _ => ?_⟩
  rw [h]
  rfl

theorem SlotStep.clock (h : SlotStep k s t) : t.clock = s.clock := by rw [h.rest]

theorem SlotStep.slotOn (h : SlotStep k s t) (j : Nat) : t.slotOn j = s.slotOn j := by
  rw [h.rest]
  rfl

theorem SlotStep.xd (h : SlotStep k s t) : t.stores.xd = s.stores.xd ∧ t.stores.tier2 = s.stores.tier2 := by
  rw [h.rest]
  exact ⟨rfl, rfl⟩

theorem setSlot_step (s : State) (k : Nat) (f : SlotState → SlotState) : SlotStep k s (s.setSlot k f) := by
  refine ⟨rfl, fun j hj => ?_⟩
  rw [State.slot?, State.setSlot]
  exact (Tab.get?_update _ _ _ _).trans (if_neg hj)

theorem slot?_setSlot {x : SlotState} (h : s.slot? k = some x) (f : SlotState → SlotState) : (s.setSlot k f).slot? k = some (f x) := by
  rw [State.slot?, State.setSlot]
  exact (Tab.get?_update _ _ _ _).trans (by rw [if_pos rfl, show s.ingest.slots.get? k = some x from h]; rfl)

/-- A slot whose clock model has taken dropped samples: those are gone from the front of what waits, and nothing else of it changes. -/
structure Clocked (x y : SlotState) : Prop where
  rest : y = { x with model := y.model, waiting := y.waiting }
  kept : y.waiting.filter (fun f => f.buf.isSome) = x.waiting.filter (fun f => f.buf.isSome)

theorem Clocked.trans {x y z : SlotState} (h : Clocked x y) (g : Clocked y z) : Clocked x z := by
  refine ⟨?_, g.kept.trans h.kept⟩
  have hg := g.rest
  rw [h.rest] at hg
  exact hg

theorem clockUpdate_spec {x : SlotState} (h : s.slot? k = some x) (f : Filling) : SlotStep k s (s.clockUpdate k f).1 ∧
    ∃ m, (s.clockUpdate k f).1.slot? k = some { x with model := m } := by
  unfold State.clockUpdate
  rw [h]
  dsimp only
  generalize (ClockModel.sigma (if x.cfg.srcKind = 3 then x.model else { x.model with lat := (s.activeWord 3 k 1 : Nat) }) x.cfg f.count f.raw) = r
  obtain ⟨m, sg⟩ := r
  cases sg with
  | none => exact ⟨setSlot_step _ _ _, m, slot?_setSlot h _⟩
  | some v =>
    dsimp only
    split
    · exact ⟨.refl k s, x.model, h⟩
    · generalize ClockModel.update m x.cfg.srcKind (s.driftLimit k) f.pin v = n
      have hset := setSlot_step s k (fun t => { t with model := n.1 })
      have hslot := slot?_setSlot h (fun t => { t with model := n.1 })
      have hpost (e : Event) : SlotStep k s ((s.setSlot k (fun t => { t with model := n.1 })).post e) ∧
          ∃ m, ((s.setSlot k (fun t => { t with model := n.1 })).post e).slot? k = some { x with model := m } := by
        have htold := State.post_told (s.setSlot k (fun t => { t with model := n.1 })) e
        refine ⟨hset.trans (.of_told k htold), n.1, ?_⟩
        rw [State.Told] at htold
        rw [htold]
        exact hslot
      split
      · exact ⟨hset, n.1, hslot⟩
      · exact hpost _
      · exact hpost _

/-- Dropped samples at the front of those that wait take their turn in the clock model (R272). -/
theorem passAll_spec (l : List Filling) : ∀ (s : State) (x : SlotState), s.slot? k = some x → (∃ r, x.waiting = l ++ r) → (∀ f ∈ l, f.buf.isNone = true) →
    let t := l.foldl (fun s f => (s.clockUpdate k f).1.setSlot k (fun t => { t with waiting := t.waiting.tail })) s
    SlotStep k s t ∧ ∃ y, t.slot? k = some y ∧ Clocked x y := by
  induction l with
  | nil => exact fun s x h _ _ => ⟨.refl k s, x, h, ⟨rfl, rfl⟩⟩
  | cons f r ih =>
    intro s x h ⟨w, hw⟩ hnone
    obtain ⟨hstep, m, hm⟩ := clockUpdate_spec h f
    have hset := slot?_setSlot hm (fun t => { t with waiting := t.waiting.tail })
    obtain ⟨hrest, y, hy, hyc⟩ := ih _ _ hset ⟨w, by rw [hw]; rfl⟩ (fun g hg => hnone g (List.mem_cons_of_mem _ hg))
    refine ⟨(hstep.trans (setSlot_step _ _ _)).trans hrest, y, hy, Clocked.trans (y := { x with model := m, waiting := x.waiting.tail }) ⟨rfl, ?_⟩ hyc⟩
    have hf : f.buf.isSome = false := by simpa using hnone f List.mem_cons_self
    rw [hw]
    simp [hf]

theorem passDropped_spec {x : SlotState} (h : s.slot? k = some x) : SlotStep k s (s.passDropped k) ∧ ∃ y, (s.passDropped k).slot? k = some y ∧ Clocked x y := by
  unfold State.passDropped
  rw [h]
  exact passAll_spec _ s x h ⟨_, (List.takeWhile_append_dropWhile).symm⟩ (fun f hf => List.mem_takeWhile_imp (p := fun f : Filling => f.buf.isNone) hf)

/-- A slot that has counted a drop (R267). -/
def counted (x : SlotState) (reason : Nat) : SlotState :=
  { x with drops := x.drops.modify reason (fun n => (n + 1) % 2 ^ 32), frameDrops := x.frameDrops + 1, totalDrops := x.totalDrops + 1 }

/-- A slot whose sample has gone, before the clock model takes its turn. -/
def dropped (x : SlotState) (f : Filling) (reason : Nat) : SlotState :=
  let y := { x with filling := none, waiting := x.waiting ++ [{ f with buf := none, fifo := [] }],
                    bufs := match f.buf with
                      | some i => x.bufs.modify i (fun b => { b with state := 0, order := 0 })
                      | none => x.bufs }
  if f.buf.isNone then y else counted y (f.bad.getD reason)

theorem dropSample_spec {x : SlotState} {f : Filling} (h : s.slot? k = some x) (hf : x.filling = some f) (reason : Nat) :
    SlotStep k s (s.dropSample k reason) ∧ ∃ y, (s.dropSample k reason).slot? k = some y ∧ Clocked (dropped x f reason) y := by
  have hdone : ∀ u : State, SlotStep k s u → u.slot? k = some (dropped x f reason) → SlotStep k s (u.passDropped k) ∧
      ∃ y, (u.passDropped k).slot? k = some y ∧ Clocked (dropped x f reason) y := by
    intro u hu hslot
    obtain ⟨hstep, y, hy, hc⟩ := passDropped_spec hslot
    exact ⟨hu.trans hstep, y, hy, hc⟩
  unfold State.dropSample
  rw [h]
  simp only [Option.bind_some, hf]
  cases hbuf : f.buf with
  | none =>
    refine hdone _ (setSlot_step _ _ _) ?_
    rw [if_pos (by rfl), dropped, hbuf]
    exact slot?_setSlot h _
  | some i =>
    have hfree : (s.freeBuf k (some i)).slot? k = some { x with bufs := x.bufs.modify i (fun b => { b with state := 0, order := 0 }) } := slot?_setSlot h _
    refine hdone _ (((setSlot_step _ _ _).trans (setSlot_step _ _ _)).trans (setSlot_step _ _ _)) ?_
    rw [if_neg (by simp), dropped, hbuf]
    exact slot?_setSlot (slot?_setSlot hfree _) _

/-! ### How a sample starts (R23, R266) -/

/-- The sample that a slot begins to fill. -/
def freshFilling (x : SlotState) (pin fno : Nat) (raw : Option Nat) : Filling :=
  ⟨x.takeBuf, pin / 8 * 8, x.nextSeq, 0, 0, [], raw, false, none, false, fno, 0, x.model.received + 1, []⟩

/-- A slot as its sample starts: in the buffer taken, or dropped and counted where there is none. -/
def started (x : SlotState) (pin fno : Nat) (raw : Option Nat) : SlotState :=
  let y := { x with
    nextSeq := (x.nextSeq + 1) % 2 ^ 32, lastPin := pin / 8 * 8, orderCount := x.orderCount + 1, filling := some (freshFilling x pin fno raw),
    bufs := match x.takeBuf with
      | some i => x.bufs.modify i (fun b => { b with state := 1, order := x.orderCount + 1 })
      | none => x.bufs,
    model := { x.model with received := x.model.received + 1 } }
  if x.takeBuf.isNone then counted y 0 else y

theorem started_filling (x : SlotState) (pin fno : Nat) (raw : Option Nat) : (started x pin fno raw).filling = some (freshFilling x pin fno raw) := by
  cases hb : x.takeBuf <;> simp [started, counted, hb]

theorem started_rest (x : SlotState) (pin fno : Nat) (raw : Option Nat) : (started x pin fno raw).waiting = x.waiting ∧ (started x pin fno raw).nextSeq = (x.nextSeq + 1) % 2 ^ 32 ∧
    (started x pin fno raw).lastPin = pin / 8 * 8 ∧ (started x pin fno raw).cfg = x.cfg ∧ (started x pin fno raw).fsNo = x.fsNo := by
  cases hb : x.takeBuf <;> simp [started, counted, hb]

theorem startSample_eq {x : SlotState} (h : s.slot? k = some x) (pin fno : Nat) (raw : Option Nat) :
    s.startSample k pin fno raw = { s with ingest := { s.ingest with slots := s.ingest.slots.set k (started x pin fno raw) } } := by
  have hset (f : SlotState → SlotState) : s.setSlot k f = { s with ingest := { s.ingest with slots := s.ingest.slots.set k (f x) } } := by
    rw [State.setSlot, Tab.update_of_get? f h]
  unfold State.startSample
  rw [h]
  dsimp only
  rw [hset]
  cases hb : x.takeBuf with
  | none =>
    rw [if_pos (by rfl), State.countDrop, State.setSlot]
    simp only [Tab.update_of_get? _ (Tab.get?_set_self _ _ _), Tab.set_set]
    simp only [started, freshFilling, hb]
    rfl
  | some b =>
    rw [if_neg (by simp)]
    simp only [started, freshFilling, hb]
    rfl

theorem startSample_step {x : SlotState} (h : s.slot? k = some x) (pin fno : Nat) (raw : Option Nat) :
    SlotStep k s (s.startSample k pin fno raw) ∧ (s.startSample k pin fno raw).slot? k = some (started x pin fno raw) := by
  rw [startSample_eq h]
  exact ⟨⟨rfl, fun j hj => Tab.get?_set_ne _ _ _ _ hj⟩, Tab.get?_set_self _ _ _⟩

/-- What is picked from a list, one by one, is a member. -/
theorem foldl_pick_mem {α : Type} {step : Option α → α → Option α} (hstep : ∀ best i, step best i = best ∨ step best i = some i) (l : List α) : ∀ (best : Option α) (a : α),
    l.foldl step best = some a → best = some a ∨ a ∈ l := by
  induction l with
  | nil => exact fun best a h => .inl h
  | cons i r ih =>
    intro best a h
    rcases ih _ a h with hbest | hr
    · rcases hstep best i with hsame | hpick
      · exact .inl (hsame.symm.trans hbest)
      · cases hpick.symm.trans hbest
        exact .inr List.mem_cons_self
    · exact .inr (List.mem_cons_of_mem _ hr)

/-- The buffer that a sample takes is not being filled, and nobody holds it (R266). -/
theorem takeBuf_free {x : SlotState} {b : Nat} {y : Buf} (h : x.takeBuf = some b) (hy : x.bufs[b]? = some y) : y.state ≠ 1 ∧ y.holds = [] := by
  unfold SlotState.takeBuf at h
  have hmem := foldl_pick_mem (fun best i => by
    cases best with
    | none => exact .inr rfl
    | some j =>
      dsimp only
      split
      · exact .inr rfl
      · exact .inl rfl) _ none b h
  rcases hmem with hnone | hmem
  · cases hnone
  · have := (List.mem_filter.1 hmem).2
    simp only [hy, Bool.and_eq_true, decide_eq_true_eq, List.isEmpty_iff] at this
    exact ⟨this.1.1, this.1.2⟩

/-- Slot `k` alone may change. -/
structure SlotSet (k : Nat) (s t : State) : Prop where
  rest : t = { s with ingest := { s.ingest with slots := t.ingest.slots } }
  others : ∀ j, j ≠ k → t.slot? j = s.slot? j

theorem SlotSet.trans (h : SlotSet k s t) (g : SlotSet k t u) : SlotSet k s u := by
  refine ⟨?_, fun j hj => (g.others j hj).trans (h.others j hj)⟩
  have hg := g.rest
  rw [h.rest] at hg
  exact hg

theorem SlotSet.step (h : SlotSet k s t) : SlotStep k s t := ⟨by rw [h.rest], h.others⟩

theorem SlotSet.stores (h : SlotSet k s t) : t.stores = s.stores := by rw [h.rest]

theorem SlotSet.csiPorts (h : SlotSet k s t) : t.ingest.csiPorts = s.ingest.csiPorts := by rw [h.rest]

theorem setSlot_set (s : State) (k : Nat) (f : SlotState → SlotState) : SlotSet k s (s.setSlot k f) := ⟨rfl, (setSlot_step s k f).others⟩

theorem startSample_set {x : SlotState} (h : s.slot? k = some x) (pin fno : Nat) (raw : Option Nat) : SlotSet k s (s.startSample k pin fno raw) :=
  ⟨by rw [startSample_eq h], (startSample_step h pin fno raw).1.others⟩

theorem slot?_setFilling {x : SlotState} {f : Filling} (h : s.slot? k = some x) (hf : x.filling = some f) (g : Filling → Filling) :
    (s.setFilling k g).slot? k = some { x with filling := some (g f) } := by
  rw [State.setFilling, slot?_setSlot h, hf]
  rfl

/-- A sample that is to be dropped, for the first reason met (R267). -/
def spoiled (f : Filling) (reason : Nat) : Filling := { f with bad := if f.bad.isNone then some reason else f.bad }

theorem slot?_spoilSample {x : SlotState} {f : Filling} (h : s.slot? k = some x) (hf : x.filling = some f) (reason : Nat) :
    (s.spoilSample k reason).slot? k = some { x with filling := some (spoiled f reason) } := slot?_setFilling h hf _

/-! ### How a sample ends at its pin -/

theorem endSample_good {x : SlotState} {f : Filling} {b : Nat} (h : s.slot? k = some x) (hf : x.filling = some f) (hb : f.buf = some b) (hgood : f.bad = none) :
    SlotSet k s (s.endSample k) ∧ (s.endSample k).slot? k = some { x with filling := none, waiting := x.waiting ++ [{ f with endTime := s.clock.now }] } := by
  have he : s.endSample k = s.setSlot k (fun t => { t with filling := none, waiting := t.waiting ++ [{ f with endTime := s.clock.now }] }) := by
    unfold State.endSample
    rw [h]
    simp only [Option.bind_some, hf, hb, hgood]
  rw [he]
  exact ⟨setSlot_set _ _ _, slot?_setSlot h _⟩

theorem endSample_bad {x : SlotState} {f : Filling} (h : s.slot? k = some x) (hf : x.filling = some f) (hbad : f.buf = none ∨ f.bad.isSome = true) :
    s.endSample k = s.dropSample k (f.bad.getD 0) := by
  unfold State.endSample
  rw [h]
  simp only [Option.bind_some, hf]
  cases hb : f.buf with
  | none => rfl
  | some b =>
    obtain ⟨r, hr⟩ := Option.isSome_iff_exists.1 (hbad.resolve_left (by rw [hb]; simp))
    rw [hr]

/-- A slot with no sample under way and, of what waits, the same samples that found a buffer; a drop more is counted for the reason. -/
structure DropCounted (x y : SlotState) (reason : Nat) : Prop where
  idle : y.filling = none
  kept : y.waiting.filter (fun f => f.buf.isSome) = x.waiting.filter (fun f => f.buf.isSome)
  drops : y.drops = x.drops.modify reason (fun n => (n + 1) % 2 ^ 32)
  seq : y.nextSeq = x.nextSeq

/-- A sample that found no buffer was counted as it started; one that goes for another reason is counted now. -/
theorem dropStarted_spec {x : SlotState} {pin fno reason : Nat} {raw : Option Nat} {f : Filling} (hbuf : f.buf = x.takeBuf) (hslot : s.slot? k = some { started x pin fno raw with filling := some f }) :
    SlotStep k s (s.dropSample k reason) ∧ ∃ y, (s.dropSample k reason).slot? k = some y ∧
      DropCounted { x with nextSeq := (x.nextSeq + 1) % 2 ^ 32 } y (if x.takeBuf = none then 0 else f.bad.getD reason) := by
  obtain ⟨hstep, y, hy, hrest, hkept⟩ := dropSample_spec hslot rfl reason
  refine ⟨hstep, y, hy, ?_⟩
  cases hb : x.takeBuf with
  | none =>
    rw [hrest]
    refine ⟨?_, ?_, ?_, ?_⟩
    · simp only [dropped, hbuf, hb, started, counted, Option.isNone_none, if_true]
    · refine hkept.trans ?_
      simp [dropped, hbuf, hb, started, counted]
    · simp only [dropped, hbuf, hb, started, counted, Option.isNone_none, if_true]
    · simp only [dropped, hbuf, hb, started, counted, Option.isNone_none, if_true]
  | some b =>
    rw [hrest]
    refine ⟨?_, ?_, ?_, ?_⟩
    · simp only [dropped, hbuf, hb, started, counted, Option.isNone_some, Bool.false_eq_true, if_false]
    · refine hkept.trans ?_
      simp [dropped, hbuf, hb, started, counted]
    · simp [dropped, hbuf, hb, started, counted]
    · simp only [dropped, hbuf, hb, started, counted, Option.isNone_some, Bool.false_eq_true, if_false]

/-- A sample that starts and ends at once, in the buffer it found. -/
theorem startEnd_good {x : SlotState} {b : Nat} (h : s.slot? k = some x) (hb : x.takeBuf = some b) (pin : Nat) :
    SlotSet k s ((s.startSample k pin 0 none).endSample k) ∧ ((s.startSample k pin 0 none).endSample k).slot? k =
      some { started x pin 0 none with filling := none, waiting := x.waiting ++ [{ freshFilling x pin 0 none with endTime := s.clock.now }] } := by
  have hset := startSample_set h pin 0 none
  have hslot := (startSample_step h pin 0 none).2
  obtain ⟨hend, hafter⟩ := endSample_good hslot (started_filling x pin 0 none) hb rfl
  refine ⟨hset.trans hend, hafter.trans ?_⟩
  rw [hset.step.clock]
  simp only [started, hb, Option.isNone_some, Bool.false_eq_true, if_false]

theorem startEnd_none {x : SlotState} (h : s.slot? k = some x) (hb : x.takeBuf = none) (pin : Nat) :
    SlotStep k s ((s.startSample k pin 0 none).endSample k) ∧ ∃ y, ((s.startSample k pin 0 none).endSample k).slot? k = some y ∧
      DropCounted { x with nextSeq := (x.nextSeq + 1) % 2 ^ 32 } y 0 := by
  have hstep := (startSample_step h pin 0 none).1
  have hslot := (startSample_step h pin 0 none).2
  rw [endSample_bad hslot (started_filling _ _ _ _) (.inl hb)]
  obtain ⟨hdrop, y, hy, hcount⟩ := dropStarted_spec (f := freshFilling x pin 0 none) (reason := 0) rfl (hslot.trans (by rw [← started_filling]))
  exact ⟨hstep.trans hdrop, y, hy, by rw [if_pos hb] at hcount; exact hcount⟩

end Steps

/-! ### CSI-2 Frame Start (R259, R260, R266, R267, R468) -/

section Csi

variable {s : State} {k die port : Nat} {t : SlotState} {frame : FramePacket}

/-- What a link check leaves of a sample (R260). -/
def linked (f : Filling) : LinkCheck → Filling
  | .ok => f
  | .headerCorrected => { f with corrected := true }
  | .bad => spoiled f 3

/-- What a short packet's burst leaves of a sample, on a link of a class (R468). -/
def bursted (frame : FramePacket) (cls : Option PortClass) (f : Filling) : Filling :=
  if cls = none ∨ cls = some ⟨frame.dphy, frame.lanes⟩ then linked f frame.link else spoiled (linked f frame.link) 2

theorem linkOutcome_spec {x : SlotState} {f : Filling} (h : s.slot? k = some x) (hf : x.filling = some f) (link : LinkCheck) :
    SlotSet k s (s.linkOutcome k link) ∧ (s.linkOutcome k link).slot? k = some { x with filling := some (linked f link) } := by
  cases link with
  | ok => exact ⟨⟨rfl, fun _ _ => rfl⟩, by rw [State.linkOutcome, h, linked, ← hf]⟩
  | headerCorrected => exact ⟨setSlot_set _ _ _, slot?_setFilling h hf _⟩
  | bad => exact ⟨setSlot_set _ _ _, slot?_spoilSample h hf 3⟩

theorem burstOutcome_spec {x : SlotState} {f : Filling} (h : s.slot? k = some x) (hf : x.filling = some f) :
    SlotSet k s (s.burstOutcome k die port frame) ∧
    (s.burstOutcome k die port frame).slot? k = some { x with filling := some (bursted frame (s.ingest.csiPorts.get? (12 * die + port)) f) } := by
  obtain ⟨hset, hslot⟩ := linkOutcome_spec h hf frame.link
  unfold State.burstOutcome
  extract_lets u
  have hports : u.ingest.csiPorts = s.ingest.csiPorts := hset.csiPorts
  rw [hports]
  cases hc : s.ingest.csiPorts.get? (12 * die + port) with
  | none => exact ⟨hset, by rw [bursted, if_pos (.inl rfl)]; exact hslot⟩
  | some c =>
    dsimp only
    split
    · next hsame => exact ⟨hset, by rw [bursted, if_pos (.inr (by rw [hsame]))]; exact hslot⟩
    · next hother =>
      rw [bursted, if_neg (by simpa using hother)]
      exact ⟨hset.trans (setSlot_set _ _ _), slot?_spoilSample hslot rfl 2⟩

/-- The slot that a Frame Start finds keeps its number. -/
def frameNoted (frame : FramePacket) (x : SlotState) : SlotState := { x with fsNo := if frame.link = .bad then x.fsNo else frame.number }

/-- The class that a port's link has once a burst has come to it. -/
def classAfter (s : State) (die port : Nat) (frame : FramePacket) : Option PortClass :=
  if s.ingest.csiPorts.get? (12 * die + port) = none then some ⟨frame.dphy, frame.lanes⟩ else s.ingest.csiPorts.get? (12 * die + port)

theorem classify_spec (h : s.csiEnabled die port = true) :
    s.classify die port ⟨frame.dphy, frame.lanes⟩ = { s with ingest := { s.ingest with csiPorts := (s.classify die port ⟨frame.dphy, frame.lanes⟩).ingest.csiPorts } } ∧
    (s.classify die port ⟨frame.dphy, frame.lanes⟩).ingest.csiPorts.get? (12 * die + port) = classAfter s die port frame ∧
    (s.ingest.csiPorts.get? (12 * die + port) ≠ none → (s.classify die port ⟨frame.dphy, frame.lanes⟩).ingest.csiPorts = s.ingest.csiPorts) := by
  unfold State.classify classAfter
  rw [h, Bool.true_and]
  cases hc : s.ingest.csiPorts.get? (12 * die + port) with
  | none => exact ⟨rfl, Tab.get?_set_self _ _ _, fun hne => absurd rfl hne⟩
  | some c => exact ⟨rfl, hc, fun _ => rfl⟩

/-- A CSI-2 slot that is enabled keeps its port enabled through a change that leaves its configuration. -/
theorem csiEnabled_of_slot {x : SlotState} (h : s.slot? k = some x) (hdie : k / 48 = die) (hif : x.cfg.iface = 1) (hport : x.cfg.port = port) (hon : s.slotOn k = true) :
    s.csiEnabled die port = true := by
  rw [State.csiEnabled, List.any_eq_true]
  exact ⟨(k, x), Tab.mem_of_get? h, by simp [hdie, hif, hport, hon]⟩

/-- The raw stamp that a Frame Start brings. -/
def frameStamp (t : SlotState) (frame : FramePacket) : Option Nat := if t.cfg.srcKind = 1 ∧ frame.link ≠ .bad then some (frame.number % 65536) else none

/-- A Frame Start on a slot whose sample before has gone. -/
def frameStarted (s : State) (k die port : Nat) (t : SlotState) (frame : FramePacket) : State :=
  ((s.classify die port ⟨frame.dphy, frame.lanes⟩).startSample k s.clock.now frame.number (frameStamp t frame)).burstOutcome k die port frame

theorem exec_csi2FrameStart {vc : Nat} (hslot : s.csiSlot die port vc = some (k, t)) (hgo : ((s.dropSample k 2).setSlot k (frameNoted frame)).controlReady = true ∧
    ((s.dropSample k 2).setSlot k (frameNoted frame)).slotOn k = true) :
    exec (.csi2FrameStart die port vc frame) s = .next (frameStarted ((s.dropSample k 2).setSlot k (frameNoted frame)) k die port t frame) := by
  have hgo' := hgo
  unfold frameNoted at hgo'
  simp only [exec, execCsi2FrameStart, hslot]
  rw [if_pos (by rw [Bool.and_eq_true]; exact hgo')]
  rfl

theorem frameStarted_spec {x : SlotState} (h : s.slot? k = some x) (hen : s.csiEnabled die port = true) :
    (∃ slots ports, frameStarted s k die port t frame = { s with ingest := { s.ingest with slots := slots, csiPorts := ports } }) ∧
    (∀ j, j ≠ k → (frameStarted s k die port t frame).slot? j = s.slot? j) ∧
    (frameStarted s k die port t frame).ingest.csiPorts = (s.classify die port ⟨frame.dphy, frame.lanes⟩).ingest.csiPorts ∧
    (frameStarted s k die port t frame).slot? k = some { started x s.clock.now frame.number (frameStamp t frame) with
      filling := some (bursted frame (classAfter s die port frame) (freshFilling x s.clock.now frame.number (frameStamp t frame))) } := by
  obtain ⟨hrest, hclass, -⟩ := classify_spec (frame := frame) hen
  let u := s.classify die port ⟨frame.dphy, frame.lanes⟩
  have hu : u.slot? k = some x := by
    rw [show u = _ from hrest]
    exact h
  have hothers : ∀ j, u.slot? j = s.slot? j := fun j => by
    rw [show u = _ from hrest]
    rfl
  have hset := startSample_set hu s.clock.now frame.number (frameStamp t frame)
  obtain ⟨hburst, hlast⟩ := burstOutcome_spec (die := die) (port := port) (frame := frame) (startSample_step hu s.clock.now frame.number (frameStamp t frame)).2 (started_filling _ _ _ _)
  have hall := hset.trans hburst
  refine ⟨⟨(frameStarted s k die port t frame).ingest.slots, u.ingest.csiPorts, ?_⟩, fun j hj => (hall.others j hj).trans (hothers j), hall.csiPorts, ?_⟩
  · exact hall.rest.trans (congrArg (fun v : State => { v with ingest := { v.ingest with slots := (frameStarted s k die port t frame).ingest.slots } }) hrest)
  · rw [hset.csiPorts, hclass] at hlast
    exact hlast

/-- What a Frame Start leaves of the sample it starts: spoiled by its header, or by a link of another class (R260, R468). -/
theorem bursted_fresh (x : SlotState) (pin : Nat) (raw : Option Nat) (cls : Option PortClass) (hcls : cls ≠ none) :
    bursted frame cls (freshFilling x pin frame.number raw) = { freshFilling x pin frame.number raw with
      corrected := decide (frame.link = .headerCorrected),
      bad := if frame.link = .bad then some 3 else if cls = some ⟨frame.dphy, frame.lanes⟩ then none else some 2 } := by
  by_cases hsame : cls = some ⟨frame.dphy, frame.lanes⟩
  · rw [bursted, if_pos (.inr hsame), if_pos hsame]
    cases frame.link <;> rfl
  · rw [bursted, if_neg (by rintro (h | h); exacts [hcls h, hsame h]), if_neg hsame]
    cases frame.link <;> rfl

theorem dropSample_idle {x : SlotState} (h : s.slot? k = some x) (hf : x.filling = none) (reason : Nat) : s.dropSample k reason = s := by
  unfold State.dropSample
  rw [h]
  simp only [Option.bind_some, hf]

theorem bursted_seq (cls : Option PortClass) (f : Filling) : (bursted frame cls f).seq = f.seq := by
  unfold bursted
  split <;> cases frame.link <;> rfl

/-- What a sample's start does to the drops counted for another reason. -/
theorem started_drops (x : SlotState) (pin fno : Nat) (raw : Option Nat) {i : Nat} (hi : i ≠ 0) : (started x pin fno raw).drops[i]? = x.drops[i]? := by
  cases hb : x.takeBuf
  · simp [started, counted, hb, Ne.symm hi]
  · simp [started, hb]

/-- A slot that may take a Frame Start. -/
structure Framed (s : State) (k die port vc : Nat) (t : SlotState) : Prop where
  slot : s.slot? k = some t
  here : s.csiSlot die port vc = some (k, t)
  ready : s.controlReady = true
  on : s.slotOn k = true

theorem Framed.place {vc : Nat} (h : Framed s k die port vc t) : k / 48 = die ∧ t.cfg.iface = 1 ∧ t.cfg.port = port := by
  have := List.find?_some h.here
  simp only [decide_eq_true_eq] at this
  exact ⟨this.1, this.2.1, this.2.2.1⟩

/-- A Frame Start on a slot that fills no sample. -/
theorem csi2FrameStart_idle {vc : Nat} (h : Framed s k die port vc t) (hidle : t.filling = none) :
    let u := frameStarted (s.setSlot k (frameNoted frame)) k die port t frame
    exec (.csi2FrameStart die port vc frame) s = .next u ∧ u.stores = s.stores ∧ (∀ j, j ≠ k → u.slot? j = s.slot? j) ∧
    u.slot? k = some { started (frameNoted frame t) s.clock.now frame.number (frameStamp t frame) with
      filling := some (bursted frame (classAfter s die port frame) (freshFilling t s.clock.now frame.number (frameStamp t frame))) } ∧
    u.ingest.csiPorts.get? (12 * die + port) = classAfter s die port frame ∧ (s.ingest.csiPorts.get? (12 * die + port) ≠ none → u.ingest.csiPorts = s.ingest.csiPorts) := by
  let v := s.setSlot k (frameNoted frame)
  have hv : v.slot? k = some (frameNoted frame t) := slot?_setSlot h.slot _
  have hset := setSlot_set s k (frameNoted frame)
  obtain ⟨hdie, hif, hport⟩ := h.place
  have hen : v.csiEnabled die port = true := csiEnabled_of_slot hv hdie hif hport h.on
  obtain ⟨⟨slots, ports, hu⟩, hothers, hports, hslot⟩ := frameStarted_spec (t := t) (frame := frame) hv hen
  obtain ⟨-, hclass, hsame⟩ := classify_spec (frame := frame) hen
  have hexec := exec_csi2FrameStart (frame := frame) h.here (by rw [dropSample_idle h.slot hidle]; exact ⟨h.ready, h.on⟩)
  rw [dropSample_idle h.slot hidle] at hexec
  intro u
  refine ⟨hexec, ?_, fun j hj => (hothers j hj).trans (hset.others j hj), hslot, ?_, fun hne => ?_⟩
  · rw [show u = _ from hu]
    rfl
  · rw [show u.ingest.csiPorts = _ from hports]
    exact hclass
  · rw [show u.ingest.csiPorts = _ from hports]
    exact hsame hne

/-- A Frame Start ends a sample that is still open as INCOMPLETE. -/
theorem csi2FrameStart_open {vc b : Nat} {f : Filling} (h : Framed s k die port vc t) (hf : t.filling = some f) (hb : f.buf = some b) (hgood : f.bad = none) (hlen : t.drops.length = 5) :
    ∃ (u : State) (t' : SlotState), exec (.csi2FrameStart die port vc frame) s = .next u ∧ u.slot? k = some t' ∧
      t'.waiting.filter (fun y => y.buf.isSome) = t.waiting.filter (fun y => y.buf.isSome) ∧ t'.nextSeq = (t.nextSeq + 1) % 2 ^ 32 ∧
      t'.filling.map (·.seq) = some t.nextSeq ∧ t'.drops.getD 2 0 = (t.drops.getD 2 0 + 1) % 2 ^ 32 := by
  obtain ⟨hdrop, y, hy, hrest, hkept⟩ := dropSample_spec h.slot hf 2
  have hd : dropped t f 2 = counted { t with filling := none, waiting := t.waiting ++ [{ f with buf := none, fifo := [] }], bufs := t.bufs.modify b (fun b => { b with state := 0, order := 0 }) } 2 := by
    simp [dropped, hb, hgood]
  rw [hd] at hrest hkept
  let v := (s.dropSample k 2).setSlot k (frameNoted frame)
  have hv : v.slot? k = some (frameNoted frame y) := slot?_setSlot hy _
  have hstep := hdrop.trans (setSlot_step (s.dropSample k 2) k (frameNoted frame))
  obtain ⟨hdie, hif, hport⟩ := h.place
  have hcfg : y.cfg = t.cfg := by
    rw [hrest]
    rfl
  have hon : v.slotOn k = true := (hstep.slotOn k).trans h.on
  have hready : v.controlReady = true := by
    rw [show v = _ from hstep.rest]
    exact h.ready
  have hen : v.csiEnabled die port = true := csiEnabled_of_slot hv hdie (by rw [← hif, ← hcfg]; rfl) (by rw [← hport, ← hcfg]; rfl) hon
  obtain ⟨-, -, -, hslot⟩ := frameStarted_spec (t := t) (frame := frame) hv hen
  have hseq : (frameNoted frame y).nextSeq = t.nextSeq := by
    rw [frameNoted, hrest]
    rfl
  refine ⟨_, _, exec_csi2FrameStart h.here ⟨hready, hon⟩, hslot, ?_, ?_, ?_, ?_⟩
  · change (started (frameNoted frame y) _ _ _).waiting.filter _ = _
    rw [(started_rest _ _ _ _).1]
    exact hkept.trans (by simp [counted])
  · change (started (frameNoted frame y) _ _ _).nextSeq = _
    rw [(started_rest _ _ _ _).2.1, hseq]
  · change some (bursted frame _ _).seq = _
    rw [bursted_seq]
    exact congrArg some hseq
  · change (started (frameNoted frame y) _ _ _).drops.getD 2 0 = _
    rw [List.getD_eq_getElem?_getD, started_drops _ _ _ _ (by decide), show (frameNoted frame y).drops = y.drops from rfl, hrest]
    simp [counted, hlen]

end Csi

/-! ### GPIO edges and SPI starts (R262, R263, R470) -/

section Gpio

variable {s t u : State} {k : Nat}

theorem startSample_anyStep (s : State) (k pin fno : Nat) (raw : Option Nat) : SlotStep k s (s.startSample k pin fno raw) := by
  rcases h : s.slot? k with _ | x
  · rw [show s.startSample k pin fno raw = s by rw [State.startSample, h]]
    exact .refl k s
  · exact (startSample_step h pin fno raw).1

theorem dropSample_anyStep (s : State) (k reason : Nat) : SlotStep k s (s.dropSample k reason) := by
  rcases h : s.slot? k with _ | x
  · rw [show s.dropSample k reason = s by rw [State.dropSample, h]; rfl]
    exact .refl k s
  · rcases hf : x.filling with _ | f
    · rw [dropSample_idle h hf]
      exact .refl k s
    · exact (dropSample_spec h hf reason).1

theorem endSample_anyStep (s : State) (k : Nat) : SlotStep k s (s.endSample k) := by
  unfold State.endSample
  split
  · exact .refl k s
  · split
    · exact setSlot_step _ _ _
    · exact dropSample_anyStep _ _ _

theorem spiStart_anyStep (s : State) (k pin : Nat) (t : SlotState) : SlotStep k s (s.spiStart k pin t) := by
  unfold State.spiStart
  split
  · exact .refl k s
  · exact (startSample_anyStep s k pin 0 none).trans (.of_told k rfl)

/-- What an edge of a line does to one slot of its die. -/
def edgeSlot (line : Nat) (rising : Bool) (pin : Nat) (s : State) (kv : Nat × SlotState) : State :=
  let c := kv.2.cfg
  if c.iface = 4 ∧ c.port = line ∧ (bit c.sub (if rising then 0 else 1)) ∧ s.slotOn kv.1 then (s.startSample kv.1 pin 0 none).endSample kv.1
  else if c.iface = 3 ∧ c.trig = line ∧ rising then s.spiStart kv.1 pin kv.2
  else s

theorem edgeSlot_step (line : Nat) (rising : Bool) (pin : Nat) (s : State) (kv : Nat × SlotState) : SlotStep kv.1 s (edgeSlot line rising pin s kv) := by
  unfold edgeSlot
  dsimp only
  generalize bit kv.2.cfg.sub (if rising = true then 0 else 1) = e
  split
  · exact (startSample_anyStep _ _ _ _ _).trans (endSample_anyStep _ _)
  · split
    · exact spiStart_anyStep _ _ _ _
    · exact .refl _ s

/-- Slots other than `k`, event queues, what left the part and host memory may change, and nothing else. -/
structure Apart (k : Nat) (s t : State) : Prop where
  rest : t = { s with ingest := { s.ingest with slots := t.ingest.slots }, proto := { s.proto with eqs := t.proto.eqs },
                      stores := { s.stores with host := t.stores.host, poison := t.stores.poison }, out := t.out }
  own : t.slot? k = s.slot? k

theorem Apart.trans (h : Apart k s t) (g : Apart k t u) : Apart k s u := by
  refine ⟨?_, g.own.trans h.own⟩
  have hg := g.rest
  rw [h.rest] at hg
  exact hg

theorem Apart.of_step {j : Nat} (h : SlotStep j s t) (hj : j ≠ k) : Apart k s t := ⟨h.rest, h.others k hj.symm⟩

theorem Apart.slotOn (h : Apart k s t) (j : Nat) : t.slotOn j = s.slotOn j := by
  rw [h.rest]
  rfl

theorem Apart.fields (h : Apart k s t) : t.ingest.gpioStamp = s.ingest.gpioStamp ∧ t.stores.xd = s.stores.xd ∧ t.stores.tier2 = s.stores.tier2 ∧ t.clock.now = s.clock.now := by
  rw [h.rest]
  exact ⟨rfl, rfl, rfl, rfl⟩

theorem SlotStep.stamp (h : SlotStep k s t) : t.ingest.gpioStamp = s.ingest.gpioStamp := by rw [h.rest]

theorem edgeSlots_apart (line : Nat) (rising : Bool) (pin : Nat) (l : List (Nat × SlotState)) : (∀ kv ∈ l, kv.1 ≠ k) → ∀ s : State,
    Apart k s (l.foldl (edgeSlot line rising pin) s) := by
  induction l with
  | nil => exact fun _ s => ⟨rfl, rfl⟩
  | cons kv r ih =>
    intro h s
    exact (Apart.of_step (edgeSlot_step line rising pin s kv) (h kv List.mem_cons_self)).trans (ih (fun x hx => h x (List.mem_cons_of_mem _ hx)) _)

/-- A table lists each key once. -/
theorem split_of_wf {α : Type} {m : Tab α} {i : Nat} {v : α} (hwf : Tab.wf m = true) (hi : m.get? i = some v) :
    ∃ a b, m = a ++ (i, v) :: b ∧ (∀ x ∈ a, x.1 ≠ i) ∧ (∀ x ∈ b, x.1 ≠ i) := by
  have hone := Tab.filter_eq_singleton (p := fun x => decide (x.1 = i)) hwf hi (by simp) (fun kv _ hne => by simpa using hne)
  obtain ⟨a, b, hm, ha, -, hb⟩ := List.filter_eq_cons_iff.1 hone
  exact ⟨a, b, hm, fun x hx => by simpa using ha x hx, fun x hx => by simpa using List.filter_eq_nil_iff.1 hb x hx⟩

/-- An edge's work on a die does one slot's work, in a state where the other slots alone have changed before. -/
theorem edgeSlots_spec {x : SlotState} (hwf : Tab.wf s.ingest.slots = true) (h : s.slot? k = some x) (line : Nat) (rising : Bool) (pin : Nat) :
    ∃ u : State, Apart k s u ∧ Apart k (edgeSlot line rising pin u (k, x))
      ((s.ingest.slots.filter (fun kv => decide (kv.1 / 48 = k / 48))).foldl (edgeSlot line rising pin) s) := by
  obtain ⟨a, b, hm, ha, hb⟩ := split_of_wf hwf h
  rw [hm, List.filter_append, List.filter_cons_of_pos (by simp), List.foldl_append, List.foldl_cons]
  exact ⟨_, edgeSlots_apart line rising pin _ (fun kv hkv => ha kv (List.mem_filter.1 hkv).1) s,
    edgeSlots_apart line rising pin _ (fun kv hkv => hb kv (List.mem_filter.1 hkv).1) _⟩

/-- A sample that starts in a transaction: its slot fills. -/
theorem spiStart_spec {x : SlotState} (h : s.slot? k = some x) (hidle : x.filling = none) (hon : s.slotOn k = true) (pin : Nat) :
    (s.spiStart k pin x).slot? k = some (started x pin 0 none) := by
  unfold State.spiStart
  rw [hidle, hon]
  exact (startSample_step h pin 0 none).2

theorem edgeSlot_gpio {x : SlotState} {line pin : Nat} {rising : Bool} (hif : x.cfg.iface = 4) (hport : x.cfg.port = line) (hedge : bit x.cfg.sub (if rising then 0 else 1) = true)
    (hon : s.slotOn k = true) : edgeSlot line rising pin s (k, x) = (s.startSample k pin 0 none).endSample k := if_pos ⟨hif, hport, hedge, hon⟩

theorem edgeSlot_spi {x : SlotState} {line pin : Nat} {rising : Bool} (hif : x.cfg.iface = 3) (htrig : x.cfg.trig = line) (hrise : rising = true) :
    edgeSlot line rising pin s (k, x) = s.spiStart k pin x := by
  unfold edgeSlot
  dsimp only
  rw [if_neg (fun h => by rw [hif] at h; exact absurd h.1 (by decide)), if_pos ⟨hif, htrig, hrise⟩]

/-- The state in which an edge's stamp stands. -/
def stamped (s : State) (die line : Nat) : State :=
  { s with ingest := { s.ingest with gpioStamp := s.ingest.gpioStamp.set (die * 24 + line) (s.clock.now / 8 * 8) } }

theorem exec_gpioEdge {die line : Nat} {rising : Bool} (hready : s.controlReady = true) (hdie : die < ioDies s.order) : exec (.gpioEdge die line rising) s =
    .next ((s.ingest.slots.filter (fun kv => decide (kv.1 / 48 = die))).foldl (edgeSlot line rising (s.clock.now / 8 * 8)) (stamped s die line)) := by
  simp only [exec, execGpioEdge, hready, Bool.not_true, Bool.false_or, decide_eq_true_eq, if_neg (Nat.not_le.2 hdie)]
  rfl

/-- A GPIO edge's stamp, and what it does to a slot of its die (R262, R263, R470). -/
theorem gpioEdge_spec {x : SlotState} {line : Nat} {rising : Bool} (h : s.slot? k = some x) (hready : s.controlReady = true) (hon : s.slotOn k = true)
    (hwf : Tab.wf s.ingest.slots = true) (hdie : k / 48 < ioDies s.order) : ∃ u v : State, exec (.gpioEdge (k / 48) line rising) s = .next u ∧
      u.ingest.gpioStamp.get? (k / 48 * 24 + line) = some (s.clock.now / 8 * 8) ∧ u.stores.xd = s.stores.xd ∧ u.stores.tier2 = s.stores.tier2 ∧
      v.slot? k = some x ∧ v.slotOn k = true ∧ v.clock.now = s.clock.now ∧ u.slot? k = (edgeSlot line rising (s.clock.now / 8 * 8) v (k, x)).slot? k := by
  obtain ⟨v, hbefore, hafter⟩ := edgeSlots_spec (s := stamped s (k / 48) line) (x := x) hwf h line rising (s.clock.now / 8 * 8)
  have hstep := edgeSlot_step line rising (s.clock.now / 8 * 8) v (k, x)
  obtain ⟨hstamp, hxd, htier2, hnow⟩ := hbefore.fields
  obtain ⟨hstamp', hxd', htier2', -⟩ := hafter.fields
  exact ⟨_, v, exec_gpioEdge hready hdie, (congrArg (fun g => Tab.get? g _) (hstamp'.trans (hstep.stamp.trans hstamp))).trans (Tab.get?_set_self _ _ _),
    hxd'.trans (hstep.xd.1.trans hxd), htier2'.trans (hstep.xd.2.trans htier2), hbefore.own.trans h, (hbefore.slotOn k).trans hon, hnow, hafter.own⟩

end Gpio

section Spi

variable {s : State} {k : Nat} {t : SlotState}

theorem nextStart_multiple (t : SlotState) (now : Nat) (h : t.nextDue % max 1 t.cfg.nomPeriod = 0) : t.nextStart now % max 1 t.cfg.nomPeriod = 0 := by
  unfold SlotState.nextStart
  rcases Nat.le_total (now / max 1 t.cfg.nomPeriod * max 1 t.cfg.nomPeriod) t.nextDue with hle | hle
  · rw [Nat.max_eq_left hle, h]
  · rw [Nat.max_eq_right hle, Nat.mul_mod_left]

/-- The slot's clock has reached its start, and the start after it is set (R263). -/
def spiDue (s : State) (k : Nat) (t : SlotState) : State :=
  (s.reach (t.nextStart s.clock.now)).setSlot k (fun y => { y with nextDue := t.nextStart s.clock.now + max 1 t.cfg.nomPeriod })

theorem exec_spiPeriodicStart (h : s.slot? k = some t) (hready : s.controlReady = true) (hon : s.slotOn k = true) (hif : t.cfg.iface = 3) (htrig : t.cfg.trig = 255) :
    exec (.spiPeriodicStart k) s = .next (if t.filling.isSome then spiDue s k t
      else ((spiDue s k t).startSample k (t.nextStart s.clock.now) 0 none).emit (.sensorSpi k (t.cfg.spiCmd.take t.cfg.spiCmdLen))) := by
  have hdue : (spiDue s k t).slotOn k = true := hon
  have hstart : exec (.spiPeriodicStart k) s = .next ((spiDue s k t).spiStart k (t.nextStart s.clock.now) t) := by
    have hthere : (s.reach (t.nextStart s.clock.now)).ingest.slots.get? k = some t := h
    simp only [exec, execSpiPeriodicStart, h, hready, hon, hif, htrig, and_self, decide_true, Bool.and_self, if_true]
    simp only [spiDue, State.setSlot, Tab.update_of_get? _ hthere]
  rw [hstart, State.spiStart, hdue, Bool.not_true, Bool.or_false]

end Spi

/-! ### Ethernet frames (R259, R262, R267) -/

section Ethernet

variable {s : State} {k : Nat} {x : SlotState} {f : Filling} {b : Nat}

theorem putData_none (h : s.slot? k = some x) (hf : x.filling = some f) (hb : f.buf = none) (off : Nat) (bs : List Byte) : s.putData k off bs = s := by
  unfold State.putData
  rw [h]
  dsimp only
  rw [hf]
  dsimp only
  rw [hb]

theorem putData_ring (h : s.slot? k = some x) (hf : x.filling = some f) (hb : f.buf = some b) (hplace : x.cfg.place = 0) (off : Nat) (bs : List Byte) :
    s.putData k off bs = s.apply [⟨.xd, xdKey k (b * x.cfg.bufBytes + off), bs⟩] := by
  unfold State.putData
  rw [h]
  dsimp only
  rw [hf]
  dsimp only
  rw [hb]
  exact if_pos hplace

theorem putData_fifo (h : s.slot? k = some x) (hf : x.filling = some f) (hb : f.buf = some b) (hplace : x.cfg.place ≠ 0) (off : Nat) (bs : List Byte)
    (hroom : s.fifoBytes (k / 48) + bs.length ≤ 1048576) : s.putData k off bs = s.setFilling k (fun f => { f with fifo := f.fifo ++ [(off, bs)] }) := by
  unfold State.putData
  rw [h]
  dsimp only
  rw [hf]
  dsimp only
  rw [hb]
  exact (if_neg hplace).trans (if_neg (Nat.not_lt.2 hroom))

/-- Bytes that one slot has in the landing FIFO. -/
def slotFifo (x : SlotState) : Nat := ((x.filling.toList ++ x.waiting).map (fun f => (f.fifo.map (fun x => x.2.length)).foldl (· + ·) 0)).foldl (· + ·) 0

theorem fifoBytes_eq (s : State) (die : Nat) : s.fifoBytes die = ((s.ingest.slots.filter (fun kv => decide (kv.1 / 48 = die))).map (fun kv => slotFifo kv.2)).sum := by
  rw [List.sum_eq_foldl]
  rfl

/-- In a table whose keys rise, setting a key that is there replaces its value. -/
theorem set_of_split {α : Type} {i : Nat} {v w : α} (a b : Tab α) (hwf : Tab.wf (a ++ (i, v) :: b) = true) : Tab.set (a ++ (i, v) :: b) i w = a ++ (i, w) :: b := by
  induction a with
  | nil => simp [Tab.set]
  | cons y r ih =>
    obtain ⟨habove, hr⟩ := (Tab.wf_cons y (r ++ (i, v) :: b)).1 hwf
    have hlt : y.1 < i := habove (i, v) (List.mem_append_right _ List.mem_cons_self)
    obtain ⟨j, z⟩ := y
    simp only [List.cons_append, Tab.set]
    rw [if_neg (by simp only at hlt; omega), if_neg (by simp only at hlt; omega), ih hr]

theorem fifoBytes_set {y : SlotState} (hwf : Tab.wf s.ingest.slots = true) (h : s.slot? k = some x) :
    State.fifoBytes { s with ingest := { s.ingest with slots := s.ingest.slots.set k y } } (k / 48) + slotFifo x = s.fifoBytes (k / 48) + slotFifo y := by
  obtain ⟨a, b, hm, -, -⟩ := split_of_wf hwf h
  rw [fifoBytes_eq, fifoBytes_eq]
  dsimp only
  rw [hm, set_of_split a b (hm ▸ hwf)]
  simp only [List.filter_append, List.filter_cons, decide_true, if_true, List.map_append, List.map_cons, List.sum_append, List.sum_cons]
  omega

/-- The converted vector of a payload (R277). -/
def payloadVector (s : State) (k : Nat) (bs : List Byte) : List Byte := ((List.range (s.vecLen k)).map (fun e => toLe 4 (code32 (s.vecEntry k e bs)))).flatten

theorem length_payloadVector (s : State) (k : Nat) (bs : List Byte) : (payloadVector s k bs).length = 4 * s.vecLen k := by
  simp [payloadVector, List.length_flatten, Function.comp_def, Nat.mul_comm]

/-- The conversion table alone says what a payload becomes. -/
theorem payloadVector_of_scopes {a : State} (h : a.scopes = s.scopes) (k : Nat) (bs : List Byte) : a.vecLen k = s.vecLen k ∧ payloadVector a k bs = payloadVector s k bs := by
  have hword : a.activeWord = s.activeWord := by
    funext kind id off
    rw [State.activeWord, State.activeWord, h]
  have hentry : a.vecEntry = s.vecEntry := by
    funext k e l
    rw [State.vecEntry, State.vecEntry, hword]
  have hlen : a.vecLen k = s.vecLen k := by rw [State.vecLen, State.vecLen, hword]
  exact ⟨hlen, by rw [payloadVector, payloadVector, hlen, hentry]⟩

theorem putPayload_eq (s : State) (k : Nat) (bs : List Byte) :
    s.putPayload k bs = (if (payloadVector s k bs).isEmpty then s else s.putData k 64 (payloadVector s k bs)).putData k 1088 bs := rfl

theorem putPayload_none (h : s.slot? k = some x) (hf : x.filling = some f) (hb : f.buf = none) (bs : List Byte) : s.putPayload k bs = s := by
  rw [putPayload_eq, putData_none h hf hb, ite_self, putData_none h hf hb]

/-- One write to the I/O dies' store. -/
structure XdWrite (s t : State) (a : Nat) (bs : List Byte) : Prop where
  rest : t = { s with stores := t.stores }
  core : t.stores.core = s.stores.core
  region : t.stores.region = s.stores.region
  tier2 : t.stores.tier2 = s.stores.tier2
  within : ∀ i, i < bs.length → t.stores.xd.read (a + i) = bs.getD i 0
  outside : ∀ c, c < a ∨ a + bs.length ≤ c → t.stores.xd.read c = s.stores.xd.read c

theorem apply_xd (s : State) (a : Nat) (bs : List Byte) : XdWrite s (s.apply [⟨.xd, a, bs⟩]) a bs :=
  ⟨rfl, rfl, rfl, rfl, fun _ hi => Mem.read_writeBytes_in _ _ _ _ hi, fun _ hc => Mem.read_writeBytes_out _ _ _ _ hc⟩

theorem XdWrite.slot? {t : State} {a : Nat} {bs : List Byte} (h : XdWrite s t a bs) (k : Nat) : t.slot? k = s.slot? k := by
  rw [h.rest]
  rfl

theorem xdKey_add (k off i : Nat) : xdKey k (off + i) = xdKey k off + i := (Nat.add_assoc _ _ _).symm

/-- A payload in the ring of the I/O die's store: the vector, then the bytes (R262). -/
theorem putPayload_ring (h : s.slot? k = some x) (hf : x.filling = some f) (hb : f.buf = some b) (hplace : x.cfg.place = 0) (hlen : s.vecLen k ≤ 256) (bs : List Byte) :
    let u := s.putPayload k bs
    u = { s with stores := u.stores } ∧
    (∀ i, i < (payloadVector s k bs).length → u.stores.xd.read (xdKey k (b * x.cfg.bufBytes + 64 + i)) = (payloadVector s k bs).getD i 0) ∧
    (∀ i, i < bs.length → u.stores.xd.read (xdKey k (b * x.cfg.bufBytes + 1088 + i)) = bs.getD i 0) ∧
    u.stores.core = s.stores.core ∧ u.stores.region = s.stores.region ∧ u.stores.tier2 = s.stores.tier2 := by
  let v := if (payloadVector s k bs).isEmpty then s else s.putData k 64 (payloadVector s k bs)
  have hv : v.slot? k = some x ∧ v = { s with stores := v.stores } ∧ v.stores.core = s.stores.core ∧ v.stores.region = s.stores.region ∧ v.stores.tier2 = s.stores.tier2 ∧
      ∀ i, i < (payloadVector s k bs).length → v.stores.xd.read (xdKey k (b * x.cfg.bufBytes + 64) + i) = (payloadVector s k bs).getD i 0 := by
    by_cases hempty : (payloadVector s k bs).isEmpty = true
    · rw [show v = s from if_pos hempty]
      exact ⟨h, rfl, rfl, rfl, rfl, fun i hi => by rw [List.isEmpty_iff.1 hempty] at hi; exact absurd hi (Nat.not_lt_zero i)⟩
    · have hw := apply_xd s (xdKey k (b * x.cfg.bufBytes + 64)) (payloadVector s k bs)
      rw [show v = _ from (if_neg hempty).trans (putData_ring h hf hb hplace 64 (payloadVector s k bs))]
      exact ⟨(hw.slot? k).trans h, hw.rest, hw.core, hw.region, hw.tier2, hw.within⟩
  obtain ⟨hslot, hrest, hcore, hregion, htier2, hvec⟩ := hv
  have hu : s.putPayload k bs = v.apply [⟨.xd, xdKey k (b * x.cfg.bufBytes + 1088), bs⟩] := (putPayload_eq s k bs).trans (putData_ring hslot hf hb hplace _ _)
  have hw := apply_xd v (xdKey k (b * x.cfg.bufBytes + 1088)) bs
  have hvlen := length_payloadVector s k bs
  rw [← hu] at hw
  intro u
  refine ⟨?_, fun i hi => ?_, fun i hi => ?_, hw.core.trans hcore, hw.region.trans hregion, hw.tier2.trans htier2⟩
  · exact hw.rest.trans (congrArg (fun w : State => { w with stores := u.stores }) hrest)
  · rw [xdKey_add]
    exact (hw.outside _ (.inl (by simp only [xdKey]; omega))).trans (hvec i hi)
  · rw [xdKey_add]
    exact hw.within i hi

/-- A payload in the landing FIFO (R268). -/
theorem putPayload_fifo (hwf : Tab.wf s.ingest.slots = true) (h : s.slot? k = some x) (hf : x.filling = some f) (hb : f.buf = some b) (hplace : x.cfg.place = 1) (bs : List Byte)
    (hroom : s.fifoBytes (k / 48) + (payloadVector s k bs).length + bs.length ≤ 1048576) :
    SlotSet k s (s.putPayload k bs) ∧ (s.putPayload k bs).slot? k = some { x with filling := some { f with
      fifo := f.fifo ++ (if payloadVector s k bs = [] then [] else [(64, payloadVector s k bs)]) ++ [(1088, bs)] } } := by
  have hne : x.cfg.place ≠ 0 := by omega
  rw [putPayload_eq]
  by_cases hempty : payloadVector s k bs = []
  · rw [hempty, if_pos (by rfl), if_pos rfl, List.append_nil, putData_fifo h hf hb hne 1088 bs (by omega)]
    exact ⟨setSlot_set _ _ _, slot?_setFilling h hf _⟩
  · rw [if_neg (by simpa using hempty), if_neg hempty, putData_fifo h hf hb hne 64 _ (by omega)]
    let g : Filling := { f with fifo := f.fifo ++ [(64, payloadVector s k bs)] }
    let v := s.setFilling k (fun f => { f with fifo := f.fifo ++ [(64, payloadVector s k bs)] })
    have hv : v.slot? k = some { x with filling := some g } := slot?_setFilling h hf _
    have hroom' : v.fifoBytes (k / 48) + bs.length ≤ 1048576 := by
      have hset : v = { s with ingest := { s.ingest with slots := s.ingest.slots.set k { x with filling := some g } } } := by
        simp only [v, State.setFilling, State.setSlot, Tab.update_of_get? _ h, hf, Option.map_some]
        rfl
      have := fifoBytes_set (y := { x with filling := some g }) hwf h
      rw [← hset] at this
      have hgrow : slotFifo { x with filling := some g } = slotFifo x + (payloadVector s k bs).length := by
        simp only [slotFifo, hf, g, Option.toList_some, List.cons_append, List.nil_append, List.map_cons, List.map_append, List.map_nil, ← List.sum_eq_foldl, List.sum_cons, List.sum_append, List.sum_nil]
        omega
      omega
    rw [putData_fifo hv rfl hb hne 1088 bs hroom']
    refine ⟨(setSlot_set _ _ _).trans (setSlot_set _ _ _), ?_⟩
    rw [slot?_setFilling hv rfl]

/-- What a frame leaves of its sample: dropped for its FCS, dropped for its length, or filled (R262, R267). -/
def ethTaken (s : State) (k : Nat) (x : SlotState) (fcs : Bool) (payload : List Byte) : State :=
  let u := s.startSample k s.clock.now 0 (if fcs then x.cfg.stampIn (payload.take x.cfg.w) else none)
  if !fcs then (u.spoilSample k 3).endSample k
  else if payload.length < x.cfg.w then (u.spoilSample k 2).endSample k
  else (u.putPayload k (payload.take x.cfg.w)).endSample k

theorem exec_ethFrame {port mac vlan : Nat} {fcs : Bool} {payload : List Byte} (hup : s.portUp port = true) (hon : s.slotOn k = true)
    (hslot : s.ingest.slots.find? (fun kv => decide (kv.2.cfg.iface = 5 ∧ kv.2.cfg.port = port ∧ kv.2.cfg.mac = mac ∧ kv.2.cfg.vlan = vlan)) = some (k, x)) :
    exec (.ethFrame port mac vlan fcs payload) s = .next (ethTaken s k x fcs payload) := by
  simp only [exec, execEthFrame, hslot, hup, hon, Bool.not_true, Bool.or_self, Bool.false_eq_true, if_false]
  rfl

/-- A spoiled sample ends as one that is dropped. -/
theorem spoiledEnd_spec {pin reason : Nat} {raw : Option Nat} (h : s.slot? k = some x) :
    ∃ y, (((s.startSample k pin 0 raw).spoilSample k reason).endSample k).slot? k = some y ∧
      DropCounted { x with nextSeq := (x.nextSeq + 1) % 2 ^ 32 } y (if x.takeBuf = none then 0 else reason) := by
  have hspoiled := slot?_spoilSample (startSample_step h pin 0 raw).2 (started_filling x pin 0 raw) reason
  rw [endSample_bad hspoiled rfl (.inr rfl)]
  obtain ⟨-, y, hy, hcount⟩ := dropStarted_spec (x := x) (f := spoiled (freshFilling x pin 0 raw) reason) (reason := ((spoiled (freshFilling x pin 0 raw) reason).bad.getD 0)) rfl hspoiled
  exact ⟨y, hy, hcount⟩

/-- A frame with no buffer, with a bad FCS or with a short payload is dropped and counted (R267). -/
theorem ethTaken_dropped {fcs : Bool} {payload : List Byte} (h : s.slot? k = some x) (hbad : x.takeBuf = none ∨ fcs = false ∨ payload.length < x.cfg.w) :
    ∃ y, (ethTaken s k x fcs payload).slot? k = some y ∧
      DropCounted { x with nextSeq := (x.nextSeq + 1) % 2 ^ 32 } y (if x.takeBuf = none then 0 else if fcs then 2 else 3) := by
  cases fcs with
  | false => exact spoiledEnd_spec h
  | true =>
    by_cases hshort : payload.length < x.cfg.w
    · rw [ethTaken, if_neg (by decide), if_pos hshort]
      exact spoiledEnd_spec h
    · have hnone : x.takeBuf = none := by
        rcases hbad with hn | hf | hs
        · exact hn
        · cases hf
        · exact absurd hs hshort
      have hslot := (startSample_step h s.clock.now 0 (x.cfg.stampIn (payload.take x.cfg.w))).2
      have hfill := started_filling x s.clock.now 0 (x.cfg.stampIn (payload.take x.cfg.w))
      have htaken : ethTaken s k x true payload = (s.startSample k s.clock.now 0 (x.cfg.stampIn (payload.take x.cfg.w))).dropSample k 0 := by
        rw [ethTaken, if_neg (by decide), if_neg hshort, if_pos rfl, putPayload_none hslot hfill hnone, endSample_bad hslot hfill (.inl hnone)]
        rfl
      rw [htaken, if_pos hnone]
      obtain ⟨-, y, hy, hcount⟩ := dropStarted_spec (x := x) (f := freshFilling x s.clock.now 0 (x.cfg.stampIn (payload.take x.cfg.w))) (reason := 0) rfl
        (hslot.trans (by rw [← hfill]))
      rw [if_pos hnone] at hcount
      exact ⟨y, hy, hcount⟩

/-- The sample of a whole frame, with what it has in the landing FIFO. -/
def ethSample (s : State) (x : SlotState) (fifo : List (Nat × List Byte)) (bs : List Byte) : Filling :=
  { freshFilling x s.clock.now 0 (x.cfg.stampIn bs) with fifo := fifo, endTime := s.clock.now }

/-- A whole frame in the ring of the I/O die's store (R262). -/
theorem ethTaken_ring {payload : List Byte} (h : s.slot? k = some x) (hb : x.takeBuf = some b) (hlong : x.cfg.w ≤ payload.length) (hplace : x.cfg.place = 0) (hlen : s.vecLen k ≤ 256) :
    let u := ethTaken s k x true payload
    let bs := payload.take x.cfg.w
    (∃ y, u.slot? k = some y ∧ y.filling = none ∧ y.waiting = x.waiting ++ [ethSample s x [] bs]) ∧
    (∀ i, i < (payloadVector s k bs).length → u.stores.xd.read (xdKey k (b * x.cfg.bufBytes + 64 + i)) = (payloadVector s k bs).getD i 0) ∧
    (∀ i, i < x.cfg.w → u.stores.xd.read (xdKey k (b * x.cfg.bufBytes + 1088 + i)) = payload.getD i 0) ∧
    u.stores.core = s.stores.core ∧ u.stores.region = s.stores.region ∧ u.stores.tier2 = s.stores.tier2 := by
  let bs := payload.take x.cfg.w
  let a := s.startSample k s.clock.now 0 (x.cfg.stampIn bs)
  have hset := startSample_set h s.clock.now 0 (x.cfg.stampIn bs)
  have hslot := (startSample_step h s.clock.now 0 (x.cfg.stampIn bs)).2
  have hfill := started_filling x s.clock.now 0 (x.cfg.stampIn bs)
  have hkept : a.stores = s.stores := hset.stores
  have hscopes : a.scopes = s.scopes := by rw [show a = _ from hset.rest]
  obtain ⟨hvlen, hvec⟩ := payloadVector_of_scopes hscopes k bs
  have hcfg : (started x s.clock.now 0 (x.cfg.stampIn bs)).cfg = x.cfg := (started_rest _ _ _ _).2.2.2.1
  obtain ⟨hrest, hv, hbytes, hcore, hregion, htier2⟩ := putPayload_ring hslot hfill hb (by rw [hcfg]; exact hplace) (by rw [hvlen]; exact hlen) bs
  have hput : (a.putPayload k bs).slot? k = some (started x s.clock.now 0 (x.cfg.stampIn bs)) := by
    rw [show a.putPayload k bs = _ from hrest]
    exact hslot
  obtain ⟨hend, hafter⟩ := endSample_good hput hfill hb rfl
  have hnow : (a.putPayload k bs).clock = s.clock := by
    rw [show a.putPayload k bs = _ from hrest]
    exact hset.step.clock
  have htaken : ethTaken s k x true payload = (a.putPayload k bs).endSample k := by
    rw [ethTaken, if_neg (by decide), if_neg (Nat.not_lt.2 hlong), if_pos rfl]
  intro u bs'
  have hstores : u.stores = (a.putPayload k bs).stores := by
    rw [show u = _ from htaken]
    exact hend.stores
  rw [hcfg] at hv hbytes
  refine ⟨⟨_, (congrArg (fun t : State => t.slot? k) htaken).trans hafter, rfl, ?_⟩, fun i hi => ?_, fun i hi => ?_, ?_, ?_, ?_⟩
  · change (started x _ _ _).waiting ++ _ = _
    rw [(started_rest _ _ _ _).1, hnow]
    rfl
  · rw [hstores, ← hvec]
    exact hv i (by rw [hvec]; exact hi)
  · rw [hstores]
    refine (hbytes i (by simp only [bs, List.length_take]; omega)).trans ?_
    simp [bs, List.getD_eq_getElem?_getD, hi]
  · rw [hstores, ← hkept]
    exact hcore
  · rw [hstores, ← hkept]
    exact hregion
  · rw [hstores, ← hkept]
    exact htier2

/-- A whole frame in the landing FIFO (R268). -/
theorem ethTaken_fifo {payload : List Byte} (hwf : Tab.wf s.ingest.slots = true) (h : s.slot? k = some x) (hb : x.takeBuf = some b) (hlong : x.cfg.w ≤ payload.length)
    (hplace : x.cfg.place = 1) (hidle : x.filling = none) (hroom : s.fifoBytes (k / 48) + (payloadVector s k (payload.take x.cfg.w)).length + (payload.take x.cfg.w).length ≤ 1048576) :
    let u := ethTaken s k x true payload
    let bs := payload.take x.cfg.w
    (∃ y, u.slot? k = some y ∧ y.filling = none ∧
      y.waiting = x.waiting ++ [ethSample s x ((if payloadVector s k bs = [] then [] else [(64, payloadVector s k bs)]) ++ [(1088, bs)]) bs]) ∧ u.stores = s.stores := by
  let bs := payload.take x.cfg.w
  let a := s.startSample k s.clock.now 0 (x.cfg.stampIn bs)
  have hset := startSample_set h s.clock.now 0 (x.cfg.stampIn bs)
  have hslot := (startSample_step h s.clock.now 0 (x.cfg.stampIn bs)).2
  have hfill := started_filling x s.clock.now 0 (x.cfg.stampIn bs)
  have hscopes : a.scopes = s.scopes := by rw [show a = _ from hset.rest]
  obtain ⟨hvlen, hvec⟩ := payloadVector_of_scopes hscopes k bs
  have hcfg : (started x s.clock.now 0 (x.cfg.stampIn bs)).cfg = x.cfg := (started_rest _ _ _ _).2.2.2.1
  have hwfa : Tab.wf a.ingest.slots = true := by
    rw [show a = _ from startSample_eq h _ _ _]
    exact Tab.wf_set _ _ _ hwf
  have hfifo : a.fifoBytes (k / 48) = s.fifoBytes (k / 48) := by
    have hcount := fifoBytes_set (y := started x s.clock.now 0 (x.cfg.stampIn bs)) hwf h
    have hsame : slotFifo (started x s.clock.now 0 (x.cfg.stampIn bs)) = slotFifo x := by
      rw [slotFifo, slotFifo, hfill, hidle, (started_rest _ _ _ _).1]
      simp [freshFilling]
    rw [← startSample_eq h, hsame] at hcount
    exact Nat.add_right_cancel hcount
  obtain ⟨hputset, hput⟩ := putPayload_fifo hwfa hslot hfill hb (by rw [hcfg]; exact hplace) bs (by rw [hvec, hfifo]; exact hroom)
  obtain ⟨hend, hafter⟩ := endSample_good hput rfl hb rfl
  have hall := (hset.trans hputset).trans hend
  have htaken : ethTaken s k x true payload = (a.putPayload k bs).endSample k := by
    rw [ethTaken, if_neg (by decide), if_neg (Nat.not_lt.2 hlong), if_pos rfl]
  intro u bs'
  refine ⟨⟨_, (congrArg (fun t : State => t.slot? k) htaken).trans hafter, rfl, ?_⟩, ?_⟩
  · change (started x _ _ _).waiting ++ _ = _
    rw [(started_rest _ _ _ _).1, (hset.trans hputset).step.clock, hvec]
    rfl
  · rw [show u = _ from htaken]
    exact hall.stores

theorem putData_fills (h : s.slot? k = some x) (hf : x.filling = some f) (off : Nat) (bs : List Byte) : ∃ g, (s.putData k off bs).slot? k = some { x with filling := some g } := by
  have hsame : s.slot? k = some { x with filling := some f } := by rw [h, ← hf]
  cases hb : f.buf with
  | none => exact ⟨f, by rw [putData_none h hf hb]; exact hsame⟩
  | some b =>
    by_cases hplace : x.cfg.place = 0
    · exact ⟨f, by rw [putData_ring h hf hb hplace, (apply_xd s _ bs).slot?]; exact hsame⟩
    · by_cases hroom : s.fifoBytes (k / 48) + bs.length ≤ 1048576
      · rw [putData_fifo h hf hb hplace off bs hroom]
        exact ⟨_, slot?_setFilling h hf _⟩
      · have hspoil : s.putData k off bs = s.spoilSample k 4 := by
          unfold State.putData
          rw [h]
          dsimp only
          rw [hf]
          dsimp only
          rw [hb]
          exact (if_neg hplace).trans (if_pos (Nat.not_le.1 hroom))
        exact ⟨_, by rw [hspoil]; exact slot?_spoilSample h hf 4⟩

/-- After its end, a slot fills no sample. -/
theorem endSample_idle (h : s.slot? k = some x) (hf : x.filling = some f) : ∃ y, (s.endSample k).slot? k = some y ∧ y.filling = none := by
  by_cases hbad : f.buf = none ∨ f.bad.isSome = true
  · rw [endSample_bad h hf hbad]
    obtain ⟨-, y, hy, hrest, -⟩ := dropSample_spec h hf (f.bad.getD 0)
    refine ⟨y, hy, ?_⟩
    rw [hrest]
    cases hb : f.buf <;> simp [dropped, counted, hb]
  · rw [not_or] at hbad
    obtain ⟨b, hb⟩ := Option.ne_none_iff_exists'.1 hbad.1
    exact ⟨_, (endSample_good h hf hb (by simpa using hbad.2)).2, rfl⟩

/-- Whatever became of its payload, a frame's sample is over. -/
theorem ethTaken_idle {payload : List Byte} (h : s.slot? k = some x) (hlong : x.cfg.w ≤ payload.length) : ∃ y, (ethTaken s k x true payload).slot? k = some y ∧ y.filling = none := by
  let bs := payload.take x.cfg.w
  let a := s.startSample k s.clock.now 0 (x.cfg.stampIn bs)
  have hslot := (startSample_step h s.clock.now 0 (x.cfg.stampIn bs)).2
  have hfill := started_filling x s.clock.now 0 (x.cfg.stampIn bs)
  have htaken : ethTaken s k x true payload = (a.putPayload k bs).endSample k := by
    rw [ethTaken, if_neg (by decide), if_neg (Nat.not_lt.2 hlong), if_pos rfl]
  rw [htaken, putPayload_eq]
  by_cases hempty : (payloadVector a k bs).isEmpty = true
  · rw [if_pos hempty]
    obtain ⟨g, hg⟩ := putData_fills hslot hfill 1088 bs
    exact endSample_idle hg rfl
  · rw [if_neg hempty]
    obtain ⟨g, hg⟩ := putData_fills hslot hfill 64 (payloadVector a k bs)
    obtain ⟨g', hg'⟩ := putData_fills hg rfl 1088 bs
    exact endSample_idle hg' rfl

end Ethernet

/-- The first clause of how a sample starts: its number, its stamp, and its buffer (R23, R266, R267). -/
theorem started_buffers (t : SlotState) (pin fno : Nat) (raw : Option Nat) : let x := started t pin fno raw
    x.filling = some (freshFilling t pin fno raw) ∧
    (∀ b y, t.takeBuf = some b → t.bufs[b]? = some y → y.state ≠ 1 ∧ y.holds = [] ∧ x.bufs = t.bufs.modify b (fun y => { y with state := 1, order := t.orderCount + 1 }) ∧
      x.drops = t.drops ∧ x.totalDrops = t.totalDrops) ∧
    (t.takeBuf = none → x.bufs = t.bufs ∧ x.drops = t.drops.modify 0 (fun n => (n + 1) % 2 ^ 32) ∧ x.totalDrops = t.totalDrops + 1) := by
  refine ⟨started_filling _ _ _ _, fun b y hb hy => ?_, fun hb => ?_⟩
  · obtain ⟨hstate, hholds⟩ := takeBuf_free hb hy
    refine ⟨hstate, hholds, ?_⟩
    simp [started, hb]
  · simp [started, counted, hb]

/-- Settles O42: each event is one slot's start, and what the other slots' events leave unchanged. -/
theorem samplesStart : Obligations.SamplesStart := by
  unfold Obligations.SamplesStart
  refine ⟨?_, ?_, ?_, ?_⟩
  · intro s k pin fno raw t h
    have hset := startSample_set h pin fno raw
    obtain ⟨hwait, hseq, hpin, -, -⟩ := started_rest t pin fno raw
    obtain ⟨hfill, hbuf, hnone⟩ := started_buffers t pin fno raw
    exact ⟨_, (startSample_step h pin fno raw).2, hseq, hpin, hwait, hset.others, hset.stores, hfill, hbuf, hnone⟩
  · intro s k t h hready hon kept fresh
    refine ⟨?_, ?_, ?_, ?_⟩
    · intro die port vc n link dphy lanes hslot frame first same
      have hframed : Framed s k die port vc t := ⟨h, hslot, hready, hon⟩
      refine ⟨fun hidle => ?_, fun f b hf hb hgood hlen => csi2FrameStart_open hframed hf hb hgood hlen⟩
      obtain ⟨hexec, hstores, hothers, hafter, hclass, hports⟩ := csi2FrameStart_idle (frame := frame) hframed hidle
      obtain ⟨hwait, hseq, -, -, hfs⟩ := started_rest (frameNoted frame t) s.clock.now frame.number (frameStamp t frame)
      have hcls : classAfter s die port frame ≠ none := by
        rw [classAfter]
        split
        · exact Option.some_ne_none _
        · next hne => exact hne
      have hsame : classAfter s die port frame = some ⟨dphy, lanes⟩ ↔ same := by
        rw [classAfter]
        split
        · next hnone => exact ⟨fun _ c hc => absurd (hnone.symm.trans hc) (Option.some_ne_none c).symm, fun _ => rfl⟩
        · next hne =>
          obtain ⟨c, hc⟩ := Option.ne_none_iff_exists'.1 hne
          exact ⟨fun hsome d hd => by rw [hd] at hsome; exact Option.some.inj hsome, fun hall => by rw [hc, hall c hc]⟩
      rw [bursted_fresh t s.clock.now (frameStamp t frame) _ hcls] at hafter
      refine ⟨_, _, hexec, hafter, hstores, hwait, hseq, hfs, hothers, ?_, fun hlink hs => ?_, fun hlink hs => ?_, fun hfirst => ?_, fun hne => hports hne⟩
      · by_cases hbad : link = .bad
        · simp only [frame, hbad, if_true]
          rfl
        · simp only [frame, hbad, if_false, Option.bind_some]
          rfl
      · simp only [Option.bind_some, frame, hlink, if_false, if_pos (hsame.2 hs)]
      · simp only [Option.bind_some, frame, hlink, if_false, if_neg (fun hc => hs (hsame.1 hc))]
      · rw [hclass, classAfter, if_pos hfirst]
    · intro hif htrig due v
      exact ⟨nextStart_multiple t s.clock.now, exec_spiPeriodicStart h hready hon hif htrig⟩
    · intro line rising hwf hdie
      obtain ⟨u, v, hexec, hstamp, hxd, htier2, hv, hvon, hvnow, hlast⟩ := gpioEdge_spec (line := line) (rising := rising) h hready hon hwf hdie
      refine ⟨u, hexec, hstamp, hxd, htier2, fun hif hport hedge => ?_, fun hif htrig hrise hidle => ?_⟩
      · rw [edgeSlot_gpio hif hport hedge hvon] at hlast
        cases hb : t.takeBuf with
        | some b =>
          have hgood := (startEnd_good hv hb (s.clock.now / 8 * 8)).2
          refine ⟨_, hlast.trans hgood, rfl, fun b' hb' => ?_, fun hnone => by cases hnone⟩
          rw [hvnow]
          cases hb'
          simp [freshFilling, fresh, hb]
        | none =>
          obtain ⟨-, y, hy, hcount⟩ := startEnd_none hv hb (s.clock.now / 8 * 8)
          exact ⟨y, hlast.trans hy, hcount.idle, fun b' hb' => (Option.some_ne_none b' hb'.symm).elim, fun _ => ⟨hcount.kept, hcount.drops⟩⟩
      · rw [edgeSlot_spi hif htrig hrise] at hlast
        refine ⟨_, hlast.trans (spiStart_spec hv hidle hvon _), (started_rest _ _ _ _).1, ?_⟩
        rw [started_filling]
        simp [freshFilling, fresh]
    · intro port mac vlan fcs payload hup hslot
      have hexec := exec_ethFrame (fcs := fcs) (payload := payload) hup hon hslot
      by_cases hbad : t.takeBuf = none ∨ fcs = false ∨ payload.length < t.cfg.w
      · obtain ⟨y, hy, hcount⟩ := ethTaken_dropped h hbad
        refine ⟨_, y, hexec, hy, hcount.idle, fun _ => ⟨hcount.kept, hcount.drops⟩, fun b hb hfcs hlong => ?_⟩
        rcases hbad with hn | hf | hs
        · rw [hn] at hb
          cases hb
        · rw [hf] at hfcs
          cases hfcs
        · exact absurd hs (Nat.not_lt.2 hlong)
      · obtain ⟨b, hb⟩ := Option.ne_none_iff_exists'.1 (fun hn => hbad (.inl hn))
        have hfcs : fcs = true := by simpa using fun hf => hbad (.inr (.inl hf))
        have hlong : t.cfg.w ≤ payload.length := Nat.not_lt.1 (fun hs => hbad (.inr (.inr hs)))
        subst hfcs
        obtain ⟨y, hy, hidle⟩ := ethTaken_idle h hlong
        refine ⟨_, y, hexec, hy, hidle, fun hb' => absurd hb' hbad, ?_⟩
        intro b' hb' _ _ _ hlen bs vec
        refine ⟨fun hplace => ?_, fun hplace hwf hempty hroom => ?_⟩
        · obtain ⟨⟨z, hz, -, hwait⟩, hvec, hbytes, hcore, hregion, htier2⟩ := ethTaken_ring h hb' hlong hplace hlen
          cases hy.symm.trans hz
          refine ⟨hwait.trans ?_, hvec, hbytes, hcore, hregion, htier2⟩
          simp [ethSample, freshFilling, fresh, hb', bs]
        · obtain ⟨⟨z, hz, -, hwait⟩, hstores⟩ := ethTaken_fifo hwf h hb' hlong hplace hempty hroom
          cases hy.symm.trans hz
          refine ⟨hwait.trans ?_, congrArg Stores.xd hstores, congrArg Stores.tier2 hstores⟩
          simp [ethSample, freshFilling, fresh, hb', bs, vec, payloadVector]
  · intro s die port vc dt frame link payload hslot
    simp only [exec, execCsi2FrameStart, execCsi2FrameEnd, execCsi2LongPacket, hslot, and_self]
  · intro s port mac vlan fcs payload hslot
    simp only [exec, execEthFrame, hslot]

end Sys2Proof.Proofs.Samples

/-! PROOFS. Rows of elements as bytes (R91, R96, R112). -/

namespace Sys2Proof.Proofs.Rows

open Sys2Proof Sys2Proof.Machine

theorem toLe_mod (n v : Nat) : toLe n (v % 256 ^ n) = toLe n v := by
  induction n generalizing v with
  | zero => rfl
  | succ n ih =>
    rw [toLe, toLe, pow_succ', Nat.mod_mul_right_div_self, ih]
    congr 1
    apply BitVec.eq_of_toNat_eq
    simp

theorem toLe_add (n k v w : Nat) (h : v < 256 ^ n) : toLe (n + k) (v + 256 ^ n * w) = toLe n v ++ toLe k w := by
  induction n generalizing v with
  | zero =>
    obtain rfl : v = 0 := by simpa using h
    simp [toLe]
  | succ n ih =>
    rw [Nat.succ_add, toLe, toLe, List.cons_append, ← ih (v / 256) (by rw [pow_succ] at h; omega)]
    have hmul : 256 ^ (n + 1) * w = 256 * (256 ^ n * w) := by rw [pow_succ', mul_assoc]
    rw [hmul, Nat.add_mul_div_left _ _ (by decide)]
    congr 1
    apply BitVec.eq_of_toNat_eq
    simp [Nat.add_mul_mod_self_left]

/-- Codes of whole bytes are packed one behind the other (R96). -/
theorem packCodes_bytes (n : Nat) (cs : List Nat) : packCodes (8 * n) cs = (cs.map (toLe n)).flatten := by
  have hpow : 2 ^ (8 * n) = 256 ^ n := by rw [pow_mul]; norm_num
  have hlen (l : List Nat) : ceilDiv (8 * n * l.length) 8 = n * l.length := by
    rw [ceilDiv, mul_assoc]
    omega
  induction cs with
  | nil => rw [packCodes, hlen]; rfl
  | cons c r ih =>
    rw [List.map_cons, List.flatten_cons, ← ih, packCodes, packCodes, hlen, hlen, List.length_cons, Nat.mul_succ, Nat.add_comm (n * r.length), List.foldr_cons, hpow,
      toLe_add _ _ _ _ (Nat.mod_lt _ (by positivity)), toLe_mod]

theorem encode_fp32_lt (mode : RMode) (sat : Bool) (x : Fv) : (fp32.encode mode sat x).1 < 2 ^ 32 := by
  have hsign (neg : Bool) : fp32.signBit neg ≤ 2 ^ 31 := by cases neg <;> decide
  have hmax : fp32.maxCode < 2 ^ 31 := by decide
  have hinf : fp32.infCode < 2 ^ 31 := by decide
  have hover (neg : Bool) : (fp32.overflow sat neg).1 < 2 ^ 32 := by
    have := hsign neg
    unfold Fmt.overflow
    split
    · dsimp only
      omega
    · change fp32.signBit neg + fp32.infCode < _
      omega
  unfold Fmt.encode
  cases x with
  | nan => exact show fp32.nanCode < 2 ^ 32 by decide
  | inf neg => exact hover neg
  | fin neg m e =>
    have := hsign neg
    dsimp only
    split
    · dsimp only
      omega
    · split
      · exact hover neg
      · dsimp only
        omega

/-- A row of FP32 elements, encoded one by one. -/
theorem encodeRow_fp32 (ar : Arith) (first : Nat) (xs : List Fv) :
    (encodeRow 0 ar first xs).1 = ((List.range xs.length).map (fun i => toLe 4 (fp32.encode (ar.mode (first + i)) ar.sat (xs.getD i .zero)).1)).flatten := by
  have h : (encodeRow 0 ar first xs).1 = packCodes (8 * 4) (((List.range xs.length).map (fun i => fp32.encode (ar.mode (first + i)) ar.sat (xs.getD i .zero))).map (·.1)) := rfl
  rw [h, packCodes_bytes, List.map_map, List.map_map]
  rfl

/-- A byte of pieces of one length. -/
theorem getD_flatten {α : Type} {n : Nat} (d : α) (l : List (List α)) : (∀ x ∈ l, x.length = n) → ∀ i j, i < l.length → j < n → l.flatten.getD (i * n + j) d = (l.getD i []).getD j d := by
  induction l with
  | nil => exact fun _ i j hi => absurd hi (Nat.not_lt_zero i)
  | cons x r ih =>
    intro h i j hi hj
    have hx : x.length = n := h x List.mem_cons_self
    rw [List.flatten_cons]
    cases i with
    | zero =>
      rw [Nat.zero_mul, Nat.zero_add, List.getD_append _ _ _ _ (by omega)]
      rfl
    | succ i =>
      rw [List.getD_append_right _ _ _ _ (by rw [hx, Nat.succ_mul]; omega), hx, show (i + 1) * n + j - n = i * n + j by rw [Nat.succ_mul]; omega,
        ih (fun y hy => h y (List.mem_cons_of_mem _ hy)) i j (by simpa using hi) hj]
      rfl

theorem length_flatten_of_uniform {α : Type} {n : Nat} (l : List (List α)) (h : ∀ x ∈ l, x.length = n) : l.flatten.length = l.length * n := by
  rw [List.length_flatten, List.map_congr_left h, List.map_const', List.sum_replicate, smul_eq_mul]

end Sys2Proof.Proofs.Rows

/-! PROOFS. Samples: how one fills, and how it becomes READY (R260 to R277, R469). -/

namespace Sys2Proof.Proofs.Samples

open Sys2Proof Sys2Proof.Machine Sys2Proof.Proofs.Rows Sys2Proof.Proofs.Framing

/-! ### Bytes of a sample at a buffer offset -/

section Laying

variable {s u : State} {k b : Nat} {x : SlotState} {f : Filling}

/-- Where samples go to the landing FIFO, it has room for so many bytes more (R268). -/
def Room (s : State) (k place n : Nat) : Prop := place = 1 → Tab.wf s.ingest.slots = true ∧ s.fifoBytes (k / 48) + n ≤ 1048576

theorem Room.mono {place n m : Nat} (h : Room s k place n) (hm : m ≤ n) : Room s k place m := fun hp => ⟨(h hp).1, (Nat.add_le_add_left hm _).trans (h hp).2⟩

theorem Room.of_slots {t : State} {place n : Nat} (h : Room s k place n) (hslots : t.ingest.slots = s.ingest.slots) : Room t k place n := by
  simp only [Room, State.fifoBytes, hslots]
  exact h

/-- Bytes of one sample in the landing FIFO. -/
def fillingFifo (f : Filling) : Nat := (f.fifo.map (fun x => x.2.length)).foldl (· + ·) 0

theorem setFilling_eq (h : s.slot? k = some x) (hf : x.filling = some f) (g : Filling → Filling) :
    s.setFilling k g = { s with ingest := { s.ingest with slots := s.ingest.slots.set k { x with filling := some (g f) } } } := by
  rw [State.setFilling, State.setSlot, Tab.update_of_get? _ h, hf]
  rfl

theorem setFilling_room {place n m : Nat} (h : s.slot? k = some x) (hf : x.filling = some f) {g : Filling → Filling} (hroom : Room s k place (n + m))
    (hgrow : fillingFifo (g f) = fillingFifo f + n) : Room (s.setFilling k g) k place m := by
  intro hp
  obtain ⟨hwf, hle⟩ := hroom hp
  have hcount := fifoBytes_set (y := { x with filling := some (g f) }) hwf h
  have hslot : slotFifo { x with filling := some (g f) } = slotFifo x + n := by
    simp only [fillingFifo] at hgrow
    simp only [slotFifo, hf, Option.toList_some, List.cons_append, List.nil_append, List.map_cons, ← List.sum_eq_foldl, List.sum_cons] at hgrow ⊢
    omega
  rw [setFilling_eq h hf]
  exact ⟨Tab.wf_set _ _ _ hwf, by omega⟩

/-- A sample that has bytes more, in the landing FIFO where its slot's samples go there. -/
def laid (place off : Nat) (bs : List Byte) (f : Filling) : Filling := if place = 0 then f else { f with fifo := f.fifo ++ [(off, bs)] }

/-- Slots and the I/O dies' store may change, and nothing else. -/
def Laying (s u : State) : Prop := u = { s with ingest := { s.ingest with slots := u.ingest.slots }, stores := u.stores } ∧
  u.stores.core = s.stores.core ∧ u.stores.region = s.stores.region ∧ u.stores.tier2 = s.stores.tier2 ∧ u.stores.host = s.stores.host

theorem Laying.trans {t : State} (h : Laying s t) (g : Laying t u) : Laying s u := by
  obtain ⟨hrest, hcore, hregion, htier2, hhost⟩ := h
  obtain ⟨grest, gcore, gregion, gtier2, ghost⟩ := g
  refine ⟨?_, gcore.trans hcore, gregion.trans hregion, gtier2.trans htier2, ghost.trans hhost⟩
  exact grest.trans (congrArg (fun v : State => { v with ingest := { v.ingest with slots := u.ingest.slots }, stores := u.stores }) hrest)

theorem Laying.clock (h : Laying s u) : u.clock = s.clock := by rw [h.1]

theorem SlotSet.laying {t : State} (h : SlotSet k s t) : Laying s t := by
  have hstores := h.stores
  refine ⟨?_, by rw [hstores], by rw [hstores], by rw [hstores], by rw [hstores]⟩
  rw [hstores]
  exact h.rest

/-- Bytes of the ring from a buffer offset on are these, and the others are what they were; of a tier-2 slot, none changes. -/
structure Ringed (k b : Nat) (c : Slot) (off : Nat) (bs : List Byte) (s u : State) : Prop where
  within : c.place = 0 → ∀ i, i < bs.length → u.stores.xd.read (xdKey k (b * c.bufBytes + off + i)) = bs.getD i 0
  outside : c.place = 0 → ∀ o, o < off ∨ off + bs.length ≤ o → u.stores.xd.read (xdKey k (b * c.bufBytes + o)) = s.stores.xd.read (xdKey k (b * c.bufBytes + o))
  fifo : c.place = 1 → u.stores.xd = s.stores.xd

theorem apply_xd_host (s : State) (a : Nat) (bs : List Byte) : (s.apply [⟨.xd, a, bs⟩]).stores.host = s.stores.host := rfl

theorem putData_spec (h : s.slot? k = some x) (hf : x.filling = some f) (hb : f.buf = some b) (hplace : x.cfg.place ≤ 1) (off : Nat) (bs : List Byte) {m : Nat}
    (hroom : Room s k x.cfg.place (bs.length + m)) : Laying s (s.putData k off bs) ∧ Ringed k b x.cfg off bs s (s.putData k off bs) ∧
      (s.putData k off bs).slot? k = some { x with filling := some (laid x.cfg.place off bs f) } ∧ Room (s.putData k off bs) k x.cfg.place m := by
  by_cases hring : x.cfg.place = 0
  · have hw := apply_xd s (xdKey k (b * x.cfg.bufBytes + off)) bs
    have hhost := apply_xd_host s (xdKey k (b * x.cfg.bufBytes + off)) bs
    rw [← putData_ring h hf hb hring] at hw hhost
    have hslots : (s.putData k off bs).ingest.slots = s.ingest.slots := by rw [hw.rest]
    refine ⟨⟨?_, hw.core, hw.region, hw.tier2, hhost⟩, ⟨fun _ i hi => ?_, fun _ o ho => ?_, fun hone => absurd hring (by omega)⟩, ?_, ?_⟩
    · rw [hslots]
      exact hw.rest
    · rw [xdKey_add]
      exact hw.within i hi
    · refine hw.outside _ ?_
      simp only [xdKey]
      omega
    · rw [laid, if_pos hring, hw.slot? k, h, ← hf]
    · exact (hroom.mono (Nat.le_add_left _ _)).of_slots hslots
  · have hone : x.cfg.place = 1 := by omega
    obtain ⟨-, hle⟩ := hroom hone
    rw [putData_fifo h hf hb hring off bs (by omega)]
    have hset := setSlot_set s k (fun t => { t with filling := t.filling.map (fun f => { f with fifo := f.fifo ++ [(off, bs)] }) })
    refine ⟨hset.laying, ⟨fun hz => absurd hz hring, fun hz => absurd hz hring, fun _ => congrArg Stores.xd hset.stores⟩, ?_, ?_⟩
    · rw [laid, if_neg hring]
      exact slot?_setFilling h hf _
    · refine setFilling_room h hf hroom ?_
      simp only [fillingFifo, List.map_append, List.map_cons, List.map_nil, ← List.sum_eq_foldl, List.sum_append, List.sum_cons, List.sum_nil]
      omega

theorem laid_buf (place off : Nat) (bs : List Byte) (f : Filling) : (laid place off bs f).buf = f.buf ∧ (laid place off bs f).bad = f.bad := by
  unfold laid
  split <;> exact ⟨rfl, rfl⟩

/-- A sample differs from another in the landing FIFO alone. -/
theorem laid_rest (place off : Nat) (bs : List Byte) (f : Filling) : laid place off bs f = { f with fifo := (laid place off bs f).fifo } := by
  unfold laid
  split <;> rfl

theorem laid_twice_rest (place off off' : Nat) (bs bs' : List Byte) (f : Filling) :
    laid place off' bs' (laid place off bs f) = { f with fifo := (laid place off' bs' (laid place off bs f)).fifo } := by
  unfold laid
  split <;> rfl

/-- Where bytes of a sample went. -/
structure Lands (s : State) (k b : Nat) (c : Slot) (f : Filling) (u : State) (g : Filling) (off : Nat) (bs : List Byte) : Prop where
  ring : c.place = 0 → g.fifo = f.fifo ∧ ∀ i, i < bs.length → u.stores.xd.read (xdKey k (b * c.bufBytes + off + i)) = bs.getD i 0
  fifo : c.place = 1 → (off, bs) ∈ g.fifo ∧ u.stores.xd = s.stores.xd

theorem Ringed.lands {u : State} {off : Nat} {bs : List Byte} (h : Ringed k b x.cfg off bs s u) (f : Filling) : Lands s k b x.cfg f u (laid x.cfg.place off bs f) off bs := by
  refine ⟨fun hring => ⟨by rw [laid, if_pos hring], h.within hring⟩, fun hone => ⟨?_, h.fifo hone⟩⟩
  rw [laid, if_neg (by omega)]
  exact List.mem_append_right _ List.mem_cons_self

/-- Bytes that landed stay where a later piece lies behind them. -/
theorem Lands.later {t u : State} {g : Filling} {off off' : Nat} {bs bs' : List Byte} (h : Lands s k b x.cfg f t g off bs) (hlater : Ringed k b x.cfg off' bs' t u) (hoff : off + bs.length ≤ off') :
    Lands s k b x.cfg f u (laid x.cfg.place off' bs' g) off bs := by
  refine ⟨fun hring => ?_, fun hone => ?_⟩
  · obtain ⟨hfifo, hbytes⟩ := h.ring hring
    refine ⟨by rw [laid, if_pos hring]; exact hfifo, fun i hi => ?_⟩
    rw [Nat.add_assoc, hlater.outside hring _ (.inl (by omega)), ← Nat.add_assoc]
    exact hbytes i hi
  · obtain ⟨hmem, hxd⟩ := h.fifo hone
    rw [laid, if_neg (by omega)]
    exact ⟨List.mem_append_left _ hmem, (hlater.fifo hone).trans hxd⟩

/-- Bytes that land behind others land on what was there before those. -/
theorem Lands.after {t u : State} {g : Filling} {off off' : Nat} {bs bs' : List Byte} (h : Lands t k b x.cfg (laid x.cfg.place off bs f) u g off' bs') (hbefore : Ringed k b x.cfg off bs s t) :
    Lands s k b x.cfg f u g off' bs' := by
  refine ⟨fun hring => ?_, fun hone => ⟨(h.fifo hone).1, (h.fifo hone).2.trans (hbefore.fifo hone)⟩⟩
  have := h.ring hring
  rw [laid, if_pos hring] at this
  exact this

end Laying

/-! ### Elements of a sample (R118, R261) -/

section Elements

theorem ingestPixel_length (fmt : Nat) (vs : List Fv) : (ingestPixel fmt vs).1.length ≤ vs.length * fmtBytes fmt := by
  rw [ingestPixel, List.length_take]
  exact Nat.min_le_left _ _

theorem ingestPixel_scales (vs : List Fv) (h : vs.length < 32) : (ingestPixel 4 vs).2.length ≤ 1 := by
  have hone : vs.length / 32 = 0 := by omega
  have hrow : (ingestPixel 4 vs).2.length = (chunksOf 32 (vs.length / 32 + 1) vs).length := by
    change (encodeRow 4 ingestArith 0 vs).2.1.length = _
    rw [encodeRow, if_pos (by decide)]
    simp
  rw [hrow, hone, chunksOf, chunksOf]
  split <;> simp

/-- The FP32 elements of a pixel. -/
theorem ingestPixel_fp32 (vs : List Fv) : (ingestPixel 0 vs).1 = ((List.range vs.length).map (fun i => toLe 4 (fp32.encode .rne true (vs.getD i .zero)).1)).flatten := by
  have h : (ingestPixel 0 vs).1 = (encodeRow 0 ingestArith 0 vs).1.take (vs.length * 4) := rfl
  rw [h, encodeRow_fp32, List.take_of_length_le]
  · rfl
  · rw [length_flatten_of_uniform (n := 4) _ (by simp)]
    simp

/-- Four bytes of a store that hold an FP32 code. -/
theorem leNat_fp32 {rd : Nat → Byte} {v : Fv} (h : ∀ y, y < 4 → rd y = (toLe 4 (fp32.encode .rne true v).1).getD y 0) :
    leNat ((List.range 4).map rd) = (fp32.encode .rne true v).1 := by
  have := leNat_map_range (b := toLe 4 (fp32.encode .rne true v).1) (at_ := rd) (off := 0) (n := 4) (by simpa using h) (by simp)
  simp only [Nat.zero_add] at this
  rw [this, fieldAt_toLe]
  exact Nat.mod_eq_of_lt (encode_fp32_lt _ _ _)

theorem getD_fp32 {n : Nat} (c : Nat → Nat) {i y : Nat} (hi : i < n) (hy : y < 4) : (((List.range n).map (fun i => toLe 4 (c i))).flatten).getD (i * 4 + y) 0 = (toLe 4 (c i)).getD y 0 := by
  rw [getD_flatten (n := 4) 0 _ (by simp) i y (by simpa using hi) hy]
  simp [hi]

theorem csiPixel_length {dt ch : Nat} (h : csiChannels dt = some ch) (b : Nat → Nat) (i : Nat) : (csiPixel dt b i).length = ch ∧ ch ≤ 3 := by
  unfold csiChannels at h
  split at h
  · next hthree =>
    cases h
    rcases hthree with rfl | rfl <;> exact ⟨rfl, le_refl _⟩
  · next hnot =>
    split at h
    · cases h
      refine ⟨?_, by decide⟩
      rw [not_or] at hnot
      rw [csiPixel, if_neg hnot.1, if_neg hnot.2]
      split_ifs <;> rfl
    · cases h

theorem csiLineBytes_pos {dt w : Nat} (h : 0 < w) : 0 < csiLineBytes dt w := by
  unfold csiLineBytes ceilDiv
  split_ifs <;> omega

theorem csiChannels_dt {dt : Nat} (h : (csiChannels dt).isSome = true) : dt ≠ 0x12 := by
  rintro rfl
  exact absurd h (by decide)

end Elements

/-! ### CSI-2 lines (R260, R261) -/

section CsiLines

variable {s : State} {k b die port vc : Nat} {t : SlotState} {f : Filling} {link : LinkCheck} {payload : List Byte}

/-- The elements and the scale of a pixel: its codes less the black level, times the gain, in the slot's format (R261). -/
def linePixel (s : State) (k : Nat) (c : Slot) (payload : List Byte) (i : Nat) : List Byte × List Byte :=
  ingestPixel c.fmt ((csiPixel c.dt (fun y => (payload.getD y 0).toNat) i).map (fun (v : Nat) =>
    fmul (Fv.ofInt ((v : Int) - (bits (s.activeWord 3 k 2) 15 0 : Nat))) (f32 (s.activeWord 3 k 3))))

def lineElements (s : State) (k : Nat) (c : Slot) (payload : List Byte) : List Byte := ((List.range c.w).map (fun i => (linePixel s k c payload i).1)).flatten

def lineScales (s : State) (k : Nat) (c : Slot) (payload : List Byte) : List Byte := ((List.range c.w).map (fun i => (linePixel s k c payload i).2)).flatten

theorem csiLine_eq (s : State) (k : Nat) (c : Slot) (y : Nat) (payload : List Byte) : s.csiLine k c y payload =
    (64 + y * c.w * (csiChannels c.dt).getD 1 * fmtBytes c.fmt, lineElements s k c payload) ::
      (if c.fmt = 4 then [(64 + c.w * c.h * (csiChannels c.dt).getD 1 + y * c.w, lineScales s k c payload)] else []) := by
  simp only [State.csiLine, List.map_map, List.singleton_append]
  rfl

theorem csiLine_of_scopes {u : State} (h : u.scopes = s.scopes) (c : Slot) (y : Nat) : u.csiLine k c y payload = s.csiLine k c y payload := by
  simp only [State.csiLine, State.activeWord, h]

theorem sum_map_le {α : Type} {n : Nat} (l : List α) (g : α → Nat) (h : ∀ a ∈ l, g a ≤ n) : (l.map g).sum ≤ l.length * n := by
  have := List.sum_le_card_nsmul (l.map g) n (by simpa using h)
  simpa using this

theorem lineElements_length {ch : Nat} (h : csiChannels t.cfg.dt = some ch) : (lineElements s k t.cfg payload).length ≤ t.cfg.w * (ch * fmtBytes t.cfg.fmt) := by
  rw [lineElements, List.length_flatten, List.map_map]
  refine (sum_map_le _ _ fun i _ => ?_).trans (by rw [List.length_range])
  refine (ingestPixel_length _ _).trans (le_of_eq ?_)
  rw [List.length_map, (csiPixel_length h _ i).1]

theorem lineScales_length {ch : Nat} (h : csiChannels t.cfg.dt = some ch) (hfmt : t.cfg.fmt = 4) : (lineScales s k t.cfg payload).length ≤ t.cfg.w := by
  rw [lineScales, List.length_flatten, List.map_map]
  refine (sum_map_le (n := 1) _ _ fun i _ => ?_).trans (by rw [List.length_range, Nat.mul_one])
  obtain ⟨hlen, hch⟩ := csiPixel_length h (fun y => (payload.getD y 0).toNat) i
  simp only [Function.comp, linePixel, hfmt]
  exact ingestPixel_scales _ (by rw [List.length_map]; omega)

/-- Bytes that a line's payload becomes. -/
def lineSize (c : Slot) (payload : List Byte) : Nat :=
  payload.length * c.w * ((csiChannels c.dt).getD 1 * fmtBytes c.fmt + (if c.fmt = 4 then 1 else 0)) / max 1 (csiLineBytes c.dt c.w)

/-- A line counts among the sample's lines (R260). -/
def lined (c : Slot) (link : LinkCheck) (payload : List Byte) (f : Filling) : Filling :=
  { f with lines := f.lines + 1, size := f.size + lineSize c payload, corrected := f.corrected || decide (link = .headerCorrected) }

/-- The state in which a line counts, before its elements. -/
def lineCounted (s : State) (k : Nat) (c : Slot) (link : LinkCheck) (payload : List Byte) : State :=
  (s.linkOutcome k link).setFilling k (fun f => { f with lines := f.lines + 1, size := f.size + lineSize c payload })

theorem linked_corrected (f : Filling) (hlink : link ≠ .bad) : linked f link = { f with corrected := f.corrected || decide (link = .headerCorrected) } := by
  cases link with
  | ok => simp [linked]
  | headerCorrected => simp [linked]
  | bad => exact absurd rfl hlink

theorem lineCounted_spec (h : s.slot? k = some t) (hf : t.filling = some f) (hlink : link ≠ .bad) :
    SlotSet k s (lineCounted s k t.cfg link payload) ∧ (lineCounted s k t.cfg link payload).slot? k = some { t with filling := some (lined t.cfg link payload f) } := by
  obtain ⟨hset, hslot⟩ := linkOutcome_spec h hf link
  refine ⟨hset.trans (setSlot_set _ _ _), (slot?_setFilling hslot rfl _).trans ?_⟩
  rw [linked_corrected f hlink]
  rfl

theorem linkOutcome_room {place n : Nat} (h : s.slot? k = some t) (hf : t.filling = some f) (hroom : Room s k place n) (link : LinkCheck) : Room (s.linkOutcome k link) k place n := by
  have hzero : Room s k place (0 + n) := hroom.mono (by omega)
  cases link with
  | ok => exact hroom
  | headerCorrected => exact setFilling_room h hf hzero rfl
  | bad => exact setFilling_room h hf hzero rfl

theorem lineCounted_room {place n : Nat} (h : s.slot? k = some t) (hf : t.filling = some f) (hroom : Room s k place n) : Room (lineCounted s k t.cfg link payload) k place n :=
  setFilling_room (n := 0) (linkOutcome_spec h hf link).2 rfl ((linkOutcome_room h hf hroom link).mono (by omega)) rfl

/-- What a long packet of the slot's data type does to its sample (R260, R261). -/
theorem exec_csi2Line (h' : s.slot? k = some t) (h : s.csiSlot die port vc = some (k, t)) (hf : t.filling = some f) (hdt : t.cfg.dt ≠ 0x12) :
    exec (.csi2LongPacket die port vc t.cfg.dt link payload) s = .next (if link = .bad then s.spoilSample k 3
      else if t.cfg.bufBytes < 64 + f.size + lineSize t.cfg payload then (lineCounted s k t.cfg link payload).spoilSample k 1
      else if payload.length ≠ csiLineBytes t.cfg.dt t.cfg.w ∨ t.cfg.h ≤ f.lines then (lineCounted s k t.cfg link payload).spoilSample k 2
      else if f.bad.isSome then lineCounted s k t.cfg link payload
      else (s.csiLine k t.cfg f.lines payload).foldl (fun s x => s.putData k x.1 x.2) (lineCounted s k t.cfg link payload)) := by
  have hscopes (u : State) (hu : SlotSet k s u) : u.csiLine k t.cfg f.lines payload = s.csiLine k t.cfg f.lines payload := csiLine_of_scopes (by rw [hu.rest]) _ _
  change execCsi2LongPacket die port vc t.cfg.dt link payload s = _
  rw [execCsi2LongPacket, h]
  dsimp only
  rw [hf]
  dsimp only
  rw [if_neg (fun hd => hd.1 rfl), if_neg hdt]
  refine congrArg Host.Outcome.next ?_
  by_cases hbad : link = .bad
  · rw [if_pos hbad, if_pos hbad, hbad]
    rfl
  · rw [if_neg hbad, if_neg hbad, ← hscopes _ (lineCounted_spec h' hf hbad).1]
    rfl

/-- A packet of another data type, or an embedded-data line that is not the first, changes nothing (R260). -/
theorem exec_csi2Other {dt : Nat} (h : s.csiSlot die port vc = some (k, t)) (hf : t.filling = some f) (hdt : dt ≠ t.cfg.dt) (hother : dt ≠ 0x12 ∨ f.embedded = true) :
    exec (.csi2LongPacket die port vc dt link payload) s = .next s := by
  change execCsi2LongPacket die port vc dt link payload s = _
  rw [execCsi2LongPacket, h]
  dsimp only
  rw [hf]
  exact congrArg Host.Outcome.next (if_pos ⟨hdt, hother⟩)

/-- The first embedded-data line (R260, R271). -/
theorem exec_csi2Embedded (h : s.csiSlot die port vc = some (k, t)) (hf : t.filling = some f) (hfirst : f.embedded = false) :
    exec (.csi2LongPacket die port vc 0x12 link payload) s = .next ((s.linkOutcome k link).setFilling k (fun f => { f with
      embedded := true, raw := if link ≠ .bad ∧ (t.cfg.srcKind = 2 ∨ t.cfg.srcKind = 3) then t.cfg.stampIn payload else f.raw })) := by
  change execCsi2LongPacket die port vc 0x12 link payload s = _
  rw [execCsi2LongPacket, h]
  dsimp only
  rw [hf]
  exact congrArg Host.Outcome.next ((if_neg (by simp [hfirst])).trans (if_pos rfl))

theorem Lands.of_same {u v : State} {x : SlotState} {f' g : Filling} {off : Nat} {bs : List Byte} (h : Lands v k b x.cfg f' u g off bs) (hstores : v.stores = s.stores) (hfifo : f'.fifo = f.fifo) :
    Lands s k b x.cfg f u g off bs :=
  ⟨fun hring => by rw [← hfifo]; exact h.ring hring, fun hone => by rw [← hstores]; exact h.fifo hone⟩

/-- A line as it stands in the sample's buffer (R261). -/
structure LineLaid (s : State) (k b : Nat) (t : SlotState) (f : Filling) (link : LinkCheck) (payload : List Byte) (u : State) (g : Filling) : Prop where
  laying : Laying s u
  slot : u.slot? k = some { t with filling := some g }
  sample : g = { lined t.cfg link payload f with fifo := g.fifo }
  elements : Lands s k b t.cfg f u g (64 + f.lines * t.cfg.w * (csiChannels t.cfg.dt).getD 1 * fmtBytes t.cfg.fmt) (lineElements s k t.cfg payload)
  scales : t.cfg.fmt = 4 → Lands s k b t.cfg f u g (64 + t.cfg.w * t.cfg.h * (csiChannels t.cfg.dt).getD 1 + f.lines * t.cfg.w) (lineScales s k t.cfg payload)

theorem lineSize_eq (hlen : payload.length = csiLineBytes t.cfg.dt t.cfg.w) (hw : 0 < t.cfg.w) :
    lineSize t.cfg payload = t.cfg.w * ((csiChannels t.cfg.dt).getD 1 * fmtBytes t.cfg.fmt + (if t.cfg.fmt = 4 then 1 else 0)) := by
  have hpos := csiLineBytes_pos (dt := t.cfg.dt) hw
  rw [lineSize, hlen, Nat.max_eq_right hpos, Nat.mul_assoc, Nat.mul_div_cancel_left _ hpos]

/-- The elements of a line lie before the scales of its sample. -/
theorem elements_before_scales {w h ch y : Nat} (hy : y < h) : 64 + y * w * ch * 1 + w * (ch * 1) ≤ 64 + w * h * ch + y * w := by
  have hmul : (y + 1) * (w * ch) ≤ h * (w * ch) := Nat.mul_le_mul_right _ hy
  have hleft : y * w * ch * 1 + w * (ch * 1) = (y + 1) * (w * ch) := by ring
  have hright : w * h * ch = h * (w * ch) := by ring
  omega

theorem lineLaid (h : s.slot? k = some t) (hf : t.filling = some f) (hb : f.buf = some b) (hplace : t.cfg.place ≤ 1) (hlink : link ≠ .bad) (hch : (csiChannels t.cfg.dt).isSome = true)
    (hlen : payload.length = csiLineBytes t.cfg.dt t.cfg.w) (hlines : f.lines < t.cfg.h) (hw : 0 < t.cfg.w) (hroom : Room s k t.cfg.place (lineSize t.cfg payload)) :
    ∃ g, LineLaid s k b t f link payload ((s.csiLine k t.cfg f.lines payload).foldl (fun s x => s.putData k x.1 x.2) (lineCounted s k t.cfg link payload)) g := by
  obtain ⟨ch, hsome⟩ := Option.isSome_iff_exists.1 hch
  obtain ⟨hset, hslot⟩ := lineCounted_spec (payload := payload) h hf hlink
  have hel := lineElements_length (s := s) (k := k) (payload := payload) hsome
  have hsize := lineSize_eq hlen hw
  rw [hsome, Option.getD_some] at hsize
  have hcount := lineCounted_room (link := link) (payload := payload) h hf hroom
  rw [csiLine_eq, List.foldl_cons]
  by_cases hfmt : t.cfg.fmt = 4
  · have hsc := lineScales_length (s := s) (k := k) (payload := payload) hsome hfmt
    have hbytes : fmtBytes t.cfg.fmt = 1 := by rw [hfmt]; rfl
    rw [if_pos hfmt, Nat.mul_add, Nat.mul_one] at hsize
    obtain ⟨hlay, hring, hmid, hmore⟩ := putData_spec (m := t.cfg.w) hslot rfl hb hplace (64 + f.lines * t.cfg.w * (csiChannels t.cfg.dt).getD 1 * fmtBytes t.cfg.fmt)
      (lineElements s k t.cfg payload) (hcount.mono (by omega))
    rw [if_pos hfmt, List.foldl_cons, List.foldl_nil]
    obtain ⟨hlay', hring', hlast, -⟩ := putData_spec (m := 0) hmid rfl ((laid_buf _ _ _ _).1.trans hb) hplace (64 + t.cfg.w * t.cfg.h * (csiChannels t.cfg.dt).getD 1 + f.lines * t.cfg.w)
      (lineScales s k t.cfg payload) (hmore.mono hsc)
    refine ⟨_, ⟨hset.laying.trans (hlay.trans hlay'), hlast, ?_, ?_, fun _ => ?_⟩⟩
    · exact laid_twice_rest _ _ _ _ _ _
    · refine ((hring.lands _).later hring' ?_).of_same hset.stores rfl
      have := elements_before_scales (w := t.cfg.w) (ch := ch) hlines
      rw [hbytes] at hel
      rw [hsome, Option.getD_some, hbytes]
      omega
    · exact ((hring'.lands _).after hring).of_same hset.stores rfl
  · obtain ⟨hlay, hring, hlast, -⟩ := putData_spec (m := 0) hslot rfl hb hplace (64 + f.lines * t.cfg.w * (csiChannels t.cfg.dt).getD 1 * fmtBytes t.cfg.fmt)
      (lineElements s k t.cfg payload) (hcount.mono (by rw [hsize, if_neg hfmt]; exact hel))
    rw [if_neg hfmt, List.foldl_nil]
    refine ⟨_, ⟨hset.laying.trans hlay, hlast, ?_, (hring.lands _).of_same hset.stores rfl, fun h4 => absurd h4 hfmt⟩⟩
    conv_lhs => rw [laid_rest]

end CsiLines

section CsiFills

variable {s u : State} {k b die port vc : Nat} {t : SlotState} {f g : Filling} {link : LinkCheck} {payload : List Byte} {frame : FramePacket}

/-- The FP32 elements of a line, as its bytes stand in the buffer (R261). -/
theorem lineLaid_fp32 (h : LineLaid s k b t f link payload u g) (hfmt : t.cfg.fmt = 0) (hplace : t.cfg.place = 0) {ch i j : Nat} (hch : csiChannels t.cfg.dt = some ch)
    (hi : i < t.cfg.w) (hj : j < ch) : leNat ((List.range 4).map (fun y => u.stores.xd.read (xdKey k (b * t.cfg.bufBytes + 64 + ((f.lines * t.cfg.w + i) * ch + j) * 4 + y)))) =
      (fp32.encode .rne true (fmul (Fv.ofInt (((csiPixel t.cfg.dt (fun y => (payload.getD y 0).toNat) i).getD j 0 : Nat) - (bits (s.activeWord 3 k 2) 15 0 : Nat) : Int))
        (f32 (s.activeWord 3 k 3)))).1 := by
  let code := csiPixel t.cfg.dt (fun y => (payload.getD y 0).toNat) i
  have hcode : code.length = ch := (csiPixel_length hch _ _).1
  let value := fun (v : Nat) => fmul (Fv.ofInt ((v : Int) - (bits (s.activeWord 3 k 2) 15 0 : Nat))) (f32 (s.activeWord 3 k 3))
  have hpixel (i : Nat) : (linePixel s k t.cfg payload i).1 = ((List.range ch).map (fun j => toLe 4 (fp32.encode .rne true
      (((csiPixel t.cfg.dt (fun y => (payload.getD y 0).toNat) i).map value).getD j .zero)).1)).flatten := by
    rw [linePixel, hfmt, ingestPixel_fp32, List.length_map, (csiPixel_length hch _ _).1]
  have hlen (i : Nat) : (linePixel s k t.cfg payload i).1.length = ch * 4 := by
    rw [hpixel, length_flatten_of_uniform (n := 4) _ (by simp)]
    simp
  have hrow : (lineElements s k t.cfg payload).length = t.cfg.w * (ch * 4) := by
    rw [lineElements, length_flatten_of_uniform (n := ch * 4) _ (by simp [hlen])]
    simp
  obtain ⟨-, hbytes⟩ := h.elements.ring hplace
  refine leNat_fp32 fun y hy => ?_
  have hplaceOf : b * t.cfg.bufBytes + 64 + ((f.lines * t.cfg.w + i) * ch + j) * 4 + y =
      b * t.cfg.bufBytes + (64 + f.lines * t.cfg.w * (csiChannels t.cfg.dt).getD 1 * fmtBytes t.cfg.fmt) + (i * (ch * 4) + (j * 4 + y)) := by
    rw [hch, hfmt, Option.getD_some, show fmtBytes 0 = 4 from rfl]
    ring
  have hwithin : j * 4 + y < ch * 4 := by omega
  have hin : i * (ch * 4) + (j * 4 + y) < t.cfg.w * (ch * 4) := by
    have : (i + 1) * (ch * 4) ≤ t.cfg.w * (ch * 4) := Nat.mul_le_mul_right _ hi
    rw [Nat.succ_mul] at this
    omega
  rw [hplaceOf, hbytes _ (by rw [hrow]; exact hin), lineElements, getD_flatten (n := ch * 4) 0 _ (by simp [hlen]) i _ (by simpa using hi) hwithin]
  have hget : ((List.range t.cfg.w).map (fun i => (linePixel s k t.cfg payload i).1)).getD i [] = (linePixel s k t.cfg payload i).1 := by simp [hi]
  have hvalue : (code.map value).getD j .zero = value (code.getD j 0) := by simp [hcode, hj]
  rw [hget, hpixel, getD_fp32 (n := ch) _ hj hy]
  exact congrArg (fun v => (toLe 4 (fp32.encode .rne true v).1).getD y 0) hvalue

/-- A sample with a buffer that goes is counted for its reason. -/
theorem dropSample_counted (h : s.slot? k = some t) (hf : t.filling = some f) (hb : f.buf = some b) (reason : Nat) :
    ∃ y, (s.dropSample k reason).slot? k = some y ∧ DropCounted t y (f.bad.getD reason) ∧ y.feNo = t.feNo := by
  obtain ⟨-, y, hy, hrest, hkept⟩ := dropSample_spec h hf reason
  refine ⟨y, hy, ⟨?_, hkept.trans ?_, ?_, ?_⟩, ?_⟩
  · rw [hrest]
    simp [dropped, hb, counted]
  · simp [dropped, hb, counted]
  · rw [hrest]
    simp [dropped, hb, counted]
  · rw [hrest]
    simp [dropped, hb, counted]
  · rw [hrest]
    simp [dropped, hb, counted]

/-- The slot that a Frame End finds keeps its number. -/
def endNoted (frame : FramePacket) (x : SlotState) : SlotState := { x with feNo := if frame.link = .bad then x.feNo else frame.number }

/-- What a Frame End leaves of a sample of so many lines (R260, R267, R468). -/
def ended (t : SlotState) (frame : FramePacket) (cls : Option PortClass) (f : Filling) : Filling :=
  if f.lines ≠ t.cfg.h then spoiled (bursted frame cls f) 2 else bursted frame cls f

theorem exec_csi2FrameEnd (h : s.csiSlot die port vc = some (k, t)) (hf : t.filling = some f) : exec (.csi2FrameEnd die port vc frame) s =
    .next ((if f.lines ≠ t.cfg.h then ((s.setSlot k (endNoted frame)).burstOutcome k die port frame).spoilSample k 2
      else (s.setSlot k (endNoted frame)).burstOutcome k die port frame).endSample k) := by
  change execCsi2FrameEnd die port vc frame s = _
  rw [execCsi2FrameEnd, h]
  dsimp only
  rw [hf]
  rfl

theorem frameEnd_filled (h : s.slot? k = some t) (hf : t.filling = some f) :
    let v := if f.lines ≠ t.cfg.h then ((s.setSlot k (endNoted frame)).burstOutcome k die port frame).spoilSample k 2 else (s.setSlot k (endNoted frame)).burstOutcome k die port frame
    SlotSet k s v ∧ v.slot? k = some { endNoted frame t with filling := some (ended t frame (s.ingest.csiPorts.get? (12 * die + port)) f) } := by
  have hnoted := setSlot_set s k (endNoted frame)
  have hslot := slot?_setSlot h (endNoted frame)
  obtain ⟨hset, hburst⟩ := burstOutcome_spec (die := die) (port := port) (frame := frame) hslot hf
  rw [hnoted.csiPorts] at hburst
  intro v
  by_cases hlines : f.lines ≠ t.cfg.h
  · rw [show v = _ from if_pos hlines, ended, if_pos hlines]
    exact ⟨(hnoted.trans hset).trans (setSlot_set _ _ _), slot?_spoilSample hburst rfl 2⟩
  · rw [show v = _ from if_neg hlines, ended, if_neg hlines]
    exact ⟨hnoted.trans hset, hburst⟩

theorem bursted_buf (cls : Option PortClass) (f : Filling) : (bursted frame cls f).buf = f.buf := by
  unfold bursted
  split <;> cases frame.link <;> rfl

theorem ended_buf (cls : Option PortClass) (f : Filling) : (ended t frame cls f).buf = f.buf := by
  unfold ended
  split
  · exact bursted_buf cls f
  · exact bursted_buf cls f

theorem linked_bad (hgood : f.bad = none) : (linked f link).bad = if link = .bad then some 3 else none := by
  cases link
  · exact hgood
  · exact hgood
  · simp [linked, spoiled, hgood]

theorem spoiled_bad (f : Filling) (reason : Nat) : (spoiled f reason).bad = some (f.bad.getD reason) := by
  cases h : f.bad <;> simp [spoiled, h]

/-- Why a sample is dropped at its Frame End: for the header, or as INCOMPLETE (R267). -/
theorem ended_bad {cls : Option PortClass} (hgood : f.bad = none) (h : f.lines ≠ t.cfg.h ∨ frame.link = .bad ∨ ¬(cls = none ∨ cls = some ⟨frame.dphy, frame.lanes⟩)) :
    (ended t frame cls f).bad = some (if frame.link = .bad then 3 else 2) := by
  have hburst : (bursted frame cls f).bad = if frame.link = .bad then some 3 else if cls = none ∨ cls = some ⟨frame.dphy, frame.lanes⟩ then none else some 2 := by
    unfold bursted
    by_cases hcls : cls = none ∨ cls = some ⟨frame.dphy, frame.lanes⟩
    · rw [if_pos hcls, if_pos hcls, linked_bad hgood]
    · rw [if_neg hcls, if_neg hcls, spoiled_bad, linked_bad hgood]
      split <;> rfl
  by_cases hlines : f.lines ≠ t.cfg.h
  · rw [ended, if_pos hlines, spoiled_bad, hburst]
    split_ifs <;> rfl
  · rw [ended, if_neg hlines, hburst]
    rcases h.resolve_left hlines with hlink | hcls
    · rw [if_pos hlink, if_pos hlink]
    · rw [if_neg hcls]
      split <;> rfl

theorem ended_good {cls : Option PortClass} (hlines : f.lines = t.cfg.h) (hlink : frame.link ≠ .bad) (hcls : cls = none ∨ cls = some ⟨frame.dphy, frame.lanes⟩) :
    ended t frame cls f = { f with corrected := f.corrected || decide (frame.link = .headerCorrected) } := by
  rw [ended, if_neg (not_not.2 hlines), bursted, if_pos hcls, linked_corrected f hlink]

end CsiFills

/-! ### TDM frames and SPI transactions (R262, R263, R277) -/

section Payloads

variable {s : State} {k b : Nat} {t : SlotState} {f : Filling}

/-- A slot that has learnt the length of its frames, of which so many had come (R262). -/
def learnt (seen bclks : Nat) (x : SlotState) : SlotState :=
  { x with tdmLen := if seen < 2 then some bclks else x.tdmLen, tdmSeen := if seen < 2 then x.tdmSeen + 1 else x.tdmSeen }

/-- The values of a slot's words in a frame (R262). -/
def frameRow (c : Slot) (words : List Nat) : List Fv := (List.range c.w).map (fun i => (Fv.ofInt (signedOf c.dt (words.getD (c.sub + i) 0))).scale2 (1 - (c.dt : Int)))

/-- A sample that has a frame more. -/
def framed (c : Slot) (words : List Nat) (f : Filling) : Filling :=
  { f with lines := f.lines + 1, wire := f.wire ++ c.wireBytes words, raw := c.stampIn (f.wire ++ c.wireBytes words) }

theorem tdmFrame_cut {bclks : Nat} {words : List Nat} (hseen : 2 ≤ t.tdmSeen) (hlen : t.tdmLen ≠ some bclks) :
    s.tdmFrame k t bclks words = (s.setSlot k (learnt t.tdmSeen bclks)).dropSample k 2 := by
  unfold State.tdmFrame
  simp only [decide_eq_true_eq]
  exact if_pos (by simp [hlen, Nat.not_lt.2 hseen])

/-- What a frame of the length learnt does to a sample under way (R262). -/
def frameTaken (s : State) (k : Nat) (c : Slot) (f : Filling) (words : List Nat) : State :=
  (s.putData k (64 + f.lines * c.w * fmtBytes c.fmt) (ingestPixel c.fmt (frameRow c words)).1).setFilling k
    (fun g => { g with lines := g.lines + 1, wire := f.wire ++ c.wireBytes words, raw := c.stampIn (f.wire ++ c.wireBytes words) })

theorem tdmFrame_eq {bclks : Nat} {words : List Nat} (h : s.slot? k = some t) (hf : t.filling = some f) (hgo : t.tdmSeen < 2 ∨ t.tdmLen = some bclks) :
    let v := frameTaken (s.setSlot k (learnt t.tdmSeen bclks)) k t.cfg f words
    s.tdmFrame k t bclks words = if f.lines + 1 = t.cfg.h then v.endSample k else v := by
  unfold State.tdmFrame
  simp only [decide_eq_true_eq]
  refine (if_neg (by simpa [or_iff_not_imp_left] using hgo)).trans ?_
  simp only [hf, slot?_setSlot h, Option.bind_some]
  rfl

theorem setSlot_room {place n : Nat} (h : s.slot? k = some t) {g : SlotState → SlotState} (hroom : Room s k place n) (hsame : (g t).filling = t.filling ∧ (g t).waiting = t.waiting) :
    Room (s.setSlot k g) k place n := by
  intro hp
  obtain ⟨hwf, hle⟩ := hroom hp
  have hcount := fifoBytes_set (y := g t) hwf h
  have hset : s.setSlot k g = { s with ingest := { s.ingest with slots := s.ingest.slots.set k (g t) } } := by rw [State.setSlot, Tab.update_of_get? g h]
  rw [hset]
  rw [slotFifo, slotFifo, hsame.1, hsame.2] at hcount
  exact ⟨Tab.wf_set _ _ _ hwf, by omega⟩

/-- Bytes that landed, in a sample that changes in other ways. -/
theorem Lands.refilled {u v : State} {c : Slot} {g g' : Filling} {off : Nat} {bs : List Byte} (h : Lands s k b c f u g off bs) (hstores : v.stores = u.stores) (hfifo : g'.fifo = g.fifo) :
    Lands s k b c f v g' off bs := by
  refine ⟨fun hring => ?_, fun hone => ?_⟩
  · rw [hfifo, hstores]
    exact h.ring hring
  · rw [hfifo, hstores]
    exact h.fifo hone

/-- A frame as it stands in the sample's buffer (R262). -/
structure FrameLaid (s : State) (k b : Nat) (t : SlotState) (f : Filling) (words : List Nat) (u : State) (g : Filling) : Prop where
  laying : Laying s u
  slot : u.slot? k = some { t with filling := some g }
  sample : g = { framed t.cfg words f with fifo := g.fifo }
  elements : Lands s k b t.cfg f u g (64 + f.lines * t.cfg.w * fmtBytes t.cfg.fmt) (ingestPixel t.cfg.fmt (frameRow t.cfg words)).1

theorem frameLaid {words : List Nat} (h : s.slot? k = some t) (hf : t.filling = some f) (hb : f.buf = some b) (hplace : t.cfg.place ≤ 1)
    (hroom : Room s k t.cfg.place (t.cfg.w * fmtBytes t.cfg.fmt)) : ∃ g, FrameLaid s k b t f words (frameTaken s k t.cfg f words) g := by
  have hlen : (ingestPixel t.cfg.fmt (frameRow t.cfg words)).1.length ≤ t.cfg.w * fmtBytes t.cfg.fmt := by
    simpa [frameRow] using ingestPixel_length t.cfg.fmt (frameRow t.cfg words)
  obtain ⟨hlay, hring, hslot, -⟩ := putData_spec (m := 0) h hf hb hplace (64 + f.lines * t.cfg.w * fmtBytes t.cfg.fmt) (ingestPixel t.cfg.fmt (frameRow t.cfg words)).1 (hroom.mono hlen)
  refine ⟨_, hlay.trans (setSlot_set _ _ _).laying, slot?_setFilling hslot rfl _, ?_, (hring.lands f).refilled rfl rfl⟩
  unfold laid
  split <;> rfl

theorem frameLaid_fp32 {words : List Nat} {u : State} {g : Filling} (h : FrameLaid s k b t f words u g) (hfmt : t.cfg.fmt = 0) (hplace : t.cfg.place = 0) {i : Nat} (hi : i < t.cfg.w) :
    leNat ((List.range 4).map (fun y => u.stores.xd.read (xdKey k (b * t.cfg.bufBytes + 64 + (f.lines * t.cfg.w + i) * 4 + y)))) =
      (fp32.encode .rne true ((frameRow t.cfg words).getD i .zero)).1 := by
  obtain ⟨-, hbytes⟩ := h.elements.ring hplace
  rw [hfmt, ingestPixel_fp32] at hbytes
  have hrow : (frameRow t.cfg words).length = t.cfg.w := by simp [frameRow]
  refine leNat_fp32 fun y hy => ?_
  have hplaceOf : b * t.cfg.bufBytes + 64 + (f.lines * t.cfg.w + i) * 4 + y = b * t.cfg.bufBytes + (64 + f.lines * t.cfg.w * fmtBytes 0) + (i * 4 + y) := by
    rw [show fmtBytes 0 = 4 from rfl]
    ring
  rw [hplaceOf, hbytes _ (by rw [length_flatten_of_uniform (n := 4) _ (by simp), List.length_map, List.length_range, hrow]; omega), getD_fp32 (n := (frameRow t.cfg words).length) _ (by omega) hy]

/-- An SPI payload as it stands in the sample's buffer: the converted vector, then the bytes (R262, R277). -/
structure PayloadLaid (s : State) (k b : Nat) (t : SlotState) (f : Filling) (bs : List Byte) (u : State) (g : Filling) : Prop where
  laying : Laying s u
  slot : u.slot? k = some { t with filling := some g }
  sample : g = { f with fifo := g.fifo }
  vector : payloadVector s k bs ≠ [] → Lands s k b t.cfg f u g 64 (payloadVector s k bs)
  bytes : Lands s k b t.cfg f u g 1088 bs

theorem payloadLaid {bs : List Byte} (h : s.slot? k = some t) (hf : t.filling = some f) (hb : f.buf = some b) (hplace : t.cfg.place ≤ 1) (hlen : s.vecLen k ≤ 256)
    (hroom : Room s k t.cfg.place (4 * s.vecLen k + bs.length)) : ∃ g, PayloadLaid s k b t f bs (s.putPayload k bs) g := by
  have hvec := length_payloadVector s k bs
  rw [putPayload_eq]
  by_cases hempty : payloadVector s k bs = []
  · rw [hempty, if_pos (by rfl)]
    obtain ⟨hlay, hring, hslot, -⟩ := putData_spec (m := 0) h hf hb hplace 1088 bs (hroom.mono (by omega))
    exact ⟨_, hlay, hslot, laid_rest _ _ _ _, fun hne => absurd hempty hne, hring.lands f⟩
  · rw [if_neg (by simpa using hempty)]
    obtain ⟨hlay, hring, hmid, hmore⟩ := putData_spec (m := bs.length) h hf hb hplace 64 (payloadVector s k bs) (hroom.mono (by omega))
    obtain ⟨hlay', hring', hslot, -⟩ := putData_spec (m := 0) hmid rfl ((laid_buf _ _ _ _).1.trans hb) hplace 1088 bs hmore
    exact ⟨_, hlay.trans hlay', hslot, laid_twice_rest _ _ _ _ _ _, fun _ => (hring.lands f).later hring' (by omega), (hring'.lands _).after hring⟩

theorem exec_spiTransactionEnd {payload : List Byte} (h : s.slot? k = some t) (hf : t.filling = some f) (hif : t.cfg.iface = 3) :
    let bs := (payload ++ zeros t.cfg.w).take t.cfg.w
    exec (.spiTransactionEnd k payload) s = .next (((s.setFilling k (fun f => { f with raw := t.cfg.stampIn bs })).putPayload k bs).endSample k) := by
  change execSpiTransactionEnd k payload s = _
  rw [execSpiTransactionEnd, h]
  dsimp only
  rw [if_pos ⟨hif, by rw [hf]; rfl⟩]

theorem exec_tdmFrameSync {port bclks : Nat} {words : List Nat} (hwf : Tab.wf s.ingest.slots = true) (h : s.slot? k = some t) (hready : s.controlReady = true) (hf : t.filling = some f)
    (hif : t.cfg.iface = 2) (hport : t.cfg.port = port) (hone : ∀ kv ∈ s.ingest.slots, kv.1 ≠ k → kv.2.cfg.iface ≠ 2 ∨ kv.2.cfg.port ≠ port ∨ kv.1 / 48 ≠ k / 48) :
    exec (.tdmFrameSync (k / 48) port bclks words) s = .next (s.tdmFrame k t bclks words) := by
  have hfilter := Tab.filter_eq_singleton (p := fun kv => decide (kv.1 / 48 = k / 48 ∧ kv.2.cfg.iface = 2 ∧ kv.2.cfg.port = port) && (s.slotOn kv.1 || kv.2.filling.isSome)) hwf h
    (by simp [hif, hport, hf]) (fun kv hkv hne => by
      rcases hone kv hkv hne with hkv | hkv | hkv <;> simp [hkv])
  change execTdmFrameSync (k / 48) port bclks words s = _
  rw [execTdmFrameSync, hready, hfilter]
  rfl

end Payloads

/-! ### Into tier 2, and READY (R268, R270) -/

section Ready

variable {s t u : State} {k b : Nat} {x y : SlotState} {f : Filling} {rest : List Filling}

/-- Writes to the I/O dies' store and to tier 2 leave the core stores and the regions. -/
theorem writes_keep (ws : List Wr) : (∀ w ∈ ws, w.store = .xd ∨ w.store = .tier2) → ∀ m : Stores,
    (ws.foldl (fun m w => (m.write w).heal w) m).core = m.core ∧ (ws.foldl (fun m w => (m.write w).heal w) m).region = m.region ∧
    ((∀ w ∈ ws, w.store = .tier2) → (ws.foldl (fun m w => (m.write w).heal w) m).xd = m.xd) := by
  induction ws with
  | nil => exact fun _ m => ⟨rfl, rfl, fun _ => rfl⟩
  | cons w r ih =>
    intro h m
    obtain ⟨hcore, hregion, hxd⟩ := ih (fun v hv => h v (List.mem_cons_of_mem _ hv)) ((m.write w).heal w)
    have hone : ((m.write w).heal w).core = m.core ∧ ((m.write w).heal w).region = m.region ∧ (w.store = .tier2 → ((m.write w).heal w).xd = m.xd) := by
      rcases h w List.mem_cons_self with hw | hw <;> simp only [Stores.heal, Stores.write, hw] <;> simp
    exact ⟨hcore.trans hone.1, hregion.trans hone.2.1, fun ht => (hxd fun v hv => ht v (List.mem_cons_of_mem _ hv)).trans (hone.2.2 (ht w List.mem_cons_self))⟩

theorem t2Wr_store (s : State) (c a : Nat) (bs : List Byte) : ∀ w ∈ s.t2Wr c a bs, w.store = .tier2 := by
  intro w hw
  obtain ⟨p, -, hp⟩ := List.mem_filterMap.1 hw
  obtain ⟨key, -, rfl⟩ := Option.map_eq_some_iff.1 hp
  rfl

theorem ringWr_store (s : State) (k : Nat) (c : Slot) (b off : Nat) (bs : List Byte) : ∀ w ∈ s.ringWr k c b off bs, w.store = .xd ∨ w.store = .tier2 := by
  unfold State.ringWr
  split
  · exact fun w hw => .inl (by rw [List.mem_singleton.1 hw])
  · exact fun w hw => .inr (t2Wr_store _ _ _ _ w hw)

/-- The I/O dies' store, tier 2 and what is poisoned may change, and nothing else. -/
def Drained (s t : State) : Prop := t = { s with stores := t.stores } ∧ t.stores.core = s.stores.core ∧ t.stores.region = s.stores.region

theorem Drained.trans (h : Drained s t) (g : Drained t u) : Drained s u :=
  ⟨g.1.trans (congrArg (fun v : State => { v with stores := u.stores }) h.1), g.2.1.trans h.2.1, g.2.2.trans h.2.2⟩

theorem apply_drained (s : State) (ws : List Wr) (h : ∀ w ∈ ws, w.store = .xd ∨ w.store = .tier2) : Drained s (s.apply ws) := by
  obtain ⟨hcore, hregion, -⟩ := writes_keep ws h s.stores
  exact ⟨rfl, hcore, hregion⟩

theorem drainFifo_drained (s : State) (k : Nat) (x : SlotState) (f : Filling) : Drained s (s.drainFifo k x f) := by
  unfold State.drainFifo
  split
  · exact ⟨rfl, rfl, rfl⟩
  · refine apply_drained s _ fun w hw => ?_
    obtain ⟨ws, hws, hmem⟩ := List.mem_flatten.1 hw
    obtain ⟨p, -, rfl⟩ := List.mem_map.1 hws
    exact ringWr_store _ _ _ _ _ _ w hmem

/-- INGRESS_T2_WRITE empties a slot's landing FIFO (R268). -/
theorem ingressT2Write_spec (h : s.slot? k = some x) (hrun : s.running = true) (hlevel : s.power.applied < 3) : ∃ u : State, exec (.ingressT2Write k) s = .next u ∧
    u.slot? k = some { x with waiting := x.waiting.map (fun f => { f with fifo := [] }), filling := x.filling.map (fun f => { f with fifo := [] }) } ∧
    u.proto = s.proto ∧ u.stores.core = s.stores.core ∧ u.stores.region = s.stores.region ∧ (x.filling = none → x.waiting = [] → u.stores = s.stores) := by
  obtain ⟨hrest, hcore, hregion⟩ := foldl_keeps (fun v => Drained s v) (fun s f => s.drainFifo k x f) (x.waiting ++ x.filling.toList) s ⟨rfl, rfl, rfl⟩
    (fun v f hv => hv.trans (drainFifo_drained v k x f))
  have hproto : ((x.waiting ++ x.filling.toList).foldl (fun s f => s.drainFifo k x f) s).proto = s.proto := by rw [hrest]
  have hgo : exec (.ingressT2Write k) s = .next (((x.waiting ++ x.filling.toList).foldl (fun s f => s.drainFifo k x f) s).setSlot k
      (fun t => { t with waiting := t.waiting.map (fun f => { f with fifo := [] }), filling := t.filling.map (fun f => { f with fifo := [] }) })) := by
    change execIngressT2Write k s = _
    rw [execIngressT2Write, h]
    dsimp only
    rw [if_neg (by simp [hrun, Nat.not_le.2 hlevel])]
  refine ⟨_, hgo, slot?_setSlot ?_ _, ?_, hcore, hregion, fun hf hw => ?_⟩
  · rw [hrest]
    exact h
  · exact hproto
  · rw [hf, hw]
    rfl

theorem SlotStep.core (h : SlotStep k s t) : t.stores.core = s.stores.core ∧ t.stores.region = s.stores.region := by
  rw [h.rest]
  exact ⟨rfl, rfl⟩

/-- Dropped samples at the front of those that wait are gone once they have had their turn (R272). -/
theorem passAll_waiting (l : List Filling) : ∀ (s : State) (x : SlotState), s.slot? k = some x → ∀ r, x.waiting = l ++ r →
    ∃ y, (l.foldl (fun s f => (s.clockUpdate k f).1.setSlot k (fun t => { t with waiting := t.waiting.tail })) s).slot? k = some y ∧ y.waiting = r := by
  induction l with
  | nil => exact fun s x h r hr => ⟨x, h, hr⟩
  | cons f l ih =>
    intro s x h r hr
    obtain ⟨-, m, hm⟩ := clockUpdate_spec h f
    exact ih _ _ (slot?_setSlot hm _) r (by dsimp only; rw [hr]; rfl)

theorem passDropped_waiting (h : s.slot? k = some x) : ∃ y, (s.passDropped k).slot? k = some y ∧ y.waiting = x.waiting.dropWhile (fun f => f.buf.isNone) := by
  unfold State.passDropped
  rw [h]
  exact passAll_waiting _ s x h _ List.takeWhile_append_dropWhile.symm

/-- The header's fields that name its sample (R270). -/
theorem sampleHeader_fields (f : Filling) (k state : Nat) (stale src : Bool) (sg : Option Int) (capture : Int) (bytes : Nat) :
    let h := sampleHeader f k state stale src sg capture bytes
    h.length = 64 ∧ fieldAt h 0 4 = f.seq % 256 ^ 4 ∧ fieldAt h 4 1 = k % 256 ^ 1 ∧ fieldAt h 8 8 = f.pin % 256 ^ 8 ∧ fieldAt h 32 8 = f.endTime % 256 ^ 8 ∧ fieldAt h 40 4 = bytes % 256 ^ 4 := by
  intro h
  have hzero : zeros 1 = toLe 1 0 := rfl
  have heq : h = toLe 4 f.seq ++ (toLe 1 k ++ (toLe 1 (b2n stale + 2 * b2n src + 4 * b2n f.corrected) ++ (toLe 1 state ++ (toLe 1 0 ++ (toLe 8 f.pin ++
      (toLe 8 (toBits 64 (sg.getD 0)) ++ (toLe 8 (toBits 64 capture) ++ (toLe 8 f.endTime ++ (toLe 4 bytes ++ zeros 20))))))))) := by
    simp only [h, sampleHeader, hzero, List.append_assoc]
  rw [heq]
  refine ⟨by simp [zeros], ?_, ?_, ?_, ?_, ?_⟩
  all_goals
    repeat rw [fieldAt_append_toLe (by decide)]
    exact fieldAt_toLe_append _ _ _

/-- The header of the oldest complete sample, by the clock model as the sample's source time has left it (R270, R272, R274). -/
def readyHeader (k : Nat) (x : SlotState) (f : Filling) (sg : Option Int) (m : ClockModel) : List Byte :=
  sampleHeader f k m.state (decide (m.state ≠ 2) || sg.isNone) f.raw.isSome sg (m.capture x.cfg.srcKind f.pin sg) x.cfg.dataBytes

/-- A slot whose oldest complete sample is READY (R270). -/
def readied (f : Filling) (rest : List Filling) (b : Nat) (capture : Int) (stale : Bool) (x : SlotState) : SlotState :=
  { x with waiting := rest, history := ((f.seq, toBits 64 capture, stale) :: x.history).take 64,
           bufs := x.bufs.modify b (fun y => { y with state := 2, sampleSeq := f.seq, capture := toBits 64 capture, endTime := f.endTime }) }

theorem sampleReady_eq (h : s.slot? k = some x) (hw : x.waiting = f :: rest) (hb : f.buf = some b) (hfifo : f.fifo = []) :
    ∃ m, (s.clockUpdate k f).1.slot? k = some { x with model := m } ∧
      let sg := (s.clockUpdate k f).2
      s.sampleReady k = ((((s.clockUpdate k f).1.apply ((s.clockUpdate k f).1.ringWr k x.cfg b 0 (readyHeader k x f sg m))).setSlot k
        (readied f rest b (m.capture x.cfg.srcKind f.pin sg) (decide (m.state ≠ 2) || sg.isNone))).passDropped k, true) := by
  obtain ⟨-, m, hm⟩ := clockUpdate_spec h f
  refine ⟨m, hm, ?_⟩
  unfold State.sampleReady
  rw [h]
  dsimp only
  rw [hw]
  dsimp only
  rw [hb]
  dsimp only
  rw [hfifo]
  refine (if_neg (by decide)).trans ?_
  rw [hm]
  rfl

/-- The oldest complete sample's buffer becomes READY behind its header (R270 to R274). -/
theorem sampleReady_spec (h : s.slot? k = some x) (hw : x.waiting = f :: rest) (hb : f.buf = some b) (hfifo : f.fifo = []) (hlt : b < x.bufs.length) :
    ∃ (u : State) (y : SlotState), s.sampleReady k = (u, true) ∧ u.slot? k = some y ∧ y.waiting = rest.dropWhile (fun y => y.buf.isNone) ∧
      (∃ z, y.bufs[b]? = some z ∧ z.state = 2 ∧ z.sampleSeq = f.seq ∧ z.endTime = f.endTime) ∧
      (x.cfg.place = 0 → ∃ m sg, (∀ i, i < 64 → u.stores.xd.read (xdKey k (b * x.cfg.bufBytes + i)) = (readyHeader k x f sg m).getD i 0) ∧ u.stores.tier2 = s.stores.tier2) ∧
      (x.cfg.place ≠ 0 → u.stores.xd = s.stores.xd) ∧ u.stores.core = s.stores.core ∧ u.stores.region = s.stores.region := by
  obtain ⟨m, hm, hgo⟩ := sampleReady_eq h hw hb hfifo
  obtain ⟨hclock, -⟩ := clockUpdate_spec h f
  generalize s.clockUpdate k f = c at hm hgo hclock
  obtain ⟨v, sg⟩ := c
  dsimp only at hgo hclock hm
  generalize hhead : readyHeader k x f sg m = head at hgo
  have hlen : head.length = 64 := by
    rw [← hhead]
    exact (sampleHeader_fields _ _ _ _ _ _ _ _).1
  let w := v.apply (v.ringWr k x.cfg b 0 head)
  have hw' := apply_drained v _ (ringWr_store v k x.cfg b 0 head)
  have hwslot : w.slot? k = some { x with model := m } := by
    rw [show w = _ from hw'.1]
    exact hm
  have hready := slot?_setSlot hwslot (readied f rest b (m.capture x.cfg.srcKind f.pin sg) (decide (m.state ≠ 2) || sg.isNone))
  obtain ⟨hpass, y, hy, hrest, -⟩ := passDropped_spec hready
  obtain ⟨y', hy', hwait⟩ := passDropped_waiting hready
  cases hy.symm.trans hy'
  have hstep := (setSlot_step w k (readied f rest b (m.capture x.cfg.srcKind f.pin sg) (decide (m.state ≠ 2) || sg.isNone))).trans hpass
  refine ⟨_, y, hgo, hy, hwait, ?_, fun hplace => ⟨m, sg, fun i hi => ?_, ?_⟩, fun hplace => ?_, ?_, ?_⟩
  · rw [hrest]
    exact ⟨_, (List.getElem?_modify _ _ _ _).trans (by simp only [if_true, List.getElem?_eq_getElem hlt]; rfl), rfl, rfl, rfl⟩
  · have hring : w = v.apply [⟨.xd, xdKey k (b * x.cfg.bufBytes + 0), head⟩] := congrArg v.apply (if_pos hplace)
    have hxd := apply_xd v (xdKey k (b * x.cfg.bufBytes + 0)) head
    rw [← hring] at hxd
    rw [hhead, hstep.xd.1, xdKey_add]
    exact hxd.within i (by omega)
  · have hring : w = v.apply [⟨.xd, xdKey k (b * x.cfg.bufBytes + 0), head⟩] := congrArg v.apply (if_pos hplace)
    have hxd := apply_xd v (xdKey k (b * x.cfg.bufBytes + 0)) head
    rw [← hring] at hxd
    exact hstep.xd.2.trans (hxd.tier2.trans hclock.xd.2)
  · have htier : w = v.apply (v.t2Wr x.cfg.ringCtx (x.cfg.ringAddr + b * x.cfg.bufBytes + 0) head) := congrArg v.apply (if_neg hplace)
    have hstore := t2Wr_store v x.cfg.ringCtx (x.cfg.ringAddr + b * x.cfg.bufBytes + 0) head
    have hxd := (writes_keep _ (fun y hy => .inr (hstore y hy)) v.stores).2.2 hstore
    exact hstep.xd.1.trans ((congrArg (fun v : State => v.stores.xd) htier).trans (hxd.trans hclock.xd.1))
  · exact hstep.core.1.trans (hw'.2.1.trans hclock.core.1)
  · exact hstep.core.2.trans (hw'.2.2.trans hclock.core.2)

end Ready

/-- With no latest trigger time passed, none comes first (R348). -/
theorem latestBefore_idle {s : State} {at_ : Nat} (h : ∀ kv ∈ s.sched.jobs, kv.2.trigger = 1 ∨ kv.2.trigger = 2 → at_ ≤ s.clock.frameStart + kv.2.latestUs * 1000) :
    s.latestBefore at_ = s := by
  have hnone : Tab.keysWhere s.sched.jobs (fun _ j => decide (j.trigger = 1 ∨ j.trigger = 2) && decide (s.clock.frameStart + j.latestUs * 1000 < at_)) = [] := by
    rw [Tab.keysWhere, List.map_eq_nil_iff, List.filter_eq_nil_iff]
    intro kv hkv hlate
    simp only [Bool.and_eq_true, decide_eq_true_eq] at hlate
    exact absurd hlate.2 (Nat.not_lt.2 (h kv hkv hlate.1))
  rw [State.latestBefore, hnone]
  rfl

theorem exec_sampleReady {s u : State} {k : Nat} (hrun : s.running = true) (h : (s.latestBefore (s.clock.now / 8 * 8)).sampleReady k = (u, true)) :
    exec (.sampleReady k) s = .next ((u.inputReady k).settle) := by
  have hready : s.readyAndFire k = u.inputReady k := by
    rw [State.readyAndFire]
    rw [h]
    rfl
  change execSampleReady k s = _
  rw [execSampleReady, if_pos hrun, hready]

/-- Settles O43: every event's bytes land as one or two pieces of the sample's buffer, and what the rest of it does is its slot's record. -/
theorem samplesFillAndBecomeReady : Obligations.SamplesFillAndBecomeReady := by
  unfold Obligations.SamplesFillAndBecomeReady
  refine ⟨?_, ?_⟩
  · intro s k b t f h hf hb hgood hplace room others lands fills waits drops eb
    have hlands {u : State} {g : Filling} {off : Nat} {bs : List Byte} (hl : Lands s k b t.cfg f u g off bs) : lands u g off bs := ⟨hl.ring, hl.fifo⟩
    refine ⟨?_, ?_, ?_, ?_, ?_, ?_⟩
    · intro die port vc link payload hslot _ hch hlen hlines hw ch n code px hsize hroom
      have hexec := exec_csi2Line (link := link) (payload := payload) h hslot hf (csiChannels_dt hch)
      by_cases hbad : link = .bad
      · rw [if_pos hbad] at hexec
        refine ⟨_, hexec, ⟨rfl, rfl, rfl, rfl⟩, fun _ => ⟨rfl, _, slot?_spoilSample h hf 3, ?_, rfl⟩, fun hne => absurd hbad hne⟩
        simp [spoiled, hgood]
      · rw [if_neg hbad, if_neg (show ¬t.cfg.bufBytes < 64 + f.size + lineSize t.cfg payload from Nat.not_lt.2 hsize), if_neg (by simp [hlen, Nat.not_le.2 hlines]), hgood, if_neg (by decide)] at hexec
        obtain ⟨g, hg⟩ := lineLaid (payload := payload) h hf hb hplace hbad hch hlen hlines hw hroom
        obtain ⟨c, hc⟩ := Option.isSome_iff_exists.1 hch
        have hchannels : ch = c := by simp only [ch, hc, Option.getD_some]
        refine ⟨_, hexec, hg.laying.2, fun hb' => absurd hb' hbad, fun _ => ⟨g, ⟨_, hg.slot, rfl, rfl⟩, hg.sample, hlands hg.elements, fun h4 => hlands (hg.scales h4), fun h0 hp i j hi hj => ?_⟩⟩
        rw [hchannels] at hj ⊢
        exact lineLaid_fp32 hg h0 hp hc hi hj
    · intro die port vc link payload hslot hlink n hdt hbad
      have hexec := exec_csi2Line (link := link) (payload := payload) h hslot hf hdt
      obtain ⟨hset, hcount⟩ := lineCounted_spec (payload := payload) h hf hlink
      rw [if_neg hlink] at hexec
      have hspoil (reason : Nat) : spoiled (lined t.cfg link payload f) reason = { lined t.cfg link payload f with bad := some reason } := by simp [spoiled, lined, hgood]
      by_cases hover : t.cfg.bufBytes < 64 + f.size + lineSize t.cfg payload
      · rw [if_pos hover] at hexec
        exact ⟨_, hexec, hset.stores, _, slot?_spoilSample hcount rfl 1, by rw [hspoil, if_pos (show t.cfg.bufBytes < 64 + f.size + n from hover)]; rfl, rfl⟩
      · rw [if_neg hover, if_pos (hbad.resolve_left hover)] at hexec
        exact ⟨_, hexec, hset.stores, _, slot?_spoilSample hcount rfl 2, by rw [hspoil, if_neg (show ¬t.cfg.bufBytes < 64 + f.size + n from hover)]; rfl, rfl⟩
    · intro die port vc link payload hslot
      refine ⟨fun hfirst => ?_, fun dt hdt hother => exec_csi2Other hslot hf hdt hother⟩
      obtain ⟨hset, hmarked⟩ := linkOutcome_spec h hf link
      refine ⟨_, exec_csi2Embedded hslot hf hfirst, hset.stores, _, slot?_setFilling hmarked rfl _, ?_, rfl⟩
      cases link <;> simp [linked, spoiled, hgood]
    · intro die port vc n link dphy lanes hslot
      have hexec := exec_csi2FrameEnd (frame := ⟨n, link, dphy, lanes⟩) hslot hf
      obtain ⟨hset, hfilled⟩ := frameEnd_filled (die := die) (port := port) (frame := ⟨n, link, dphy, lanes⟩) h hf
      have hbuf : (ended t ⟨n, link, dphy, lanes⟩ (s.ingest.csiPorts.get? (12 * die + port)) f).buf = some b := (ended_buf _ _).trans hb
      have hclass : (∀ c, s.ingest.csiPorts.get? (12 * die + port) = some c → c = ⟨dphy, lanes⟩) ↔
          (s.ingest.csiPorts.get? (12 * die + port) = none ∨ s.ingest.csiPorts.get? (12 * die + port) = some ⟨dphy, lanes⟩) := by
        cases s.ingest.csiPorts.get? (12 * die + port) <;> simp
      by_cases hgo : f.lines = t.cfg.h ∧ link ≠ .bad ∧ (s.ingest.csiPorts.get? (12 * die + port) = none ∨ s.ingest.csiPorts.get? (12 * die + port) = some ⟨dphy, lanes⟩)
      · have hkept := ended_good (frame := ⟨n, link, dphy, lanes⟩) hgo.1 hgo.2.1 hgo.2.2
        obtain ⟨hend, hafter⟩ := endSample_good hfilled rfl hbuf (by rw [hkept]; exact hgood)
        rw [hset.step.clock] at hafter
        refine ⟨_, _, hexec, hafter, rfl, fun _ _ _ => ⟨⟨_, hafter, rfl, by rw [hkept]; rfl⟩, (hset.trans hend).stores⟩, fun hbad => ?_⟩
        rcases hbad with hlines | hlink | hsame
        · exact absurd hgo.1 hlines
        · exact absurd hlink hgo.2.1
        · exact absurd (hclass.2 hgo.2.2) hsame
      · have hwhy := ended_bad (t := t) (frame := ⟨n, link, dphy, lanes⟩) (cls := s.ingest.csiPorts.get? (12 * die + port)) hgood (by
          by_contra hnone
          rw [not_or, not_or, not_not, not_not] at hnone
          exact hgo hnone)
        obtain ⟨y, hy, hcount, hfe⟩ := dropSample_counted hfilled rfl hbuf ((ended t ⟨n, link, dphy, lanes⟩ (s.ingest.csiPorts.get? (12 * die + port)) f).bad.getD 0)
        rw [← endSample_bad hfilled rfl (.inr (by rw [hwhy]; rfl))] at hy
        refine ⟨_, y, hexec, hy, hfe, fun hlines hlink hsame => absurd ⟨hlines, hlink, hclass.1 hsame⟩ hgo, fun _ => ⟨y, hy, hcount.idle, hcount.kept, ?_⟩⟩
        rw [hcount.drops, hwhy]
        rfl
    · intro port bclks words hwf hready hif hport hfmt hone hroom wire row
      have hexec := exec_tdmFrameSync (bclks := bclks) (words := words) hwf h hready hf hif hport hone
      have hset := setSlot_set s k (learnt t.tdmSeen bclks)
      have hslot := slot?_setSlot h (learnt t.tdmSeen bclks)
      refine ⟨_, hexec, fun hseen hlen => ?_, fun hgo => ?_⟩
      · obtain ⟨y, hy, hcount, -⟩ := dropSample_counted hslot hf hb 2
        rw [← tdmFrame_cut (words := words) hseen hlen] at hy
        exact ⟨y, hy, hcount.idle, hcount.kept, by rw [hcount.drops, hgood]; rfl⟩
      · obtain ⟨g, hg⟩ := frameLaid (words := words) hslot hf hb hplace (setSlot_room h hroom ⟨rfl, rfl⟩)
        have htaken := tdmFrame_eq (words := words) h hf hgo
        have hfp := fun h0 hp i hi => frameLaid_fp32 (i := i) hg h0 hp hi
        rw [htaken]
        split
        · next hlast =>
          obtain ⟨hend, hafter⟩ := endSample_good hg.slot rfl (by rw [hg.sample]; exact hb) (by rw [hg.sample]; exact hgood)
          rw [hg.laying.clock] at hafter
          refine ⟨g, hg.sample, ⟨_, hafter, rfl, rfl⟩, (hg.laying.trans hend.laying).2,
            hlands ((hg.elements.refilled hend.stores rfl).of_same hset.stores rfl), fun h0 hp i hi => ?_⟩
          rw [show ((frameTaken (s.setSlot k (learnt t.tdmSeen bclks)) k t.cfg f words).endSample k).stores = _ from hend.stores]
          exact hfp h0 hp i hi
        · next hmore =>
          exact ⟨g, hg.sample, ⟨_, hg.slot, rfl, rfl⟩, hg.laying.2, hlands (hg.elements.of_same hset.stores rfl), hfp⟩
    · intro payload hif hvec hroom bs vec
      have hexec := exec_spiTransactionEnd (payload := payload) h hf hif
      have hset := setSlot_set s k (fun t' => { t' with filling := t'.filling.map (fun f => { f with raw := t.cfg.stampIn bs }) })
      have hslot := slot?_setFilling h hf (fun f => { f with raw := t.cfg.stampIn bs })
      have hlen : bs.length = t.cfg.w := by simp [bs, zeros]
      obtain ⟨hvlen, hvbytes⟩ := payloadVector_of_scopes (a := s.setFilling k (fun f => { f with raw := t.cfg.stampIn bs })) (s := s) rfl k bs
      obtain ⟨g, hg⟩ := payloadLaid (bs := bs) hslot rfl hb hplace (by rw [hvlen]; exact hvec) (setFilling_room (n := 0) h hf (by rw [Nat.zero_add, hvlen, hlen]; exact hroom) rfl)
      obtain ⟨hend, hafter⟩ := endSample_good hg.slot rfl (by rw [hg.sample]; exact hb) (by rw [hg.sample]; exact hgood)
      rw [hg.laying.clock] at hafter
      refine ⟨_, g, hexec, hg.sample, ⟨_, hafter, rfl, rfl⟩, (hg.laying.trans hend.laying).2, fun hne => ?_, hlands ((hg.bytes.refilled hend.stores rfl).of_same hset.stores rfl)⟩
      have hvector := hg.vector (by rw [hvbytes]; exact hne)
      rw [hvbytes] at hvector
      exact hlands ((hvector.refilled hend.stores rfl).of_same hset.stores rfl)
  · intro s k hrun v
    refine ⟨fun h => latestBefore_idle h, ?_, ?_⟩
    · intro t f rest b h hw hb hfifo hlt
      obtain ⟨u, y, hgo, hy, hwait, hbuf, hring, hxd, hcore, hregion⟩ := sampleReady_spec h hw hb hfifo hlt
      refine ⟨u, y, hgo, exec_sampleReady hrun hgo, hy, hwait, hbuf, fun hplace => ?_, hxd, hcore, hregion⟩
      obtain ⟨m, sg, hbytes, htier⟩ := hring hplace
      obtain ⟨hlen, hseq, hslot, hpin, hend, hdata⟩ := sampleHeader_fields f k m.state (decide (m.state ≠ 2) || sg.isNone) f.raw.isSome sg (m.capture t.cfg.srcKind f.pin sg) t.cfg.dataBytes
      have hread (off n : Nat) (hin : off + n ≤ 64) : leNat ((List.range n).map (fun y => u.stores.xd.read (xdKey k (b * t.cfg.bufBytes + off + y)))) =
          fieldAt (readyHeader k t f sg m) off n := by
        have := leNat_map_range (b := readyHeader k t f sg m) (at_ := fun i => u.stores.xd.read (xdKey k (b * t.cfg.bufBytes + i))) (off := off) (n := n)
          (fun i hi => hbytes i (by rw [readyHeader, hlen] at hi; exact hi)) (by rw [readyHeader, hlen]; exact hin)
        simpa only [Nat.add_assoc] using this
      exact ⟨(hread 0 4 (by decide)).trans hseq, (hread 4 1 (by decide)).trans hslot, (hread 8 8 (by decide)).trans hpin, (hread 32 8 (by decide)).trans hend,
        (hread 40 4 (by decide)).trans hdata, htier⟩
    · intro t h hlevel
      obtain ⟨u, hexec, hslot, hproto, hcore, hregion, hsame⟩ := ingressT2Write_spec h hrun hlevel
      exact ⟨u, _, hexec, hslot, rfl, rfl, rfl, hproto, hcore, hregion, hsame⟩

end Sys2Proof.Proofs.Samples

/-! PROOFS. Contexts and partitions: how they begin (R334 to R339). -/

namespace Sys2Proof.Proofs.Contexts

open Sys2Proof Sys2Proof.Machine

section Begin

variable {p : Packet} {s : State} {f : Flight} {c : Caller}

/-- A number that the packet names, or any that is free (log 4). -/
theorem number_of_free {α : Type} {named none_ lim : Nat} {t : Tab α} (seed : Nat) (hnamed : named ≠ none_ → named < lim ∧ t.has named = false) (hfree : ∃ n, n < lim ∧ t.get? n = none) :
    ∃ n, (if named = none_ then pickFree seed lim t.keys else some named) = some n ∧ n < lim ∧ (named ≠ none_ → n = named) ∧ t.get? n = none := by
  by_cases h : named = none_
  · obtain ⟨x, hx, hlt, hnot⟩ := pickFree_of_free seed (used := t.keys) (by simpa only [Tab.not_mem_keys] using hfree)
    exact ⟨x, (if_pos h).trans hx, hlt, fun hne => absurd h hne, Tab.not_mem_keys.1 hnot⟩
  · obtain ⟨hlt, hnot⟩ := hnamed h
    exact ⟨named, if_neg h, hlt, fun _ => rfl, by simpa [Tab.has] using hnot⟩

theorem length_drawKey (s : State) (n g : Nat) : (s.drawKey n g).length = 32 := by simp [State.drawKey, fixedLen, zeros]

/-- The context that CTX_CREATE makes (R334). -/
def newContext (p : Packet) (s : State) (n : Nat) : Context :=
  ⟨Packet.fld p 18 1, [⟨1, s.drawKey n 0⟩, ⟨0, []⟩, ⟨0, []⟩, ⟨0, []⟩], 0, 0, { Account.zero with frameNo := s.frameNo - 1 }, none⟩

theorem ctxCreateEffect_eq {id n : Nat} (hn : (if Packet.fld p 16 2 = 0xFFFF then pickFree s.fresh 256 s.sched.contexts.keys else some (Packet.fld p 16 2)) = some n) :
    ctxCreateEffect id c p s = done0 (State.resetScope { s.bump with sched := { s.sched with contexts := s.sched.contexts.set n (newContext p s n) } } 2 n) n := by
  unfold ctxCreateEffect
  dsimp only
  rw [hn]
  rfl

theorem ctxCreateChecks_number (hc : ctxCreateChecks c p s = none) (hnamed : Packet.fld p 16 2 ≠ 0xFFFF) : Packet.fld p 16 2 < 256 ∧ s.sched.contexts.has (Packet.fld p 16 2) = false := by
  have hform := (firstFail_none _).1 hc (_, St.badParam) (List.mem_of_getElem? (i := 1) rfl)
  have hbusy := (firstFail_none _).1 hc (_, St.busy) (List.mem_of_getElem? (i := 2) rfl)
  simp only [Bool.or_eq_false_iff, decide_eq_false_iff_not] at hform
  exact ⟨by have := hform.1.2; omega, by simpa [hnamed] using hbusy⟩

/-- The partition that PARTITION_CREATE makes (R336 to R339). -/
def newPartition (p : Packet) (s : State) : Partition :=
  { state := 4, ctx := Packet.ctxNo p, cls := Packet.fld p 17 1, pair := bit (Packet.fld p 18 1) 0, qpMask := Packet.fld p 19 1,
    regionCeil := Packet.fld p 20 2, t2CeilGib := Packet.fld p 22 2, positions := (namedCores p).map some, activeFrame := s.dueFrame, misses := 0,
    oneShort := false, drained := false, release := none, ofDestroy := false, shownCores := (namedCores p).length, quenchStarted := false,
    quenchEdges := 0, tier2End := none, paused := false }

/-- The partition stands, and its scope is at reset. -/
def partitionPlaced (p : Packet) (s : State) (n : Nat) : State :=
  State.resetScope { s.bump with sched := { s.sched with partitions := s.sched.partitions.set n (newPartition p s) } } 1 n

/-- A control-class partition ends a pending activation and wakes its cluster (R13, R369). -/
def partitionReady (p : Packet) (s : State) (n : Nat) : State :=
  if Packet.fld p 17 1 = 0 then ((partitionPlaced p s n).endActivation St.notParked).wakeClusters (namedCores p) else partitionPlaced p s n

theorem partitionCreateEffect_eq {id n : Nat} (hn : (if Packet.fld p 16 1 = 0xFF then pickFree s.fresh 16 s.sched.partitions.keys else some (Packet.fld p 16 1)) = some n) :
    partitionCreateEffect id c p s = done0 ((partitionReady p s n).postPart n 4) (n + 2 ^ 32 * (s.dueFrame % 2 ^ 32)) := by
  unfold partitionCreateEffect
  dsimp only
  rw [hn]
  rfl

theorem partitionCreateChecks_number (hc : partitionCreateChecks c p s = none) (hnamed : Packet.fld p 16 1 ≠ 0xFF) :
    Packet.fld p 16 1 < 16 ∧ s.sched.partitions.has (Packet.fld p 16 1) = false := by
  have hform := (firstFail_none _).1 hc (_, St.badParam) (List.mem_of_getElem? (i := 1) rfl)
  have hbusy := (firstFail_none _).1 hc (_, St.busy) (List.mem_of_getElem? (i := 12) rfl)
  simp only [Bool.or_eq_false_iff, decide_eq_false_iff_not] at hform
  exact ⟨by have := hform.1.2; omega, by simpa [hnamed] using hbusy⟩

/-- The end of an activation concerns its flight, the frame's counters and the activation alone. -/
theorem endActivation_spec (s : State) (status : Nat) : ∃ proto stats fw, s.endActivation status = { s with proto := proto, stats := stats, fw := fw } := by
  unfold State.endActivation
  split
  · split
    · exact ⟨_, _, _, rfl⟩
    · next a _ _ =>
      cases hflight : a.flight with
      | none => exact ⟨_, _, _, rfl⟩
      | some id =>
        rcases hf : s.flight? id with _ | g
        · have hsame : s.finishOpt (some id) status 0 0 = s := by simp only [State.finishOpt, State.finish, State.finishFull, hf]
          rw [hsame]
          exact ⟨_, _, _, rfl⟩
        · obtain ⟨a, ha⟩ := State.finishFull_eq hf status 0 0 none [] []
          rw [show s.finishOpt (some id) status 0 0 = _ from ha]
          exact ⟨_, _, _, rfl⟩
  · exact ⟨_, _, _, rfl⟩

theorem partitionReady_spec (p : Packet) (s : State) (n : Nat) : (partitionReady p s n).sched = { s.sched with partitions := s.sched.partitions.set n (newPartition p s) } ∧
    (Packet.fld p 17 1 ≠ 0 → (partitionReady p s n).fw = s.fw) ∧ (partitionReady p s n).tiers = s.tiers ∧ (partitionReady p s n).kv = s.kv := by
  unfold partitionReady
  split
  · next hcls =>
    obtain ⟨proto, stats, fw, he⟩ := endActivation_spec (partitionPlaced p s n) St.notParked
    rw [he]
    exact ⟨rfl, fun hne => absurd hcls hne, rfl, rfl⟩
  · exact ⟨rfl, fun _ => rfl, rfl, rfl⟩

end Begin

/-- Settles O44: each effect sets one entry of its table. -/
theorem contextsAndPartitionsBegin : Obligations.ContextsAndPartitionsBegin := by
  unfold Obligations.ContextsAndPartitionsBegin
  intro p s f c
  refine ⟨fun htake hc hfree => ?_, fun htake hc hfree => ?_⟩
  · obtain ⟨n, hn, hlt, hnamed, hnone⟩ := number_of_free s.fresh (ctxCreateChecks_number hc) hfree
    refine ⟨_, n, newContext p s n, hlt, hnamed, hnone, congrArg Host.Outcome.next (runPacket_okWith htake hc (ctxCreateEffect_eq hn)), Tab.get?_set_self _ _ _,
      fun k hk => Tab.get?_set_ne _ _ _ _ hk, rfl, ?_, rfl, rfl, rfl, rfl, rfl⟩
    simp [newContext, length_drawKey]
  · obtain ⟨n, hn, hlt, hnamed, hnone⟩ := number_of_free s.fresh (partitionCreateChecks_number hc) hfree
    obtain ⟨hsched, hfw, htiers, hkv⟩ := partitionReady_spec p s n
    have htold := State.post_told (partitionReady p s n) ⟨0x31, 3, 0, if 4 = 3 ∨ 4 = 0 then none else ((partitionReady p s n).sched.partitions.get? n).map (·.ctx), n, 4⟩
    rw [State.Told] at htold
    have hkept : ((partitionReady p s n).postPart n 4).sched = { s.sched with partitions := s.sched.partitions.set n (newPartition p s) } := by
      rw [State.postPart, htold]
      exact hsched
    refine ⟨_, n, newPartition p s, hlt, hnamed, hnone, congrArg Host.Outcome.next (runPacket_okWith htake hc (partitionCreateEffect_eq hn)), ?_, fun k hk => ?_,
      rfl, rfl, rfl, rfl, rfl, rfl, rfl, rfl, fun hcls => ?_, ?_, ?_⟩
    · rw [hkept]
      exact Tab.get?_set_self _ _ _
    · rw [hkept]
      exact Tab.get?_set_ne _ _ _ _ hk
    · rw [State.postPart, htold]
      exact hfw hcls
    · rw [State.postPart, htold]
      exact htiers
    · rw [State.postPart, htold]
      exact hkv

end Sys2Proof.Proofs.Contexts

/-! PROOFS. Contexts and partitions: how they end (R335, R340, R406 to R411). -/

namespace Sys2Proof.Proofs.Contexts

open Sys2Proof Sys2Proof.Machine Sys2Proof.Proofs.Sensors

/-! ### PARTITION_RELEASE (R340) -/

section Release

variable {s t u : State} {n : Nat} {q : Partition}

theorem keysWhere_nil {α : Type} {t : Tab α} {f : Nat → α → Bool} (h : ∀ kv ∈ t, f kv.1 kv.2 = false) : t.keysWhere f = [] := by
  rw [Tab.keysWhere, List.map_eq_nil_iff, List.filter_eq_nil_iff]
  exact fun kv hkv => by rw [h kv hkv]; exact Bool.false_ne_true

/-- Partition `n`, event queues, what left the part and host memory may change, and nothing else. -/
structure PartStep (n : Nat) (s t : State) : Prop where
  rest : t = { s with sched := { s.sched with partitions := t.sched.partitions }, proto := { s.proto with eqs := t.proto.eqs },
                      stores := { s.stores with host := t.stores.host, poison := t.stores.poison }, out := t.out }
  others : ∀ k, k ≠ n → t.sched.partitions.get? k = s.sched.partitions.get? k

theorem PartStep.trans (h : PartStep n s t) (g : PartStep n t u) : PartStep n s u := by
  refine ⟨?_, fun k hk => (g.others k hk).trans (h.others k hk)⟩
  have hg := g.rest
  rw [h.rest] at hg
  exact hg

theorem setPart_step (s : State) (n : Nat) (g : Partition → Partition) : PartStep n s (s.setPart n g) :=
  ⟨rfl, fun _ hk => (Tab.get?_update _ _ _ _).trans (if_neg hk)⟩

theorem get?_setPart (h : s.sched.partitions.get? n = some q) (g : Partition → Partition) : (s.setPart n g).sched.partitions.get? n = some (g q) :=
  (Tab.get?_update _ _ _ _).trans (by rw [if_pos rfl, h]; rfl)

theorem postPart_step (s : State) (n state : Nat) : PartStep n s (s.postPart n state) ∧ (s.postPart n state).sched = s.sched := by
  have htold := State.post_told s ⟨0x31, 3, 0, if state = 3 ∨ state = 0 then none else (s.sched.partitions.get? n).map (·.ctx), n, state⟩
  rw [State.Told] at htold
  have hsched : (s.postPart n state).sched = s.sched := by rw [State.postPart, htold]
  refine ⟨⟨?_, fun k _ => by rw [hsched]⟩, hsched⟩
  rw [hsched]
  exact htold

/-- A partition of a context with no stream and of no queue-pair channel drains by its flag alone (R340). -/
theorem settleDrain_spec (h : s.sched.partitions.get? n = some q) (hstreams : ∀ kv ∈ s.apps.streams, kv.2.ctx ≠ q.ctx) (hmask : q.qpMask = 0) :
    PartStep n s (s.settleDrain n) ∧ ∃ d, (s.settleDrain n).sched.partitions.get? n = some { q with drained := d } := by
  unfold State.settleDrain
  rw [h]
  dsimp only
  by_cases hwait : q.state ≠ 2 ∨ q.drained = true ∨ (!s.partIdle q.ctx) = true
  · rw [if_pos hwait]
    exact ⟨⟨rfl, fun _ _ => rfl⟩, q.drained, h⟩
  · have hhomed : Tab.keysWhere s.apps.streams (fun _ x => decide (x.ctx = q.ctx) && decide (x.home ≤ 1)) = [] := keysWhere_nil fun kv hkv => by simp [hstreams kv hkv]
    have hchannels : (List.range 8).filter (bit q.qpMask) = [] := by rw [hmask]; rfl
    rw [if_neg hwait, hhomed, hchannels]
    exact ⟨setPart_step _ _ _, true, get?_setPart h _⟩

/-- What a partition without work does on its release: it drains (R340). -/
theorem releasePart_spec (h : s.sched.partitions.get? n = some q) (hbellows : ∀ kv ∈ s.tiers.bellows, kv.2.part ≠ n) (hlattices : ∀ kv ∈ s.apps.lattices, kv.2.part ≠ n)
    (hflights : ∀ g ∈ s.proto.flights, g.opcode ≠ 0x802 ∧ g.opcode ≠ 0x803) (hstreams : ∀ kv ∈ s.apps.streams, kv.2.ctx ≠ q.ctx) (hmask : q.qpMask = 0) (fl : Option Nat) :
    PartStep n s (s.releasePart n fl false) ∧ ∃ d, (s.releasePart n fl false).sched.partitions.get? n =
      some { q with state := 2, release := fl, ofDestroy := false, shownCores := q.inService, drained := d } := by
  obtain ⟨hpost, hsched⟩ := postPart_step (s.setPart n (fun q => { q with state := 2, release := fl, ofDestroy := false, shownCores := q.inService })) n 2
  have hstep := (setPart_step s n (fun q => { q with state := 2, release := fl, ofDestroy := false, shownCores := q.inService })).trans hpost
  have hslot := get?_setPart h (fun q => { q with state := 2, release := fl, ofDestroy := false, shownCores := q.inService })
  unfold State.releasePart
  rw [h]
  dsimp only
  generalize (s.setPart n (fun q => { q with state := 2, release := fl, ofDestroy := false, shownCores := q.inService })).postPart n 2 = v at hpost hsched hstep ⊢
  have hkeep : v.tiers = s.tiers ∧ v.apps = s.apps ∧ v.proto.flights = s.proto.flights := by
    rw [hstep.rest]
    exact ⟨rfl, rfl, rfl⟩
  obtain ⟨htiers, happs, hproto⟩ := hkeep
  have hnobellows : Tab.keysWhere v.tiers.bellows (fun _ b => decide (b.part = n)) = [] := keysWhere_nil fun kv hkv => by
    rw [htiers] at hkv
    simp [hbellows kv hkv]
  have hnolattices : Tab.keysWhere v.apps.lattices (fun _ l => decide (l.part = n)) = [] := keysWhere_nil fun kv hkv => by
    rw [happs] at hkv
    simp [hlattices kv hkv]
  have hnosolves : v.qpInFlight q.ctx = [] := by
    rw [State.qpInFlight, List.filter_eq_nil_iff, hproto]
    intro g hg hqp
    simp [hflights g hg] at hqp
  rw [hnobellows, List.foldl_nil, hnolattices, List.foldl_nil, hnosolves, List.foldl_nil]
  rw [← hsched] at hslot
  obtain ⟨hdrain, hafter⟩ := settleDrain_spec hslot (by rw [happs]; exact hstreams) hmask
  exact ⟨hstep.trans hdrain, hafter⟩

end Release

/-! ### Quench (R406 to R411) -/

section Quench

variable {s : State}

/-- Tier 2 and what is poisoned may change, and nothing else. -/
def Scrubbed (s t : State) : Prop := t = { s with stores := { s.stores with tier2 := t.stores.tier2, poison := t.stores.poison } }

theorem Scrubbed.trans {t u : State} (h : Scrubbed s t) (g : Scrubbed t u) : Scrubbed s u := by
  rw [Scrubbed] at g ⊢
  rw [h] at g
  exact g

theorem zeroFill_scrubbed (s : State) (a n : Nat) : Scrubbed s (s.zeroFill .tier2 a n) := rfl

theorem zeroFill_tier2 (s : State) (a n : Nat) : (s.zeroFill .tier2 a n).stores.tier2 = s.stores.tier2.zero a n := rfl

/-- Zero-filled pages read as zero, and what lies in no page of them is what it was. -/
theorem fillPages_spec (l : List Nat) : ∀ s : State, let t := l.foldl (fun s f => s.zeroFill .tier2 (f * 65536) 65536) s
    Scrubbed s t ∧ (∀ a, a / 65536 ∉ l → t.stores.tier2.read a = s.stores.tier2.read a) ∧ (∀ a, a / 65536 ∈ l → t.stores.tier2.read a = 0) := by
  induction l with
  | nil => exact fun s => ⟨rfl, fun _ _ => rfl, fun _ h => absurd h List.not_mem_nil⟩
  | cons f r ih =>
    intro s
    obtain ⟨hscrub, hout, hin⟩ := ih (s.zeroFill .tier2 (f * 65536) 65536)
    refine ⟨(zeroFill_scrubbed s _ _).trans hscrub, fun a ha => ?_, fun a ha => ?_⟩
    · rw [List.mem_cons, not_or] at ha
      obtain ⟨hf, hr⟩ := ha
      exact (hout a hr).trans (Mem.read_zero_out _ (by omega))
    · by_cases hr : a / 65536 ∈ r
      · exact hin a hr
      · have hf := (List.mem_cons.1 ha).resolve_right hr
        exact (hout a hr).trans (Mem.read_zero_in _ (by omega))

/-- The pages that a Quench scrubs besides the scratch range (R406). -/
def quenchPages (s : State) (q : Partition) : List Nat := if q.ofDestroy then s.framesOf q.ctx else []

/-- The tier-2 part writes zeros, as far as its time went, to the pages of a leaving context and to the scratch range (R406, R408). -/
theorem quenchWrite_spec (s : State) (q : Partition) (us : Nat) : Scrubbed s (s.quenchWrite q us) ∧
    (∀ a, a / 65536 ∉ quenchPages s q → a / 65536 ≠ s.scratchFrame → (s.quenchWrite q us).stores.tier2.read a = s.stores.tier2.read a) ∧
    (16 * (quenchPages s q).length ≤ us * s.quenchSlots.length * (stacksOf s.order).length →
      ∀ fr ∈ quenchPages s q ++ [s.scratchFrame], ∀ i, i < 65536 → (s.quenchWrite q us).stores.tier2.read (fr * 65536 + i) = 0) := by
  let mine := quenchPages s q
  let blocks := us * s.quenchSlots.length * (stacksOf s.order).length
  let v := (mine.take (blocks / 16)).foldl (fun s f => s.zeroFill .tier2 (f * 65536) 65536) s
  obtain ⟨hscrub, hout, hin⟩ := fillPages_spec (mine.take (blocks / 16)) s
  have hscratch : v.scratchFrame = s.scratchFrame := by
    rw [show v = _ from hscrub]
    rfl
  cases hlast : mine[blocks / 16]? with
  | some f =>
    have hgo : s.quenchWrite q us = v.zeroFill .tier2 (f * 65536) (blocks % 16 * 4096) := by
      unfold State.quenchWrite
      dsimp only
      rw [show (if q.ofDestroy = true then s.framesOf q.ctx else [])[us * s.quenchSlots.length * (stacksOf s.order).length / 16]? = some f from hlast]
      rfl
    have hf : f ∈ mine := List.mem_of_getElem? hlast
    rw [hgo]
    refine ⟨hscrub.trans (zeroFill_scrubbed _ _ _), fun a ha _ => ?_, fun hall => ?_⟩
    · refine (Mem.read_zero_out _ ?_).trans (hout a fun hm => ha (List.mem_of_mem_take hm))
      by_contra hin
      have : a / 65536 = f := by omega
      exact ha (this ▸ hf)
    · have hlt : blocks / 16 < mine.length := (List.getElem?_eq_some_iff.1 hlast).1
      have hle : 16 * mine.length ≤ blocks := hall
      omega
  | none =>
    have hgo : s.quenchWrite q us = v.zeroFill .tier2 (v.scratchFrame * 65536) 65536 := by
      unfold State.quenchWrite
      dsimp only
      rw [show (if q.ofDestroy = true then s.framesOf q.ctx else [])[us * s.quenchSlots.length * (stacksOf s.order).length / 16]? = none from hlast]
      rfl
    rw [hgo, hscratch]
    refine ⟨hscrub.trans (zeroFill_scrubbed _ _ _), fun a ha hne => ?_, fun hall fr hfr i hi => ?_⟩
    · exact (Mem.read_zero_out _ (by omega)).trans (hout a fun hm => ha (List.mem_of_mem_take hm))
    · by_cases hsame : fr = s.scratchFrame
      · exact Mem.read_zero_in _ (by omega)
      · have hmem : fr ∈ mine := by simpa [hsame] using hfr
        refine (Mem.read_zero_out _ (by omega)).trans (hin _ ?_)
        have htake : mine.take (blocks / 16) = mine := List.take_of_length_le (List.getElem?_eq_none_iff.1 hlast)
        rw [htake, show (fr * 65536 + i) / 65536 = fr by omega]
        exact hmem

end Quench

section QuenchEvents

variable {s : State} {kv : Nat × Partition}

theorem exec_quenchEnd {n : Nat} {q : Partition} (h : s.sched.partitions.get? n = some q) (hstate : q.state = 3) (hstarted : q.quenchStarted = true) (hedges : q.quenchEdges = 0) :
    let u := State.postPart (State.resetScope { s with sched := { s.sched with partitions := s.sched.partitions.erase n } } 1 n) n 0
    exec (.quenchEnd n) s = .next ((u.finishOpt q.release St.ok 0 u.frameNo).settleLeaving) := by
  change execQuenchEnd n s = _
  rw [execQuenchEnd, h]
  exact congrArg Host.Outcome.next (if_pos ⟨hstate, hstarted, hedges⟩)

theorem exec_quenchEnd_waits {n : Nat} {q : Partition} (h : s.sched.partitions.get? n = some q) (hwait : q.state ≠ 3 ∨ q.quenchStarted = false ∨ 0 < q.quenchEdges) :
    exec (.quenchEnd n) s = .next s := by
  change execQuenchEnd n s = _
  rw [execQuenchEnd, h]
  refine congrArg Host.Outcome.next (if_neg ?_)
  rintro ⟨hstate, hstarted, hedges⟩
  rcases hwait with hne | hno | hmore
  · exact hne hstate
  · rw [hno] at hstarted
    cases hstarted
  · omega

theorem exec_quenchTier2PartEnd (h : s.sched.partitions.find? (fun kv => decide (kv.2.state = 3) && kv.2.tier2End.isSome) = some kv) :
    exec .quenchTier2PartEnd s = .next (if s.quenchHeld kv.2 then s
      else ((s.reach (kv.2.tier2End.getD 0)).quenchWrite kv.2 (s.tier2PartUs kv.2)).setPart kv.1 (fun q => { q with tier2End := none })) := by
  change execQuenchTier2PartEnd s = _
  rw [execQuenchTier2PartEnd, h]

theorem get?_isSome_of_mem {α : Type} {t : Tab α} {i : Nat} {v : α} (h : (i, v) ∈ t) : ∃ w, t.get? i = some w := by
  rcases hget : t.get? i with _ | w
  · exact absurd (List.mem_map_of_mem (f := Prod.fst) h) (Tab.not_mem_keys.2 hget)
  · exact ⟨w, rfl⟩

end QuenchEvents

/-! ### CTX_DESTROY (R335) -/

section Destroy

variable {s : State} {n : Nat} {p : Packet} {f : Flight} {c : Caller}

/-- Nothing belongs to a context (R335). -/
structure OwnsNothing (s : State) (n : Nat) : Prop where
  streams : ∀ kv ∈ s.apps.streams, kv.2.ctx ≠ n
  seqs : ∀ kv ∈ s.kv.seqs, kv.2.ctx ≠ n
  grids : ∀ kv ∈ s.ingest.grids, kv.2.ctx ≠ n
  lattices : ∀ kv ∈ s.apps.lattices, kv.2.ctx ≠ n
  maps : ∀ kv ∈ s.apps.maps, kv.2.ctx ≠ n
  queues : ∀ kv ∈ s.proto.queues, kv.2.bindCtx ≠ some n ∧ kv.2.closing = none
  part : s.partOf n = none
  allocs : ∀ a ∈ s.tiers.allocs, a.ctx ≠ n
  regions : ∀ kv ∈ s.tiers.regions, kv.2.ctx ≠ n
  reclaims : ∀ g ∈ s.proto.flights, g.opcode = 3 → g.running = false

theorem OwnsNothing.dropObjects (h : OwnsNothing s n) : s.dropObjects n = s := by
  have hstreams : Tab.keysWhere s.apps.streams (fun _ x => decide (x.ctx = n)) = [] := keysWhere_nil fun kv hkv => by simp [h.streams kv hkv]
  have hseqs : Tab.keysWhere s.kv.seqs (fun _ q => decide (q.ctx = n)) = [] := keysWhere_nil fun kv hkv => by simp [h.seqs kv hkv]
  have hgrids : s.ingest.grids.filter (fun kv => decide (kv.2.ctx = n)) = [] := List.filter_eq_nil_iff.2 fun kv hkv => by simp [h.grids kv hkv]
  have hlattices : Tab.keysWhere s.apps.lattices (fun _ l => decide (l.ctx = n)) = [] := keysWhere_nil fun kv hkv => by simp [h.lattices kv hkv]
  have hmaps : Tab.keysWhere s.apps.maps (fun _ m => decide (m.ctx = n)) = [] := keysWhere_nil fun kv hkv => by simp [h.maps kv hkv]
  unfold State.dropObjects
  rw [hstreams]
  dsimp only [List.foldl_nil]
  rw [hseqs, List.foldl_nil, hgrids, List.foldl_nil, hlattices, List.foldl_nil, hmaps, List.foldl_nil]

theorem OwnsNothing.closeQueues (h : OwnsNothing s n) : s.closeQueues = s := by
  have hqueues : s.proto.queues.filter (fun kv => kv.2.closing.isSome) = [] := List.filter_eq_nil_iff.2 fun kv hkv => by simp [(h.queues kv hkv).2]
  have hreclaims : s.proto.flights.filter (fun f => decide (f.opcode = 3) && f.running) = [] := List.filter_eq_nil_iff.2 fun g hg => by
    by_cases hcode : g.opcode = 3
    · simp [h.reclaims g hg hcode]
    · simp [hcode]
  rw [State.closeQueues, hqueues, List.foldl_nil, State.settleReclaims, hreclaims, List.foldl_nil]

theorem OwnsNothing.freeContext (h : OwnsNothing s n) : s.freeContext n = State.resetScope { s with sched := { s.sched with contexts := s.sched.contexts.erase n } } 2 n := by
  have hallocs : s.tiers.allocs.filter (fun a => decide (a.ctx = n)) = [] := List.filter_eq_nil_iff.2 fun a ha => by simp [h.allocs a ha]
  have hregions : s.tiers.regions.filter (fun kv => decide (kv.2.ctx = n)) = [] := List.filter_eq_nil_iff.2 fun kv hkv => by simp [h.regions kv hkv]
  unfold State.freeContext
  rw [hallocs]
  dsimp only [List.foldl_nil]
  rw [hregions, List.foldl_nil]

theorem OwnsNothing.objectsGone (h : OwnsNothing s n) : s.objectsGone n = true := by
  have hstreams : s.apps.streams.any (fun kv => decide (kv.2.ctx = n)) = false := List.any_eq_false.2 fun kv hkv => by simp [h.streams kv hkv]
  have hseqs : s.kv.seqs.any (fun kv => decide (kv.2.ctx = n)) = false := List.any_eq_false.2 fun kv hkv => by simp [h.seqs kv hkv]
  have hgrids : s.ingest.grids.any (fun kv => decide (kv.2.ctx = n)) = false := List.any_eq_false.2 fun kv hkv => by simp [h.grids kv hkv]
  have hqueues : s.proto.queues.any (fun kv => decide (kv.2.bindCtx = some n ∧ 32 ≤ kv.1)) = false := List.any_eq_false.2 fun kv hkv => by simp [(h.queues kv hkv).1]
  rw [State.objectsGone, hstreams, hseqs, hgrids, hqueues, h.part]
  rfl

/-- A destroy of a context that owns nothing ends at once (R335). -/
theorem OwnsNothing.settleDestroy (h : OwnsNothing s n) {x : Context} {d : Nat × Nat} (hx : s.ctx? n = some x) (hd : x.destroy = some d) :
    s.settleDestroy n = (State.resetScope { s with sched := { s.sched with contexts := s.sched.contexts.erase n } } 2 n).finish d.1 St.ok 0 0 := by
  unfold State.settleDestroy
  rw [hx]
  simp only [Option.bind_some, hd, h.dropObjects, h.closeQueues, h.part, h.objectsGone, if_true, h.freeContext]

/-- The destroy is taken up: its flight runs, and the context leaves. -/
def leavingState (s : State) (n id : Nat) : State := (s.setFlight id (fun f => { f with running := true, parked := false })).setCtx n (fun x => { x with destroy := some (id, 0) })

/-- The context's event queues are gone. -/
def eqsGone (s : State) (n : Nat) : State := { s with proto := { s.proto with eqs := s.proto.eqs.filter (fun kv => !decide (kv.2.bindCtx = some n)) } }

theorem ctxDestroyEffect_eq {id : Nat} (h : OwnsNothing (leavingState s (Packet.fld p 16 2) id) (Packet.fld p 16 2)) :
    ctxDestroyEffect id c p s = ((eqsGone (leavingState s (Packet.fld p 16 2) id) (Packet.fld p 16 2)).settleDestroy (Packet.fld p 16 2), .later) := by
  have hqueues : (leavingState s (Packet.fld p 16 2) id).proto.queues.mapVals
      (fun q x => if x.bindCtx = some (Packet.fld p 16 2) ∧ 32 ≤ q ∧ x.closing.isNone then { x with closing := some id } else x) = (leavingState s (Packet.fld p 16 2) id).proto.queues := by
    rw [Tab.mapVals]
    conv_rhs => rw [← List.map_id (leavingState s (Packet.fld p 16 2) id).proto.queues]
    refine List.map_congr_left fun kv hkv => ?_
    rw [if_neg (fun hb => (h.queues kv hkv).1 hb.1)]
    rfl
  unfold ctxDestroyEffect
  dsimp only
  rw [show ((s.setFlight id (fun f => { f with running := true, parked := false })).setCtx (Packet.fld p 16 2) (fun x => { x with destroy := some (id, 0) })).dropObjects (Packet.fld p 16 2) =
    leavingState s (Packet.fld p 16 2) id from h.dropObjects, hqueues]
  rfl

/-- A context that owned nothing owns nothing as it leaves. -/
theorem OwnsNothing.leavingState (h : OwnsNothing s n) {id : Nat} (hone : ∀ g ∈ s.proto.flights, g.id = id → g.opcode ≠ 3) : OwnsNothing (leavingState s n id) n := by
  refine ⟨h.streams, h.seqs, h.grids, h.lattices, h.maps, h.queues, h.part, h.allocs, h.regions, fun g hg hcode => ?_⟩
  obtain ⟨g', hg', rfl⟩ := List.mem_map.1 hg
  by_cases hid : g'.id = id
  · rw [if_pos hid] at hcode
    exact absurd hcode (hone g' hg' hid)
  · rw [if_neg hid] at hcode ⊢
    exact h.reclaims g' hg' hcode

/-- A context that owns nothing ends at once, with its flight (R335). -/
theorem exec_ctxDestroy (htake : s.takes p 0xA01 f c = true) (hc : ctxDestroyChecks c p s = none) (hone : ∀ g ∈ s.proto.flights, g.id = f.id → g = f)
    (h : OwnsNothing s (Packet.fld p 16 2)) : ∃ (t : State) (fin : Finished), exec (.ctxDestroy p) s = .next t ∧ t.ctx? (Packet.fld p 16 2) = none ∧
      (∀ k, k ≠ Packet.fld p 16 2 → t.ctx? k = s.ctx? k) ∧ t.proto.finished = s.proto.finished ++ [fin] ∧ fin.flight = f.id ∧ fin.status = St.ok ∧
      (∀ off, off < 4096 → t.activeWord 2 (Packet.fld p 16 2) off = wordReset 2 off) ∧ t.stores = s.stores ∧ t.tiers.pages = s.tiers.pages ∧ t.proto.queues = s.proto.queues := by
  obtain ⟨-, hfetched, -⟩ := State.takes_iff.1 htake
  have hcode := (State.fetched_spec hfetched).1
  have hflight := State.flight?_of_fetched hfetched hone
  have hctx : (s.ctx? (Packet.fld p 16 2)).isNone = false := (firstFail_none _).1 hc (_, St.notFound) (List.mem_of_getElem? (i := 3) rfl)
  obtain ⟨x, hx⟩ := Option.ne_none_iff_exists'.1 (show s.ctx? (Packet.fld p 16 2) ≠ none by intro hn; rw [hn] at hctx; cases hctx)
  let n := Packet.fld p 16 2
  let u := leavingState s n f.id
  have hleft : OwnsNothing u n := h.leavingState fun g hg hid => by
    rw [hone g hg hid, hcode]
    decide
  have hgone : OwnsNothing (eqsGone u n) n := ⟨hleft.streams, hleft.seqs, hleft.grids, hleft.lattices, hleft.maps, hleft.queues, hleft.part, hleft.allocs, hleft.regions, hleft.reclaims⟩
  have hux : (eqsGone u n).ctx? n = some { x with destroy := some (f.id, 0) } :=
    (Tab.get?_update _ _ _ _).trans ((if_pos rfl).trans (congrArg (Option.map fun x : Context => { x with destroy := some (f.id, 0) }) hx))
  have hothers (k : Nat) (hk : k ≠ n) : (u.sched.contexts.erase n).get? k = s.ctx? k := (Tab.get?_erase_ne _ _ _ hk).trans ((Tab.get?_update _ _ _ _).trans (if_neg hk))
  let v := State.resetScope { eqsGone u n with sched := { u.sched with contexts := u.sched.contexts.erase n } } 2 n
  have hvflight : v.flight? f.id = some { f with running := true, parked := false } :=
    (State.flight?_setFlight s f.id (fun f => { f with running := true, parked := false }) (fun _ => rfl)).trans (by rw [hflight]; rfl)
  obtain ⟨a, hfin⟩ := State.finishFull_eq hvflight St.ok 0 0 none [] []
  have hgo : exec (.ctxDestroy p) s = .next ((v.finish f.id St.ok 0 0).setFlight f.id (fun f => { f with running := true, parked := false })) := by
    change Host.Outcome.next (runPacket 0xA01 (checked ctxDestroyChecks ctxDestroyEffect) p s) = _
    rw [runPacket_effect _ _ _ _ _ _ _ htake hc, ctxDestroyEffect_eq hleft, hgone.settleDestroy hux rfl, Regions.settleReply_later]
    rfl
  rw [show v.finish f.id St.ok 0 0 = _ from hfin] at hgo
  exact ⟨_, _, hgo, Tab.get?_erase_self _ _, hothers, rfl, rfl, rfl, fun off hoff => activeWord_resetScope hoff, rfl, rfl, rfl⟩

end Destroy

theorem state_of_partitionReleaseChecks {p : Packet} {s : State} {c : Caller} {q : Partition} (hc : partitionReleaseChecks c p s = none) (h : s.sched.partitions.get? (Packet.fld p 16 1) = some q) :
    q.state = 1 := by
  have hbusy := (firstFail_none _).1 hc (_, St.busy) (List.mem_of_getElem? (i := 4) rfl)
  rw [h] at hbusy
  simpa using hbusy

/-- Settles O45: the release drains by its flag alone, Quench writes zeros page by page, and a context that owns nothing ends at once. -/
theorem contextsAndPartitionsEnd : Obligations.ContextsAndPartitionsEnd := by
  unfold Obligations.ContextsAndPartitionsEnd
  refine ⟨fun s => ⟨?_, ?_, ?_, ?_, ?_⟩, ?_⟩
  · intro p f c q htake hc hq hbellows hlattices hflights hstreams hmask
    let u := s.setFlight f.id (fun f => { f with running := true })
    obtain ⟨hstep, d, hd⟩ := releasePart_spec (s := u) hq hbellows hlattices (fun g hg => by
      obtain ⟨g', hg', rfl⟩ := List.mem_map.1 hg
      have := hflights g' hg'
      split
      · exact this
      · exact this) hstreams hmask (some f.id)
    have hgo : exec (.partitionRelease p) s = .next ((u.releasePart (Packet.fld p 16 1) (some f.id) false).setFlight f.id (fun f => { f with running := true, parked := false })) :=
      congrArg Host.Outcome.next (runPacket_effect 0xA03 partitionReleaseChecks partitionReleaseEffect p s f c htake hc)
    refine ⟨_, _, hgo, hd, rfl, rfl, rfl, rfl, hstep.others, ?_, ?_, ?_, ?_⟩
    all_goals
      rw [show u.releasePart (Packet.fld p 16 1) (some f.id) false = _ from hstep.rest]
      rfl
  · exact fun n q hq => ⟨fun hstate hstarted hedges => exec_quenchEnd hq hstate hstarted hedges, exec_quenchEnd_waits hq⟩
  · intro kv hkv hheld
    have hexec := exec_quenchTier2PartEnd hkv
    rw [hheld, if_neg Bool.false_ne_true] at hexec
    obtain ⟨q, hq⟩ := get?_isSome_of_mem (List.mem_of_find?_eq_some hkv)
    obtain ⟨hscrub, hout, hin⟩ := quenchWrite_spec (s.reach (kv.2.tier2End.getD 0)) kv.2 (s.tier2PartUs kv.2)
    generalize (s.reach (kv.2.tier2End.getD 0)).quenchWrite kv.2 (s.tier2PartUs kv.2) = v at hexec hscrub hout hin
    refine ⟨_, hexec, ⟨_, get?_setPart (q := q) ?_ _, rfl⟩, ?_, ?_, ?_, ?_, ?_, hout, hin⟩
    · rw [show v = _ from hscrub]
      exact hq
    all_goals
      rw [show v = _ from hscrub]
      rfl
  · intro kv hkv hheld
    rw [exec_quenchTier2PartEnd hkv, hheld, if_pos rfl]
  · intro hnone
    change execQuenchTier2PartEnd s = _
    rw [execQuenchTier2PartEnd, hnone]
  · intro p s f c htake hc hone n _ hstreams hseqs hgrids hlattices hmaps hqueues hpart hallocs hregions hreclaims
    exact exec_ctxDestroy htake hc hone ⟨hstreams, hseqs, hgrids, hlattices, hmaps, hqueues, hpart, hallocs, hregions, hreclaims⟩

end Sys2Proof.Proofs.Contexts

/-! PROOFS. Page keys, and the records of keys and accounts (R359, R360, R399 to R402). -/

namespace Sys2Proof.Proofs.Keys

open Sys2Proof Sys2Proof.Machine

section Keys

variable {p : Packet} {s : State} {f : Flight} {c : Caller} {x : Context} {g : Nat}

theorem ctx?_setCtx {n : Nat} (h : s.ctx? n = some x) (k : Context → Context) : (s.setCtx n k).ctx? n = some (k x) :=
  (Tab.get?_update _ _ _ _).trans ((if_pos rfl).trans (congrArg (Option.map k) h))

theorem keyRotateEffect_eq {id : Nat} (h : s.ctx? (Packet.ctxNo p) = some x) (hg : x.gens.findIdx? (fun g => decide (g.state = 0)) = some g) :
    keyRotateEffect id c p s = done0 (s.setCtx (Packet.ctxNo p) (fun x => { x with gens := x.gens.set g ⟨1, s.drawKey (Packet.ctxNo p) g⟩, current := g })).bump g := by
  unfold keyRotateEffect
  dsimp only
  rw [h, Option.bind_some, hg]

/-- The context with generation `g` erased, and the event of its retirement (R401). -/
def keyRetired (s : State) (c g st : Nat) : State := State.post (s.setCtx c (fun x => { x with gens := x.gens.set g ⟨st, []⟩ })) ⟨0x70, 7, 0, some c, c, g⟩

theorem ctx?_keyRetired {n st : Nat} (h : s.ctx? n = some x) : (keyRetired s n g st).ctx? n = some { x with gens := x.gens.set g ⟨st, []⟩ } := by
  have htold := State.post_told (s.setCtx n (fun x => { x with gens := x.gens.set g ⟨st, []⟩ })) ⟨0x70, 7, 0, some n, n, g⟩
  rw [State.Told] at htold
  rw [keyRetired, htold]
  exact ctx?_setCtx h _

/-- RETIRE_KEY, case by case (R401). -/
theorem retireKeyEffect_eq {id : Nat} (h : s.ctx? (Packet.ctxNo p) = some x) : retireKeyEffect id c p s =
    if (x.gens.getD (Packet.fld p 16 1) ⟨0, []⟩).state = 0 then refuse s St.notFound
    else if x.current = Packet.fld p 16 1 then (s, .done St.keyInUse 0 (0xFFFFFFFF + 2 ^ 32 * s.genCount (Packet.ctxNo p) (Packet.fld p 16 1)))
    else if (x.gens.getD (Packet.fld p 16 1) ⟨0, []⟩).state = 2 then (s, .done St.ok Inf.zeroWork (2 ^ 32 * s.genCount (Packet.ctxNo p) (Packet.fld p 16 1)))
    else if s.genCount (Packet.ctxNo p) (Packet.fld p 16 1) = 0 then done0 (keyRetired s (Packet.ctxNo p) (Packet.fld p 16 1) 0) 0
    else if bit (Packet.fld p 17 1) 0 then
      done0 (keyRetired s (Packet.ctxNo p) (Packet.fld p 16 1) 2) (2 ^ 32 * s.genCount (Packet.ctxNo p) (Packet.fld p 16 1))
    else (s, .done St.keyInUse 0 (2 ^ 32 * s.genCount (Packet.ctxNo p) (Packet.fld p 16 1))) := by
  unfold retireKeyEffect
  dsimp only
  rw [h]
  rfl

/-- A packet that writes one record where its side can be reached (R360, R402). -/
theorem putRecord_eq {bs : List Byte} {d : Side} (hready : s.sideReady d = true)
    (hside : s.moveSide (Packet.ctxNo p) 0 (Packet.fld p 16 1) (Packet.fld p 24 8) ⟨1, bs.length, bs.length⟩ true = .ok d) :
    s.putRecord p bs = (s.apply (s.sideWrite (Packet.ctxNo p) 0 d 0 bs).1, .full St.ok 0 0 none (s.sideWrite (Packet.ctxNo p) 0 d 0 bs).2 []) := by
  unfold State.putRecord
  dsimp only
  rw [hside]
  dsimp only
  rw [hready]
  rfl

theorem retireKey_settled (htake : s.takes p 0xC01 f c = true) (hc : retireKeyChecks c p s = none) {t : State} {r : Reply} (he : retireKeyEffect f.id c p s = (t, r)) :
    exec (.retireKey p) s = .next (t.settleReply f.id (s.verOf p 0xC01) r) := by
  refine congrArg Host.Outcome.next ((runPacket_effect 0xC01 retireKeyChecks retireKeyEffect p s f c htake hc).trans ?_)
  rw [he]

end Keys

/-- Settles O46: RETIRE_KEY case by case, and the records by their one write. -/
theorem keysAndRecords : Obligations.KeysAndRecords := by
  unfold Obligations.KeysAndRecords
  intro p s f c x hx
  refine ⟨?_, ?_, ?_⟩
  · intro g htake hc hg
    have hgo : exec (.keyRotate p) s = .next _ := congrArg Host.Outcome.next (runPacket_okWith htake hc (keyRotateEffect_eq hx hg))
    refine ⟨_, _, hgo, ctx?_setCtx hx _, rfl, ⟨_, rfl, rfl, Contexts.length_drawKey _ _ _⟩, rfl, rfl, rfl⟩
  · intro htake hc g n st
    have heffect := retireKeyEffect_eq (c := c) (id := f.id) hx
    refine ⟨fun hfree => ?_, fun hused hcur => ?_, fun hret hcur => ?_, fun hact hcur hgo => ?_, fun hact hcur hn hforce => ?_⟩
    · exact retireKey_settled htake hc (heffect.trans (if_pos hfree))
    · exact retireKey_settled htake hc (heffect.trans ((if_neg hused).trans (if_pos hcur)))
    · have hused : ¬st = 0 := by omega
      exact retireKey_settled htake hc (heffect.trans ((if_neg hused).trans ((if_neg hcur).trans (if_pos hret))))
    · have hused : ¬st = 0 := by omega
      have hnot : ¬st = 2 := by omega
      have hreach := heffect.trans ((if_neg hused).trans ((if_neg hcur).trans (if_neg hnot)))
      by_cases hn : n = 0
      · have hexec := retireKey_settled htake hc (hreach.trans (if_pos hn))
        refine ⟨_, _, ?_, ctx?_keyRetired hx, by rw [if_pos hn], rfl⟩
        rw [hexec, hn]
        rfl
      · have hexec := retireKey_settled htake hc (hreach.trans ((if_neg hn).trans (if_pos (hgo.resolve_left hn))))
        exact ⟨_, _, hexec, ctx?_keyRetired hx, by rw [if_neg hn], rfl⟩
    · have hused : ¬st = 0 := by omega
      have hnot : ¬st = 2 := by omega
      have hno : ¬bit (Packet.fld p 17 1) 0 = true := by rw [hforce]; exact Bool.false_ne_true
      exact retireKey_settled htake hc (heffect.trans ((if_neg hused).trans ((if_neg hcur).trans ((if_neg hnot).trans ((if_neg hn).trans (if_neg hno))))))
  · intro d hready wr
    refine ⟨?_, ?_⟩
    · intro htake hc bs hside
      refine congrArg Host.Outcome.next ((runPacket_effect 0xC02 keyStatusChecks keyStatusEffect p s f c htake hc).trans ?_)
      rw [keyStatusEffect, hx]
      dsimp only
      rw [putRecord_eq hready hside]
      rfl
    · intro htake hc bs hside
      refine congrArg Host.Outcome.next ((runPacket_effect 0xA09 accountReadChecks accountReadEffect p s f c htake hc).trans ?_)
      rw [accountReadEffect, hx]
      dsimp only
      rw [putRecord_eq hready hside]
      rfl

end Sys2Proof.Proofs.Keys

/-! PROOFS. Models: registration, loading and pinning (R355, R356, R398). -/

namespace Sys2Proof.Proofs.Models

open Sys2Proof Sys2Proof.Machine Sys2Proof.Proofs.Regions

section Register

variable {p : Packet} {s : State} {f : Flight} {c : Caller} {n home h : Nat}

/-- Read-only pages are allocated at one of the places their context has for them, and nothing but tier 2's tables changes. -/
theorem allocPages_readOnly (hplace : s.placesFor n home ≠ []) (size : Nat) : ∃ base ∈ s.placesFor n home, ∃ u : State, s.allocPages n home size true = some (u, base) ∧
    u = { s with tiers := { s.tiers with allocs := s.tiers.allocs ++ [⟨n, base, home, size, none⟩], pages := u.tiers.pages }, fresh := u.fresh } := by
  have hpos : 0 < (s.placesFor n home).length := List.length_pos_iff.2 hplace
  rcases hget : (s.placesFor n home)[Config.pick s.fresh % max 1 (s.placesFor n home).length]? with _ | base
  · have := Nat.mod_lt (Config.pick s.fresh) (show 0 < max 1 (s.placesFor n home).length by omega)
    rw [List.getElem?_eq_none_iff] at hget
    omega
  · refine ⟨base, List.mem_of_getElem? hget, State.mapPages { s.bump with tiers := { s.tiers with allocs := s.tiers.allocs ++ [⟨n, base, home, size, none⟩] } } n base home size true, ?_, rfl⟩
    simp only [State.allocPages, hget]
    rfl

/-- The model that MODEL_REGISTER makes, in its pages and LOADING (R355). -/
def registered (p : Packet) (s : State) (id base : Nat) : Model :=
  { ctx := Packet.ctxNo p, state := 0, base := base, bytes := Packet.fld p 32 8, home := Packet.fld p 17 1, srcKind := Packet.fld p 16 1, window := Packet.fld p 18 2, src := Packet.fld p 24 8,
    pinned := false, lastUse := s.clock.now, flight := some id, wantPin := false, signers := (s.trust id (Packet.ctxNo p) 1).map (fun k => k.1 ++ k.2) }

theorem modelRegisterEffect_eq (hceil : s.underCeiling (Packet.ctxNo p) (Packet.fld p 32 8 / 65536) = true) (hahead : s.pagesAhead f.id = false)
    (hroom : s.t2Room (halvesOf (Packet.fld p 17 1) (Packet.fld p 32 8 / 65536)) Halves.zero = true) {base : Nat} {u : State} (hh : pickFree s.fresh 64 s.sched.models.keys = some h)
    (halloc : s.bump.allocPages (Packet.ctxNo p) (Packet.fld p 32 8 / 65536) (Packet.fld p 17 1) true = some (u, base)) :
    modelRegisterEffect f.id c p s = (State.setFlight { u with sched := { u.sched with models := u.sched.models.set h (registered p s f.id base) } } f.id
      (fun f => { f with result := h + 65536 * base }), .later) := by
  unfold modelRegisterEffect
  dsimp only
  rw [hceil, Bool.not_true, if_neg Bool.false_ne_true, provide_of_room hahead hroom]
  dsimp only
  rw [hh, halloc]
  rfl

theorem exec_modelRegister (htake : s.takes p 0xA06 f c = true) (hc : modelRegisterChecks c p s = none) (hceil : s.underCeiling (Packet.ctxNo p) (Packet.fld p 32 8 / 65536) = true)
    (hahead : s.pagesAhead f.id = false) (hroom : s.t2Room (halvesOf (Packet.fld p 17 1) (Packet.fld p 32 8 / 65536)) Halves.zero = true)
    (hplace : s.placesFor (Packet.ctxNo p) (Packet.fld p 32 8 / 65536) ≠ []) (hfree : ∃ h, h < 64 ∧ s.sched.models.get? h = none) :
    ∃ (t : State) (h base : Nat), exec (.modelRegister p) s = .next t ∧ h < 64 ∧ s.sched.models.get? h = none ∧ base ∈ s.placesFor (Packet.ctxNo p) (Packet.fld p 32 8 / 65536) ∧
      t.sched.models = s.sched.models.set h (registered p s f.id base) ∧ t.tiers.allocs = s.tiers.allocs ++ [⟨Packet.ctxNo p, base, Packet.fld p 32 8 / 65536, Packet.fld p 17 1, none⟩] ∧
      t.proto.finished = s.proto.finished ∧ t.stores = s.stores := by
  obtain ⟨h, hh, hlt, hnot⟩ := pickFree_of_free s.fresh (used := s.sched.models.keys) (by simpa only [Tab.not_mem_keys] using hfree)
  obtain ⟨base, hbase, u, halloc, hu⟩ := allocPages_readOnly (s := s.bump) hplace (Packet.fld p 17 1)
  have hgo : exec (.modelRegister p) s = .next _ := congrArg Host.Outcome.next
    ((runPacket_effect 0xA06 modelRegisterChecks modelRegisterEffect p s f c htake hc).trans (by rw [modelRegisterEffect_eq hceil hahead hroom hh halloc, settleReply_later]))
  refine ⟨_, h, base, hgo, hlt, Tab.not_mem_keys.1 hnot, hbase, ?_, ?_, ?_, ?_⟩
  all_goals
    rw [hu]
    rfl

end Register

section Load

variable {s : State} {h id : Nat} {m : Model} {f : Flight}

/-- A model whose image is in place (R356). -/
def resident (s : State) (m : Model) : Model := { m with state := 1, lastUse := s.clock.now, flight := none, pinned := m.pinned || m.wantPin, wantPin := false }

theorem loadDone_good (hm : s.sched.models.get? h = some m) (hstate : m.state = 0) (hsource : s.sourceReady m = true) (hidle : s.sharedIdle m.ctx = false) (hflight : m.flight = some id)
    (hf : s.flight? id = some f) (hgood : f.opcode = 0xA06 → (m.signers = [] ∨ signedBy m.signers (s.imageBytes m) = true) ∧ imageOk (s.imageBytes m) = true) :
    s.loadDone h = State.finish { s.placeImage m (s.imageBytes m) with sched := { s.sched with models := s.sched.models.set h (resident s m) } } id St.ok 0 f.result := by
  have hbad : (if !decide (f.opcode = 0xA06) then none else if !m.signers.isEmpty && !signedBy m.signers (s.imageBytes m) then some St.badSignature
      else if !imageOk (s.imageBytes m) then some St.badParam else none) = none := by
    by_cases hcode : f.opcode = 0xA06
    · obtain ⟨hsigned, hok⟩ := hgood hcode
      have hsig : (!m.signers.isEmpty && !signedBy m.signers (s.imageBytes m)) = false := by
        rcases hsigned with hnone | hyes
        · simp [hnone]
        · simp [hyes]
      simp [hcode, hsig, hok]
    · simp [hcode]
  unfold State.loadDone
  rw [hm]
  dsimp only
  rw [if_neg (by simp [hstate, hsource, hidle]), hflight, Option.bind_some, hf]
  dsimp only
  rw [hbad]
  rfl

theorem flight?_placeImage (img : List Byte) (hf : s.flight? id = some f) : (s.placeImage m img).flight? id = some f := hf

/-- The last part of a good image's load: it stands, the model is RESIDENT, and its packet completes (R355, R356). -/
theorem exec_modelLoadDone (hup : s.hearthUp = true) (hm : s.sched.models.get? h = some m) (hstate : m.state = 0) (hsource : s.sourceReady m = true) (hidle : s.sharedIdle m.ctx = false)
    (hflight : m.flight = some id) (hf : s.flight? id = some f)
    (hgood : f.opcode = 0xA06 → (m.signers = [] ∨ signedBy m.signers (s.imageBytes m) = true) ∧ imageOk (s.imageBytes m) = true) :
    ∃ (t : State) (fin : Finished), exec (.modelLoadDone h) s = .next t ∧ t.stores = (s.placeImage m (s.imageBytes m)).stores ∧ t.sched.models.get? h = some (resident s m) ∧
      t.proto.finished = s.proto.finished ++ [fin] ∧ fin.flight = id ∧ fin.status = St.ok ∧ fin.result = f.result % 2 ^ 64 := by
  have hload := loadDone_good hm hstate hsource hidle hflight hf hgood
  generalize hv : s.placeImage m (s.imageBytes m) = v at hload ⊢
  have hvproto : v.proto = s.proto := by rw [← hv]; rfl
  let w : State := { v with sched := { s.sched with models := s.sched.models.set h (resident s m) } }
  have hwf : w.flight? id = some f := by
    rw [State.flight?, show w.proto = s.proto from hvproto]
    exact hf
  obtain ⟨a, hfin⟩ := State.finishFull_eq hwf St.ok 0 f.result none [] []
  have hgo : exec (.modelLoadDone h) s = .next (w.finish id St.ok 0 f.result) := by
    change execModelLoadDone h s = _
    rw [execModelLoadDone, if_pos hup, hload]
  rw [show w.finish id St.ok 0 f.result = _ from hfin] at hgo
  refine ⟨_, w.outcome f id St.ok 0 f.result f.pkt.ver.toNat [] [], hgo, rfl, Tab.get?_set_self _ _ _, ?_, rfl, rfl, rfl⟩
  change w.proto.finished ++ _ = _
  rw [show w.proto = s.proto from hvproto]
  rfl

end Load

/-- Settles O47: the registration's and the load's one new entry, and the pin as the effect's own text. -/
theorem modelsLoadAndPin : Obligations.ModelsLoadAndPin := by
  unfold Obligations.ModelsLoadAndPin
  intro s
  refine ⟨?_, ?_, ?_⟩
  · intro p f c htake hc n hceil hahead hroom hplace hfree
    obtain ⟨t, h, base, hgo, hlt, hnone, hbase, hmodels, hallocs, hfin, hstores⟩ := exec_modelRegister htake hc hceil hahead hroom hplace hfree
    refine ⟨t, h, registered p s f.id base, hgo, hlt, hnone, ?_, fun k hk => ?_, rfl, rfl, rfl, rfl, rfl, rfl, rfl, rfl, hbase, hallocs, hfin, hstores⟩
    · rw [hmodels]
      exact Tab.get?_set_self _ _ _
    · rw [hmodels]
      exact Tab.get?_set_ne _ _ _ _ hk
  · intro h id m f hup hm hstate hsource hidle hflight hf hgood
    exact exec_modelLoadDone hup hm hstate hsource hidle hflight hf hgood
  · intro p f c m hm
    refine ⟨fun htake hc hstate => congrArg Host.Outcome.next (runPacket_okWith htake hc ?_), fun htake hc hpinned => congrArg Host.Outcome.next (runPacket_okWith htake hc ?_)⟩
    · have hready : ¬m.state = 0 := by omega
      rw [modelPinEffect, hm]
      exact (if_neg hready).trans (if_pos hstate)
    · rw [modelUnpinEffect, hm]
      exact if_pos hpinned

end Sys2Proof.Proofs.Models

/-! PROOFS. Planning: lattices, maps and searches begin (R316, R318, R322, R331). -/

namespace Sys2Proof.Proofs.Planning

open Sys2Proof Sys2Proof.Machine Sys2Proof.Proofs.Cores

section Search

variable {p : Packet} {s : State} {f : Flight} {c : Caller} {n : Nat} {q : Partition} {l : Lattice} {m : VoxMap} {e : Epoch} {cores : List Nat}

/-- The state in which a search stands on its lattice. -/
def searching (s : State) (h : Nat) (x : Search) : State := (s.setLattice h (fun l => { l with search := some x })).bump

theorem planSearchBody_run {id : Nat} (hctx : Packet.ctxNo p ≠ 0xFFFF) (hfields : searchFields p = true) (hpart : s.partOf (Packet.ctxNo p) = some (n, q)) (hq : q.state = 1)
    (hstatus : s.ahead.searchStatus p n q = none) (hl : s.lattice? (Packet.fld p 16 2) = some l) (hm : s.apps.maps.get? (Packet.fld p 18 1) = some m)
    (he : m.epochs.getLast? = some e) (hidle : l.search = none) (hunit : s.unitBusy l.cluster = false) (hcores : q.cores l.firstCore l.ncores = some cores)
    (hheld : cores.any (s.coreHeld q.cls) = false) (hwindow : s.windowWaits (Packet.desc p 96) ((Packet.desc p 96).extent 1) = false)
    (hpoison : s.ahead.poisonHit (Packet.ctxNo p) (cores.getD 0 0) (Packet.desc p 96) ((Packet.desc p 96).extent 1) = none)
    (hdue : reachedAt (s.dueBy (.flight id) (Packet.fld p 24 8)) s.clock.now = false) : ∃ (x : Search) (w : Work),
      planSearchBody id c p s = ((searching s (Packet.fld p 16 2) x).begin_ (.flight id) n w.dealt, .late x.deadline []) ∧ x.flight = id ∧ x.epoch = e.number ∧ x.map = Packet.fld p 18 1 ∧
      x.commit = none ∧ w.met = none ∧ w.chan = none ∧ (∀ z ∈ w.core, z.store = .core) ∧
      ∀ (j core : Nat), cores[j]? = some core → ∃ o, (core, o) ∈ w.slots ∧ o.owner = .flight id := by
  generalize hbody : planSearchBody id c p s = body
  unfold planSearchBody at hbody
  extract_lets ctx t h due at_ at hbody
  rw [if_neg hctx, hfields, Bool.not_true, if_neg Bool.false_ne_true, show s.partOf ctx = some (n, q) from hpart] at hbody
  dsimp -zeta -zetaHave only at hbody
  rw [if_neg (by omega), if_neg (by omega), hstatus, hl, hm] at hbody
  dsimp -zeta -zetaHave only at hbody
  extract_lets cs core0 hit limits ep x held u r cache slots ws w at hbody
  have hcs : cs = cores := by simp only [cs, hcores, Option.getD_some]
  rw [if_neg (by rw [hidle, hunit]; decide), if_neg (by rw [hcs, hheld]; rw [show s.windowWaits t (t.extent 1) = false from hwindow]; decide),
    if_neg (by rw [show x.late = false from hdue]; decide), if_neg (by rw [show hit = none by simp only [hit, core0, hcs]; exact hpoison]; decide)] at hbody
  refine ⟨x, w, hbody.symm, rfl, ?_, rfl, rfl, rfl, rfl, ?_, ?_⟩
  · simp only [x, ep, he, Option.getD_some]
  · intro z hz
    obtain ⟨wrs, hwrs, hmem⟩ := List.mem_flatten.1 hz
    obtain ⟨j, -, rfl⟩ := List.mem_map.1 hwrs
    obtain ⟨g, -, rfl⟩ := List.mem_map.1 hmem
    rfl
  · intro j core hj
    have hlt := (List.getElem?_eq_some_iff.1 hj).1
    have hget : cs.getD j 0 = core := by rw [hcs, List.getD_eq_getElem?_getD, hj, Option.getD_some]
    refine ⟨_, List.mem_map.2 ⟨j, List.mem_range.2 (by rw [hcs]; exact hlt), Prod.ext hget rfl⟩, rfl⟩

/-- A slot of the work keeps its core and its owner when the writes are dealt out. -/
theorem dealt_slot {w : Work} {y : Nat × OpSlot} (hy : y ∈ w.slots) : ∃ v ∈ w.dealt.slots, v.1 = y.1 ∧ v.2.owner = y.2.owner := by
  obtain ⟨i, hi⟩ := List.mem_iff_getElem?.1 hy
  have hlt := (List.getElem?_eq_some_iff.1 hi).1
  have hmem : (i, y) ∈ (List.range w.slots.length).zip w.slots := List.mem_iff_getElem?.2 ⟨i, by simp [hlt, (List.getElem?_eq_some_iff.1 hi).2]⟩
  refine ⟨_, List.mem_map_of_mem hmem, ?_⟩
  dsimp only
  split <;> exact ⟨rfl, rfl⟩

/-- A flight whose operation was placed, and ends by its own means. -/
def placedLate (now : Nat) (d : Option Nat) (ws : List Wr) (f : Flight) : Flight :=
  { f with running := true, parked := false, placed := true, late := true, deadline := d, writes := ws, dispatchTime := now }

theorem settleReply_late (s : State) (id ver : Nat) (d : Option Nat) (ws : List Wr) : s.settleReply id ver (.late d ws) = s.setFlight id (placedLate s.clock.now d ws) := rfl

theorem lattice?_eq {h : Nat} (hl : s.lattice? h = some l) : s.apps.lattices.get? h = some l ∧ l.unloadNext = false := by
  unfold State.lattice? at hl
  split at hl
  · next l' hget =>
    split at hl
    · cases hl
    · next hno =>
      cases hl
      exact ⟨hget, Bool.eq_false_iff.2 hno⟩
  · cases hl

theorem lattice?_of_get? {h : Nat} (hget : s.apps.lattices.get? h = some l) (hload : l.unloadNext = false) : s.lattice? h = some l := by
  rw [State.lattice?, hget]
  exact if_neg (by rw [hload]; exact Bool.false_ne_true)

theorem get?_setLattice {h : Nat} (hget : s.apps.lattices.get? h = some l) (g : Lattice → Lattice) : (s.setLattice h g).apps.lattices.get? h = some (g l) :=
  (Tab.get?_update _ _ _ _).trans ((if_pos rfl).trans (congrArg (Option.map g) hget))

/-- A search whose conditions hold runs on the lattice's cores, pinned to the map's newest epoch (R322). -/
theorem exec_planSearch {x : Search} {w : Work} (htake : s.takes p 0x902 f c = true) (hflight : s.flight? f.id = some f) (hl : s.lattice? (Packet.fld p 16 2) = some l)
    (hbody : planSearchBody f.id c p s = ((searching s (Packet.fld p 16 2) x).begin_ (.flight f.id) n w.dealt, .late x.deadline [])) (hmet : w.met = none) (hchan : w.chan = none)
    (hcore : ∀ z ∈ w.core, z.store = .core) (hslots : ∀ (j core : Nat), cores[j]? = some core → ∃ o, (core, o) ∈ w.slots ∧ o.owner = .flight f.id) :
    ∃ (t : State) (g : Flight), exec (.planSearch p) s = .next t ∧ t.flight? f.id = some g ∧ g.running = true ∧ g.placed = true ∧
      t.lattice? (Packet.fld p 16 2) = some { l with search := some x } ∧ t.proto.finished = s.proto.finished ∧ t.stores.region = s.stores.region ∧ t.stores.tier2 = s.stores.tier2 ∧
      (∀ (j core : Nat), cores[j]? = some core → ∃ o ∈ (t.core core).slots ++ (t.core core).held, o.owner = .flight f.id) := by
  obtain ⟨hget, hload⟩ := lattice?_eq hl
  let u := searching s (Packet.fld p 16 2) x
  have hul : u.apps.lattices.get? (Packet.fld p 16 2) = some { l with search := some x } := get?_setLattice hget (fun l => { l with search := some x })
  obtain ⟨hops, -, hstores, -⟩ := begin_spec u (.flight f.id) n w.dealt
  obtain ⟨hproto, -⟩ := Sequences.begin_keeps (s := u) (w := w.dealt) (.flight f.id) n hmet
  have happs := Streams.begin_streams (s := u) (w := w.dealt) hchan (.flight f.id) n
  obtain ⟨hregion, htier2, -⟩ := Stores.coreWrites_keep w.dealt.core (fun z hz => hcore z (Work.dealt_core w z hz).1) u.stores
  have hgo : exec (.planSearch p) s = .next ((u.begin_ (.flight f.id) n w.dealt).settleReply f.id (s.verOf p 0x902) (.late x.deadline [])) := by
    change Host.Outcome.next (runPacket 0x902 planSearchBody p s) = _
    rw [runPacket_takes _ _ _ _ _ _ htake, hbody]
  rw [settleReply_late] at hgo
  generalize u.begin_ (.flight f.id) n w.dealt = b at hops hstores hproto happs hgo
  have hbflight : b.flight? f.id = some f := by
    rw [State.flight?, hproto]
    exact hflight
  refine ⟨_, _, hgo, (State.flight?_setFlight b f.id (placedLate b.clock.now x.deadline []) (fun _ => rfl)).trans (congrArg (Option.map _) hbflight), rfl, rfl, ?_, ?_, ?_, ?_, fun j core hj => ?_⟩
  · exact lattice?_of_get? ((congrArg (fun a : Apps => a.lattices.get? _) happs).trans hul) hload
  · show b.proto.finished = u.proto.finished
    rw [hproto]
  · exact (congrArg Stores.region (hstores hmet)).trans hregion
  · exact (congrArg Stores.tier2 (hstores hmet)).trans htier2
  · obtain ⟨o, ho, hown⟩ := hslots j core hj
    obtain ⟨v, hv, hon, hvown⟩ := dealt_slot ho
    refine ⟨{ v.2 with tag := u.fresh }, ?_, hvown.trans hown⟩
    change _ ∈ opsOn b core
    rw [hops]
    exact List.mem_append_right _ (List.mem_map.2 ⟨v, List.mem_filter.2 ⟨hv, by simpa using hon⟩, rfl⟩)

end Search

section Abort

variable {p : Packet} {s : State} {f : Flight} {c : Caller} {l : Lattice}

/-- PLAN_ABORT with no search running ends nothing (R331). -/
theorem exec_planAbort (htake : s.takes p 0x903 f c = true) (hc : planAbortChecks c p s = none) (hl : s.lattice? (Packet.fld p 16 2) = some l) (hidle : l.search = none) :
    exec (.planAbort p) s = .next ((s.setLattice (Packet.fld p 16 2) (fun l => { l with holdNext := l.holdNext || bit (Packet.fld p 18 1) 0, unloadNext := bit (Packet.fld p 18 1) 1 })).ends f
      (s.verOf p 0x903) St.ok (if Packet.fld p 18 1 = 0 then Inf.zeroWork else 0) 0) := by
  have heffect : planAbortEffect f.id c p s = (s.setLattice (Packet.fld p 16 2) (fun l => { l with holdNext := l.holdNext || bit (Packet.fld p 18 1) 0, unloadNext := bit (Packet.fld p 18 1) 1 }),
      .done St.ok (if Packet.fld p 18 1 = 0 then Inf.zeroWork else 0) 0) := by
    unfold planAbortEffect
    simp only [hl, Option.bind_some, hidle, Option.isNone_none, Bool.true_and, decide_eq_true_eq]
  refine congrArg Host.Outcome.next ((runPacket_effect 0x903 planAbortChecks planAbortEffect p s f c htake hc).trans ?_)
  rw [heffect]
  rfl

end Abort

section Maps

variable {p : Packet} {s : State} {f : Flight} {c : Caller}

theorem mapPublishEffect_new {id : Nat} (hnew : s.apps.maps.get? (Packet.fld p 16 1) = none) : mapPublishEffect id c p s =
    done0 { s.bump.markPages (Packet.ctxNo p) (Packet.fld p 40 8) (publishedMap p).epochBytes true with
      apps := { s.apps with maps := s.apps.maps.set (Packet.fld p 16 1) { publishedMap p with epochs := [⟨0, Packet.fld p 40 8⟩], next := 1 } } } (2 ^ 32 * 0xFFFFFFFF) := by
  unfold mapPublishEffect
  dsimp only
  rw [hnew]
  dsimp only
  rw [show (if bit (Packet.fld p 17 1) 0 = true then ([] : List Epoch) else List.take (([] : List Epoch).length - 2) []) = [] by split <;> rfl]
  refine Prod.ext rfl ?_
  simp [done0]

/-- Pages marked read-only, one by one: each that has been marked is. -/
theorem marked_readOnly (vs : List Nat) (v : Nat) : ∀ t : Tab Page, (v ∈ vs ∨ ∀ g, t.get? v = some g → g.readOnly = true) →
    ∀ g, (vs.foldl (fun t v => t.update v (fun g => { g with readOnly := true })) t).get? v = some g → g.readOnly = true := by
  induction vs with
  | nil => exact fun t h => h.resolve_left List.not_mem_nil
  | cons w r ih =>
    intro t h
    refine ih _ ?_
    by_cases hw : v = w
    · refine .inr fun g hg => ?_
      rw [Tab.get?_update, if_pos hw] at hg
      obtain ⟨g', -, rfl⟩ := Option.map_eq_some_iff.1 hg
      rfl
    · rcases h with hmem | hall
      · exact .inl ((List.mem_cons.1 hmem).resolve_left hw)
      · refine .inr fun g hg => hall g ?_
        rwa [Tab.get?_update, if_neg hw] at hg

theorem page?_markPages {n a bytes v : Nat} {g : Page} (hv : v ∈ pageSpan a bytes) (hg : (s.markPages n a bytes true).page? n v = some g) : g.readOnly = true := by
  unfold State.page? at hg
  split at hg
  · next t ht =>
    have hupdate := (Tab.get?_update s.tiers.pages n n (fun t => (pageSpan a bytes).foldl (fun t v => t.update v (fun g => { g with readOnly := true })) t)).symm.trans ht
    rw [if_pos rfl] at hupdate
    obtain ⟨t', -, rfl⟩ := Option.map_eq_some_iff.1 hupdate
    exact marked_readOnly (pageSpan a bytes) v t' (.inl hv) g hg
  · cases hg

end Maps

section Load

variable {p : Packet} {s : State} {f : Flight} {c : Caller} {n h : Nat} {q : Partition} {cores : List Nat}

/-- The shares of a lattice in its cores' stores, whose layout is not given. -/
def shareWrites (s : State) (p : Packet) (l : Lattice) (cores : List Nat) : List Wr :=
  (List.range cores.length).map (fun j => ⟨.core, coreKey (cores.getD j 0) (Packet.fld p 28 4), freeBytes (s.fresh + j) (shareBytes l.classes l.prims l.ncores j)⟩)

/-- A lattice with an EMPTY plan: the shares and the zeroed plan region behind its header (R316, R327). -/
def latticeLoaded (s : State) (p : Packet) (n h : Nat) (l : Lattice) (cores : List Nat) (size : Nat) : State :=
  let u := (s.apply (shareWrites s p l cores)).bump.zeroFill .region (regionKey l.region 0) (4096 + 3 * l.bufBytes)
  (State.accPart { u with apps := { u.apps with lattices := u.apps.lattices.set h l } } n (fun a => a.move ⟨0, size, 0, 0⟩)).writeHeader h

theorem latticeLoadBody_good {id : Nat} (hctx : Packet.ctxNo p ≠ 0xFFFF) (hfields : latFields p = true) (hpart : s.partOf (Packet.ctxNo p) = some (n, q)) (hq : q.state = 1)
    (hstatus : s.latStatus p n q (s.t2Reader (Packet.ctxNo p) (Packet.fld p 16 8)) = none)
    (hcores : q.cores (latticeOf p n (s.t2Reader (Packet.ctxNo p) (Packet.fld p 16 8))).firstCore (latticeOf p n (s.t2Reader (Packet.ctxNo p) (Packet.fld p 16 8))).ncores = some cores)
    (hheld : cores.any (s.coreHeld q.cls) = false) (hh : pickFree s.fresh 65536 s.apps.lattices.keys = some h) :
    let rd := s.t2Reader (Packet.ctxNo p) (Packet.fld p 16 8)
    let l := latticeOf p n rd
    latticeLoadBody id c p s = (latticeLoaded s p n h l cores (LatHead.of rd).size,
      .done St.ok 0 (h + 2 ^ 32 * ((List.range l.ncores).map (shareBytes l.classes l.prims l.ncores)).foldl max 0)) := by
  intro rd l
  unfold latticeLoadBody
  extract_lets ctx rd'
  rw [if_neg hctx, hfields, Bool.not_true, if_neg Bool.false_ne_true, show s.partOf ctx = some (n, q) from hpart]
  dsimp -zeta -zetaHave only
  extract_lets l' cs share w u src
  have hcs : cs = cores := by simp only [cs, l', rd', ctx, hcores, Option.getD_some]
  rw [if_neg (by omega), if_neg (by omega), show s.latStatus p n q rd' = none from hstatus, hh]
  dsimp -zeta -zetaHave only
  rw [if_neg (by rw [hcs, hheld]; exact Bool.false_ne_true)]
  extract_lets v
  have hw : w = shareWrites s p l cores := by
    simp only [w, hcs]
    rfl
  have hv : v.writeHeader h = latticeLoaded s p n h l cores (LatHead.of rd).size := by
    simp only [v, u, src, hw]
    rfl
  rw [hv]

/-- The bytes of one region range that a load leaves: the header, and zeros behind it. -/
theorem header_over_zeros (m : Mem) (a len : Nat) (bs : List Byte) :
    (∀ i, i < bs.length → (Mem.writeBytes (m.zero a len) a bs).read (a + i) = bs.getD i 0) ∧
    (∀ i, bs.length ≤ i → i < len → (Mem.writeBytes (m.zero a len) a bs).read (a + i) = 0) :=
  ⟨fun i hi => Mem.read_writeBytes_in _ _ _ _ hi, fun i hi hlen => (Mem.read_writeBytes_out _ _ _ _ (.inr (by omega))).trans (Mem.read_zero_in _ (by omega))⟩

theorem regionWrite_spec (s : State) (a : Nat) (bs : List Byte) : (s.apply [⟨.region, a, bs⟩]).stores.region = s.stores.region.writeBytes a bs ∧
    (s.apply [⟨.region, a, bs⟩]).stores.tier2 = s.stores.tier2 ∧ (s.apply [⟨.region, a, bs⟩]).stores.host = s.stores.host := ⟨rfl, rfl, rfl⟩

theorem regionZero_spec (s : State) (a len : Nat) : (s.zeroFill .region a len).stores.region = s.stores.region.zero a len ∧
    (s.zeroFill .region a len).stores.tier2 = s.stores.tier2 ∧ (s.zeroFill .region a len).stores.host = s.stores.host := ⟨rfl, rfl, rfl⟩

/-- A lattice that has been loaded, and its plan region (R316, R327). -/
theorem latticeLoaded_spec (s : State) (p : Packet) (n h : Nat) (l : Lattice) (cores : List Nat) (size : Nat) :
    let t := latticeLoaded s p n h l cores size
    t.apps.lattices = s.apps.lattices.set h l ∧ (∀ i, i < l.header.length → t.stores.region.read (regionKey l.region i) = l.header.getD i 0) ∧
    (∀ i, l.header.length ≤ i → i < 4096 + 3 * l.bufBytes → t.stores.region.read (regionKey l.region i) = 0) ∧
    t.stores.tier2 = s.stores.tier2 ∧ t.stores.host = s.stores.host := by
  obtain ⟨-, htier2, -, hhost, -⟩ := Stores.coreWrites_keep (shareWrites s p l cores) (fun z hz => by
    obtain ⟨j, -, rfl⟩ := List.mem_map.1 hz
    rfl) s.stores
  let v := (s.apply (shareWrites s p l cores)).bump
  let u := v.zeroFill .region (regionKey l.region 0) (4096 + 3 * l.bufBytes)
  let w := State.accPart { u with apps := { u.apps with lattices := u.apps.lattices.set h l } } n (fun a => a.move ⟨0, size, 0, 0⟩)
  have hu := regionZero_spec v (regionKey l.region 0) (4096 + 3 * l.bufBytes)
  have hset : w.apps.lattices.get? h = some l := Tab.get?_set_self _ _ _
  have hw : latticeLoaded s p n h l cores size = w.apply [⟨.region, regionKey l.region 0, l.header⟩] := by
    change w.writeHeader h = _
    rw [State.writeHeader, hset]
  obtain ⟨hr, ht, hh⟩ := regionWrite_spec w (regionKey l.region 0) l.header
  intro t
  rw [show t = _ from hw]
  obtain ⟨hhead, hzero⟩ := header_over_zeros v.stores.region (regionKey l.region 0) (4096 + 3 * l.bufBytes) l.header
  have hkey (i : Nat) : regionKey l.region i = regionKey l.region 0 + i := by simp only [regionKey]; omega
  refine ⟨rfl, fun i hi => ?_, fun i hi hlt => ?_, ?_, ?_⟩
  · rw [hr, show w.stores.region = _ from hu.1, hkey i]
    exact hhead i hi
  · rw [hr, show w.stores.region = _ from hu.1, hkey i]
    exact hzero i hi hlt
  · rw [ht, show w.stores.tier2 = _ from hu.2.1]
    exact htier2
  · rw [hh, show w.stores.host = _ from hu.2.2]
    exact hhost

end Load

/-- Settles O48: each body's one way to the end that its conditions leave open. -/
theorem planningCommands : Obligations.PlanningCommands := by
  unfold Obligations.PlanningCommands
  intro p s f c
  refine ⟨?_, ?_, ?_, ?_⟩
  · intro n q cores htake hctx hfields hpart hq l hstatus hcores hheld hfree
    obtain ⟨h, hh, hlt, hnot⟩ := pickFree_of_free s.fresh (used := s.apps.lattices.keys) (by simpa only [Tab.not_mem_keys] using hfree)
    have hbody := latticeLoadBody_good (id := f.id) (c := c) hctx hfields hpart hq hstatus hcores hheld hh
    obtain ⟨hlattices, hhead, hzero, htier2, hhost⟩ := latticeLoaded_spec s p n h l cores (LatHead.of (s.t2Reader (Packet.ctxNo p) (Packet.fld p 16 8))).size
    have hgo : exec (.latticeLoad p) s = .next _ := congrArg Host.Outcome.next ((runPacket_takes 0x900 latticeLoadBody p s f c htake).trans (by rw [hbody]))
    refine ⟨_, h, hlt, Tab.not_mem_keys.1 hnot, lattice?_of_get? (by rw [hlattices]; exact Tab.get?_set_self _ _ _) rfl, fun k hk => ?_, rfl, rfl, rfl, hgo, hzero, hhead, htier2, hhost⟩
    rw [State.lattice?, State.lattice?, hlattices, Tab.get?_set_ne _ _ _ _ hk]
  · intro htake hc hnew
    refine ⟨_, congrArg Host.Outcome.next (runPacket_okWith htake hc (mapPublishEffect_new hnew)), rfl, rfl, fun v g hv hg => ?_⟩
    exact page?_markPages (s := s.bump) hv hg
  · exact fun l htake hc hl hidle => exec_planAbort htake hc hl hidle
  · intro n q l m cores e htake hctx hfields hpart hq hstatus hl hm he hidle hunit hcores _ hheld hwindow hpoison hdue hflight
    obtain ⟨x, w, hbody, hxflight, hxepoch, hxmap, hxcommit, hmet, hchan, hcore, hslots⟩ := planSearchBody_run (id := f.id) (c := c) hctx hfields hpart hq hstatus hl hm he hidle hunit hcores hheld
      hwindow hpoison hdue
    obtain ⟨t, g, hgo, hflight', hrun, hplaced, hlat, hfin, hregion, htier2, hon⟩ := exec_planSearch htake hflight hl hbody hmet hchan hcore hslots
    exact ⟨t, g, _, x, hgo, hflight', hrun, hplaced, hlat, rfl, hxflight, hxepoch, hxmap, hxcommit, hfin, hregion, htier2, hon⟩

end Sys2Proof.Proofs.Planning

/-! PROOFS. Firmware is staged, activated and reported, and the part's own reports are answered (R365 to R368, R440, R441, R457, R459). -/

namespace Sys2Proof.Proofs.Firmware

open Sys2Proof Sys2Proof.Machine

section Banks

variable {s : State} {b : Bool} {g : Bank → Bank}

@[simp] theorem bank_setBank_same : (s.setBank b g).bank b = g (s.bank b) := by cases b <;> rfl

@[simp] theorem bank_setBank_other : (s.setBank b g).bank (!b) = s.bank (!b) := by cases b <;> rfl

@[simp] theorem activeRelease_setBank : (s.setBank b g).fw.activeRelease = s.fw.activeRelease := by cases b <;> rfl

end Banks

section Stage

variable {p : Packet} {s : State} {f : Flight} {c : Caller}

/-- The staging bank as FW_STAGE finds it: erased first with FIRST (R366). -/
def stagedOver (p : Packet) (s : State) : Bank := if bit (Packet.fld p 24 1) 0 then ⟨0, 0, 0, false, []⟩ else s.bank s.stageBank

/-- The staging bank with the packet's bytes at their offset, neither staged nor signed (R366). -/
def stagedBank (p : Packet) (s : State) : Bank :=
  { stagedOver p s with state := 0, signed := false, bytes := (stagedOver p s).bytes.writeBytes (Packet.fld p 16 4) (Packet.bytes p 64 (Packet.fld p 20 4)) }

/-- The state in which a chunk stands in the staging bank (R366). -/
def chunkWritten (p : Packet) (s : State) : State :=
  let t := s.flushLog.setBank s.stageBank (fun _ => stagedBank p s)
  { t with fw := { t.fw with stageNext := some (Packet.fld p 16 4 + Packet.fld p 20 4) } }

theorem chunkWritten_bank (p : Packet) (s : State) : (chunkWritten p s).bank s.stageBank = stagedBank p s := by
  rcases h : s.stageBank <;> simp [chunkWritten, State.bank, State.setBank, h]

theorem chunkWritten_other (p : Packet) (s : State) : (chunkWritten p s).bank (!s.stageBank) = s.bank (!s.stageBank) := by
  rcases h : s.stageBank <;> simp [chunkWritten, State.bank, State.setBank, State.flushLog, h]

/-- Erasing the bank first, or taking its marks away, and then writing the bytes is one change of the bank. -/
theorem setBank_chunk (p : Packet) (s : State) : (if bit (Packet.fld p 24 1) 0 then s.flushLog.setBank s.stageBank (fun _ => ⟨0, 0, 0, false, []⟩)
    else s.flushLog.setBank s.stageBank (fun x => { x with state := 0, signed := false })).setBank s.stageBank
      (fun x => { x with bytes := x.bytes.writeBytes (Packet.fld p 16 4) (Packet.bytes p 64 (Packet.fld p 20 4)) }) = s.flushLog.setBank s.stageBank (fun _ => stagedBank p s) := by
  rcases hbank : s.stageBank with _ | _ <;> cases hfirst : bit (Packet.fld p 24 1) 0 <;> simp [State.setBank, stagedBank, stagedOver, State.bank, hfirst, hbank, State.flushLog]

/-- A chunk that is not the last is written, and that is all (R366). -/
theorem fwStageEffect_chunk {id : Nat} (hn : 0 < Packet.fld p 20 4) (hlast : bit (Packet.fld p 24 1) 1 = false) : fwStageEffect id c p s = done0 (chunkWritten p s) 0 := by
  unfold fwStageEffect
  dsimp only
  rw [if_neg (by omega), setBank_chunk, hlast]
  rfl

/-- The state in which the staging bank holds a bundle that passed its checks (R366). -/
def bundleStaged (p : Packet) (s : State) : State :=
  let img := ((chunkWritten p s).bank s.stageBank).bytes
  let t := (chunkWritten p s).setBank s.stageBank (fun x => { x with state := 1, release := bundleRelease img, secVersion := bundleSec img, signed := true })
  { t with fw := { t.fw with stageNext := none } }

/-- The last chunk of a bundle that passes its checks makes the bank STAGED (R366). -/
theorem fwStageEffect_last {id : Nat} (hn : 0 < Packet.fld p 20 4) (hlast : bit (Packet.fld p 24 1) 1 = true)
    (hgood : s.bundleStatus (stagedBank p s).bytes (Packet.fld p 16 4 + Packet.fld p 20 4) = none) :
    fwStageEffect id c p s = done0 (bundleStaged p s) (bundleRelease ((chunkWritten p s).bank s.stageBank).bytes) := by
  unfold fwStageEffect
  dsimp only
  rw [if_neg (by omega), setBank_chunk, hlast, if_neg (by decide)]
  rw [← chunkWritten_bank] at hgood
  change (match (chunkWritten p s).bundleStatus ((chunkWritten p s).bank s.stageBank).bytes (Packet.fld p 16 4 + Packet.fld p 20 4) with
    | some st => _
    | none => done0 _ (bundleRelease ((chunkWritten p s).bank s.stageBank).bytes)) = _
  rw [show (chunkWritten p s).bundleStatus = s.bundleStatus from rfl, hgood]
  rfl

end Stage

/-- Settles O50: the staging bank after each kind of chunk, and the effects of the two other commands. -/
theorem firmwareCommands : Obligations.FirmwareCommands := by
  unfold Obligations.FirmwareCommands
  intro p s f c
  refine ⟨?_, ?_, ?_, ?_, ?_⟩
  · intro htake hc hn hlast old
    exact ⟨chunkWritten p s, congrArg Host.Outcome.next (runPacket_okWith htake hc (fwStageEffect_chunk hn hlast)), chunkWritten_bank p s, chunkWritten_other p s, rfl,
      activeRelease_setBank, rfl, rfl, rfl⟩
  · intro htake hc hn hlast old img hgood
    have heffect : fwStageEffect f.id c p s = done0 (bundleStaged p s) (bundleRelease img) := by rw [fwStageEffect_last hn hlast hgood, chunkWritten_bank]; rfl
    refine ⟨bundleStaged p s, congrArg Host.Outcome.next (runPacket_okWith htake hc heffect), ?_, ?_, rfl⟩
    · change ((chunkWritten p s).setBank s.stageBank _).bank s.stageBank = _
      rw [bank_setBank_same, chunkWritten_bank]
      rfl
    · change ((chunkWritten p s).setBank s.stageBank _).bank (!s.stageBank) = _
      rw [bank_setBank_other, chunkWritten_other]
  · intro htake hc hlevel hdefer
    have hgo : exec (.activateFw p) s = .next _ := congrArg Host.Outcome.next ((runPacket_effect 0xB01 activateChecks activateEffect p s f c htake hc).trans (by
      rw [activateEffect, if_neg (by omega), Regions.settleReply_later]))
    exact ⟨_, hgo, rfl, rfl, rfl⟩
  · intro htake hc hlevel
    let u : State := { s with fw := { s.fw with activation := some ⟨some f.id, Packet.fld p 16 4, 1, s.clock.now, 0, 0, false⟩ } }
    have hgo : exec (.activateFw p) s = .next (u.deferEvent.setFlight f.id (fun f => { f with running := true, parked := false })) :=
      congrArg Host.Outcome.next ((runPacket_effect 0xB01 activateChecks activateEffect p s f c htake hc).trans (by
        rw [activateEffect, if_pos (by omega), Regions.settleReply_later]))
    have htold : u.Told u.deferEvent := u.post_told _
    refine ⟨_, hgo, ?_, ?_⟩
    · change u.deferEvent.fw.activation = _
      rw [htold]
    · change u.deferEvent.proto.finished = _
      rw [htold]
  · intro htake hc
    exact congrArg Host.Outcome.next (runPacket_okWith htake hc rfl)

end Sys2Proof.Proofs.Firmware

namespace Sys2Proof.Proofs.Reports

open Sys2Proof Sys2Proof.Machine

/-- Settles O53: each report's effect, and the one entry that the export adds to the log. -/
theorem reportsAreAnswered : Obligations.ReportsAreAnswered := by
  unfold Obligations.ReportsAreAnswered
  intro p s f c
  refine ⟨?_, ?_, ?_, ?_⟩
  · intro htake hc
    exact congrArg Host.Outcome.next (runPacket_okWith htake hc rfl)
  · intro htake hc howner
    refine congrArg Host.Outcome.next ((runPacket_effect 0xE01 errorCountsChecks errorCountsEffect p s f c htake hc).trans ?_)
    rw [errorCountsEffect, if_pos howner]
    rfl
  · intro htake hc howner d hside hready w
    refine congrArg Host.Outcome.next ((runPacket_effect 0xE01 errorCountsChecks errorCountsEffect p s f c htake hc).trans ?_)
    rw [errorCountsEffect, if_neg howner, Keys.putRecord_eq hready hside]
    rfl
  · intro htake hshort t
    have hc : heartbeatChecks c p s = none := by simp [heartbeatChecks, firstFail, hshort]
    refine ⟨congrArg Host.Outcome.next (runPacket_effect 0xE00 heartbeatChecks faultLogExportEffect p s f c htake hc), ?_⟩
    change (s.bump.logFault 0xA 0 s.rel.entries.length).stores = s.stores ∧ (s.bump.logFault 0xA 0 s.rel.entries.length).proto = s.proto ∧
      (s.bump.logFault 0xA 0 s.rel.entries.length).rel.entries = s.rel.entries ∧ (_ → (s.bump.logFault 0xA 0 s.rel.entries.length).rel.queue = _)
    unfold State.logFault
    dsimp only
    split
    case isTrue hrecent =>
      refine ⟨rfl, rfl, rfl, fun hnone => ?_⟩
      obtain ⟨x, hx, hold⟩ := List.any_eq_true.1 hrecent
      simp only [Bool.and_eq_true, decide_eq_true_eq] at hold
      exact absurd ⟨hold.1.1, hold.1.2, hold.2⟩ (hnone x hx)
    case isFalse => exact ⟨rfl, rfl, rfl, fun _ => rfl⟩

end Sys2Proof.Proofs.Reports

/-! PROOFS. What a property of the state must survive for the model's functions to keep it.

A property is kept by a function when it is kept by every change that the function makes. The changes are few: the structures below list them, from the least that a stop or a
completion makes to all that a step makes, and one lemma for each function follows the function's own branches. -/

namespace Sys2Proof.Machine

/-! ### The ways a state is put together -/

section Shapes

variable {P : State → Prop} {α : Type} {a b t : State}

theorem keepIte {c : Prop} [Decidable c] (ha : P a) (hb : P b) : P (if c then a else b) := by
  split
  · exact ha
  · exact hb

theorem keepIteFst {c : Prop} [Decidable c] {x y : State × α} (hx : P x.1) (hy : P y.1) : P (if c then x else y).1 := by
  split
  · exact hx
  · exact hy

theorem keepFst {x : α} (h : P t) : P (t, x).1 := h

theorem keepFold {f : State → α → State} {l : List α} {b : State} (h0 : P b) (hstep : ∀ (a : α) (t : State), P t → P (f t a)) : P (l.foldl f b) :=
  foldl_keeps P f l b h0 (fun b a h => hstep a b h)

theorem keepPair {r : State × α} {x : α} (e : r = (t, x)) (h : P r.1) : P t := by
  rw [e] at h
  exact h

theorem keepSome {o : Option State} (e : o = some t) (h : ∀ x ∈ o, P x) : P t := h t (by rw [e]; rfl)

theorem keepSomePair {o : Option (State × α)} {x : α} (e : o = some (t, x)) (h : ∀ r ∈ o, P r.1) : P t := h (t, x) (by rw [e]; rfl)

/-- What a request for pages leaves, if it is met now or waits, has the property. -/
def Provision.Leaves (P : State → Prop) : Provision → Prop
  | .ready t => P t
  | .wait t => P t
  | .never => True

theorem keepReady {r : Provision} (e : r = .ready t) (h : r.Leaves P) : P t := by
  rw [e] at h
  exact h

theorem keepWait {r : Provision} (e : r = .wait t) (h : r.Leaves P) : P t := by
  rw [e] at h
  exact h

variable {checks : Caller → Sys2Proof.Packet → State → Option Nat} {effect : Nat → Caller → Sys2Proof.Packet → State → State × Reply} {s : State} {id : Nat} {c : Caller} {p : Sys2Proof.Packet}

theorem keepChecked (hs : P s) (heffect : ∀ id c p t, P t → P (effect id c p t).1) : P (checked checks effect id c p s).1 := by
  unfold checked
  split
  · exact hs
  · exact heffect _ _ _ _ hs

theorem keepCheckedSeq (hs : P s) (heffect : ∀ id c p t, P t → P (effect id c p t).1) : P (checkedSeq checks effect id c p s).1 := by
  unfold checkedSeq
  split
  · exact hs
  · exact heffect _ _ _ _ hs

theorem keepStreamBody (hs : P s) (heffect : ∀ id c p t, P t → P (effect id c p t).1) : P (streamBody checks effect id c p s).1 := by
  unfold streamBody
  split
  · exact hs
  · exact heffect _ _ _ _ hs

/-- The next state that a command answers, if it answers one, has the property. -/
def Answers (P : State → Prop) (o : Host.Outcome State Fault Refusal) : Prop := ∀ t, o = .next t → P t

theorem keepNext (h : P t) : Answers P (.next t) := by
  intro u e
  cases e
  exact h

theorem keepFault {f : Fault} : Answers P (.fault f) := by
  intro u e
  cases e

theorem keepRefused {r : Refusal} : Answers P (.refused r) := by
  intro u e
  cases e

theorem keepIteOut {c : Prop} [Decidable c] {x y : Host.Outcome State Fault Refusal} (hx : Answers P x) (hy : Answers P y) : Answers P (if c then x else y) := by
  split
  · exact hx
  · exact hy

end Shapes

/-! ### The changes -/

/-- A job's firing afterwards, if there is one, is the firing it had, with the COALESCED bit of RFLAGS as it was (R349). -/
def Job.KeepsMark (j j' : Job) : Prop := ∀ g', j'.firing = some g' → ∃ g, j.firing = some g ∧ bit g'.rflags 5 = bit g.rflags 5

theorem Job.KeepsMark.of_eq {j j' : Job} (h : j'.firing = j.firing) : j.KeepsMark j' := fun g' hg => ⟨g', h ▸ hg, rfl⟩

theorem Job.KeepsMark.of_map {j j' : Job} {f : Firing → Firing} (h : j'.firing = j.firing.map f) (hf : ∀ g, bit (f g).rflags 5 = bit g.rflags 5) : j.KeepsMark j' := by
  intro g' hg
  rw [h, Option.map_eq_some_iff] at hg
  obtain ⟨g, hg, rfl⟩ := hg
  exact ⟨g, hg, hf g⟩

/-- Changes of what runs and of what is recorded: the frame's counters, packets in flight, completions and events, the tables of tiers, cores, sequences, samples and
applications, errors, the clusters' clocks, writes to memories, and firings in progress. -/
structure Kept (P : State → Prop) : Prop where
  set : ∀ {s : State} {acc flights finished eqs applied clusters rel poison recent tiers cores kv ingest apps out fresh}, P s → P { s with stats := { s.stats with acc := acc }, proto := { s.proto with flights := flights, finished := finished, eqs := eqs }, power := { s.power with applied := applied, clusters := clusters }, rel := rel, stores := { s.stores with poison := poison, recent := recent }, tiers := tiers, cores := cores, kv := kv, ingest := ingest, apps := apps, out := out, fresh := fresh }
  apply : ∀ {s : State} {ws : List Wr}, P s → P (s.apply ws)
  setJob : ∀ {s : State} {h : Nat} {f : Job → Job}, (∀ j : Job, j.KeepsMark (f j)) → P s → P (s.setJob h f)

/-- With what a trigger changes: robot time reached, jobs in any way, and misses counted (R348, R350). -/
structure KeptByFirings (P : State → Prop) : Prop extends Kept P where
  fire : ∀ {s : State} {jobs missTotal}, P s → P { s with sched := { s.sched with jobs := jobs }, win := { s.win with missTotal := missTotal } }
  miss : ∀ {s : State} {n : Nat} {g : Partition → Nat}, P s → P (s.setPart n (fun q => { q with misses := g q }))
  reach : ∀ {s : State} {t : Nat}, P s → P (s.reach t)

/-- With what packets and their ends change: everything but the clock, the configuration in force, the statistics' ring, and what only some functions do to memories,
scopes and jobs. -/
structure KeptBySettling (P : State → Prop) : Prop extends Kept P where
  change : ∀ {s : State} {parked acc proto contexts partitions models useCount fw win sec power rel pins poison recent tiers cores kv ingest apps out fresh}, P s → P { s with clock := { s.clock with parked := parked }, stats := { s.stats with acc := acc }, proto := proto, sched := { s.sched with contexts := contexts, partitions := partitions, models := models, useCount := useCount }, fw := fw, win := win, sec := sec, power := power, rel := rel, pins := pins, stores := { s.stores with poison := poison, recent := recent }, tiers := tiers, cores := cores, kv := kv, ingest := ingest, apps := apps, out := out, fresh := fresh }
  reach : ∀ {s : State} {t : Nat}, P s → P (s.reach t)
  zeroFill : ∀ {s : State} {st : Store} {a n : Nat}, P s → P (s.zeroFill st a n)
  addJob : ∀ {s : State} {h : Nat} {j : Job}, j.firing = none → P s → P { s with sched := { s.sched with jobs := s.sched.jobs.set h j } }
  dropJob : ∀ {s : State} {h : Nat}, P s → P { s with sched := { s.sched with jobs := s.sched.jobs.erase h } }
  setShadow : ∀ {s : State} {kind id off v : Nat}, P s → P (s.setShadow kind id off v)
  setActive : ∀ {s : State} {kind id off v : Nat}, kind ≠ 0 → P s → P (s.setActive kind id off v)
  resetScope : ∀ {s : State} {kind id : Nat}, kind ≠ 0 → P s → P (s.resetScope kind id)
  commit : ∀ {s : State} {kind id : Nat}, P s → P (s.commit kind id).1

/-- With both: what a frame edge does beside the clock and the commits (R35). -/
structure KeptByEdges (P : State → Prop) : Prop extends KeptByFirings P, KeptBySettling P

/-- With everything that a command changes: the clock but for the rate, the rate by the servo or to zero, commits, and memories copied or lost. -/
structure KeptBySteps (P : State → Prop) : Prop extends KeptByEdges P where
  move : ∀ {s : State} {pending running now frac slew step timeState lockRun lastSync syncInterval offset peerDelay nextSync nextFrame frameStart nextEdge parked stats proto sched fw win sec power rel pins poison recent tiers cores kv ingest apps out fresh}, P s → P { s with pending := pending, clock := { s.clock with running := running, now := now, frac := frac, slew := slew, step := step, timeState := timeState, lockRun := lockRun, lastSync := lastSync, syncInterval := syncInterval, offset := offset, peerDelay := peerDelay, nextSync := nextSync, nextFrame := nextFrame, frameStart := frameStart, nextEdge := nextEdge, parked := parked }, stats := stats, proto := proto, sched := sched, fw := fw, win := win, sec := sec, power := power, rel := rel, pins := pins, stores := { s.stores with poison := poison, recent := recent }, tiers := tiers, cores := cores, kv := kv, ingest := ingest, apps := apps, out := out, fresh := fresh }
  acceptSync : ∀ {s : State} {port interval : Nat} {offset : Int}, P s → P (s.acceptSync port offset interval)
  applyCommits : ∀ {s : State} {fr : Nat}, P s → P (s.applyCommits fr)
  copyStore : ∀ {s : State} {src dst : Nat} {bad : List Nat}, P s → P (s.copyStore src dst bad)
  releaseTime : ∀ {s : State}, P s → P s.releaseTime
  powerOff : ∀ {s : State} {tripped resetIn : Bool} {cause : Nat}, P s → P (s.powerOff tripped cause resetIn)

/-- Changing a firing in place changes its job's firing alone. -/
theorem Kept.setFiring {P : State → Prop} (K : Kept P) {s : State} {h : Nat} {f : Firing → Firing} (hf : ∀ g, bit (f g).rflags 5 = bit g.rflags 5) (hs : P s) : P (s.setFiring h f) :=
  K.setJob (fun _ => .of_map rfl hf) hs

theorem bit_or_64 (v : Nat) : bit (v ||| 64) 5 = bit v 5 := by
  rw [bit, bit, ← Nat.testBit_eq_decide_div_mod_eq, ← Nat.testBit_eq_decide_div_mod_eq, Nat.testBit_or, show Nat.testBit 64 5 = false from by decide, Bool.or_false]

theorem Firing.outcome_rflags (f : Firing) (n status : Nat) : (f.outcome n status).rflags = f.rflags := by
  unfold Firing.outcome
  split
  · rfl
  · split <;> rfl

end Sys2Proof.Machine

namespace Sys2Proof.Machine

/-! ### Events, completions, operations and streams -/

namespace Kept

variable {P : State → Prop} (K : Kept P) {s : State} (hs : P s) {id : Nat} {c : Caller} {p : Sys2Proof.Packet}

include K hs

theorem acc {g : FrameAcc → FrameAcc} : P (s.acc g) := K.set hs

theorem accPart {p : Nat} {g : PartAcc → PartAcc} : P (s.accPart p g) := K.acc hs

theorem finishFull {id status info result : Nat} {ver : Option Nat} {hw : List (Nat × List Sys2Proof.Byte)} {msgs : List (List Sys2Proof.Byte)} : P (s.finishFull id status info result ver hw msgs) := by
  unfold State.finishFull
  split
  · exact hs
  · dsimp only
    refine K.set ?_
    split
    · exact K.accPart hs
    · exact hs

theorem finish {id status info result : Nat} : P (s.finish id status info result) := K.finishFull hs

theorem endStreamOp {o : StreamOp} {status info result exc : Nat} : P (s.endStreamOp o status info result exc) := by
  have hmark : ∀ f : Firing, ∀ n : Nat, bit (if bit info 4 then f.rflags ||| 64 else f.rflags) 5 = bit f.rflags 5 := by
    intro f n
    split
    · exact bit_or_64 f.rflags
    · rfl
  unfold State.endStreamOp
  split
  · exact K.finish hs
  · exact K.setJob (fun j => .of_map (by rfl) (fun g => hmark g 0)) hs
  · exact hs

theorem setStream {h : Nat} {f : Stream → Stream} : P (s.setStream h f) := K.set hs

theorem abortQueue {h : Nat} : P (s.abortQueue h) := by
  unfold State.abortQueue
  split
  · exact hs
  · exact keepFold (K.setStream hs) (fun _ _ ht => K.endStreamOp ht)

theorem acceptOp {id h : Nat} {x : Stream} {code : Nat} {p : Sys2Proof.Packet} : P (s.acceptOp id h x code p).1 := keepIteFst hs (keepIteFst hs (keepIteFst hs (K.setStream hs)))

theorem bump : P s.bump := K.set hs

theorem emit {o : Output} : P (s.emit o) := K.set hs

theorem raise {fn vector : Nat} : P (s.raise fn vector) := keepIte hs (K.emit hs)

theorem writeRecord {eq : Nat} {q : EventQueue} {e : Event} : P (s.writeRecord eq q e) := by
  unfold State.writeRecord
  dsimp only
  split
  · exact K.set hs
  · exact keepIte (K.raise (K.apply (K.set hs))) (K.apply (K.set hs))

theorem reportLost {eq : Nat} : P (s.reportLost eq) := by
  unfold State.reportLost
  split
  · exact hs
  · exact keepIte (K.writeRecord hs) hs

theorem dropEvent {eq : Nat} {q : EventQueue} : P (s.dropEvent eq q) := K.set hs

theorem deliver {eq : Nat} {e : Event} : P (s.deliver eq e) := by
  unfold State.deliver
  dsimp only
  split
  · exact K.reportLost hs
  · exact keepIte (K.writeRecord (K.reportLost hs)) (K.dropEvent (K.reportLost hs))

theorem post {e : Event} : P (s.post e) := keepFold hs (fun _ _ ht => K.deliver ht)

theorem setFlight {id : Nat} {g : Flight → Flight} : P (s.setFlight id g) := K.set hs

theorem accepts {f : Flight} : P (s.accepts f) := K.setFlight hs

theorem setSeq {h : Nat} {f : Seq → Seq} : P (s.setSeq h f) := K.set hs

theorem addKvPages {h : Nat} {ks : List (Nat × Nat)} : P (s.addKvPages h ks) := K.set (K.setSeq hs)

theorem addStream {x : Stream} {rec_ : List Byte} : ∀ r ∈ s.addStream x rec_, P r.1 := by
  intro r hr
  obtain ⟨h, -, rfl⟩ := Option.map_eq_some_iff.1 hr
  exact K.bump (K.set (K.apply hs))

theorem ahead : P s.ahead := K.apply hs

theorem mapPages {c base n home : Nat} {readOnly : Bool} : P (s.mapPages c base n home readOnly) := K.set hs

theorem appendEnd {f : Flight} : P (s.appendEnd f).1 := by
  unfold State.appendEnd
  dsimp only
  split
  · exact K.setSeq hs
  · exact K.setSeq hs

theorem hold {o : Owner} {hs' : List (Nat × Nat)} : P (s.hold o hs') := keepFold hs (fun _ _ ht => K.set ht)

theorem setCore {c : Nat} {v : Core} : P (s.setCore c v) := K.set hs

theorem placeSlot {c : Nat} {o : OpSlot} : P (s.placeSlot c o) := K.setCore hs

theorem placeDesc {c : Nat} {d : Desc} : P (s.placeDesc c d) := K.setCore hs

theorem count {g : ErrCounts → ErrCounts} : P (s.count g) := K.set hs

theorem logFault {code source detail : Nat} : P (s.logFault code source detail) := keepIte hs (K.set hs)

theorem writeSummary : P s.writeSummary := K.set hs

theorem retireFrame {stack f : Nat} : P (s.retireFrame stack f) := keepIte hs (K.logFault (K.writeSummary (K.set hs)))

theorem condemn {stack f : Nat} : P (s.condemn stack f) := keepIte (keepIte hs (K.writeSummary (K.set hs))) (K.retireFrame hs)

theorem uncorrectable {st : Store} {key : Nat} : P (s.uncorrectable st key) := by
  unfold State.uncorrectable
  dsimp only
  split
  · exact K.condemn (K.logFault (keepIte (K.set (K.count hs)) (K.post (K.set (K.count hs)))))
  · exact K.set (K.logFault (keepIte (K.set (K.count hs)) (K.post (K.set (K.count hs)))))
  · exact K.logFault (keepIte (K.set (K.count hs)) (K.post (K.set (K.count hs))))

theorem reread {hit : Option (Store × Nat)} : P (s.reread hit) := by
  unfold State.reread
  split
  · exact K.uncorrectable hs
  · exact hs

theorem beginWork {o : Owner} {p : Nat} {w : Work} : P (s.beginWork o p w) := by
  unfold State.beginWork
  dsimp only
  refine K.bump (K.accPart (K.reread ?_))
  split
  · exact K.set (keepFold (keepFold (K.hold (K.apply hs)) (fun _ _ ht => K.placeSlot ht)) (fun _ _ ht => K.placeDesc ht))
  · exact keepFold (keepFold (K.hold (K.apply hs)) (fun _ _ ht => K.placeSlot ht)) (fun _ _ ht => K.placeDesc ht)

theorem begin_ {o : Owner} {p : Nat} {w : Work} : P (s.begin_ o p w) := K.accPart (K.beginWork hs)

theorem appendWork {id ctx part core h : Nat} {p : Sys2Proof.Packet} {k v : Operand} : P (s.appendWork id ctx part core h p k v).1 := by
  unfold State.appendWork
  split
  · exact hs
  · exact keepIteFst (K.begin_ hs) (K.begin_ hs)

theorem armJobs {fr : Nat} : P (s.armJobs fr) := by
  unfold State.armJobs
  refine keepFold hs (fun _ _ ht => ?_)
  split
  · exact keepIte (K.finish (K.setJob (fun _ => .of_eq (by rfl)) ht)) ht
  · exact ht

theorem beginReplacement {core cause part pos : Nat} : P (s.beginReplacement core cause part pos) := K.set hs

theorem endBellows {key status : Nat} : P (s.endBellows key status) := by
  unfold State.endBellows
  split
  · exact hs
  · exact K.finish (K.set hs)

theorem settleBellows : P s.settleBellows := keepFold hs (fun _ _ ht => K.endBellows ht)

theorem setPos {key i : Nat} {g : BellowsPos → BellowsPos} : P (s.setPos key i g) := K.set hs

theorem frameCorrects {stack f : Nat} : P (s.frameCorrects stack f) := keepIte (keepIte (K.logFault (K.set hs)) (K.condemn (K.set hs))) (K.set hs)

theorem corrected {st : Store} {key : Nat} : P (s.corrected st key) := by
  unfold State.corrected
  dsimp only
  split
  · exact K.frameCorrects (K.count hs)
  · exact K.set (K.count hs)
  · exact K.count hs

theorem retried : P s.retried := K.count hs

theorem replayed {n : Nat} : P (s.replayed n) := K.count hs

theorem burstLost {key : Nat} : P (s.burstLost key) := K.uncorrectable (K.retried (K.retried hs))

theorem met {st : Store} {key : Nat → Nat} {m : Sys2Proof.MemOutcome} : P (s.met st key m).1 := by
  unfold State.met
  split
  · exact hs
  · exact K.corrected hs
  · exact keepIte (K.retried hs) hs
  · exact K.replayed hs
  · exact keepFst (K.uncorrectable hs)
  · exact keepIteFst (K.burstLost hs) hs
  · exact hs
  · exact hs

theorem dropCodebook {cluster c addr : Nat} : P (s.dropCodebook cluster c addr) := by
  unfold State.dropCodebook
  split
  · exact hs
  · exact K.set hs

theorem setBellows {key : Nat} {g : Bellows → Bellows} : P (s.setBellows key g) := K.set hs

theorem codebook {cluster c addr kind : Nat} : P (s.codebook cluster c addr kind).1 := by
  unfold State.codebook
  dsimp only
  split
  · exact hs
  · split
    · split
      · exact keepFst (K.uncorrectable hs)
      · exact hs
    · exact K.set hs

theorem swage {cluster c addr : Nat} : P (s.swage cluster c addr).1 := by
  unfold State.swage
  refine keepIteFst hs (keepIteFst hs (keepIteFst hs (keepIteFst hs ?_)))
  split
  · exact keepFst (K.uncorrectable hs)
  · split
    · exact keepPair ‹_› (K.codebook hs)
    · exact keepPair ‹_› (K.codebook hs)

theorem bellowsFetch {key i : Nat} {b : Bellows} {q : BellowsPos} {link : Sys2Proof.MemOutcome} : P (s.bellowsFetch key i b q link) := by
  unfold State.bellowsFetch
  refine keepIte hs (keepIte (K.settleBellows (K.setPos hs)) (keepIte (K.endBellows hs) (keepIte hs (keepIte (K.endBellows hs) (keepIte (K.endBellows hs) ?_)))))
  split
  · exact K.endBellows hs
  · split
    rename_i t lost hmet
    have ht : P t := keepPair hmet (K.met hs)
    extract_lets u v r
    have hu : P u := keepIte (K.dropCodebook ht) ht
    have hv : P v := keepIte (K.setBellows hu) hu
    refine keepIte (K.endBellows hv) (keepIte (K.endBellows hv) ?_)
    split
    · exact K.endBellows (K.uncorrectable hv)
    · have hr : P r.1 := by
        refine keepIteFst ?_ hv
        split
        · exact keepPair ‹_› (K.swage hv)
        · exact keepPair ‹_› (K.swage hv)
      split
      · exact K.endBellows hr
      · exact K.setPos (K.accPart (K.apply hr))

theorem markFenced {core : Nat} : P (s.markFenced core) := K.writeSummary (K.set hs)

theorem bootFence {core : Nat} : P (s.bootFence core) := keepIte hs (K.logFault (K.post (keepIte (K.set (K.markFenced hs)) (K.markFenced hs))))

theorem setSlot {k : Nat} {f : SlotState → SlotState} : P (s.setSlot k f) := K.set hs

theorem setFilling {k : Nat} {g : Filling → Filling} : P (s.setFilling k g) := K.setSlot hs

theorem spoilSample {k reason : Nat} : P (s.spoilSample k reason) := K.setFilling hs

theorem linkOutcome {k : Nat} {link : Sys2Proof.LinkCheck} : P (s.linkOutcome k link) := by
  unfold State.linkOutcome
  split
  · exact hs
  · exact K.setFilling hs
  · exact K.spoilSample hs

theorem burstOutcome {k die port : Nat} {frame : Sys2Proof.FramePacket} : P (s.burstOutcome k die port frame) := by
  unfold State.burstOutcome
  dsimp only
  split
  · exact keepIte (K.linkOutcome hs) (K.spoilSample (K.linkOutcome hs))
  · exact K.linkOutcome hs

theorem retime : P s.retime := K.set hs

theorem mapClusters {f : Nat → ClusterPower → ClusterPower} : P (s.mapClusters f) := K.retime (K.set hs)

theorem withdrawBoost : P s.withdrawBoost := K.mapClusters hs

theorem capUp : P s.capUp := by
  unfold State.capUp
  exact keepIte (K.bump hs) (keepIte (K.bump (K.mapClusters hs)) (keepIte (K.bump (K.mapClusters hs)) (keepIte (K.bump (K.mapClusters hs)) (K.bump hs))))

theorem capDown : P s.capDown := by
  unfold State.capDown
  refine keepIte (K.withdrawBoost hs) ?_
  refine keepIte (K.mapClusters hs) ?_
  split
  · exact hs
  · exact K.mapClusters hs

theorem classify {die port : Nat} {c : PortClass} : P (s.classify die port c) := keepIte (K.set hs) hs

theorem clockUpdate {k : Nat} {f : Filling} : P (s.clockUpdate k f).1 := by
  unfold State.clockUpdate
  split
  · exact hs
  · dsimp only
    split
    · exact K.setSlot hs
    · refine keepIteFst hs ?_
      split
      · exact K.setSlot hs
      · exact K.post (K.setSlot hs)
      · exact K.post (K.setSlot hs)

theorem settleReclaims : P s.settleReclaims := keepFold hs (fun _ _ ht => keepIte ht (K.finish ht))

theorem writeHeader {h : Nat} : P (s.writeHeader h) := by
  unfold State.writeHeader
  split
  · exact K.apply hs
  · exact hs

theorem setLattice {h : Nat} {f : Lattice → Lattice} : P (s.setLattice h f) := K.set hs

theorem commitPlan {h : Nat} {l : Lattice} {t : Traj} : P (s.commitPlan h l t) := K.writeHeader (K.setLattice (K.bump (K.apply hs)))

theorem firingOutcome {h status : Nat} : P (s.firingOutcome h status) := by
  unfold State.firingOutcome
  split
  · exact hs
  · exact K.setFiring (fun g => by rw [Firing.outcome_rflags]) hs

theorem landFiring {h : Nat} : P (s.landFiring h) := by
  unfold State.landFiring
  split
  · exact hs
  · exact keepFold (K.setFiring (fun _ => by rfl) (K.apply hs)) (fun _ _ ht => K.firingOutcome ht)

theorem unhold {o : Owner} : P (s.unhold o) := K.set hs

theorem firingSync {h : Nat} : P (s.firingSync h) := K.unhold (K.landFiring hs)

theorem testPair {part : Nat} {x : Nat × Nat} : P (s.testPair part x) := K.set (K.count hs)

theorem putFiring {h frame : Nat} {bytes : Nat → List Byte} {coalesced : Bool} : P (s.putFiring h frame bytes coalesced) := by
  unfold State.putFiring
  split
  · exact hs
  · exact K.setJob (fun _ => .of_eq (by rfl)) (K.apply hs)

theorem swageRun {cluster c n addr : Nat} {acc : List (List Byte)} {read : Nat} : P (State.swageRun cluster c n addr s acc read).1 := by
  induction n generalizing s addr acc read with
  | zero => exact hs
  | succ n ih =>
    rw [State.swageRun]
    split
    · exact keepPair ‹_› (K.swage hs)
    · exact ih (keepPair ‹_› (K.swage hs))

theorem moved {ctx : Nat} {t : Traffic} : P (s.moved ctx t) := by
  unfold State.moved
  split
  · exact hs
  · exact K.accPart hs

theorem countRetry {l : LinkFate} : P (s.countRetry l) := keepIte (K.retried hs) hs

theorem moveDecode {c core cluster : Nat} {x d : Side} {count pitch : Nat} : P (s.moveDecode c core cluster x d count pitch).1 := by
  unfold State.moveDecode
  exact keepIteFst hs (keepIteFst (K.burstLost (K.bump (K.moved (K.apply (K.swageRun hs))))) (K.countRetry (K.bump (K.moved (K.apply (K.swageRun hs))))))

theorem movePlain {c core : Nat} {x d : Side} {n count sp dp : Nat} : P (s.movePlain c core x d n count sp dp).1 := by
  unfold State.movePlain
  dsimp only
  split
  · exact K.bump (K.countRetry (K.moved (K.apply hs)))
  · refine K.bump (K.apply ?_)
    split
    · exact K.uncorrectable (K.moved (K.apply hs))
    · exact K.burstLost (K.moved (K.apply hs))

theorem windowRead {h lo hi : Nat} : P (s.windowRead h lo hi) := K.settleBellows (K.set hs)

theorem windowTiles {x : Side} {t : Tiles} : P (s.windowTiles x t) := keepIte hs (keepFold hs (fun _ _ ht => K.windowRead ht))

theorem tileMoveEffect : P (tileMoveEffect id c p s).1 := by
  unfold Machine.tileMoveEffect
  dsimp only
  split
  · exact hs
  · exact hs
  · exact keepIteFst hs (keepIteFst hs (keepIteFst hs (keepIteFst hs (keepIteFst hs (keepIteFst hs (keepIteFst hs (keepIteFst hs (keepIteFst hs (keepIteFst hs (keepIteFst hs (keepIteFst hs (keepIteFst hs (K.windowTiles (keepIteFst (K.moveDecode hs) (K.movePlain hs)))))))))))))))

theorem mirrorTiles {q : Partition} {p : Sys2Proof.Packet} {n : Nat} : P (s.mirrorTiles q p n) := by
  unfold State.mirrorTiles
  split
  · exact hs
  · exact K.apply hs

theorem popOp {h : Nat} {o : StreamOp} {status info result : Nat} : P (s.popOp h o status info result) := K.endStreamOp (K.setStream hs)

theorem turnAnchor {h : Nat} {x : Stream} {o : StreamOp} : P (s.turnAnchor h x o) := by
  unfold State.turnAnchor
  refine keepIte (K.popOp hs) ?_
  refine keepIte (K.popOp hs) ?_
  refine keepIte (K.popOp hs) ?_
  refine keepIte hs ?_
  split
  · exact K.popOp hs
  · split
    · exact K.popOp (K.reread hs)
    · exact K.popOp (K.setStream (K.apply hs))

theorem finishOpt {o : Option Nat} {status info result : Nat} : P (s.finishOpt o status info result) := by
  unfold State.finishOpt
  split
  · exact K.finish hs
  · exact hs

theorem moveOut {h : Nat} {toTier2 : Bool} : P (s.moveOut h toTier2) := by
  unfold State.moveOut
  split
  · exact hs
  · exact K.setStream (K.moved (K.apply hs))

theorem settleStream {h : Nat} : P (s.settleStream h) := by
  unfold State.settleStream
  split
  · exact hs
  · refine keepIte hs ?_
    dsimp only
    split
    · split
      · exact K.finishOpt (K.setStream hs)
      · exact keepIte (K.finish (K.setStream (K.finishOpt (K.setStream hs)))) (keepIte (K.finish (K.setStream (K.finishOpt (K.setStream hs)))) (keepIte (K.finish (K.setStream (K.moveOut (K.finishOpt (K.setStream hs))))) (K.finishOpt (K.setStream hs))))
    · refine keepIte ?_ ?_
      · split
        · exact K.finishOpt (K.setStream hs)
        · exact keepIte (K.finish (K.setStream (K.finishOpt (K.setStream hs)))) (keepIte (K.finish (K.setStream (K.finishOpt (K.setStream hs)))) (keepIte (K.finish (K.setStream (K.moveOut (K.finishOpt (K.setStream hs))))) (K.finishOpt (K.setStream hs))))
      · refine K.finish (K.set (K.finishOpt (K.abortQueue ?_)))
        split
        · exact K.finishOpt (K.setStream hs)
        · exact keepIte (K.finish (K.setStream (K.finishOpt (K.setStream hs)))) (keepIte (K.finish (K.setStream (K.finishOpt (K.setStream hs)))) (keepIte (K.finish (K.setStream (K.moveOut (K.finishOpt (K.setStream hs))))) (K.finishOpt (K.setStream hs))))

theorem dropFrom {h i status : Nat} {p : StreamOp → Bool} : P (s.dropFrom h i status p) := by
  unfold State.dropFrom
  split
  · exact hs
  · exact K.settleStream (keepFold (K.setStream hs) (fun _ _ ht => K.endStreamOp ht))

theorem dropLost {h : Nat} : P (s.dropLost h) := by
  unfold State.dropLost
  split
  · exact hs
  · split
    · exact hs
    · exact keepIte hs (K.dropFrom hs)

theorem turnExport {h : Nat} {x : Stream} {o : StreamOp} : P (s.turnExport h x o) := by
  unfold State.turnExport
  dsimp only
  split
  · exact K.popOp hs
  · refine keepIte hs ?_
    split
    · exact K.popOp (K.reread hs)
    · exact K.popOp (K.bump (K.moved (K.apply (K.apply hs))))

theorem stateFault {h : Nat} {x : Stream} : P (s.stateFault h x).1 := keepIteFst (K.setStream (K.moved (K.apply (K.setStream hs)))) (keepFst (K.reread (K.setStream hs)))

theorem putCore {core : Nat} {c : Core} : P (s.putCore core c) := K.setCore hs

theorem releaseOwner {o : Owner} : P (s.releaseOwner o) := K.unhold (keepFold hs (fun _ _ ht => K.putCore ht))

theorem scramble {ws : List Wr} : P (s.scramble ws) := K.bump (K.apply hs)

theorem rewind {h cseq : Nat} : P (s.rewind h cseq) := K.setStream hs

theorem failChunk {h status : Nat} : P (s.failChunk h status) := by
  unfold State.failChunk
  split
  · exact hs
  · split
    · exact hs
    · exact K.rewind (K.abortQueue (K.endStreamOp (K.setStream (K.releaseOwner (K.scramble hs)))))

theorem startChunk {h : Nat} {x : Stream} {o : StreamOp} {core part : Nat} {i : ChunkSrc} : P (s.startChunk h x o core part i) := by
  unfold State.startChunk
  dsimp only
  refine K.setStream ?_
  split
  · exact K.begin_ hs
  · exact K.beginWork hs
  · exact K.beginWork hs

theorem turnChunk {h : Nat} {x : Stream} {o : StreamOp} : P (s.turnChunk h x o) := by
  unfold State.turnChunk
  refine keepIte (K.popOp hs) ?_
  split
  · exact K.popOp hs
  · exact K.popOp hs
  · exact K.failChunk hs
  · refine keepIte hs ?_
    refine keepIte (K.popOp hs) ?_
    refine keepIte hs ?_
    split
    · exact K.popOp hs
    · refine keepIte (K.popOp hs) ?_
      refine keepIte (K.setStream (K.failChunk hs)) ?_
      split
      · exact K.failChunk (K.reread (K.scramble hs))
      · exact K.startChunk hs

theorem streamTurn {h : Nat} : P (s.streamTurn h) := by
  unfold State.streamTurn
  split
  · exact hs
  · split
    · exact hs
    · exact keepIte hs (keepIte (keepIte (K.turnAnchor hs) (K.dropLost hs)) (keepIte (K.turnExport hs) (keepIte (keepIte hs (keepIte (keepIte (K.setStream (K.failChunk (K.stateFault hs))) (K.dropLost (K.setStream (K.popOp (K.stateFault hs))))) (keepIte (K.turnChunk (K.stateFault hs)) (K.turnAnchor (K.stateFault hs))))) (keepIte (K.turnChunk hs) (K.turnAnchor hs)))))

theorem startPacket {h : Nat} {j : Job} {q : Partition} {x : JobPacket} : P (s.startPacket h j q x).1 := by
  unfold State.startPacket
  dsimp only
  split
  · split
    · exact K.firingOutcome (K.setFiring (fun _ => by rfl) hs)
    · split
      · exact K.firingOutcome (K.setFiring (fun _ => by rfl) (K.tileMoveEffect hs))
      · exact K.firingOutcome (K.setFiring (fun _ => by rfl) (K.setFiring (fun _ => by rfl) (keepIte (K.mirrorTiles (K.tileMoveEffect hs)) (K.tileMoveEffect hs))))
      · exact keepIteFst (K.firingOutcome (K.setFiring (fun _ => by rfl) hs)) hs
  · split
    · exact K.firingOutcome (K.setFiring (fun _ => by rfl) hs)
    · exact keepIteFst (K.firingOutcome (K.setFiring (fun _ => by rfl) hs)) (K.streamTurn (K.setFiring (fun _ => by rfl) (K.setStream hs)))
  · split
    · exact K.firingOutcome (K.setFiring (fun _ => by rfl) hs)
    · split
      · exact K.firingOutcome (K.setFiring (fun _ => by rfl) hs)
      · exact K.firingOutcome (K.setFiring (fun _ => by rfl) hs)
      · exact keepIteFst (K.firingOutcome (K.setFiring (fun _ => by rfl) hs)) hs
      · exact keepIteFst hs (K.setFiring (fun _ => by rfl) (K.beginWork hs))

theorem startPackets {h n : Nat} : P (State.startPackets h n s) := by
  induction n generalizing s with
  | zero => exact hs
  | succ n ih =>
    rw [State.startPackets]
    split
    · exact hs
    · split
      · split
        · exact hs
        · exact keepIte hs (keepIte (ih (K.landFiring (K.startPacket (keepIte (K.firingSync hs) hs)))) (K.startPacket (keepIte (K.firingSync hs) hs)))
      · exact hs

theorem countDrop {k reason : Nat} : P (s.countDrop k reason) := K.setSlot hs

theorem countEngine {core : Nat} {x : OpSlot} : P (s.countEngine core x) := by
  unfold State.countEngine
  exact K.acc (K.accPart hs)

theorem setGrid {g : Nat} {f : Grid → Grid} : P (s.setGrid g f) := K.set hs

theorem countUpdate {g : Nat} : P (s.countUpdate g) := K.setGrid hs

theorem putData {k off : Nat} {bs : List Sys2Proof.Byte} : P (s.putData k off bs) := by
  unfold State.putData
  split
  · exact hs
  · split
    · exact hs
    · split
      · exact hs
      · exact keepIte (K.apply hs) (keepIte (K.spoilSample hs) (K.setFilling hs))

theorem csiData {k : Nat} {t : SlotState} {f : Filling} {payload : List Sys2Proof.Byte} : P (s.csiData k t f payload) := by
  unfold State.csiData
  exact keepIte (K.spoilSample (K.setFilling hs)) (keepIte (K.spoilSample (K.setFilling hs)) (keepIte (K.setFilling hs) (keepFold (K.setFilling hs) (fun _ _ ht => K.putData ht))))

theorem declassify : P s.declassify := K.set hs

theorem deferEvent : P s.deferEvent := K.post hs

theorem descCorrected {core : Nat} {d : Desc} : P (s.descCorrected core d) := by
  unfold State.descCorrected
  split
  · exact K.corrected hs
  · exact K.count hs

theorem descLost {k : Option (Store × Nat)} {d : Desc} {burst : Bool} : P (s.descLost k d burst) := by
  unfold State.descLost
  split
  · exact keepIte (K.burstLost hs) (K.uncorrectable hs)
  · exact K.count hs

theorem noteEcc {o : Owner} : P (s.noteEcc o) := by
  unfold State.noteEcc
  split
  · exact K.setFlight hs
  · exact K.setStream hs
  · exact hs

theorem linkLost {ctx : Option Nat} {addr : Nat} : P (s.linkLost ctx addr) := K.logFault (K.post (K.count hs))

theorem recordSearch {l : Lattice} {x : Search} {p : Sys2Proof.Packet} {k : Problem} {r : Run} {status recheck node samples frame result : Nat} : P (s.recordSearch l x p k r status recheck node samples frame result) := K.finish (K.releaseOwner (K.apply hs))

theorem failSearch {l : Lattice} {x : Search} {p : Sys2Proof.Packet} {k : Problem} {r : Run} {status recheck : Nat} : P (s.failSearch l x p k r status recheck) := K.recordSearch hs

theorem landSearch {h : Nat} {l : Lattice} {x : Search} {p : Sys2Proof.Packet} {k : Problem} {r : Run} {node : Nat} {t : Traj} {recheck : Nat} : P (s.landSearch h l x p k r node t recheck) := K.recordSearch (keepIte (K.commitPlan hs) hs)

theorem endCommit {h : Nat} {l : Lattice} {x : Search} {c : PlanCommit} {status : Option Nat} : P (s.endCommit h l x c status) := by
  unfold State.endCommit
  split
  · dsimp only
    split
    · exact K.failSearch (K.reread (K.setLattice hs))
    · exact keepIte (K.failSearch (K.reread (K.setLattice hs))) (keepIte (K.landSearch (K.reread (K.setLattice hs))) (K.failSearch (K.reread (K.setLattice hs))))
  · exact K.finish (K.setLattice hs)

theorem leaveRun {l : Lattice} {p : Sys2Proof.Packet} {r : Run} : P (s.leaveRun l p r) := K.bump (K.apply (K.set hs))

theorem enterCommit {h : Nat} {l : Lattice} {x : Search} {k : Problem} {e : Epoch} {c : PlanCommit} : P (s.enterCommit h l x k e c) := by
  unfold State.enterCommit
  dsimp only
  split
  · exact K.beginWork (K.setLattice (K.releaseOwner hs))
  · exact K.setLattice (K.releaseOwner hs)

theorem endRun {h : Nat} {l : Lattice} {x : Search} {status : Option Nat} : P (s.endRun h l x status) := by
  unfold State.endRun
  split
  · dsimp only
    split
    · exact K.failSearch (K.reread (K.setLattice (K.leaveRun hs)))
    · exact K.failSearch (K.reread (K.setLattice (K.leaveRun hs)))
    · split
      · exact K.failSearch (K.reread (K.setLattice (K.leaveRun hs)))
      · exact keepIte (K.enterCommit (K.reread (K.setLattice (K.leaveRun hs)))) (K.landSearch (K.reread (K.setLattice (K.leaveRun hs))))
  · exact K.finish (K.setLattice hs)

theorem endSearch {h : Nat} {status : Option Nat} : P (s.endSearch h status) := by
  unfold State.endSearch
  split
  · exact hs
  · split
    · exact hs
    · split
      · exact K.endCommit hs
      · exact K.endRun hs

theorem forget {id : Nat} : P (s.forget id) := K.set hs

theorem stopFlight {id status : Nat} : P (s.stopFlight id status) := by
  unfold State.stopFlight
  split
  · exact hs
  · exact K.finish (K.forget (K.releaseOwner (keepIte (K.scramble hs) hs)))

theorem stopOp {id status : Nat} : P (s.stopOp id status) := by
  unfold State.stopOp
  split
  · exact K.endSearch hs
  · exact K.stopFlight hs

theorem releaseTag {o : Owner} {tag : Nat} : P (s.releaseTag o tag) := keepFold hs (fun _ _ ht => K.putCore ht)

theorem failWork {o : Owner} {tag status : Nat} : P (s.failWork o tag status) := by
  unfold State.failWork
  split
  · exact K.stopOp hs
  · exact K.failChunk hs
  · exact K.firingOutcome (K.releaseTag (K.setFiring (fun _ => by rfl) (K.scramble hs)))
  · exact K.releaseTag hs

theorem jobStoreLost {h tag : Nat} : P (s.jobStoreLost h tag) := by
  unfold State.jobStoreLost
  split
  · exact hs
  · exact K.failWork (K.setJob (fun _ => .of_eq (by rfl)) (K.logFault (K.post hs)))

theorem descMet {core : Nat} {d : Desc} {mem : Sys2Proof.MemOutcome} : P (s.descMet core d mem).1 := by
  unfold State.descMet
  dsimp only
  split
  · exact hs
  · exact K.noteEcc (K.bump (K.descCorrected hs))
  · exact keepIteFst (K.noteEcc (K.retried hs)) hs
  · exact keepIte hs (K.noteEcc (K.replayed hs))
  · exact keepIteFst (K.linkLost hs) (K.descLost hs)
  · exact keepIteFst hs (keepIteFst (K.linkLost hs) (keepIteFst (K.descLost hs) hs))
  · split
    · exact K.jobStoreLost hs
    · exact hs
  · exact hs

theorem settleReply {id ver : Nat} {r : Reply} : P (s.settleReply id ver r) := by
  unfold State.settleReply
  split
  · exact K.finishFull hs
  · exact K.finishFull hs
  · exact K.setFlight hs
  · exact K.setFlight hs
  · exact K.setFlight hs
  · exact K.setFlight hs
  · exact K.setFlight hs
  · exact K.setFlight hs
  · exact K.setFlight hs

theorem drainFifo {k : Nat} {t : SlotState} {f : Filling} : P (s.drainFifo k t f) := by
  unfold State.drainFifo
  split
  · exact hs
  · exact K.apply hs

theorem dropFlight {id : Nat} : P (s.dropFlight id) := K.set hs

theorem markPages {c addr n : Nat} {ro : Bool} : P (s.markPages c addr n ro) := K.set hs

theorem retireEpochs {map : Nat} {m : VoxMap} {old : List Epoch} : P (s.retireEpochs map m old) := by
  unfold State.retireEpochs
  dsimp only
  refine K.set ?_
  refine keepFold ?_ (fun _ _ ht => ?_)
  · refine keepFold hs (fun _ _ ht => ?_)
    split
    · exact keepIte (K.endSearch ht) ht
    · exact ht
  · exact K.markPages ht

theorem dropMap {map : Nat} : P (s.dropMap map) := by
  unfold State.dropMap
  split
  · exact hs
  · exact K.set (K.retireEpochs hs)

theorem unloadLattice {h : Nat} : P (s.unloadLattice h) := K.set (K.writeHeader (K.setLattice hs))

theorem freeBuf {k : Nat} {b : Option Nat} : P (s.freeBuf k b) := by
  unfold State.freeBuf
  split
  · exact hs
  · exact K.setSlot hs

theorem passDropped {k : Nat} : P (s.passDropped k) := by
  unfold State.passDropped
  split
  · exact hs
  · exact keepFold hs (fun _ _ ht => K.setSlot (K.clockUpdate ht))

theorem dropSample {k reason : Nat} : P (s.dropSample k reason) := by
  unfold State.dropSample
  split
  · exact hs
  · exact K.passDropped (keepIte (K.setSlot (K.freeBuf hs)) (K.countDrop (K.setSlot (K.freeBuf hs))))

theorem dropShed {h : Nat} : P (s.dropShed h) := by
  unfold State.dropShed
  split
  · exact keepIte (K.dropFrom hs) hs
  · exact hs

theorem markRing {c : Slot} {on : Bool} : P (s.markRing c on) := keepIte hs (K.set hs)

theorem dropStream {h : Nat} : P (s.dropStream h) := by
  unfold State.dropStream
  dsimp only
  split
  · exact K.abortQueue hs
  · exact K.set (K.finishOpt (K.finishOpt (K.finishOpt (K.abortQueue hs))))

theorem dueSummary : P s.dueSummary := keepIte (K.writeSummary hs) hs

theorem shiftModels {d : Nat} : P (s.shiftModels d) := K.set hs

theorem latchDrops : P s.latchDrops := keepFold hs (fun _ _ ht => K.setSlot (keepIte (K.post ht) ht))

theorem stillSample {l : Lattice} : P (s.stillSample l) := by
  unfold State.stillSample
  split
  · exact hs
  · exact K.apply hs

theorem stepPlan {h fr : Nat} {stop cfg : Bool} : P (s.stepPlan h fr stop cfg) := by
  unfold State.stepPlan
  split
  · exact hs
  · refine keepIte (K.unloadLattice hs) ?_
    dsimp only
    refine K.writeHeader ?_
    refine keepIte (K.setLattice (keepIte (K.stillSample hs) hs)) ?_
    refine keepIte (K.setLattice (K.stillSample hs)) ?_
    refine keepIte (K.setLattice hs) ?_
    refine keepIte (K.setLattice (K.stillSample hs)) ?_
    split
    · exact hs
    · exact K.setLattice hs

theorem stepPlans {fr : Nat} {stop cfg : Bool} : P (s.stepPlans fr stop cfg) := keepFold hs (fun _ _ ht => K.stepPlan ht)

theorem reportFence {core cause : Nat} {short : Option Nat} : P (s.reportFence core cause short) := by
  unfold State.reportFence
  dsimp only
  split
  · exact K.post (K.logFault (K.post hs))
  · exact K.logFault (K.post hs)

theorem postPart {p state : Nat} : P (s.postPart p state) := K.post hs

theorem emptyChannel {ch : Nat} : P (s.emptyChannel ch) := K.set hs

theorem enableSlot {slot : Nat} {on : Bool} : P (s.enableSlot slot on) := keepIte (K.set hs) (K.declassify (K.set hs))

theorem endChunk {h : Nat} : P (s.endChunk h) := by
  unfold State.endChunk
  split
  · exact hs
  · split
    · exact hs
    · refine keepIte hs ?_
      dsimp only
      refine K.endStreamOp ?_
      split
      · exact K.accPart (K.setStream (K.unhold (K.apply hs)))
      · exact K.setStream (K.unhold (K.apply hs))

theorem failCore {core : Nat} : P (s.failCore core) := K.setCore (keepFold hs (fun _ _ ht => K.failWork ht))

theorem stopBellows {core part : Nat} : P (s.stopBellows core part) := keepFold hs (fun _ _ ht => K.endBellows ht)

theorem loseObjects {part pos : Nat} : P (s.loseObjects part pos) := by
  unfold State.loseObjects
  exact keepFold (keepFold (keepFold hs (fun _ _ ht => K.dropLost (K.setStream ht))) (fun _ _ ht => K.emptyChannel ht)) (fun _ _ ht => K.setLattice (K.endSearch ht))

theorem endSample {k : Nat} : P (s.endSample k) := by
  unfold State.endSample
  split
  · exact hs
  · split
    · exact K.setSlot hs
    · exact K.dropSample hs

theorem refillCluster {k : Nat} : P (s.refillCluster k) := keepFold hs (fun _ _ ht => K.putCore ht)

theorem ends {f : Flight} {ver status info result : Nat} : P (s.ends f ver status info result) := K.finishFull hs

theorem flushLog : P s.flushLog := K.set hs

theorem shedStream {h : Nat} : P (s.shedStream h) := by
  unfold State.shedStream
  split
  · exact hs
  · split
    · exact hs
    · exact K.dropFrom (K.releaseOwner hs)
    · exact K.setStream hs

theorem shedHeld : P s.shedHeld := keepFold (keepFold hs (fun _ _ ht => K.stopOp ht)) (fun _ _ ht => K.shedStream ht)

theorem respond : P s.respond := keepIte (K.set hs) (K.mapClusters (K.shedHeld (K.set hs)))

theorem heartbeatEffect : P (heartbeatEffect id c p s).1 := hs

theorem heartbeatBody : P (heartbeatBody id c p s).1 := keepChecked hs (fun _ _ _ _ ht => K.heartbeatEffect ht)

theorem deviceInfoBody : P (deviceInfoBody id c p s).1 := keepChecked hs (fun _ _ _ _ ht => ht)

theorem nopBody : P (nopBody id c p s).1 := keepChecked hs (fun _ _ _ _ ht => ht)

theorem eqCreateEffect : P (eqCreateEffect id c p s).1 := by
  unfold Machine.eqCreateEffect
  split
  · exact hs
  · exact K.bump (K.set hs)

theorem eqCreateBody : P (eqCreateBody id c p s).1 := keepChecked hs (fun _ _ _ _ ht => K.eqCreateEffect ht)

theorem eqDestroyEffect : P (eqDestroyEffect id c p s).1 := K.set hs

theorem eqDestroyBody : P (eqDestroyBody id c p s).1 := keepChecked hs (fun _ _ _ _ ht => K.eqDestroyEffect ht)

theorem eventSubscribeEffect : P (eventSubscribeEffect id c p s).1 := K.set hs

theorem eventSubscribeBody : P (eventSubscribeBody id c p s).1 := keepChecked hs (fun _ _ _ _ ht => K.eventSubscribeEffect ht)

theorem configReadEffect : P (configReadEffect id c p s).1 := keepIteFst hs (keepIteFst hs hs)

theorem configReadBody : P (configReadBody id c p s).1 := keepChecked hs (fun _ _ _ _ ht => K.configReadEffect ht)

theorem timeReadBody : P (timeReadBody id c p s).1 := keepChecked hs (fun _ _ _ _ ht => ht)

theorem computeBody {f : Compute} {x1 : Nat} {x2 : Caller} {x3 : Sys2Proof.Packet} : P (computeBody f x1 x2 x3 s).1 := by
  unfold Machine.computeBody
  refine keepIteFst hs ?_
  split
  · exact hs
  · refine keepIteFst hs ?_
    refine keepIteFst hs ?_
    split
    · exact hs
    · exact hs
    · exact hs
    · refine keepIteFst hs ?_
      refine keepIteFst (K.apply (K.begin_ hs)) ?_
      split
      · exact K.begin_ hs
      · exact K.begin_ hs

theorem matmulBody : P (matmulBody id c p s).1 := K.computeBody hs

theorem vectorBody : P (vectorBody id c p s).1 := K.computeBody hs

theorem reduceBody : P (reduceBody id c p s).1 := K.computeBody hs

theorem moveBody : P (moveBody id c p s).1 := K.computeBody hs

theorem tileMoveBody : P (tileMoveBody id c p s).1 := keepChecked hs (fun _ _ _ _ ht => K.tileMoveEffect ht)

theorem preempt {q : Nat} : P (s.preempt q) := keepFold (K.set hs) (fun _ _ ht => K.finish ht)

theorem bellowsStopEffect : P (bellowsStopEffect id c p s).1 := K.endBellows (K.set (keepFold hs (fun _ _ ht => K.finish ht)))

theorem bellowsStopBody : P (bellowsStopBody id c p s).1 := keepChecked hs (fun _ _ _ _ ht => K.bellowsStopEffect ht)

theorem swapDone {h : Nat} : P (s.swapDone h) := by
  unfold State.swapDone
  split
  · exact hs
  · exact keepIte (K.finishOpt (K.setSeq hs)) hs

theorem poolEffect : P (poolEffect id c p s).1 := by
  unfold Machine.poolEffect
  refine keepIteFst hs ?_
  split
  · exact hs
  · exact K.bump (K.set hs)

theorem poolBody : P (poolBody id c p s).1 := keepChecked hs (fun _ _ _ _ ht => K.poolEffect ht)

theorem streamStartEffect : P (streamStartEffect id c p s).1 := by
  unfold Machine.streamStartEffect
  refine keepIteFst hs (keepIteFst hs (keepIteFst hs (keepIteFst hs ?_)))
  split
  · exact hs
  · exact hs
  · refine keepIteFst hs ?_
    split
    · exact keepFst (K.reread hs)
    · extract_lets par st
      split
      · exact hs
      · exact keepSomePair ‹_› (K.addStream hs)

theorem streamStartBody : P (streamStartBody id c p s).1 := keepChecked hs (fun _ _ _ _ ht => K.streamStartEffect ht)

theorem streamPauseEffect : P (streamPauseEffect id c p s).1 := by
  unfold Machine.streamPauseEffect
  dsimp only
  split
  · exact hs
  · exact keepIteFst hs (K.settleStream (K.setStream (K.setFlight hs)))

theorem streamPauseBody : P (streamPauseBody id c p s).1 := keepStreamBody hs (fun _ _ _ _ ht => K.streamPauseEffect ht)

theorem streamResumeEffect : P (streamResumeEffect id c p s).1 := by
  unfold Machine.streamResumeEffect
  dsimp only
  split
  · exact hs
  · exact keepIteFst hs (K.setStream hs)

theorem streamResumeBody : P (streamResumeBody id c p s).1 := keepStreamBody hs (fun _ _ _ _ ht => K.streamResumeEffect ht)

theorem streamEndEffect : P (streamEndEffect id c p s).1 := by
  unfold Machine.streamEndEffect
  dsimp only
  split
  · exact hs
  · exact K.settleStream (K.setStream (K.setFlight hs))

theorem streamEndBody : P (streamEndBody id c p s).1 := keepStreamBody hs (fun _ _ _ _ ht => K.streamEndEffect ht)

theorem chunkEffect : P (chunkEffect id c p s).1 := by
  unfold Machine.chunkEffect
  split
  · exact hs
  · exact K.acceptOp hs

theorem chunkBody : P (chunkBody id c p s).1 := keepChecked hs (fun _ _ _ _ ht => K.chunkEffect ht)

theorem stateExportEffect : P (stateExportEffect id c p s).1 := by
  unfold Machine.stateExportEffect
  split
  · exact hs
  · exact K.acceptOp hs

theorem stateExportBody : P (stateExportBody id c p s).1 := keepChecked hs (fun _ _ _ _ ht => K.stateExportEffect ht)

theorem stateImportEffect : P (stateImportEffect id c p s).1 := by
  unfold Machine.stateImportEffect
  dsimp only
  split
  · exact hs
  · refine keepIteFst hs ?_
    refine keepIteFst hs ?_
    split
    · exact hs
    · refine keepIteFst hs ?_
      split
      · exact hs
      · refine keepIteFst hs ?_
        refine keepIteFst hs ?_
        refine keepIteFst hs ?_
        refine keepIteFst hs ?_
        split
        · exact hs
        · exact keepSomePair ‹_› (K.addStream hs)

theorem stateImportBody : P (stateImportBody id c p s).1 := keepChecked hs (fun _ _ _ _ ht => K.stateImportEffect ht)

theorem reAnchorEffect : P (reAnchorEffect id c p s).1 := by
  unfold Machine.reAnchorEffect
  split
  · exact hs
  · exact K.acceptOp hs

theorem reAnchorBody : P (reAnchorBody id c p s).1 := keepChecked hs (fun _ _ _ _ ht => K.reAnchorEffect ht)

theorem swapOutEffect : P (swapOutEffect id c p s).1 := by
  unfold Machine.swapOutEffect
  dsimp only
  split
  · exact hs
  · exact keepIteFst hs (keepIteFst hs (K.settleStream (K.setStream (K.setFlight hs))))

theorem stateSwapOutBody : P (stateSwapOutBody id c p s).1 := keepStreamBody hs (fun _ _ _ _ ht => K.swapOutEffect ht)

theorem convBody : P (convBody id c p s).1 := K.computeBody hs

theorem poolOpBody : P (poolOpBody id c p s).1 := K.computeBody hs

theorem cropBody : P (cropBody id c p s).1 := K.computeBody hs

theorem rereadT2 {c addr n : Nat} : P (s.rereadT2 c addr n) := K.reread hs

theorem gridProjectBody : P (gridProjectBody id c p s).1 := by
  unfold Machine.gridProjectBody
  dsimp only
  split
  · exact K.countUpdate (K.computeBody hs)
  · exact K.computeBody hs

theorem streamHealthEffect : P (streamHealthEffect id c p s).1 := by
  unfold Machine.streamHealthEffect
  dsimp only
  split
  · exact hs
  · exact keepIteFst hs (keepIteFst hs (K.apply hs))

theorem streamHealthBody : P (streamHealthBody id c p s).1 := keepChecked hs (fun _ _ _ _ ht => K.streamHealthEffect ht)

theorem factorBody : P (factorBody id c p s).1 := K.computeBody hs

theorem triBody : P (triBody id c p s).1 := K.computeBody hs

theorem qpBody {fields : Sys2Proof.Packet → Bool} {f : Compute} {x2 : Nat} {x3 : Caller} {x4 : Sys2Proof.Packet} : P (qpBody fields f x2 x3 x4 s).1 := keepIteFst hs (K.computeBody hs)

theorem qpSetupBody : P (qpSetupBody id c p s).1 := K.qpBody hs

theorem qpSolveBody : P (qpSolveBody id c p s).1 := K.qpBody hs

theorem mapPublishEffect : P (mapPublishEffect id c p s).1 := by
  unfold Machine.mapPublishEffect
  dsimp only
  refine K.set (K.markPages (K.bump ?_))
  split
  · exact K.retireEpochs hs
  · exact hs

theorem mapPublishBody : P (mapPublishBody id c p s).1 := keepChecked hs (fun _ _ _ _ ht => K.mapPublishEffect ht)

theorem planSearchBody : P (planSearchBody id c p s).1 := by
  unfold Machine.planSearchBody
  refine keepIteFst hs ?_
  refine keepIteFst hs ?_
  split
  · exact hs
  · refine keepIteFst hs ?_
    refine keepIteFst hs ?_
    split
    · exact hs
    · exact keepIteFst hs (keepIteFst hs (keepIteFst (K.endSearch (K.bump (K.setLattice hs))) (keepIteFst (K.endSearch (K.reread (K.bump (K.setLattice hs)))) (K.begin_ (K.bump (K.setLattice hs))))))
    · exact hs

theorem planAbortEffect : P (planAbortEffect id c p s).1 := by
  unfold Machine.planAbortEffect
  dsimp only
  refine K.setLattice ?_
  split
  · exact K.endSearch hs
  · exact hs

theorem planAbortBody : P (planAbortBody id c p s).1 := keepChecked hs (fun _ _ _ _ ht => K.planAbortEffect ht)

theorem rehome {h : Nat} : P (s.rehome h) := by
  unfold State.rehome
  split
  · exact hs
  · refine keepIte ?_ ?_
    · refine K.setStream (K.moveOut ?_)
      split
      · exact K.rewind (K.abortQueue hs)
      · exact K.abortQueue hs
    · refine keepIte ?_ ?_
      · refine K.setStream ?_
        split
        · exact K.rewind (K.abortQueue hs)
        · exact K.abortQueue hs
      · refine K.moveOut ?_
        split
        · exact K.rewind (K.abortQueue hs)
        · exact K.abortQueue hs

theorem wakeClusters {cores : List Nat} : P (s.wakeClusters cores) := K.set hs

theorem jobDisarmEffect : P (jobDisarmEffect id c p s).1 := K.setJob (fun _ => .of_eq (by rfl)) hs

theorem jobDisarmBody : P (jobDisarmBody id c p s).1 := keepChecked hs (fun _ _ _ _ ht => K.jobDisarmEffect ht)

theorem putRecord {p : Sys2Proof.Packet} {bs : List Sys2Proof.Byte} : P (s.putRecord p bs).1 := by
  unfold State.putRecord
  dsimp only
  split
  · exact hs
  · exact keepIteFst hs (K.apply hs)

theorem accountReadEffect : P (accountReadEffect id c p s).1 := by
  unfold Machine.accountReadEffect
  split
  · exact hs
  · exact K.putRecord hs

theorem accountReadBody : P (accountReadBody id c p s).1 := keepChecked hs (fun _ _ _ _ ht => K.accountReadEffect ht)

theorem fwStatusBody : P (fwStatusBody id c p s).1 := keepChecked hs (fun _ _ _ _ ht => ht)

theorem keyStatusEffect : P (keyStatusEffect id c p s).1 := by
  unfold Machine.keyStatusEffect
  split
  · exact hs
  · exact K.putRecord hs

theorem keyStatusBody : P (keyStatusBody id c p s).1 := keepChecked hs (fun _ _ _ _ ht => K.keyStatusEffect ht)

theorem powerReadBody : P (powerReadBody id c p s).1 := keepChecked hs (fun _ _ _ _ ht => ht)

theorem faultLogExportEffect : P (faultLogExportEffect id c p s).1 := K.logFault (K.bump hs)

theorem faultLogExportBody : P (faultLogExportBody id c p s).1 := keepChecked hs (fun _ _ _ _ ht => K.faultLogExportEffect ht)

theorem errorCountsEffect : P (errorCountsEffect id c p s).1 := keepIteFst hs (K.putRecord hs)

theorem errorCountsBody : P (errorCountsBody id c p s).1 := keepChecked hs (fun _ _ _ _ ht => K.errorCountsEffect ht)

theorem settleStops : P s.settleStops := keepIte hs (K.set (keepFold hs (fun _ _ ht => K.streamTurn ht)))

theorem settleFirings : P s.settleFirings := keepFold hs (fun _ _ ht => K.startPackets (K.landFiring ht))

theorem settleStreams : P s.settleStreams := keepFold hs (fun _ _ ht => K.settleStream (K.dropShed (K.endChunk ht)))

theorem settleSearches : P s.settleSearches := by
  unfold State.settleSearches
  refine keepFold hs (fun _ _ ht => ?_)
  split
  · exact keepIte ht (K.endSearch ht)
  · exact ht

theorem settleAppends : P s.settleAppends := keepFold hs (fun _ _ ht => K.finish (K.appendEnd (K.unhold (K.apply ht))))

theorem sendBuffer {eq : Nat} : P (s.sendBuffer eq) := by
  unfold State.sendBuffer
  split
  · exact hs
  · split
    · exact hs
    · exact K.reportLost (keepFold (K.set hs) (fun _ _ ht => K.emit ht))

theorem sendEvents : P s.sendEvents := keepIte hs (keepFold hs (fun _ _ ht => K.sendBuffer ht))

theorem placeImage {m : Model} {img : List Sys2Proof.Byte} : P (s.placeImage m img) := K.apply hs

theorem okWith {f : Flight} {ver result : Nat} : P (s.okWith f ver result) := K.ends hs

theorem workspaceLost {core off : Nat} : P (s.workspaceLost core off) := keepFold hs (fun _ _ ht => K.emptyChannel ht)

theorem opMet {core : Nat} {x : OpSlot} {mem : Sys2Proof.MemOutcome} : P (s.opMet core x mem).1 := by
  unfold State.opMet
  split
  · exact K.jobStoreLost hs
  · exact K.failWork (keepIte (K.uncorrectable hs) (K.workspaceLost (K.uncorrectable hs)))
  · exact keepIte (K.noteEcc (K.met hs)) (K.met hs)

theorem putPayload {k : Nat} {payload : List Sys2Proof.Byte} : P (s.putPayload k payload) := K.putData (keepIte hs (K.putData hs))

theorem sampleReady {k : Nat} : P (s.sampleReady k).1 := by
  unfold State.sampleReady
  split
  · exact hs
  · split
    · exact hs
    · split
      · exact hs
      · refine keepIteFst hs ?_
        split
        · exact K.passDropped (K.setSlot (K.apply (keepPair ‹_› (K.clockUpdate hs))))

theorem retireSlot {core : Nat} {x : OpSlot} : P (s.retireSlot core x) := K.putCore (K.apply hs)

theorem throttleStart {g : Nat} : P (s.throttleStart g) := keepIte (K.mapClusters hs) hs

theorem spiReadOut {addr n : Nat} : P (s.spiReadOut addr n) := K.emit hs

theorem startSample {k pin frameNo : Nat} {raw : Option Nat} : P (s.startSample k pin frameNo raw) := by
  unfold State.startSample
  split
  · exact hs
  · exact keepIte (K.countDrop (K.setSlot hs)) (K.setSlot hs)

theorem spiStart {k pin : Nat} {t : SlotState} : P (s.spiStart k pin t) := keepIte hs (K.emit (K.startSample hs))

theorem tdmFrame {k : Nat} {t : SlotState} {bclks : Nat} {words : List Nat} : P (s.tdmFrame k t bclks words) := by
  unfold State.tdmFrame
  extract_lets c learning cut u v
  have hu : P u := K.setSlot hs
  have hv : P v := by
    unfold v
    split
    · exact keepIte (K.startSample hu) hu
    · exact hu
  refine keepIte (K.dropSample hu) ?_
  split
  · exact hv
  · exact keepIte (K.endSample (K.setFilling (K.putData hv))) (K.setFilling (K.putData hv))

end Kept

end Sys2Proof.Machine

/-! PROOFS. The functions that triggers, packets and frame edges run keep what their changes keep. -/

namespace Sys2Proof.Machine

/-! ### Triggers (R348 to R350) -/

namespace KeptByFirings

variable {P : State → Prop} (K : KeptByFirings P) {s : State} (hs : P s) {id : Nat} {c : Caller} {p : Sys2Proof.Packet}

include K hs

theorem setAnyJob {h : Nat} {f : Job → Job} : P (s.setJob h f) := K.fire hs

theorem coalesce {h : Nat} : P (s.coalesce h) := by
  unfold State.coalesce
  split
  · exact hs
  · refine keepIte (K.setAnyJob hs) ?_
    split
    · exact hs
    · exact keepIte hs (K.setAnyJob (K.apply hs))

theorem missed {h frame : Nat} : P (s.missed h frame) := by
  unfold State.missed
  split
  · exact hs
  · exact K.post (K.fire (K.miss (K.acc (K.accPart hs))))

theorem skipJob {n h trigger flags : Nat} : P (State.skipJob n h trigger flags s) := by
  induction n generalizing s h trigger flags with
  | zero => exact hs
  | succ n ih =>
    rw [State.skipJob]
    split
    · exact hs
    · exact keepIte hs (keepIte (K.coalesce hs) (keepFold (K.missed (K.putFiring (K.setAnyJob hs))) (fun _ _ ht => ih ht)))

theorem fireJob {h trigger flags : Nat} : P (s.fireJob h trigger flags) := by
  unfold State.fireJob
  split
  · exact hs
  · split
    · exact hs
    · exact keepIte hs (keepIte (K.coalesce hs) (keepIte (K.skipJob hs) (K.startPackets (K.accPart (K.bump (K.setAnyJob hs))))))

theorem completeFiring {h : Nat} : P (s.completeFiring h) := by
  unfold State.completeFiring
  split
  · exact hs
  · split
    · refine keepIte hs (keepFold ?_ (fun _ _ ht => K.fireJob ht))
      have hend : ∀ t u : State, P t → P u → ∀ m : Prop, ∀ [Decidable m], P (if m then t else u) := fun _ _ ht hu _ _ => keepIte ht hu
      refine hend _ _ (K.missed ?_) ?_ _ <;>
        exact K.accPart (K.setAnyJob (K.putFiring (K.bump (keepFold (K.reach (K.firingSync hs)) (fun _ _ ht => K.testPair ht)))))
    · exact hs

theorem fireEdgeJobs : P s.fireEdgeJobs := keepFold (K.fire hs) (fun _ _ ht => K.fireJob ht)

theorem inputReady {slot : Nat} : P (s.inputReady slot) := by
  refine keepFold hs (fun _ _ ht => ?_)
  split
  · exact ht
  · exact keepIte (keepIte (keepIte (K.setAnyJob (K.setAnyJob ht)) (K.setAnyJob ht)) (K.coalesce ht)) (keepIte (K.fireJob (K.setAnyJob ht)) (K.setAnyJob ht))

theorem lateFiring {h : Nat} : P (s.lateFiring h) := by
  unfold State.lateFiring
  split
  · exact hs
  · split
    · exact hs
    · exact keepIte hs (K.missed (K.setAnyJob (K.reach hs)))

theorem lateBefore {t : Nat} : P (s.lateBefore t) := keepFold hs (fun _ _ ht => K.lateFiring ht)

theorem trigLatest {h : Nat} : P (s.trigLatest h) := by
  unfold State.trigLatest
  split
  · exact hs
  · exact keepIte (K.fireJob (K.reach hs)) hs

theorem latestBefore {t : Nat} : P (s.latestBefore t) := keepFold hs (fun _ _ ht => K.trigLatest ht)

theorem readyAndFire {slot : Nat} : P (s.readyAndFire slot) := keepIte (K.inputReady (K.sampleReady (K.latestBefore hs))) (K.sampleReady (K.latestBefore hs))

end KeptByFirings

/-! ### Packets and their ends -/

namespace KeptBySettling

variable {P : State → Prop} (K : KeptBySettling P) {s : State} (hs : P s) {id : Nat} {c : Caller} {p : Sys2Proof.Packet}

include K hs

theorem active : P s.active := K.change hs

theorem addAccounts {e : StatsEntry} : P (s.addAccounts e) := K.change hs

theorem addRegion {r : Region} : ∀ x ∈ s.addRegion r, P x.1 := by
  intro x hx
  obtain ⟨h, -, rfl⟩ := Option.map_eq_some_iff.1 hx
  exact keepFst (K.zeroFill (K.bump (K.set hs)))

theorem setQueue {q : Nat} {f : CmdQueue → CmdQueue} : P (s.setQueue q f) := K.change hs

theorem setFunc {fn : Nat} {f : Func → Func} : P (s.setFunc fn f) := K.change hs

theorem adminWrite {fn off v : Nat} : P (s.adminWrite fn off v) := keepIte (K.setQueue (K.setFunc (K.active hs))) hs

theorem allocPages {c n home : Nat} {readOnly : Bool} : ∀ x ∈ s.allocPages c n home readOnly, P x.1 := by
  intro x hx
  unfold State.allocPages at hx
  dsimp only at hx
  split at hx
  · cases hx
  · cases hx
    exact K.mapPages (K.set (K.bump hs))

theorem endExcursion : P s.endExcursion := by
  unfold State.endExcursion
  split
  · exact hs
  · exact K.change hs

theorem beat {fn : Nat} : P (s.beat fn) := K.setFunc hs

theorem beatAll : P s.beatAll := K.change hs

theorem beatAtFetch {fn : Nat} {p : Sys2Proof.Packet} {code : Nat} : P (s.beatAtFetch fn p code) := keepIte (K.beat hs) hs

theorem logBoot {bank : Bool} : P (s.logBoot bank) := keepIte (K.logFault hs) (K.logFault (K.change (K.logFault hs)))

theorem stage {n : Nat} : P (s.stage n) := K.change hs

theorem bootBank {bank : Bool} : P (s.bootBank bank) := K.logBoot (K.stage (K.change hs))

theorem failBoot {reason : Nat} {fatal : Bool} : P (s.failBoot reason fatal) := K.change hs

theorem bootOther : P s.bootOther := K.bootBank (K.failBoot hs)

theorem capControl : P s.capControl := by
  unfold State.capControl
  extract_lets u p may v
  have hu : P u := keepIte hs (K.withdrawBoost hs)
  have hv : P v := K.change hu
  refine keepIte (K.capUp (K.endExcursion hv)) ?_
  split
  · exact keepIte hv (K.capDown (K.endExcursion hv))
  · exact keepIte (K.bump (K.change hv)) (K.capDown (K.bump hv))

theorem clearCause {key : Nat} : P (s.clearCause key) := K.change hs

theorem closeQueue {q : Nat} : P (s.closeQueue q) := by
  unfold State.closeQueue
  split
  · exact hs
  · split
    · exact hs
    · refine keepIte hs ?_
      split
      · exact keepIte hs (K.change hs)
      · exact keepIte (keepIte (K.finish hs) hs) (K.change (keepIte (K.finish hs) hs))

theorem closeQueues : P s.closeQueues := K.settleReclaims (keepFold hs (fun _ _ ht => K.closeQueue ht))

theorem closeSession {x : Nat} : P (s.closeSession x) := K.change hs

theorem closeSessions : P s.closeSessions := keepFold hs (fun _ _ ht => K.closeSession ht)

theorem freeFrames {fs : List Nat} : P (s.freeFrames fs) := keepFold hs (fun _ _ ht => keepFold (K.set (K.zeroFill ht)) (fun _ _ hu => K.retireFrame (K.set hu)))

theorem freeKv {h : Nat} {gone : Nat → KvPage → Bool} : P (s.freeKv h gone) := by
  unfold State.freeKv
  split
  · exact hs
  · exact K.freeFrames (keepFold (K.setSeq hs) (fun _ _ ht => K.set ht))

theorem commitTail {h keep : Nat} : P (s.commitTail h keep) := by
  unfold State.commitTail
  dsimp only
  split
  · exact K.setSeq hs
  · exact K.freeKv (K.setSeq hs)

theorem setPart {p : Nat} {f : Partition → Partition} : P (s.setPart p f) := K.change hs

theorem coresLost {cores : List Nat} : P (s.coresLost cores) := keepIte (K.failBoot (keepFold hs (fun _ _ ht => K.bootFence ht))) (keepFold hs (fun _ _ ht => K.bootFence ht))

theorem quenchWrite {q : Partition} {us : Nat} : P (s.quenchWrite q us) := by
  unfold State.quenchWrite
  dsimp only
  split
  · exact K.zeroFill (keepFold hs (fun _ _ ht => K.zeroFill ht))
  · exact K.zeroFill (keepFold hs (fun _ _ ht => K.zeroFill ht))

theorem countQuench {frameNs : Nat} : P (s.countQuench frameNs) := K.change (keepFold hs (fun _ _ ht => K.quenchWrite ht))

theorem countSpi : P s.countSpi := K.change hs

theorem deferOnRise : P s.deferOnRise := by
  unfold State.deferOnRise
  split
  · exact keepIte hs (keepIte (K.deferEvent (K.change hs)) (K.deferEvent hs))
  · exact hs

theorem settleKeys : P s.settleKeys := K.change hs

theorem destroySeq {h : Nat} : P (s.destroySeq h) := by
  unfold State.destroySeq
  split
  · exact hs
  · exact K.settleKeys (K.set (K.freeKv (K.finishOpt (K.finishOpt hs))))

theorem dispatch {body : Body} {id code : Nat} (hbody : ∀ id c p t, P t → P (body id c p t).1) : P (s.dispatch body id code p) := by
  unfold State.dispatch
  split
  · exact K.finishFull hs
  · exact hs
  · exact K.settleReply (hbody _ _ _ _ hs)

theorem unmapBase {c base : Nat} : P (s.unmapBase c base) := by
  unfold State.unmapBase
  split
  · exact hs
  · exact K.freeFrames (K.set hs)

theorem dropAlloc {c base : Nat} : P (s.dropAlloc c base) := K.change (keepFold (K.unmapBase hs) (fun _ _ ht => K.finishOpt ht))

theorem dropGrid {g : Nat} : P (s.dropGrid g) := K.resetScope (by decide) (K.set hs)

theorem dropObjects {c : Nat} : P (s.dropObjects c) := by
  unfold State.dropObjects
  exact keepFold (keepFold (keepFold (keepFold (keepFold hs (fun _ _ ht => K.settleStream (K.setStream ht))) (fun _ _ ht => keepIte ht (K.destroySeq ht))) (fun _ _ ht => keepIte ht (K.finishOpt (K.dropGrid ht)))) (fun _ _ ht => K.unloadLattice (K.endSearch ht))) (fun _ _ ht => K.dropMap ht)

theorem dropRegion {h : Nat} : P (s.dropRegion h) := K.zeroFill (K.set hs)

theorem dropSlot {k : Nat} : P (s.dropSlot k) := by
  unfold State.dropSlot
  split
  · exact hs
  · exact keepIte (K.zeroFill (K.set (K.markRing hs))) (K.set (K.markRing hs))

theorem setProc {code : Nat} {f : Processor → Processor} : P (s.setProc code f) := K.change hs

theorem takeCheckpoint {code : Nat} : P (s.takeCheckpoint code) := keepIte hs (K.setProc hs)

theorem edgeCheckpoints : P s.edgeCheckpoints := keepFold hs (fun _ _ ht => K.takeCheckpoint ht)

theorem edgeStop : P s.edgeStop := K.change hs

theorem takeOver {k : Nat} {r : Replacement} : P (s.takeOver k r) := keepIte (K.reportFence (K.set hs)) (K.logFault (K.post (K.set (K.setPart (K.set hs)))))

theorem takeOvers : P s.takeOvers := keepFold hs (fun _ _ ht => keepIte (K.takeOver ht) ht)

theorem startCount {p : Nat} {q : Partition} : P (s.startCount p q) := K.setPart hs

theorem nextTier2Part : P s.nextTier2Part := by
  unfold State.nextTier2Part
  refine keepIte hs ?_
  split
  · exact hs
  · exact K.startCount hs

theorem scrub {q : Partition} : P (s.scrub q) := by
  unfold State.scrub
  exact K.set (keepFold (keepFold hs (fun _ _ ht => K.setCore (K.zeroFill ht))) (fun _ _ ht => K.finishOpt (K.dropRegion ht)))

theorem startQuench {p fr : Nat} : P (s.startQuench p fr) := by
  unfold State.startQuench
  split
  · exact hs
  · exact keepIte (K.startCount (K.postPart (K.setPart (K.scrub (K.resetScope (by decide) hs))))) (K.postPart (K.setPart (K.scrub (K.resetScope (by decide) hs))))

theorem edgePart {fr p : Nat} : P (s.edgePart fr p) := by
  unfold State.edgePart
  split
  · exact hs
  · exact keepIte (K.postPart (K.setPart hs)) (keepIte (K.startQuench hs) hs)

theorem edgeParts {fr frameNs : Nat} : P (s.edgeParts fr frameNs) := K.nextTier2Part (keepFold (K.countQuench hs) (fun _ _ ht => K.edgePart ht))

theorem endActivation {status : Nat} : P (s.endActivation status) := by
  unfold State.endActivation
  split
  · exact keepIte hs (K.change (K.finishOpt hs))
  · exact hs

theorem vacate {part pos : Nat} : P (s.vacate part pos) := K.setPart hs

theorem fenceAt {core cause part pos : Nat} : P (s.fenceAt core cause part pos) := by
  unfold State.fenceAt
  exact keepIte (K.reportFence (K.stopBellows (K.loseObjects hs))) (keepIte (K.beginReplacement (K.stopBellows (K.loseObjects hs))) (K.reportFence (K.vacate (K.stopBellows (K.loseObjects hs)))))

theorem spareLost {k : Nat} {r : Replacement} {cause : Nat} : P (s.spareLost k r cause) := keepIte (K.reportFence (K.vacate (K.reportFence (K.set hs)))) (K.reportFence (K.reportFence (K.set hs)))

theorem fence {core cause : Nat} : P (s.fence core cause) := by
  unfold State.fence
  refine keepIte hs ?_
  dsimp only
  split
  · exact K.fenceAt (K.markFenced (K.failCore hs))
  · split
    · exact keepIte (K.spareLost (K.markFenced (K.failCore hs))) (K.reportFence (K.markFenced (K.failCore hs)))
    · exact K.reportFence (K.markFenced (K.failCore hs))

theorem endPairTest {t : PairTest} : P (s.endPairTest t) := by
  unfold State.endPairTest
  exact keepIte (keepIte (K.set (K.logFault (K.set hs))) (K.fence (K.set (K.logFault (K.set hs))))) (keepIte (keepIte (K.logFault (K.set hs)) (K.fence (K.logFault (K.set hs)))) (K.fence (keepIte (K.logFault (K.set hs)) (K.fence (K.logFault (K.set hs))))))

theorem endPairTests : P s.endPairTests := keepFold hs (fun _ _ ht => K.endPairTest ht)

theorem endSwitch : P s.endSwitch := keepFold (K.setProc (K.change hs)) (fun _ _ ht => K.refillCluster ht)

theorem evictModel {h : Nat} {m : Model} : P (s.evictModel h m) := K.post (K.change (K.unmapBase hs))

theorem restore {p : Processor} : P (s.restore p) := keepIte hs (K.change hs)

theorem pauseQuench : P s.pauseQuench := K.change hs

theorem procLost {code : Nat} {held : Bool} : P (s.procLost code held) := keepIte (K.closeSessions hs) (keepIte hs (keepIte (K.pauseQuench (K.mapClusters hs)) (K.pauseQuench hs)))

theorem expire {code : Nat} : P (s.expire code) := by
  unfold State.expire
  exact K.logFault (keepIte (K.procLost (K.setProc (K.restore hs))) (K.post (K.count (K.procLost (K.setProc (K.restore hs))))))

theorem haltQueue {q : Nat} : P (s.haltQueue q) := by
  unfold State.haltQueue
  split
  · exact hs
  · exact keepIte hs (K.post (K.setQueue hs))

theorem newFlight {p : Sys2Proof.Packet} {code : Nat} : P (s.newFlight p code).1 := by
  unfold State.newFlight
  extract_lets n
  split
  extract_lets f u a b stats
  have hu : P u := K.change hs
  exact keepFst (K.set hu)

theorem take {c : CmdQueue} {code : Nat} {p : Sys2Proof.Packet} : P (s.take c code p).1 := keepIteFst (K.setFunc (K.beatAtFetch hs)) (K.newFlight (K.beatAtFetch hs))

theorem fetchFrom {q : Nat} {c : CmdQueue} : P (s.fetchFrom q c) := by
  unfold State.fetchFrom
  split
  extract_lets len u
  have hu : P u := K.setQueue (K.active hs)
  refine keepIte (K.haltQueue hs) ?_
  split
  · exact keepPair ‹_› (K.take hu)
  · rename_i t id htake
    have ht : P t := keepPair htake (K.take hu)
    refine keepIte ht ?_
    split
    · exact K.finishFull ht
    · exact ht

theorem freeContext {c : Nat} : P (s.freeContext c) := by
  unfold State.freeContext
  exact K.resetScope (by decide) (K.change (keepFold (keepFold hs (fun _ _ ht => K.finishOpt (K.dropAlloc ht))) (fun _ _ ht => K.finishOpt (K.dropRegion ht))))

theorem fromStage1 {r : Sys2Proof.BootReport} : P (s.fromStage1 r) := by
  unfold State.fromStage1
  split
  · exact keepIte (K.bootBank hs) (keepIte (K.bootOther hs) (K.logBoot (K.failBoot hs)))
  · exact keepIte (K.bootBank hs) (keepIte (K.bootOther hs) (K.logBoot (K.failBoot hs)))
  · exact keepIte (K.bootBank hs) (keepIte (K.bootOther hs) (K.logBoot (K.failBoot hs)))
  · exact hs

theorem teardownNow {fn keep : Nat} : P (s.teardownNow fn keep) := K.settleKeys (K.set (K.setFunc (keepFold hs (fun _ _ ht => K.stopOp ht))))

theorem teardown {fn keep : Nat} : P (s.teardown fn keep) := by
  unfold State.teardown
  dsimp only
  refine K.change ?_
  refine keepFold (K.set (K.teardownNow hs)) (fun _ _ ht => ?_)
  split
  · exact keepIte (K.finish ht) ht
  · exact ht

theorem writeCompletion {f : Finished} : P (s.writeCompletion f) := by
  unfold State.writeCompletion
  split
  · exact keepIte (keepFold (K.emit hs) (fun _ _ ht => K.emit ht)) hs
  · exact hs
  · split
    · exact hs
    · exact keepIte (K.raise (K.setQueue (K.apply (K.apply hs)))) (K.setQueue (K.apply (K.apply hs)))

theorem helloEffect : P (helloEffect id c p s).1 := by
  unfold Machine.helloEffect
  split
  · exact hs
  · refine keepIteFst hs ?_
    refine keepIteFst ?_ (K.bump (K.setFunc (keepIte (K.teardown hs) hs)))
    split
    · exact K.bump (K.setFunc (keepIte (K.teardown hs) hs))
    · exact K.post (K.writeCompletion (K.set (K.bump (K.setFunc (keepIte (K.teardown hs) hs)))))

theorem helloBody : P (helloBody id c p s).1 := keepChecked hs (fun _ _ _ _ ht => K.helloEffect ht)

theorem teardownLive {fn keep : Nat} : P (s.teardownLive fn keep) := keepFold (K.teardownNow hs) (fun _ _ ht => K.setQueue ht)

theorem reclaimLive {id fn : Nat} : P (s.reclaimLive id fn) := K.closeQueues (K.setFlight (K.bump (K.setFunc (K.teardownLive hs))))

theorem writeHeld {f : Finished} : P (s.writeHeld f) := keepIte (K.writeCompletion hs) (K.set hs)

theorem reclaimAccept {id fn : Nat} {p : Sys2Proof.Packet} {resume : Bool} : P (s.reclaimAccept id fn p resume) := by
  unfold State.reclaimAccept
  exact K.post (keepFold (K.closeQueues (keepIte (keepFold (K.dropFlight (K.writeCompletion (K.bump (K.setFunc (keepIte (K.set hs) (K.teardown hs)))))) (fun _ _ ht => K.writeHeld ht)) (K.dropFlight (K.writeCompletion (K.bump (K.setFunc (keepIte (K.set hs) (K.teardown hs)))))))) (fun _ _ ht => K.reportLost ht))

theorem reclaimBody : P (reclaimBody id c p s).1 := by
  unfold Machine.reclaimBody
  dsimp only
  split
  · exact keepIteFst (K.dropFlight (K.setFunc hs)) hs
  · exact keepIteFst (keepIteFst hs (K.reclaimLive hs)) (keepIteFst hs (K.reclaimAccept hs))

theorem parkBody : P (parkBody id c p s).1 := keepChecked hs (fun _ _ _ _ ht => K.change ht)

theorem unparkBody : P (unparkBody id c p s).1 := keepChecked hs (fun _ _ _ _ ht => K.endActivation (K.change ht))

theorem queueCreateEffect : P (queueCreateEffect id c p s).1 := by
  unfold Machine.queueCreateEffect
  split
  · exact hs
  · exact K.bump (K.change hs)

theorem queueCreateBody : P (queueCreateBody id c p s).1 := keepChecked hs (fun _ _ _ _ ht => K.queueCreateEffect ht)

theorem queueDestroyEffect : P (queueDestroyEffect id c p s).1 := by
  unfold Machine.queueDestroyEffect
  split
  · exact hs
  · exact keepIteFst hs (K.closeQueue (K.setQueue (K.setFlight hs)))

theorem queueDestroyBody : P (queueDestroyBody id c p s).1 := keepChecked hs (fun _ _ _ _ ht => K.queueDestroyEffect ht)

theorem queueResetEffect : P (queueResetEffect id c p s).1 := K.setQueue hs

theorem queueResetBody : P (queueResetBody id c p s).1 := keepChecked hs (fun _ _ _ _ ht => K.queueResetEffect ht)

theorem writeWord {kind id off v : Nat} : P (s.writeWord kind id off v) := by
  unfold State.writeWord
  split
  · next hlive =>
    have hkind : kind ≠ 0 := by
      rintro rfl
      simp [liveWord] at hlive
    exact K.enableSlot (K.setActive hkind (K.setShadow hs))
  · exact K.setShadow hs

theorem writeWordsFrom {kind id off : Nat} {l : List Nat} : P (Machine.writeWordsFrom kind id off l s) := by
  induction l generalizing s off with
  | nil => exact hs
  | cons v r ih => exact ih (K.writeWord hs)

theorem configWriteEffect : P (configWriteEffect id c p s).1 := keepIteFst hs (K.writeWordsFrom hs)

theorem configWriteBody : P (configWriteBody id c p s).1 := keepChecked hs (fun _ _ _ _ ht => K.configWriteEffect ht)

theorem configCommitEffect : P (configCommitEffect id c p s).1 := K.commit hs

theorem configCommitBody : P (configCommitBody id c p s).1 := keepChecked hs (fun _ _ _ _ ht => K.configCommitEffect ht)

theorem statsStreamEffect : P (statsStreamEffect id c p s).1 := by
  unfold Machine.statsStreamEffect
  split
  · exact hs
  · exact K.change hs

theorem statsStreamBody : P (statsStreamBody id c p s).1 := keepChecked hs (fun _ _ _ _ ht => K.statsStreamEffect ht)

theorem provide {id prio : Nat} {own : Option Nat} {need : Halves} : (s.provide id prio own need).Leaves P := by
  unfold State.provide
  split
  · exact hs
  · split
    · exact hs
    · split
      · exact hs
      · extract_lets coming m v t u
        have hu : P u := keepFold (keepFold hs (fun _ _ ht => K.evictModel ht)) (fun _ _ ht => K.preempt ht)
        split
        · exact hs
        · split
          · trivial
          · split
            · exact hu
            · exact hu

theorem regionAllocEffect : P (regionAllocEffect id c p s).1 := by
  unfold Machine.regionAllocEffect
  refine keepIteFst hs ?_
  refine keepIteFst ?_ ?_
  · refine keepIteFst hs ?_
    split
    · exact keepSomePair ‹_› (K.addRegion hs)
    · exact hs
  · refine keepIteFst ?_ ?_
    · refine keepIteFst hs ?_
      split
      · exact keepSomePair ‹_› (K.addRegion hs)
      · exact hs
    · refine keepIteFst hs ?_
      split
      · exact hs
      · exact keepWait ‹_› (K.provide hs)
      · split
        · exact keepSomePair ‹_› (K.allocPages (keepReady ‹_› (K.provide hs)))
        · exact hs

theorem regionAllocBody : P (regionAllocBody id c p s).1 := keepChecked hs (fun _ _ _ _ ht => K.regionAllocEffect ht)

theorem settleFrees : P s.settleFrees := keepFold (keepFold hs (fun _ _ ht => K.finishOpt (K.dropRegion ht))) (fun _ _ ht => K.finishOpt (K.dropAlloc ht))

theorem regionFreeEffect : P (regionFreeEffect id c p s).1 := K.settleFrees (keepIte (K.set (K.setFlight hs)) (K.set (K.setFlight hs)))

theorem regionFreeBody : P (regionFreeBody id c p s).1 := keepChecked hs (fun _ _ _ _ ht => K.regionFreeEffect ht)

theorem useModel {c addr : Nat} : P (s.useModel c addr) := K.change hs

theorem bellowsStartEffect : P (bellowsStartEffect id c p s).1 := by
  unfold Machine.bellowsStartEffect
  dsimp only
  split
  · exact hs
  · exact keepIteFst hs (keepIteFst hs (keepIteFst hs (K.useModel (K.useModel (K.set hs)))))

theorem bellowsStartBody : P (bellowsStartBody id c p s).1 := keepChecked hs (fun _ _ _ _ ht => K.bellowsStartEffect ht)

theorem useSeq {h : Nat} : P (s.useSeq h) := K.change (K.setSeq hs)

theorem runKv {id part h : Nat} {w : Work} {bad : Option (Store × Nat)} : P (s.runKv id part h w bad).1 := K.begin_ (K.useSeq hs)

theorem attentionEffect : P (attentionEffect id c p s).1 := by
  unfold Machine.attentionEffect
  dsimp only
  split
  · exact hs
  · exact hs
  · refine keepIteFst hs ?_
    refine keepIteFst hs ?_
    refine keepIteFst hs ?_
    refine keepIteFst hs ?_
    refine keepIteFst hs ?_
    refine keepIteFst hs ?_
    refine keepIteFst hs ?_
    split
    · exact hs
    · exact hs
    · exact hs
    · refine keepIteFst hs ?_
      refine keepIteFst (K.useSeq hs) ?_
      split
      · exact hs
      · refine keepIteFst hs ?_
        refine keepIteFst hs ?_
        split
        · exact hs
        · exact K.runKv hs

theorem attentionBody : P (attentionBody id c p s).1 := keepCheckedSeq hs (fun _ _ _ _ ht => K.attentionEffect ht)

theorem backwardEffect : P (backwardEffect id c p s).1 := by
  unfold Machine.backwardEffect
  dsimp only
  split
  · exact hs
  · exact hs
  · refine keepIteFst hs ?_
    refine keepIteFst hs ?_
    refine keepIteFst hs ?_
    refine keepIteFst hs ?_
    refine keepIteFst hs ?_
    refine keepIteFst hs ?_
    split
    · exact hs
    · exact hs
    · exact hs
    · exact hs
    · refine keepIteFst (K.useSeq hs) ?_
      split
      · exact hs
      · refine keepIteFst hs ?_
        refine keepIteFst hs ?_
        split
        · exact hs
        · exact K.runKv hs

theorem backwardBody : P (backwardBody id c p s).1 := keepCheckedSeq hs (fun _ _ _ _ ht => K.backwardEffect ht)

theorem ptCreateEffect : P (ptCreateEffect id c p s).1 := by
  unfold Machine.ptCreateEffect
  refine keepIteFst hs ?_
  split
  · exact hs
  · exact K.useSeq (K.bump (K.set hs))

theorem ptCreateBody : P (ptCreateBody id c p s).1 := keepChecked hs (fun _ _ _ _ ht => K.ptCreateEffect ht)

theorem ptDestroyEffect : P (ptDestroyEffect id c p s).1 := keepIteFst hs (K.destroySeq hs)

theorem ptDestroyBody : P (ptDestroyBody id c p s).1 := keepCheckedSeq hs (fun _ _ _ _ ht => K.ptDestroyEffect ht)

theorem kvAppendEffect : P (kvAppendEffect id c p s).1 := by
  unfold Machine.kvAppendEffect
  dsimp only
  split
  · exact hs
  · exact hs
  · refine keepIteFst hs ?_
    refine keepIteFst hs ?_
    refine keepIteFst hs ?_
    refine keepIteFst hs ?_
    refine keepIteFst hs ?_
    refine keepIteFst hs ?_
    split
    · exact hs
    · split
      · exact hs
      · exact hs
      · exact hs
      · refine keepIteFst hs ?_
        refine keepIteFst hs ?_
        refine keepIteFst hs ?_
        refine keepIteFst hs ?_
        split
        · exact hs
        · exact keepIteFst hs (keepWait ‹_› (K.provide hs))
        · exact K.appendWork (K.useSeq (K.addKvPages (keepReady ‹_› (K.provide hs))))

theorem kvAppendBody : P (kvAppendBody id c p s).1 := keepCheckedSeq hs (fun _ _ _ _ ht => K.kvAppendEffect ht)

theorem verifyEffect : P (verifyEffect id c p s).1 := by
  unfold Machine.verifyEffect
  dsimp only
  split
  · exact hs
  · refine keepIteFst hs ?_
    refine keepIteFst hs ?_
    refine keepIteFst (K.useSeq hs) ?_
    refine keepIteFst hs ?_
    refine keepIteFst (K.commitTail (K.useSeq hs)) ?_
    split
    · exact hs
    · refine keepIteFst hs ?_
      refine keepIteFst hs ?_
      refine keepIteFst hs ?_
      split
      · exact hs
      · exact hs
      · exact hs
      · refine keepIteFst hs ?_
        refine keepIteFst hs ?_
        split
        · exact keepFst (K.reread hs)
        · exact K.commitTail (K.useSeq hs)

theorem verifyBody : P (verifyBody id c p s).1 := keepCheckedSeq hs (fun _ _ _ _ ht => K.verifyEffect ht)

theorem startSwap {h : Nat} : P (s.startSwap h) := by
  unfold State.startSwap
  split
  · exact hs
  · exact keepIte hs (K.swapDone (K.freeKv (K.setSeq hs)))

theorem seqPreemptEffect : P (seqPreemptEffect id c p s).1 := by
  unfold Machine.seqPreemptEffect
  dsimp only
  split
  · exact hs
  · exact keepIteFst hs (keepIteFst hs (keepIteFst hs (keepIteFst hs (K.swapDone (K.startSwap (K.setSeq (keepIte (K.preempt (K.setFlight (K.useSeq hs))) (K.setFlight (K.useSeq hs)))))))))

theorem seqPreemptBody : P (seqPreemptBody id c p s).1 := keepCheckedSeq hs (fun _ _ _ _ ht => K.seqPreemptEffect ht)

theorem seqResumeEffect : P (seqResumeEffect id c p s).1 := by
  unfold Machine.seqResumeEffect
  dsimp only
  split
  · exact hs
  · refine keepIteFst hs ?_
    refine keepIteFst hs ?_
    refine keepIteFst hs ?_
    refine keepIteFst hs ?_
    split
    · exact hs
    · exact keepWait ‹_› (K.provide hs)
    · exact keepIteFst (K.setSeq (K.set (K.useSeq (keepReady ‹_› (K.provide hs))))) (K.setSeq (K.set (K.useSeq (keepReady ‹_› (K.provide hs)))))

theorem seqResumeBody : P (seqResumeBody id c p s).1 := keepCheckedSeq hs (fun _ _ _ _ ht => K.seqResumeEffect ht)

theorem slotConfigEffect : P (slotConfigEffect id c p s).1 := by
  unfold Machine.slotConfigEffect
  exact keepIteFst (K.dropSlot hs) (keepIteFst hs (keepIteFst hs (keepIteFst hs (keepIteFst hs (K.markRing (K.set (K.dropSlot hs)))))))

theorem slotConfigBody : P (slotConfigBody id c p s).1 := keepChecked hs (fun _ _ _ _ ht => K.slotConfigEffect ht)

theorem calibWriteEffect : P (calibWriteEffect id c p s).1 := keepIteFst hs (K.writeWordsFrom hs)

theorem calibWriteBody : P (calibWriteBody id c p s).1 := by
  unfold Machine.calibWriteBody
  split
  · exact keepIte (K.rereadT2 hs) hs
  · exact K.calibWriteEffect hs

theorem gridCreateEffect : P (gridCreateEffect id c p s).1 := by
  unfold Machine.gridCreateEffect
  dsimp only
  split
  · exact hs
  · exact K.set (keepFold (K.resetScope (by decide) (K.bump hs)) (fun _ _ ht => K.setActive (by decide) (K.setShadow ht)))

theorem gridCreateBody : P (gridCreateBody id c p s).1 := keepChecked hs (fun _ _ _ _ ht => K.gridCreateEffect ht)

theorem gridDestroyEffect : P (gridDestroyEffect id c p s).1 := keepIteFst (K.setGrid hs) (K.dropGrid hs)

theorem gridDestroyBody : P (gridDestroyBody id c p s).1 := keepChecked hs (fun _ _ _ _ ht => K.gridDestroyEffect ht)

theorem latticeLoadBody : P (latticeLoadBody id c p s).1 := by
  unfold Machine.latticeLoadBody
  refine keepIteFst hs ?_
  refine keepIteFst hs ?_
  split
  · exact hs
  · refine keepIteFst hs ?_
    refine keepIteFst hs ?_
    split
    · exact keepIte (K.rereadT2 hs) hs
    · exact hs
    · exact keepIteFst hs (K.writeHeader (K.accPart (K.set (K.zeroFill (K.bump (K.apply hs))))))

theorem ctxCreateEffect : P (ctxCreateEffect id c p s).1 := by
  unfold Machine.ctxCreateEffect
  dsimp only
  split
  · exact hs
  · exact K.resetScope (by decide) (K.change (K.bump hs))

theorem ctxCreateBody : P (ctxCreateBody id c p s).1 := keepChecked hs (fun _ _ _ _ ht => K.ctxCreateEffect ht)

theorem setCtx {c : Nat} {f : Context → Context} : P (s.setCtx c f) := K.change hs

theorem settleDrain {p : Nat} : P (s.settleDrain p) := by
  unfold State.settleDrain
  split
  · exact hs
  · exact keepIte hs (K.setPart (keepFold (keepFold hs (fun _ _ ht => K.rehome ht)) (fun _ _ ht => K.resetScope (by decide) (K.emptyChannel ht))))

theorem releasePart {p : Nat} {flight : Option Nat} {ofDestroy : Bool} : P (s.releasePart p flight ofDestroy) := by
  unfold State.releasePart
  split
  · exact hs
  · exact K.settleDrain (keepFold (keepFold (keepFold (K.postPart (K.setPart hs)) (fun _ _ ht => K.endBellows ht)) (fun _ _ ht => K.unloadLattice (K.endSearch ht))) (fun _ _ ht => K.stopFlight ht))

theorem settleDestroy {c : Nat} : P (s.settleDestroy c) := by
  unfold State.settleDestroy
  split
  · exact hs
  · refine keepIte ?_ ?_
    · refine K.finish (K.freeContext ?_)
      split
      · exact keepIte (K.releasePart (K.closeQueues (K.dropObjects hs))) (K.settleDrain (K.closeQueues (K.dropObjects hs)))
      · exact K.closeQueues (K.dropObjects hs)
    · split
      · exact keepIte (K.releasePart (K.closeQueues (K.dropObjects hs))) (K.settleDrain (K.closeQueues (K.dropObjects hs)))
      · exact K.closeQueues (K.dropObjects hs)

theorem ctxDestroyEffect : P (ctxDestroyEffect id c p s).1 := by
  unfold Machine.ctxDestroyEffect
  extract_lets n u v proto w
  have hv : P v := K.dropObjects (K.setCtx (K.setFlight hs))
  clear_value v
  have hw : P w := K.change hv
  clear_value w
  exact K.settleDestroy hw

theorem ctxDestroyBody : P (ctxDestroyBody id c p s).1 := keepChecked hs (fun _ _ _ _ ht => K.ctxDestroyEffect ht)

theorem partitionCreateEffect : P (partitionCreateEffect id c p s).1 := by
  unfold Machine.partitionCreateEffect
  extract_lets n
  split
  · exact hs
  · extract_lets u v
    have hu : P u := K.resetScope (by decide) (K.change (K.bump hs))
    have hv : P v := keepIte (K.wakeClusters (K.endActivation hu)) hu
    exact K.postPart hv

theorem partitionCreateBody : P (partitionCreateBody id c p s).1 := keepChecked hs (fun _ _ _ _ ht => K.partitionCreateEffect ht)

theorem partitionReleaseEffect : P (partitionReleaseEffect id c p s).1 := K.releasePart (K.setFlight hs)

theorem partitionReleaseBody : P (partitionReleaseBody id c p s).1 := keepChecked hs (fun _ _ _ _ ht => K.partitionReleaseEffect ht)

theorem jobArmEffect : P (Machine.jobArmEffect id c p s).1 := by
  unfold Machine.jobArmEffect
  extract_lets n
  split
  · exact K.bump (K.addJob rfl hs)
  · exact hs

theorem jobArmBody : P (jobArmBody id c p s).1 := by
  unfold Machine.jobArmBody
  refine keepIteFst hs ?_
  split
  · exact keepIte (K.rereadT2 hs) hs
  · exact K.jobArmEffect hs

theorem modelRegisterEffect : P (modelRegisterEffect id c p s).1 := by
  unfold Machine.modelRegisterEffect
  refine keepIteFst hs ?_
  split
  · exact hs
  · exact keepWait ‹_› (K.provide hs)
  · split
    · exact K.setFlight (K.change (keepSomePair ‹_› (K.allocPages (K.bump (keepReady ‹_› (K.provide hs))))))
    · exact hs

theorem modelRegisterBody : P (modelRegisterBody id c p s).1 := keepChecked hs (fun _ _ _ _ ht => K.modelRegisterEffect ht)

theorem modelPinEffect : P (modelPinEffect id c p s).1 := by
  unfold Machine.modelPinEffect
  dsimp only
  split
  · exact hs
  · refine keepIteFst hs ?_
    refine keepIteFst (K.change hs) ?_
    split
    · exact hs
    · refine keepIteFst hs ?_
      refine keepIteFst hs ?_
      split
      · exact hs
      · exact keepWait ‹_› (K.provide hs)
      · exact K.change (K.mapPages (keepReady ‹_› (K.provide hs)))

theorem modelPinBody : P (modelPinBody id c p s).1 := keepChecked hs (fun _ _ _ _ ht => K.modelPinEffect ht)

theorem modelUnpinEffect : P (modelUnpinEffect id c p s).1 := by
  unfold Machine.modelUnpinEffect
  dsimp only
  split
  · exact hs
  · exact keepIteFst (K.change hs) hs

theorem modelUnpinBody : P (modelUnpinBody id c p s).1 := keepChecked hs (fun _ _ _ _ ht => K.modelUnpinEffect ht)

theorem setBank {b : Bool} {f : Bank → Bank} : P (s.setBank b f) := K.change hs

theorem fwStageEffect : P (fwStageEffect id c p s).1 := by
  unfold Machine.fwStageEffect
  extract_lets off n fl b u v w fw x img y
  have hv : P v := keepIte (K.setBank (K.flushLog hs)) (K.setBank (K.flushLog hs))
  have hw : P w := K.setBank hv
  have hx : P x := K.change hw
  refine keepIteFst hs (keepIteFst hx ?_)
  split
  · exact hx
  · exact keepFst (K.change (K.setBank hx))

theorem fwStageBody : P (fwStageBody id c p s).1 := keepChecked hs (fun _ _ _ _ ht => K.fwStageEffect ht)

theorem activateEffect : P (activateEffect id c p s).1 := keepIteFst (K.deferEvent (K.change hs)) (K.change hs)

theorem activateBody : P (activateBody id c p s).1 := keepChecked hs (fun _ _ _ _ ht => K.activateEffect ht)

theorem keyRotateEffect : P (keyRotateEffect id c p s).1 := by
  unfold Machine.keyRotateEffect
  dsimp only
  split
  · exact hs
  · exact K.bump (K.setCtx hs)

theorem keyRotateBody : P (keyRotateBody id c p s).1 := keepChecked hs (fun _ _ _ _ ht => K.keyRotateEffect ht)

theorem retireKeyEffect : P (retireKeyEffect id c p s).1 := by
  unfold Machine.retireKeyEffect
  dsimp only
  split
  · exact hs
  · exact keepIteFst hs (keepIteFst hs (keepIteFst hs (keepIteFst (K.post (K.setCtx hs)) (keepIteFst (K.post (K.setCtx hs)) hs))))

theorem retireKeyBody : P (retireKeyBody id c p s).1 := keepChecked hs (fun _ _ _ _ ht => K.retireKeyEffect ht)

theorem bodyLow {code : Nat} {body : Body} (h : Machine.bodyLow code = some body) : P (body id c p s).1 := by
  unfold Machine.bodyLow at h
  split at h
  all_goals cases h
  · exact K.helloBody hs
  · exact K.heartbeatBody hs
  · exact K.reclaimBody hs
  · exact K.deviceInfoBody hs
  · exact K.nopBody hs
  · exact K.parkBody hs
  · exact K.unparkBody hs
  · exact K.queueCreateBody hs
  · exact K.queueDestroyBody hs
  · exact K.queueResetBody hs
  · exact K.eqCreateBody hs
  · exact K.eqDestroyBody hs
  · exact K.eventSubscribeBody hs
  · exact K.configWriteBody hs
  · exact K.configReadBody hs
  · exact K.configCommitBody hs
  · exact K.timeReadBody hs
  · exact K.statsStreamBody hs
  · exact K.matmulBody hs
  · exact K.vectorBody hs
  · exact K.reduceBody hs
  · exact K.moveBody hs
  · exact K.tileMoveBody hs
  · exact K.regionAllocBody hs
  · exact K.regionFreeBody hs
  · exact K.bellowsStartBody hs
  · exact K.bellowsStopBody hs

theorem bodyMid {code : Nat} {body : Body} (h : Machine.bodyMid code = some body) : P (body id c p s).1 := by
  unfold Machine.bodyMid at h
  split at h
  all_goals cases h
  · exact K.attentionBody hs
  · exact K.backwardBody hs
  · exact K.ptCreateBody hs
  · exact K.ptDestroyBody hs
  · exact K.kvAppendBody hs
  · exact K.verifyBody hs
  · exact K.seqPreemptBody hs
  · exact K.seqResumeBody hs
  · exact K.poolBody hs
  · exact K.streamStartBody hs
  · exact K.streamPauseBody hs
  · exact K.streamResumeBody hs
  · exact K.streamEndBody hs
  · exact K.chunkBody hs
  · exact K.stateExportBody hs
  · exact K.stateImportBody hs
  · exact K.reAnchorBody hs
  · exact K.stateSwapOutBody hs
  · exact K.convBody hs
  · exact K.poolOpBody hs
  · exact K.cropBody hs
  · exact K.slotConfigBody hs
  · exact K.calibWriteBody hs
  · exact K.gridCreateBody hs
  · exact K.gridDestroyBody hs
  · exact K.gridProjectBody hs
  · exact K.streamHealthBody hs

theorem bodyHigh {code : Nat} {body : Body} (h : Machine.bodyHigh code = some body) : P (body id c p s).1 := by
  unfold Machine.bodyHigh at h
  split at h
  all_goals cases h
  · exact K.factorBody hs
  · exact K.triBody hs
  · exact K.qpSetupBody hs
  · exact K.qpSolveBody hs
  · exact K.latticeLoadBody hs
  · exact K.mapPublishBody hs
  · exact K.planSearchBody hs
  · exact K.planAbortBody hs
  · exact K.ctxCreateBody hs
  · exact K.ctxDestroyBody hs
  · exact K.partitionCreateBody hs
  · exact K.partitionReleaseBody hs
  · exact K.jobArmBody hs
  · exact K.jobDisarmBody hs
  · exact K.modelRegisterBody hs
  · exact K.modelPinBody hs
  · exact K.modelUnpinBody hs
  · exact K.accountReadBody hs
  · exact K.fwStageBody hs
  · exact K.activateBody hs
  · exact K.fwStatusBody hs
  · exact K.keyRotateBody hs
  · exact K.retireKeyBody hs
  · exact K.keyStatusBody hs
  · exact K.powerReadBody hs
  · exact K.faultLogExportBody hs
  · exact K.errorCountsBody hs

theorem bodyOf {code : Nat} {body : Body} (h : Machine.bodyOf code = some body) : P (body id c p s).1 := by
  unfold Machine.bodyOf at h
  split at h
  · exact K.bodyLow hs h
  · split at h
    · exact K.bodyMid hs h
    · exact K.bodyHigh hs h

theorem retryOne {id : Nat} : P (s.retryOne id) := by
  unfold State.retryOne
  split
  · exact hs
  · split
    · split
      · next hbody => exact K.dispatch hs (fun _ _ _ _ ht => K.bodyOf ht hbody)
      · exact hs
    · exact hs

theorem retryParked : P s.retryParked := keepFold hs (fun _ _ ht => K.retryOne ht)

theorem settleLeaving : P s.settleLeaving := keepFold (keepFold hs (fun _ _ ht => K.settleDrain ht)) (fun _ _ ht => K.settleDestroy ht)

theorem settleJobs : P s.settleJobs := by
  refine keepFold hs (fun _ _ ht => ?_)
  split
  · exact keepIte (K.finish (K.dropJob ht)) ht
  · exact ht

theorem settleGrids : P s.settleGrids := by
  unfold State.settleGrids
  refine keepFold hs (fun _ _ ht => ?_)
  split
  · exact keepIte ht (K.finish (K.dropGrid ht))
  · exact ht

theorem settleSeqs : P s.settleSeqs := keepFold hs (fun _ _ ht => K.startSwap ht)

theorem settlePlaced : P s.settlePlaced := by
  unfold State.settlePlaced
  refine keepFold hs (fun _ _ ht => ?_)
  dsimp only
  refine K.finishFull (K.unhold (K.apply ?_))
  split
  · exact K.reach ht
  · exact ht

theorem settle : P s.settle := by
  unfold State.settle
  exact K.retryParked (K.settleLeaving (K.settleStops (K.settleFirings (K.settleJobs (K.settleKeys (K.settleGrids (K.settleBellows (K.settleFrees (K.settleStreams (K.settleSeqs (K.settleSearches (K.settleAppends (K.settlePlaced hs)))))))))))))

theorem hostReady : P s.hostReady := K.bump (K.stage (K.change hs))

theorem fromStage3 {r : Sys2Proof.BootReport} : P (s.fromStage3 r) := by
  unfold State.fromStage3
  split
  · exact K.settle (K.hostReady hs)
  · exact K.failBoot hs
  · exact K.coresLost hs
  · exact K.failBoot (K.change hs)
  · exact hs

theorem fromStage4 {r : Sys2Proof.BootReport} : P (s.fromStage4 r) := by
  unfold State.fromStage4
  split
  · exact K.settle (K.stage hs)
  · exact K.settle (K.stage (K.change (K.failBoot hs)))
  · exact hs

theorem serve {q : Nat} {c : CmdQueue} {cr : List Nat} : P (s.serve q c cr) := K.change hs

theorem holdCompletion {fn : Nat} {f : Finished} : P (s.holdCompletion fn f) := K.set (K.setFunc hs)

theorem latchStop {request heartbeat : Bool} : P (s.latchStop request heartbeat) := K.change hs

theorem linkReset {link : Nat} {perst : Bool} : P (s.linkReset link perst) := K.change hs

theorem loadDone {h : Nat} : P (s.loadDone h) := by
  unfold State.loadDone
  split
  · exact hs
  · refine keepIte hs ?_
    dsimp only
    split
    · exact K.dropAlloc (K.finishOpt hs)
    · exact K.finishOpt (K.change (K.placeImage hs))

theorem loadJtag {ir : Option Sys2Proof.JtagInstr} {data : Nat} : P (s.loadJtag ir data) := K.change hs

theorem measure {d mw : Nat} {rails : List Nat} : P (s.measure d mw rails) := by
  unfold State.measure
  extract_lets t p m r e u
  have hu : P u := K.change hs
  exact K.acc hu

theorem procBack {code : Nat} : P (s.procBack code) := K.setProc hs

theorem setLevel {new : Nat} : P (s.setLevel new) := by
  unfold State.setLevel
  exact K.settle (K.respond (keepIte (K.pauseQuench (keepIte (K.endExcursion (keepIte (K.deferOnRise (K.acc (K.post (K.change hs)))) (K.acc (K.post (K.change hs))))) (keepIte (K.deferOnRise (K.acc (K.post (K.change hs)))) (K.acc (K.post (K.change hs)))))) (keepIte (K.endExcursion (keepIte (K.deferOnRise (K.acc (K.post (K.change hs)))) (K.acc (K.post (K.change hs))))) (keepIte (K.deferOnRise (K.acc (K.post (K.change hs)))) (K.acc (K.post (K.change hs)))))))

theorem relevel : P s.relevel := keepIte hs (K.setLevel hs)

theorem settleDeferral : P s.settleDeferral := by
  unfold State.settleDeferral
  split
  · exact keepIte (K.change hs) hs
  · exact hs

theorem raiseCause {key level : Nat} : P (s.raiseCause key level) := K.change (K.settleDeferral hs)

theorem raiseAll {l : List (Nat × Nat × Bool)} : P (s.raiseAll l) := K.relevel (keepFold hs (fun _ _ ht => keepIte (K.raiseCause ht) ht))

theorem reclaimed {f : Finished} : P (s.reclaimed f) := by
  unfold State.reclaimed
  refine keepIte ?_ hs
  split
  · exact K.post (K.setFunc hs)
  · exact hs

theorem resumeFail {h : Nat} {q : Seq} {status : Nat} : P (s.resumeFail h q status) := K.finishOpt (K.freeFrames (K.setSeq hs))

theorem retireDesc {core : Nat} {d : Desc} {mem : Sys2Proof.MemOutcome} : P (s.retireDesc core d mem) := by
  unfold State.retireDesc
  dsimp only
  split
  · refine K.settle ?_
    split
    · exact K.windowRead (K.releaseTag (K.failWork (K.descMet hs)))
    · exact K.releaseTag (K.failWork (K.descMet hs))
  · refine K.settle ?_
    split
    · exact K.windowRead (K.putCore (K.apply (K.descMet hs)))
    · exact K.putCore (K.apply (K.descMet hs))

theorem retireOp {core : Nat} {x : OpSlot} {mem : Sys2Proof.MemOutcome} : P (s.retireOp core x mem) := by
  unfold State.retireOp
  exact keepIte (K.settle (K.releaseTag (K.opMet (K.countEngine hs)))) (K.settle (K.retireSlot (K.opMet (K.countEngine hs))))

theorem rollBack : P s.rollBack := by
  unfold State.rollBack
  split
  · exact keepIte (K.respond (K.endSwitch (K.finishOpt (K.setBank hs)))) hs
  · exact hs

theorem safeBeat : P s.safeBeat := K.change hs

theorem spareFailed {k : Nat} {r : Replacement} : P (s.spareFailed k r) := K.spareLost (K.markFenced hs)

theorem selfTested {core : Nat} {pass : Bool} : P (s.selfTested core pass) := by
  unfold State.selfTested
  dsimp only
  split
  · exact K.endPairTests (K.set hs)
  · split
    · exact keepIte (keepIte (K.set hs) (K.spareFailed hs)) hs
    · exact hs

theorem throttleAt {g : Nat} {t : Int} : P (s.throttleAt g t) := keepIte (keepIte (K.change hs) hs) (keepIte (K.throttleStart (K.post (K.change hs))) hs)

theorem thermalCause {key level : Nat} {limit t : Int} : P (s.thermalCause key level limit t) := keepIte (K.raiseCause hs) (keepIte (K.clearCause hs) hs)

theorem senseGroup {g : Nat} {t : Int} : P (s.senseGroup g t) := K.thermalCause (K.thermalCause (K.throttleAt (K.change hs)))

theorem spiHeaderError : P s.spiHeaderError := K.emit (K.countSpi hs)

theorem stopCtl {v : Nat} : P (s.stopCtl v) := keepIte hs (keepIte (K.latchStop hs) (keepIte (K.change hs) hs))

theorem windowCommit {v : Nat} : P (s.windowCommit v) := keepIte (K.change (K.commit hs)) hs

theorem writeShadow {w v : Nat} : P (s.writeShadow w v) := keepIte (K.setShadow hs) hs

theorem spiWord {off v : Nat} : P (s.spiWord off v) := by
  unfold State.spiWord
  exact keepIte (K.safeBeat hs) (keepIte (K.stopCtl hs) (keepIte (K.windowCommit hs) (keepIte (K.writeShadow hs) hs)))

theorem spiWriteIn {addr n : Nat} {wire : List Sys2Proof.Byte} : P (s.spiWriteIn addr n wire) := keepIte (K.emit (K.countSpi hs)) (keepIte (K.emit hs) (K.emit (keepFold hs (fun _ _ ht => K.spiWord ht))))

theorem spiTransaction {wire : List Sys2Proof.Byte} {paused : Bool} : P (s.spiTransaction wire paused) := keepIte hs (keepIte (K.spiHeaderError hs) (keepIte (K.spiReadOut hs) (keepIte hs (K.spiWriteIn hs))))

theorem swapIn {h : Nat} {q : Seq} {key : Nat} {g : KvPage} {x : Pool} : P (s.swapIn h q key g x) := by
  unfold State.swapIn
  extract_lets retired ct rec_ aad k iv u kv v w
  have hu : P u := K.moved (K.apply hs)
  have hv : P v := K.set hu
  have hw : P w := K.setSeq hv
  refine keepIte (K.resumeFail hs) (keepIte (K.resumeFail hs) ?_)
  split
  · exact hw
  · exact keepIte hw (K.finishOpt (K.setSeq hw))

theorem swapWritten {ws : List Wr} {kv : Kv} {contexts : Tab Context} : P { (s.apply ws) with kv := kv, sched := { (s.apply ws).sched with contexts := contexts } } :=
  K.change (K.apply hs)

theorem swapOut {h : Nat} {q : Seq} {key : Nat} {g : KvPage} {n : Nat} {x : Pool} {slot : Nat} : P (s.swapOut h q key g n x slot) := by
  unfold State.swapOut
  split
  · exact hs
  · exact K.swapDone (K.bump (K.moved (K.freeFrames (K.setSeq (K.swapWritten hs)))))

theorem switchOk {a : Activation} : P (s.switchOk a) := K.settle (K.respond (K.logFault (K.post (K.endSwitch (K.finishOpt (K.change (K.setBank (K.setBank hs))))))))

theorem takeOwnerPacket {x : Nat} {b : List Sys2Proof.Byte} : P (s.takeOwnerPacket x b) := by
  unfold State.takeOwnerPacket
  dsimp only
  split
  · exact keepIte (K.newFlight (K.active hs)) (K.finishFull (K.newFlight (K.active hs)))
  · exact keepIte (K.newFlight (K.active hs)) (K.finish (K.newFlight (K.active hs)))

theorem unlock : P s.unlock := K.logFault (K.writeSummary (K.change hs))

theorem vinClear : P s.vinClear := keepIte (K.relevel (keepFold hs (fun _ _ ht => keepIte (K.clearCause ht) ht))) hs

theorem vinRaise : P s.vinRaise := keepIte (K.raiseAll hs) hs

end KeptBySettling

/-! ### Frame edges (R35) -/

namespace KeptByEdges

variable {P : State → Prop} (K : KeptByEdges P) {s : State} (hs : P s) {id : Nat} {c : Caller} {p : Sys2Proof.Packet}

include K hs

theorem edgeLast {fr frameNs : Nat} : P (s.edgeLast fr frameNs) := K.retime (K.fireEdgeJobs (K.armJobs (K.takeOvers (K.edgeParts (K.stepPlans (K.edgeStop hs))))))

end KeptByEdges

end Sys2Proof.Machine

/-! PROOFS. Every function of the machine, and every command, keeps what the changes of a step keep. -/

namespace Sys2Proof.Machine

/-! ### The clock, the supply, start-up and the other events -/

namespace KeptBySteps

variable {P : State → Prop} (K : KeptBySteps P) {s : State} (hs : P s) {id : Nat} {c : Caller} {p : Sys2Proof.Packet}

include K hs

theorem onCrystal {t : Nat} : P (s.onCrystal t) := K.move hs

theorem enterFree : P s.enterFree := K.post (K.onCrystal hs)

theorem placeEdge : P s.placeEdge := K.move hs

theorem openFrame {t : Nat} : P (s.openFrame t) := keepIte (K.move hs) (K.post (K.acc (K.shiftModels (K.move hs))))

theorem latchFrame {stop : Nat} : P (s.latchFrame stop) := K.set (K.latchDrops (keepIte hs (K.addAccounts (K.move hs))))

theorem edgeFirst {t : Nat} : P (s.edgeFirst t) := K.placeEdge (K.applyCommits (K.openFrame (K.latchFrame hs)))

theorem fromStage2 {r : Sys2Proof.BootReport} : P (s.fromStage2 r) := by
  unfold State.fromStage2
  split
  · exact keepIte (K.stage hs) (K.respond (K.releaseTime hs))
  · exact keepIte hs (K.failBoot hs)
  · exact hs

theorem tick : P s.tick := keepIte (K.move hs) hs

theorem idle : P s.idle := K.sendEvents (K.tick hs)

theorem powerUp {testEn : Bool} : P (s.powerUp testEn) := K.change (K.powerOff hs)

theorem publish : P s.publish := by
  unfold State.publish
  split
  · exact hs
  · exact K.move (K.reach hs)

theorem tripWith {cause : Nat} : P (s.tripWith cause) := keepIte (K.powerOff hs) hs

theorem vinReport {mv : Nat} : ∀ t ∈ s.vinReport mv, P t := by
  intro t ht
  unfold State.vinReport at ht
  split at ht
  · cases ht
    exact K.move hs
  · split at ht
    · cases ht
      exact K.move hs
    · split at ht
      · cases ht
      · cases ht
        exact K.move hs

theorem withFetchWord {nbits w : Nat} : P (s.withFetchWord nbits w) := by
  unfold State.withFetchWord
  split
  · exact K.move hs
  · exact hs

end KeptBySteps

/-! ### Commands -/

namespace KeptBySteps

variable {P : State → Prop} (K : KeptBySteps P) {s : State} (hs : P s) {id : Nat} {c : Caller} {p : Sys2Proof.Packet}

include K hs

omit hs in
theorem taking : KeptByTaking P where
  flights t u h ht := by
    rw [h]
    exact K.move ht
  func _ _ _ ht := K.setFunc ht
  queue _ _ _ ht := K.setQueue (K.active ht)
  serve _ _ _ _ ht := K.serve ht
  flight _ _ _ ht := K.newFlight ht

theorem runPacket {code : Nat} {body : Body} (hbody : ∀ id c t, P t → P (body id c p t).1) : P (Machine.runPacket code body p s) :=
  runPacket_keeps P code body p s hs K.taking hbody

theorem execHello {p : Sys2Proof.Packet} : Answers P (execHello p s) := keepNext (K.runPacket hs (fun _ _ _ ht => K.helloBody ht))

theorem execHeartbeat {p : Sys2Proof.Packet} : Answers P (execHeartbeat p s) := keepNext (K.runPacket hs (fun _ _ _ ht => K.heartbeatBody ht))

theorem execReclaim {p : Sys2Proof.Packet} : Answers P (execReclaim p s) := keepNext (K.runPacket hs (fun _ _ _ ht => K.reclaimBody ht))

theorem execDeviceInfo {p : Sys2Proof.Packet} : Answers P (execDeviceInfo p s) := keepNext (K.runPacket hs (fun _ _ _ ht => K.deviceInfoBody ht))

theorem execNop {p : Sys2Proof.Packet} : Answers P (execNop p s) := keepNext (K.runPacket hs (fun _ _ _ ht => K.nopBody ht))

theorem execPark {p : Sys2Proof.Packet} : Answers P (execPark p s) := keepNext (K.runPacket hs (fun _ _ _ ht => K.parkBody ht))

theorem execUnpark {p : Sys2Proof.Packet} : Answers P (execUnpark p s) := keepNext (K.runPacket hs (fun _ _ _ ht => K.unparkBody ht))

theorem execQueueCreate {p : Sys2Proof.Packet} : Answers P (execQueueCreate p s) := keepNext (K.runPacket hs (fun _ _ _ ht => K.queueCreateBody ht))

theorem execQueueDestroy {p : Sys2Proof.Packet} : Answers P (execQueueDestroy p s) := keepNext (K.runPacket hs (fun _ _ _ ht => K.queueDestroyBody ht))

theorem execQueueReset {p : Sys2Proof.Packet} : Answers P (execQueueReset p s) := keepNext (K.runPacket hs (fun _ _ _ ht => K.queueResetBody ht))

theorem execEqCreate {p : Sys2Proof.Packet} : Answers P (execEqCreate p s) := keepNext (K.runPacket hs (fun _ _ _ ht => K.eqCreateBody ht))

theorem execEqDestroy {p : Sys2Proof.Packet} : Answers P (execEqDestroy p s) := keepNext (K.runPacket hs (fun _ _ _ ht => K.eqDestroyBody ht))

theorem execEventSubscribe {p : Sys2Proof.Packet} : Answers P (execEventSubscribe p s) := keepNext (K.runPacket hs (fun _ _ _ ht => K.eventSubscribeBody ht))

theorem execConfigWrite {p : Sys2Proof.Packet} : Answers P (execConfigWrite p s) := keepNext (K.runPacket hs (fun _ _ _ ht => K.configWriteBody ht))

theorem execConfigRead {p : Sys2Proof.Packet} : Answers P (execConfigRead p s) := keepNext (K.runPacket hs (fun _ _ _ ht => K.configReadBody ht))

theorem execConfigCommit {p : Sys2Proof.Packet} : Answers P (execConfigCommit p s) := keepNext (K.runPacket hs (fun _ _ _ ht => K.configCommitBody ht))

theorem execTimeRead {p : Sys2Proof.Packet} : Answers P (execTimeRead p s) := keepNext (K.runPacket hs (fun _ _ _ ht => K.timeReadBody ht))

theorem execStatsStream {p : Sys2Proof.Packet} : Answers P (execStatsStream p s) := keepNext (K.runPacket hs (fun _ _ _ ht => K.statsStreamBody ht))

theorem execMatmul {p : Sys2Proof.Packet} : Answers P (execMatmul p s) := keepNext (K.runPacket hs (fun _ _ _ ht => K.matmulBody ht))

theorem execVectorOp {p : Sys2Proof.Packet} : Answers P (execVectorOp p s) := keepNext (K.runPacket hs (fun _ _ _ ht => K.vectorBody ht))

theorem execReduce {p : Sys2Proof.Packet} : Answers P (execReduce p s) := keepNext (K.runPacket hs (fun _ _ _ ht => K.reduceBody ht))

theorem execMove {p : Sys2Proof.Packet} : Answers P (execMove p s) := keepNext (K.runPacket hs (fun _ _ _ ht => K.moveBody ht))

theorem execTileMove {p : Sys2Proof.Packet} : Answers P (execTileMove p s) := keepNext (K.runPacket hs (fun _ _ _ ht => K.tileMoveBody ht))

theorem execRegionAlloc {p : Sys2Proof.Packet} : Answers P (execRegionAlloc p s) := keepNext (K.runPacket hs (fun _ _ _ ht => K.regionAllocBody ht))

theorem execRegionFree {p : Sys2Proof.Packet} : Answers P (execRegionFree p s) := keepNext (K.runPacket hs (fun _ _ _ ht => K.regionFreeBody ht))

theorem execBellowsStart {p : Sys2Proof.Packet} : Answers P (execBellowsStart p s) := keepNext (K.runPacket hs (fun _ _ _ ht => K.bellowsStartBody ht))

theorem execBellowsStop {p : Sys2Proof.Packet} : Answers P (execBellowsStop p s) := keepNext (K.runPacket hs (fun _ _ _ ht => K.bellowsStopBody ht))

theorem execAttention {p : Sys2Proof.Packet} : Answers P (execAttention p s) := keepNext (K.runPacket hs (fun _ _ _ ht => K.attentionBody ht))

theorem execAttentionBackward {p : Sys2Proof.Packet} : Answers P (execAttentionBackward p s) := keepNext (K.runPacket hs (fun _ _ _ ht => K.backwardBody ht))

theorem execPtCreate {p : Sys2Proof.Packet} : Answers P (execPtCreate p s) := keepNext (K.runPacket hs (fun _ _ _ ht => K.ptCreateBody ht))

theorem execPtDestroy {p : Sys2Proof.Packet} : Answers P (execPtDestroy p s) := keepNext (K.runPacket hs (fun _ _ _ ht => K.ptDestroyBody ht))

theorem execKvAppend {p : Sys2Proof.Packet} : Answers P (execKvAppend p s) := keepNext (K.runPacket hs (fun _ _ _ ht => K.kvAppendBody ht))

theorem execVerifyCommit {p : Sys2Proof.Packet} : Answers P (execVerifyCommit p s) := keepNext (K.runPacket hs (fun _ _ _ ht => K.verifyBody ht))

theorem execSeqPreempt {p : Sys2Proof.Packet} : Answers P (execSeqPreempt p s) := keepNext (K.runPacket hs (fun _ _ _ ht => K.seqPreemptBody ht))

theorem execSeqResume {p : Sys2Proof.Packet} : Answers P (execSeqResume p s) := keepNext (K.runPacket hs (fun _ _ _ ht => K.seqResumeBody ht))

theorem execSwapPoolRegister {p : Sys2Proof.Packet} : Answers P (execSwapPoolRegister p s) := keepNext (K.runPacket hs (fun _ _ _ ht => K.poolBody ht))

theorem execSwapOutPage {seq : Nat} : Answers P (execSwapOutPage seq s) := by
  unfold Machine.execSwapOutPage
  refine keepNext ?_
  split
  · exact hs
  · split
    · exact keepIte (K.settle (K.swapOut hs)) hs
    · exact hs

theorem execSwapInPage {seq : Nat} : Answers P (execSwapInPage seq s) := by
  unfold Machine.execSwapInPage
  refine keepNext ?_
  split
  · exact hs
  · split
    · exact hs
    · refine keepIte hs ?_
      refine keepIte (K.settle (K.resumeFail hs)) ?_
      split
      · exact K.settle (K.resumeFail hs)
      · exact keepIte (K.settle (K.swapIn hs)) hs

theorem execStreamStart {p : Sys2Proof.Packet} : Answers P (execStreamStart p s) := keepNext (K.runPacket hs (fun _ _ _ ht => K.streamStartBody ht))

theorem execStreamPause {p : Sys2Proof.Packet} : Answers P (execStreamPause p s) := keepNext (K.runPacket hs (fun _ _ _ ht => K.streamPauseBody ht))

theorem execStreamResume {p : Sys2Proof.Packet} : Answers P (execStreamResume p s) := keepNext (K.runPacket hs (fun _ _ _ ht => K.streamResumeBody ht))

theorem execStreamEnd {p : Sys2Proof.Packet} : Answers P (execStreamEnd p s) := keepNext (K.runPacket hs (fun _ _ _ ht => K.streamEndBody ht))

theorem execChunk {p : Sys2Proof.Packet} : Answers P (execChunk p s) := keepNext (K.runPacket hs (fun _ _ _ ht => K.chunkBody ht))

theorem execStateExport {p : Sys2Proof.Packet} : Answers P (execStateExport p s) := keepNext (K.runPacket hs (fun _ _ _ ht => K.stateExportBody ht))

theorem execStateImport {p : Sys2Proof.Packet} : Answers P (execStateImport p s) := keepNext (K.runPacket hs (fun _ _ _ ht => K.stateImportBody ht))

theorem execReAnchor {p : Sys2Proof.Packet} : Answers P (execReAnchor p s) := keepNext (K.runPacket hs (fun _ _ _ ht => K.reAnchorBody ht))

theorem execStateSwapOut {p : Sys2Proof.Packet} : Answers P (execStateSwapOut p s) := keepNext (K.runPacket hs (fun _ _ _ ht => K.stateSwapOutBody ht))

theorem execStreamOpTurn {stream : Nat} : Answers P (execStreamOpTurn stream s) := by
  unfold Machine.execStreamOpTurn
  refine keepNext ?_
  split
  · exact hs
  · exact keepIte (K.settle (K.streamTurn hs)) hs

theorem execConv {p : Sys2Proof.Packet} : Answers P (execConv p s) := keepNext (K.runPacket hs (fun _ _ _ ht => K.convBody ht))

theorem execPool {p : Sys2Proof.Packet} : Answers P (execPool p s) := keepNext (K.runPacket hs (fun _ _ _ ht => K.poolOpBody ht))

theorem execCropResize {p : Sys2Proof.Packet} : Answers P (execCropResize p s) := keepNext (K.runPacket hs (fun _ _ _ ht => K.cropBody ht))

theorem execSlotConfig {p : Sys2Proof.Packet} : Answers P (execSlotConfig p s) := keepNext (K.runPacket hs (fun _ _ _ ht => K.slotConfigBody ht))

theorem execCalibWrite {p : Sys2Proof.Packet} : Answers P (execCalibWrite p s) := keepNext (K.runPacket hs (fun _ _ _ ht => K.calibWriteBody ht))

theorem execGridCreate {p : Sys2Proof.Packet} : Answers P (execGridCreate p s) := keepNext (K.runPacket hs (fun _ _ _ ht => K.gridCreateBody ht))

theorem execGridDestroy {p : Sys2Proof.Packet} : Answers P (execGridDestroy p s) := keepNext (K.runPacket hs (fun _ _ _ ht => K.gridDestroyBody ht))

theorem execGridProject {p : Sys2Proof.Packet} : Answers P (execGridProject p s) := keepNext (K.runPacket hs (fun _ _ _ ht => K.gridProjectBody ht))

theorem execStreamHealth {p : Sys2Proof.Packet} : Answers P (execStreamHealth p s) := keepNext (K.runPacket hs (fun _ _ _ ht => K.streamHealthBody ht))

theorem execFactor {p : Sys2Proof.Packet} : Answers P (execFactor p s) := keepNext (K.runPacket hs (fun _ _ _ ht => K.factorBody ht))

theorem execTriSolve {p : Sys2Proof.Packet} : Answers P (execTriSolve p s) := keepNext (K.runPacket hs (fun _ _ _ ht => K.triBody ht))

theorem execQpSetup {p : Sys2Proof.Packet} : Answers P (execQpSetup p s) := keepNext (K.runPacket hs (fun _ _ _ ht => K.qpSetupBody ht))

theorem execQpSolve {p : Sys2Proof.Packet} : Answers P (execQpSolve p s) := keepNext (K.runPacket hs (fun _ _ _ ht => K.qpSolveBody ht))

theorem execLatticeLoad {p : Sys2Proof.Packet} : Answers P (execLatticeLoad p s) := keepNext (K.runPacket hs (fun _ _ _ ht => K.latticeLoadBody ht))

theorem execMapPublish {p : Sys2Proof.Packet} : Answers P (execMapPublish p s) := keepNext (K.runPacket hs (fun _ _ _ ht => K.mapPublishBody ht))

theorem execPlanSearch {p : Sys2Proof.Packet} : Answers P (execPlanSearch p s) := keepNext (K.runPacket hs (fun _ _ _ ht => K.planSearchBody ht))

theorem execPlanAbort {p : Sys2Proof.Packet} : Answers P (execPlanAbort p s) := keepNext (K.runPacket hs (fun _ _ _ ht => K.planAbortBody ht))

theorem execCtxCreate {p : Sys2Proof.Packet} : Answers P (execCtxCreate p s) := keepNext (K.runPacket hs (fun _ _ _ ht => K.ctxCreateBody ht))

theorem execCtxDestroy {p : Sys2Proof.Packet} : Answers P (execCtxDestroy p s) := keepNext (K.runPacket hs (fun _ _ _ ht => K.ctxDestroyBody ht))

theorem execPartitionCreate {p : Sys2Proof.Packet} : Answers P (execPartitionCreate p s) := keepNext (K.runPacket hs (fun _ _ _ ht => K.partitionCreateBody ht))

theorem execPartitionRelease {p : Sys2Proof.Packet} : Answers P (execPartitionRelease p s) := keepNext (K.runPacket hs (fun _ _ _ ht => K.partitionReleaseBody ht))

theorem execJobArm {p : Sys2Proof.Packet} : Answers P (execJobArm p s) := keepNext (K.runPacket hs (fun _ _ _ ht => K.jobArmBody ht))

theorem execJobDisarm {p : Sys2Proof.Packet} : Answers P (execJobDisarm p s) := keepNext (K.runPacket hs (fun _ _ _ ht => K.jobDisarmBody ht))

theorem execModelRegister {p : Sys2Proof.Packet} : Answers P (execModelRegister p s) := keepNext (K.runPacket hs (fun _ _ _ ht => K.modelRegisterBody ht))

theorem execModelPin {p : Sys2Proof.Packet} : Answers P (execModelPin p s) := keepNext (K.runPacket hs (fun _ _ _ ht => K.modelPinBody ht))

theorem execModelUnpin {p : Sys2Proof.Packet} : Answers P (execModelUnpin p s) := keepNext (K.runPacket hs (fun _ _ _ ht => K.modelUnpinBody ht))

theorem execAccountRead {p : Sys2Proof.Packet} : Answers P (execAccountRead p s) := keepNext (K.runPacket hs (fun _ _ _ ht => K.accountReadBody ht))

theorem execFwStage {p : Sys2Proof.Packet} : Answers P (execFwStage p s) := keepNext (K.runPacket hs (fun _ _ _ ht => K.fwStageBody ht))

theorem execActivateFw {p : Sys2Proof.Packet} : Answers P (execActivateFw p s) := keepNext (K.runPacket hs (fun _ _ _ ht => K.activateBody ht))

theorem execFwStatus {p : Sys2Proof.Packet} : Answers P (execFwStatus p s) := keepNext (K.runPacket hs (fun _ _ _ ht => K.fwStatusBody ht))

theorem execKeyRotate {p : Sys2Proof.Packet} : Answers P (execKeyRotate p s) := keepNext (K.runPacket hs (fun _ _ _ ht => K.keyRotateBody ht))

theorem execRetireKey {p : Sys2Proof.Packet} : Answers P (execRetireKey p s) := keepNext (K.runPacket hs (fun _ _ _ ht => K.retireKeyBody ht))

theorem execKeyStatus {p : Sys2Proof.Packet} : Answers P (execKeyStatus p s) := keepNext (K.runPacket hs (fun _ _ _ ht => K.keyStatusBody ht))

theorem execPowerRead {p : Sys2Proof.Packet} : Answers P (execPowerRead p s) := keepNext (K.runPacket hs (fun _ _ _ ht => K.powerReadBody ht))

theorem execFaultLogExport {p : Sys2Proof.Packet} : Answers P (execFaultLogExport p s) := keepNext (K.runPacket hs (fun _ _ _ ht => K.faultLogExportBody ht))

theorem execErrorCounts {p : Sys2Proof.Packet} : Answers P (execErrorCounts p s) := keepNext (K.runPacket hs (fun _ _ _ ht => K.errorCountsBody ht))

theorem execSqTail {fn q : Nat} {value : Sys2Proof.Word} : Answers P (execSqTail fn q value s) := by
  unfold Machine.execSqTail
  refine keepNext ?_
  split
  · exact hs
  · exact keepIte hs (keepIte (K.haltQueue (K.active hs)) (K.setQueue (K.active hs)))

theorem execCqHead {fn q : Nat} {value : Sys2Proof.Word} : Answers P (execCqHead fn q value s) := by
  unfold Machine.execCqHead
  refine keepNext ?_
  split
  · exact hs
  · exact keepIte hs (keepIte (K.haltQueue (K.active hs)) (K.setQueue (K.active hs)))

theorem execEqHead {fn e : Nat} {value : Sys2Proof.Word} : Answers P (execEqHead fn e value s) := by
  unfold Machine.execEqHead
  refine keepNext ?_
  split
  · exact hs
  · exact keepIte hs (keepIte (K.active hs) (K.reportLost (K.set (K.active hs))))

theorem execPacketFetch : Answers P (execPacketFetch s) := by
  unfold Machine.execPacketFetch
  refine keepNext ?_
  refine keepIte hs ?_
  split
  · exact hs
  · split
    · exact hs
    · exact K.fetchFrom (K.serve hs)

theorem execCompletionWrite : Answers P (execCompletionWrite s) := by
  unfold Machine.execCompletionWrite
  refine keepNext ?_
  split
  · exact hs
  · dsimp only
    split
    · exact keepIte (K.holdCompletion hs) (K.closeQueues (K.reclaimed (K.writeCompletion (K.set hs))))
    · exact K.closeQueues (K.writeCompletion (K.set hs))

theorem execOrphanEntered {fn : Nat} : Answers P (execOrphanEntered fn s) := by
  unfold Machine.execOrphanEntered
  refine keepNext ?_
  split
  · exact hs
  · split
    · exact hs
    · exact keepIte hs (K.post (K.setFunc hs))

theorem execFrameEdge : Answers P (execFrameEdge s) := by
  unfold Machine.execFrameEdge
  exact keepNext (keepIte hs (K.settle (K.edgeCheckpoints (K.rollBack (K.settleDeferral (K.edgeLast (K.edgeFirst (K.reach (K.lateBefore (K.latestBefore hs))))))))))

theorem execQuenchEnd {part : Nat} : Answers P (execQuenchEnd part s) := by
  unfold Machine.execQuenchEnd
  refine keepNext ?_
  split
  · exact hs
  · exact keepIte (K.settleLeaving (K.finishOpt (K.postPart (K.resetScope (by decide) (K.change hs))))) hs

theorem execStatsPublish : Answers P (execStatsPublish s) := keepNext (keepIte (K.publish hs) hs)

theorem execStatsPageSend {session : Nat} : Answers P (execStatsPageSend session s) := by
  unfold Machine.execStatsPageSend
  refine keepNext ?_
  split
  · exact hs
  · split
    · exact hs
    · exact keepIte hs (K.emit (K.change hs))

theorem execSnapshotPublish : Answers P (execSnapshotPublish s) := keepNext (keepIte (K.change hs) hs)

theorem execTrigLatestExpire {job : Nat} : Answers P (execTrigLatestExpire job s) := keepNext (keepIte (K.settle (K.trigLatest hs)) hs)

theorem execFiringComplete {job : Nat} : Answers P (execFiringComplete job s) := keepNext (keepIte (K.settle (K.completeFiring hs)) hs)

theorem execCtlMiss {job : Nat} : Answers P (execCtlMiss job s) := keepNext (keepIte (K.lateFiring hs) hs)

theorem execSync {port : Nat} {offset : Int} {interval : Nat} : Answers P (execSync port offset interval s) := keepNext (keepIte (K.acceptSync hs) hs)

theorem execAnnounce {x0 : Nat} : Answers P (execAnnounce x0 s) := keepNext hs

theorem execPdelayReq {port reqId : Nat} : Answers P (execPdelayReq port reqId s) := keepNext (keepIte (K.emit hs) hs)

theorem execPdelayResp {port : Nat} {t1 t2 t3 t4 : Int} : Answers P (execPdelayResp port t1 t2 t3 t4 s) := keepNext (keepIte (K.move hs) hs)

theorem execGmSyncTransmit : Answers P (execGmSyncTransmit s) := keepNext (keepIte (keepFold (K.move (K.reach hs)) (fun _ _ ht => keepIte (K.emit ht) ht)) hs)

theorem execTimeHoldover : Answers P (execTimeHoldover s) := by
  unfold Machine.execTimeHoldover
  refine keepNext ?_
  split
  · exact hs
  · exact keepIte (K.enterFree (K.move (K.reach hs))) (K.post (K.onCrystal (K.move (K.reach hs))))

theorem execTimeFree : Answers P (execTimeFree s) := keepNext (keepIte (K.enterFree (K.reach hs)) hs)

theorem execCsi2FrameStart {die port vc : Nat} {frame : Sys2Proof.FramePacket} : Answers P (execCsi2FrameStart die port vc frame s) := by
  unfold Machine.execCsi2FrameStart
  refine keepNext ?_
  split
  · exact hs
  · exact keepIte (K.burstOutcome (K.startSample (K.classify (K.setSlot (K.dropSample hs))))) (K.setSlot (K.dropSample hs))

theorem execCsi2LongPacket {die port vc dt : Nat} {link : Sys2Proof.LinkCheck} {payload : List Sys2Proof.Byte} : Answers P (execCsi2LongPacket die port vc dt link payload s) := by
  unfold Machine.execCsi2LongPacket
  refine keepNext ?_
  split
  · exact hs
  · split
    · exact hs
    · exact keepIte hs (keepIte (K.setFilling (K.linkOutcome hs)) (keepIte (K.linkOutcome hs) (K.csiData (K.linkOutcome hs))))

theorem execCsi2FrameEnd {die port vc : Nat} {frame : Sys2Proof.FramePacket} : Answers P (execCsi2FrameEnd die port vc frame s) := by
  unfold Machine.execCsi2FrameEnd
  refine keepNext ?_
  split
  · exact hs
  · dsimp only
    split
    · exact K.setSlot hs
    · exact K.endSample (keepIte (K.spoilSample (K.burstOutcome (K.setSlot hs))) (K.burstOutcome (K.setSlot hs)))

theorem execTdmFrameSync {die port bclks : Nat} {words : List Nat} : Answers P (execTdmFrameSync die port bclks words s) := keepNext (keepIte hs (keepFold hs (fun _ _ ht => K.tdmFrame ht)))

theorem execSpiPeriodicStart {slot : Nat} : Answers P (execSpiPeriodicStart slot s) := by
  unfold Machine.execSpiPeriodicStart
  refine keepNext ?_
  split
  · exact hs
  · exact keepIte (K.spiStart (K.setSlot (K.reach hs))) hs

theorem execSpiTransactionEnd {slot : Nat} {payload : List Sys2Proof.Byte} : Answers P (execSpiTransactionEnd slot payload s) := by
  unfold Machine.execSpiTransactionEnd
  refine keepNext ?_
  split
  · exact hs
  · exact keepIte (K.endSample (K.putPayload (K.setFilling hs))) hs

theorem execGpioEdge {die line : Nat} {rising : Bool} : Answers P (execGpioEdge die line rising s) := by
  unfold Machine.execGpioEdge
  exact keepNext (keepIte hs (keepFold (K.set hs) (fun _ _ ht => keepIte (K.endSample (K.startSample ht)) (keepIte (K.spiStart ht) ht))))

theorem execEthFrame {port mac vlan : Nat} {fcsOk : Bool} {payload : List Sys2Proof.Byte} : Answers P (execEthFrame port mac vlan fcsOk payload s) := by
  unfold Machine.execEthFrame
  refine keepNext ?_
  split
  · exact hs
  · exact keepIte hs (keepIte (K.endSample (K.spoilSample (K.startSample hs))) (keepIte (K.endSample (K.spoilSample (K.startSample hs))) (K.endSample (K.putPayload (K.startSample hs)))))

theorem execSampleReady {slot : Nat} : Answers P (execSampleReady slot s) := keepNext (keepIte (K.settle (K.readyAndFire hs)) hs)

theorem execIngressT2Write {slot : Nat} : Answers P (execIngressT2Write slot s) := by
  unfold Machine.execIngressT2Write
  refine keepNext ?_
  split
  · exact hs
  · exact keepIte hs (K.setSlot (keepFold hs (fun _ _ ht => K.drainFifo ht)))

theorem execMaintenanceSlot {stack : Nat} {margin : Int} {scrub : Sys2Proof.ScrubResult} : Answers P (execMaintenanceSlot stack margin scrub s) := by
  unfold Machine.execMaintenanceSlot
  refine keepNext ?_
  refine keepIte hs ?_
  dsimp only
  split
  · exact keepIte hs (K.set hs)
  · exact K.frameCorrects (K.count (keepIte hs (K.set hs)))
  · exact K.uncorrectable (keepIte hs (K.set hs))

theorem execBellowsTileFetch {stream pos : Nat} {link : Sys2Proof.MemOutcome} : Answers P (execBellowsTileFetch stream pos link s) := by
  unfold Machine.execBellowsTileFetch
  refine keepNext ?_
  split
  · exact hs
  · split
    · exact hs
    · exact keepIte hs (K.settle (K.bellowsFetch hs))

theorem execOperationIssue {core : Nat} {engine : Sys2Proof.Engine} : Answers P (execOperationIssue core engine s) := by
  unfold Machine.execOperationIssue
  refine keepNext ?_
  refine keepIte hs ?_
  split
  · exact hs
  · exact K.setCore hs

theorem execOperationRetire {core : Nat} {engine : Sys2Proof.Engine} {mem : Sys2Proof.MemOutcome} : Answers P (execOperationRetire core engine mem s) := by
  unfold Machine.execOperationRetire
  refine keepNext ?_
  refine keepIte hs ?_
  split
  · exact hs
  · exact keepIte hs (K.retireOp hs)

theorem execTongsDescriptorStart {core : Nat} : Answers P (execTongsDescriptorStart core s) := by
  unfold Machine.execTongsDescriptorStart
  refine keepNext ?_
  refine keepIte hs ?_
  split
  · exact hs
  · exact K.setCore hs

theorem execTongsDescriptorRetire {core : Nat} {mem : Sys2Proof.MemOutcome} : Answers P (execTongsDescriptorRetire core mem s) := by
  unfold Machine.execTongsDescriptorRetire
  refine keepNext ?_
  refine keepIte hs ?_
  split
  · exact hs
  · exact keepIte (K.retireDesc hs) hs

theorem execWatchdogExpire {proc : Sys2Proof.Proc} : Answers P (execWatchdogExpire proc s) := keepNext (keepIte (K.expire hs) hs)

theorem execHearthResume : Answers P (execHearthResume s) := keepNext (keepIte (K.settle (K.beatAll (K.procBack hs))) hs)

theorem execFwSwitch : Answers P (execFwSwitch s) := by
  unfold Machine.execFwSwitch
  refine keepNext ?_
  split
  · exact hs
  · exact keepIte hs (K.pauseQuench (K.change (K.settleDeferral hs)))

theorem execFwMeasure {allMatch : Bool} : Answers P (execFwMeasure allMatch s) := by
  unfold Machine.execFwMeasure
  refine keepNext ?_
  split
  · exact hs
  · exact keepIte hs (keepIte (K.switchOk hs) (K.change hs))

theorem execActivationTimeout : Answers P (execActivationTimeout s) := by
  unfold Machine.execActivationTimeout
  refine keepNext ?_
  split
  · exact hs
  · exact keepIte hs (K.endActivation (K.reach hs))

theorem execPwrGoodRise {testEn : Bool} : Answers P (execPwrGoodRise testEn s) := keepNext (keepIte (K.powerUp hs) hs)

theorem execBootStageAdvance {report : Sys2Proof.BootReport} : Answers P (execBootStageAdvance report s) := by
  unfold Machine.execBootStageAdvance
  refine keepNext ?_
  refine keepIte hs ?_
  split
  · exact keepIte hs (K.fromStage1 hs)
  · exact K.fromStage2 hs
  · exact K.fromStage3 hs
  · exact K.fromStage4 hs
  · exact hs

theorem execTestUnlockSession {hs' : Sys2Proof.Handshake} : Answers P (execTestUnlockSession hs' s) := keepNext (keepIte hs (keepIte (K.unlock hs) (K.emit hs)))

theorem execTestUnlockTimeout : Answers P (execTestUnlockTimeout s) := keepNext (keepIte (K.change hs) hs)

theorem execJtagInstruction {ir : Sys2Proof.JtagInstr} : Answers P (execJtagInstruction ir s) := by
  unfold Machine.execJtagInstruction
  split
  · exact keepIteOut keepRefused (keepNext (K.loadJtag hs))
  · exact keepNext (K.loadJtag hs)
  · exact keepNext (K.loadJtag hs)
  · exact keepNext (K.bump (K.change (K.bump (K.loadJtag hs))))
  · exact keepNext (keepIte (K.bump (K.loadJtag hs)) (K.loadJtag hs))
  · exact keepNext (K.loadJtag hs)
  · exact keepNext (K.loadJtag hs)

theorem execMgmtSessionOpen {hs' : Sys2Proof.Handshake} : Answers P (execMgmtSessionOpen hs' s) := keepNext (keepIte hs (keepIte (K.emit (K.change hs)) (K.emit hs)))

theorem execMgmtSessionClose {session : Nat} : Answers P (execMgmtSessionClose session s) := keepNext (K.closeSession hs)

theorem execMgmtMessage {session type : Nat} {bytes : List Sys2Proof.Byte} : Answers P (execMgmtMessage session type bytes s) := keepNext (keepIte hs (keepIte (K.emit (K.closeSession hs)) (keepIte hs (K.takeOwnerPacket hs))))

theorem execHostHeartbeat {fn : Nat} {x1 : Sys2Proof.Word} : Answers P (execHostHeartbeat fn x1 s) := keepNext (keepIte (K.beat hs) hs)

theorem execSafetyHeartbeat {x0 : Sys2Proof.Word} : Answers P (execSafetyHeartbeat x0 s) := keepNext (keepIte (K.safeBeat hs) hs)

theorem execSafetyHeartbeatLapse : Answers P (execSafetyHeartbeatLapse s) := keepNext (keepIte hs (K.latchStop (K.reach hs)))

theorem execStopRequest {value : Sys2Proof.Word} : Answers P (execStopRequest value s) := keepNext (K.stopCtl hs)

theorem execStopClearRequest {value : Sys2Proof.Word} : Answers P (execStopClearRequest value s) := keepNext (K.stopCtl hs)

theorem execStopInAssert : Answers P (execStopInAssert s) := keepNext (keepIte (K.latchStop (K.change hs)) (K.change hs))

theorem execCtlCommit {door : Sys2Proof.Door} {value : Sys2Proof.Word} : Answers P (execCtlCommit door value s) := keepNext (keepIte (K.windowCommit hs) hs)

theorem execAdminQueueEnable {fn : Nat} : Answers P (execAdminQueueEnable fn s) := by
  unfold Machine.execAdminQueueEnable
  refine keepNext ?_
  split
  · exact hs
  · exact keepIte hs (keepIte (K.change (K.setFunc (K.active hs))) (K.setFunc (K.active hs)))

theorem execAdminQueueDisable {fn : Nat} : Answers P (execAdminQueueDisable fn s) := keepNext (keepIte (K.setQueue (K.setFunc (K.active hs))) hs)

theorem execRegisterWrite {door : Sys2Proof.Door} {offset : Nat} {value : Sys2Proof.Word} : Answers P (execRegisterWrite door offset value s) := by
  unfold Machine.execRegisterWrite
  refine keepNext ?_
  dsimp only
  split
  · exact keepIte (K.writeShadow hs) hs
  · exact keepIte (keepIte (K.writeShadow hs) (keepIte (K.adminWrite hs) hs)) (K.adminWrite hs)

theorem execSafetySpiRead {wire : List Sys2Proof.Byte} {paused : Bool} : Answers P (execSafetySpiRead wire paused s) := keepNext (K.spiTransaction hs)

theorem execSafetySpiWrite {wire : List Sys2Proof.Byte} {paused : Bool} : Answers P (execSafetySpiWrite wire paused s) := keepNext (K.spiTransaction hs)

theorem execPerstAssert {link : Nat} : Answers P (execPerstAssert link s) := keepNext (keepIte (K.linkReset hs) hs)

theorem execHostLinkDown {link : Nat} : Answers P (execHostLinkDown link s) := keepNext (keepIte (K.linkReset hs) hs)

theorem execBusMasterEnable {fn : Nat} : Answers P (execBusMasterEnable fn s) := keepNext (keepIte (K.settle (K.closeQueues (keepFold (K.setFunc hs) (fun _ _ ht => K.reportLost ht)))) hs)

theorem execModuleReset : Answers P (execModuleReset s) := keepNext (keepIte (K.powerOff hs) (K.change hs))

theorem execVinCauseRaise {millivolts : Nat} : Answers P (execVinCauseRaise millivolts s) := by
  unfold Machine.execVinCauseRaise
  split
  · exact keepFault
  · exact keepNext (K.vinRaise (keepSome ‹_› (K.vinReport hs)))

theorem execVinCauseClear {millivolts : Nat} : Answers P (execVinCauseClear millivolts s) := by
  unfold Machine.execVinCauseClear
  split
  · exact keepFault
  · exact keepNext (K.vinClear (keepSome ‹_› (K.vinReport hs)))

theorem execE3Undervoltage : Answers P (execE3Undervoltage s) := keepNext (keepIte (K.raiseAll hs) hs)

theorem execOvervoltageTrip : Answers P (execOvervoltageTrip s) := keepNext (keepIte (K.tripWith hs) hs)

theorem execUndervoltageLockout : Answers P (execUndervoltageLockout s) := keepNext (keepIte (K.powerOff hs) hs)

theorem execCarrierStart {belowFor : Nat} : Answers P (execCarrierStart belowFor s) := keepNext (keepIte (K.change hs) hs)

theorem execEmergencyHoldExpire : Answers P (execEmergencyHoldExpire s) := by
  unfold Machine.execEmergencyHoldExpire
  refine keepNext ?_
  refine keepIte hs ?_
  split
  · exact hs
  · exact K.relevel (K.reach hs)

theorem execTrip {cause : Sys2Proof.TripCause} : Answers P (execTrip cause s) := keepNext (K.tripWith hs)

theorem execCapControlTick {milliwatts : Nat} {rails : List Nat} : Answers P (execCapControlTick milliwatts rails s) := keepNext (keepIte hs (keepIte (K.capControl (K.change (K.measure (K.reach hs)))) (K.change (K.reach hs))))

theorem execExcursionEnd : Answers P (execExcursionEnd s) := by
  unfold Machine.execExcursionEnd
  refine keepNext ?_
  split
  · exact hs
  · exact keepIte (K.endExcursion (K.reach hs)) hs

theorem execOverpowerGate {milliwatts : Nat} : Answers P (execOverpowerGate milliwatts s) := keepNext (keepIte (K.change hs) hs)

theorem execThermalSample {temps : List Int} : Answers P (execThermalSample temps s) := by
  unfold Machine.execThermalSample
  exact keepNext (keepIte hs (keepIte (K.tripWith (K.relevel (keepFold hs (fun _ _ ht => K.senseGroup ht)))) (K.relevel (keepFold hs (fun _ _ ht => K.senseGroup ht)))))

theorem execThrottleStep {cluster : Nat} : Answers P (execThrottleStep cluster s) := by
  unfold Machine.execThrottleStep
  refine keepNext ?_
  split
  · exact hs
  · exact keepIte hs (K.mapClusters (K.reach hs))

theorem execPowerStateChoose {cluster : Nat} {tNext : Option Nat} : Answers P (execPowerStateChoose cluster tNext s) := keepNext (keepIte hs (K.bump (K.set hs)))

theorem execPowerStateWake {cluster : Nat} : Answers P (execPowerStateWake cluster s) := by
  unfold Machine.execPowerStateWake
  refine keepNext ?_
  split
  · exact hs
  · exact keepIte hs (K.set (K.reach hs))

theorem execStandbyEnter : Answers P (execStandbyEnter s) := keepNext (keepIte (keepIte (K.change (K.reach hs)) (K.reach hs)) hs)

theorem execStandbyWake : Answers P (execStandbyWake s) := keepNext (keepIte (K.change hs) hs)

theorem execCoreFence {core cause : Nat} : Answers P (execCoreFence core cause s) := keepNext (keepIte (K.settle (K.endPairTests (K.fence hs))) hs)

theorem execSelfTestDone {core : Nat} {pass : Bool} : Answers P (execSelfTestDone core pass s) := keepNext (keepIte (K.settle (K.selfTested (K.count hs))) hs)

theorem execSpareCopyDone {cluster badLines : Nat} : Answers P (execSpareCopyDone cluster badLines s) := by
  unfold Machine.execSpareCopyDone
  refine keepNext ?_
  split
  · exact hs
  · refine keepIte hs ?_
    dsimp only
    refine K.set ?_
    split
    · exact K.count (K.copyStore hs)
    · exact K.zeroFill hs

theorem execInternalLinkFail : Answers P (execInternalLinkFail s) := keepNext (K.tripWith hs)

theorem execFaultLogWrite : Answers P (execFaultLogWrite s) := by
  unfold Machine.execFaultLogWrite
  refine keepNext ?_
  split
  · exact hs
  · exact keepIte hs (K.set hs)

theorem execStopInDeassert : Answers P (execStopInDeassert s) := keepNext (K.change hs)

theorem execResetInRelease : Answers P (execResetInRelease s) := keepNext (keepIte (K.change hs) hs)

theorem execRailOutOfRegulation : Answers P (execRailOutOfRegulation s) := keepNext (K.change hs)

theorem execOverpowerRelease {milliwatts : Nat} : Answers P (execOverpowerRelease milliwatts s) := keepNext (keepIte (K.change hs) hs)

theorem execProcessorRestartDone {proc : Sys2Proof.Proc} : Answers P (execProcessorRestartDone proc s) := by
  unfold Machine.execProcessorRestartDone
  refine keepNext ?_
  split
  · exact hs
  · exact keepIte (K.settle (K.respond (K.procBack hs))) hs
  · exact keepIte (K.settle (K.dueSummary (K.procBack hs))) hs
  · exact keepIte (K.settle (K.refillCluster (K.procBack hs))) hs

theorem execHostLinkUp {link : Nat} : Answers P (execHostLinkUp link s) := keepNext (keepIte (K.bump (K.change hs)) hs)

theorem execQuenchTier2PartEnd : Answers P (execQuenchTier2PartEnd s) := by
  unfold Machine.execQuenchTier2PartEnd
  refine keepNext ?_
  split
  · exact hs
  · exact keepIte hs (K.setPart (K.quenchWrite (K.reach hs)))

theorem execModelLoadDone {model : Nat} : Answers P (execModelLoadDone model s) := keepNext (keepIte (K.loadDone hs) hs)

end KeptBySteps

end Sys2Proof.Machine

/-! PROOFS. What every step keeps: the canonical form of the memories, and the bound on the rate and the slew (R22, R27, R30). -/

namespace Sys2Proof.Machine.KeptBySteps

variable {P : State → Prop} (K : KeptBySteps P) {s : State} (hs : P s)

include K hs

/-- Whatever the command, the state it answers has the property that its state had. -/
theorem exec {c : Instr} : Answers P (Machine.exec c s) :=
  match c with
  | .hello _ => K.execHello hs
  | .heartbeat _ => K.execHeartbeat hs
  | .reclaim _ => K.execReclaim hs
  | .deviceInfo _ => K.execDeviceInfo hs
  | .nop _ => K.execNop hs
  | .park _ => K.execPark hs
  | .unpark _ => K.execUnpark hs
  | .queueCreate _ => K.execQueueCreate hs
  | .queueDestroy _ => K.execQueueDestroy hs
  | .queueReset _ => K.execQueueReset hs
  | .eqCreate _ => K.execEqCreate hs
  | .eqDestroy _ => K.execEqDestroy hs
  | .eventSubscribe _ => K.execEventSubscribe hs
  | .configWrite _ => K.execConfigWrite hs
  | .configRead _ => K.execConfigRead hs
  | .configCommit _ => K.execConfigCommit hs
  | .timeRead _ => K.execTimeRead hs
  | .statsStream _ => K.execStatsStream hs
  | .matmul _ => K.execMatmul hs
  | .vectorOp _ => K.execVectorOp hs
  | .reduce _ => K.execReduce hs
  | .move _ => K.execMove hs
  | .tileMove _ => K.execTileMove hs
  | .regionAlloc _ => K.execRegionAlloc hs
  | .regionFree _ => K.execRegionFree hs
  | .bellowsStart _ => K.execBellowsStart hs
  | .bellowsStop _ => K.execBellowsStop hs
  | .attention _ => K.execAttention hs
  | .attentionBackward _ => K.execAttentionBackward hs
  | .ptCreate _ => K.execPtCreate hs
  | .ptDestroy _ => K.execPtDestroy hs
  | .kvAppend _ => K.execKvAppend hs
  | .verifyCommit _ => K.execVerifyCommit hs
  | .seqPreempt _ => K.execSeqPreempt hs
  | .seqResume _ => K.execSeqResume hs
  | .swapPoolRegister _ => K.execSwapPoolRegister hs
  | .swapOutPage _ => K.execSwapOutPage hs
  | .swapInPage _ => K.execSwapInPage hs
  | .streamStart _ => K.execStreamStart hs
  | .streamPause _ => K.execStreamPause hs
  | .streamResume _ => K.execStreamResume hs
  | .streamEnd _ => K.execStreamEnd hs
  | .chunk _ => K.execChunk hs
  | .stateExport _ => K.execStateExport hs
  | .stateImport _ => K.execStateImport hs
  | .reAnchor _ => K.execReAnchor hs
  | .stateSwapOut _ => K.execStateSwapOut hs
  | .streamOpTurn _ => K.execStreamOpTurn hs
  | .conv _ => K.execConv hs
  | .pool _ => K.execPool hs
  | .cropResize _ => K.execCropResize hs
  | .slotConfig _ => K.execSlotConfig hs
  | .calibWrite _ => K.execCalibWrite hs
  | .gridCreate _ => K.execGridCreate hs
  | .gridDestroy _ => K.execGridDestroy hs
  | .gridProject _ => K.execGridProject hs
  | .streamHealth _ => K.execStreamHealth hs
  | .factor _ => K.execFactor hs
  | .triSolve _ => K.execTriSolve hs
  | .qpSetup _ => K.execQpSetup hs
  | .qpSolve _ => K.execQpSolve hs
  | .latticeLoad _ => K.execLatticeLoad hs
  | .mapPublish _ => K.execMapPublish hs
  | .planSearch _ => K.execPlanSearch hs
  | .planAbort _ => K.execPlanAbort hs
  | .ctxCreate _ => K.execCtxCreate hs
  | .ctxDestroy _ => K.execCtxDestroy hs
  | .partitionCreate _ => K.execPartitionCreate hs
  | .partitionRelease _ => K.execPartitionRelease hs
  | .jobArm _ => K.execJobArm hs
  | .jobDisarm _ => K.execJobDisarm hs
  | .modelRegister _ => K.execModelRegister hs
  | .modelPin _ => K.execModelPin hs
  | .modelUnpin _ => K.execModelUnpin hs
  | .accountRead _ => K.execAccountRead hs
  | .fwStage _ => K.execFwStage hs
  | .activateFw _ => K.execActivateFw hs
  | .fwStatus _ => K.execFwStatus hs
  | .keyRotate _ => K.execKeyRotate hs
  | .retireKey _ => K.execRetireKey hs
  | .keyStatus _ => K.execKeyStatus hs
  | .powerRead _ => K.execPowerRead hs
  | .faultLogExport _ => K.execFaultLogExport hs
  | .errorCounts _ => K.execErrorCounts hs
  | .sqTail _ _ _ => K.execSqTail hs
  | .cqHead _ _ _ => K.execCqHead hs
  | .eqHead _ _ _ => K.execEqHead hs
  | .packetFetch => K.execPacketFetch hs
  | .completionWrite => K.execCompletionWrite hs
  | .orphanEntered _ => K.execOrphanEntered hs
  | .frameEdge => K.execFrameEdge hs
  | .quenchEnd _ => K.execQuenchEnd hs
  | .statsPublish => K.execStatsPublish hs
  | .statsPageSend _ => K.execStatsPageSend hs
  | .snapshotPublish => K.execSnapshotPublish hs
  | .trigLatestExpire _ => K.execTrigLatestExpire hs
  | .firingComplete _ => K.execFiringComplete hs
  | .ctlMiss _ => K.execCtlMiss hs
  | .sync _ _ _ => K.execSync hs
  | .announce port => K.execAnnounce (x0 := port) hs
  | .pdelayReq _ _ => K.execPdelayReq hs
  | .pdelayResp _ _ _ _ _ => K.execPdelayResp hs
  | .gmSyncTransmit => K.execGmSyncTransmit hs
  | .timeHoldover => K.execTimeHoldover hs
  | .timeFree => K.execTimeFree hs
  | .csi2FrameStart _ _ _ _ => K.execCsi2FrameStart hs
  | .csi2LongPacket _ _ _ _ _ _ => K.execCsi2LongPacket hs
  | .csi2FrameEnd _ _ _ _ => K.execCsi2FrameEnd hs
  | .tdmFrameSync _ _ _ _ => K.execTdmFrameSync hs
  | .spiPeriodicStart _ => K.execSpiPeriodicStart hs
  | .spiTransactionEnd _ _ => K.execSpiTransactionEnd hs
  | .gpioEdge _ _ _ => K.execGpioEdge hs
  | .ethFrame _ _ _ _ _ => K.execEthFrame hs
  | .sampleReady _ => K.execSampleReady hs
  | .ingressT2Write _ => K.execIngressT2Write hs
  | .maintenanceSlot _ _ _ => K.execMaintenanceSlot hs
  | .bellowsTileFetch _ _ _ => K.execBellowsTileFetch hs
  | .operationIssue _ _ => K.execOperationIssue hs
  | .operationRetire _ _ _ => K.execOperationRetire hs
  | .tongsDescriptorStart _ => K.execTongsDescriptorStart hs
  | .tongsDescriptorRetire _ _ => K.execTongsDescriptorRetire hs
  | .watchdogExpire _ => K.execWatchdogExpire hs
  | .hearthResume => K.execHearthResume hs
  | .fwSwitch => K.execFwSwitch hs
  | .fwMeasure _ => K.execFwMeasure hs
  | .activationTimeout => K.execActivationTimeout hs
  | .pwrGoodRise _ => K.execPwrGoodRise hs
  | .bootStageAdvance _ => K.execBootStageAdvance hs
  | .testUnlockSession _ => K.execTestUnlockSession hs
  | .testUnlockTimeout => K.execTestUnlockTimeout hs
  | .jtagInstruction _ => K.execJtagInstruction hs
  | .mgmtSessionOpen _ => K.execMgmtSessionOpen hs
  | .mgmtSessionClose _ => K.execMgmtSessionClose hs
  | .mgmtMessage _ _ _ => K.execMgmtMessage hs
  | .hostHeartbeat _ v => K.execHostHeartbeat (x1 := v) hs
  | .safetyHeartbeat v => K.execSafetyHeartbeat (x0 := v) hs
  | .safetyHeartbeatLapse => K.execSafetyHeartbeatLapse hs
  | .stopRequest _ => K.execStopRequest hs
  | .stopClearRequest _ => K.execStopClearRequest hs
  | .stopInAssert => K.execStopInAssert hs
  | .ctlCommit _ _ => K.execCtlCommit hs
  | .adminQueueEnable _ => K.execAdminQueueEnable hs
  | .adminQueueDisable _ => K.execAdminQueueDisable hs
  | .registerWrite _ _ _ => K.execRegisterWrite hs
  | .safetySpiRead _ _ => K.execSafetySpiRead hs
  | .safetySpiWrite _ _ => K.execSafetySpiWrite hs
  | .perstAssert _ => K.execPerstAssert hs
  | .hostLinkDown _ => K.execHostLinkDown hs
  | .busMasterEnable _ => K.execBusMasterEnable hs
  | .moduleReset => K.execModuleReset hs
  | .vinCauseRaise _ => K.execVinCauseRaise hs
  | .vinCauseClear _ => K.execVinCauseClear hs
  | .e3Undervoltage => K.execE3Undervoltage hs
  | .overvoltageTrip => K.execOvervoltageTrip hs
  | .undervoltageLockout => K.execUndervoltageLockout hs
  | .carrierStart _ => K.execCarrierStart hs
  | .emergencyHoldExpire => K.execEmergencyHoldExpire hs
  | .trip _ => K.execTrip hs
  | .capControlTick _ _ => K.execCapControlTick hs
  | .excursionEnd => K.execExcursionEnd hs
  | .overpowerGate _ => K.execOverpowerGate hs
  | .thermalSample _ => K.execThermalSample hs
  | .throttleStep _ => K.execThrottleStep hs
  | .powerStateChoose _ _ => K.execPowerStateChoose hs
  | .powerStateWake _ => K.execPowerStateWake hs
  | .standbyEnter => K.execStandbyEnter hs
  | .standbyWake => K.execStandbyWake hs
  | .coreFence _ _ => K.execCoreFence hs
  | .selfTestDone _ _ => K.execSelfTestDone hs
  | .spareCopyDone _ _ => K.execSpareCopyDone hs
  | .internalLinkFail => K.execInternalLinkFail hs
  | .faultLogWrite => K.execFaultLogWrite hs
  | .stopInDeassert => K.execStopInDeassert hs
  | .resetInRelease => K.execResetInRelease hs
  | .railOutOfRegulation => K.execRailOutOfRegulation hs
  | .overpowerRelease _ => K.execOverpowerRelease hs
  | .processorRestartDone _ => K.execProcessorRestartDone hs
  | .hostLinkUp _ => K.execHostLinkUp hs
  | .quenchTier2PartEnd => K.execQuenchTier2PartEnd hs
  | .modelLoadDone _ => K.execModelLoadDone hs

/-- A step answers a state with the property: of the front command, or of the tick (R22). -/
theorem step {t : State} (ht : Machine.step s = .next t) : P t := by
  unfold Machine.step at ht
  split at ht
  · cases ht
    exact K.idle hs
  · exact K.exec (c := _) (K.move hs) t ht

end Sys2Proof.Machine.KeptBySteps

namespace Sys2Proof.Proofs.Steps

open Sys2Proof Sys2Proof.Machine

section Memories

/-- Every byte memory is canonical. -/
def Canonical (s : State) : Prop := s.stores.wf = true

theorem canonical_kept : Kept Canonical where
  set h := h
  apply h := State.apply_wf _ _ h
  setJob _ h := h

theorem canonical_keptBySettling : KeptBySettling Canonical where
  toKept := canonical_kept
  change h := h
  reach h := h
  zeroFill h := State.zeroFill_wf _ _ _ _ h
  addJob _ h := h
  dropJob h := h
  setShadow h := h
  setActive _ h := h
  resetScope _ h := h
  commit h := by
    unfold State.commit
    exact keepIteFst h (keepIteFst h h)

theorem canonical_wordChanged {s : State} {kind id off old new : Nat} (h : Canonical s) : Canonical (s.wordChanged kind id off old new) := by
  have K := canonical_keptBySettling
  have hfree : ∀ t : State, Canonical t → Canonical (t.enterFree) := fun t ht => K.post (s := t.onCrystal 0) ht
  unfold State.wordChanged
  refine keepIte (keepIte (K.post ?_) (hfree _ ?_)) (keepIte (keepIte (K.endExcursion h) h) (keepIte ?_ (keepIte ?_ h)))
  all_goals exact h

theorem canonical_acceptSync {s : State} {port interval : Nat} {offset : Int} (h : Canonical s) : Canonical (s.acceptSync port offset interval) := by
  unfold State.acceptSync
  refine keepIte (canonical_kept.post ?_) ?_ <;> exact h

theorem canonical_applyWord {s : State} {kind id : Nat} {w : Nat × Nat} (h : Canonical s) : Canonical (s.applyWord kind id w) := by
  unfold State.applyWord
  refine keepIte ?_ (canonical_wordChanged ?_) <;> exact h

theorem canonical_applyCommits {s : State} {fr : Nat} (h : Canonical s) : Canonical (s.applyCommits fr) := by
  unfold State.applyCommits
  refine canonical_kept.acc (keepFold ?_ (fun _ _ ht => keepFold ht (fun _ _ hu => canonical_applyWord hu)))
  exact h

/-- The memories are canonical just when each one is. -/
theorem canonical_iff (s : State) : Canonical s ↔ Mem.wf s.stores.core = true ∧ Mem.wf s.stores.region = true ∧ Mem.wf s.stores.tier2 = true ∧ Mem.wf s.stores.xd = true ∧ Mem.wf s.stores.host = true ∧ Mem.wf s.stores.ufs = true := by
  simp only [Canonical, Stores.wf, Bool.and_eq_true, and_assoc]

theorem canonical_copyStore {s : State} {src dst : Nat} {bad : List Nat} (h : Canonical s) : Canonical (s.copyStore src dst bad) := by
  have hz : Canonical (s.zeroFill .core (coreKey dst 0) 2097152) := State.zeroFill_wf _ _ _ _ h
  unfold State.copyStore
  generalize s.zeroFill .core (coreKey dst 0) 2097152 = u at hz
  obtain ⟨hcore, hrest⟩ := (canonical_iff u).1 hz
  exact (canonical_iff _).2 ⟨foldl_keeps (fun m : Mem => Mem.wf m = true) _ _ _ hcore (fun _ _ hm => Mem.wf_write _ _ _ hm), hrest⟩

theorem canonical_powerOff {s : State} {tripped resetIn : Bool} {cause : Nat} (h : Canonical s) : Canonical (s.powerOff tripped cause resetIn) := by
  obtain ⟨-, -, -, -, hhost, hufs⟩ := (canonical_iff s).1 h
  exact (canonical_iff _).2 ⟨rfl, rfl, rfl, rfl, hhost, hufs⟩

theorem canonical_keptBySteps : KeptBySteps Canonical where
  toKeptBySettling := canonical_keptBySettling
  fire h := h
  miss h := h
  move h := h
  acceptSync h := canonical_acceptSync h
  applyCommits h := canonical_applyCommits h
  copyStore h := canonical_copyStore h
  releaseTime h := h
  powerOff h := canonical_powerOff h

end Memories

/-- Settles O60: canonical memories are kept by every change that a step makes. -/
theorem stepKeepsMemoriesCanonical : Obligations.StepKeepsMemoriesCanonical := by
  unfold Obligations.StepKeepsMemoriesCanonical
  intro s t hs ht
  exact canonical_keptBySteps.step hs ht

end Sys2Proof.Proofs.Steps
